-- ==== Sys2Proof/Word.lean ====
section
/-! DEFINITION. The word types of the F-1280 and the numbers of its parts (R4, R5, R20). -/

namespace Sys2Proof

/-- One byte. -/
abbrev Byte := BitVec 8
/-- One 16-bit memory word (R23, R130). -/
abbrev W16 := BitVec 16
/-- A tile word address, an A register, a 32-bit register (R22, R127). -/
abbrev W32 := BitVec 32
/-- A 64-bit register or tally value. -/
abbrev W64 := BitVec 64
/-- A position F:L:T as the 64-bit value of R6. -/
abbrev Pos := BitVec 64

/-- A tile number (R20). -/
abbrev TileId := Fin 1280
/-- A quire number (R20). -/
abbrev QuireId := Fin 80
/-- A room number (R374). -/
abbrev RoomId := Fin 16
/-- A PCIe function: 0 the physical function, `r + 1` the virtual function of room `r` (R407). -/
abbrev FnId := Fin 17
/-- A fabric port (R323). -/
abbrev PortId := Fin 16

end Sys2Proof
end

