-- ==== Sys2Proof/Syntax.lean ====
section
/-! DEFINITION. The commands of the F-1280: one constructor of `Instr` per row of the opcode table, and the operand types they use. -/

namespace Sys2Proof

/-! ### Operands shared by the families -/

/-- A data register D0 to D15 (R127). -/
abbrev Dn := Fin 16
/-- An address register A0 to A7 (R127). -/
abbrev An := Fin 8
/-- An accumulator ACC0 to ACC3 (R127). -/
abbrev Accn := Fin 4

/-- The source of a Position Clock (R35). -/
inductive ClockSource where
  | analog | ptp | fabric | synthetic
  deriving DecidableEq, Repr

/-- A cue entry: of the device table, or of the table of one quire (R63). -/
inductive CueRef where
  | dev (n : Fin 2048)
  | quire (q : QuireId) (n : Fin 64)
  deriving DecidableEq, Repr

/-- A DMA channel: system channel `n`, or tile channel `m` of quire `q` (R284). -/
inductive ChanRef where
  | sys (n : Fin 64)
  | tile (q : QuireId) (m : Fin 32)
  deriving DecidableEq, Repr

/-- Who writes a register: the host through one function, or supervisor code of one tile (R63, R247, R410). -/
inductive Writer where
  | host (f : FnId)
  | tile (t : TileId)
  deriving DecidableEq, Repr

/-- The addressing modes of LD, ST, LDA and STA (R135). -/
inductive Mode where
  | ind
  | postInc
  | preDec
  | disp (d : BitVec 16)
  deriving DecidableEq, Repr

/-- The second operand `b` of opcodes 0x0C to 0x13: a D register or `i16` (R143). -/
inductive Src where
  | reg (y : Dn)
  | imm (i : BitVec 16)
  deriving DecidableEq, Repr

/-- The count of a shift: a D register or `k` (R144). -/
inductive ShiftBy where
  | reg (y : Dn)
  | imm (k : Fin 16)
  deriving DecidableEq, Repr

/-- The operand of MOVA: an A register or `i32` (R141). -/
inductive ASrc where
  | reg (y : An)
  | imm (i : BitVec 32)
  deriving DecidableEq, Repr

/-- The displacement of LEA (R141). -/
inductive LeaDisp where
  | d16 (d : BitVec 16)
  | d32 (d : BitVec 32)
  deriving DecidableEq, Repr

/-- The operand of ADDA (R143). -/
inductive AddaSrc where
  | reg (y : Dn)
  | d16 (d : BitVec 16)
  | d32 (d : BitVec 32)
  deriving DecidableEq, Repr

/-- The target of JMP: an A register or an absolute address; of CALL: an A register or a displacement (R149). -/
inductive JumpTo where
  | reg (y : An)
  | imm (a : BitVec 32)
  deriving DecidableEq, Repr

/-- The fields of a vector instruction beside its function (R199). -/
structure VOps where
  ty : Fin 8
  ixm : Fin 4
  va : Fin 256
  vb : Fin 256
  vd : Fin 256
  vc : Fin 256
  deriving DecidableEq, Repr

/-- The fields of ZRD and ZWR (R208). -/
structure ZMove where
  ix : Bool
  row : Fin 256
  d : Fin 4
  zrow : Fin 32
  half : Fin 2
  deriving DecidableEq, Repr

/-- The fields of MMA (R208). -/
structure MmaOps where
  zs : Bool
  d : Fin 4
  a : Fin 8
  b : Fin 8
  fa : Fin 16
  fb : Fin 16
  deriving DecidableEq, Repr

/-- Who sends a journaled command: the client's pair and the transport it came by (R445, R466 SOURCE, #6300.04). -/
structure Req where
  client : BitVec 32
  cseq : BitVec 32
  source : BitVec 8
  session : BitVec 32
  deriving DecidableEq, Repr

/-- A formation record (R375): the fields of its 80 bytes and the 34 bytes of each owned quire. -/
structure QuireNeed where
  groups : BitVec 8
  need : List (BitVec 16)
  deriving DecidableEq, Repr

/-- A formation record (R375). -/
structure FormRec where
  room : BitVec 8
  policy : BitVec 8
  hbmShare : BitVec 8
  meshWeight : BitVec 8
  fabricWeight : BitVec 8
  dmaRate : BitVec 16
  quires : BitVec 80
  sdma : BitVec 64
  hbmUnits : List (BitVec 32)
  ltBase : BitVec 16
  ltCount : BitVec 16
  ftBase : BitVec 16
  ftCount : BitVec 16
  jobId : BitVec 32
  home : BitVec 16
  cueBase : BitVec 16
  cueCount : BitVec 16
  twBase : BitVec 16
  twCount : BitVec 16
  perQuire : List QuireNeed
  deriving DecidableEq, Repr

/-- A Bilbin frame on Ethernet or the mailbox (R445). -/
structure Frame where
  ver : BitVec 8
  op : BitVec 8
  flags : BitVec 16
  session : BitVec 32
  client : BitVec 32
  cseq : BitVec 32
  index : BitVec 16
  sub : BitVec 8
  status : BitVec 8
  length : BitVec 16
  segment : BitVec 16
  total : BitVec 32
  accession : BitVec 64
  subId : BitVec 32
  payload : List Byte
  tag : List Byte
  crc : BitVec 32
  deriving DecidableEq, Repr

/-- A fabric packet (R332). `op`: 1 READ, 2 WRITE, 3 WACK, 4 RDATA, 5 ERR, 6 CTRL. `len` is LEN: the length of the payload; of a READ, the bytes asked for. -/
structure Packet where
  op : BitVec 4
  cls : BitVec 2
  v : Bool
  dst : BitVec 16
  src : BitVec 16
  tag : BitVec 16
  jobId : BitVec 32
  addr : BitVec 56
  err : BitVec 8
  len : BitVec 8
  payload : List Byte
  pchk : BitVec 32
  deriving DecidableEq, Repr

/-- The header of a link flit (R325), whether its LCRC is good, and what the FEC below it reports. -/
structure FlitHdr where
  seq : BitVec 12
  ack : BitVec 12
  ackv : Bool
  nak : Bool
  cr0vc : Fin 16
  cr0cnt : BitVec 12
  cr1vc : Fin 16
  cr1cnt : BitVec 12
  lcrcOk : Bool
  /-- FEC codewords that came with it or since the flit before it: corrected, and uncorrectable (R323, R351, R352). -/
  corrected : BitVec 16 := 0
  uncorrectable : BitVec 16 := 0
  deriving DecidableEq, Repr

/-- The payload of an EXCH flit (R336). -/
structure Exch where
  incarnation : BitVec 32
  domainId : BitVec 32
  device : BitVec 16
  x : BitVec 8
  y : BitVec 8
  z : BitVec 8
  port : BitVec 8
  session : BitVec 16
  rxNext : BitVec 16
  resume : Bool
  deriving DecidableEq, Repr

/-- The payload of a SYNC flit (R341). -/
structure SyncWord where
  pos : Pos
  txTs : BitVec 64
  echoTs : BitVec 64
  echoHold : BitVec 64
  keeper : BitVec 16
  epoch : BitVec 32
  heartbeat : BitVec 32
  hops : BitVec 8
  state : BitVec 2
  valid : Bool
  deriving DecidableEq, Repr

/-- What a PTP master announces of itself, in the order in which the best master is chosen (R39, log 110). -/
structure PtpMaster where
  priority1 : BitVec 8
  clockClass : BitVec 8
  accuracy : BitVec 8
  variance : BitVec 16
  priority2 : BitVec 8
  grandmaster : BitVec 64
  steps : BitVec 16
  sender : BitVec 64
  deriving DecidableEq, Repr

/-- A PTP time: seconds and nanoseconds (R39, R40). -/
structure PtpTime where
  seconds : BitVec 64
  nanos : BitVec 32
  deriving DecidableEq, Repr

/-- A PTP Sync message as a management port takes it (R39): its domain, its master, the time it carries, and of a two-step master the precise time that its Follow_Up brings. -/
structure PtpSync where
  domain : BitVec 8
  master : PtpMaster
  origin : PtpTime
  followUp : Option PtpTime
  deriving DecidableEq, Repr

/-- The fields of ROUTE_UPDATE (R334). -/
structure RouteUpd where
  device : BitVec 16
  incarnation : BitVec 32
  portsUp : BitVec 16
  epoch : BitVec 32
  deriving DecidableEq, Repr

/-- How a DMA request ends (R297, R366): done (with the bytes of a host read), or the bus error `code` of R296. -/
inductive ReqEnd where
  | ok (data : List Byte)
  | err (code : BitVec 8)
  deriving DecidableEq, Repr

/-- Who asks for a room reset or declares a fault: `ROOM_CTL` through the room's function, or the command (R382, R387). -/
inductive RoomBy where
  | reg
  | cmd (r : Req)
  deriving DecidableEq, Repr

/-- An output that can be shorted (R584): the reference loop-out, or an SDI output. -/
inductive VidOut where
  | refLoop
  | sdi (m : Fin 2)
  deriving DecidableEq, Repr

/-- How a read of a mailbox slot in host memory ends (R423, R424). -/
inductive SlotRead where
  | slot (len : BitVec 16) (bytes : List Byte)
  | failed
  deriving DecidableEq, Repr

/-- The outcome of DP link training (R515): a rate code of GLZ_OUT_STAT.LINK with its lanes, or none. -/
inductive DpTrain where
  | up (link : Fin 4) (lanes : Fin 16)
  | fail
  deriving DecidableEq, Repr

/-! ### The commands -/

/-- One constructor per row of spec/opcode_table.json, in the table's order. -/
inductive Instr where
  -- register access
  | registerWrite (w : Writer) (off : BitVec 24) (size : Fin 16) (v : W64)
  /-- A BAR0 read of `size` bytes: of a low half, of the high half after it, or of a whole register. -/
  | lowHalfRead (f : FnId) (off : BitVec 24) (size : Fin 16)
  | bar0LowHalfWrite (f : FnId) (off : BitVec 24) (v : W32)
  | bar0HighHalfWrite (f : FnId) (off : BitVec 24) (v : W32)
  -- Position Clock
  | positionTick
  | sourcePresent (src : ClockSource) (fmt : Fin 17)
  | sourceLost (src : ClockSource)
  | formatChange (fmt : Fin 17)
  | lockGained (frame : BitVec 36) (line : BitVec 14) (tick : BitVec 14) (sincePtp : Nat)
  | step (p : Pos) (offsetNs : Int)
  | stepTo (r : Req) (p : Pos)
  | disagree (src : ClockSource) (offsetNs : Int)
  | disagreeClear (src : ClockSource) (offsetNs : Int)
  | switchToSecondary (offsetNs : Int)
  | revertToPrimary (offsetNs : Int)
  | aged
  | ptpSync (port : Fin 2) (m : PtpSync) (offsetNs : Int)
  | syncWordSend (p : PortId) (txTs : W64)
  | syncWord (p : PortId) (h : FlitHdr) (payload : List Byte) (tRx : W64) (stepTo : Bool)
  | keeperLost
  | candidacy (p : PortId) (dev : BitVec 16) (epoch : W32)
  | electionClose
  -- cues
  | cueArm (w : Writer) (c : CueRef) (ctl : W64)
  | cueDisarm (w : Writer) (c : CueRef) (ctl : W64)
  | armDeviceCue (r : Req) (index : BitVec 16) (pos addr ctl tgt : W64)
  | disarmDeviceCue (r : Req) (index : BitVec 16)
  | advanceTally (c : CueRef)
  | startDma (c : CueRef)
  | launchTask (c : CueRef)
  | glazeCommit (c : CueRef)
  | repartition (c : CueRef)
  | haltAtCueBoundary (room : RoomId)
  -- tallies
  | tallyAdv (f : FnId) (tally : Fin 5120) (v : W32)
  | tallyAdvance (r : Req) (room : BitVec 8) (tally : BitVec 16) (amount : BitVec 16)
  | localAdvanceApply (tally : Fin 5120)
  | watchArm (f : FnId) (n : Fin 256) (ctl : W32)
  | advance (src : BitVec 16) (tally : BitVec 16) (amount : BitVec 16) (jobId : W32)
  | update (tally : BitVec 16) (value : W64) (jobId : W32)
  | join (src : BitVec 16) (group : BitVec 8) (jobId : W32)
  | joinReply (group : BitVec 8) (half : Fin 2) (jobId : W32) (values : List W64)
  | nack (tally : BitVec 16) (code : BitVec 8) (jobId : W32)
  | fabricRetry (tally : BitVec 16)
  | fabricNackTimeout (tally : BitVec 16)
  | faultToHome (src : BitVec 16) (jobId : W32) (cause : BitVec 8)
  | faultNotice (jobId : W32) (origin : BitVec 16) (cause : BitVec 8)
  -- tile core: moves and memory
  | nop (t : TileId)
  | mov (t : TileId) (x y : Dn)
  | movi (t : TileId) (x : Dn) (i : W16)
  | mova (t : TileId) (x : An) (y : ASrc)
  | getl (t : TileId) (x : Dn) (y : An)
  | geth (t : TileId) (x : Dn) (y : An)
  | putl (t : TileId) (x : An) (y : Dn)
  | puth (t : TileId) (x : An) (y : Dn)
  | ld (t : TileId) (x : Dn) (y : An) (m : Mode)
  | st (t : TileId) (x : Dn) (y : An) (m : Mode)
  | lda (t : TileId) (x : An) (y : An) (m : Mode)
  | sta (t : TileId) (x : An) (y : An) (m : Mode)
  | lea (t : TileId) (x : An) (y : An) (d : LeaDisp)
  | push (t : TileId) (x : Dn)
  | pop (t : TileId) (x : Dn)
  | pusha (t : TileId) (x : An)
  | popa (t : TileId) (x : An)
  -- arithmetic and bit fields
  | add (t : TileId) (x : Dn) (b : Src)
  | addc (t : TileId) (x : Dn) (b : Src)
  | sub (t : TileId) (x : Dn) (b : Src)
  | subc (t : TileId) (x : Dn) (b : Src)
  | cmp (t : TileId) (x : Dn) (b : Src)
  | and (t : TileId) (x : Dn) (b : Src)
  | or (t : TileId) (x : Dn) (b : Src)
  | xor (t : TileId) (x : Dn) (b : Src)
  | not (t : TileId) (x : Dn)
  | neg (t : TileId) (x : Dn)
  | abs (t : TileId) (x : Dn)
  | shl (t : TileId) (x : Dn) (k : ShiftBy)
  | shr (t : TileId) (x : Dn) (k : ShiftBy)
  | sar (t : TileId) (x : Dn) (k : ShiftBy)
  | rol (t : TileId) (x : Dn) (k : ShiftBy)
  | mul (t : TileId) (x y : Dn)
  | mulu (t : TileId) (x y : Dn)
  | mulh (t : TileId) (x y : Dn)
  | mulhu (t : TileId) (x y : Dn)
  | adda (t : TileId) (x : An) (b : AddaSrc)
  | cmpa (t : TileId) (x y : An)
  | ext (t : TileId) (x y : Dn) (spec : W16)
  | ins (t : TileId) (x y : Dn) (spec : W16)
  | bswap (t : TileId) (x y : Dn)
  | clz (t : TileId) (x y : Dn)
  | popc (t : TileId) (x y : Dn)
  -- accumulators
  | mac (t : TileId) (n : Accn) (i j : An)
  | macs (t : TileId) (n : Accn) (i j : An)
  | msu (t : TileId) (n : Accn) (i j : An)
  | macu (t : TileId) (n : Accn) (i j : An)
  | macr (t : TileId) (n : Accn) (x y : Dn)
  | clra (t : TileId) (n : Accn)
  | rdacc (t : TileId) (x : Dn) (n : Accn) (spec : W16)
  | wracc (t : TileId) (n : Accn) (y : Dn)
  | addacc (t : TileId) (n m : Accn)
  | stacc (t : TileId) (n : Accn) (y : An)
  | ldacc (t : TileId) (n : Accn) (y : An)
  -- control flow
  | br (t : TileId) (cc : Fin 16) (d : W16)
  | brl (t : TileId) (cc : Fin 16) (d : W32)
  | jmp (t : TileId) (a : JumpTo)
  | call (t : TileId) (a : JumpTo)
  | ret (t : TileId)
  | loop (t : TileId) (x : Dn) (d : W16)
  -- events, time, tallies, system
  | waits (t : TileId) (x : Dn)
  | sig (t : TileId) (x : Dn)
  | waitp (t : TileId) (y : An)
  | waitpWake (t : TileId)
  | waitt (t : TileId) (x : Dn) (y : An)
  | waittDeadline (t : TileId)
  | tadv (t : TileId) (x : Dn) (b : Src)
  | trd (t : TileId) (x : Dn) (y : An)
  | rdpos (t : TileId) (y : An)
  | dmago (t : TileId) (x : Dn) (y : An)
  | fence (t : TileId)
  | icinv (t : TileId) (y : An)
  | icinvAll (t : TileId)
  | mfsw (t : TileId) (x : Dn)
  | mtsw (t : TileId) (y : Dn)
  | mfcr (t : TileId) (x : Dn) (cr : Fin 64)
  | mtcr (t : TileId) (cr : Fin 64) (y : Dn)
  | take (t : TileId) (y : Dn)
  | gate (t : TileId) (g : W16)
  | reti (t : TileId)
  | retiInterruption (t : TileId)
  | noint (t : TileId) (n : W16)
  | nointExpire (t : TileId)
  | halt (t : TileId)
  | storeDrain (t : TileId)
  | interruptAccept (t : TileId)
  | asyncFault (t : TileId)
  | perf (t : TileId) (n : Fin 4)
  -- vector unit
  | vadd (t : TileId) (v : VOps)
  | vsub (t : TileId) (v : VOps)
  | vmul (t : TileId) (v : VOps)
  | vfma (t : TileId) (v : VOps)
  | vmin (t : TileId) (v : VOps)
  | vmax (t : TileId) (v : VOps)
  | vabs (t : TileId) (v : VOps)
  | vneg (t : TileId) (v : VOps)
  | vand (t : TileId) (v : VOps)
  | vor (t : TileId) (v : VOps)
  | vxor (t : TileId) (v : VOps)
  | vshl (t : TileId) (v : VOps)
  | vshr (t : TileId) (v : VOps)
  | vsar (t : TileId) (v : VOps)
  | vcmpeq (t : TileId) (v : VOps)
  | vcmplt (t : TileId) (v : VOps)
  | vcmple (t : TileId) (v : VOps)
  | vsel (t : TileId) (v : VOps)
  | vmov (t : TileId) (v : VOps)
  | vbcast (t : TileId) (v : VOps)
  | vsum (t : TileId) (v : VOps)
  | vcvt (t : TileId) (v : VOps)
  | vpack (t : TileId) (v : VOps)
  | vunpk (t : TileId) (v : VOps)
  -- matrix unit and tile registers
  | zrd (t : TileId) (z : ZMove)
  | zwr (t : TileId) (z : ZMove)
  | tld (t : TileId) (n : Fin 8) (y : An) (x : Dn)
  | tst (t : TileId) (n : Fin 8) (y : An) (x : Dn)
  | zld (t : TileId) (d : Fin 4) (y : An) (x : Dn)
  | zst (t : TileId) (d : Fin 4) (y : An) (x : Dn)
  | rld (t : TileId) (row : Fin 512) (ix : Bool) (y : An)
  | rst (t : TileId) (row : Fin 512) (ix : Bool) (y : An)
  | mma (t : TileId) (m : MmaOps)
  | mmaMx (t : TileId) (m : MmaOps) (s : Fin 8)
  | zclr (t : TileId) (d : Fin 4)
  | xmf (t : TileId) (x : Dn) (u : Fin 128)
  | xmt (t : TileId) (u : Fin 128) (y : Dn)
  | xuCtx (t : TileId) (y : Dn)
  | xwait (t : TileId)
  -- quire cache and memory
  | cacheFill (q : QuireId) (k : Fin 16) (line : BitVec 31)
  | zero (w : Writer) (q : QuireId) (all : Bool) (lines : BitVec 16) (line : BitVec 31)
  | writeback (w : Writer) (q : QuireId) (all : Bool) (lines : BitVec 16) (line : BitVec 31)
  | invalidate (w : Writer) (q : QuireId) (all : Bool) (lines : BitVec 16) (line : BitVec 31)
  | wbInv (w : Writer) (q : QuireId) (all : Bool) (lines : BitVec 16) (line : BitVec 31)
  | cmdDone (q : QuireId)
  | waymapChange (w : Writer) (q : QuireId) (groups : Fin 8)
  | waymapDone (q : QuireId)
  | qcHbmwin (w : Writer) (q : QuireId) (k : Fin 16) (v : W64)
  | hbmwinApply (q : QuireId) (k : Fin 16)
  | scrub (granule : Fin 25769803776)
  -- DMA
  | go (f : FnId) (n : Fin 64) (ctrl : W64)
  | pause (f : FnId) (n : Fin 64) (ctrl : W64)
  | resume (f : FnId) (n : Fin 64) (ctrl : W64)
  | abort (f : FnId) (n : Fin 64) (ctrl : W64)
  | descriptorFetch (c : ChanRef)
  | pieceIssue (c : ChanRef)
  | requestComplete (c : ChanRef) (tag : BitVec 16) (e : ReqEnd)
  | timeout (c : ChanRef) (tag : BitVec 16)
  | descriptorComplete (c : ChanRef)
  | drainDone (c : ChanRef)
  | abortDone (c : ChanRef)
  -- windows, fabric
  | fabricRead (p : Packet)
  | fabricWrite (p : Packet)
  | wack (p : Packet)
  | rdata (p : Packet)
  | err (p : Packet)
  | packetForward (p : PortId) (k : Packet)
  | routeUpdate (p : PortId) (u : RouteUpd)
  | windowOpen (r : Req) (window room perm : BitVec 8) (jobId : W32) (base size : W64)
  | windowClose (r : Req) (window : BitVec 8)
  | trainComplete (p : PortId) (lanes : BitVec 8)
  | exchSend (p : PortId)
  | exchFlit (p : PortId) (lcrcOk : Bool) (payload : List Byte)
  | dataFlit (p : PortId) (h : FlitHdr) (packets : List Packet)
  | idleFlit (p : PortId) (h : FlitHdr)
  | replay (p : PortId)
  | linkLost (p : PortId)
  | holdExpired (p : PortId)
  | refusedRetrain (p : PortId)
  | meshHeader
  | inject (r : Req) (room point kind : BitVec 8) (count : BitVec 16)
  -- rooms
  | roomForm (r : Req) (f : FormRec)
  | formed (room : RoomId)
  | roomDissolve (r : Req) (room : BitVec 8)
  | dissolutionDone (room : RoomId)
  | hbmUnitCleared
  | roomReset (b : RoomBy) (room : RoomId)
  | flrWaitExpiry (room : RoomId)
  | roomDeclareFault (b : RoomBy) (room : RoomId) (detail : BitVec 16)
  | roomQos (r : Req) (room hbmShare meshWeight fabricWeight : BitVec 8) (dmaRate : BitVec 16)
  | planWrite (r : Req) (plan : BitVec 8) (dissolve : BitVec 16) (formations : List FormRec)
  | vectorDelivery (owner : Fin 17) (v : Fin 256)
  -- host attachment
  | functionLevelReset (f : FnId)
  | vfEnableClear (enable : Bool) (numVfs : Fin 17)
  | linkLoss
  | perstDeassert
  | linkReturn
  | apertureWrite (f : FnId) (off : W32) (bytes : List Byte) (checkOk : Bool)
  | apertureRead (f : FnId) (off : W32) (len : BitVec 13)
  | msixUnmask (f : FnId) (entry : Option (Fin 128))
  | mbxEnable (f : FnId) (ctl : W32)
  | mbxDisable (f : FnId)
  | mbxReqTail (f : FnId) (v : W16)
  | mbxSlotRead (f : FnId) (r : SlotRead)
  | mbxRspHead (f : FnId) (v : W16)
  -- Bilbin
  | hello (transport : BitVec 8) (fr : Frame)
  | auth (transport : BitVec 8) (fr : Frame)
  | authHoldoffEnd (slot : Fin 33)
  | read (transport : BitVec 8) (fr : Frame)
  | snapshotExpiry (session : W32)
  | write (transport : BitVec 8) (fr : Frame)
  | assemblyTimeout (client cseq : W32)
  | keySlot (r : Req) (slot : Fin 32) (len : BitVec 8) (key : List Byte) (perm : BitVec 8) (rooms : BitVec 16) (base : W32) (count : BitVec 16)
  | ack (transport : BitVec 8) (fr : Frame)
  | ledgerRead (transport : BitVec 8) (fr : Frame)
  | subscribe (transport : BitVec 8) (fr : Frame)
  | unsubscribe (transport : BitVec 8) (fr : Frame)
  | notify (subId : W32)
  | bye (transport : BitVec 8) (fr : Frame)
  | sessionIdleTimeout (session : W32)
  | smbusBlockWrite (block : List Byte) (pecOk : Bool)
  | smbusBlockRead
  | smbusSclTimeout
  -- Ledger and Vault
  | checkpointBegin
  | checkpointComplete
  | eventDeferredRecord
  | vaultWrite (r : Req) (room : BitVec 8) (object : BitVec 16) (tag : W32) (source length : W64) (tally amount : BitVec 16)
  | vaultRead (r : Req) (room : BitVec 8) (object : BitVec 16) (tag : W32) (offset dest length : W64) (tally amount : BitVec 16)
  | vaultDelete (r : Req) (room : BitVec 8) (object : BitVec 16) (tag : W32)
  | vaultStop (r : Req) (room : BitVec 8)
  | vaultJobStart
  | extentComplete (ok : Bool)
  -- Glaze
  | pipeAssign (r : Req) (room pipe : BitVec 8)
  | pipeShadow (r : Req) (room pipe : BitVec 8) (shadow coef : W64)
  | commit (r : Req) (room mask : BitVec 8)
  | shadowCheck (p : Fin 2)
  | decisionPoint (p : Fin 2)
  | frameBoundary (p : Fin 2) (underrun : Bool)
  | hotPlugDetect (high : Bool)
  | dpLinkTraining (d : DpTrain)
  | currentLimit (o : VidOut)
  | outputFault (o : VidOut)
  | faultRetry (o : VidOut)
  | retryEnd (o : VidOut)
  -- power, reset, boot, firmware
  | idleTimer
  | standbyAfterIdle
  | blockAnswer (activity : Bool)
  | blockTimeout
  | powerRequestLeaveIdle (r : Req)
  | powerRequestIdle (r : Req)
  | powerRequestStandby (r : Req)
  | standbyEntry
  | freeQuireGate (q : QuireId)
  | quireGate (r : Req) (room : BitVec 8) (mask : BitVec 80)
  | quireGatingDone
  | quireWake (r : Req) (room : BitVec 8) (mask : BitVec 80)
  | quireWakeDone (q : QuireId)
  | brownOut
  | wakePin (pin : Fin 2) (level : Bool)
  | smbusWake
  | powerOn
  | inputLost
  | inputReturn
  | auxGood (asel : BitVec 2)
  | auxLost
  | throttle (tenths : Int) (watts : BitVec 16)
  | throttleRaise (tenths : Int) (watts : BitVec 16)
  | thermalShutdown (tenths : Int)
  | thermalRecovery (tenths : Int)
  | sysRstN
  | sysRstNRelease
  | watchdog
  | deviceReset (r : Req) (v : BitVec 8)
  | rom
  | ledgerRecovery (torn : List Nat)
  | verify
  | steward
  | fwChunk (r : Req) (kind : BitVec 8) (offset : W32) (data : List Byte)
  | fwCommit (r : Req) (kind : BitVec 8) (len : W32)
  | fwSelect (r : Req) (kind : BitVec 8)
  | securityRaise (r : Req) (kind : BitVec 8) (value : BitVec 16)
  -- the table's last rows
  | analogReferencePoint (fmt : Fin 17) (offsetNs : Int)
  | hbmWriteAccepted (t : TileId) (line : BitVec 31)
  | shortRemoved (o : VidOut)
  | holdupExhausted
  deriving DecidableEq, Repr

end Sys2Proof
end

