-- ==== Sys2Proof/Machine/Bytes.lean ====
section
/-! DEFINITION. Byte order, bit fields and the CRC-32C: the coding helpers of every chapter (R5, R356, R436). -/

namespace Sys2Proof.Machine

/-- The `n` bytes of `v`, least significant first (R5, R436). -/
def leBytes : Nat → Nat → List Byte
  | 0, _ => []
  | n + 1, v => BitVec.ofNat 8 v :: leBytes n (v / 256)

/-- The number that bytes encode, least significant first. -/
def leNat : List Byte → Nat
  | [] => 0
  | b :: bs => b.toNat + 256 * leNat bs

/-- `n` bytes of `bs` from position `i`; what lies beyond the end reads 0. -/
def slice (bs : List Byte) (i n : Nat) : List Byte :=
  (bs.drop i).take n ++ List.replicate (n - (bs.length - i)) 0

/-- The number in `n` bytes of `bs` from position `i`. -/
def fieldAt (bs : List Byte) (i n : Nat) : Nat := leNat (slice bs i n)

/-- Bits `lo + w - 1 : lo` of a number (R5). -/
def bitsOf (v lo w : Nat) : Nat := v / 2 ^ lo % 2 ^ w

/-- `v` with bits `lo + w - 1 : lo` replaced by those of `x`. -/
def setBits (v lo w x : Nat) : Nat := v - bitsOf v lo w * 2 ^ lo + x % 2 ^ w * 2 ^ lo

/-- A Bool as a bit. -/
def bit (b : Bool) : Nat := if b then 1 else 0

/-- The bytes of a text in ASCII (R436 STR). -/
def ascii (t : String) : List Byte := t.toList.map fun c => BitVec.ofNat 8 c.toNat

/-- The 0 bytes `n` long. -/
def zeros (n : Nat) : List Byte := List.replicate n 0

/-- `bs` cut or padded with zeros to `n` bytes. -/
def padTo (n : Nat) (bs : List Byte) : List Byte := slice bs 0 n

/-- One bit step of the reflected CRC-32C division (R356). -/
def crcStep (c : BitVec 32) : BitVec 32 :=
  if c.getLsbD 0 then (c >>> 1) ^^^ 0x82F63B78#32 else c >>> 1

/-- One byte into the CRC. -/
def crcByte (c : BitVec 32) (b : Byte) : BitVec 32 :=
  let x := c ^^^ b.setWidth 32
  crcStep (crcStep (crcStep (crcStep (crcStep (crcStep (crcStep (crcStep x)))))))

/-- The CRC-32C of bytes in order (R356). -/
def crc32c (bs : List Byte) : BitVec 32 := ~~~ (bs.foldl crcByte 0xFFFFFFFF#32)

/-- The indexes `i < n` whose bit of `m` is set, rising. -/
def bitList (n : Nat) (m : Nat) : List Nat := (List.range n).filter fun i => m.testBit i

/-- Apply `f` for each `i < n`, rising. -/
def forN {σ : Type} (n : Nat) (f : Nat → σ → σ) (s : σ) : σ := (List.range n).foldl (fun s i => f i s) s

/-- Apply `f` for each element, first to last. -/
def forL {α σ : Type} (l : List α) (f : α → σ → σ) (s : σ) : σ := l.foldl (fun s i => f i s) s

/-- A list with the element at `i` replaced. -/
def setAt {α : Type} : List α → Nat → α → List α
  | [], _, _ => []
  | _ :: t, 0, v => v :: t
  | a :: t, n + 1, v => a :: setAt t n v

/-- The last `n` elements of a list. -/
def lastN {α : Type} (n : Nat) (l : List α) : List α := l.drop (l.length - n)

/-- A saturating addition to a 64-bit counter is plain addition: no counter of the manual reaches 2^64. -/
def inc {w : Nat} (v : BitVec w) : BitVec w := v + 1

end Sys2Proof.Machine
end

