-- ==== Sys2Proof/Machine/Entries.lean ====
section
/-! DEFINITION. The documented entries of the Catalogue: type, access, persistence and default of each (R435 to R440), from the tables of R19, R62, R91, R126, R283, R310, R352, R373, R404, R434, R441, R465, R492, R518 and R557. -/

namespace Sys2Proof.Machine

/-- A row of an entry table: the entries `index.lo` to `index.hi`. Types 0 to 9, access 0 to 5 and persistence 0 to 2 are coded as DIRECTORY codes them (R441). -/
structure EntryDef where
  index : Nat
  lo : Nat
  hi : Nat
  typ : Nat
  access : Nat
  persist : Nat
  dflt : List Byte
  deriving DecidableEq, Repr

/-- Entries of the range 1000, in order, part 1. -/
def entries1000a : List EntryDef :=
  [ ⟨0x1000, 0x01, 0x01, 7, 0, 2, ascii "Auphor Semiconductor"⟩,
    ⟨0x1000, 0x02, 0x02, 7, 0, 2, ascii "Frestaro F-1280"⟩,
    ⟨0x1000, 0x03, 0x03, 7, 0, 2, ascii "B0"⟩,
    ⟨0x1000, 0x04, 0x04, 7, 0, 2, []⟩,
    ⟨0x1000, 0x05, 0x05, 3, 0, 2, []⟩,
    ⟨0x1001, 0x01, 0x01, 3, 0, 2, []⟩,
    ⟨0x1001, 0x02, 0x02, 3, 1, 1, []⟩,
    ⟨0x1001, 0x03, 0x03, 3, 1, 0, leBytes 4 0⟩,
    ⟨0x1001, 0x04, 0x04, 9, 1, 0, []⟩,
    ⟨0x1002, 0x01, 0x01, 2, 0, 2, leBytes 2 1⟩,
    ⟨0x1002, 0x02, 0x02, 1, 0, 2, leBytes 1 1⟩,
    ⟨0x1003, 0x01, 0x01, 9, 1, 0, []⟩ ]

/-- Entries of the range 1000, in order, part 2. -/
def entries1000b : List EntryDef :=
  [ ⟨0x1010, 0x01, 0x01, 3, 1, 0, leBytes 4 0⟩,
    ⟨0x1010, 0x02, 0x02, 1, 1, 0, leBytes 1 0⟩,
    ⟨0x1030, 0x01, 0x04, 8, 0, 2, []⟩ ]

/-- Entries of the range 2000, in order, part 1. -/
def entries2000a : List EntryDef :=
  [ ⟨0x2000, 0x01, 0x01, 6, 1, 0, []⟩,
    ⟨0x2000, 0x02, 0x02, 1, 1, 0, leBytes 1 0⟩,
    ⟨0x2000, 0x03, 0x03, 1, 1, 0, leBytes 1 0⟩,
    ⟨0x2001, 0x01, 0x01, 2, 3, 1, leBytes 2 1125⟩,
    ⟨0x2001, 0x02, 0x02, 2, 3, 1, leBytes 2 2640⟩,
    ⟨0x2001, 0x03, 0x03, 3, 3, 1, leBytes 4 25⟩,
    ⟨0x2001, 0x04, 0x04, 3, 3, 1, leBytes 4 1⟩,
    ⟨0x2001, 0x05, 0x05, 4, 3, 1, leBytes 8 0⟩,
    ⟨0x2010, 0x01, 0x01, 1, 3, 1, leBytes 1 4⟩,
    ⟨0x2010, 0x02, 0x02, 1, 3, 1, leBytes 1 0⟩,
    ⟨0x2010, 0x03, 0x03, 3, 2, 1, leBytes 4 1000⟩,
    ⟨0x2010, 0x04, 0x04, 3, 2, 1, leBytes 4 1000⟩ ]

/-- Entries of the range 2000, in order, part 2. -/
def entries2000b : List EntryDef :=
  [ ⟨0x2010, 0x05, 0x05, 3, 2, 1, leBytes 4 10000⟩,
    ⟨0x2010, 0x06, 0x06, 3, 2, 1, leBytes 4 60⟩,
    ⟨0x2010, 0x07, 0x07, 3, 2, 1, leBytes 4 100000⟩,
    ⟨0x2011, 0x01, 0x01, 5, 1, 0, leBytes 4 0⟩,
    ⟨0x2011, 0x02, 0x02, 1, 1, 0, leBytes 1 0⟩,
    ⟨0x2012, 0x01, 0x01, 6, 5, 1, []⟩,
    ⟨0x2020, 0x01, 0x01, 1, 3, 1, leBytes 1 127⟩,
    ⟨0x2020, 0x02, 0x02, 4, 3, 1, leBytes 8 0⟩,
    ⟨0x2030, 0x01, 0x01, 0, 2, 1, [1]⟩,
    ⟨0x2030, 0x02, 0x02, 2, 1, 0, []⟩,
    ⟨0x2030, 0x03, 0x03, 3, 1, 0, leBytes 4 0⟩,
    ⟨0x2030, 0x04, 0x04, 1, 1, 0, leBytes 1 0⟩ ]

/-- Entries of the range 2000, in order, part 3. -/
def entries2000c : List EntryDef :=
  [ ⟨0x2030, 0x05, 0x05, 1, 1, 0, leBytes 1 255⟩,
    ⟨0x2031, 0x01, 0x10, 5, 2, 1, leBytes 4 0⟩,
    ⟨0x2040, 0x01, 0x01, 2, 3, 1, leBytes 2 0⟩,
    ⟨0x2040, 0x02, 0x02, 1, 3, 1, leBytes 1 1⟩,
    ⟨0x2040, 0x03, 0x03, 1, 1, 0, leBytes 1 0⟩,
    ⟨0x2041, 0x01, 0x01, 9, 5, 1, []⟩,
    ⟨0x2041, 0x02, 0x02, 2, 5, 1, []⟩,
    ⟨0x2042, 0x01, 0x01, 4, 1, 0, leBytes 8 0⟩,
    ⟨0x2042, 0x02, 0x02, 4, 1, 0, leBytes 8 0⟩,
    ⟨0x2042, 0x03, 0x03, 4, 1, 0, leBytes 8 0⟩ ]

/-- Entries of the range 3000, in order, part 1. -/
def entries3000a : List EntryDef :=
  [ ⟨0x3000, 0x01, 0x01, 1, 0, 2, leBytes 1 16⟩,
    ⟨0x3000, 0x02, 0x02, 9, 1, 0, []⟩,
    ⟨0x3000, 0x03, 0x03, 8, 1, 0, []⟩,
    ⟨0x3000, 0x04, 0x04, 1, 2, 1, leBytes 1 128⟩,
    ⟨0x3000, 0x05, 0x05, 3, 1, 0, leBytes 4 0⟩,
    ⟨0x3001, 0x01, 0x01, 9, 5, 1, []⟩,
    ⟨0x3001, 0x02, 0x02, 1, 5, 1, []⟩,
    ⟨0x3002, 0x01, 0x01, 1, 5, 1, []⟩,
    ⟨0x3003, 0x01, 0x01, 9, 5, 1, []⟩,
    ⟨0x3004, 0x01, 0x01, 9, 5, 1, []⟩,
    ⟨0x3010, 0x01, 0x10, 9, 1, 0, []⟩,
    ⟨0x3011, 0x01, 0x10, 9, 1, 1, []⟩ ]

/-- Entries of the range 3000, in order, part 2. -/
def entries3000b : List EntryDef :=
  [ ⟨0x3012, 0x01, 0x01, 9, 1, 0, []⟩,
    ⟨0x3020, 0x01, 0x01, 9, 5, 1, []⟩,
    ⟨0x3020, 0x02, 0x02, 9, 1, 1, []⟩ ]

/-- Entries of the range 4000, in order. -/
def entries4000 : List EntryDef :=
  [ ⟨0x4000, 0x01, 0x01, 2, 0, 2, leBytes 2 4096⟩,
    ⟨0x4000, 0x02, 0x02, 2, 0, 2, leBytes 2 1024⟩,
    ⟨0x4001, 0x01, 0x01, 9, 5, 1, []⟩,
    ⟨0x4010, 0x01, 0x01, 3, 3, 1, leBytes 4 100⟩,
    ⟨0x4010, 0x02, 0x02, 2, 3, 1, leBytes 2 10⟩,
    ⟨0x4011, 0x01, 0x01, 4, 1, 0, leBytes 8 0⟩,
    ⟨0x4011, 0x02, 0x02, 4, 1, 0, leBytes 8 0⟩,
    ⟨0x4011, 0x03, 0x03, 4, 1, 0, leBytes 8 0⟩,
    ⟨0x4012, 0x01, 0x01, 9, 1, 0, []⟩ ]

/-- Entries of the range 5000, in order, part 1. -/
def entries5000a : List EntryDef :=
  [ ⟨0x5000, 0x01, 0x01, 3, 0, 2, leBytes 4 1572864⟩,
    ⟨0x5000, 0x02, 0x02, 3, 0, 2, leBytes 4 4194304⟩,
    ⟨0x5000, 0x03, 0x03, 4, 0, 2, leBytes 8 206158430208⟩,
    ⟨0x5000, 0x04, 0x04, 3, 0, 2, leBytes 4 2097152⟩,
    ⟨0x5010, 0x01, 0x01, 9, 1, 1, []⟩,
    ⟨0x5010, 0x02, 0x02, 2, 1, 1, leBytes 2 1024⟩,
    ⟨0x5010, 0x03, 0x03, 9, 1, 1, []⟩,
    ⟨0x5011, 0x01, 0x01, 3, 1, 1, leBytes 4 0⟩,
    ⟨0x5011, 0x02, 0x02, 9, 1, 1, []⟩,
    ⟨0x5012, 0x01, 0x01, 9, 1, 0, []⟩,
    ⟨0x5020, 0x01, 0x01, 1, 2, 1, leBytes 1 4⟩,
    ⟨0x5021, 0x01, 0x01, 4, 1, 0, leBytes 8 0⟩ ]

/-- Entries of the range 5000, in order, part 2. -/
def entries5000b : List EntryDef :=
  [ ⟨0x5021, 0x02, 0x02, 4, 1, 0, leBytes 8 0⟩,
    ⟨0x5021, 0x03, 0x03, 4, 1, 0, leBytes 8 0⟩,
    ⟨0x5021, 0x04, 0x04, 4, 1, 0, leBytes 8 0⟩,
    ⟨0x5021, 0x05, 0x05, 4, 1, 0, leBytes 8 0⟩,
    ⟨0x5021, 0x06, 0x06, 4, 1, 0, leBytes 8 0⟩,
    ⟨0x5022, 0x01, 0x01, 9, 1, 0, []⟩,
    ⟨0x5022, 0x02, 0x02, 4, 1, 0, leBytes 8 0⟩,
    ⟨0x5030, 0x01, 0x01, 1, 3, 1, leBytes 1 0⟩ ]

/-- Entries of the range 6000, in order, part 1. -/
def entries6000a : List EntryDef :=
  [ ⟨0x6000, 0x01, 0x01, 3, 3, 1, leBytes 4 0⟩,
    ⟨0x6000, 0x02, 0x02, 9, 3, 1, [1, 1, 1]⟩,
    ⟨0x6000, 0x03, 0x03, 9, 3, 1, [0, 0, 0]⟩,
    ⟨0x6000, 0x04, 0x04, 2, 1, 0, leBytes 2 0⟩,
    ⟨0x6001, 0x01, 0x10, 9, 3, 1, [1, 0, 255, 255]⟩,
    ⟨0x6002, 0x01, 0x10, 9, 1, 0, []⟩,
    ⟨0x6003, 0x01, 0x10, 9, 1, 0, []⟩,
    ⟨0x6004, 0x01, 0x01, 3, 3, 1, leBytes 4 1000⟩,
    ⟨0x6005, 0x01, 0x01, 3, 1, 0, leBytes 4 0⟩,
    ⟨0x6005, 0x02, 0x02, 9, 1, 0, []⟩,
    ⟨0x6100, 0x01, 0x01, 9, 1, 0, []⟩,
    ⟨0x6100, 0x02, 0x02, 3, 1, 0, leBytes 4 0⟩ ]

/-- Entries of the range 6000, in order, part 2. -/
def entries6000b : List EntryDef :=
  [ ⟨0x6100, 0x03, 0x03, 4, 1, 0, leBytes 8 0⟩,
    ⟨0x6100, 0x04, 0x04, 2, 1, 0, leBytes 2 0⟩,
    ⟨0x6200, 0x01, 0x01, 9, 5, 1, []⟩,
    ⟨0x6200, 0x02, 0x02, 1, 5, 1, []⟩,
    ⟨0x6201, 0x01, 0x01, 9, 1, 0, []⟩,
    ⟨0x6202, 0x01, 0x01, 4, 1, 0, leBytes 8 0⟩,
    ⟨0x6202, 0x02, 0x02, 9, 1, 0, []⟩,
    ⟨0x6210, 0x01, 0x01, 3, 3, 1, leBytes 4 10000⟩,
    ⟨0x6210, 0x02, 0x02, 1, 0, 2, leBytes 1 64⟩,
    ⟨0x6210, 0x03, 0x03, 4, 1, 0, leBytes 8 0⟩,
    ⟨0x6300, 0x01, 0x01, 2, 2, 1, leBytes 2 47601⟩,
    ⟨0x6300, 0x02, 0x02, 2, 2, 1, leBytes 2 60⟩ ]

/-- Entries of the range 6000, in order, part 3. -/
def entries6000c : List EntryDef :=
  [ ⟨0x6300, 0x03, 0x03, 1, 0, 2, leBytes 1 64⟩,
    ⟨0x6300, 0x04, 0x04, 9, 1, 0, []⟩,
    ⟨0x6301, 0x01, 0x20, 9, 4, 1, []⟩,
    ⟨0x6302, 0x01, 0x01, 9, 1, 1, []⟩,
    ⟨0x6303, 0x01, 0x02, 9, 2, 1, [1, 0, 0, 0, 0, 0, 0, 0, 0, 0, 1]⟩,
    ⟨0x6304, 0x01, 0x01, 9, 1, 0, []⟩,
    ⟨0x6305, 0x01, 0x01, 9, 1, 0, []⟩ ]

/-- Entries of the range 7000, in order, part 1. -/
def entries7000a : List EntryDef :=
  [ ⟨0x7000, 0x01, 0x01, 3, 0, 2, leBytes 4 65536⟩,
    ⟨0x7000, 0x02, 0x02, 2, 0, 2, leBytes 2 4608⟩,
    ⟨0x7000, 0x03, 0x03, 3, 1, 0, []⟩,
    ⟨0x7000, 0x04, 0x04, 3, 1, 0, []⟩,
    ⟨0x7000, 0x05, 0x05, 4, 1, 1, []⟩,
    ⟨0x7000, 0x06, 0x06, 9, 1, 1, []⟩,
    ⟨0x7000, 0x07, 0x07, 3, 2, 1, leBytes 4 8192⟩,
    ⟨0x7000, 0x08, 0x08, 4, 1, 0, leBytes 8 0⟩,
    ⟨0x7000, 0x09, 0x09, 3, 1, 0, leBytes 4 0⟩,
    ⟨0x7000, 0x10, 0x10, 3, 1, 0, leBytes 4 0⟩,
    ⟨0x7100, 0x01, 0x01, 4, 0, 2, leBytes 8 549755813888⟩,
    ⟨0x7100, 0x02, 0x02, 3, 0, 2, leBytes 4 268435456⟩ ]

/-- Entries of the range 7000, in order, part 2. -/
def entries7000b : List EntryDef :=
  [ ⟨0x7100, 0x03, 0x03, 2, 1, 1, leBytes 2 2048⟩,
    ⟨0x7100, 0x04, 0x04, 3, 1, 0, leBytes 4 0⟩,
    ⟨0x7101, 0x01, 0x04, 9, 5, 1, []⟩,
    ⟨0x7102, 0x01, 0x01, 9, 1, 1, []⟩,
    ⟨0x7102, 0x02, 0x02, 9, 1, 0, []⟩,
    ⟨0x7103, 0x01, 0x01, 9, 1, 0, []⟩,
    ⟨0x7103, 0x02, 0x02, 3, 0, 2, leBytes 4 38000⟩,
    ⟨0x7103, 0x03, 0x03, 4, 1, 0, leBytes 8 0⟩,
    ⟨0x7103, 0x04, 0x04, 2, 0, 2, leBytes 2 120⟩,
    ⟨0x7104, 0x01, 0x01, 9, 1, 0, []⟩ ]

/-- Entries of the range 8000, in order. -/
def entries8000 : List EntryDef :=
  [ ⟨0x8000, 0x01, 0x01, 1, 0, 2, leBytes 1 2⟩,
    ⟨0x8000, 0x02, 0x02, 1, 0, 2, leBytes 1 8⟩,
    ⟨0x8001, 0x01, 0x02, 9, 3, 1, [5, 0, 0, 0, 0, 0]⟩,
    ⟨0x8002, 0x01, 0x01, 9, 5, 1, []⟩,
    ⟨0x8003, 0x01, 0x01, 9, 5, 1, []⟩,
    ⟨0x8004, 0x01, 0x01, 9, 5, 1, []⟩,
    ⟨0x8005, 0x01, 0x01, 1, 2, 1, leBytes 1 2⟩,
    ⟨0x8006, 0x01, 0x02, 9, 1, 0, []⟩,
    ⟨0x8010, 0x01, 0x03, 9, 3, 1, [0, 0, 0]⟩,
    ⟨0x8011, 0x01, 0x03, 9, 1, 0, []⟩ ]

/-- Entries of the range 9000, in order, part 1. -/
def entries9000a : List EntryDef :=
  [ ⟨0x9000, 0x01, 0x01, 1, 1, 0, leBytes 1 0⟩,
    ⟨0x9000, 0x02, 0x02, 3, 1, 0, leBytes 4 0⟩,
    ⟨0x9000, 0x03, 0x03, 9, 1, 0, []⟩,
    ⟨0x9000, 0x04, 0x04, 8, 1, 0, []⟩,
    ⟨0x9000, 0x05, 0x05, 9, 1, 1, []⟩,
    ⟨0x9001, 0x01, 0x01, 1, 5, 1, []⟩,
    ⟨0x9001, 0x02, 0x02, 1, 5, 1, []⟩,
    ⟨0x9002, 0x01, 0x01, 9, 5, 1, []⟩,
    ⟨0x9002, 0x02, 0x02, 9, 5, 1, []⟩,
    ⟨0x9010, 0x01, 0x01, 3, 2, 1, leBytes 4 300⟩,
    ⟨0x9010, 0x02, 0x02, 3, 2, 1, leBytes 4 100⟩,
    ⟨0x9010, 0x03, 0x03, 3, 2, 1, leBytes 4 0⟩ ]

/-- Entries of the range 9000, in order, part 2. -/
def entries9000b : List EntryDef :=
  [ ⟨0x9011, 0x01, 0x02, 9, 2, 1, [0, 0]⟩,
    ⟨0x9011, 0x03, 0x03, 0, 2, 1, [1]⟩,
    ⟨0x9012, 0x01, 0x01, 9, 1, 1, []⟩,
    ⟨0x9012, 0x02, 0x02, 3, 1, 1, leBytes 4 0⟩,
    ⟨0x9012, 0x03, 0x03, 1, 1, 0, leBytes 1 0⟩,
    ⟨0x9020, 0x01, 0x01, 1, 2, 1, leBytes 1 1⟩,
    ⟨0x9020, 0x02, 0x02, 2, 2, 1, leBytes 2 1600⟩,
    ⟨0x9021, 0x01, 0x01, 9, 1, 0, []⟩,
    ⟨0x9021, 0x02, 0x02, 1, 0, 2, leBytes 1 95⟩,
    ⟨0x9021, 0x03, 0x03, 1, 0, 2, leBytes 1 110⟩,
    ⟨0x9021, 0x04, 0x04, 4, 1, 0, leBytes 8 0⟩,
    ⟨0x9030, 0x01, 0x01, 9, 1, 1, []⟩ ]

/-- Entries of the range 9000, in order, part 3. -/
def entries9000c : List EntryDef :=
  [ ⟨0x9030, 0x02, 0x02, 9, 1, 0, []⟩,
    ⟨0x9030, 0x03, 0x03, 9, 1, 0, []⟩,
    ⟨0x9030, 0x04, 0x04, 1, 1, 0, leBytes 1 0⟩,
    ⟨0x9030, 0x05, 0x05, 9, 1, 1, [0, 0, 0, 0]⟩,
    ⟨0x9031, 0x01, 0x01, 9, 5, 1, []⟩,
    ⟨0x9031, 0x02, 0x02, 9, 5, 1, []⟩,
    ⟨0x9031, 0x03, 0x03, 1, 5, 1, []⟩,
    ⟨0x9031, 0x04, 0x04, 9, 5, 1, []⟩,
    ⟨0x9032, 0x01, 0x01, 9, 0, 2, []⟩,
    ⟨0x9033, 0x01, 0x01, 8, 1, 0, []⟩ ]

/-- Entries of the range A000, in order. -/
def entriesA000 : List EntryDef :=
  [ ⟨0xA001, 0x01, 0x09, 9, 1, 0, []⟩,
    ⟨0xA002, 0x01, 0x01, 9, 1, 1, []⟩,
    ⟨0xA002, 0x02, 0x02, 4, 1, 1, leBytes 8 0⟩,
    ⟨0xA003, 0x01, 0x01, 2, 2, 1, leBytes 2 24⟩,
    ⟨0xA003, 0x02, 0x02, 4, 1, 1, leBytes 8 0⟩,
    ⟨0xA010, 0x01, 0x01, 0, 3, 1, [0]⟩,
    ⟨0xA010, 0x02, 0x02, 9, 5, 1, []⟩,
    ⟨0xA010, 0x03, 0x03, 9, 1, 0, []⟩,
    ⟨0xA011, 0x01, 0x01, 4, 1, 0, leBytes 8 0⟩ ]

/-- Every documented entry but the subindexes 0x00, in ascending order. -/
def entryTable : List EntryDef :=
  entries1000a ++ entries1000b ++ entries2000a ++ entries2000b ++
  entries2000c ++ entries3000a ++ entries3000b ++ entries4000 ++
  entries5000a ++ entries5000b ++ entries6000a ++ entries6000b ++
  entries6000c ++ entries7000a ++ entries7000b ++ entries8000 ++
  entries9000a ++ entries9000b ++ entries9000c ++ entriesA000

/-- The row that documents an entry. -/
def entryRow (idx sub : Nat) : Option EntryDef :=
  entryTable.find? fun e => e.index = idx && e.lo ≤ sub && sub ≤ e.hi

/-- The highest documented subindex of an index; 0 where the index is not documented (R435). -/
def topSub (idx : Nat) : Nat :=
  entryTable.foldl (fun m e => if e.index = idx then Nat.max m e.hi else m) 0

/-- What the manual documents of an entry, subindex 0x00 included (R435). -/
def entryDef (idx sub : Nat) : Option EntryDef :=
  if sub = 0 then (if topSub idx = 0 then none else some ⟨idx, 0, 0, 1, 0, 2, [BitVec.ofNat 8 (topSub idx)]⟩)
  else entryRow idx sub

/-- The bytes of a type of fixed length; none for STR, OCTETS and RECORD (R436). -/
def typeLen : Nat → Option Nat
  | 0 => some 1
  | 1 => some 1
  | 2 => some 2
  | 3 => some 4
  | 4 => some 8
  | 5 => some 4
  | 6 => some 8
  | _ => none

end Sys2Proof.Machine
end

