-- ==== Sys2Proof/Config.lean ====
section
/-! DEFINITION. What the manual leaves open, as constants without a body: nothing can be proved of their values. -/

namespace Sys2Proof

/-- A free value of `w` bits. The argument is the counter `State.free`, which each use advances (log 3). -/
opaque Config.free (w : Nat) : Nat → BitVec w

/-- SHA-256 (R449, R468, R547): named by the manual and not defined in it (log 17). -/
opaque Config.sha256 : List Byte → List Byte

/-- HMAC-SHA-256 of a key and a text (R447, R449; log 17). -/
opaque Config.hmac : List Byte → List Byte → List Byte

/-- SHA-384 (R546, R553): named by the manual and not defined in it (log 17). -/
opaque Config.sha384 : List Byte → List Byte

/-- Whether a signature verifies: ROM key number, the signed bytes 0 to 159, the signature (R546; log 17). -/
opaque Config.signatureOk : Nat → List Byte → List Byte → Bool

/-- The image of a KIND set at manufacture (R603; log 18). -/
opaque Config.factoryImage : Nat → List Byte

/-- The interface epoch of the boot ROM (R550; log 18). -/
opaque Config.romEpoch : BitVec 16

/-- Values set for each part at manufacture (R603), by Catalogue index and subindex (log 18). -/
opaque Config.factory : BitVec 16 → BitVec 8 → List Byte

/-- Values of the vendor diagnostics range F000 to FFFF (R14, R440), by entry and use (log 19). -/
opaque Config.vendor : BitVec 16 → BitVec 8 → Nat → List Byte

/-- Where a unit of a compute die sits on its mesh: stack k's controller at index k, quire q's block and quire scratch at 8 + q. The manual places neither (R314; log 130). -/
opaque Config.unitRouter : Nat → BitVec 9

/-- Whether the east edge of a die carries the direct links to the die numbered one higher, or its west edge does (R314; log 130). -/
opaque Config.eastNext : Bool

/-- The device that an express port of another device leads to: its own #6001, which no message of R334 carries (R346; log 24). -/
opaque Config.expressPeer : Nat → Nat → BitVec 16

/-- Whether a number half way between `n` and `n + 1` rounds up where the manual says only "round" (R500, R501, R503; log 40). -/
opaque Config.tieUp : Int → Bool

end Sys2Proof
end

