-- ==== Sys2Proof/Machine/Table.lean ====
section
/-! DEFINITION. Tables: sorted lists of (number, value) pairs that list no default value, so that equal tables are equal data. -/

namespace Sys2Proof.Machine

/-- A table from numbers to values. It lists its entries at rising numbers and never lists the table's default value. -/
abbrev Tbl (α : Type) := List (Nat × α)

/-- The value at number `n`; the default `d` where nothing is listed. -/
def Tbl.get {α : Type} (d : α) : Tbl α → Nat → α
  | [], _ => d
  | (k, v) :: t, n => if n = k then v else Tbl.get d t n

/-- The table with value `v` listed at number `n`. -/
def Tbl.ins {α : Type} (n : Nat) (v : α) : Tbl α → Tbl α
  | [] => [(n, v)]
  | (k, w) :: t => if n < k then (n, v) :: (k, w) :: t else if n = k then (n, v) :: t else (k, w) :: Tbl.ins n v t

/-- The table with value `v` at number `n`. Writing the default removes the entry. -/
def Tbl.put {α : Type} [DecidableEq α] (d : α) (t : Tbl α) (n : Nat) (v : α) : Tbl α :=
  if v = d then t.filter fun e => e.1 ≠ n else Tbl.ins n v t

/-- The table with the numbers from `lo` up to, not including, `hi` back at the default. -/
def Tbl.clear {α : Type} (t : Tbl α) (lo hi : Nat) : Tbl α :=
  t.filter fun e => e.1 < lo || hi ≤ e.1

/-- Every listed number is above `b`, numbers rise strictly, and no default is listed. -/
def Tbl.wfFrom {α : Type} [DecidableEq α] (d : α) : Option Nat → Tbl α → Bool
  | _, [] => true
  | b, (k, v) :: t => (match b with | none => true | some n => n < k) && v ≠ d && Tbl.wfFrom d (some k) t

/-- The canonical form of a table with default `d`. -/
def Tbl.wf {α : Type} [DecidableEq α] (d : α) (t : Tbl α) : Bool := Tbl.wfFrom d none t

end Sys2Proof.Machine
end

