-- ==== Sys2Proof/Machine/State.lean ====
section
/-! DEFINITION. The state of the F-1280: every register, queue, counter and memory the manual gives it, as plain data. Table defaults and field defaults are the reset values. -/

namespace Sys2Proof.Machine

/-! ### Reasons to stop -/

/-- No rule of the manual lets a command of this block end in a fault of the machine: exceptions, errors and refusals are all effects on the state. The type has no constructor. -/
inductive Fault
  deriving DecidableEq, Repr

/-- The reasons for which a command has no meaning in this model. -/
inductive Refusal where
  /-- Raised by `exec` alone, for a row that has no meaning yet. Safe: it stops where the part goes on. -/
  | notModelled (mnemonic : String)
  deriving DecidableEq, Repr

/-! ### What the part sends -/

/-- A DATA flit as sent, and kept for replay (R325, R326, R329): its SEQ, FIRST and 242 payload bytes, and the packets that end in it. -/
structure ReplayFlit where
  seq : BitVec 12
  first : Byte
  bytes : List Byte
  pkts : List Packet
  deriving DecidableEq, Repr

/-- One thing the part has sent to the outside, oldest first in `State.out`. The model's own record of outputs. -/
inductive Out where
  /-- The data of a BAR0 register read (R33, R413). -/
  | regRead (f : FnId) (off : BitVec 24) (v : W64)
  /-- A completion of a BAR2 read: the bytes, or none for Completer Abort (R419). -/
  | cpl (f : FnId) (data : Option (List Byte))
  /-- An MSI-X message (R421). -/
  | msix (f : FnId) (entry : Nat) (addr : W64) (data : W32)
  /-- A read request of host memory (R288, R423). -/
  | hostRead (f : FnId) (addr : W64) (len : Nat)
  /-- A posted write to host memory (R288, R417, R423). -/
  | hostWrite (f : FnId) (addr : W64) (data : List Byte)
  /-- An ECRC error reported through Advanced Error Reporting (R365). -/
  | aer (f : FnId)
  /-- A Bilbin frame (R445). -/
  | frame (transport : BitVec 8) (fr : Frame)
  /-- An SMBus block returned to the master (R444). -/
  | smbus (block : List Byte)
  /-- A DATA flit of a fabric port (R325), and whether its LCRC is good. -/
  | flit (p : PortId) (f : ReplayFlit) (lcrcOk : Bool)
  /-- Credits returned to the peer of a port for a virtual channel, in 16-byte units (R327). -/
  | credit (p : PortId) (vc units : Nat)
  /-- An ACK or NAK returned on a port (R329). -/
  | linkAck (p : PortId) (seq : BitVec 12) (nak : Bool)
  /-- The payload of an EXCH flit (R336). -/
  | exch (p : PortId) (payload : List Byte)
  /-- The payload of a SYNC flit (R341). -/
  | sync (p : PortId) (payload : List Byte)
  /-- A delivery to the event queue of the steward (R397). -/
  | steward (v : Nat)
  /-- A PTP delay request (R39). -/
  | ptpDelayReq (port : Fin 2)
  deriving DecidableEq, Repr

/-! ### Position Clock (chapter 02) -/

/-- The clock states of R42. -/
inductive ClockState where
  | free | acquire | locked | holdover
  deriving DecidableEq, Repr

/-- The Position Clock of the hub (R29, R42, R59 to R62). -/
structure Clock where
  pos : Pos := 0
  state : ClockState := .free
  /-- The source followed, or in ACQUIRE acquired (R60 SRC). -/
  src : Option ClockSource := none
  tooFar : Bool := false
  agedBit : Bool := false
  /-- The keeper's secondary, or another device's input named in #2010.02, disagrees (R48). -/
  disagree2 : Bool := false
  /-- The input named in #2010.01 disagrees with the fabric, on a device that is not the keeper (R48). -/
  disagree1 : Bool := false
  keeper : Bool := false
  /-- Hops to the keeper, also where they are more than 64. -/
  hops : BitVec 8 := 0
  evt : W32 := 0
  presentAnalog : Bool := false
  presentPtp : Bool := false
  presentFabric : Bool := false
  format : Fin 17 := 0
  disagreeNs : BitVec 32 := 0
  /-- The phase offset that the servo measured last against the source it follows, in ns (R45, R46). -/
  offsetNs : Int := 0
  keeperNo : BitVec 16 := 0
  keeperEpoch : W32 := 0
  parentPort : BitVec 8 := 255
  /-- The keeper's heartbeat reaches this device, and has not stopped for 100 µs (R56). -/
  heard : Bool := false
  heartbeat : W32 := 0
  keeperState : BitVec 2 := 0
  /-- The lowest candidate seen while the election window is open (R56). -/
  election : Option (BitVec 16) := none
  /-- The latest keeper epoch of a CANDIDACY per origin (R334), plus 1; 0 none. -/
  candidacies : List (Nat × Nat) := []
  /-- The best master and the management port it is heard on (R39), and the time of its latest Sync message. -/
  ptpMaster : Option (PtpMaster × Fin 2) := none
  ptpTime : PtpTime := { seconds := 0, nanos := 0 }
  deriving DecidableEq, Repr

/-! ### Cues (chapter 03) -/

/-- A cue entry (R66): POS, ADDR, and the fields of CTL and TGT. While a fire waits to be issued, `due` is the position that gives its place in the issue order (R77, R79, R80) and `dueAt` the tick it became due. `restored`: armed again at power-on, and the position has not been valid since (R92). -/
structure CueEntry where
  pos : Pos := 0
  addr : BitVec 56 := 0
  count : BitVec 16 := 0
  stride : BitVec 16 := 0
  cls : BitVec 16 := 0xFFFF
  rpt : BitVec 2 := 0
  late : Bool := false
  seam : Bool := false
  action : BitVec 3 := 0
  arm : Bool := false
  fires : BitVec 16 := 0
  missCode : BitVec 4 := 0
  done : Bool := false
  miss : Bool := false
  lateHit : Bool := false
  amount : BitVec 16 := 0
  target : BitVec 16 := 0
  due : Option Pos := none
  dueAt : Pos := 0
  restored : Bool := false
  deriving DecidableEq, Repr

/-! ### Tallies (chapter 04) -/

/-- A unit that waits on a tally (R105). -/
inductive Waiter where
  | tile (t : TileId)
  | chan (c : ChanRef)
  | layer (p : Fin 2) (l : Fin 8)
  deriving DecidableEq, Repr

/-- A wait registered with the tally complex (R106). -/
structure TallyWait where
  who : Waiter
  tally : Nat
  expected : W64
  deriving DecidableEq, Repr

/-- An advance issued and not yet applied (R99, R114). `source` is the code of TALLY_ERR.SOURCE (R123). -/
structure PendingAdvance where
  tally : Nat
  amount : BitVec 16
  room : RoomId
  source : BitVec 3
  deriving DecidableEq, Repr

/-- A tally watch HUB_TW (R110, R125). -/
structure Watch where
  value : W64 := 0
  tally : BitVec 13 := 0
  vector : BitVec 8 := 0
  arm : Bool := false
  hit : Bool := false
  deriving DecidableEq, Repr

/-- What the home has bound a group of fabric tallies to (R111, #4012.01). -/
structure Binding where
  jobId : W32 := 0
  home : BitVec 16 := 0
  deriving DecidableEq, Repr

/-- A JOIN or ADVANCE that the home refused with UNBOUND and that is repeated (R112). Amount 0 stands for a JOIN. -/
structure FabricMsg where
  tally : BitVec 16
  amount : BitVec 16
  jobId : W32
  room : RoomId
  source : BitVec 3
  refused : Bool
  /-- An UPDATE of its tally has come since it was sent: the home may have applied it. -/
  old : Bool := false
  deriving DecidableEq, Repr

/-- The tally complex (R93 to R126). -/
structure Tallies where
  val : Tbl W64 := []
  adv : List PendingAdvance := []
  waits : List TallyWait := []
  watch : Tbl Watch := []
  discarded : W64 := 0
  refused : W64 := 0
  nacks : W64 := 0
  bind : Tbl Binding := []
  /-- The JOB_ID that a group was unbound from last (R120); 0 none. -/
  released : Tbl W32 := []
  /-- Devices that have joined a group, at the home: (group, device) (R334). -/
  members : List (Nat × BitVec 16) := []
  /-- Jobs whose fabric tallies the home has frozen (R119). -/
  frozenJobs : List W32 := []
  /-- JOINs and ADVANCEs sent and not yet answered (R112). -/
  sent : List FabricMsg := []
  deriving DecidableEq, Repr

/-! ### Tiles (chapters 05 to 07) -/

/-- An entry of the store buffer: 1 to 4 contiguous words (R156). -/
structure SbEntry where
  addr : W32
  words : List W16
  deriving DecidableEq, Repr

/-- Whether a tile core runs (R174, R190), or waits in WAITS, WAITP or WAITT (R152 to R154). -/
inductive Run where
  | stopped
  | running
  | waitS (x : Dn)
  | waitP (p : Pos)
  | waitT (tally : Nat) (expected deadline : W64)
  | halted
  deriving DecidableEq, Repr

/-- A pending asynchronous fault (R183): its code and its FLT_ADDR. -/
structure AsyncFlt where
  code : W16
  addr : W32
  deriving DecidableEq, Repr

/-- The privilege registers of a tile core (R172, R173, R175). -/
structure Priv where
  taskNoint : Bool := false
  xw : Bool := false
  xr : Bool := false
  nrem : BitVec 10 := 0
  gateBase : W32 := 0
  gateCount : W16 := 0
  supBlocks : W16 := 0
  ssp : W32 := 0
  vecBase : W32 := 0
  irqPend : W16 := 0
  irqEn : W16 := 0
  irqLevel : Tbl W16 := []
  fltCode : W16 := 0
  fltPc : W32 := 0
  fltAddr : W32 := 0
  spc : W32 := 0
  ssw : W16 := 0
  haltCause : W16 := 0
  haltPc : W32 := 0
  launchAddr : W32 := 0
  launchPend : Bool := false
  deriving DecidableEq, Repr

/-- The performance counters of a tile core (R165 to R167). -/
structure Perf where
  en : Bool := false
  taskRead : Bool := false
  noSup : Bool := false
  ovf : BitVec 4 := 0
  sel : Tbl (BitVec 5) := []
  cnt : Tbl (BitVec 48) := []
  /-- Higher words latched by a read of a counter's bits 15:0 (R167). -/
  cntHi : Tbl (BitVec 32) := []
  cycles : W64 := 0
  cyclesHi : BitVec 48 := 0
  deriving DecidableEq, Repr

/-- The tile registers and unit registers of a tile, with its collectors and B stores (R192 to R217). -/
structure XuRegs where
  /-- The tile registers, byte `64 * row + i` (R192). -/
  rows : Tbl Byte := []
  /-- Syndromes of the tile-register granules (R194, R357); 0 is good. -/
  synd : Tbl Byte := []
  ctl : W16 := 0
  stat : W16 := 0
  rix : BitVec 5 := 0
  ctx : W32 := 0
  ctxLow : W16 := 0
  lmask : W32 := 0
  latchCnt : W64 := 0
  conflict : W64 := 0
  breuse : W64 := 0
  busy : W64 := 0
  /-- Higher words of a counter latched by a read of its lowest word (R214). -/
  hi : Tbl W64 := []
  latchA : Option Nat := none
  latchB : Option Nat := none
  latchC : Option Nat := none
  bStore0 : Option (Fin 8) := none
  bStore1 : Option (Fin 8) := none
  bNext : Bool := false
  deriving DecidableEq, Repr

/-- The vector and matrix units of a tile with their queue (R192 to R217). -/
structure Xu extends XuRegs where
  /-- What the registers held before each of the last issued instructions that may still wait in the queue, the newest first (R196, R198; log 9). -/
  queue : List XuRegs := []
  deriving DecidableEq, Repr

/-- A tile core with its private state (R127 to R191). -/
structure Tile where
  d : Tbl W16 := []
  a : Tbl W32 := []
  sd : Tbl W16 := []
  sa : Tbl W32 := []
  acc : Tbl (BitVec 40) := []
  sw : W16 := 0xF000
  pc : W32 := 0
  /-- Address of the instruction that retired last: the one at whose boundary an asynchronous fault is taken (R183, R191). -/
  lastPc : W32 := 0
  run : Run := .stopped
  sig : BitVec 8 := 0
  sb : List SbEntry := []
  /-- Staging of stores to a quire register: byte offset of the register and the words staged (R247). -/
  stageReg : Option Nat := none
  stage : Tbl (Option W16) := []
  /-- The value that a load of a quire register's lowest word latched, by the register's byte offset (R247). -/
  qlatch : Tbl (Option W64) := []
  icLine : Tbl (Option Nat) := []
  icPtr : Tbl Nat := []
  priv : Priv := {}
  async : List AsyncFlt := []
  perf : Perf := {}
  xu : Xu := {}
  /-- Write-back list: the lines this tile has made dirty, oldest first (R262). -/
  wb : List (BitVec 31) := []
  deriving DecidableEq, Repr

/-! ### DMA (chapter 10) -/

/-- The channel states of R302. -/
inductive ChanState where
  | idle | fetch | wait | move | drain | paused | complete | error | aborting
  deriving DecidableEq, Repr

/-- A DMA descriptor as read at its fetch (R286). -/
structure Desc where
  op : BitVec 4
  ssp : BitVec 2
  dsp : BitVec 2
  last : Bool
  irq : Bool
  wen : Bool
  aen : Bool
  mc : Bool
  cop : BitVec 3
  node : BitVec 16
  wt : BitVec 13
  at' : BitVec 13
  src : W64
  dst : W64
  len : BitVec 40
  amt : BitVec 16
  wval : W64
  next : W64
  aux : W64
  deriving DecidableEq, Repr

/-- A place that a mesh link joins (R311, R314, R317): a router, named by its die, logical column and logical row, or the hub. -/
inductive MeshNode where
  | router (die col row : Nat)
  | hub
  deriving DecidableEq, Repr

/-- A link in one direction, from its first place to its second. -/
abbrev MeshLink := MeshNode × MeshNode

/-- A request of a channel that has been issued and has not ended (R294, R297). -/
structure DmaReq where
  tag : BitVec 16
  off : Nat
  len : Nat
  /-- The read half, or the write half of the piece. -/
  writing : Bool
  /-- Flits of completion that the requester has reserved space for (R321). -/
  space : Nat := 1
  /-- The links of the data mesh from the requester to the target (R312, R314), and how many the request has crossed: while it is under way its flit is held at the input of the last one crossed. -/
  path : List MeshLink := []
  hop : Nat := 0
  /-- Mesh cycles that the flit has waited where it is (R320). -/
  waited : Nat := 0
  /-- A router dropped the packet (R364): no completion comes. -/
  lost : Bool := false
  deriving DecidableEq, Repr

/-- A DMA channel (R302, R307 to R309). -/
structure Chan where
  state : ChanState := .idle
  code : BitVec 8 := 0
  goRefused : Bool := false
  abortedEvt : Bool := false
  errEvt : Bool := false
  doneEvt : Bool := false
  ctrlDesc : BitVec 50 := 0
  pause : Bool := false
  curDesc : W64 := 0
  curSrc : W64 := 0
  curDst : W64 := 0
  curLen : BitVec 40 := 0
  share : BitVec 8 := 0
  /-- The credit of bytes of the rate limiter (R295). -/
  credit : Nat := 0
  /-- The descriptor accepted and not yet ended. -/
  desc : Option Desc := none
  /-- The chain was started by DMAGO at task level (R293). -/
  task : Bool := false
  /-- Bytes of the descriptor whose movement has been issued, from the start of the range. -/
  issued : Nat := 0
  reqs : List DmaReq := []
  /-- Bytes read and not yet written, by offset: the contents of the funnel (R294). -/
  buf : Tbl (Option Byte) := []
  /-- Ranges (offset, length) whose request ended in a bus error (R297). -/
  failed : List (Nat × Nat) := []
  firstErr : Option (BitVec 8) := none
  /-- A request met a handover failure before an abort took effect: the point of the first (R368). -/
  check : Option (BitVec 8) := none
  /-- Tags of requests that a function-level reset gave up on and whose completions may still come (R383). -/
  gone : List (BitVec 16) := []
  /-- The handover point of a first error CHECK (R367). -/
  errPoint : BitVec 8 := 0
  /-- The state PAUSED returns to on resume; in ABORTING, `complete` when every write had completed before the abort (R301, R302). -/
  after : ChanState := .idle
  deriving DecidableEq, Repr

/-- An inbound window (R303, #6201.01). -/
structure Window where
  isOpen : Bool := false
  room : BitVec 8 := 0
  perm : BitVec 8 := 0
  jobId : W32 := 0
  base : W64 := 0
  size : W64 := 0
  deriving DecidableEq, Repr

/-- The last request refused by the windows (#6202.02). -/
structure WinRefusal where
  requester : BitVec 16 := 0
  jobId : W32 := 0
  addr : W64 := 0
  cause : BitVec 8 := 0
  deriving DecidableEq, Repr

/-! ### Quires (chapter 09) -/

/-- A line of the quire cache (R260). The list of lines is in recency order, least recent first. -/
structure CLine where
  line : BitVec 31
  way : Nat
  dirty : Bool
  data : Tbl Byte
  synd : Tbl Byte
  deriving DecidableEq, Repr

/-- The HBM window of a tile (R276, R279). -/
structure HbmWin where
  base : BitVec 17 := 0
  size : BitVec 16 := 0
  mode : BitVec 2 := 0
  deriving DecidableEq, Repr

/-- QC_CMD (R280). -/
structure QcCmd where
  busy : Bool := false
  refused : Bool := false
  op : BitVec 3 := 0
  all : Bool := false
  lines : BitVec 16 := 0
  line : BitVec 31 := 0
  deriving DecidableEq, Repr

/-- The power of a quire (R523 to R525). -/
inductive QPower where
  | on | gating | gated | waking
  deriving DecidableEq, Repr

/-- A register write to a gated quire that is applied after the wake (R525). -/
structure HeldWrite where
  off : Nat
  v : W64
  deriving DecidableEq, Repr

/-- A quire: its cue table, cache, register block and tile DMA channels (R63, R260, R412). -/
structure Quire where
  cue : Tbl CueEntry := []
  cueErr : W32 := 0
  cueEvt : W32 := 0
  groups : BitVec 3 := 0
  wayBusy : Bool := false
  wayTo : BitVec 3 := 0
  win : Tbl HbmWin := []
  winPend : Tbl (Option HbmWin) := []
  cmd : QcCmd := {}
  memErr : W64 := 0
  memEvt : W32 := 0
  lines : List CLine := []
  prefetch : List (BitVec 31) := []
  chan : Tbl Chan := []
  power : QPower := .on
  /-- Launches that wait for the wake: the cue, its tile mask and its entry address (R70). -/
  launches : List (CueRef × BitVec 16 × W32) := []
  held : List HeldWrite := []
  deriving DecidableEq, Repr

/-! ### Rebinding and memory errors (chapter 09) -/

/-- The rows of one scratchpad bank (R248, R255): the physical row behind a stripe where it is not the stripe's own, the free spares, and the rows never used again. -/
structure BankRows where
  bind : Tbl (Option Nat) := []
  spares : List Nat := [1024, 1025, 1026, 1027, 1028, 1029, 1030, 1031, 1032, 1033, 1034, 1035, 1036, 1037, 1038, 1039]
  retired : List Nat := []
  deriving DecidableEq, Repr

/-- A mark of a scratchpad row (R254, #5011.02). -/
structure Mark where
  tile : TileId
  bank : Nat
  row : Nat
  cause : BitVec 8
  deriving DecidableEq, Repr

/-- The refusal of R258 (#5012.01). -/
structure CapRefusal where
  tile : BitVec 16 := 0
  need : BitVec 16 := 0
  usable : BitVec 16 := 0
  quarter : BitVec 8 := 0
  deriving DecidableEq, Repr

/-- Row retirement, error logs and counters (R252 to R258, R283). -/
structure Rebind where
  usable : Tbl Nat := []
  bank : Tbl BankRows := []
  marks : List Mark := []
  markLog : List Mark := []
  ceRow : Tbl Nat := []
  errLog : List (BitVec 8 × W64) := []
  errLost : W64 := 0
  spCe : W64 := 0
  spUe : W64 := 0
  qcCe : W64 := 0
  qcUe : W64 := 0
  hbmCe : W64 := 0
  hbmUe : W64 := 0
  capRefusal : CapRefusal := {}
  /-- HBM units awaiting clearing, in order of release (R378). -/
  clearing : List Nat := []
  deriving DecidableEq, Repr

/-! ### Fabric (chapter 11) -/

/-- The link states of R335. -/
inductive PortState where
  | disabled | down | train | exch | up | hold | refused
  deriving DecidableEq, Repr

/-- What a port recorded of its peer (R337, #6002). -/
structure Peer where
  known : Bool := false
  device : BitVec 16 := 0
  incarnation : W32 := 0
  session : BitVec 16 := 0
  x : BitVec 8 := 0
  y : BitVec 8 := 0
  z : BitVec 8 := 0
  deriving DecidableEq, Repr

/-- The counters of a port (#6003). -/
structure PortCounters where
  lcrc : W64 := 0
  corrected : W64 := 0
  uncorrectable : W64 := 0
  replays : W64 := 0
  flitsReplayed : W64 := 0
  reinc : W32 := 0
  expiries : W32 := 0
  deriving DecidableEq, Repr

/-- A fabric port (R323 to R351). -/
structure Port where
  state : PortState := .down
  cause : BitVec 3 := 0
  half : Bool := false
  rate : Bool := false
  evt : W32 := 0
  replayBuf : List ReplayFlit := []
  txq : List Packet := []
  txSeq : BitVec 12 := 0
  rxNext : BitVec 12 := 0
  nakSent : Bool := false
  rxAny : Bool := false
  /-- Credits of each virtual channel in use, in 16-byte units (R327). -/
  credits : Tbl Nat := []
  /-- Credits of each virtual channel that the port owes its peer and has not returned, since it was not UP (R327, R330). -/
  owed : Tbl Nat := []
  /-- The virtual channel of each class that was served last (R328): true for v = 1. -/
  lastV : Tbl Bool := []
  /-- Payload bytes that the output has sent since each class with a packet waiting was served (R320, R328). -/
  waited : Tbl Nat := []
  /-- Flits in a row whose LCRC failed (R330). -/
  badRun : Nat := 0
  session : BitVec 16 := 0
  peer : Peer := {}
  /-- The port has lost its link and still holds its replay state: it is in HOLD, or has left it by training and has not come UP (R330, R337). -/
  fromHold : Bool := false
  lastTxTs : W64 := 0
  lastRxAt : W64 := 0
  syncGot : Bool := false
  /-- The measured link delay, in units of 2^-7 ps: half the round trip plus the asymmetry correction (R53, R341). -/
  linkDelay : Int := 0
  cnt : PortCounters := {}
  deriving DecidableEq, Repr

/-- The fabric of this device beside its ports (R334, R345, R352). -/
structure Fabric where
  /-- The latest ROUTE_UPDATE of each origin (R334). -/
  map : List RouteUpd := []
  /-- The route epoch installed last (#6005.01), and the last one that this device flooded (R345). -/
  routeEpoch : W32 := 0
  ownEpoch : W32 := 0
  unreachable : List (BitVec 16) := []
  /-- Packets received and not yet handled, each with its port; port 255 for a packet this device sends to itself, and 32 more than the port for one of a session that has ended, whose credits no longer count (R327, R337). -/
  arrived : List (Nat × Packet) := []
  deriving DecidableEq, Repr

/-! ### Palimpsest (chapter 12) -/

/-- A record of the integrity log (R367, #A002.01). -/
structure IntegRec where
  point : BitVec 8
  room : BitVec 8
  code : BitVec 8
  injected : Bool
  addr : W64
  pos : Pos
  deriving DecidableEq, Repr

/-- An armed injection (R372). -/
structure Injection where
  room : BitVec 8
  point : BitVec 8
  kind : BitVec 8
  left : BitVec 16
  deriving DecidableEq, Repr

/-- The counts of one handover point (R371). -/
structure HandCount where
  completed : W64 := 0
  corrected : W64 := 0
  failed : W64 := 0
  deriving DecidableEq, Repr

/-- Palimpsest's counters, log and injections (R371 to R373). -/
structure Integ where
  counts : Tbl HandCount := []
  log : List IntegRec := []
  lost : W64 := 0
  poisoned : W64 := 0
  inject : List Injection := []
  meshFaults : W64 := 0
  deriving DecidableEq, Repr

/-! ### Rooms and interrupts (chapter 13) -/

/-- The room states of #3010 (R404). -/
inductive RoomState where
  | free | forming | formed | faulted | dissolving
  deriving DecidableEq, Repr

/-- The fault record of a room (R388, R401, #3011). -/
structure RoomFault where
  cause : BitVec 8 := 0
  origin : BitVec 16 := 0
  tile : BitVec 16 := 0
  haltCause : W16 := 0
  detail : BitVec 16 := 0
  pos : Pos := 0
  secondary : BitVec 8 := 0
  accession : W64 := 0
  deriving DecidableEq, Repr

/-- A room (R374 to R401). -/
structure Room where
  state : RoomState := .free
  accession : W64 := 0
  form : Option FormRec := none
  hbm : List Nat := []
  reported : W64 := 0
  lateCpl : W64 := 0
  flt : RoomFault := {}
  frozen : Bool := false
  /-- The quires halt at the next cue boundary, and the frame at which the notice came (R87). -/
  haltAt : Option Pos := none
  evt : W32 := 0
  tallyErr : W32 := 0
  tallyEvt : W32 := 0
  cueErr : W32 := 0
  cueEvt : W32 := 0
  dmaCredit : Nat := 16384
  /-- A room reset waits for its channels (R382, R383). -/
  resetting : Bool := false
  /-- That reset was started by a function-level reset (R383). -/
  flr : Bool := false
  deriving DecidableEq, Repr

/-- A repartition plan (R380). -/
structure Plan where
  dissolve : BitVec 16 := 0
  /-- The formation records as written. -/
  forms : List (List Byte) := []
  deriving DecidableEq, Repr

/-- The last refused formation (#3012.01). -/
structure RoomRefusal where
  status : BitVec 8 := 0
  room : BitVec 8 := 0
  plan : BitVec 8 := 0
  formation : BitVec 8 := 0
  order : BitVec 8 := 0
  deriving DecidableEq, Repr

/-- IR_SRC (R402). -/
structure IrSrc where
  mask : W32 := 0
  en : Bool := false
  vector : BitVec 8 := 0
  deriving DecidableEq, Repr

/-- IR_VEC with the number of events held (R396, R403). -/
structure IrVec where
  holdoff : BitVec 16 := 0
  count : BitVec 8 := 0
  last : BitVec 3 := 7
  en : Bool := false
  held : Nat := 0
  deriving DecidableEq, Repr

/-- IR_SLOT (R403). -/
structure IrSlot where
  en : Bool := false
  kind : BitVec 2 := 0
  line : BitVec 4 := 0
  index : BitVec 11 := 0
  deriving DecidableEq, Repr

/-- The interrupt router (R392 to R397). Vectors are numbered owner * 256 + v, slots owner * 2048 + n, owner 16 the device. -/
structure Irq where
  src : Tbl IrSrc := []
  vec : Tbl IrVec := []
  slot : Tbl IrSlot := []
  deriving DecidableEq, Repr

/-! ### Host attachment (chapter 14) -/

/-- HOST_APT (R431). -/
structure Apt where
  en : Bool := false
  base : BitVec 35 := 0
  deriving DecidableEq, Repr

/-- An MSI-X table entry (R421, R425). -/
structure Msix where
  addr : W64 := 0
  data : W32 := 0
  masked : Bool := true
  pending : Bool := false
  deriving DecidableEq, Repr

/-- A mailbox (R422 to R424, R433). -/
structure Mbx where
  en : Bool := false
  irq : Bool := false
  log2 : BitVec 4 := 0
  vec : BitVec 12 := 0
  reqBase : W64 := 0
  rspBase : W64 := 0
  reqTail : BitVec 16 := 0
  reqHead : BitVec 16 := 0
  rspTail : BitVec 16 := 0
  rspHead : BitVec 16 := 0
  stat : BitVec 4 := 0
  /-- Frames not yet written to the response ring (R423). -/
  waiting : List Frame := []
  deriving DecidableEq, Repr

/-- A TLP that waits for a gated quire, or behind one that does (R420): a BAR2 write or read with the parts of memory it named on arrival (address and length, R419), or a BAR0 write or read. -/
inductive HeldTlp where
  | wr (off : W32) (parts : List (Nat × Nat)) (bytes : List Byte)
  | rd (off : W32) (parts : List (Nat × Nat)) (len : BitVec 13)
  | reg (off : BitVec 24) (size : Fin 16) (v : W64)
  | regRead (off : BitVec 24) (size : Fin 16)
  deriving DecidableEq, Repr

/-- The host-side state of one PCIe function (R425, R431 to R433). -/
structure Fn where
  apt : Tbl Apt := []
  hostErr : W64 := 0
  hostEvt : W32 := 0
  hint : Bool := false
  msix : Tbl Msix := []
  msixEn : Bool := false
  fnMask : Bool := false
  busMaster : Bool := false
  mbx : Mbx := {}
  stage : Option (BitVec 24 × W32) := none
  /-- High halves latched by reads of low halves, by register offset (R33, R413). -/
  latch : Tbl (Option W32) := []
  held : List HeldTlp := []
  deriving DecidableEq, Repr

/-- The PCIe endpoint beside its functions (R405, R406, R427 to R429). -/
structure Pcie where
  linkUp : Bool := false
  lost : Bool := false
  perst : Bool := true
  vfEnable : Bool := false
  numVfs : Nat := 0
  ecrcGen : Bool := false
  ecrcCheck : Bool := false
  losses : W32 := 0
  mbxLenErrors : W64 := 0
  rate : BitVec 8 := 0
  width : BitVec 8 := 0
  deriving DecidableEq, Repr

/-! ### Catalogue and Bilbin (chapter 15) -/

/-- A key slot (R448) with its failure count and whether HELLO is held off (R449). -/
structure KeySlot where
  len : BitVec 8 := 0
  key : List Byte := []
  perm : BitVec 8 := 0
  rooms : BitVec 16 := 0
  base : W32 := 0
  count : BitVec 16 := 0
  failures : W32 := 0
  heldOff : Bool := false
  deriving DecidableEq, Repr

/-- A Bilbin session (R449, R450). -/
structure Session where
  number : W32
  transport : BitVec 8
  slot : Fin 256
  nc : List Byte
  np : List Byte
  isOpen : Bool
  /-- KS, once the session is open (R449). -/
  ks : List Byte := []
  deriving DecidableEq, Repr

/-- A segmented write being assembled (R454). -/
structure Assembly where
  client : W32
  cseq : W32
  total : W32
  next : BitVec 16
  bytes : List Byte
  deriving DecidableEq, Repr

/-- The snapshot of a segmented read (R453, R439). -/
structure Snapshot where
  session : W32
  client : W32
  cseq : W32
  bytes : List Byte
  deriving DecidableEq, Repr

/-- A subscription (R461, R462). -/
structure Sub where
  subId : W32
  session : W32
  transport : BitVec 8
  client : W32
  index : BitVec 16
  sub : BitVec 8
  next : Pos
  rpt : BitVec 8
  stride : BitVec 16
  count : BitVec 16
  sample : W32
  lost : Bool
  deriving DecidableEq, Repr

/-- Bilbin's sessions, keys and counters (R448 to R465), and the SMBus block (R444). -/
structure Bilbin where
  keys : Tbl KeySlot := []
  /-- Key slot 255 of R451 is held off. -/
  heldOff255 : Bool := false
  sessions : List Session := []
  assemblies : List Assembly := []
  snapshots : List Snapshot := []
  subs : List Sub := []
  nextSub : W32 := 1
  /-- Frames refused with CHECK, VERSION, SESSION, AUTH, DENIED, SEGMENT, STALE, BUSY (#6304.01), numbered 0 to 7. -/
  errors : Tbl W64 := []
  smbusReply : Option (List Byte) := none
  smbusHeld : Option (List Byte) := none
  /-- The pair of the SMBus write whose reply is awaited. -/
  smbusWait : Option (W32 × W32) := none
  asel : BitVec 2 := 0
  deriving DecidableEq, Repr

/-! ### Ledger and Vault (chapter 16) -/

/-- Who waits for the reply to a recorded write (R458). -/
structure Waiting where
  transport : BitVec 8
  session : W32
  client : W32
  cseq : W32
  index : BitVec 16
  sub : BitVec 8
  segment : BitVec 16
  rep : Bool
  differs : Bool
  /-- The session key of the request, for the TAG of its reply (R450). -/
  ks : Option (List Byte) := none
  deriving DecidableEq, Repr

/-- A record of the Ledger (R466): its head's fields, value and result, and the slots it fills. -/
structure Record where
  accession : W64
  incarnation : W32
  kind : BitVec 8
  done : Bool := false
  acked : Bool := false
  interrupted : Bool := false
  client : W32 := 0
  cseq : W32 := 0
  index : BitVec 16 := 0
  sub : BitVec 8 := 0
  status : BitVec 8 := 0
  source : BitVec 8 := 21
  cue : BitVec 16 := 0
  pos : Pos := 0
  value : List Byte := []
  result : List Byte := []
  slots : List Nat := []
  held : List Nat := []
  waiting : List Waiting := []
  /-- What the command acts on where the record holds only a digest (R468, R553); lost at power loss. -/
  full : List Byte := []
  deriving DecidableEq, Repr

/-- A checkpoint (R476, R608): A, its incarnation and the slots of its entries. -/
structure Checkpoint where
  a : W64
  incarnation : W32
  slots : List Nat
  ents : Tbl (Option (List Byte))
  cues : List (Nat × CueEntry)
  clients : Tbl (Option W32)
  deriving DecidableEq, Repr

/-- The Ledger (R466 to R480). -/
structure Ledger where
  recs : List Record := []
  nextAcc : W64 := 1
  clients : Tbl (Option W32) := []
  heads : Nat := 0
  /-- An ACK under R476 asks for a checkpoint. -/
  due : Bool := false
  last : Option Checkpoint := none
  running : Option Checkpoint := none
  deferred : List (BitVec 16 × List Byte) := []
  busyRefusals : W64 := 0
  eventsLost : W32 := 0
  /-- The record whose command is taking effect, and those that wait for it (R456). -/
  current : Option W64 := none
  queue : List W64 := []
  /-- What is still to begin of the plan being carried out (R381): room `r` to dissolve, or 16 + k for formation k. -/
  todo : List Nat := []
  /-- The 48 V input has left its range: no new record is admitted (R489). -/
  closed : Bool := false
  deriving DecidableEq, Repr

/-- A Vault object (R482, #7102.01). -/
structure VaultObj where
  number : BitVec 16
  tag : W32
  length : W64
  commit : W64
  units : Nat
  /-- The committed bytes. -/
  data : Tbl Byte
  deriving DecidableEq, Repr

/-- A Vault job (R484). -/
structure VaultJob where
  accession : W64
  room : RoomId
  write : Bool
  object : BitVec 16
  tag : W32
  /-- The source or destination in HBM. -/
  addr : W64
  offset : W64
  length : W64
  tally : BitVec 16
  amount : BitVec 16
  bytesDone : Nat := 0
  /-- An extent is running. -/
  inExtent : Bool := false
  /-- The job ends with this code of R485 at the end of the extent in progress. -/
  stop : Option (BitVec 8) := none
  data : Tbl Byte := []
  deriving DecidableEq, Repr

/-- The last hold-up check (#7103.01). -/
structure HoldCheck where
  made : Bool := false
  cMicro : W32 := 0
  vMilli : W32 := 0
  avail : W32 := 0
  req : W32 := 0
  pos : Pos := 0
  passed : Bool := false
  deriving DecidableEq, Repr

/-- The Vault (R482 to R492) and the hold-up bank it checks (R488, R570). -/
structure Vault where
  objects : List VaultObj := []
  jobs : List VaultJob := []
  check : HoldCheck := {}
  failures : W64 := 0
  endedShort : Bool := false
  hand : Tbl HandCount := []
  deriving DecidableEq, Repr

/-! ### Glaze (chapter 17) -/

/-- A layer of the shadow block (R502). -/
structure Layer where
  base : W64 := 0
  pitch : W32 := 0
  format : BitVec 8 := 0
  matrix : BitVec 8 := 0
  blend : BitVec 8 := 0
  alpha : BitVec 8 := 0
  sx : BitVec 16 := 0
  sy : BitVec 16 := 0
  sw : BitVec 16 := 0
  sh : BitVec 16 := 0
  dx : BitVec 16 := 0
  dy : BitVec 16 := 0
  dw : BitVec 16 := 0
  dh : BitVec 16 := 0
  hset : BitVec 8 := 0
  vset : BitVec 8 := 0
  fenceT : BitVec 16 := 0
  fenceVal : W64 := 0
  deriving DecidableEq, Repr

/-- A pipe's state as one commit sets it (R502, R505): header, layers and coefficient sets. -/
structure PipeImage where
  en : BitVec 8 := 0
  background : W32 := 0
  layers : Tbl Layer := []
  coef : Tbl Byte := []
  deriving DecidableEq, Repr

/-- A Glaze pipe (R493 to R518). -/
structure Pipe where
  owner : Option RoomId := none
  placed : Bool := false
  shadow : W64 := 0
  coefAddr : W64 := 0
  active : PipeImage := {}
  /-- A commit request taken, whose blocks are being read; a further one waits (R507). -/
  reading : Bool := false
  waiting : Bool := false
  /-- The position when the request being read was taken; none where it was not valid. -/
  takenAt : Option Pos := none
  pending : Option PipeImage := none
  /-- The position when the request behind the pending state was taken. -/
  pendAt : Option Pos := none
  /-- Layers held, with their held state (R511). -/
  heldL : Tbl (Option Layer) := []
  /-- Frame boundaries at which each layer held a state, in a row (R512). -/
  heldCnt : Tbl Nat := []
  /-- Layers whose fence was met at the last decision point (R511), bit per layer. -/
  met : BitVec 8 := 0
  /-- The room released the pipe; the next boundary disables its layers (R494). -/
  released : Bool := false
  refused : Bool := false
  refCode : BitVec 8 := 0
  refLayer : BitVec 8 := 0
  underrun : Bool := false
  lastCommit : Pos := 0
  commits : W64 := 0
  refusals : W64 := 0
  heldStates : W64 := 0
  lateEvents : W64 := 0
  dropped : W64 := 0
  underruns : W64 := 0
  badPixels : W64 := 0
  deriving DecidableEq, Repr

/-- A video output (R513 to R517, R584). -/
structure VOut where
  active : Bool := false
  limiting : Bool := false
  fault : Bool := false
  retrying : Bool := false
  noSink : Bool := false
  linkFail : Bool := false
  link : BitVec 4 := 0
  lanes : BitVec 4 := 0
  faults : W32 := 0
  retimed : W32 := 0
  trainings : W32 := 0
  deriving DecidableEq, Repr

/-- Glaze (R493) and the reference loop-out (R581, R584). Output 0 and 1 SDI, 2 DP. -/
structure Glaze where
  pipe : Tbl Pipe := []
  out : Tbl VOut := []
  refLoop : VOut := { active := true }
  deriving DecidableEq, Repr

/-! ### Power, reset, boot, firmware (chapters 18 and 19) -/

/-- The power states of R520. QUIRE_GATED is RUN with a quire gated, and has no value of its own. -/
inductive PowerState where
  | run | idle | standby | off
  deriving DecidableEq, Repr

/-- The boot states of R544. -/
inductive BootState where
  | rom | ledger | verify | steward | ready | held | recovery
  deriving DecidableEq, Repr

/-- A sleep negotiation in progress (R528): its target (1 IDLE, 2 STANDBY, 3 quire gating), the blocks already stopped, those still to be asked, the record it answers, and the room and quires of a gating. -/
structure Negotiation where
  target : BitVec 8
  stopped : List Nat
  todo : List Nat
  record : Option W64
  room : Option RoomId
  /-- A stopped block that a wake event or a request has reached (R530). -/
  active : Option Nat := none
  deriving DecidableEq, Repr

/-- A record of #9012.01. -/
structure SleepRefusal where
  target : BitVec 8
  block : BitVec 8
  reason : BitVec 8
  k : BitVec 8
  pos : Pos
  deriving DecidableEq, Repr

/-- An image slot (R546, R548): the bytes that chunks have written, over the image set at manufacture where the slot holds one (R603). -/
structure Image where
  bytes : Tbl (Option Byte) := []
  factory : Bool := false
  deriving DecidableEq, Repr

/-- The image store (R548, R554): slot 2 * (KIND - 1) + s. `active` and `nextActive` give the slot of each KIND. -/
structure Store where
  image : Tbl Image := []
  active1 : Bool := false
  active2 : Bool := false
  next1 : Bool := false
  next2 : Bool := false
  /-- Boots in a row that the newly activated steward image failed to finish (R548). -/
  failed : Nat := 0
  fresh : Bool := false
  used1 : Bool := false
  used2 : Bool := false
  fallback : Bool := false
  minSec1 : BitVec 16 := 0
  minSec2 : BitVec 16 := 0
  deriving DecidableEq, Repr

/-- A record of #9030.01. -/
structure BootRec where
  incarnation : W32
  slot1 : BitVec 8
  slot2 : BitVec 8
  fallback : Bool
  endState : BitVec 8
  deriving DecidableEq, Repr

/-- The last reset (R542, #9000.05). -/
structure LastReset where
  cause : BitVec 8 := 0
  pos : Pos := 0
  incarnation : W32 := 0
  deriving DecidableEq, Repr

/-- The settings that the island keeps (R533) and its copies of R535. -/
structure Island where
  pinA : Bool := false
  pinALevel : Bool := false
  pinB : Bool := false
  pinBLevel : Bool := false
  smbusWake : Bool := true
  lastRequest : BitVec 8 := 0
  brownouts : W32 := 0
  wakeCause : BitVec 8 := 0
  incarnation : W32 := 0
  steward : W32 := 0
  deriving DecidableEq, Repr

/-- The power manager, the reset tree and boot (R519 to R557, R565 to R577). -/
structure Power where
  state : PowerState := .run
  boot : BootState := .rom
  incarnation : W32 := 0
  heldReason : BitVec 8 := 0
  neg : Option Negotiation := none
  kIdle : Nat := 0
  kStandby : Nat := 0
  /-- STANDBY was negotiated; its entry follows 5 ms after the reply (R531). -/
  standbyDue : Bool := false
  /-- The part is in STANDBY by request (R534, R538). -/
  byRequest : Bool := false
  /-- 48 V conversion has started and the hub has not reached power good (R567). -/
  starting : Bool := false
  refusals : List SleepRefusal := []
  opPoint : Fin 4 := 1
  throttles : W64 := 0
  /-- Hottest sensors of the hub and dies 0 to 3 in 0.1 °C, and the averaged input power. -/
  hottest : Int := 250
  watts : BitVec 16 := 0
  inputOk : Bool := true
  auxOk : Bool := true
  thermal : Bool := false
  /-- The hub converters run from the hold-up bank (R570). -/
  onHoldup : Bool := false
  /-- A wake came while the input was out of range (R538). -/
  heldWake : Bool := false
  /-- SYS_RST_N holds the hub in reset (R577). -/
  inReset : Bool := false
  /-- The cause code of R542 for the power-on or reset that follows. -/
  cause : BitVec 8 := 1
  /-- The position when that reset began; 0 where it was not valid. -/
  resetPos : Pos := 0
  island : Island := {}
  lastReset : LastReset := {}
  bootLog : List BootRec := []
  store : Store := {}
  deriving DecidableEq, Repr

/-! ### The whole part -/

/-- Registers of the device with no chapter structure of their own: the device instances of HUB_CUE_ERR and HUB_CUE_EVT (R392), and the cue counters (#2042). -/
structure DevRegs where
  cueErr : W32 := 0
  cueEvt : W32 := 0
  cueLate : W64 := 0
  cueMiss : W64 := 0
  cueDelayed : W64 := 0
  dmaBad : W64 := 0
  winRefusals : W64 := 0
  winLast : WinRefusal := {}
  refusal : RoomRefusal := {}
  deriving DecidableEq, Repr

/-- The state of the F-1280. -/
structure State where
  pending : List Instr := []
  out : List Out := []
  free : Nat := 0
  clk : Clock := {}
  dev : DevRegs := {}
  cue : Tbl CueEntry := []
  tal : Tallies := {}
  tiles : Tbl Tile := []
  quires : Tbl Quire := []
  mem : List Host.Cell := []
  synd : Tbl Byte := []
  reb : Rebind := {}
  sdma : Tbl Chan := []
  wins : Tbl Window := []
  ports : Tbl Port := []
  fab : Fabric := {}
  integ : Integ := {}
  rooms : Tbl Room := []
  plans : Tbl Plan := []
  irq : Irq := {}
  fns : Tbl Fn := []
  pcie : Pcie := {}
  ent : Tbl (Option (List Byte)) := []
  bil : Bilbin := {}
  led : Ledger := {}
  vault : Vault := {}
  glz : Glaze := {}
  pow : Power := {}
  deriving DecidableEq, Repr

/-- The part right after a power-on reset of a part as manufactured: boot state ROM, every register at its reset value, an empty Ledger, and valid factory images in slot A of each KIND (R603). -/
def State.reset : State :=
  { pow := { store := { image := [(0, { factory := true }), (2, { factory := true })] } } }

end Sys2Proof.Machine
end

