-- ==== Sys2Proof/Machine/Ops.lean ====
section
/-! DEFINITION. Access to the parts of the state, the numbering of tiles and quires, who owns what, free values and outputs. -/

namespace Sys2Proof.Machine

/-! ### Access to the numbered parts -/

def State.tile (s : State) (t : Nat) : Tile := Tbl.get {} s.tiles t
def State.setTile (s : State) (t : Nat) (x : Tile) : State := { s with tiles := Tbl.put {} s.tiles t x }
def State.modTile (s : State) (t : Nat) (f : Tile → Tile) : State := s.setTile t (f (s.tile t))

def State.quire (s : State) (q : Nat) : Quire := Tbl.get {} s.quires q
def State.setQuire (s : State) (q : Nat) (x : Quire) : State := { s with quires := Tbl.put {} s.quires q x }
def State.modQuire (s : State) (q : Nat) (f : Quire → Quire) : State := s.setQuire q (f (s.quire q))

def State.room (s : State) (r : Nat) : Room := Tbl.get {} s.rooms r
def State.setRoom (s : State) (r : Nat) (x : Room) : State := { s with rooms := Tbl.put {} s.rooms r x }
def State.modRoom (s : State) (r : Nat) (f : Room → Room) : State := s.setRoom r (f (s.room r))

def State.fn (s : State) (f : Nat) : Fn := Tbl.get {} s.fns f
def State.setFn (s : State) (f : Nat) (x : Fn) : State := { s with fns := Tbl.put {} s.fns f x }
def State.modFn (s : State) (f : Nat) (g : Fn → Fn) : State := s.setFn f (g (s.fn f))

def State.port (s : State) (p : Nat) : Port := Tbl.get {} s.ports p
def State.setPort (s : State) (p : Nat) (x : Port) : State := { s with ports := Tbl.put {} s.ports p x }
def State.modPort (s : State) (p : Nat) (f : Port → Port) : State := s.setPort p (f (s.port p))

def State.chan (s : State) : ChanRef → Chan
  | .sys n => Tbl.get {} s.sdma n
  | .tile q m => Tbl.get {} (s.quire q).chan m
def State.setChan (s : State) (c : ChanRef) (x : Chan) : State :=
  match c with
  | .sys n => { s with sdma := Tbl.put {} s.sdma n x }
  | .tile q m => s.modQuire q fun y => { y with chan := Tbl.put {} y.chan m x }
def State.modChan (s : State) (c : ChanRef) (f : Chan → Chan) : State := s.setChan c (f (s.chan c))

def State.cueAt (s : State) : CueRef → CueEntry
  | .dev n => Tbl.get {} s.cue n
  | .quire q n => Tbl.get {} (s.quire q).cue n
def State.setCue (s : State) (c : CueRef) (x : CueEntry) : State :=
  match c with
  | .dev n => { s with cue := Tbl.put {} s.cue n x }
  | .quire q n => s.modQuire q fun y => { y with cue := Tbl.put {} y.cue n x }

def State.pipe (s : State) (p : Nat) : Pipe := Tbl.get {} s.glz.pipe p
def State.vout (s : State) (o : Nat) : VOut := Tbl.get {} s.glz.out o
def State.tally (s : State) (n : Nat) : W64 := Tbl.get 0 s.tal.val n
def State.window (s : State) (w : Nat) : Window := Tbl.get {} s.wins w
def State.plan (s : State) (p : Nat) : Plan := Tbl.get {} s.plans p
def State.keySlot (s : State) (k : Nat) : KeySlot := Tbl.get {} s.bil.keys k

/-! ### Outputs and free values -/

/-- The part sends `o`. -/
def State.emit (s : State) (o : Out) : State := { s with out := s.out ++ [o] }

/-- A fresh free value of `w` bits (log 3). -/
def State.freeVal (s : State) (w : Nat) : BitVec w := Config.free w s.free

/-- The counter moves on, so that the next free value is another one. -/
def State.spend (s : State) : State := { s with free := s.free + 1 }

/-! ### Power (R522, R530) -/

/-- The part leaves IDLE for RUN (R522). -/
def State.leaveIdle (s : State) : State := if s.pow.state = .idle then { s with pow := { s.pow with state := .run } } else s

/-- A wake event or a request reaches block `b` during a sleep negotiation: where the block has already stopped, it counts as a refusal with ACTIVITY (R530). A quire is a block of a gating negotiation. -/
def State.activity (s : State) (b : Nat) (quire : Bool) : State :=
  match s.pow.neg with
  | some n => if decide (n.target = 3) = quire && n.stopped.contains b && n.active.isNone then { s with pow := { s.pow with neg := some { n with active := some b } } } else s
  | none => s

/-! ### Numbering (R20) -/

/-- The quire of a tile (R20). -/
def tileQuire (t : Nat) : Nat := t / 320 * 20 + t % 320 / 64 * 4 + t % 16 / 4

/-- The index of a tile within its quire (R20). -/
def tileIndex (t : Nat) : Nat := t % 320 / 16 % 4 * 4 + t % 4

/-- The tile with index `k` of quire `q` (R20). -/
def quireTile (q k : Nat) : Nat := q / 20 * 320 + (q % 20 / 4 * 4 + k / 4) * 16 + q % 4 * 4 + k % 4

/-- The tiles of a quire by rising index. -/
def quireTiles (q : Nat) : List Nat := (List.range 16).map (quireTile q)

/-- The quire number as the operand type of a channel. -/
def toQuire (q : Nat) : QuireId := Fin.ofNat 80 q

/-- A room number as `RoomId`. -/
def toRoom (r : Nat) : RoomId := Fin.ofNat 16 r

/-! ### Ownership (R374) -/

/-- The room exists: it is forming, formed, faulted or dissolving (R374, R404). -/
def Room.exists' (r : Room) : Bool := r.state ≠ .free

/-- The room is formed in the sense of R376: it exists and is not dissolving. -/
def Room.isFormed (r : Room) : Bool := r.state = .formed || r.state = .faulted || r.state = .forming

/-- The lowest room that exists and whose formation record and room satisfy `p`. -/
def State.roomWith (s : State) (p : FormRec → Room → Bool) : Option Nat :=
  (List.range 16).find? fun r =>
    let x := s.room r
    x.exists' && match x.form with | none => false | some f => p f x

/-- The room that owns a quire. -/
def State.quireRoom (s : State) (q : Nat) : Option Nat := s.roomWith fun f _ => f.quires.getLsbD q

/-- The room that owns a tile. -/
def State.tileRoom (s : State) (t : Nat) : Option Nat := s.quireRoom (tileQuire t)

/-- `n` lies in the range of `count` numbers from `base`. -/
def inRange (n base count : Nat) : Bool := base ≤ n && n < base + count

/-- Tally `n` lies in the local or fabric range of a formation record (R93, R94). Fabric tallies are 4096 to 5119. -/
def formOwns (f : FormRec) (n : Nat) : Bool :=
  inRange n f.ltBase.toNat f.ltCount.toNat || inRange n f.ftBase.toNat f.ftCount.toNat

/-- The room that owns a tally, by its local range or its fabric range. -/
def State.tallyRoom (s : State) (n : Nat) : Option Nat := s.roomWith fun f _ => formOwns f n

/-- The room that owns a device cue entry (R64). -/
def State.cueRoom (s : State) (n : Nat) : Option Nat := s.roomWith fun f _ => inRange n f.cueBase.toNat f.cueCount.toNat

/-- The room that owns a cue entry: by formation record, or by the quire of its table (R63, R64). -/
def State.cueOwner (s : State) : CueRef → Option Nat
  | .dev n => s.cueRoom n
  | .quire q _ => s.quireRoom q

/-- The room that owns a tally watch (R110). -/
def State.watchRoom (s : State) (n : Nat) : Option Nat := s.roomWith fun f _ => inRange n f.twBase.toNat f.twCount.toNat

/-- The room that a DMA channel acts for (R284). -/
def State.chanRoom (s : State) : ChanRef → Option Nat
  | .sys n => s.roomWith fun f _ => f.sdma.getLsbD n
  | .tile q _ => s.quireRoom q

/-- The room that owns an HBM unit of 2 MiB (R274, R377). -/
def State.unitRoom (s : State) (u : Nat) : Option Nat := s.roomWith fun _ x => x.hbm.contains u

/-- Room `r` owns every HBM unit that holds one of the `n` bytes from HBM byte offset `a` (R274). -/
def State.ownsHbm (s : State) (r : Nat) (a n : Nat) : Bool :=
  a + n ≤ 0x3000000000 &&
  (List.range ((a + n + 0x1FFFFF) / 0x200000 - a / 0x200000)).all fun i => (s.room r).hbm.contains (a / 0x200000 + i)

/-- The owned quires of a formation record, rising. -/
def formQuires (f : FormRec) : List Nat := bitList 80 f.quires.toNat

/-- The quires of a room, rising. -/
def State.roomQuires (s : State) (r : Nat) : List Nat :=
  match (s.room r).form with | none => [] | some f => (formQuires f)

/-- The tiles of a room, by rising quire and index. -/
def State.roomTiles (s : State) (r : Nat) : List Nat := (s.roomQuires r).flatMap quireTiles

/-- The channels of a room: its system channels, then both channels of every tile of its quires (R374). -/
def State.roomChans (s : State) (r : Nat) : List ChanRef :=
  match (s.room r).form with
  | none => []
  | some f => (bitList 64 f.sdma.toNat).map (fun n => .sys (Fin.ofNat 64 n)) ++
      (formQuires f).flatMap fun q => (List.range 32).map fun m => .tile (toQuire q) (Fin.ofNat 32 m)

/-- The device cue entries of a room, rising. -/
def State.roomCues (s : State) (r : Nat) : List CueRef :=
  match (s.room r).form with
  | none => []
  | some f => (List.range f.cueCount.toNat).map (fun i => .dev (Fin.ofNat 2048 (f.cueBase.toNat + i))) ++
      (formQuires f).flatMap fun q => (List.range 64).map fun n => .quire (toQuire q) (Fin.ofNat 64 n)

/-- A room has a fabric range (R94). -/
def State.hasFabric (s : State) (r : Nat) : Bool :=
  match (s.room r).form with | none => false | some f => f.ftCount ≠ 0

/-- The position is valid: the clock is not FREE or ACQUIRE (R42). -/
def State.posValid (s : State) : Bool := s.clk.state = .locked || s.clk.state = .holdover

/-- The position as a record holds it: 0 if not valid (R466). -/
def State.posOrZero (s : State) : Pos := if s.posValid then s.clk.pos else 0

end Sys2Proof.Machine
end

