-- ==== Sys2Proof/Machine/Cfg.lean ====
section
/-! DEFINITION. Settings read from the Catalogue (R435 to R438) and the status words that show present conditions (R491, R517, R556). -/

namespace Sys2Proof.Machine

/-- The number of an entry in `State.ent`. -/
def entKey (idx sub : Nat) : Nat := idx * 256 + sub

/-- The value that a writable entry holds: the value written, or its default (R438). -/
def State.cfg (s : State) (idx sub : Nat) : List Byte :=
  match Tbl.get none s.ent (entKey idx sub) with
  | some v => v
  | none => match entryDef idx sub with | some e => e.dflt | none => []

/-- A setting as a number. -/
def State.cfgN (s : State) (idx sub : Nat) : Nat := leNat (s.cfg idx sub)

/-- `n` bytes of a RECORD setting from byte `i`, as a number. -/
def State.cfgAt (s : State) (idx sub i n : Nat) : Nat := fieldAt (s.cfg idx sub) i n

/-- Store the value of a writable entry. -/
def State.setCfg (s : State) (idx sub : Nat) (v : List Byte) : State :=
  { s with ent := Tbl.put none s.ent (entKey idx sub) (some v) }

/-- LPF, the lines per frame (R31, #2001.01). -/
def State.lpf (s : State) : Nat := s.cfgN 0x2001 1
/-- TPL, the ticks per line (R31, #2001.02). -/
def State.tpl (s : State) : Nat := s.cfgN 0x2001 2

/-! ### Slots of the Ledger (R466, R477, R478) -/

/-- Continuation entries of a record whose value and result have `n` bytes together (R467). -/
def recParts (n : Nat) : Nat := (n - 456 + 491) / 492

/-- A record's slots are needed (R477): an unacknowledged COMMAND record, or above the A of the latest complete checkpoint. -/
def recNeeded (l : Ledger) (r : Record) : Bool :=
  (r.kind = 1 && !r.acked) || match l.last with | none => true | some c => c.a < r.accession

/-- The slots that may not be overwritten: those of needed records, those held for records not DONE (R478), and those of the latest complete checkpoint and of the one being written. -/
def ledNeeded (l : Ledger) : List Nat :=
  (l.recs.filter (recNeeded l)).flatMap (fun r => r.slots) ++ l.recs.flatMap (fun r => r.held) ++
  (match l.last with | none => [] | some c => c.slots) ++ (match l.running with | none => [] | some c => c.slots)

/-- Free slots of the 65,536 (R477). -/
def ledFree (l : Ledger) : Nat := 65536 - (ledNeeded l).length

/-- Free slots outside the reserve of 4,608 (R478). -/
def ledFreeOut (l : Ledger) : Nat := ledFree l - 4608

/-- The `k` lowest-numbered free slots (R477). -/
def ledLowest (l : Ledger) (k : Nat) : List Nat :=
  let used := ledNeeded l
  ((List.range (Nat.min 65536 (used.length + k))).filter fun n => !used.contains n).take k

/-- Continuation entries that admission counts for a value of `n` bytes and the largest result (R478). -/
def admitParts (n : Nat) : Nat := recParts (n + 1024)

/-- LEDGER_STAT (R491). FULL: the smallest record would be refused under R478 (log 21). -/
def State.ledgerStat (s : State) : W32 :=
  BitVec.ofNat 32 (bit (ledFreeOut s.led < admitParts 0 + 1) + 2 * bit (ledFreeOut s.led < s.cfgN 0x7000 7) +
    4 * bit s.led.running.isSome + 8 * bit (!s.led.deferred.isEmpty))

/-! ### The hold-up check (R488) -/

/-- The energy available, in units of 0.01 pJ: 45 × C × (V² − V_MIN²), C in µF and V in mV. -/
def holdAvail (cMicro vMilli : Nat) : Nat := 45 * cMicro * (vMilli * vMilli - 38000 * 38000)

/-- E_avail ≥ 1.5 × (120 W × bytes / 14 GB/s + 0.5 J), both sides multiplied out (R488). -/
def holdEnough (cMicro vMilli bytes : Nat) : Bool :=
  150 * 1000000000000 * (120 * bytes + 7000000000) ≤ holdAvail cMicro vMilli * 14000000000

/-- E_avail in mJ, rounded down (#7103.01). -/
def holdAvailMilli (cMicro vMilli : Nat) : Nat := holdAvail cMicro vMilli / 100000000000

/-- 1.5 × E_req in mJ, rounded down (#7103.01). -/
def holdReqMilli (bytes : Nat) : Nat := 1500 * (120 * bytes + 7000000000) / 14000000000

/-- VAULT_STAT (R491). -/
def State.vaultStat (s : State) : W32 :=
  let v := s.vault
  let running := v.jobs.any fun j => j.inExtent
  let waiting := v.jobs.length - bit running
  BitVec.ofNat 32 (bit running + 2 * bit (16 ≤ waiting) +
    4 * bit (v.check.made && !(s.pow.inputOk && holdEnough v.check.cMicro.toNat v.check.vMilli.toNat 268435456)) + 8 * bit v.endedShort)

/-! ### Status words of Glaze (R517) -/

/-- The raster format code of a pipe (R496, #8001). -/
def State.pipeFormat (s : State) (p : Nat) : Nat := s.cfgAt 0x8001 (p + 1) 0 1

/-- The frame rate of a raster format code: numerator and denominator (R496). -/
def formatRate : Nat → Nat × Nat
  | 1 => (25, 1) | 2 => (30000, 1001) | 3 => (24000, 1001) | 4 => (24, 1) | 5 => (25, 1) | 6 => (30000, 1001)
  | 7 => (30, 1) | 8 => (50, 1) | 9 => (60000, 1001) | 10 => (60, 1) | 11 => (24000, 1001) | 12 => (24, 1)
  | 13 => (25, 1) | 14 => (30000, 1001) | 15 => (30, 1) | 16 => (50, 1) | 17 => (60000, 1001) | _ => (60, 1)

/-- The pipe is LOCKED: the position is valid and the rates are equal as ratios (R497). -/
def State.pipeLocked (s : State) (p : Nat) : Bool :=
  let (n, d) := formatRate (s.pipeFormat p)
  s.posValid && n * s.cfgN 0x2001 4 = d * s.cfgN 0x2001 3

/-- A layer's count of held boundaries is at or above #8005.01 (R512). -/
def State.pipeLate (s : State) (p : Nat) : Bool :=
  (List.range 8).any fun l => s.cfgN 0x8005 1 ≤ Tbl.get 0 (s.pipe p).heldCnt l

/-- GLZ_PIPE_STAT (R517). -/
def State.pipeStat (s : State) (p : Nat) : W32 :=
  let x := s.pipe p
  BitVec.ofNat 32 (bit x.owner.isSome + 2 * bit (!s.pipeLocked p) + 4 * bit x.pending.isSome + 8 * bit (!x.heldL.isEmpty) +
    16 * bit (s.pipeLate p) + 32 * bit x.refused + 64 * bit x.underrun)

/-- The output is enabled (#8010). -/
def State.outEnabled (s : State) (o : Nat) : Bool := s.cfgAt 0x8010 (o + 1) 0 1 = 1
/-- The pipe that the output shows (#8010). -/
def State.outPipe (s : State) (o : Nat) : Nat := s.cfgAt 0x8010 (o + 1) 1 1

/-- FORMAT: an SDI output whose pipe runs a format it does not carry (R514). -/
def State.outFormat (s : State) (o : Nat) : Bool :=
  o < 2 && s.outEnabled o && (let f := s.pipeFormat (s.outPipe o); 11 ≤ f && f ≤ 15)

/-- ACTIVE: the output transmits (R514 to R517, R584). -/
def State.outActive (s : State) (o : Nat) : Bool :=
  let x := s.vout o
  s.outEnabled o && !s.outFormat o && !x.fault && (o < 2 || (!x.noSink && x.link ≠ 0)) && !s.pow.inReset &&
    (s.pow.state ≠ .standby && s.pow.state ≠ .off)

/-- GLZ_OUT_STAT (R517). -/
def State.outStat (s : State) (o : Nat) : W32 :=
  let x := s.vout o
  BitVec.ofNat 32 (bit (s.outActive o) + 2 * bit x.fault + 4 * bit (s.outFormat o) + 8 * bit x.noSink + 16 * bit x.linkFail +
    256 * x.lanes.toNat + 4096 * x.link.toNat)

/-- PWR_STAT (R556). -/
def State.pwrStat (s : State) : W32 :=
  let p := s.pow
  BitVec.ofNat 32 (bit (p.boot = .held) + 2 * bit p.neg.isSome + 4 * bit (p.kIdle ≠ 0 || p.kStandby ≠ 0) +
    8 * bit (s.cfgN 0x9020 1 < p.opPoint.val) + 16 * bit (900 ≤ p.hottest) + 32 * bit (!p.inputOk))

end Sys2Proof.Machine
end

