-- ==== Sys2Proof/Machine/Irq.lean ====
section
/-! DEFINITION. The interrupt router: sources, their owners, and the events they produce for vectors (R392 to R397). -/

namespace Sys2Proof.Machine

/-- The owner number of the device (R402). -/
def devOwner : Nat := 16

/-- The event bits of a channel's STAT (R308). -/
def chanEvents (c : Chan) : W32 :=
  BitVec.ofNat 32 (256 * bit c.doneEvt + 512 * bit c.errEvt + 1024 * bit c.abortedEvt + 2048 * bit c.goRefused)

/-- The word whose bits feed source `n` (R392, R432, R491, R517, R556). Reserved sources read 0. -/
def State.srcWord (s : State) (n : Nat) : W32 :=
  if n < 3840 then
    let q := s.quire (n / 48)
    if n % 48 = 0 then q.cueEvt
    else if n % 48 = 1 then q.memEvt
    else if n % 48 < 16 then 0
    else chanEvents (Tbl.get {} q.chan (n % 48 - 16))
  else if n < 3904 then chanEvents (Tbl.get {} s.sdma (n - 3840))
  else if n < 3920 then (s.room (n - 3904)).tallyEvt
  else if n < 3936 then (s.room (n - 3920)).cueEvt
  else if n < 3952 then (s.room (n - 3936)).evt
  else if n = 3952 then s.dev.cueEvt
  else if n = 3953 then s.clk.evt
  else if n < 3970 then (s.port (n - 3954)).evt
  else if n = 3970 then s.ledgerStat
  else if n = 3971 then s.vaultStat
  else if n < 3974 then s.pipeStat (n - 3972)
  else if n < 3977 then s.outStat (n - 3974)
  else if n = 3984 then s.pwrStat
  else if 4064 ≤ n && n < 4080 then (s.fn (n - 4063)).hostEvt
  else if n = 4080 then (s.fn 0).hostEvt
  else 0

/-- The owner of source `n` (R392, R402): a room, 16 for the device, 31 for none. -/
def State.srcOwner (s : State) (n : Nat) : Nat :=
  let own : Option Nat → Nat := fun o => o.getD 31
  if n < 3840 then (if 1 < n % 48 && n % 48 < 16 then 31 else own (s.quireRoom (n / 48)))
  else if n < 3904 then own (s.chanRoom (.sys (Fin.ofNat 64 (n - 3840))))
  else if n < 3952 then (if (s.room ((n - 3904) % 16)).exists' then (n - 3904) % 16 else 31)
  else if n < 3972 then devOwner
  else if n < 3974 then (match (s.pipe (n - 3972)).owner with | some r => r.val | none => devOwner)
  else if n < 3977 || n = 3984 || n = 4080 then devOwner
  else if 4064 ≤ n && n < 4080 then (if (s.room (n - 4064)).exists' then n - 4064 else 31)
  else 31

def State.irSrc (s : State) (n : Nat) : IrSrc := Tbl.get {} s.irq.src n
def State.irVec (s : State) (owner v : Nat) : IrVec := Tbl.get {} s.irq.vec (owner * 256 + v)
def State.setIrVec (s : State) (owner v : Nat) (x : IrVec) : State :=
  { s with irq := { s.irq with vec := Tbl.put {} s.irq.vec (owner * 256 + v) x } }
def State.irSlot (s : State) (owner n : Nat) : IrSlot := Tbl.get {} s.irq.slot (owner * 2048 + n)

/-- The source is asserted (R393). -/
def State.asserted (s : State) (n : Nat) : Bool :=
  let x := s.irSrc n
  x.en && (s.srcWord n &&& x.mask) ≠ 0

/-- One event for vector `v` of `owner`. While EN is 0 it is discarded (R396). -/
def State.vecEvent (s : State) (owner v : Nat) : State :=
  let x := s.irVec owner v
  if x.en then s.setIrVec owner v { x with held := x.held + 1 } else s

/-- The event that source `n` produces for its vector (R393). -/
def State.srcEvent (s : State) (n : Nat) : State :=
  let o := s.srcOwner n
  if o = 31 then s else s.vecEvent o (s.irSrc n).vector.toNat

/-- After a change from `s` to `t`: source `n` produces an event where it became asserted (R393). -/
def State.srcRose (s t : State) (n : Nat) : State :=
  if t.asserted n && !s.asserted n then t.srcEvent n else t

/-- After a write to the register of source `n`: an event where the write leaves it asserted (R393). -/
def State.srcWritten (t : State) (n : Nat) : State := if t.asserted n then t.srcEvent n else t

/-- The sources of the words that show present conditions (R491, R517, R556), beside the Ledger's. -/
def condSources : List Nat := [3971, 3972, 3973, 3974, 3975, 3976, 3984]

/-- After a command that took `s` to `t`: the events of the words that show present conditions. -/
def settle (s t : State) : State := forL condSources (fun n u => if t.asserted n && !s.asserted n then u.srcEvent n else u) t

/-! ### Latching event bits -/

/-- Set bits of ROOM_EVT of a room (R400). -/
def State.raiseRoom (s : State) (r : Nat) (m : W32) : State :=
  s.srcRose (s.modRoom r fun x => { x with evt := x.evt ||| m }) (3936 + r)

/-- Set bits of HUB_POS_EVT (R61). -/
def State.raisePos (s : State) (m : W32) : State :=
  s.srcRose { s with clk := { s.clk with evt := s.clk.evt ||| m } } 3953

/-- Set bits of FAB_PORT[p].EVT (R351). -/
def State.raisePort (s : State) (p : Nat) (m : W32) : State :=
  s.srcRose (s.modPort p fun x => { x with evt := x.evt ||| m }) (3954 + p)

/-- Set bits of QC_MEM_EVT of a quire (R282). -/
def State.raiseMem (s : State) (q : Nat) (m : W32) : State :=
  s.srcRose (s.modQuire q fun x => { x with memEvt := x.memEvt ||| m }) (48 * q + 1)

/-- The source number of a function's HOST_EVT (R432). -/
def hostSource (f : Nat) : Nat := if f = 0 then 4080 else 4063 + f

/-- Set bits of HOST_EVT of a function (R432). -/
def State.raiseHost (s : State) (f : Nat) (m : W32) : State :=
  s.srcRose (s.modFn f fun x => { x with hostEvt := x.hostEvt ||| m }) (hostSource f)

/-- HOST_ERR of a function records an access: code 1 OWNER, 2 SIZE, 3 APERTURE (R432). -/
def State.hostErrRec (s : State) (f bar off code : Nat) : State :=
  (s.modFn f fun x => { x with hostErr := BitVec.ofNat 64 (off * 2 ^ 32 + bar * 16 + code) }).raiseHost f 1

/-- TALLY_ERR of a room takes a new record, and TALLY_EVT.ERR is raised (R123, R124). -/
def State.raiseTally (s : State) (r : Nat) (m : W32) : State :=
  s.srcRose (s.modRoom r fun x => { x with tallyEvt := x.tallyEvt ||| m }) (3904 + r)

/-- The source number of a channel (R392). -/
def chanSource : ChanRef → Nat
  | .sys n => 3840 + n
  | .tile q m => 48 * q + 16 + m

/-- Change a channel, with the events of its STAT bits. -/
def State.modChanEvt (s : State) (c : ChanRef) (f : Chan → Chan) : State := s.srcRose (s.modChan c f) (chanSource c)

/-- Where the cue events of an entry latch (R392): a quire's registers, a room's instance, or the device's. -/
def State.raiseCue (s : State) (c : CueRef) (m : W32) : State :=
  match c with
  | .quire q _ => s.srcRose (s.modQuire q fun x => { x with cueEvt := x.cueEvt ||| m }) (48 * q)
  | .dev n => match (if n.val < 2032 then s.cueRoom n else none) with
    | some r => s.srcRose (s.modRoom r fun x => { x with cueEvt := x.cueEvt ||| m }) (3920 + r)
    | none => s.srcRose { s with dev := { s.dev with cueEvt := s.dev.cueEvt ||| m } } 3952

/-! ### Delivery (R394 to R397) -/

/-- The function of an owner: room `r` has virtual function `r + 1`, the device the physical function (R407). -/
def ownerFn (owner : Nat) : Nat := if owner = devOwner then 0 else owner + 1

/-- A tile that can take a delivery: it is not stopped or halted, and its quire is not gated (R395). -/
def State.tileTakes (s : State) (t : Nat) : Bool :=
  (s.tile t).run ≠ .stopped && (s.tile t).run ≠ .halted && ((s.quire (tileQuire t)).power = .on || (s.quire (tileQuire t)).power = .gating)

/-- The slot is available (R395). -/
def State.slotAvailable (s : State) (owner : Nat) (x : IrSlot) : Bool :=
  x.en && match x.kind.toNat with
    | 1 => (s.fn (ownerFn owner)).msixEn
    | 2 => s.tileTakes x.index.toNat
    | 3 => true
    | _ => false

/-- The chosen slot of a vector: the first available after LAST, wrapping from 7 to 0 (R395). -/
def State.chosenSlot (s : State) (owner v : Nat) : Option Nat :=
  let l := (s.irVec owner v).last.toNat
  ((List.range 8).map fun i => (l + 1 + i) % 8).find? fun k => s.slotAvailable owner (s.irSlot owner (8 * v + k))

/-- Send the MSI-X message of an entry, or hold it in the pending bit where the entry or the function is masked (R421). The write needs Bus Master Enable. -/
def State.sendMsix (s : State) (f entry : Nat) : State :=
  let x := s.fn f
  let e := Tbl.get {} x.msix entry
  if x.fnMask || e.masked || !x.busMaster then s.setFn f { x with msix := Tbl.put {} x.msix entry { e with pending := true } }
  else s.emit (.msix (Fin.ofNat 17 f) entry e.addr e.data)

/-- One delivery through slot `k` of a vector (R396, R397). -/
def State.deliver (s : State) (owner v k : Nat) : State :=
  let x := s.irSlot owner (8 * v + k)
  let s := s.setIrVec owner v { s.irVec owner v with held := 0, last := BitVec.ofNat 3 k }
  match x.kind.toNat with
  | 1 => (s.modFn (ownerFn owner) fun y => { y with hint := false }).sendMsix (ownerFn owner) x.index.toNat
  | 2 => s.modTile x.index.toNat fun y => { y with priv := { y.priv with irqPend := y.priv.irqPend ||| (1#16 <<< x.line.toNat) } }
  | 3 => s.emit (.steward v)
  | _ => s

/-- VECTOR_DELIVERY (R395 to R397): with events held and a slot available, the one delivery is made. -/
def execVectorDelivery (owner : Fin 17) (v : Fin 256) (s : State) : Host.Outcome State Fault Refusal :=
  .next (let x := s.irVec owner v
    if x.en && x.held ≠ 0 then
      match s.chosenSlot owner v with
      | some k => s.deliver owner v k
      | none => s
    else s)

end Sys2Proof.Machine
end

