-- ==== Sys2Proof/Machine/LedCore.lean ====
section
/-! DEFINITION. Recording in the Ledger: allocation of slots, events, and the records of commands (R466 to R479). -/

namespace Sys2Proof.Machine

/-- Change the Ledger, with the events of LEDGER_STAT (R491). -/
def State.modLed (s : State) (f : Ledger → Ledger) : State := s.srcRose { s with led := f s.led } 3970

/-- Records that lose a slot to a new entry are recognised no more: the slots `k` are allocated (R477). -/
def ledTake (l : Ledger) (k : List Nat) : Ledger :=
  { l with recs := l.recs.filter fun r => recNeeded l r || (r.slots.all fun n => !k.contains n) }

/-- Record one event entry, with a slot for its head and each continuation (R469, R470). The journal has the slots. -/
def ledRecordEvent (s : State) (code : BitVec 16) (v : List Byte) (l : Ledger) : Ledger :=
  let k := ledLowest l (1 + recParts v.length)
  let l := ledTake l k
  { l with recs := l.recs ++ [{ accession := l.nextAcc, incarnation := s.pow.incarnation, kind := 3, done := true, index := code,
                                pos := s.posOrZero, value := v, slots := k }],
           nextAcc := l.nextAcc + 1, heads := l.heads + 1 }

/-- The part records an event (R469). With no free slot even in the reserve it waits in hub memory, up to 1,024 events, and is lost beyond them (R479). Events that wait are recorded first. -/
def State.event (s : State) (code : BitVec 16) (v : List Byte) : State :=
  s.modLed fun l =>
    if l.deferred.isEmpty && 1 + recParts v.length ≤ ledFree l then ledRecordEvent s code v l
    else if l.deferred.length < 1024 then { l with deferred := l.deferred ++ [(code, v)] }
    else { l with eventsLost := l.eventsLost + 1 }

/-- The accession number that the next event takes; 0 while events wait (log 22). -/
def State.nextEventAcc (s : State) (n : Nat) : W64 :=
  if s.led.deferred.isEmpty && 1 + recParts n ≤ ledFree s.led then s.led.nextAcc else 0

/-- EVENT_DEFERRED_RECORD (R479): the oldest waiting event is recorded when slots are free. -/
def execEventDeferredRecord (s : State) : Host.Outcome State Fault Refusal :=
  .next (s.modLed fun l =>
    match l.deferred with
    | [] => l
    | (code, v) :: rest =>
      if 1 + recParts v.length ≤ ledFree l then ledRecordEvent s code v { l with deferred := rest } else l)

/-- The bytes of a position (R436). -/
def posBytes (p : Pos) : List Byte := leBytes 8 p.toNat

/-- The record with accession number `a`. -/
def State.record (s : State) (a : W64) : Option Record := s.led.recs.find? fun r => r.accession = a

/-- Change the record with accession number `a`. -/
def ledModRec (l : Ledger) (a : W64) (f : Record → Record) : Ledger :=
  { l with recs := l.recs.map fun r => if r.accession = a then f r else r }

/-- A CHECKPOINT begins when 4,096 head entries have been made since the last one began, or for an ACK (R476, R608). -/
def checkpointDue (l : Ledger) : Bool := l.running.isNone && (4096 ≤ l.heads || l.due)

end Sys2Proof.Machine
end

