-- ==== Sys2Proof/Machine/Mem.lean ====
section
/-! DEFINITION. Device memory: the byte address map, the granule code, error logs, marks and rebinding (R248 to R257, R270, R357, R369). -/

namespace Sys2Proof.Machine

/-! ### The granule code (R357) -/

/-- The number of 1 bits of a byte value. -/
def weight8 (v : Nat) : Nat := ((List.range 8).filter fun i => v.testBit i).length

/-- The columns h(0) to h(63): the 56 values of weight 3 in ascending order, then eight listed values (R357). -/
def granCols : List Nat := (List.range 256).filter (fun v => weight8 v = 3) ++ [0x1F, 0x2F, 0x37, 0x3B, 0x3D, 0x3E, 0x4F, 0x57]

/-- How a syndrome is read (R357). -/
inductive Synd where
  | good
  | checkBit
  | dataBit (i : Nat)
  | bad
  deriving DecidableEq, Repr

/-- The reading of a syndrome (R357). 0xFF is uncorrectable. -/
def readSynd (y : Byte) : Synd :=
  if y = 0 then .good
  else if weight8 y.toNat = 1 then .checkBit
  else match granCols.findIdx? (· = y.toNat) with
    | some i => .dataBit i
    | none => .bad

/-- Flip bit `i` of the eight bytes of a granule. -/
def flipBit (bs : List Byte) (i : Nat) : List Byte :=
  setAt bs (i / 8) ((bs.getD (i / 8) 0) ^^^ (1#8 <<< (i % 8)))

/-- The data of a granule after correction; none when it is uncorrectable. -/
def granData (bs : List Byte) (y : Byte) : Option (List Byte) :=
  match readSynd y with
  | .good => some bs
  | .checkBit => some bs
  | .dataBit i => some (flipBit bs i)
  | .bad => none

/-! ### The device byte address map (R270) -/

/-- The region of a device byte address. -/
inductive Region where
  | hbm (off : Nat)
  | scratch (t off : Nat)
  | qscratch (q off : Nat)
  deriving DecidableEq, Repr

/-- Base of the scratchpad of tile `t` (R270). -/
def scratchBase (t : Nat) : Nat := 0x40000000000000 + t * 0x200000
/-- Base of the quire scratch of quire `q` (R270). -/
def qscratchBase (q : Nat) : Nat := 0x50000000000000 + q * 0x400000

/-- The active USABLE of a tile (R256). -/
def State.usable (s : State) (t : Nat) : Nat := Tbl.get 1024 s.reb.usable t

/-- HBM units of 2 MiB in 192 GiB (R274). -/
def hbmUnits : Nat := 98304

/-- The region of a device byte address by the bases and strides of R270; none outside. -/
def regionOf (a : Nat) : Option Region :=
  if a < 0x3000000000 then some (.hbm a)
  else if 0x40000000000000 ≤ a && a < 0x40000000000000 + 1280 * 0x200000 then
    some (.scratch ((a - 0x40000000000000) / 0x200000) ((a - 0x40000000000000) % 0x200000))
  else if 0x50000000000000 ≤ a && a < 0x50000000000000 + 80 * 0x400000 then
    some (.qscratch ((a - 0x50000000000000) / 0x400000) ((a - 0x50000000000000) % 0x400000))
  else none

/-- The byte lies in memory in use (R257, R270). -/
def State.inUse (s : State) (a : Nat) : Bool :=
  match regionOf a with
  | none => false
  | some (.hbm _) => true
  | some (.scratch t off) => off < s.usable t * 1536
  | some (.qscratch q off) => off < (s.quire q).groups.toNat * 524288

/-- Room `r` owns the byte (R257, R270, R274). -/
def State.ownsByte (s : State) (r a : Nat) : Bool :=
  s.inUse a && match regionOf a with
    | none => false
    | some (.hbm off) => (s.room r).hbm.contains (off / 0x200000)
    | some (.scratch t _) => s.tileRoom t = some r
    | some (.qscratch q _) => s.quireRoom q = some r

/-- Room `r` owns each of `n` bytes from `a`. Ownership is constant over each 512-byte block. -/
def State.ownsBytes (s : State) (r a n : Nat) : Bool :=
  n = 0 || ((List.range ((a + n - 1) / 512 + 1 - a / 512)).all fun i => s.ownsByte r (Nat.max a ((a / 512 + i) * 512))) && s.ownsByte r (a + n - 1)

/-! ### Error records (R252, R281) -/

/-- A record in the layout of QC_MEM_ERR (R281). Arrays: 0 scratchpad, 1 quire cache, 2 quire scratch, 3 tile registers. -/
def memRecord (kind array tile bank prow gran : Nat) (y : Byte) : W64 :=
  BitVec.ofNat 64 (kind * 2 ^ 62 + array * 2 ^ 60 + tile % 16 * 2 ^ 56 + bank % 32 * 2 ^ 51 + prow % 2048 * 2 ^ 40 + gran % 8 * 2 ^ 37 + y.toNat * 2 ^ 29)

/-- Append to #5022.01, which keeps the last 256 records; those it loses are counted (R252). -/
def State.errLogAdd (s : State) (q : Byte) (v : W64) : State :=
  { s with reb := { s.reb with errLog := lastN 256 (s.reb.errLog ++ [(q, v)]),
                               errLost := if 256 ≤ s.reb.errLog.length then s.reb.errLost + 1 else s.reb.errLost } }

/-- Write an error record to QC_MEM_ERR of quire `q`, set bits of QC_MEM_EVT, and append it to the log (R252). -/
def State.memLog (s : State) (q : Nat) (v : W64) (evt : W32) : State :=
  ((s.modQuire q fun x => { x with memErr := v }).errLogAdd (BitVec.ofNat 8 q) v).raiseMem q evt

/-! ### Marks and rebinding (R254 to R256) -/

def bankKey (t b : Nat) : Nat := t * 24 + b
def rowKey (t b row : Nat) : Nat := bankKey t b * 1040 + row

/-- The physical row of bank `b` behind stripe `n` (R248, R255). -/
def physRow (r : Rebind) (t b n : Nat) : Nat := (Tbl.get none (Tbl.get {} r.bank (bankKey t b)).bind n).getD n

/-- The stripe below `usable` that a physical row backs. -/
def stripeOf (r : Rebind) (t b row : Nat) : Option Nat :=
  (List.range (Tbl.get 1024 r.usable t)).find? fun n => physRow r t b n = row

/-- Put a spare back into its bank's pool, in rising order. -/
def addSpare (x : BankRows) (row : Nat) : BankRows :=
  { x with spares := x.spares.filter (· < row) ++ [row] ++ x.spares.filter (row < ·) }

/-- Drop the highest usable stripe of a tile: the rows behind it in the banks other than `b` become spares of their banks (R255). -/
def dropStripe (r : Rebind) (t b : Nat) : Rebind :=
  let top := Tbl.get 1024 r.usable t - 1
  let r' := forN 24 (fun c (x : Rebind) =>
    if c = b then x
    else { x with bank := Tbl.put {} x.bank (bankKey t c) (addSpare (Tbl.get {} x.bank (bankKey t c)) (physRow r t c top)) }) r
  { r' with usable := Tbl.put 1024 r'.usable t top }

/-- A mark takes effect on its row (R255): a free spare leaves the pool; a row behind no stripe is retired only; otherwise the lowest free spare takes its stripe, or the highest stripe is dropped and its row takes it. -/
def applyMark (r : Rebind) (m : Mark) : Rebind :=
  let k := bankKey m.tile m.bank
  let x := Tbl.get {} r.bank k
  let retire : BankRows → BankRows := fun y => { y with retired := y.retired ++ [m.row] }
  if x.spares.contains m.row then
    { r with bank := Tbl.put {} r.bank k (retire { x with spares := x.spares.filter (· ≠ m.row) }) }
  else match stripeOf r m.tile m.bank m.row with
    | none => { r with bank := Tbl.put {} r.bank k (retire x) }
    | some n =>
      match x.spares with
      | p :: rest =>
        { r with bank := Tbl.put {} r.bank k (retire { x with spares := rest, bind := Tbl.put none x.bind n (some p) }),
                 ceRow := Tbl.put 0 r.ceRow (rowKey m.tile m.bank p) 0 }
      | [] =>
        let top := Tbl.get 1024 r.usable m.tile - 1
        let r' := dropStripe r m.tile m.bank
        let y := Tbl.get {} r'.bank k
        let row := physRow r m.tile m.bank top
        if n = top then { r' with bank := Tbl.put {} r'.bank k (retire y) }
        else { r' with bank := Tbl.put {} r'.bank k (retire { y with bind := Tbl.put none y.bind n (some row) }),
                       ceRow := Tbl.put 0 r'.ceRow (rowKey m.tile m.bank row) 0 }

/-- The published figures of #5010: every pending mark worked through R255 in order (R256). -/
def publishedReb (r : Rebind) : Rebind := r.marks.foldl applyMark r

/-- The published USABLE of a tile (R256). -/
def State.published (s : State) (t : Nat) : Nat := Tbl.get 1024 (publishedReb { s.reb with marks := s.reb.marks.filter fun m => m.tile.val = t }).usable t

/-- The marks of the tiles of quire `q` take effect in the order recorded (R255). -/
def State.applyMarks (s : State) (q : Nat) : State :=
  let here : Mark → Bool := fun m => tileQuire m.tile = q
  { s with reb := { (s.reb.marks.filter here).foldl applyMark s.reb with marks := s.reb.marks.filter fun m => !here m } }

/-- A row that carries a mark, pending or already in effect (R254). -/
def rowMarked (r : Rebind) (t b row : Nat) : Bool :=
  r.marks.any (fun m => m.tile.val = t && m.bank = b && m.row = row) || (Tbl.get {} r.bank (bankKey t b)).retired.contains row

/-- The steward marks a row, unless it carries a mark (R252, R254): a record of KIND 3, the event, the log and the Ledger entry. Cause 1 corrected, 2 uncorrectable. -/
def State.markRow (s : State) (t b row cause gran : Nat) (y : Byte) : State :=
  if rowMarked s.reb t b row then s
  else
    let m : Mark := { tile := Fin.ofNat 1280 t, bank := b, row := row, cause := BitVec.ofNat 8 cause }
    let s := { s with reb := { s.reb with marks := s.reb.marks ++ [m], markLog := lastN 1024 (s.reb.markLog ++ [m]) } }
    let s := s.memLog (tileQuire t) (memRecord 3 0 (tileIndex t) b row gran y) 4
    s.event 2 (leBytes 2 t ++ leBytes 1 b ++ leBytes 2 row ++ leBytes 1 cause)

/-- The bank, stripe and granule of a scratchpad byte offset (R248). -/
def scratchPlace (off : Nat) : Nat × Nat × Nat := (off / 64 % 24, off / 64 / 24, off % 64 / 8)

/-- A scratchpad error at a byte offset is logged, counted, and marks its row where R254 says so. -/
def State.scratchError (s : State) (t off : Nat) (y : Byte) (ue : Bool) : State :=
  let (b, n, g) := scratchPlace off
  let row := physRow s.reb t b n
  let s := s.memLog (tileQuire t) (memRecord (if ue then 2 else 1) 0 (tileIndex t) b row g y) (if ue then 2 else 1)
  if ue then
    { s with reb := { s.reb with spUe := s.reb.spUe + 1 } }.markRow t b row 2 g y
  else
    let c := Tbl.get 0 s.reb.ceRow (rowKey t b row) + 1
    let s := { s with reb := { s.reb with spCe := s.reb.spCe + 1, ceRow := Tbl.put 0 s.reb.ceRow (rowKey t b row) c } }
    if s.cfgN 0x5020 1 ≤ c then s.markRow t b row 1 g y else s

/-- The way and set of a quire-scratch byte offset (R267). -/
def qscratchPlace (off : Nat) : Nat × Nat :=
  let g := off / 524288 + 1
  let o := off % 524288
  ((if o < 262144 then 16 - 2 * g else 17 - 2 * g), o % 262144 / 128)

/-- A quire-scratch error is logged and counted (R252, R253, R267). -/
def State.qscratchError (s : State) (q off : Nat) (y : Byte) (ue : Bool) : State :=
  let (way, set) := qscratchPlace off
  let s := s.memLog q (memRecord (if ue then 2 else 1) 2 0 way set (off % 128 / 8) y) (if ue then 2 else 1)
  if ue then { s with reb := { s.reb with qcUe := s.reb.qcUe + 1 } } else { s with reb := { s.reb with qcCe := s.reb.qcCe + 1 } }

/-- An error in device memory at byte address `a` (R252, R369). -/
def State.memError (s : State) (a : Nat) (y : Byte) (ue : Bool) : State :=
  match regionOf a with
  | some (.scratch t off) => s.scratchError t off y ue
  | some (.qscratch q off) => s.qscratchError q off y ue
  | _ => if ue then { s with reb := { s.reb with hbmUe := s.reb.hbmUe + 1 } } else { s with reb := { s.reb with hbmCe := s.reb.hbmCe + 1 } }

/-! ### Bytes and granules -/

/-- The canonical form of memory: addresses strictly rising, and no byte 0 listed, which is what an unlisted address reads as (log 8). -/
def Memory.wf (m : List Host.Cell) : Bool := Tbl.wf 0 m

/-- A byte of memory as stored. -/
def State.byteAt (s : State) (a : Nat) : Byte := Tbl.get 0 s.mem a
/-- Store a byte as it is. -/
def State.putByte (s : State) (a : Nat) (v : Byte) : State := { s with mem := Tbl.put 0 s.mem a v }
/-- Store bytes as they are, from `a`. -/
def State.putBytes (s : State) (a : Nat) : List Byte → State
  | [] => s
  | b :: bs => (s.putByte a b).putBytes (a + 1) bs
/-- `n` bytes as stored, from `a`. -/
def State.bytesAt (s : State) (a n : Nat) : List Byte := (List.range n).map fun i => s.byteAt (a + i)
/-- The syndrome of the granule with number `g` (byte address divided by 8). -/
def State.syndAt (s : State) (g : Nat) : Byte := Tbl.get 0 s.synd g
def State.setSynd (s : State) (g : Nat) (y : Byte) : State := { s with synd := Tbl.put 0 s.synd g y }

/-- Read granule `g`: the corrected data, or none when it is uncorrectable. A corrected error is written back and logged (R250, R369). -/
def State.readGran (s : State) (g : Nat) : Option (List Byte) × State :=
  let bs := s.bytesAt (8 * g) 8
  let y := s.syndAt g
  match readSynd y with
  | .good => (some bs, s)
  | .checkBit => (some bs, (s.setSynd g 0).memError (8 * g) y false)
  | .dataBit i => (some (flipBit bs i), (((s.putBytes (8 * g) (flipBit bs i)).setSynd g 0).memError (8 * g) y false))
  | .bad => (none, s.memError (8 * g) y true)

/-- Write bytes at offset `o` of granule `g`. A part of a granule is merged after a read; an uncorrectable read leaves the granule unwritten (R250, R369). -/
def State.writeGran (s : State) (g o : Nat) (bs : List Byte) : Bool × State :=
  if bs.length = 8 then (true, (s.putBytes (8 * g) bs).setSynd g 0)
  else match s.readGran g with
    | (none, s) => (false, s)
    | (some _, s) => (true, (s.putBytes (8 * g + o) bs).setSynd g 0)

/-- Cut bytes at address `a` into the granules they fall in: (granule, offset, bytes). -/
def granPieces : Nat → Nat → List Byte → List (Nat × Nat × List Byte)
  | 0, _, _ => []
  | fuel + 1, a, bs =>
    if bs.isEmpty then []
    else
      let n := 8 - a % 8
      (a / 8, a % 8, bs.take n) :: granPieces fuel (a + n) (bs.drop n)

/-- Write bytes at a device byte address, granule by granule in ascending order. False when some granule could not be written. -/
def State.writeMem (s : State) (a : Nat) (bs : List Byte) : Bool × State :=
  (granPieces bs.length a bs).foldl (fun (ok, s) (g, o, c) => let (k, s) := s.writeGran g o c; (ok && k, s)) (true, s)

/-- Read the listed granules for what the reads find (R369): corrected ones are written back, and each error is counted. -/
def State.sweep (s : State) (l : List (Nat × Byte)) : State := l.foldl (fun s e => (s.readGran e.1).2) s

/-- Read `n` bytes at a device byte address, granule by granule in ascending order; none when some granule is uncorrectable. -/
def State.readMem (s : State) (a n : Nat) : Option (List Byte) × State :=
  let gs := if n = 0 then [] else (List.range ((a + n - 1) / 8 + 1 - a / 8)).map (a / 8 + ·)
  let (r, s) := gs.foldl (fun (acc, s) g =>
    let (d, s) := State.readGran s g
    ((match acc, d with | some l, some d => some (l ++ d) | _, _ => none), s)) ((some [] : Option (List Byte)), s)
  (r.map fun l => (l.drop (a % 8)).take n, s)

/-- Clear the bytes from `lo` up to `hi`, which are multiples of 8, to 0 with valid check bits. -/
def State.clearMem (s : State) (lo hi : Nat) : State :=
  { s with mem := Tbl.clear s.mem lo hi, synd := Tbl.clear s.synd (lo / 8) (hi / 8) }

/-! ### Tile registers (R192, R194) -/

/-- The bank of a tile-register row (R192). -/
def xrBank (row : Nat) : Nat := if row < 256 then row / 32 else 8 + 2 * ((row - 256) / 64) + row % 64 / 2 % 2

/-- Read granule `g` of the tile registers of tile `t`. An uncorrectable error is logged and answers none (R194, R252). -/
def State.xrGran (s : State) (t g : Nat) : Option (List Byte) × State :=
  let x := (s.tile t).xu
  let bs := (List.range 8).map fun i => Tbl.get 0 x.rows (8 * g + i)
  let y := Tbl.get 0 x.synd g
  let row := g / 8
  let log : State → Bool → State := fun s ue =>
    let s := s.memLog (tileQuire t) (memRecord (if ue then 2 else 1) 3 (tileIndex t) (xrBank row) row (g % 8) y) (if ue then 2 else 1)
    if ue then { s with reb := { s.reb with spUe := s.reb.spUe + 1 } } else { s with reb := { s.reb with spCe := s.reb.spCe + 1 } }
  let put : List Byte → State := fun d => s.modTile t fun z =>
    { z with xu := { z.xu with rows := forN 8 (fun i r => Tbl.put 0 r (8 * g + i) (d.getD i 0)) z.xu.rows, synd := Tbl.put 0 z.xu.synd g 0 } }
  match readSynd y with
  | .good => (some bs, s)
  | .checkBit => (some bs, log (put bs) false)
  | .dataBit i => (some (flipBit bs i), log (put (flipBit bs i)) false)
  | .bad => (none, log s true)

/-- The 64 bytes of tile-register row `row` of tile `t`, with the byte offset of the first uncorrectable granule where there is one. -/
def State.xrRow (s : State) (t row : Nat) : List Byte × Option Nat × State :=
  (List.range 8).foldl (fun (bs, e, s) i =>
    match State.xrGran s t (8 * row + i) with
    | (some d, s) => (bs ++ d, e, s)
    | (none, s) => (bs ++ (List.range 8).map (fun j => Tbl.get 0 (s.tile t).xu.rows (8 * (8 * row + i) + j)), e.or (some (64 * row + 8 * i)), s)) ([], none, s)

/-- Write whole granules of tile-register row `row` from granule `g0`: the bytes with valid check bits. -/
def State.putXr (s : State) (t off : Nat) (bs : List Byte) : State :=
  s.modTile t fun z =>
    { z with xu := { z.xu with
        rows := forN bs.length (fun i r => Tbl.put 0 r (off + i) (bs.getD i 0)) z.xu.rows,
        synd := forN ((off + bs.length + 7) / 8 - off / 8) (fun i r => Tbl.put 0 r (off / 8 + i) 0) z.xu.synd } }

end Sys2Proof.Machine
end

