-- ==== Sys2Proof/Machine/Mesh.lean ====
section
/-! DEFINITION. The data mesh, the paths between dies and to the hub, and the control mesh (R272, R311 to R322, R364). -/

namespace Sys2Proof.Machine

/-! ### Where things sit (R20, R272, R314) -/

/-- The router of tile `t` (R20, R311). -/
def tileNode (t : Nat) : MeshNode := .router (t / 320) (t % 16) (t % 320 / 16)

/-- The router at which the block of quire `q` and its quire scratch are reached: one of its 16 tiles' routers, which is not documented (log 130). -/
def quireNode (q : Nat) : MeshNode :=
  let v := (Config.unitRouter (8 + q)).toNat
  .router (q / 20) (4 * (q % 4) + v % 4) (4 * (q % 20 / 4) + v / 4 % 4)

/-- The router at which the controller of stack `k` is reached, on the die it is attached to (R272, R314; log 130). -/
def stackNode (k : Nat) : MeshNode :=
  let v := (Config.unitRouter k).toNat
  .router (k / 2) (v % 16) (v / 16 % 20)

/-- Where an HBM granule is kept: stack, pseudo-channel, and granule within the pseudo-channel (R272). -/
structure HbmPlace where
  stack : Nat
  channel : Nat
  index : Nat
  deriving DecidableEq, Repr

/-- The `n` bits of `g` from bit `i`. -/
def bitField (g i n : Nat) : Nat := g / 2 ^ i % 2 ^ n

/-- The place of the byte at HBM offset `a` in mode GLOBAL (R272). -/
def globalPlace (a : Nat) : HbmPlace :=
  let g := a / 256
  { stack := bitField g 0 3 ^^^ bitField g 10 3 ^^^ bitField g 20 3, channel := bitField g 3 5 ^^^ bitField g 13 5, index := g / 2 ^ 8 }

/-- The place of the byte at HBM offset `a` in mode LOCAL (R272): quarter d of 48 GiB lies on die d's two stacks. -/
def localPlace (a : Nat) : HbmPlace :=
  let d := a / 0xC00000000
  let h := (a - d * 0xC00000000) / 256
  { stack := 2 * d + (bitField h 0 1 ^^^ bitField h 9 1 ^^^ bitField h 18 1), channel := bitField h 1 5 ^^^ bitField h 10 5, index := h / 2 ^ 6 }

/-- The place of the byte at HBM offset `a` in the mode of #5030.01 (R272). -/
def State.hbmPlace (s : State) (a : Nat) : HbmPlace := if s.cfgN 0x5030 1 = 1 then localPlace a else globalPlace a

/-- The place on the mesh that holds a device byte address (R270, R314). -/
def State.memNode (s : State) (a : Nat) : MeshNode :=
  match regionOf a with
  | some (.hbm off) => stackNode (s.hbmPlace off).stack
  | some (.scratch t _) => tileNode t
  | some (.qscratch q _) => quireNode q
  | none => .hub

/-! ### Ways (R312, R314, R317) -/

/-- The numbers passed from `a` to `b`, without `a`. -/
def wayFrom (a b : Nat) : List Nat := if a ≤ b then (List.range (b - a)).map (a + 1 + ·) else (List.range (a - b)).map (a - 1 - ·)

/-- The routers passed on a die: along the row to the destination column, then along that column (R312). -/
def dieWay (d c r c' r' : Nat) : List MeshNode := (wayFrom c c').map (.router d · r) ++ (wayFrom r r').map (.router d c' ·)

/-- The row of the hub links for a router in row `r`: the north edge for rows 0 to 9, the south edge for rows 10 to 19 (R314). -/
def hubRow (r : Nat) : Nat := if r ≤ 9 then 0 else 19

/-- The way from a router to the hub, in its own column (R314). -/
def upWay (d c r : Nat) : List MeshNode := dieWay d c r c (hubRow r) ++ [.hub]

/-- The way from the hub to a router, by the link of its column on the edge of its row (R314; log 130). -/
def downWay (d c r : Nat) : List MeshNode := .router d c (hubRow r) :: dieWay d c (hubRow r) c r

/-- The row in which a packet crosses to the next die: its own, or the nearer of rows 2 and 17 (R314). -/
def crossRow (r : Nat) : Nat := if r < 2 then 2 else if 17 < r then 17 else r

/-- The column of the edge of die `d` whose direct links lead to die `d'` (R314; log 130). -/
def edgeCol (d d' : Nat) : Nat := if (d' = (d + 1) % 4) = Config.eastNext then 15 else 0

/-- The places passed between two places of the data mesh, without the first (R312, R314). -/
def dataWay : MeshNode → MeshNode → List MeshNode
  | .hub, .hub => []
  | .router d c r, .hub => upWay d c r
  | .hub, .router d c r => downWay d c r
  | .router d c r, .router d' c' r' =>
    if d = d' then dieWay d c r c' r'
    else if d' = (d + 2) % 4 then upWay d c r ++ downWay d' c' r'
    else
      let e := crossRow r
      let k := edgeCol d d'
      dieWay d c r k e ++ .router d' (15 - k) e :: dieWay d' (15 - k) e c' r'

/-- The places passed between two places of the control mesh: it has no die-to-die links, so between dies the hub is passed (R317). -/
def ctlWay : MeshNode → MeshNode → List MeshNode
  | .hub, .hub => []
  | .router d c r, .hub => upWay d c r
  | .hub, .router d c r => downWay d c r
  | .router d c r, .router d' c' r' => if d = d' then dieWay d c r c' r' else upWay d c r ++ downWay d' c' r'

/-- The links of a way from `n`. -/
def linksOf (n : MeshNode) (l : List MeshNode) : List MeshLink := (n :: l).zip l

/-- The links of the tree of a multicast write from `src` to the rectangle of `w` columns and `h` rows at router (c, r) of die d: to the corner, along its row, and down each column. Each link is in it once (R315). -/
def castTree (src : MeshNode) (d c r w h : Nat) : List MeshLink :=
  linksOf src (dataWay src (.router d c r)) ++ linksOf (.router d c r) (dieWay d c r (c + w - 1) r) ++
  (List.range w).flatMap fun i => linksOf (.router d (c + i) r) (dieWay d (c + i) r (c + i) (r + h - 1))

/-! ### Classes and buffers of the data mesh (R319 to R321) -/

/-- The classes of the data mesh (R319). -/
inductive MeshClass where
  | cpl | fwd | new
  deriving DecidableEq, Repr

/-- What the data mesh carries (R319). -/
inductive MeshTraffic where
  | readData | writeAck | errorCpl
  /-- Requests re-issued by the hub link into a die, a die-to-die link, fabric ingress and PCIe ingress. -/
  | hubLinkIn | dieLink | fabricIn | pcieIn
  /-- Requests issued on this device. -/
  | tileCore | tileDma | sysDma | writeBack | hubUnit | steward
  deriving DecidableEq, Repr

/-- The class of a packet (R319). A packet that enters from the fabric is FWD (R328). -/
def meshClass : MeshTraffic → MeshClass
  | .readData | .writeAck | .errorCpl => .cpl
  | .hubLinkIn | .dieLink | .fabricIn | .pcieIn => .fwd
  | .tileCore | .tileDma | .sysDma | .writeBack | .hubUnit | .steward => .new

/-- Flits that a link input buffers for each class (R319). -/
def meshBuffer : Nat := 8

/-- Mesh cycles after which a class's oldest flit is served next (R320). -/
def meshAging : Nat := 256

/-- The link is a bridge into a die: a hub link into it, or a die-to-die link (R319). -/
def isBridge : MeshLink → Bool
  | (.hub, .router _ _ _) => true
  | (.router d _ _, .router d' _ _) => d ≠ d'
  | _ => false

/-- The class of a request of this device at the input of link `i` of its path: NEW until a bridge has re-issued it, then FWD (R319). -/
def classAt (path : List MeshLink) (i : Nat) : MeshClass := if (path.take (i + 1)).any isBridge then .fwd else .new

/-- The buffer that holds a request's flit, while it is under way (R319); a dropped packet holds none (R364). -/
def heldAt (q : DmaReq) : Option (MeshLink × MeshClass) :=
  match q.lost, q.hop with
  | false, i + 1 => (q.path[i]?).map fun l => (l, classAt q.path i)
  | _, _ => none

/-- Requests of the channels, with the channel of each. -/
def State.flights (s : State) : List (ChanRef × DmaReq) :=
  (s.sdma.flatMap fun e => e.2.reqs.map fun q => (.sys (Fin.ofNat 64 e.1), q)) ++
  s.quires.flatMap fun e => e.2.chan.flatMap fun x => x.2.reqs.map fun q => (.tile (Fin.ofNat 80 e.1) (Fin.ofNat 32 x.1), q)

/-- The receiver of link `l` holds a free buffer, a credit, for class `k` (R319). -/
def State.meshCredit (s : State) (l : MeshLink) (k : MeshClass) : Bool :=
  (s.flights.filter fun e => heldAt e.2 = some (l, k)).length < meshBuffer

/-- The request can enter the mesh: it crosses none, or the first link's receiver holds a credit for it (R319). -/
def State.meshFree (s : State) (path : List MeshLink) : Bool :=
  match path with
  | [] => true
  | l :: _ => s.meshCredit l (classAt path 0)

/-- In `cyc` cycles a request's flit moves on by as many links, at most `n`, each when the receiver holds a credit; at its target it leaves the last buffer (R319). -/
def State.carry (s : State) (q : DmaReq) (cyc : Nat) : Nat → DmaReq
  | 0 => q
  | n + 1 =>
    match q.path[q.hop]? with
    | some l => if !s.meshCredit l (classAt q.path q.hop) || cyc = 0 then q else s.carry { q with hop := q.hop + 1, waited := 0 } (cyc - 1) n
    | none => if cyc = 0 then q else { q with hop := q.path.length + 1 }

/-- The order in which an output serves requests: a flit that has waited 256 cycles is next, then FWD before NEW (R320). No completion waits behind them: its space is reserved (R321). -/
def meshOrder (l : List (ChanRef × DmaReq)) : List (ChanRef × DmaReq) :=
  let aged : ChanRef × DmaReq → Bool := fun e => meshAging ≤ e.2.waited
  let fwd : ChanRef × DmaReq → Bool := fun e => classAt e.2.path e.2.hop = .fwd
  l.filter aged ++ (l.filter fun e => !aged e && fwd e) ++ l.filter fun e => !aged e && !fwd e

/-- The mesh moves the requests under way. How many cycles have passed is free (R313; log 3). -/
def State.meshRun (s : State) : State :=
  let cyc := (s.freeVal 16).toNat
  forL (meshOrder (s.flights.filter fun e => e.2.hop ≤ e.2.path.length && !e.2.path.isEmpty && !e.2.lost)) (fun e s =>
    let q := s.carry e.2 cyc (e.2.path.length + 1)
    let q := if q.hop = e.2.hop then { q with waited := q.waited + cyc } else q
    s.modChan e.1 fun x => { x with reqs := x.reqs.map fun y => if y.tag = q.tag then q else y }) s.spend

/-! ### The control mesh (R317, R318) -/

/-- The traffic of the control mesh, and nothing else (R317). -/
inductive CtlTraffic where
  | advance | waitRegistration | wake | tallyRead | tallyData
  | sig | interrupt | cueFire | positionFix
  | regRead | regWrite | regData
  | roomFault | halt
  deriving DecidableEq, Repr

/-- The classes of the control mesh (R318). -/
inductive CtlClass where
  | crsp | creq
  deriving DecidableEq, Repr

/-- The class of a control message: CRSP for register read data and tally read results (R318). -/
def ctlClassOf : CtlTraffic → CtlClass
  | .tallyData | .regData => .crsp
  | _ => .creq

/-- A CREQ that needs an answer is issued only after space for it is reserved (R318): reads and wait registrations. The unit that waits for the answer, or the hub for a host's read, is that space. -/
def ctlReserves : CtlTraffic → Bool
  | .tallyRead | .waitRegistration | .regRead => true
  | _ => false

/-- A message of the control mesh. Its links, buffers and credits are its own: none of the data mesh's (R318). -/
structure CtlMsg where
  kind : CtlTraffic
  src : MeshNode
  dst : MeshNode
  deriving DecidableEq, Repr

/-- The links that a control message crosses (R317). -/
def CtlMsg.links (m : CtlMsg) : List MeshLink := linksOf m.src (ctlWay m.src m.dst)

/-- The message that an output serves next: CRSP before CREQ, the oldest of the class (R318). -/
def ctlNext (l : List CtlMsg) : Option CtlMsg :=
  match l.find? fun m => ctlClassOf m.kind = .crsp with
  | some m => some m
  | none => l.head?

/-! ### Header errors (R364) -/

/-- A packet or message under way between two commands (R364). -/
inductive MeshItem where
  | advance (i : Nat)
  | request (c : ChanRef) (tag : BitVec 16)
  deriving DecidableEq, Repr

/-- What is under way on the two meshes between two commands: advances issued and not applied, on the control mesh, and DMA requests on the data mesh. -/
def State.meshItems (s : State) : List MeshItem :=
  (List.range s.tal.adv.length).map .advance ++
  (s.flights.filter fun e => !e.2.path.isEmpty && !e.2.lost).map fun e => .request e.1 e.2.tag

/-- A router drops a packet or message (R364). -/
def State.meshDrop (s : State) : MeshItem → State
  | .advance i => { s with tal := { s.tal with adv := s.tal.adv.eraseIdx i } }
  | .request c tag => s.modChan c fun x => { x with reqs := x.reqs.map fun q => if q.tag = tag then { q with lost := true } else q }

/-- An uncorrectable header error drops one packet or message. Which one is free: one under way, or none where what it dropped was sent and lost within another command's time (R364; log 131). -/
def State.meshDropFree (s : State) : State :=
  let l := s.meshItems
  match l[(s.freeVal 32).toNat % (l.length + 1)]? with
  | some m => s.spend.meshDrop m
  | none => s.spend

end Sys2Proof.Machine
end

