-- ==== Sys2Proof/Machine/Position.lean ====
section
/-! DEFINITION. The position: its fields, its circular order, and how it moves (R6, R29 to R31). -/

namespace Sys2Proof.Machine

/-- FRAME, bits 63:28 (R6). -/
def posFrame (p : Pos) : Nat := p.toNat / 2 ^ 28
/-- LINE, bits 27:14 (R6). -/
def posLine (p : Pos) : Nat := p.toNat / 2 ^ 14 % 2 ^ 14
/-- TICK, bits 13:0 (R6). -/
def posTick (p : Pos) : Nat := p.toNat % 2 ^ 14
/-- The position F:L:T. FRAME wraps modulo 2^36 (R29). -/
def mkPos (f l t : Nat) : Pos := BitVec.ofNat 64 (f % 2 ^ 36 * 2 ^ 28 + l % 2 ^ 14 * 2 ^ 14 + t % 2 ^ 14)

/-- `p` is ahead of `q` (R30). -/
def posAhead (p q : Pos) : Bool := 1 ≤ (p - q).toNat && (p - q).toNat < 2 ^ 63
/-- `p` is at or past `q` (R30). -/
def posReached (p q : Pos) : Bool := !posAhead q p

/-- The position one tick on, with `lpf` lines of `tpl` ticks (R29). -/
def nextTick (lpf tpl : Nat) (p : Pos) : Pos :=
  if posTick p + 1 < tpl then mkPos (posFrame p) (posLine p) (posTick p + 1)
  else if posLine p + 1 < lpf then mkPos (posFrame p) (posLine p + 1) 0
  else mkPos (posFrame p + 1) 0 0

/-- `p` moved on by `n` lines, carrying into FRAME through `lpf` (R81). -/
def addLines (lpf n : Nat) (p : Pos) : Pos := mkPos (posFrame p + (posLine p + n) / lpf) ((posLine p + n) % lpf) (posTick p)
/-- `p` moved on by `n` frames (R81). -/
def addFrames (n : Nat) (p : Pos) : Pos := mkPos (posFrame p + n) (posLine p) (posTick p)

/-- Whole frames from `p` forward to `q`, modulo 2^36. -/
def framesTo (p q : Pos) : Nat := (posFrame q + 2 ^ 36 - posFrame p) % 2 ^ 36

/-- The fewest frames by which `p` must move to be ahead of `q`, which is at or past it. -/
def framesPast (p q : Pos) : Nat := framesTo p q + (if (p.toNat % 2 ^ 28) ≤ (q.toNat % 2 ^ 28) then 1 else 0)
/-- The fewest lines by which `p` must move to be ahead of `q`, which is at or past it. -/
def linesPast (lpf : Nat) (p q : Pos) : Nat := framesTo p q * lpf + posLine q - posLine p + (if posTick p ≤ posTick q then 1 else 0)

/-- `p` moved on by `n` ticks, carrying into LINE and FRAME (R29). -/
def addTicks (lpf tpl n : Nat) (p : Pos) : Pos :=
  let m := posLine p * tpl + posTick p + n
  mkPos (posFrame p + m / (lpf * tpl)) (m / tpl % lpf) (m % tpl)

/-- The position can be held: LINE below `lpf` and TICK below `tpl` (R47). -/
def posHeld (lpf tpl : Nat) (p : Pos) : Bool := posLine p < lpf && posTick p < tpl

end Sys2Proof.Machine
end

