-- ==== Sys2Proof/Machine/QuireCache.lean ====
section
/-! DEFINITION. The quire cache, cache operations, quire scratch and HBM windows (R260 to R280). -/

namespace Sys2Proof.Machine

/-- Ways that serve as cache (R260). -/
def cacheWays (x : Quire) : Nat := 16 - 2 * x.groups.toNat

/-- The line, where the cache holds it. -/
def findLine (x : Quire) (line : BitVec 31) : Option CLine := x.lines.find? fun l => l.line = line

/-- The lines without `line`. -/
def dropLine (x : Quire) (line : BitVec 31) : Quire := { x with lines := x.lines.filter fun l => l.line ≠ line }

/-- Put a line back as most recently used. -/
def useLine (x : Quire) (l : CLine) : Quire := { x with lines := x.lines.filter (fun m => m.line ≠ l.line) ++ [l] }

/-- A line written back leaves every tile's write-back list (R262). -/
def State.wbForget (s : State) (q : Nat) (line : BitVec 31) : State :=
  forL (quireTiles q) (fun t s => if (s.tile t).wb.contains line then s.modTile t fun x => { x with wb := x.wb.filter (· ≠ line) } else s) s

/-- A dirty line goes to HBM with its check bits unchanged and becomes clean (R265, R360). -/
def State.writeBack (s : State) (q : Nat) (line : BitVec 31) : State :=
  match findLine (s.quire q) line with
  | none => s
  | some l =>
    if l.dirty then
      let s := forN 128 (fun i s => s.putByte (line.toNat * 128 + i) (Tbl.get 0 l.data i)) s
      let s := forN 16 (fun i s => s.setSynd (line.toNat * 16 + i) (Tbl.get 0 l.synd i)) s
      (s.modQuire q fun x => { x with lines := x.lines.map fun m => if m.line = line then { m with dirty := false } else m }).wbForget q line
    else s

/-- Write a line back where it is dirty, and remove it (R265 WB_INV). -/
def State.evict (s : State) (q : Nat) (line : BitVec 31) : State := (s.writeBack q line).modQuire q fun x => dropLine x line

/-- Room in the set of `line`: the way it takes, after the least recently used line has been replaced where no way is empty (R260). -/
def State.makeRoom (s : State) (q : Nat) (line : BitVec 31) : Nat × State :=
  let x := s.quire q
  let here := x.lines.filter fun l => l.line.toNat % 2048 = line.toNat % 2048
  match (List.range (cacheWays x)).find? fun w => here.all fun l => l.way ≠ w with
  | some w => (w, s)
  | none => match here with
    | l :: _ => (l.way, s.evict q l.line)
    | [] => (0, s)

/-- Put a line into the cache: most recently used, or least recently used for a prefetch (R260). -/
def State.installLine (s : State) (q : Nat) (line : BitVec 31) (data : Tbl Byte) (dirty prefetch : Bool) : State :=
  let (w, s) := s.makeRoom q line
  let l : CLine := { line := line, way := w, dirty := dirty, data := data, synd := [] }
  s.modQuire q fun x => { x with lines := if prefetch then l :: x.lines else x.lines ++ [l], prefetch := x.prefetch.filter (· ≠ line) }

/-- The bytes of a list as a table from 0. -/
def toTbl (bs : List Byte) : Tbl Byte := forN bs.length (fun i t => Tbl.put 0 t i (bs.getD i 0)) []

/-- Fetch a line from HBM. An uncorrectable error installs no line (R369). -/
def State.fillLine (s : State) (q : Nat) (line : BitVec 31) (prefetch : Bool) : Bool × State :=
  match s.readMem (line.toNat * 128) 128 with
  | (some bs, s) => (true, s.installLine q line (toTbl bs) false prefetch)
  | (none, s) => (false, s.modQuire q fun x => { x with prefetch := x.prefetch.filter (· ≠ line) })

/-- Record an error of a quire-cache line (R252, R253). `clean` uncorrectable errors count with the corrected ones. -/
def State.cacheError (s : State) (q : Nat) (l : CLine) (g : Nat) (y : Byte) (ue : Bool) : State :=
  let s := s.memLog q (memRecord (if ue then 2 else 1) 1 0 l.way (l.line.toNat % 2048) g y) (if ue then 2 else 1)
  if ue && l.dirty then { s with reb := { s.reb with qcUe := s.reb.qcUe + 1 } } else { s with reb := { s.reb with qcCe := s.reb.qcCe + 1 } }

/-- The outcome of an access to granule `g` of a line that may be in the cache. -/
inductive LineGran where
  | data (bs : List Byte)
  | absent
  | ue
  deriving DecidableEq, Repr

/-- Put a line back in its place, so that the replacement order does not change (R161). -/
def holdLine (x : Quire) (l : CLine) : Quire := { x with lines := x.lines.map fun m => if m.line = l.line then l else m }

/-- Read granule `g` of a line, which `upd` puts back. A corrected error is corrected in the line; an uncorrectable one in a clean line invalidates it (R253). -/
def State.lineGranBy (upd : Quire → CLine → Quire) (s : State) (q : Nat) (line : BitVec 31) (g : Nat) : LineGran × State :=
  match findLine (s.quire q) line with
  | none => (.absent, s)
  | some l =>
    let bs := (List.range 8).map fun i => Tbl.get 0 l.data (8 * g + i)
    let y := Tbl.get 0 l.synd g
    let put : List Byte → State := fun d => s.modQuire q fun x =>
      upd x { l with data := forN 8 (fun i t => Tbl.put 0 t (8 * g + i) (d.getD i 0)) l.data, synd := Tbl.put 0 l.synd g 0 }
    match readSynd y with
    | .good => (.data bs, s.modQuire q fun x => upd x l)
    | .checkBit => (.data bs, (put bs).cacheError q l g y false)
    | .dataBit i => (.data (flipBit bs i), (put (flipBit bs i)).cacheError q l g y false)
    | .bad =>
      let s := s.cacheError q l g y true
      if l.dirty then (.ue, s) else (.absent, s.modQuire q fun x => dropLine x line)

/-- Read granule `g` of a line, which becomes the most recently used (R260). -/
def State.lineGran (s : State) (q : Nat) (line : BitVec 31) (g : Nat) : LineGran × State := s.lineGranBy useLine q line g

/-- The next line is fetched too when absent, within the same window, and owned by the room (R264). `lo` and `hi` bound the window in lines. -/
def State.prefetchNext (s : State) (q r : Nat) (line : BitVec 31) (lo hi : Nat) : State :=
  let n := line.toNat + 1
  if lo ≤ n && n < hi && (findLine (s.quire q) (line + 1)).isNone && (s.room r).hbm.contains (n * 128 / 0x200000)
      && !(s.quire q).prefetch.contains (line + 1) then
    s.modQuire q fun x => { x with prefetch := x.prefetch ++ [line + 1] }
  else s

/-- Read granule `g` of a line through the cache for a load, filling the line on a miss (R260, R264). None is an uncorrectable error. -/
def State.cacheGran (s : State) (q r : Nat) (line : BitVec 31) (g lo hi : Nat) : Option (List Byte) × State :=
  match s.lineGran q line g with
  | (.data bs, s) => (some bs, s)
  | (.ue, s) => (none, s)
  | (.absent, s) =>
    match s.fillLine q line false with
    | (false, s) => (none, s)
    | (true, s) =>
      match (s.prefetchNext q r line lo hi).lineGran q line g with
      | (.data bs, s) => (some bs, s)
      | (_, s) => (none, s)

/-- The tile has made a line dirty: it joins the tile's write-back list; beyond 32 lines the oldest is written back (R262). -/
def State.noteDirty (s : State) (q t : Nat) (line : BitVec 31) : State :=
  if (s.tile t).wb.contains line then s
  else
    let s := s.modTile t fun x => { x with wb := x.wb ++ [line] }
    match (s.tile t).wb with
    | old :: _ => if 32 < (s.tile t).wb.length then s.writeBack q old else s
    | [] => s

/-- Store bytes at offset `o` of granule `g` of a line through the cache (R260). False when the line or the granule could not be read. -/
def State.cacheStore (s : State) (q t : Nat) (line : BitVec 31) (g o : Nat) (bs : List Byte) : Bool × State :=
  let (ok, s) := if (findLine (s.quire q) line).isSome then (true, s) else s.fillLine q line false
  if !ok then (false, s)
  else
    let (old, s) := if bs.length = 8 then (LineGran.data bs, s) else s.lineGran q line g
    let (old, s) := match old with
      | .absent => match s.fillLine q line false with
        | (true, s) => s.lineGran q line g
        | (false, s) => (LineGran.ue, s)
      | x => (x, s)
    match old, findLine (s.quire q) line with
    | .data _, some l =>
      let l' := { l with dirty := true, data := forN bs.length (fun i d => Tbl.put 0 d (8 * g + o + i) (bs.getD i 0)) l.data, synd := Tbl.put 0 l.synd g 0 }
      (true, (s.modQuire q fun x => useLine x l').noteDirty q t line)
    | _, _ => (false, s)

/-- All lines of a tile's write-back list go to HBM (R262). -/
def State.drainWb (s : State) (t : Nat) : State := forL (s.tile t).wb (fun l s => s.writeBack (tileQuire t) l) s

/-! ### Cache operations (R265, R266) -/

/-- One operation on one line: 1 ZERO, 2 WRITEBACK, 3 INVALIDATE, 4 WB_INV (R265). -/
def State.lineOp (s : State) (q op : Nat) (line : BitVec 31) : State :=
  match op with
  | 1 => match findLine (s.quire q) line with
    | some l => s.modQuire q fun x => useLine x { l with dirty := true, data := [], synd := [] }
    | none => s.installLine q line [] true false
  | 2 => s.writeBack q line
  | 3 => (s.modQuire q fun x => dropLine x line).wbForget q line
  | _ => s.evict q line

/-- Insert into a list kept in rising order. -/
def insertLine (a : BitVec 31) : List (BitVec 31) → List (BitVec 31)
  | [] => [a]
  | b :: t => if a.toNat ≤ b.toNat then a :: b :: t else b :: insertLine a t

/-- The lines a cache operation visits, in ascending address order (R266). Only ZERO touches a line that is absent. -/
def opLines (x : Quire) (op : Nat) (all : Bool) (first n : Nat) : List (BitVec 31) :=
  if op = 1 && !all then (List.range n).map fun i => BitVec.ofNat 31 (first + i)
  else ((x.lines.map fun l => l.line).filter fun l => all || (first ≤ l.toNat && l.toNat < first + n)).foldr insertLine []

/-- A cache operation over its lines (R265). -/
def State.cacheOp (s : State) (q op : Nat) (all : Bool) (first n : Nat) : State :=
  forL (opLines (s.quire q) op all first n) (fun l s => s.lineOp q op l) s

/-- The range of a cache operation is allowed for room `r` (R266): ALL with zero LINES and LINE, or wholly in HBM the room owns. -/
def State.opRangeOk (s : State) (r : Nat) (all : Bool) (lines line : Nat) : Bool :=
  if all then lines = 0 && line = 0 else s.ownsHbm r (line * 128) ((lines + 1) * 128)

/-- A write of QC_CMD by room `r` (R266, R280). While BUSY it is ignored. The lines are visited at once; CMD_DONE ends the operation (log 23). -/
def State.qcCmdWrite (s : State) (r q : Nat) (op : BitVec 3) (all : Bool) (lines : BitVec 16) (line : BitVec 31) : State :=
  if (s.quire q).cmd.busy then s
  else if op = 0 then s.modQuire q fun x => { x with cmd := { x.cmd with all := all, lines := lines, line := line } }
  else if op.toNat ≤ 4 && s.opRangeOk r all lines.toNat line.toNat then
    (s.modQuire q fun x => { x with cmd := { busy := true, refused := false, op := op, all := all, lines := lines, line := line } }).cacheOp
      q op.toNat all line.toNat (lines.toNat + 1)
  else (s.modQuire q fun x => { x with cmd := { busy := false, refused := true, op := 0, all := all, lines := lines, line := line } }).raiseMem q 8

/-- CMD_DONE (R266): HBM has accepted the writes of the last line. -/
def execCmdDone (q : QuireId) (s : State) : Host.Outcome State Fault Refusal :=
  .next (if (s.quire q).cmd.busy then
    (s.modQuire q fun x => { x with cmd := { x.cmd with busy := false, op := 0 } }).raiseMem q 16 else s)

/-! ### Quire scratch (R267) -/

/-- A write of QC_WAYMAP.GROUPS (R267): 7 is refused; while BUSY it is ignored. -/
def State.waymapWrite (s : State) (q : Nat) (g : BitVec 3) : State :=
  if (s.quire q).wayBusy then s
  else if g = 7 then s.raiseMem q 8
  else s.modQuire q fun x => { x with wayBusy := true, wayTo := g }

/-- Set GROUPS of a quire: lines in ways that become quire scratch are written back and removed; new groups read 0; the contents of removed groups are discarded (R267). -/
def State.setGroups (s : State) (q : Nat) (g : BitVec 3) : State :=
  let old := (s.quire q).groups.toNat
  let s := forL (((s.quire q).lines.filter fun l => 16 - 2 * g.toNat ≤ l.way).map fun l => l.line) (fun l s => s.evict q l) s
  let s := s.clearMem (qscratchBase q + Nat.min old g.toNat * 524288) (qscratchBase q + 6 * 524288)
  s.modQuire q fun x => { x with groups := g }

/-- WAYMAP_DONE (R267): the change completes. -/
def execWaymapDone (q : QuireId) (s : State) : Host.Outcome State Fault Refusal :=
  .next (if (s.quire q).wayBusy then
    ((s.setGroups q (s.quire q).wayTo).modQuire q fun x => { x with wayBusy := false }).raiseMem q 32 else s)

/-! ### HBM windows (R276, R277) -/

/-- The window of tile index `k` of a quire. -/
def hbmWin (x : Quire) (k : Nat) : HbmWin := Tbl.get {} x.win k

/-- An accepted window waits for its tile to be stopped, halted, or in WAITS with empty buffers (R277). -/
def State.winReady (s : State) (t : Nat) : Bool :=
  let x := s.tile t
  match x.run with
  | .stopped | .halted => true
  | .waitS _ => x.sb.isEmpty && x.wb.isEmpty
  | _ => false

/-- A write of QC_HBMWIN[k] by room `r` (R276, R277). -/
def State.hbmwinWrite (s : State) (r q k : Nat) (v : W64) : State :=
  let base := bitsOf v.toNat 0 17
  let size := bitsOf v.toNat 32 16
  let mode := bitsOf v.toNat 56 2
  if mode < 2 && size ≤ 512 && (List.range size).all fun i => (s.room r).hbm.contains (base + i) then
    s.modQuire q fun x => { x with winPend := Tbl.put none x.winPend k (some { base := BitVec.ofNat 17 base, size := BitVec.ofNat 16 size, mode := BitVec.ofNat 2 mode }) }
  else s.raiseMem q 8

/-- HBMWIN_APPLY (R277): a waiting window takes effect once its tile is ready. -/
def execHbmwinApply (q : QuireId) (k : Fin 16) (s : State) : Host.Outcome State Fault Refusal :=
  .next (match Tbl.get none (s.quire q).winPend k with
    | some w => if s.winReady (quireTile q k) then
        s.modQuire q fun x => { x with win := Tbl.put {} x.win k w, winPend := Tbl.put none x.winPend k none } else s
    | none => s)

/-! ### Fills and write-backs -/

/-- The cached window of tile index `k` of a quire holds the line, which the room owns (R245, R274, R276). -/
def State.lineInWindow (s : State) (q k : Nat) (line : BitVec 31) : Bool :=
  let w := hbmWin (s.quire q) k
  let u := line.toNat * 128 / 0x200000
  w.mode = 0 && inRange u w.base.toNat w.size.toNat && match s.quireRoom q with
    | some r => (s.room r).hbm.contains u
    | none => false

/-- CACHE_FILL (R260, R264): the data of a line returns from HBM. A line that a prefetch asked for enters as least recently used. -/
def execCacheFill (q : QuireId) (k : Fin 16) (line : BitVec 31) (s : State) : Host.Outcome State Fault Refusal :=
  .next (if (findLine (s.quire q) line).isSome || (s.quire q).power ≠ .on || (s.quire q).wayBusy then s
    else if (s.quire q).prefetch.contains line then (s.fillLine q line true).2
    else if s.lineInWindow q k line then (s.fillLine q line false).2
    else s)

/-- HBM_WRITE_ACCEPTED (R262): HBM accepts the line, and it leaves the tile's write-back list. -/
def execHbmWriteAccepted (t : TileId) (line : BitVec 31) (s : State) : Host.Outcome State Fault Refusal :=
  .next (if (s.tile t).wb.contains line then s.writeBack (tileQuire t) line else s)

/-- A quire's cache is emptied, after a write-back of every dirty line where `wb` (R268). -/
def State.flushCache (s : State) (q : Nat) (wb : Bool) : State :=
  let ls := (s.quire q).lines.map fun l => l.line
  let s := if wb then forL ls (fun l s => s.writeBack q l) s else s
  (forL ls (fun l s => s.wbForget q l) s).modQuire q fun x => { x with lines := [], prefetch := [] }

/-- Quire scratch of a quire reads 0 with valid check bits. -/
def State.clearQscratch (s : State) (q : Nat) : State := s.clearMem (qscratchBase q) (qscratchBase q + 0x400000)

/-- The scratchpad of a tile reads 0 with valid check bits. -/
def State.clearScratch (s : State) (t : Nat) : State := s.clearMem (scratchBase t) (scratchBase t + 0x200000)

/-- SCRUB (R370, R606): the HBM controllers scrub one granule. A period of 0 turns scrubbing off. -/
def execScrub (granule : Fin 25769803776) (s : State) : Host.Outcome State Fault Refusal :=
  .next (let y := s.syndAt granule
    if s.cfgN 0xA003 1 = 0 then s
    else match readSynd y with
    | .bad =>
      if y = 0xFF then s
      else
        let s := s.setSynd granule 0xFF
        let s := { s with reb := { s.reb with hbmUe := s.reb.hbmUe + 1 }, integ := { s.integ with poisoned := s.integ.poisoned + 1 } }
        s.errLogAdd 0xFF (BitVec.ofNat 64 (2 * 2 ^ 62 + y.toNat * 2 ^ 54 + 8 * granule.val))
    | _ => (s.readGran granule).2)

end Sys2Proof.Machine
end

