-- ==== Sys2Proof/Machine/Handover.lean ====
section
/-! DEFINITION. Handover points of Palimpsest: counts, failure records and injection (R353 to R372). -/

namespace Sys2Proof.Machine

/-- How a handover of one unit of data ends (R353, R372). -/
inductive Hand where
  | ok
  /-- One data bit of the new form is flipped after the handover. -/
  | storeCe
  /-- Two data bits of the new form are flipped after the handover. -/
  | storeUe
  | fail
  deriving DecidableEq, Repr

/-- Count a handover of point `pt` (R371). -/
def countHand (g : Integ) (pt : Nat) (failed : Bool) : Integ :=
  let c := Tbl.get {} g.counts pt
  { g with counts := Tbl.put {} g.counts pt (if failed then { c with failed := c.failed + 1 } else { c with completed := c.completed + 1 }) }

/-- The record of an integrity event in its encoding (R367, R436). -/
def integBytes (r : IntegRec) : List Byte :=
  [r.point, r.room, r.code, BitVec.ofNat 8 (bit r.injected)] ++ leBytes 8 r.addr.toNat ++ posBytes r.pos

/-- Append a record to #A002.01, which keeps the last 256, and to the Ledger (R367, R469). -/
def State.integRecord (s : State) (pt room code : Nat) (injected : Bool) (addr : Nat) : State :=
  let r : IntegRec := { point := BitVec.ofNat 8 pt, room := BitVec.ofNat 8 room, code := BitVec.ofNat 8 code, injected := injected,
                        addr := BitVec.ofNat 64 addr, pos := s.posOrZero }
  { s with integ := { s.integ with log := lastN 256 (s.integ.log ++ [r]),
                                   lost := if 256 ≤ s.integ.log.length then s.integ.lost + 1 else s.integ.lost } }.event 4 (integBytes r)

/-- The first armed injection of one of `kinds` that acts on a unit of `room` at point `pt`. At points 8 and 9 the room does not matter, and at point 6 it acts on each DATA flit sent (R372; log 30). -/
def armedAt (g : Integ) (pt room : Nat) (kinds : List Nat) : Option Injection :=
  g.inject.find? fun i => i.point.toNat = pt && kinds.contains i.kind.toNat && (pt = 6 || pt = 8 || pt = 9 || i.room.toNat = room)

/-- The armed injections after the first that equals `i` has used up one of its units (R372). -/
def spendFirst (i : Injection) : List Injection → List Injection
  | [] => []
  | j :: l => if j = i then (if j.left ≤ 1 then l else { j with left := j.left - 1 } :: l) else j :: spendFirst i l

/-- Use up one of the units of an armed injection (R372). -/
def spendInjection (g : Integ) (i : Injection) : Integ := { g with inject := spendFirst i g.inject }

/-- One unit of data of `room` (255 for none) passes handover point `pt`. A failure is counted and recorded with the DMA code and address (R353, R367, R371). -/
def State.handover (s : State) (pt room code addr : Nat) : Hand × State :=
  match armedAt s.integ pt room [1, 2, 3] with
  | none => (.ok, { s with integ := countHand s.integ pt false })
  | some i =>
    let g := spendInjection s.integ i
    if i.kind = 3 then
      (.fail, { s with integ := countHand g pt true }.integRecord pt (if pt = 8 || pt = 9 then 255 else room) code true (if pt = 8 || pt = 9 then 0 else addr))
    else (if i.kind = 1 then .storeCe else .storeUe, { s with integ := countHand g pt false })

/-- Units of data pass point `pt`, one after the other, each at its address of the list: how each ended, or none at the first failure, which is recorded with its address (R353, R367). -/
def State.handList (s : State) (pt room code : Nat) : List Nat → Option (List Hand) × State
  | [] => (some [], s)
  | a :: as =>
    match s.handover pt room code a with
    | (.fail, s) => (none, s)
    | (h, s) => match s.handList pt room code as with
      | (some l, s) => (some (h :: l), s)
      | (none, s) => (none, s)

/-- A handover fails on its own: the old form did not decode, so no injection acts on it (R353, R372). `injected`: it did not because an earlier injection had flipped two bits of it, which the record says (R372). -/
def State.handBad (s : State) (pt room code addr : Nat) (injected : Bool) : State :=
  { s with integ := countHand s.integ pt true }.integRecord pt room code injected addr

/-- A handover fails on its own, no injection having touched the data (R353). -/
def State.handFail (s : State) (pt room code addr : Nat) : State := s.handBad pt room code addr false

/-- `k` corrected errors found at a handover are counted (R354, R371). -/
def State.addCorrected (s : State) (pt k : Nat) : State :=
  if k = 0 then s
  else
    let h := Tbl.get {} s.integ.counts pt
    { s with integ := { s.integ with counts := Tbl.put {} s.integ.counts pt { h with corrected := h.corrected + BitVec.ofNat 64 k } } }

/-- Which data bit of a granule an injection flips: a free value, since the manual names none (R372, log 3). -/
def State.freeBit (s : State) : Nat := (s.freeVal 6).toNat

/-- Flip data bit `i` of granule `g` as stored; its syndrome changes by the bit's column (R357). -/
def State.flipStored (s : State) (g i : Nat) : State :=
  (s.putBytes (8 * g) (flipBit (s.bytesAt (8 * g) 8) i)).setSynd g (s.syndAt g ^^^ BitVec.ofNat 8 (granCols.getD i 0))

/-- The effect of an injection on a unit stored in granules `gs`: none, one bit, or two different bits of one granule. Which granule and bits is free (R372). -/
def State.injectStored (s : State) (h : Hand) (gs : List Nat) : State :=
  match h, gs with
  | .storeCe, g :: _ => (s.flipStored (gs.getD (s.freeBit % gs.length) g) s.spend.freeBit).spend.spend
  | .storeUe, g :: _ =>
    let k := gs.getD (s.freeBit % gs.length) g
    let i := s.spend.freeBit
    let j := (i + 1 + s.spend.spend.freeBit % 63) % 64
    (((s.flipStored k i).flipStored k j).spend).spend.spend
  | _, _ => s

/-- The granules that `n` bytes from `a` fall in. -/
def granules (a n : Nat) : List Nat := if n = 0 then [] else (List.range ((a + n - 1) / 8 + 1 - a / 8)).map (a / 8 + ·)

/-- The corrected errors of the granules that `n` bytes from `a` fall in are counted at point `pt` (R354, R371). -/
def State.countCorrected (s : State) (pt a n : Nat) : State :=
  s.addCorrected pt ((granules a n).filter fun g => match readSynd (s.syndAt g) with | .checkBit => true | .dataBit _ => true | _ => false).length

/-- Store one unit of data that has passed its handover as `h`: false when a granule could not be merged. -/
def State.writeUnit (s : State) (h : Hand) (a : Nat) (bs : List Byte) : Bool × State :=
  let (ok, s) := s.writeMem a bs
  (ok, if ok then s.injectStored h (granules a bs.length) else s)

end Sys2Proof.Machine
end

