-- ==== Sys2Proof/Machine/FabCore.lean ====
section
/-! DEFINITION. Fabric packets, routes and the sending side of a port (R327 to R334, R342 to R346, R359). -/

namespace Sys2Proof.Machine

/-! ### Packets (R332, R334) -/

/-- Header bytes 0 to 19 of a packet, with dateline bit `v` (R332). -/
def packetHead (k : Packet) (v : Bool) : List Byte :=
  [BitVec.ofNat 8 (k.op.toNat + 16 * k.cls.toNat + 64 * bit v), k.len] ++ leBytes 2 k.dst.toNat ++
  leBytes 2 k.src.toNat ++ leBytes 2 k.tag.toNat ++ leBytes 4 k.jobId.toNat ++ leBytes 7 k.addr.toNat ++ [k.err]

/-- PCHK: over header bytes 0 to 19 with the dateline bit taken as 0, and the payload (R359). -/
def packetCheck (k : Packet) : W32 := crc32c (packetHead k false ++ k.payload)

/-- The virtual channel of a packet (R327). -/
def packetVc (k : Packet) : Nat := k.cls.toNat * 2 + bit k.v

/-- Credits a packet takes, in 16-byte units (R325, R327). -/
def packetUnits (k : Packet) : Nat := (24 + k.payload.length + 15) / 16

/-- Credits of a virtual channel at the start of a session (R327). -/
def vcCredits (vc : Nat) : Nat := if vc < 4 then 64 else 2048

/-- The class of a control message by its type (R334). -/
def ctrlClass (ty : Nat) : BitVec 2 := if ty = 1 || ty = 2 || ty = 3 then 1 else 0

/-- A control message of type `ty` with fields `body` (R334). -/
def ctrlPacket (src dst : BitVec 16) (ty : Nat) (body : List Byte) : Packet :=
  { op := 6, cls := ctrlClass ty, v := false, dst := dst, src := src, tag := 0, jobId := 0, addr := 0, err := 0,
    len := BitVec.ofNat 8 (body.length + 1), payload := BitVec.ofNat 8 ty :: body, pchk := 0 }

/-! ### The domain (R342, R343) -/

/-- Dimension `d` of the torus, 0 to 2 (#6000.02). -/
def State.dim (s : State) (d : Nat) : Nat := s.cfgAt 0x6000 2 d 1
/-- Coordinate `d` of this device (#6000.03). -/
def State.coord (s : State) (d : Nat) : Nat := s.cfgAt 0x6000 3 d 1
/-- The number of the device at coordinates (R342). -/
def State.numberAt (s : State) (x y z : Nat) : Nat := x + s.dim 0 * (y + s.dim 1 * z)
/-- This device's number (R342). -/
def State.devNo (s : State) : Nat := s.numberAt (s.coord 0) (s.coord 1) (s.coord 2)
/-- Coordinate `d` of device `n` (R342). -/
def State.coordOf (s : State) (n d : Nat) : Nat :=
  match d with
  | 0 => n % s.dim 0
  | 1 => n / s.dim 0 % s.dim 1
  | _ => n / s.dim 0 / s.dim 1
/-- The port is turned on (#6001). -/
def State.portEnabled (s : State) (p : Nat) : Bool := s.cfgAt 0x6001 (p + 1) 0 1 = 1
/-- The express peer of a port (#6001). -/
def State.expressPeer (s : State) (p : Nat) : Nat := s.cfgAt 0x6001 (p + 1) 2 2
/-- No port is enabled: the device is a domain of one (R342). -/
def State.alone (s : State) : Bool := (List.range 16).all fun p => !s.portEnabled p
/-- The device's coordinates lie in the torus (R342). -/
def State.inTorus (s : State) : Bool := (List.range 3).all fun d => s.coord d < s.dim d

/-- The number of the device that torus port `p` of device `n` leads to (R343). -/
def State.torusNeighbour (s : State) (n p : Nat) : Nat :=
  let c := fun d => if d = p / 2 then (if p % 2 = 0 then (s.coordOf n d + 1) % s.dim d else (s.coordOf n d + s.dim d - 1) % s.dim d) else s.coordOf n d
  s.numberAt (c 0) (c 1) (c 2)

/-- The device that a port of this device leads to. -/
def State.neighbour (s : State) (p : Nat) : Nat := if p < 6 then s.torusNeighbour s.devNo p else s.expressPeer p

/-- A port of this device counts as UP or HOLD in the link map: it is UP, or it has lost its link and its replay timer has not run out (R330, R345). -/
def State.portLinked (s : State) (p : Nat) : Bool := (s.port p).state = .up || (s.port p).fromHold

/-- Port `p` of device `n` is UP or HOLD: this device knows its own ports, and others by their latest ROUTE_UPDATE (R334, R344). -/
def State.linkOf (s : State) (n p : Nat) : Bool :=
  if n = s.devNo then s.portLinked p
  else match s.fab.map.find? fun u => u.device.toNat = n with
    | some u => u.portsUp.getLsbD p
    | none => false

/-- Every link of the arc of `k` hops from device `n` through torus port `p` is UP or HOLD (R344). -/
def State.arcUp (s : State) (p : Nat) : Nat → Nat → Bool
  | 0, _ => true
  | k + 1, n => s.linkOf n p && s.arcUp p k (s.torusNeighbour n p)

/-- Hops from coordinate `a` to `b` in a ring of `n`, rising. -/
def ringUp (n a b : Nat) : Nat := (b + n - a) % n

/-- The torus port by dimension order for a packet at this device (R344): fewer hops, ties towards increasing coordinate, the other arc where a link is down; none when unreachable or arrived. -/
def State.torusPort (s : State) (dst : Nat) : Option Nat :=
  match (List.range 3).find? fun d => s.coord d ≠ s.coordOf dst d with
  | none => none
  | some d =>
    let n := s.dim d
    let up := ringUp n (s.coord d) (s.coordOf dst d)
    let first := if up ≤ n - up then (2 * d, up) else (2 * d + 1, n - up)
    let second := if up ≤ n - up then (2 * d + 1, n - up) else (2 * d, up)
    if s.arcUp first.1 first.2 s.devNo then some first.1
    else if s.arcUp second.1 second.2 s.devNo then some second.1
    else none

/-- The node after dimension `d` of the way to `dst`; none where both arcs are broken (R344). -/
def State.reachDim (s : State) (dst d : Nat) (n : Nat) : Option Nat :=
  if s.coordOf n d = s.coordOf dst d then some n
  else
    let m := s.dim d
    let up := ringUp m (s.coordOf n d) (s.coordOf dst d)
    let c := fun i => if i = d then s.coordOf dst d else s.coordOf n i
    if s.arcUp (2 * d) up n || s.arcUp (2 * d + 1) (m - up) n then some (s.numberAt (c 0) (c 1) (c 2)) else none

/-- Every dimension of the way to `dst` has an arc (R344). -/
def State.torusReaches (s : State) (dst : Nat) : Bool := (((s.reachDim dst 0 s.devNo).bind (s.reachDim dst 1)).bind (s.reachDim dst 2)).isSome

/-- The express port to `dst`, where one is UP or HOLD (R344). -/
def State.expressPort (s : State) (dst : Nat) : Option Nat :=
  (List.range 16).find? fun p => 6 ≤ p && s.portEnabled p && s.portLinked p && s.expressPeer p = dst

/-- The crossing of a ring's dateline by a hop through torus port `p` (R344). -/
def State.crossesDateline (s : State) (p : Nat) : Bool :=
  p < 6 && (if p % 2 = 0 then s.coord (p / 2) + 1 = s.dim (p / 2) else s.coord (p / 2) = 0)

/-- The dateline bit of a packet that goes on through port `p` (R344): kept within a dimension, set by the crossing. -/
def State.dateline (s : State) (inPort p : Nat) (v : Bool) : Bool := (inPort < 6 && inPort / 2 = p / 2 && v) || s.crossesDateline p

/-- The output port and dateline bit of a packet to `dst` that came in through `inPort` with bit `v` (R344): none where some dimension has no arc left. A packet starts each dimension with the bit 0. -/
def State.route (s : State) (dst inPort : Nat) (v : Bool) : Option (Nat × Bool) :=
  match s.expressPort dst with
  | some p => some (p, false)
  | none => match (if s.torusReaches dst then s.torusPort dst else none) with
    | none => none
    | some p => some (p, s.dateline inPort p v)

/-- Device `dst` can be reached (R344). -/
def State.reaches (s : State) (dst : Nat) : Bool := (s.expressPort dst).isSome || s.torusReaches dst

/-! ### Trees (R114, R346) -/

/-- The device that port `p` of device `n` leads to. Where the express ports of another device lead is its own setting, which no message tells: a free value (log 24). -/
def State.farEnd (s : State) (n p : Nat) : Nat :=
  if p < 6 then s.torusNeighbour n p else if n = s.devNo then s.expressPeer p else (Config.expressPeer n p).toNat

/-- The ports of device `n` that the link map shows up, express ports included, and where they lead (R346). -/
def State.linksFrom (s : State) (n : Nat) : List (Nat × Nat) :=
  ((List.range 16).filter fun p => s.linkOf n p).map fun p => (p, s.farEnd n p)

/-- The devices first reached after each number of hops: `front` lies on the last level, `seen` on the levels up to it. -/
def State.spread (s : State) : Nat → List Nat → List Nat → List (List Nat)
  | 0, _, _ => []
  | k + 1, seen, front =>
    if front.isEmpty then []
    else
      let next := ((front.flatMap fun n => (s.linksFrom n).map fun e => e.2).filter fun n => !seen.contains n).eraseDups
      front :: s.spread k (seen ++ next) next

/-- The parent of device `n` in the tree of `levels`: the port that gives the fewest hops to the root, the lowest of them, and where it leads (R114). -/
def State.treeParent (s : State) (levels : List (List Nat)) (n : Nat) : Option (Nat × Nat) :=
  match levels.findIdx? fun l => l.contains n with
  | some (k + 1) => (s.linksFrom n).find? fun e => (levels.getD k []).contains e.2
  | _ => none

/-- The child of device `me` on the way from the root to `n`, and the child's port to `me`. -/
def State.treeChild (s : State) (levels : List (List Nat)) (me : Nat) : Nat → Nat → Option (Nat × Nat)
  | 0, _ => none
  | k + 1, n => match s.treeParent levels n with
    | none => none
    | some (p, up) => if up = me then some (n, p) else s.treeChild levels me k up

/-- This device's port to its neighbour `n`, whose port `p` leads here (R343). -/
def State.portTo (s : State) (n p : Nat) : Option Nat :=
  if p < 6 then some (p ^^^ 1) else (List.range 16).find? fun q => 6 ≤ q && s.portLinked q && s.expressPeer q = n

/-- The port towards `dst` of the tree rooted at `root` (R114, R346): each device uses its port with the fewest hops towards the root, over every link of the link map, and a message goes down that tree. -/
def State.treePort (s : State) (root dst : Nat) : Option Nat :=
  let n := s.dim 0 * s.dim 1 * s.dim 2
  let levels := s.spread n [root] [root]
  match s.treeChild levels s.devNo levels.length dst with
  | some (c, p) => s.portTo c p
  | none => none

/-! ### Sending (R327, R329, R330) -/

/-- The packet's whole length is covered by credits of its virtual channel, and the replay buffer has room (R327, R329). -/
def canSend (x : Port) (k : Packet) : Bool :=
  x.state = .up && x.replayBuf.length < 512 && Tbl.get 0 x.credits (packetVc k) + packetUnits k ≤ vcCredits (packetVc k)

/-- Put a DATA flit on the wire, which is its handover at point 6. An injection of kind LINK inverts its LCRC, which the receiver finds (R329, R371, R372). -/
def State.wireFlit (s : State) (p : Nat) (f : ReplayFlit) : State :=
  let s : State := { s with integ := countHand s.integ 6 false }
  match armedAt s.integ 6 255 [4] with
  | none => s.emit (.flit (Fin.ofNat 16 p) f true)
  | some i => { s with integ := spendInjection s.integ i }.emit (.flit (Fin.ofNat 16 p) f false)

/-- A packet as its bytes (R332). -/
def packetBytes (k : Packet) : List Byte := packetHead k k.v ++ leBytes 4 k.pchk.toNat ++ k.payload

/-- Packets placed back to back from byte `n` of the stream, each with the byte it starts at (R326). -/
def packFrom : Nat → List Packet → List (Nat × Packet)
  | _, [] => []
  | n, k :: l => (n, k) :: packFrom (n + (packetBytes k).length) l

/-- Flit `i` of the stream of packets `l`: its 242 payload bytes, padded with 0, FIRST, and the packets that end in it (R325, R326). -/
def flitOf (seq : BitVec 12) (l : List (Nat × Packet)) (i : Nat) : ReplayFlit :=
  let lo := 242 * i
  { seq := seq + BitVec.ofNat 12 i,
    first := match l.find? fun e => lo ≤ e.1 && e.1 < lo + 242 with | some e => BitVec.ofNat 8 (e.1 - lo) | none => 255,
    bytes := padTo 242 (slice (l.flatMap fun e => packetBytes e.2) lo 242),
    pkts := (l.filter fun e => let z := e.1 + (packetBytes e.2).length; lo < z && z ≤ lo + 242).map fun e => e.2 }

/-- The DATA flits that carry packets `ks`, from SEQ `seq`: a packet may continue into the next flit (R326). -/
def flitsOf (seq : BitVec 12) (ks : List Packet) : List ReplayFlit :=
  let n := (ks.map fun k => (packetBytes k).length).sum
  (List.range ((n + 241) / 242)).map (flitOf seq (packFrom 0 ks))

/-- Send packets as new DATA flits, which take the next SEQs and places in the replay buffer (R329). -/
def State.sendFlits (s : State) (p : Nat) (ks : List Packet) : State :=
  let x := s.port p
  let fs := flitsOf x.txSeq ks
  forL fs (fun f s => s.wireFlit p f) (s.setPort p { x with txSeq := x.txSeq + BitVec.ofNat 12 fs.length, replayBuf := x.replayBuf ++ fs })

/-- The classes in the order in which the output serves them (R320, R328): one whose oldest packet has waited 256 flits is next, then CTRL_DN, CTRL_UP, CPL, REQ. -/
def classOrder (x : Port) : List Nat :=
  let aged : Nat → Bool := fun c => 256 * 242 ≤ Tbl.get 0 x.waited c
  (List.range 4).filter aged ++ (List.range 4).filter fun c => !aged c

/-- The virtual channels of a class in the order of their turns: they alternate (R328). -/
def vcOrder (x : Port) (c : Nat) : List Nat := if Tbl.get true x.lastV c then [2 * c, 2 * c + 1] else [2 * c + 1, 2 * c]

/-- The packet that the output serves next: by class, then by turn, one that its virtual channel lets go (R328). -/
def nextPacket (x : Port) : Option Packet :=
  ((classOrder x).flatMap (vcOrder x)).findSome? fun vc =>
    match x.txq.find? fun k => packetVc k = vc with
    | some k => if canSend x k then some k else none
    | none => none

/-- Remove the first packet equal to `k`. -/
def dropFirst (k : Packet) : List Packet → List Packet
  | [] => []
  | a :: t => if a = k then t else a :: dropFirst k t

/-- The output serves packet `k`: it leaves the queue, takes its credits, and is its class's turn (R327, R328). -/
def servePacket (x : Port) (k : Packet) : Port :=
  let q := dropFirst k x.txq
  let n := (packetBytes k).length
  { x with
    txq := q,
    credits := Tbl.put 0 x.credits (packetVc k) (Tbl.get 0 x.credits (packetVc k) + packetUnits k),
    lastV := Tbl.put true x.lastV k.cls.toNat k.v,
    waited := forN 4 (fun c t => Tbl.put 0 t c (if c = k.cls.toNat || !q.any (fun a => a.cls.toNat = c) then 0 else Tbl.get 0 x.waited c + n)) x.waited }

/-- The packets that the output can send now, at most `n`, in the order served; `sent` bytes go before them. They fit the replay buffer (R327 to R329). -/
def takeReady (x : Port) (sent : Nat) : Nat → List Packet × Port
  | 0 => ([], x)
  | n + 1 =>
    match nextPacket x with
    | none => ([], x)
    | some k =>
      let m := sent + (packetBytes k).length
      if x.replayBuf.length + (m + 241) / 242 ≤ 512 then
        let (l, y) := takeReady (servePacket x k) m n
        (k :: l, y)
      else ([], x)

/-- Send waiting packets while credits and the replay buffer allow, at most `n` (R326 to R329). -/
def State.pump (s : State) (p n : Nat) : State :=
  match takeReady (s.port p) 0 n with
  | ([], _) => s
  | (ks, x) => (s.setPort p x).sendFlits p ks

/-- Queue a packet at an output and send what can go. In HOLD it waits (R330). -/
def State.enqueue (s : State) (p : Nat) (k : Packet) : State :=
  let s := s.modPort p fun x => { x with txq := x.txq ++ [k] }
  s.pump p (s.port p).txq.length

/-- A packet leaves by the route for its target, or down the tree of its sender for UPDATE and FAULT_NOTICE, and by the route where that tree does not lead to the target (R114, R115, R344, R346). False when there is no route. A packet to this device itself arrives at once. -/
def State.launch (s : State) (k : Packet) (inPort : Nat) (tree : Bool) : Bool × State :=
  if k.dst.toNat = s.devNo then (true, { s with fab := { s.fab with arrived := s.fab.arrived ++ [(255, k)] } })
  else
    match (if tree then (s.treePort k.src.toNat k.dst.toNat).map fun p => (p, s.dateline inPort p k.v) else none) |>.or (s.route k.dst.toNat inPort k.v) with
    | none => (false, s)
    | some (p, v) => (true, s.enqueue p { k with v := v })

/-- A message follows the trees (R114, R119): UPDATE and FAULT_NOTICE. -/
def isTreeMsg (k : Packet) : Bool := k.op = 6 && (k.payload.head? = some 4 || k.payload.head? = some 7)

/-- This device originates a packet: it passes point 5 for `room` and takes its PCHK (R358, R359). `addr` is the device byte address of its data, 0 where it has none (R367). None when the handover failed; otherwise whether a route exists. -/
def State.originateAt (s : State) (room code addr : Nat) (k : Packet) : Option Bool × State :=
  match s.handover 5 room code addr with
  | (.fail, s) => (none, s)
  | (_, s) =>
    let (ok, s) := s.launch { k with pchk := packetCheck k } 255 (isTreeMsg k)
    (some ok, s)

/-- A packet whose data has no address on this device. -/
def State.originate (s : State) (room code : Nat) (k : Packet) : Option Bool × State := s.originateAt room code 0 k

/-- Send a control message (R334): false when its handover failed. A message with no route is dropped (R345). -/
def State.postCtrl (s : State) (room : Nat) (dst : BitVec 16) (ty : Nat) (body : List Byte) : Bool × State :=
  match s.originate room 0 (ctrlPacket (BitVec.ofNat 16 s.devNo) dst ty body) with
  | (none, s) => (false, s)
  | (some _, s) => (true, s)

/-! ### Receiving -/

/-- The first arrived packet that satisfies `p`. -/
def State.arrivedWhere (s : State) (p : Packet → Bool) : Option (Nat × Packet) := s.fab.arrived.find? fun e => p e.2

/-- Remove the first entry equal to `e`. -/
def dropArrived (e : Nat × Packet) : List (Nat × Packet) → List (Nat × Packet)
  | [] => []
  | a :: t => if a = e then t else a :: dropArrived e t

/-- The port by which an arrived packet came: 255 for none. -/
def arrivedBy (n : Nat) : Nat := if 32 ≤ n && n < 48 then n - 32 else n

/-- Credits return to the peer of a port; one that is not UP owes them (R327, R330). -/
def State.giveCredits (s : State) (p vc n : Nat) : State :=
  if (s.port p).state = .up then s.emit (.credit (Fin.ofNat 16 p) vc n)
  else s.modPort p fun x => { x with owed := Tbl.put 0 x.owed vc (Tbl.get 0 x.owed vc + n) }

/-- Take an arrived packet out of its buffer. Its credits return to the peer of its port (R327). -/
def State.takeArrived (s : State) (e : Nat × Packet) : State :=
  let s : State := { s with fab := { s.fab with arrived := dropArrived e s.fab.arrived } }
  let s := if e.2.dst.toNat = s.devNo then s.activity 8 false else s
  if e.1 < 16 then s.giveCredits e.1 (packetVc e.2) (packetUnits e.2) else s

/-- An arrived packet for this device passes point 7: its PCHK is verified (R353, R359). None on a failure, which is counted and recorded for `room`. -/
def State.point7 (s : State) (k : Packet) (room code : Nat) : Option Hand × State :=
  if k.pchk ≠ packetCheck k then (none, s.handFail 7 room code k.addr.toNat)
  else match s.handover 7 room code k.addr.toNat with
    | (.fail, s) => (none, s)
    | (h, s) => (some h, s)

/-- An arrived control message for this device with type `ty`, from `src` (any where none), and fields `body`. -/
def State.ctrlArrived (s : State) (ty : Nat) (src : Option (BitVec 16)) (body : List Byte) : Option (Nat × Packet) :=
  s.arrivedWhere fun k => k.op = 6 && k.dst.toNat = s.devNo && k.payload = BitVec.ofNat 8 ty :: body &&
    match src with | some n => k.src = n | none => true

/-- Take an arrived control message through point 7. False when it has not arrived, or was dropped there. -/
def State.takeCtrl (s : State) (ty : Nat) (src : Option (BitVec 16)) (body : List Byte) : Bool × State :=
  match s.ctrlArrived ty src body with
  | none => (false, s)
  | some e =>
    match (s.takeArrived e).point7 e.2 255 0 with
    | (some _, t) => (true, t)
    | (none, t) => (false, t)

/-! ### Flits received (R325 to R330, R352) -/

/-- A port counts an event (#6003). -/
def State.modCnt (s : State) (p : Nat) (f : PortCounters → PortCounters) : State := s.modPort p fun x => { x with cnt := f x.cnt }

/-- The FEC below the flits reports its codewords (R323, R351, R352). -/
def State.codewords (s : State) (p : Nat) (h : FlitHdr) : State :=
  let s := if h.corrected = 0 && h.uncorrectable = 0 then s
    else s.modCnt p fun c => { c with corrected := c.corrected + h.corrected.setWidth 64, uncorrectable := c.uncorrectable + h.uncorrectable.setWidth 64 }
  if h.uncorrectable = 0 then s else s.raisePort p 128

/-- The replay buffer without what an ACK covers (R329). -/
def ackThrough (seq : BitVec 12) (l : List ReplayFlit) : List ReplayFlit :=
  match l.findIdx? fun f => f.seq = seq with
  | some i => l.drop (i + 1)
  | none => l

/-- Credits of a virtual channel come back (R327). -/
def creditBack (t : Tbl Nat) (vc n : Nat) : Tbl Nat := if vc < 8 then Tbl.put 0 t vc (Tbl.get 0 t vc - n) else t

/-- Every flit of the replay buffer is sent again, in order, and counted (R329, R337, R352). -/
def State.resend (s : State) (p : Nat) : State :=
  let l := (s.port p).replayBuf
  if l.isEmpty then s
  else forL l (fun f s => s.wireFlit p f) (s.modCnt p fun c => { c with replays := c.replays + 1, flitsReplayed := c.flitsReplayed + BitVec.ofNat 64 l.length })

/-- A replay under R329. -/
def State.replayPort (s : State) (p : Nat) : State := if (s.port p).replayBuf.isEmpty then s else (s.raisePort p 64).resend p

/-- The ACK, NAK and credit returns of a received flit (R326, R327, R329). -/
def State.takeReturns (s : State) (p : Nat) (h : FlitHdr) : State :=
  let s := s.modPort p fun x => { x with
    badRun := 0,
    replayBuf := if h.ackv then ackThrough h.ack x.replayBuf else x.replayBuf,
    credits := creditBack (creditBack x.credits h.cr0vc.val h.cr0cnt.toNat) h.cr1vc.val h.cr1cnt.toNat }
  let s := if h.nak then s.replayPort p else s
  s.pump p (s.port p).txq.length

/-- UP becomes HOLD, with the replay state kept (R330). -/
def State.holdPort (s : State) (p : Nat) : State := (s.modPort p fun x => { x with state := .hold, fromHold := true, badRun := 0 }).raisePort p 2

/-- A flit that fails its LCRC is discarded whole and counted (R326, R352). -/
def State.badFlit (s : State) (p : Nat) : State := (s.modCnt p fun c => { c with lcrc := c.lcrc + 1 }).modPort p fun x => { x with badRun := x.badRun + 1 }

/-! ### Payloads of EXCH and SYNC flits (R336, R341) -/

/-- The payload of an EXCH flit (R336). -/
def exchPayload (e : Exch) : List Byte :=
  padTo 242 (leBytes 4 e.incarnation.toNat ++ leBytes 4 e.domainId.toNat ++ leBytes 2 e.device.toNat ++ [e.x, e.y, e.z, e.port] ++
    leBytes 2 e.session.toNat ++ leBytes 2 e.rxNext.toNat ++ [BitVec.ofNat 8 (bit e.resume)])

/-- The fields of an EXCH payload (R336); the reserved bits of FLAGS are ignored. -/
def readExch (l : List Byte) : Exch :=
  { incarnation := BitVec.ofNat 32 (fieldAt l 0 4), domainId := BitVec.ofNat 32 (fieldAt l 4 4), device := BitVec.ofNat 16 (fieldAt l 8 2),
    x := BitVec.ofNat 8 (fieldAt l 10 1), y := BitVec.ofNat 8 (fieldAt l 11 1), z := BitVec.ofNat 8 (fieldAt l 12 1), port := BitVec.ofNat 8 (fieldAt l 13 1),
    session := BitVec.ofNat 16 (fieldAt l 14 2), rxNext := BitVec.ofNat 16 (fieldAt l 16 2), resume := (fieldAt l 18 1).testBit 0 }

/-- The payload of a SYNC flit: its fields in bytes 0 to 43, and 0 after them (R341). -/
def syncPayload (w : SyncWord) : List Byte :=
  padTo 242 (leBytes 8 w.pos.toNat ++ leBytes 8 w.txTs.toNat ++ leBytes 8 w.echoTs.toNat ++ leBytes 8 w.echoHold.toNat ++ leBytes 2 w.keeper.toNat ++
    leBytes 4 w.epoch.toNat ++ leBytes 4 w.heartbeat.toNat ++ [w.hops, BitVec.ofNat 8 (w.state.toNat + 4 * bit w.valid)])

/-- The fields of a SYNC payload (R341). -/
def readSync (l : List Byte) : SyncWord :=
  { pos := BitVec.ofNat 64 (fieldAt l 0 8), txTs := BitVec.ofNat 64 (fieldAt l 8 8), echoTs := BitVec.ofNat 64 (fieldAt l 16 8), echoHold := BitVec.ofNat 64 (fieldAt l 24 8),
    keeper := BitVec.ofNat 16 (fieldAt l 32 2), epoch := BitVec.ofNat 32 (fieldAt l 34 4), heartbeat := BitVec.ofNat 32 (fieldAt l 38 4),
    hops := BitVec.ofNat 8 (fieldAt l 42 1), state := BitVec.ofNat 2 (fieldAt l 43 1), valid := (fieldAt l 43 1).testBit 2 }

/-- The fabric ports train, exchange and carry traffic: the hub runs and has taken its incarnation number (R340). -/
def State.portsRun (s : State) : Bool :=
  (s.pow.state = .run || s.pow.state = .idle) && !s.pow.inReset && s.pow.boot ≠ .rom && s.pow.boot ≠ .ledger

/-- A port that is DOWN, turned on and of a device that forms links begins to train (R335, R340, R342). -/
def State.startTraining (s : State) (p : Nat) : State :=
  if s.portsRun && s.portEnabled p && s.inTorus && (s.port p).state = .down then s.modPort p fun x => { x with state := .train } else s

end Sys2Proof.Machine
end

