-- ==== Sys2Proof/Machine/UnitRegs.lean ====
section
/-! DEFINITION. The unit registers of the vector and matrix units and the save image (R214 to R221). -/

namespace Sys2Proof.Machine

/-- XU_CTX.VALID (R217). -/
def ctxValid (c : W32) : Bool := c.getLsbD 1
/-- XU_CTX.LOAD (R217). -/
def ctxLoad (c : W32) : Bool := c.getLsbD 0
/-- The word address of the save area: bits 31:5 of XU_CTX (R217). -/
def ctxArea (c : W32) : Nat := c.toNat / 32 * 32

/-- Word `i` of a 64-bit value, low word first. -/
def word64 (v : W64) (i : Nat) : W16 := BitVec.ofNat 16 (v.toNat / 2 ^ (16 * i))
/-- A 64-bit value with word `i` replaced. -/
def putWord64 (v : W64) (i : Nat) (w : W16) : W64 := BitVec.ofNat 64 (setBits v.toNat (16 * i) 16 w.toNat)

/-- The content of unit register `u` (R214). Reserved numbers read 0; BUSY reads 0, since XMF waits for idle units (R208, log 9). -/
def unitWord (x : Xu) (u : Nat) : W16 :=
  if u = 0 then x.ctl
  else if u = 1 then x.stat
  else if u = 2 then x.rix.setWidth 16
  else if u = 4 then x.ctx.setWidth 16
  else if u = 5 then (x.ctx >>> 16).setWidth 16
  else if u = 6 then x.lmask.setWidth 16
  else if u = 7 then (x.lmask >>> 16).setWidth 16
  else if 8 ≤ u && u < 0xC then word64 x.latchCnt (u - 8)
  else if 0xC ≤ u && u < 0x10 then word64 x.conflict (u - 0xC)
  else if 0x10 ≤ u && u < 0x14 then word64 x.breuse (u - 0x10)
  else if 0x14 ≤ u && u < 0x18 then word64 x.busy (u - 0x14)
  else 0

/-- Set unit register `u` as a restore does; XU_CTX is ignored (R218), and reserved bits stay 0. -/
def loadUnitWord (x : Xu) (u : Nat) (v : W16) : Xu :=
  if u = 0 then { x with ctl := v &&& 0x1F }
  else if u = 1 then { x with stat := v &&& 0x3F }
  else if u = 2 then { x with rix := v.setWidth 5 }
  else if u = 6 then { x with lmask := BitVec.ofNat 32 (setBits x.lmask.toNat 0 16 v.toNat) }
  else if u = 7 then { x with lmask := BitVec.ofNat 32 (setBits x.lmask.toNat 16 16 v.toNat) }
  else if 8 ≤ u && u < 0xC then { x with latchCnt := putWord64 x.latchCnt (u - 8) v }
  else if 0xC ≤ u && u < 0x10 then { x with conflict := putWord64 x.conflict (u - 0xC) v }
  else if 0x10 ≤ u && u < 0x14 then { x with breuse := putWord64 x.breuse (u - 0x10) v }
  else if 0x14 ≤ u && u < 0x18 then { x with busy := putWord64 x.busy (u - 0x14) v }
  else x

/-- The bytes of the 128 unit registers in order (R218). -/
def unitImage (x : Xu) : List Byte := (List.range 128).flatMap fun u => leBytes 2 (unitWord x u).toNat

/-- Write the save image of tile `t` to its area (R218). Tile-register granules keep their check bits (R360; log 25). -/
def State.saveImage (s : State) (t area : Nat) : State :=
  let x := (s.tile t).xu
  let a := scratchBase t + 2 * area
  let s := forN 32768 (fun i s => s.putByte (a + i) (Tbl.get 0 x.rows i)) s
  let s := forN 4096 (fun g s => s.setSynd (a / 8 + g) (Tbl.get 0 x.synd g)) s
  let s := s.putBytes (a + 32768) (unitImage x)
  forN 32 (fun g s => s.setSynd (a / 8 + 4096 + g) 0) s

/-- A tile saves its unit state where XU_CTX.VALID is 1 (R221). -/
def State.saveUnits (s : State) (t : Nat) : State :=
  let c := (s.tile t).xu.ctx
  if ctxValid c then s.saveImage t (ctxArea c) else s

/-- An instruction enters the queue of four, so that the fifth before it is in the units at the latest (R196). -/
def enqueueUnit (x : Xu) : Xu := { x with queue := (x.toXuRegs :: x.queue).take 4 }

/-- The units are idle: every instruction of the queue has completed (R193, R197, R214). -/
def drainedUnit (x : Xu) : Xu := { x with queue := [] }

/-- The tile halts: the running unit instruction completes and the queued ones are discarded (R198, R221). How many of the last ones issued still wait is a free value (log 9). -/
def State.discardQueue (s : State) (t : Nat) : State :=
  match (s.tile t).xu.queue with
  | [] => s
  | l =>
    let k := (s.freeVal 8).toNat % (l.length + 1)
    s.spend.modTile t fun x => { x with xu := { (if k = 0 then x.xu.toXuRegs else l.getD (k - 1) {}) with queue := [] } }

/-- A write to tile-register row `row`: every latch and B store that holds it is invalidated (R209, R212). -/
def forgetRow (x : Xu) (row : Nat) : Xu :=
  let keep : Option Nat → Option Nat := fun l => if l = some row then none else l
  let keepB : Option (Fin 8) → Option (Fin 8) := fun b => match b with
    | some n => if row < 256 && row / 32 = n.val then none else some n
    | none => none
  { x with latchA := keep x.latchA, latchB := keep x.latchB, latchC := keep x.latchC, bStore0 := keepB x.bStore0, bStore1 := keepB x.bStore1 }

end Sys2Proof.Machine
end

