-- ==== Sys2Proof/Machine/RoomFault.lean ====
section
/-! DEFINITION. A room takes an uncorrectable fault (R87, R119, R387 to R390). -/

namespace Sys2Proof.Machine

/-- What a fault records (R401, #3011). -/
structure FaultInfo where
  cause : Nat
  tile : Nat := 0
  haltCause : W16 := 0
  detail : Nat := 0
  /-- The origin device of a FAULT_NOTICE; none for this device. -/
  origin : Option (BitVec 16) := none
  deriving DecidableEq, Repr

/-- The fault record of a room in its encoding (R404 #3011, R436). -/
def faultBytes (f : RoomFault) : List Byte :=
  [f.cause] ++ leBytes 2 f.origin.toNat ++ leBytes 2 f.tile.toNat ++ leBytes 2 f.haltCause.toNat ++ leBytes 2 f.detail.toNat ++
  posBytes f.pos ++ [f.secondary] ++ leBytes 8 f.accession.toNat

/-- The room of this device whose formation record names a job. -/
def State.jobRoom (s : State) (job : W32) : Option Nat := s.roomWith fun f _ => f.ftCount ≠ 0 && f.jobId = job

/-- Every cue of a room, in the device and quire tables, is disarmed (R87, R382). -/
def State.disarmCues (s : State) (r : Nat) : State :=
  forL (s.roomCues r) (fun c s => if (s.cueAt c).arm then s.setCue c { s.cueAt c with arm := false, due := none } else s) s

/-- A tile core stops at its instruction boundary (R379, R382, R388). A halted tile stays halted. -/
def stopTile (x : Tile) : Tile := if x.run = .halted then x else { x with run := .stopped }

/-- The waits that a tile has registered end with its stop (R105). -/
def State.dropTileWaits (s : State) (t : Nat) : State :=
  { s with tal := { s.tal with waits := s.tal.waits.filter fun w => w.who ≠ .tile (Fin.ofNat 1280 t) } }

/-- Every tile of the room stops, discards its unit queue and saves its unit state (R198, R221, R388). -/
def State.haltTiles (s : State) (r : Nat) : State :=
  forL (s.roomTiles r) (fun t s => if s.tile t = {} then s else (((s.modTile t stopTile).dropTileWaits t).discardQueue t).saveUnits t) s

/-- The members of a job that the home knows (R334): the devices that joined one of the job's groups. -/
def State.jobMembers (s : State) (job : W32) : List (BitVec 16) :=
  ((s.tal.members.filter fun e => (Tbl.get {} s.tal.bind e.1).jobId = job).map fun e => e.2).foldr (fun d l => if l.contains d then l else d :: l) []

/-- A faulted room counts a later fault (R389). -/
def State.laterFault (s : State) (r : Nat) : State :=
  if (s.room r).state = .faulted then s.modRoom r fun x => { x with flt := { x.flt with secondary := if x.flt.secondary = 255 then 255 else x.flt.secondary + 1 } } else s

/-- A message about a fault of room `r`. A handover of it that fails is a later fault of the room (R365, R389). -/
def State.tellFault (s : State) (r : Nat) (dst : BitVec 16) (ty : Nat) (body : List Byte) : State :=
  match s.postCtrl r dst ty body with
  | (true, s) => s
  | (false, s) => s.laterFault r

/-- The home freezes a job's fabric tallies and sends FAULT_NOTICE to every member (R119, R334). -/
def State.homeNotice (s : State) (job : W32) (origin : BitVec 16) (cause : Nat) : State :=
  let room := (s.jobRoom job).getD 255
  let bound := s.tal.bind.any fun e => e.2.jobId = job
  let s := if s.tal.frozenJobs.contains job || !bound then s else { s with tal := { s.tal with frozenJobs := s.tal.frozenJobs ++ [job] } }
  forL (s.jobMembers job) (fun d s => s.tellFault room d 7 (leBytes 4 job.toNat ++ leBytes 2 origin.toNat ++ leBytes 1 cause)) s

/-- A room takes an uncorrectable fault (R388): recorded once, tallies frozen, the home told, cues disarmed and tiles stopped. A later fault only counts (R389). For cause DOMAIN_NOTICE the quires halt at the next cue boundary (R87). -/
def State.roomFault (s : State) (r : Nat) (i : FaultInfo) : State :=
  let x := s.room r
  match x.form, x.state with
  | some f, .formed | some f, .forming =>
    let dev := BitVec.ofNat 16 s.devNo
    let rec0 : RoomFault := { cause := BitVec.ofNat 8 i.cause, origin := i.origin.getD dev, tile := BitVec.ofNat 16 i.tile, haltCause := i.haltCause,
                              detail := BitVec.ofNat 16 i.detail, pos := s.posOrZero, secondary := 0, accession := s.nextEventAcc 26 }
    let s := (s.setRoom r { x with state := .faulted, flt := rec0 }).event 3 (faultBytes rec0)
    let s := (s.modRoom r fun x => { x with frozen := true }).raiseTally r 2
    let s := if f.ftCount = 0 || i.cause = 12 then s
      else if f.home = dev then s.homeNotice f.jobId dev i.cause
      else s.tellFault r f.home 3 (leBytes 4 f.jobId.toNat ++ leBytes 1 i.cause)
    let s := if i.cause = 12 then s.modRoom r fun x => { x with haltAt := some s.clk.pos } else (s.disarmCues r).haltTiles r
    s.raiseRoom r 2
  | _, .faulted => s.laterFault r
  | _, _ => s

/-- A fault of cause 14 DMA_BUS or 15 CHECK: by the policy bit it faults the room, or it is reported (R387, R390). -/
def State.policyFault (s : State) (r cause detail : Nat) : State :=
  match (s.room r).form with
  | none => s
  | some f =>
    if f.policy.getLsbD (cause - 14) then s.roomFault r { cause := cause, detail := detail }
    else (s.modRoom r fun x => { x with reported := x.reported + 1 }).raiseRoom r 4

/-- Send a control message of room `r`, 255 for none (R334). Where its handover fails it is not sent, and the room whose data failed takes a fault under its policy (R365). -/
def State.sendCtrl (s : State) (r : Nat) (dst : BitVec 16) (ty : Nat) (body : List Byte) : State :=
  match s.postCtrl r dst ty body with
  | (true, s) => s
  | (false, s) => if r < 16 then s.policyFault r 15 5 else s

/-- The room of a tile takes an uncorrectable fault. -/
def State.tileFaultRoom (s : State) (t : Nat) (i : FaultInfo) : State :=
  match s.tileRoom t with
  | some r => s.roomFault r { i with tile := t }
  | none => s

end Sys2Proof.Machine
end

