-- ==== Sys2Proof/Machine/Flags.lean ====
section
/-! DEFINITION. The status word of a tile core and its flags (R128, R138, R140). -/

namespace Sys2Proof.Machine

/-- SW.S: supervisor level (R128). -/
def swS (w : W16) : Bool := w.getLsbD 15
/-- SW.MASK (R128). -/
def swMask (w : W16) : Nat := bitsOf w.toNat 12 3
/-- SW.NW: a NOINT window is open (R128). -/
def swNW (w : W16) : Bool := w.getLsbD 11
/-- SW.SB: the core runs on the shadow bank (R128). -/
def swSB (w : W16) : Bool := w.getLsbD 10

/-- `w` with bit `i` set to `b`. -/
def putBit (w : W16) (i : Nat) (b : Bool) : W16 := if b then w ||| (1#16 <<< i) else w &&& ~~~(1#16 <<< i)
/-- `w` with MASK set to `m`. -/
def putMask (w : W16) (m : Nat) : W16 := BitVec.ofNat 16 (setBits w.toNat 12 3 m)

/-- The carry flag C (R128). -/
def swC (w : W16) : Bool := w.getLsbD 0
/-- The zero flag Z (R128). -/
def swZ (w : W16) : Bool := w.getLsbD 1
/-- The negative flag N (R128). -/
def swN (w : W16) : Bool := w.getLsbD 2
/-- The overflow flag V (R128). -/
def swV (w : W16) : Bool := w.getLsbD 3

/-- Set Z, N, C and V ("ZNCV", R140). -/
def setZNCV (w : W16) (z n c v : Bool) : W16 := putBit (putBit (putBit (putBit w 1 z) 2 n) 0 c) 3 v
/-- Set Z and N ("ZN", R140). -/
def setZN (w : W16) (z n : Bool) : W16 := putBit (putBit w 1 z) 2 n
/-- Set Z, N and V. -/
def setZNV (w : W16) (z n v : Bool) : W16 := putBit (setZN w z n) 3 v
/-- Set Z and N from a 16-bit result (R140). -/
def znOf (w : W16) (r : W16) : W16 := setZN w (r = 0) r.msb

/-- Addition of `a`, `b` and a carry in: the result and SW with ZNCV (R140). -/
def addFlags (w : W16) (a b : W16) (cin : Bool) : W16 × W16 :=
  let r := BitVec.ofNat 16 (a.toNat + b.toNat + bit cin)
  let c := 2 ^ 16 ≤ a.toNat + b.toNat + bit cin
  let v := r.toInt ≠ a.toInt + b.toInt + bit cin
  (r, setZNCV w (r = 0) r.msb c v)

/-- Subtraction of `b` and a borrow in from `a`: the result and SW with ZNCV (R140). C is the borrow. -/
def subFlags (w : W16) (a b : W16) (cin : Bool) : W16 × W16 :=
  let r := BitVec.ofInt 16 ((a.toNat : Int) - b.toNat - bit cin)
  let c := a.toNat < b.toNat + bit cin
  let v := r.toInt ≠ a.toInt - b.toInt - bit cin
  (r, setZNCV w (r = 0) r.msb c v)

/-- Comparison of A registers over 32 bits (R140, R143). -/
def cmpaFlags (w : W16) (a b : W32) : W16 :=
  let r := a - b
  setZNCV w (r = 0) r.msb (a.toNat < b.toNat) (r.toInt ≠ a.toInt - b.toInt)

/-- The condition codes of BR and BRL (R138); none for the reserved code 15. -/
def condHolds (w : W16) (cc : Nat) : Option Bool :=
  let c := swC w
  let z := swZ w
  let n := swN w
  let v := swV w
  match cc with
  | 0 => some true
  | 1 => some z
  | 2 => some (!z)
  | 3 => some c
  | 4 => some (!c)
  | 5 => some (c || z)
  | 6 => some (!c && !z)
  | 7 => some (n ≠ v)
  | 8 => some (n = v)
  | 9 => some (z || n ≠ v)
  | 10 => some (!z && n = v)
  | 11 => some n
  | 12 => some (!n)
  | 13 => some v
  | 14 => some (!v)
  | _ => none

end Sys2Proof.Machine
end

