-- ==== Sys2Proof/Machine/Operands.lean ====
section
/-! DEFINITION. The register banks of a tile core, the operand forms of R135 and R143 to R145, and performance counters (R127, R167, R186). -/

namespace Sys2Proof.Machine

/-! ### Register banks (R127, R186) -/

/-- D register `n` of the bank in use. -/
def getD (x : Tile) (n : Nat) : W16 := if swSB x.sw then Tbl.get 0 x.sd n else Tbl.get 0 x.d n
/-- A register `n` of the bank in use. -/
def getA (x : Tile) (n : Nat) : W32 := if swSB x.sw then Tbl.get 0 x.sa n else Tbl.get 0 x.a n
/-- Write D register `n` of the bank in use. -/
def setD (x : Tile) (n : Nat) (v : W16) : Tile := if swSB x.sw then { x with sd := Tbl.put 0 x.sd n v } else { x with d := Tbl.put 0 x.d n v }
/-- Write A register `n` of the bank in use. -/
def setA (x : Tile) (n : Nat) (v : W32) : Tile := if swSB x.sw then { x with sa := Tbl.put 0 x.sa n v } else { x with a := Tbl.put 0 x.a n v }

/-- The D register MOV reads: the main bank where PRIV_CTL.XR is 1 (R186). -/
def getDX (x : Tile) (n : Nat) : W16 := if x.priv.xr then Tbl.get 0 x.d n else getD x n
/-- The A register MOVA reads (R186). -/
def getAX (x : Tile) (n : Nat) : W32 := if x.priv.xr then Tbl.get 0 x.a n else getA x n
/-- The D register MOV writes: the main bank where PRIV_CTL.XW is 1 (R186). -/
def setDX (x : Tile) (n : Nat) (v : W16) : Tile := if x.priv.xw then { x with d := Tbl.put 0 x.d n v } else setD x n v
/-- The A register MOVA writes (R186). -/
def setAX (x : Tile) (n : Nat) (v : W32) : Tile := if x.priv.xw then { x with a := Tbl.put 0 x.a n v } else setA x n v

/-- Accumulator `n` (R127). -/
def getAcc (x : Tile) (n : Nat) : BitVec 40 := Tbl.get 0 x.acc n
/-- Write accumulator `n`. -/
def setAcc (x : Tile) (n : Nat) (v : BitVec 40) : Tile := { x with acc := Tbl.put 0 x.acc n v }

/-! ### Operand forms -/

/-- The second operand of opcodes 0x0C to 0x13 (R143). -/
def srcVal (x : Tile) : Src → W16
  | .reg y => getD x y
  | .imm i => i
/-- Words of an instruction with that operand (R143). -/
def srcWords : Src → Nat
  | .reg _ => 1
  | .imm _ => 2

/-- The count of a shift (R143). -/
def shiftVal (x : Tile) : ShiftBy → Nat
  | .reg y => (getD x y).toNat % 16
  | .imm k => k

/-- The effective address of LD, ST, LDA and STA with stride `n` words (R135). -/
def effAddr (x : Tile) (y : Nat) (n : Nat) : Mode → W32
  | .ind => getA x y
  | .postInc => getA x y
  | .preDec => getA x y - BitVec.ofNat 32 n
  | .disp d => getA x y + d.signExtend 32
/-- The address register after the access (R135). -/
def modeUpdate (x : Tile) (y : Nat) (n : Nat) : Mode → Tile
  | .ind => x
  | .postInc => setA x y (getA x y + BitVec.ofNat 32 n)
  | .preDec => setA x y (getA x y - BitVec.ofNat 32 n)
  | .disp _ => x
/-- Words of an instruction with an addressing mode (R135). -/
def modeWords : Mode → Nat
  | .disp _ => 2
  | _ => 1

/-! ### Performance counters (R166 to R168) -/

/-- Event codes whose count depends on cycle timing (R168; log 7). The others are counted where they occur. -/
def cycleEvent (code : Nat) : Bool := code = 1 || code = 11 || code = 12 || code = 14 || code = 16 || code = 17

/-- Counter `n` passes 2^48 - 1: it wraps, OVF is set and line 0 PERF is raised (R167, R180). -/
def perfWrap (x : Tile) (n : Nat) (v : BitVec 48) : Tile :=
  { x with perf := { x.perf with cnt := Tbl.put 0 x.perf.cnt n v, ovf := x.perf.ovf ||| (1#4 <<< n) }, priv := { x.priv with irqPend := x.priv.irqPend ||| 1 } }

/-- One occurrence of event `code` at the level `sup` (R166, R167). -/
def perfCount (code : Nat) (sup : Bool) (x : Tile) : Tile :=
  if x.perf.en && !(sup && x.perf.noSup) then
    forN 4 (fun n x =>
      if (Tbl.get 0 x.perf.sel n).toNat = code then
        let v := Tbl.get 0 x.perf.cnt n
        if v = -1 then perfWrap x n 0 else { x with perf := { x.perf with cnt := Tbl.put 0 x.perf.cnt n (v + 1) } }
      else x) x
  else x

/-- An instruction fetched at level `sup` retires, and PC takes the address of the next (R149, R167, R168). -/
def retireAt (x : Tile) (sup : Bool) (pc : W32) : Tile := perfCount 2 sup { x with pc := pc, lastPc := x.pc }

/-- A wait of one word ends and its instruction retires (R152 to R154). -/
def endWait (x : Tile) : Tile := retireAt { x with run := .running } (swS x.sw) (x.pc + 1)

/-- One more signal for a tile (R152): at 255 it is lost and event 18 counts it. -/
def addSignal (x : Tile) : Tile := if x.sig = 255 then perfCount 18 (swS x.sw) x else { x with sig := x.sig + 1 }

/-- WAITS takes the signal count (R152): Dx takes it and it returns to 0. -/
def takeSignals (x : Tile) (n : Nat) : Tile := setD { x with sig := 0 } n (x.sig.setWidth 16)

/-- A tile gated in WAITS goes on once its count is not 0 (R152). -/
def wakeSignals (x : Tile) : Tile :=
  match x.run with
  | .waitS n => if x.sig = 0 then x else endWait (takeSignals x n)
  | _ => x

/-- A signal or launch reaches a tile (R152, R175). -/
def signalTile (x : Tile) : Tile := wakeSignals (addSignal x)

end Sys2Proof.Machine
end

