-- ==== Sys2Proof/Machine/Tally.lean ====
section
/-! DEFINITION. Tallies: advances, waits, watches, and the fabric tallies across the domain (R93 to R126). -/

namespace Sys2Proof.Machine

/-- TALLY_ERR of a room takes a record (R123): code 1 RANGE, 2 AMOUNT, 3 FROZEN, 4 UNBOUND, 5 FOREIGN. The field TALLY has 13 bits; of a larger number that an instruction named it keeps the low 13 (DESIGN CHOICE, log 121). -/
def State.tallyErrRec (s : State) (r code source t : Nat) : State :=
  (s.modRoom r fun x => { x with tallyErr := BitVec.ofNat 32 (code * 65536 + source % 8 * 8192 + t % 8192) }).raiseTally r 1

/-- An advance is refused (R95): counted in #4011.02, and recorded for the unit's room and for the room whose tally it names (R123). -/
def State.refuseAdvance (s : State) (r code source t : Nat) : State :=
  let s := { s with tal := { s.tal with refused := s.tal.refused + 1 } }.tallyErrRec r code source t
  match s.tallyRoom t with
  | some q => if q = r then s else s.tallyErrRec q code source t
  | none => s

/-- The fabric group of a tally number (R111). -/
def tallyGroup (t : Nat) : Nat := (t - 4096) / 16

/-- Why an advance of `t` by `amount` from room `r` is not made (R95, R97): 1 RANGE, 2 AMOUNT; 0 when it is allowed. Of an advance that names a foreign tally and has amount 0, RANGE is reported: the manual gives no order (DESIGN CHOICE, log 122). -/
def State.advanceCheck (s : State) (r t amount : Nat) : Nat :=
  match (s.room r).form with
  | none => 1
  | some f => if !formOwns f t then 1 else if amount = 0 then 2 else 0

/-- A tally is frozen: its room took an uncorrectable fault (R118). -/
def State.frozen (s : State) (t : Nat) : Bool :=
  match s.tallyRoom t with
  | some r => (s.room r).frozen
  | none => false

/-- An advance is issued by a unit of room `r` (R99, R101); it is applied by LOCAL_ADVANCE_APPLY. -/
def State.issueAdvance (s : State) (r t amount source : Nat) : State :=
  { s with tal := { s.tal with adv := s.tal.adv ++ [{ tally := t, amount := BitVec.ofNat 16 amount, room := toRoom r, source := BitVec.ofNat 3 source }] } }

/-- An advance is checked and issued, or refused with its report in TALLY_ERR (R95, R97). -/
def State.tryAdvance (s : State) (r t amount source : Nat) : State :=
  match s.advanceCheck r t amount with
  | 0 => s.issueAdvance r t amount source
  | c => s.refuseAdvance r c source t

/-! ### Waits and watches (R105 to R110) -/

/-- The wait of a descriptor ends, and its movement begins; a NOP moves nothing (R291, R302). -/
def endChanWait (x : Chan) : Chan :=
  if x.pause then { x with state := .paused, after := .move }
  else match x.desc with
    | some d => { x with state := if d.op = 4 then .complete else .move }
    | none => { x with state := .move }

/-- A wait whose condition has come true ends: the unit goes on (R105, R107). -/
def State.wakeWaiter (s : State) (w : TallyWait) : State :=
  match w.who with
  | .tile t => s.modTile t fun x => match x.run with
      | .waitT _ _ _ => endWait { x with sw := putBit x.sw 1 true }
      | _ => x
  | .chan c => s.modChan c fun x => if x.state = .wait then endChanWait x else x
  | .layer _ _ => s

/-- The waits on tally `t` that its value satisfies complete. A frozen tally completes none (R106, R118). -/
def State.completeWaits (s : State) (t : Nat) : State :=
  if s.frozen t then s
  else
    let v := s.tally t
    let hit : TallyWait → Bool := fun w => w.tally = t && w.expected.toNat ≤ v.toNat
    let due := s.tal.waits.filter hit
    forL due (fun w s => s.wakeWaiter w) { s with tal := { s.tal with waits := s.tal.waits.filter fun w => !hit w } }

/-- Register a wait (R106). True when the condition already holds and the unit is not gated. -/
def State.registerWait (s : State) (who : Waiter) (t : Nat) (expected : W64) : Bool × State :=
  if !s.frozen t && expected.toNat ≤ (s.tally t).toNat then (true, s)
  else (false, { s with tal := { s.tal with waits := s.tal.waits ++ [{ who := who, tally := t, expected := expected }] } })

/-- A registered wait ends without its condition. -/
def State.dropWait (s : State) (who : Waiter) : State := { s with tal := { s.tal with waits := s.tal.waits.filter fun w => w.who ≠ who } }

def State.watch (s : State) (n : Nat) : Watch := Tbl.get {} s.tal.watch n
def State.setWatch (s : State) (n : Nat) (x : Watch) : State := { s with tal := { s.tal with watch := Tbl.put {} s.tal.watch n x } }

/-- Watch `n` fires if it is armed and its condition holds on a tally that is not frozen (R110): HIT is set, ARM clears, and its vector has an event (R397). -/
def State.fireWatch (s : State) (n : Nat) : State :=
  let x := s.watch n
  if x.arm && !s.frozen x.tally.toNat && x.value.toNat ≤ (s.tally x.tally.toNat).toNat then
    let s := s.setWatch n { x with arm := false, hit := true }
    match s.watchRoom n with
    | some r => s.vecEvent r x.vector.toNat
    | none => s
  else s

/-- The watches on tally `t` whose condition holds fire (R110). -/
def State.fireWatches (s : State) (t : Nat) : State :=
  forL ((s.tal.watch.filter fun e => e.2.tally.toNat = t).map fun e => e.1) (fun n s => s.fireWatch n) s

/-- Tally `t` has a new value: waits and watches that it satisfies complete (R106, R110). -/
def State.setTally (s : State) (t : Nat) (v : W64) : State :=
  (({ s with tal := { s.tal with val := Tbl.put 0 s.tal.val t v } }).completeWaits t).fireWatches t

/-! ### Applying an advance (R97 to R99, R114) -/

/-- Set a tally past its end: it reads 2^64 - 1, and its room faults before any wait completes (R98). -/
def State.tallyLimit (s : State) (r t : Nat) : State :=
  let s := { s with tal := { s.tal with val := Tbl.put 0 s.tal.val t (-1) } }
  (s.roomFault r { cause := 5, detail := t }).raiseTally r 4

/-- The home sends UPDATE with the new value to every member of the job (R114). -/
def State.sendUpdate (s : State) (r t : Nat) (job : W32) : State :=
  forL (s.jobMembers job) (fun d s => s.sendCtrl r d 4 (leBytes 2 t ++ leBytes 8 (s.tally t).toNat ++ leBytes 4 job.toNat)) s

/-- Add `amount` to tally `t` of room `r`, on the device that holds its true value (R97 to R99). -/
def State.addTally (s : State) (r t amount : Nat) : State :=
  if 2 ^ 64 ≤ (s.tally t).toNat + amount then s.tallyLimit r t
  else
    let s := s.setTally t (BitVec.ofNat 64 ((s.tally t).toNat + amount))
    match (s.room r).form with
    | some f => if 4096 ≤ t then s.sendUpdate r t f.jobId else s
    | none => s

/-- An advance into a frozen tally is discarded, counted and reported (R118). -/
def State.discardFrozen (s : State) (r source t : Nat) : State :=
  let s : State := { s with tal := { s.tal with discarded := s.tal.discarded + 1 } }
  s.tallyErrRec r 3 source t

/-- This device is the home of a formation's job (R111). -/
def State.isHome (s : State) (f : FormRec) : Bool := f.home.toNat = s.devNo

/-- One advance reaches its tally (R99, R114): discarded when the tally was released or is frozen; sent to the home when it is a fabric tally of another home; otherwise applied. -/
def State.applyAdvance (s : State) (a : PendingAdvance) : State :=
  let r := a.room.val
  if s.tallyRoom a.tally ≠ some r then { s with tal := { s.tal with discarded := s.tal.discarded + 1 } }
  else if (s.room r).frozen then s.discardFrozen r a.source.toNat a.tally
  else match (s.room r).form with
    | none => s
    | some f =>
      if 4096 ≤ a.tally && !s.isHome f then
        let s : State := { s with tal := { s.tal with sent := s.tal.sent ++ [{ tally := BitVec.ofNat 16 a.tally, amount := a.amount, jobId := f.jobId, room := a.room, source := a.source, refused := false }] } }
        s.sendCtrl r f.home 1 (leBytes 2 a.tally ++ leBytes 2 a.amount.toNat ++ leBytes 4 f.jobId.toNat)
      else s.addTally r a.tally a.amount.toNat

/-- Take the oldest pending advance of tally `t` out of the list. -/
def popAdvance (t : Nat) : List PendingAdvance → Option (PendingAdvance × List PendingAdvance)
  | [] => none
  | a :: l => if a.tally = t then some (a, l) else (popAdvance t l).map fun e => (e.1, a :: e.2)

/-- LOCAL_ADVANCE_APPLY (R99): the tally complex applies the oldest advance issued for the tally. -/
def execLocalAdvanceApply (tally : Fin 5120) (s : State) : Host.Outcome State Fault Refusal :=
  .next (match popAdvance tally s.tal.adv with
    | none => s
    | some (a, rest) => { s with tal := { s.tal with adv := rest } }.applyAdvance a)

/-! ### Watches and registers (R121, R122, R125) -/

/-- CTL of a watch as it reads (R125). -/
def State.watchCtl (s : State) (n : Nat) : W32 :=
  let x := s.watch n
  BitVec.ofNat 32 (x.tally.toNat + 8192 * x.vector.toNat + 2 ^ 24 * bit x.arm + 2 ^ 25 * bit x.hit + 2 ^ 28 * (s.watchRoom n).getD 0)

/-- A write of HUB_TW[n].CTL by the room that owns the watch (R110, R125). While ARM is 1 only ARM takes the write. -/
def State.watchCtlWrite (s : State) (r n : Nat) (v : Nat) : State :=
  let x := s.watch n
  if x.arm then s.setWatch n { x with arm := v.testBit 24 }
  else
    let x := { x with hit := x.hit && !v.testBit 25, tally := BitVec.ofNat 13 v, vector := BitVec.ofNat 8 (v / 8192) }
    if v.testBit 24 then
      match (s.room r).form with
      | some f => if formOwns f x.tally.toNat then (s.setWatch n { x with arm := true }).fireWatch n
          else (s.setWatch n x).tallyErrRec r 1 4 x.tally.toNat
      | none => s
    else s.setWatch n x

/-- A write of HUB_TW[n].VALUE: ignored while ARM is 1 (R110). -/
def State.watchValueWrite (s : State) (n : Nat) (v : W64) : State :=
  if (s.watch n).arm then s else s.setWatch n { s.watch n with value := v }

/-- A write of TALLY_ADV[T] by the host through room `r`'s function (R122). -/
def State.tallyAdvWrite (s : State) (r t amount : Nat) : State := s.tryAdvance r t amount 4

/-- A read of TALLY_VAL[T] for room `r` (R121): outside the room's ranges it reads 0 and is recorded. -/
def State.tallyValRead (s : State) (r t : Nat) : W64 × State :=
  match (s.room r).form with
  | some f => if formOwns f t then (s.tally t, s) else (0, s.tallyErrRec r 1 4 t)
  | none => (0, s)

/-! ### The home and its members (R111 to R119) -/

def State.binding (s : State) (g : Nat) : Binding := Tbl.get {} s.tal.bind g

/-- The home refuses a message with a NACK (R112, R119): code 4 UNBOUND, 5 FOREIGN, 3 FROZEN. -/
def State.sendNack (s : State) (dst : BitVec 16) (t code : Nat) (job : W32) : State :=
  s.sendCtrl 255 dst 6 (leBytes 2 t ++ leBytes 1 code ++ leBytes 4 job.toNat)

/-- ADVANCE arrives at the home (R112, R114, R119). One for groups that its job has released is counted in #4011.01 as well (R120). -/
def execAdvance (src : BitVec 16) (tally amount : BitVec 16) (jobId : W32) (s : State) : Host.Outcome State Fault Refusal :=
  .next (match s.takeCtrl 1 (some src) (leBytes 2 tally.toNat ++ leBytes 2 amount.toNat ++ leBytes 4 jobId.toNat) with
    | (false, s) => s
    | (true, s) =>
      let t := tally.toNat
      let b := s.binding (tallyGroup t)
      let s := if 4096 ≤ t && t < 5120 && b.jobId ≠ jobId && jobId ≠ 0 && Tbl.get 0 s.tal.released (tallyGroup t) = jobId then
          { s with tal := { s.tal with discarded := s.tal.discarded + 1 } } else s
      if t < 4096 || 5120 ≤ t || b.jobId = 0 then s.sendNack src t 4 jobId
      else if b.jobId ≠ jobId then
        let s := match s.tallyRoom t with | some r => s.tallyErrRec r 5 6 t | none => s
        s.sendNack src t 5 jobId
      else if s.tal.frozenJobs.contains jobId then
        let s := match s.tallyRoom t with | some r => s.discardFrozen r 6 t | none => s
        s.sendNack src t 3 jobId
      else match s.tallyRoom t with
        | none => { s with tal := { s.tal with discarded := s.tal.discarded + 1 } }
        | some r =>
          if (s.room r).frozen then (s.discardFrozen r 6 t).sendNack src t 3 jobId
          else if amount = 0 then s.refuseAdvance r 2 6 t
          else s.addTally r t amount.toNat)

/-- A message that the home has answered is no longer repeated (R112). -/
def forgetSent (p : FabricMsg → Bool) (x : Tallies) : Tallies := { x with sent := x.sent.filter fun m => !p m }

/-- An UPDATE of a tally has come: what was sent for it before may have been applied (log 123). -/
def ageSent (tally : BitVec 16) (job : W32) (x : Tallies) : Tallies :=
  { x with sent := x.sent.map fun (m : FabricMsg) => if m.tally = tally && m.jobId = job && m.amount ≠ 0 && !m.refused then { m with old := true } else m }

/-- A mirror takes the greater of its value and the value received, unless it is frozen (R114, R118). -/
def State.raiseMirror (s : State) (t : Nat) (v : W64) : State :=
  if s.frozen t || v.toNat ≤ (s.tally t).toNat then s else s.setTally t v

/-- UPDATE arrives at a member (R114, R115). It answers no ADVANCE of this device: one may still be refused (log 123). -/
def execUpdate (tally : BitVec 16) (value : W64) (jobId : W32) (s : State) : Host.Outcome State Fault Refusal :=
  .next (match s.takeCtrl 4 none (leBytes 2 tally.toNat ++ leBytes 8 value.toNat ++ leBytes 4 jobId.toNat) with
    | (false, s) => s
    | (true, s) =>
      let t := tally.toNat
      match s.jobRoom jobId with
      | some r =>
        match (s.room r).form with
        | some f => if 4096 ≤ t && formOwns f t then
            ({ s with tal := ageSent tally jobId s.tal }).raiseMirror t value else s
        | none => s
      | none => s)

/-- JOIN arrives at the home (R111, R112, R334): the sender becomes a member, and two JOIN_REPLY messages carry the group's values. The manual gives no other answer for a job that the home has frozen: the frozen values are sent, and no notice with them (DESIGN CHOICE, log 124). -/
def execJoin (src : BitVec 16) (group : BitVec 8) (jobId : W32) (s : State) : Host.Outcome State Fault Refusal :=
  .next (match s.takeCtrl 2 (some src) (leBytes 1 group.toNat ++ leBytes 4 jobId.toNat) with
    | (false, s) => s
    | (true, s) =>
      let g := group.toNat
      let b := s.binding g
      let t := 4096 + 16 * g
      if 64 ≤ g || b.jobId = 0 then s.sendNack src t 4 jobId
      else if b.jobId ≠ jobId then s.sendNack src t 5 jobId
      else
        let s := if s.tal.members.contains (g, src) then s else { s with tal := { s.tal with members := s.tal.members ++ [(g, src)] } }
        let half : Nat → State → State := fun h s =>
          s.sendCtrl ((s.jobRoom jobId).getD 255) src 5 (leBytes 1 g ++ leBytes 1 h ++ leBytes 4 jobId.toNat ++
            (List.range 8).flatMap fun i => leBytes 8 (s.tally (t + 8 * h + i)).toNat)
        half 1 (half 0 s))

/-- JOIN_REPLY arrives at a member (R111): each mirror of the half takes the value received. -/
def execJoinReply (group : BitVec 8) (h : Fin 2) (jobId : W32) (values : List W64) (s : State) : Host.Outcome State Fault Refusal :=
  .next (match s.takeCtrl 5 none (leBytes 1 group.toNat ++ leBytes 1 h ++ leBytes 4 jobId.toNat ++ values.flatMap fun v => leBytes 8 v.toNat) with
    | (false, s) => s
    | (true, s) =>
      let t := 4096 + 16 * group.toNat + 8 * h.val
      match s.jobRoom jobId with
      | some r =>
        match (s.room r).form with
        | some f => if formOwns f t then
            forN 8 (fun i s => match values[i]? with | some v => s.raiseMirror (t + i) v | none => s)
              { s with tal := forgetSent (fun m => m.tally.toNat = 4096 + 16 * group.toNat && m.jobId = jobId && m.amount = 0) s.tal }
          else s
        | none => s
      | none => s)

/-- The first message sent for tally `t` of a job that satisfies `p`. -/
def findSent (x : Tallies) (t : BitVec 16) (p : FabricMsg → Bool) : Option FabricMsg := x.sent.find? fun m => m.tally = t && p m

/-- Replace the first message equal to `m` by those of `n`. -/
def replaceMsg (m : FabricMsg) (n : List FabricMsg) : List FabricMsg → List FabricMsg
  | [] => []
  | a :: l => if a = m then n ++ l else a :: replaceMsg m n l

/-- NACK arrives at a sender (R112, R119): UNBOUND is repeated later, FOREIGN faults the room at once, FROZEN is discarded. -/
def execNack (tally : BitVec 16) (code : BitVec 8) (jobId : W32) (s : State) : Host.Outcome State Fault Refusal :=
  .next (match s.takeCtrl 6 none (leBytes 2 tally.toNat ++ leBytes 1 code.toNat ++ leBytes 4 jobId.toNat) with
    | (false, s) => s
    | (true, s) =>
      let s : State := { s with tal := { s.tal with nacks := s.tal.nacks + 1 } }
      match (findSent s.tal tally fun m => m.jobId = jobId && !m.refused && !m.old).orElse (fun _ => findSent s.tal tally fun m => m.jobId = jobId && !m.refused) with
      | none => s
      | some m =>
        let put : List FabricMsg → State := fun n => { s with tal := { s.tal with sent := replaceMsg m n s.tal.sent } }
        if code = 4 then
          let s := put [{ m with refused := true }]
          if m.amount = 0 then s else s.tallyErrRec m.room 4 m.source.toNat tally.toNat
        else if code = 5 then
          let s := put []
          let s := if m.amount = 0 then s else s.tallyErrRec m.room 5 m.source.toNat tally.toNat
          s.roomFault m.room { cause := 7, detail := tally.toNat }
        else if m.amount = 0 then put []
        else (put []).discardFrozen m.room m.source.toNat tally.toNat)

/-- FABRIC_RETRY (R112): a message refused with UNBOUND is sent again. -/
def execFabricRetry (tally : BitVec 16) (s : State) : Host.Outcome State Fault Refusal :=
  .next (match findSent s.tal tally fun m => m.refused with
    | none => s
    | some m =>
      let s : State := { s with tal := { s.tal with sent := replaceMsg m [{ m with refused := false }] s.tal.sent } }
      match (s.room m.room).form with
      | none => s
      | some f =>
        if m.amount = 0 then s.sendCtrl m.room f.home 2 (leBytes 1 (tallyGroup tally.toNat) ++ leBytes 4 m.jobId.toNat)
        else s.sendCtrl m.room f.home 1 (leBytes 2 tally.toNat ++ leBytes 2 m.amount.toNat ++ leBytes 4 m.jobId.toNat))

/-- FABRIC_NACK_TIMEOUT (R112): the home still refuses after #4010.01, and the sender's room faults. -/
def execFabricNackTimeout (tally : BitVec 16) (s : State) : Host.Outcome State Fault Refusal :=
  .next (match findSent s.tal tally fun m => m.refused with
    | none => s
    | some m => ({ s with tal := { s.tal with sent := replaceMsg m [] s.tal.sent } } : State).roomFault m.room { cause := 6, detail := tally.toNat })

/-- FAULT_TO_HOME arrives at the home (R119): the job is frozen, its members are told, and the home's own room takes the notice. -/
def execFaultToHome (src : BitVec 16) (jobId : W32) (cause : BitVec 8) (s : State) : Host.Outcome State Fault Refusal :=
  .next (match s.takeCtrl 3 (some src) (leBytes 4 jobId.toNat ++ leBytes 1 cause.toNat) with
    | (false, s) => s
    | (true, s) =>
      let s := s.homeNotice jobId src cause.toNat
      match s.jobRoom jobId with
      | some r => s.roomFault r { cause := 12, detail := src.toNat, origin := some src }
      | none => s)

/-- FAULT_NOTICE arrives at a member (R87, R119, R388): mirrors freeze, and the quires halt at the next cue boundary. -/
def execFaultNotice (jobId : W32) (origin : BitVec 16) (cause : BitVec 8) (s : State) : Host.Outcome State Fault Refusal :=
  .next (match s.takeCtrl 7 none (leBytes 4 jobId.toNat ++ leBytes 2 origin.toNat ++ leBytes 1 cause.toNat) with
    | (false, s) => s
    | (true, s) =>
      match s.jobRoom jobId with
      | some r => s.roomFault r { cause := 12, detail := origin.toNat, origin := some origin }
      | none => s)

end Sys2Proof.Machine
end

