-- ==== Sys2Proof/Machine/Dma.lean ====
section
/-! DEFINITION. DMA channels: descriptors, movement, errors, pause and abort (R284 to R309). -/

namespace Sys2Proof.Machine

/-! ### Waking quires (R316, R525) -/

/-- A unit asks the power manager to wake a quire (R316, R525). A request before isolation engages calls the gating off. -/
def State.askWake (s : State) (q : Nat) : State :=
  match (s.quire q).power with
  | .gated => s.modQuire q fun x => { x with power := .waking }
  | .gating => s.modQuire q fun x => { x with power := .on }
  | .on => s.activity q true
  | .waking => s

/-- The quire runs. -/
def State.quireOn (s : State) (q : Nat) : Bool := (s.quire q).power = .on || (s.quire q).power = .gating

/-- The quires whose scratchpads or quire scratch meet the `n` bytes from device byte address `a` (R270, R316). -/
def rangeQuires (a n : Nat) : List Nat :=
  if n = 0 then []
  else (List.range 80).filter fun q =>
    (a < qscratchBase q + 0x400000 && qscratchBase q < a + n) ||
    (quireTiles q).any fun t => a < scratchBase t + 0x200000 && scratchBase t < a + n

/-! ### Descriptors (R286) -/

/-- The descriptor in 64 bytes (R286). -/
def parseDesc (bs : List Byte) : Desc :=
  let w := fieldAt bs 0 8
  let l := fieldAt bs 24 8
  { op := BitVec.ofNat 4 w, ssp := BitVec.ofNat 2 (w / 16), dsp := BitVec.ofNat 2 (w / 64), last := w.testBit 8, irq := w.testBit 9,
    wen := w.testBit 10, aen := w.testBit 11, mc := w.testBit 12, cop := BitVec.ofNat 3 (w / 2 ^ 13), node := BitVec.ofNat 16 (w / 2 ^ 16),
    wt := BitVec.ofNat 13 (w / 2 ^ 32), at' := BitVec.ofNat 13 (w / 2 ^ 48), src := BitVec.ofNat 64 (fieldAt bs 8 8),
    dst := BitVec.ofNat 64 (fieldAt bs 16 8), len := BitVec.ofNat 40 l, amt := BitVec.ofNat 16 (l / 2 ^ 40),
    wval := BitVec.ofNat 64 (fieldAt bs 32 8), next := BitVec.ofNat 64 (fieldAt bs 40 8), aux := BitVec.ofNat 64 (fieldAt bs 48 8) }

/-- A reserved bit of a descriptor is set (R286). -/
def descReserved (bs : List Byte) : Bool := bitsOf (fieldAt bs 0 8) 45 3 ≠ 0 || bitsOf (fieldAt bs 0 8) 61 3 ≠ 0 || bitsOf (fieldAt bs 24 8) 56 8 ≠ 0

/-- A channel of system DMA. -/
def isSys : ChanRef → Bool
  | .sys _ => true
  | .tile _ _ => false

/-- The tile of a tile channel: m = 2k + channel (R284). -/
def chanTile : ChanRef → Nat
  | .sys _ => 0
  | .tile q m => quireTile q (m.val / 2)

/-- The device byte address of a descriptor address (R284, R286). -/
def descByte (c : ChanRef) (a : Nat) : Nat :=
  match c with
  | .sys _ => a
  | .tile _ _ => scratchBase (chanTile c) + 2 * a

/-- Words of the supervisor area of a tile (R170). -/
def supWords (x : Tile) : Nat := x.priv.supBlocks.toNat * 32

/-- A descriptor address is allowed (R290). -/
def State.descAddrOk (s : State) (c : ChanRef) (a : Nat) (task : Bool) : Bool :=
  match c with
  | .sys _ => a % 64 = 0 && match s.chanRoom c with | some r => s.ownsBytes r a 64 | none => false
  | .tile _ _ =>
    2 * a % 64 = 0 && 2 * a + 64 ≤ s.usable (chanTile c) * 1536 && (!task || supWords (s.tile (chanTile c)) ≤ a)

/-- The tiles of a multicast rectangle, the corner first; none where it leaves the die (R293). -/
def mcTiles (corner : Nat) (aux : W64) : Option (List Nat) :=
  let w := bitsOf aux.toNat 0 4 + 1
  let h := bitsOf aux.toNat 4 5 + 1
  let c := corner % 16
  let r := corner % 320 / 16
  if c + w ≤ 16 && r + h ≤ 20 then
    some ((List.range h).flatMap fun j => (List.range w).map fun i => corner / 320 * 320 + (r + j) * 16 + (c + i))
  else none

/-- The destinations of a block written at DST: its own address, or that of every tile of the rectangle (R293). None where the rectangle leaves the die or DST is no scratchpad. -/
def mcDests (d : Desc) : Option (List Nat) :=
  if !d.mc then some [d.dst.toNat]
  else match regionOf d.dst.toNat with
    | some (.scratch t off) => (mcTiles t d.aux).map fun l => l.map fun u => scratchBase u + off
    | _ => none

/-- The quire of a CACHE descriptor (R286, R287). -/
def cacheQuire (c : ChanRef) (d : Desc) : Nat :=
  match c with
  | .sys _ => d.node.toNat
  | .tile q _ => q

/-- FORMAT (R289): a reserved value, or a field that R286 to R288 forbid for the operation. COP of another operation than CACHE is not looked at: R289 names it for CACHE alone. AUX of a multicast FILL is both its pattern and its rectangle (DESIGN CHOICE, log 132). -/
def descFormatBad (c : ChanRef) (d : Desc) : Bool :=
  let op := d.op.toNat
  op = 0 || 4 < op || d.ssp = 3 || d.dsp = 3 ||
  (op = 3 && (d.cop = 0 || 4 < d.cop.toNat)) ||
  (d.node ≠ 0 && !(op = 1 && (d.ssp = 1 || d.dsp = 1)) && !(op = 3 && isSys c)) ||
  (op ≠ 1 && d.src ≠ 0) || (op = 4 && d.dst ≠ 0) ||
  (op ≤ 2 && d.len = 0) || (op = 4 && d.len ≠ 0) ||
  (op = 1 && d.ssp ≠ 0 && d.dsp ≠ 0) || (op ≠ 1 && (d.ssp ≠ 0 || d.dsp ≠ 0)) ||
  (!isSys c && (d.ssp ≠ 0 || d.dsp ≠ 0)) ||
  (d.mc && (isSys c || (op ≠ 2 && 512 ≤ d.aux.toNat))) || (d.aux ≠ 0 && !d.mc && op ≠ 2)

/-- ALIGN (R289). -/
def descAlignBad (c : ChanRef) (d : Desc) : Bool :=
  (!isSys c && (d.src.toNat % 64 ≠ 0 || d.dst.toNat % 64 ≠ 0 || d.len.toNat % 64 ≠ 0)) ||
  (d.op = 3 && (d.dst.toNat % 128 ≠ 0 || d.len.toNat % 128 ≠ 0))

/-- RANGE for room `r` (R289). -/
def State.descRangeBad (s : State) (c : ChanRef) (r : Nat) (d : Desc) : Bool :=
  let n := d.len.toNat
  match d.op.toNat with
  | 1 | 2 => (d.op = 1 && d.ssp = 0 && !s.ownsBytes r d.src.toNat n) ||
      (d.dsp = 0 && match mcDests d with | none => true | some l => l.any fun a => !s.ownsBytes r a n)
  | 3 => let q := cacheQuire c d
      80 ≤ q || s.quireRoom q ≠ some r || !(if d.dst = 0 && n = 0 then true else n ≠ 0 && s.ownsHbm r d.dst.toNat n)
  | _ => false

/-- PRIV (R289): a task-level chain has a range that meets the supervisor area of its own tile. -/
def State.descPrivBad (s : State) (c : ChanRef) (task : Bool) (d : Desc) : Bool :=
  let lo := scratchBase (chanTile c)
  let hi := lo + 2 * Nat.min (supWords (s.tile (chanTile c))) (s.usable (chanTile c) * 768)
  let meets : Nat → Bool := fun a => a < hi && lo < a + d.len.toNat
  task && d.op.toNat ≤ 2 && ((d.op = 1 && meets d.src.toNat) || ((mcDests d).getD []).any meets)

/-- The lowest failing code of R289; 0 when the descriptor is accepted. -/
def State.descCheck (s : State) (c : ChanRef) (r : Nat) (task : Bool) (bs : List Byte) (d : Desc) : Nat :=
  let owns : Nat → Bool := fun t => match (s.room r).form with | some f => formOwns f t | none => false
  if descReserved bs || descFormatBad c d then 1
  else if descAlignBad c d then 2
  else if s.descRangeBad c r d then 3
  else if s.descPrivBad c task d then 4
  else if (d.wen && !owns d.wt.toNat) || (d.aen && !owns d.at'.toNat) then 5
  else if d.aen && d.amt = 0 then 6
  else 0

/-! ### Progress of a descriptor -/

/-- Bytes a descriptor moves (R287). -/
def moveLen (d : Desc) : Nat := if d.op.toNat ≤ 2 then d.len.toNat else 0

/-- OFFSET: the bytes from the start of the range that are all known written (R297). -/
def writtenPrefix (x : Chan) : Nat :=
  let m := x.reqs.foldl (fun m r => Nat.min m r.off) x.issued
  let m := x.failed.foldl (fun m r => Nat.min m r.1) m
  match x.buf with
  | [] => m
  | (o, _) :: _ => Nat.min m o

/-- CUR_SRC, CUR_DST and CUR_LEN as the movement stands (R309). -/
def chanCursors (x : Chan) : Chan :=
  match x.desc with
  | none => x
  | some d =>
    let w := writtenPrefix x
    { x with curSrc := if d.op = 1 then d.src + BitVec.ofNat 64 x.issued else d.src,
             curDst := if d.op.toNat ≤ 2 then d.dst + BitVec.ofNat 64 w else d.dst,
             curLen := BitVec.ofNat 40 (d.len.toNat - w) }

/-- Every byte of the descriptor is written (R299). -/
def chanAllDone (x : Chan) : Bool :=
  match x.desc with
  | some d => d.op ≠ 3 && x.reqs.isEmpty && x.failed.isEmpty && x.buf.isEmpty && moveLen d ≤ x.issued
  | none => false

/-- A channel in MOVE or DRAIN whose last request has ended goes to COMPLETE (R297, R302). -/
def chanSettle (x : Chan) : Chan :=
  let x := chanCursors x
  if (x.state = .move || x.state = .drain) && x.reqs.isEmpty && (x.firstErr.isSome || chanAllDone x) then { x with state := .complete } else x

/-- A request of offsets `off` to `off + n` ends in bus error `code` (R297). After an abort took effect it is not recorded as the first error (R368). -/
def chanFail (x : Chan) (off n : Nat) (code point : Nat) : Chan :=
  { x with failed := x.failed ++ [(off, n)],
           check := if code = 21 && x.check.isNone && x.state ≠ .aborting then some (BitVec.ofNat 8 point) else x.check,
           firstErr := if x.firstErr.isNone && x.state ≠ .aborting then some (BitVec.ofNat 8 code) else x.firstErr,
           errPoint := if x.firstErr.isNone && x.state ≠ .aborting then BitVec.ofNat 8 point else x.errPoint }

/-- A read that ended and whose data is not written, since the channel issues no further request (R297, R301). -/
def chanUnwritten (x : Chan) (off n : Nat) : Chan := { x with failed := x.failed ++ [(off, n)] }

/-- The channel may issue requests for its descriptor: no bus error has come (R297) and no abort (R301). -/
def chanIssues (x : Chan) : Bool := x.firstErr.isNone && x.state ≠ .aborting

/-- The lowest free tag of a channel, with the place for the completion it will bring (R321; log 133); system channel `n` has tags 1024 n to 1024 n + 1023. A tag whose completion may still come late is not free (R383). -/
def freeTag (c : ChanRef) (x : Chan) : Option (BitVec 16) :=
  let base := match c with | .sys n => 1024 * n.val | .tile _ _ => 0
  ((List.range 1024).find? fun i => (x.reqs.all fun r => r.tag.toNat ≠ base + i) && x.gone.all fun g => g.toNat ≠ base + i).map fun i => BitVec.ofNat 16 (base + i)

/-- A channel starts at a descriptor address (R285, R293, R302). -/
def chanStart (x : Chan) (a : W64) (task : Bool) : Chan :=
  { x with state := if x.pause then .paused else .fetch, after := .fetch, curDesc := a, task := task, credit := 4096, desc := none,
           issued := 0, reqs := [], buf := [], failed := [], firstErr := none, check := none, errPoint := 0 }

/-- The channel is idle (R285). -/
def chanIdle (x : Chan) : Bool := x.state = .idle || x.state = .error

/-- A channel enters ERROR (R296, R302). For DESC_IO the room is told (R387). -/
def State.chanError (s : State) (c : ChanRef) (code : Nat) : State :=
  let s := s.modChanEvt c fun x => { x with state := .error, code := BitVec.ofNat 8 code, errEvt := true, desc := none }
  match s.chanRoom c with
  | some r => if code = 24 then s.policyFault r 14 24 else s
  | none => s

/-- The STATUS of a descriptor: OFFSET, CODE and STATE (R286). False when the write failed. -/
def State.putStatus (s : State) (c : ChanRef) (st code off : Nat) : Bool × State :=
  s.writeMem (descByte c (s.chan c).curDesc.toNat + 56) (leBytes 8 (off % 2 ^ 40 + code * 2 ^ 48 + st * 2 ^ 56))

/-! ### Starting (R285, R293, R307) -/

/-- START_DMA or DMAGO starts an idle channel; false when it is not idle (R285). -/
def State.dmaStart (s : State) (c : ChanRef) (a : Nat) (task : Bool) : Bool × State :=
  if chanIdle (s.chan c) then
    let s := if isSys c then s.leaveIdle.activity 2 false else s
    (true, s.modChan c fun x => chanStart x (BitVec.ofNat 64 a) task)
  else (false, s)

/-- Abort a channel (R301): new requests stop at once. -/
def State.chanAbort (s : State) (c : ChanRef) : State :=
  let x := s.chan c
  if chanIdle x || x.state = .aborting then s
  else
    let s := s.dropWait (.chan c)
    s.modChan c fun x => { x with state := .aborting, after := if x.state = .complete && x.firstErr.isNone then .complete else .idle }

/-- PAUSE clears: PAUSED goes on to the state it would have entered, and DRAIN returns to MOVE (R299, R302). -/
def State.chanResume (s : State) (c : ChanRef) : State :=
  let x := s.chan c
  match x.state with
  | .drain => s.modChan c fun x => { x with state := .move }
  | .paused =>
    match x.after, x.desc with
    | .wait, some d =>
      match s.registerWait (.chan c) d.wt.toNat d.wval with
      | (true, s) => s.modChan c fun x => endChanWait { x with state := .wait }
      | (false, s) => s.modChan c fun x => { x with state := .wait }
    | .move, _ => s.modChan c fun x => chanSettle (endChanWait x)
    | a, _ => s.modChan c fun x => { x with state := a }
  | _ => s

/-- A write of DMA_CH[n].CTRL (R285, R299, R301, R307). ABORT wins over PAUSE and GO. -/
def State.dmaCtrlWrite (s : State) (c : ChanRef) (v : Nat) : State :=
  let was := (s.chan c).pause
  let now := v.testBit 1
  let s := s.modChan c fun x => { x with ctrlDesc := BitVec.ofNat 50 (v / 64), pause := now }
  if v.testBit 2 then s.chanAbort c
  else
    let s := if was && !now then s.chanResume c
      else if now && (s.chan c).state = .move then s.modChan c fun x => { x with state := .drain } else s
    if v.testBit 0 then
      if chanIdle (s.chan c) then (s.leaveIdle.activity 2 false).modChan c fun x => chanStart x (BitVec.ofNat 64 (v / 64 * 64 % 2 ^ 56)) false
      else s.modChanEvt c fun x => { x with goRefused := true }
    else s

/-! ### Fetch (R289 to R292, R302) -/

/-- The channel has accepted a descriptor: PAUSED, WAIT or the movement (R302). -/
def State.descAccepted (s : State) (c : ChanRef) (d : Desc) : State :=
  let s := s.modChan c fun x => chanCursors { x with desc := some d, issued := 0, reqs := [], buf := [], failed := [], firstErr := none, check := none, errPoint := 0 }
  if (s.chan c).pause then s.modChan c fun x => { x with state := .paused, after := if d.wen then .wait else .move }
  else if d.wen then
    match s.registerWait (.chan c) d.wt.toNat d.wval with
    | (true, s) => s.modChan c fun x => endChanWait { x with state := .wait }
    | (false, s) => s.modChan c fun x => { x with state := .wait }
  else s.modChan c endChanWait

/-- The completion advance of a refused descriptor is refused with it, and reported (R95, R97, R123, R289): AT outside the room's ranges, or AMT 0. A refusal for the wait alone refuses no advance. -/
def State.refuseDescAdvance (s : State) (c : ChanRef) (r : Nat) (d : Desc) : State :=
  match s.advanceCheck r d.at'.toNat d.amt.toNat with
  | 0 => s
  | code => s.refuseAdvance r code (if isSys c then 2 else 1) d.at'.toNat

/-- The channel fetches the descriptor at CUR_DESC and checks it (R289, R290). A gated quire that holds it is woken first (R316). -/
def State.descFetch (s : State) (c : ChanRef) (r : Nat) : State :=
  let x := s.chan c
  let a := x.curDesc.toNat
  if !s.descAddrOk c a x.task then s.chanError c 7
  else
    let b := descByte c a
    let asleep := (rangeQuires b 64).filter fun q => !s.quireOn q
    if !asleep.isEmpty then forL asleep (fun q s => s.askWake q) s
    else match s.readMem b 64 with
      | (none, s) => s.chanError c 24
      | (some bs, s) =>
        let d := parseDesc bs
        match s.descCheck c r x.task bs d with
        | 0 => s.descAccepted c d
        | code =>
          let s := if d.aen && (code = 5 || code = 6) then s.refuseDescAdvance c r d else s
          match s.putStatus c 3 code 0 with
          | (true, s) => s.modChanEvt c fun x => { x with state := .error, code := BitVec.ofNat 8 code, errEvt := true }
          | (false, s) => s.chanError c 24

/-- DESCRIPTOR_FETCH (R289). -/
def execDescriptorFetch (c : ChanRef) (s : State) : Host.Outcome State Fault Refusal :=
  .next (match s.chanRoom c, (s.chan c).state with
    | some r, .fetch => s.descFetch c r
    | _, _ => s)

/-! ### Movement (R287, R294, R361) -/

/-- The piece at byte address `p` with `r` bytes left in its 64-byte block: the largest aligned power of two (R294). -/
def pieceSize (p r : Nat) : Nat :=
  match [64, 32, 16, 8, 4, 2, 1].find? fun n => p % n = 0 && n ≤ r with
  | some n => n
  | none => 1

/-- The pieces of `n` bytes from address `p`: (address, size) (R294). -/
def pieces : Nat → Nat → Nat → List (Nat × Nat)
  | 0, _, _ => []
  | fuel + 1, p, n =>
    if n = 0 then []
    else
      let k := pieceSize p (Nat.min n (64 - p % 64))
      (p, k) :: pieces fuel (p + k) (n - k)

/-- The quires that a descriptor addresses (R316). -/
def descQuires (c : ChanRef) (d : Desc) : List Nat :=
  match d.op.toNat with
  | 1 => (if d.ssp = 0 then rangeQuires d.src.toNat d.len.toNat else []) ++
      (if d.dsp = 0 then ((mcDests d).getD []).flatMap (fun a => rangeQuires a d.len.toNat) else [])
  | 2 => ((mcDests d).getD []).flatMap fun a => rangeQuires a d.len.toNat
  | 3 => [cacheQuire c d]
  | _ => []

/-- The JOB_ID that requests of room `r` carry (R304). -/
def State.roomJob (s : State) (r : Nat) : W32 :=
  match (s.room r).form with | some f => if f.ftCount = 0 then 0 else f.jobId | none => 0

/-- The function of room `r` can reach the host: the link is up and Bus Master Enable is 1 (R428). -/
def State.hostReach (s : State) (f : Nat) : Bool := s.pcie.linkUp && (s.fn f).busMaster

/-- A request packet of room `r` (R332). -/
def State.reqPacket (s : State) (r op : Nat) (node : BitVec 16) (tag : BitVec 16) (addr n : Nat) (bs : List Byte) : Packet :=
  { op := BitVec.ofNat 4 op, cls := 3, v := false, dst := node, src := BitVec.ofNat 16 s.devNo, tag := tag, jobId := s.roomJob r,
    addr := BitVec.ofNat 56 addr, err := 0, len := BitVec.ofNat 8 n, payload := bs, pchk := 0 }

/-- Send a request packet. None when it is on its way; otherwise the bus error and its handover point (R333, R365). -/
def State.sendReq (s : State) (r : Nat) (k : Packet) : Option (Nat × Nat) × State :=
  match s.originate r 21 k with
  | (none, s) => (some (21, 5), s)
  | (some false, s) => (some (19, 0), s)
  | (some true, s) => (none, s)

/-- Write the bytes of one destination piece. The answer is the bus error and its point where it fails at once; a remote write stays outstanding (R294, R333, R365, R417). -/
def State.writePiece (s : State) (c : ChanRef) (r : Nat) (d : Desc) (h : Hand) (off : Nat) (bs : List Byte) : State :=
  let a := d.dst.toNat + off
  let fail : State → Nat → Nat → State := fun s code pt => s.modChan c fun x => chanFail x off bs.length code pt
  match d.dsp.toNat with
  | 0 =>
    let (ok, s) := s.writeMem a bs
    if ok then s.injectStored h (granules a bs.length) else fail s 17 0
  | 1 => match freeTag c (s.chan c) with
    | none => s
    | some tag => if h = .storeUe then fail (s.handBad 5 r 21 0 true) 21 5 else
      match (s.addCorrected 5 (bit (h = .storeCe))).sendReq r (s.reqPacket r 2 d.node tag a bs.length bs) with
      | (some (code, pt), s) => fail s code pt
      | (none, s) => s.modChan c fun x => { x with reqs := x.reqs ++ [{ tag := tag, off := off, len := bs.length, writing := true }] }
  | _ =>
    if !s.hostReach (r + 1) then fail s 20 0
    else if h = .storeUe then fail (s.handBad 2 r 21 0 true) 21 2
    else match (s.addCorrected 2 (bit (h = .storeCe))).handList 2 r 21 (List.replicate ((bs.length + 7) / 8) 0) with
      | (none, s) => fail s 21 2
      | (some _, s) => s.emit (.hostWrite (Fin.ofNat 17 (r + 1)) (BitVec.ofNat 64 a) bs)

/-- Write the bytes at offsets `off` of a destination block, piece by piece in address order. A piece that fails ends the block. -/
def State.writePieces (s : State) (c : ChanRef) (r : Nat) (d : Desc) (h : Hand) : List (Nat × Nat) → List Byte → State
  | [], _ => s
  | (p, n) :: rest, bs =>
    let before := (s.chan c).failed.length
    let s := s.writePiece c r d h (p - d.dst.toNat) (bs.take n)
    if before < (s.chan c).failed.length then s else s.writePieces c r d .ok rest (bs.drop n)

/-- The bytes that wait in the funnel for offsets `lo` up to `hi`, in order. -/
def bufBytes (x : Chan) (lo hi : Nat) : List (Nat × Byte) :=
  (x.buf.filter fun e => lo ≤ e.1 && e.1 < hi).filterMap fun e => e.2.map fun b => (e.1, b)

/-- A remote write of `n` pieces has a tag and a place for each acknowledgement (R321). -/
def tagsFor (c : ChanRef) (x : Chan) (d : Desc) (n : Nat) : Bool :=
  d.dsp ≠ 1 || x.reqs.length + x.gone.length + n ≤ 1024 && (freeTag c x).isSome

/-- The bytes waiting for one destination block are written, after point 4 (R361). They wait while a remote write has no place for its acknowledgements (R321), and stay unwritten once the channel issues nothing more (R297, R301). -/
def State.flushBlock (s : State) (c : ChanRef) (r : Nat) (d : Desc) (lo hi : Nat) : State :=
  match bufBytes (s.chan c) lo hi with
  | [] => s
  | (o, b) :: l =>
    let bs := b :: l.map fun e => e.2
    let ps := pieces bs.length (d.dst.toNat + o) bs.length
    if !(chanIssues (s.chan c) && tagsFor c (s.chan c) d ps.length) then s
    else
    let s := s.modChan c fun x => { x with buf := Tbl.clear x.buf lo hi }
    let room := r
    let addr := if d.dsp = 0 then d.dst.toNat + o else 0
    match s.handover 4 room 21 addr with
    | (.fail, s) => s.modChan c fun x => chanFail x o bs.length 21 4
    | (h, s) => s.writePieces c r d h ps bs

/-- The destination block of offset `off`: the offsets from `lo` up to `hi` (R294). -/
def blockOf (d : Desc) (off : Nat) : Nat × Nat :=
  let a := d.dst.toNat + off
  let lo := a / 64 * 64
  (lo - d.dst.toNat, Nat.min (lo + 64 - d.dst.toNat) d.len.toNat)

/-- The block holds no byte still to be read, being read, or failed. -/
def blockReady (x : Chan) (lo hi : Nat) : Bool :=
  hi ≤ x.issued && (x.reqs.all fun r => r.writing || r.off + r.len ≤ lo || hi ≤ r.off) && x.failed.all fun r => r.1 + r.2 ≤ lo || hi ≤ r.1

/-- Every complete destination block that waits in the funnel is written (R294, R361). -/
def State.flushReady (s : State) (c : ChanRef) (r : Nat) (d : Desc) : State :=
  forL ((s.chan c).buf.map fun e => blockOf d e.1).eraseDups (fun b s => if blockReady (s.chan c) b.1 b.2 then s.flushBlock c r d b.1 b.2 else s) s

/-- Read data enters the funnel, and every destination block that is complete is written (R294, R361). -/
def State.funnel (s : State) (c : ChanRef) (r : Nat) (d : Desc) (off : Nat) (bs : List Byte) : State :=
  (s.modChan c fun x => { x with buf := forN bs.length (fun i t => Tbl.put none t (off + i) (some (bs.getD i 0))) x.buf }).flushReady c r d

/-- A read piece of system DMA has its data: point 3 for each granule, then the funnel (R358, R361). -/
def State.pieceRead (s : State) (c : ChanRef) (r : Nat) (d : Desc) (off : Nat) (bs : List Byte) : State :=
  match s.handList 3 r 21 ((granules (d.src.toNat + off) bs.length).map fun g => if d.ssp = 0 then 8 * g else 0) with
  | (none, s) => s.modChan c fun x => chanFail x off bs.length 21 3
  | (some _, s) => s.funnel c r d off bs

/-- Remove the outstanding request with `tag`. -/
def dropReq (x : Chan) (tag : BitVec 16) : Chan := { x with reqs := x.reqs.filter fun r => r.tag ≠ tag }

/-- The read of a piece from this device's memory ends (R293, R297, R369). -/
def State.localRead (s : State) (c : ChanRef) (r : Nat) (d : Desc) (q : DmaReq) : State :=
  let a := d.src.toNat + q.off
  let s := if isSys c then s.countCorrected 3 a q.len else s
  match s.readMem a q.len with
  | (none, s) => s.modChan c fun x => chanFail x q.off q.len 16 0
  | (some bs, s) =>
    if isSys c then s.pieceRead c r d q.off bs
    else if !chanIssues (s.chan c) then s.modChan c fun x => chanUnwritten x q.off q.len
    else forL ((mcDests d).getD []) (fun b s => (s.writeMem (b + q.off) bs).2) s

/-- Data that passed points 1 or 7 goes on to point 3. A bit that an injection flipped after the handover is corrected there; two are uncorrectable (R353, R372). -/
def State.pieceArrived (s : State) (c : ChanRef) (r : Nat) (d : Desc) (q : DmaReq) (hs : List Hand) (bs : List Byte) : State :=
  if hs.contains .storeUe then (s.handBad 3 r 21 0 true).modChan c fun x => chanFail x q.off q.len 21 3
  else (s.addCorrected 3 (hs.filter fun h => h = .storeCe).length).pieceRead c r d q.off (padTo q.len bs)

/-- A host read ends with data: point 1 for each granule, then the piece (R358, R365). -/
def State.hostReadDone (s : State) (c : ChanRef) (r : Nat) (d : Desc) (q : DmaReq) (bs : List Byte) : State :=
  match s.handList 1 r 21 (List.replicate ((q.len + 7) / 8) 0) with
  | (none, s) => s.modChan c fun x => chanFail x q.off q.len 21 1
  | (some hs, s) => s.pieceArrived c r d q hs bs

/-- A request of an accepted descriptor ends: with data from memory or the host, or with a PCIe error (R297, R366). Requests on the fabric end by WACK, RDATA and ERR. -/
def State.reqComplete (s : State) (c : ChanRef) (r : Nat) (d : Desc) (q : DmaReq) (e : ReqEnd) : State :=
  let t := s.modChan c fun x => dropReq x q.tag
  if q.writing || d.ssp = 1 then s
  else if d.ssp = 0 then (t.localRead c r d q).modChan c chanSettle
  else match e with
    | .ok bs => (t.hostReadDone c r d q bs).modChan c chanSettle
    | .err code =>
      if code = 21 then ((t.handFail 1 r 21 0).modChan c fun x => chanFail x q.off q.len 21 1).modChan c chanSettle
      else if code = 20 then (t.modChan c fun x => chanFail x q.off q.len 20 0).modChan c chanSettle
      else s

/-- A completion that no request of the channel expects: one that a function-level reset gave up on is dropped and counted (R383). -/
def State.lateCompletion (s : State) (c : ChanRef) (tag : BitVec 16) : State :=
  if (s.chan c).gone.contains tag then
    let s := s.modChan c fun x => { x with gone := x.gone.erase tag }
    match s.chanRoom c with
    | some r => (s.modRoom r fun x => { x with lateCpl := x.lateCpl + 1 }).raiseRoom r 64
    | none => s
  else s

/-- REQUEST_COMPLETE (R297, R383). A request whose packet a router dropped has no completion (R364). -/
def execRequestComplete (c : ChanRef) (tag : BitVec 16) (e : ReqEnd) (s : State) : Host.Outcome State Fault Refusal :=
  .next (let x := s.chan c
    match s.chanRoom c, x.desc, x.reqs.find? fun r => r.tag = tag with
    | some r, some d, some q => if q.lost then s else s.reqComplete c r d q e
    | _, _, none => s.lateCompletion c tag
    | _, _, _ => s)

/-- TIMEOUT (R296): a request without a completion for #6210.01 µs is a bus error. -/
def execTimeout (c : ChanRef) (tag : BitVec 16) (s : State) : Host.Outcome State Fault Refusal :=
  .next (match (s.chan c).reqs.find? fun r => r.tag = tag with
    | some q => s.modChan c fun x => chanSettle (chanFail (dropReq x tag) q.off q.len 22 0)
    | none => s)

/-! ### Issue (R287, R294, R295) -/

/-- A credit after `cyc` mesh cycles at `share` (R295, R384). -/
def creditGrow (credit share cyc cap : Nat) : Nat := Nat.min cap (credit + 4 * share * cyc)

/-- The credits of the channel and its room after the mesh cycles since its last piece, which are free (R295, R384; log 3), and whether they cover `n` bytes. They fall by `n` when they do. -/
def State.takeCredit (s : State) (c : ChanRef) (r n : Nat) : Bool × State :=
  match c with
  | .tile _ _ => (true, s)
  | .sys _ =>
    let cyc := (s.freeVal 32).toNat
    let s := s.spend
    let x := s.chan c
    let rate := match (s.room r).form with | some f => f.dmaRate.toNat | none => 0
    let mine := creditGrow x.credit x.share.toNat cyc 4096
    let rooms := creditGrow (s.room r).dmaCredit rate cyc 16384
    let ok := (x.share = 0 || n ≤ mine) && n ≤ rooms
    let cut : Nat → Nat := fun v => if ok then v - n else v
    (ok, (s.modChan c fun x => { x with credit := cut mine }).modRoom r fun y => { y with dmaCredit := cut rooms })

/-- The data-mesh links from a channel to the memory of this device that a piece is read from; none for a read that leaves through the hub at which system DMA sits (R312, R314). -/
def State.readPath (s : State) (c : ChanRef) (d : Desc) (a : Nat) : List MeshLink :=
  let n : MeshNode := if isSys c then .hub else tileNode (chanTile c)
  if d.ssp = 0 then linksOf n (dataWay n (s.memNode a)) else []

/-- Issue the read of one piece (R294). A space-2 read of a host that cannot be reached fails at once (R428). -/
def State.issueRead (s : State) (c : ChanRef) (r : Nat) (d : Desc) (off n : Nat) : State :=
  match freeTag c (s.chan c) with
  | none => s
  | some tag =>
    let a := d.src.toNat + off
    let s := s.modChan c fun x => { x with issued := off + n }
    let path := s.readPath c d a
    let out : State → State := fun s => s.modChan c fun x => { x with reqs := x.reqs ++ [{ tag := tag, off := off, len := n, writing := false, space := (n + 63) / 64, path := path, hop := Nat.min 1 path.length }] }
    let fail : State → Nat → Nat → State := fun s code pt => s.modChan c fun x => chanFail x off n code pt
    match d.ssp.toNat with
    | 0 => out s
    | 1 => match s.sendReq r (s.reqPacket r 1 d.node tag a n []) with
      | (some (code, pt), s) => fail s code pt
      | (none, s) => out s
    | _ => if s.hostReach (r + 1) then (out s).emit (.hostRead (Fin.ofNat 17 (r + 1)) (BitVec.ofNat 64 a) n) else fail s 20 0

/-- The pattern bytes of FILL for `n` bytes from address `a`: byte a mod 8 of AUX (R287). -/
def fillBytes (aux : W64) (a n : Nat) : List Byte := (List.range n).map fun i => BitVec.ofNat 8 (aux.toNat / 2 ^ (8 * ((a + i) % 8)))

/-- FILL writes its next destination block (R287, R361), with MC in every tile of the rectangle (R293). -/
def State.issueFill (s : State) (c : ChanRef) (r : Nat) (d : Desc) (off : Nat) : State :=
  let (_, hi) := blockOf d off
  let bs := fillBytes d.aux (d.dst.toNat + off) (hi - off)
  let s := s.modChan c fun x => { x with issued := hi }
  if isSys c then
    (s.modChan c fun x => { x with buf := forN bs.length (fun i t => Tbl.put none t (off + i) (some (bs.getD i 0))) x.buf }).flushBlock c r d off hi
  else forL ((mcDests d).getD []) (fun b s => (s.writeMem (b + off) bs).2) s

/-- CACHE carries out its operation on the lines of its range (R265, R287). -/
def State.issueCache (s : State) (c : ChanRef) (d : Desc) : State :=
  let s := s.cacheOp (cacheQuire c d) d.cop.toNat (d.dst = 0 && d.len = 0) (d.dst.toNat / 128) (d.len.toNat / 128)
  s.modChan c fun x => { x with state := .complete, issued := d.len.toNat }

/-- The channel issues its next piece (R294, R295). No request goes to a quire that does not run (R316), and none without a tag, a place for its completion and a credit of the mesh (R319, R321): such a piece waits, and the rate limiters are not charged. -/
def State.issuePiece (s : State) (c : ChanRef) (r : Nat) (d : Desc) : State :=
  let x := s.chan c
  let asleep := (descQuires c d).filter fun q => !s.quireOn q
  if !asleep.isEmpty then forL asleep (fun q s => s.askWake q) s
  else match d.op.toNat with
    | 1 =>
      let a := d.src.toNat + x.issued
      let n := pieceSize a (Nat.min (d.len.toNat - x.issued) (64 - a % 64))
      let s := s.meshRun
      if (freeTag c (s.chan c)).isNone || !s.meshFree (s.readPath c d a) then s
      else match s.takeCredit c r n with
        | (true, s) => (s.issueRead c r d x.issued n).modChan c chanSettle
        | (false, s) => s
    | 2 => (s.issueFill c r d x.issued).modChan c chanSettle
    | 3 => s.issueCache c d
    | _ => s

/-- PIECE_ISSUE (R294): a channel in MOVE without an error issues its next piece. -/
def execPieceIssue (c : ChanRef) (s : State) : Host.Outcome State Fault Refusal :=
  .next (let x := s.chan c
    match s.chanRoom c, x.desc with
    | some r, some d =>
      if x.state = .move && x.firstErr.isNone && (d.op = 3 || x.issued < moveLen d) then s.issuePiece c r d else s
    | _, _ => s)

/-! ### Completion (R291, R296, R297, R300) -/

/-- A descriptor written BAD is counted and told to its room (R297, R387, R390). -/
def State.badDesc (s : State) (c : ChanRef) (r code point : Nat) : State :=
  let s : State := { s with dev := { s.dev with dmaBad := s.dev.dmaBad + 1 } }
  let s := s.modChanEvt c fun x => { x with errEvt := true, code := BitVec.ofNat 8 code }
  if code = 21 then s.policyFault r 15 point else s.policyFault r 14 code

/-- The advance and DONE_EVT of a descriptor that ended DONE or BAD (R291). -/
def State.descEnd (s : State) (c : ChanRef) (r : Nat) (d : Desc) (done : Bool) : State :=
  let s := if done && d.aen then s.issueAdvance r d.at'.toNat d.amt.toNat (if isSys c then 2 else 1) else s
  if d.irq then s.modChanEvt c fun x => { x with doneEvt := true } else s

/-- STATUS, advance and event of the descriptor, as R291 orders them. False when the STATUS write failed. -/
def State.finishDesc (s : State) (c : ChanRef) (r : Nat) (d : Desc) : Bool × State :=
  let x := s.chan c
  match x.firstErr with
  | some code =>
    match s.putStatus c 2 code.toNat (writtenPrefix x) with
    | (true, s) => (true, (s.badDesc c r code.toNat x.errPoint.toNat).descEnd c r d false)
    | (false, s) => (false, s)
  | none =>
    match s.putStatus c 1 0 (moveLen d) with
    | (true, s) => (true, s.descEnd c r d true)
    | (false, s) => (false, s)

/-- The quires that do not run and hold the STATUS to be written (R316). -/
def State.statusAsleep (s : State) (c : ChanRef) : List Nat :=
  let x := s.chan c
  if x.desc.isNone then [] else (rangeQuires (descByte c x.curDesc.toNat + 56) 8).filter fun q => !s.quireOn q

/-- The quires that hold the STATUS are woken, and the channel waits (R316). -/
def State.wakeForStatus (s : State) (c : ChanRef) : State := forL (s.statusAsleep c) (fun q s => s.askWake q) s

/-- DESCRIPTOR_COMPLETE (R291, R302): the descriptor ends and the channel goes to NEXT, or the chain ends. Its STATUS is written once the quire that holds it runs (R316). -/
def execDescriptorComplete (c : ChanRef) (s : State) : Host.Outcome State Fault Refusal :=
  .next (match s.chanRoom c, (s.chan c).desc, (s.chan c).state with
    | some r, some d, .complete =>
      if !(s.statusAsleep c).isEmpty then s.wakeForStatus c
      else match s.finishDesc c r d with
      | (false, s) => s.chanError c 24
      | (true, s) =>
        if d.last then s.modChan c fun x => { x with state := .idle, desc := none }
        else s.modChan c fun x => { x with state := if x.pause then .paused else .fetch, after := .fetch, desc := none, curDesc := d.next }
    | _, _, _ => s)

/-- DRAIN_DONE (R299): every read issued has been written, the last block in part, and the channel is PAUSED. -/
def execDrainDone (c : ChanRef) (s : State) : Host.Outcome State Fault Refusal :=
  .next (let x := s.chan c
    match s.chanRoom c, x.desc with
    | some r, some d =>
      if x.state = .drain && (x.reqs.all fun q => q.writing) then
        let s := match x.buf with
          | [] => s
          | (o, _) :: _ => s.flushBlock c r d o (blockOf d o).2
        let y := chanSettle (s.chan c)
        if y.state = .drain && y.reqs.isEmpty && y.buf.isEmpty then s.setChan c { y with state := .paused, after := .move } else s.setChan c y
      else s
    | _, _ => s)

/-- The descriptor in hand of an aborting channel is written: DONE where every write had completed, BAD for a handover failure before the abort, else ABORTED (R301, R368). -/
def State.abortDesc (s : State) (c : ChanRef) (r : Nat) (d : Desc) : Bool × State :=
  let x := s.chan c
  if x.after = .complete then s.finishDesc c r d
  else match x.check with
  | some pt => (s.modChan c fun x => { x with firstErr := some 21, errPoint := pt }).finishDesc c r d
  | none => match s.putStatus c 4 32 (writtenPrefix x) with
    | (ok, s) => (ok, s.modChan c fun x => { x with code := 32 })

/-- An aborting channel with no request outstanding ends (R301). -/
def State.abortEnd (s : State) (c : ChanRef) (r : Nat) : State :=
  let s := match (s.chan c).desc with
    | some d => (s.abortDesc c r d).2
    | none => s.modChan c fun x => { x with code := 32 }
  s.modChanEvt c fun x => { x with state := .idle, desc := none, reqs := [], buf := [], abortedEvt := true }

/-! ### Registers (R307 to R309) -/

/-- The code of a channel state (R302). -/
def chanStateCode : ChanState → Nat
  | .idle => 0 | .fetch => 1 | .wait => 2 | .move => 3 | .drain => 4 | .paused => 5 | .complete => 6 | .error => 7 | .aborting => 8

/-- STAT of a channel (R308). -/
def chanStat (x : Chan) : W32 :=
  BitVec.ofNat 32 (chanStateCode x.state + 256 * bit x.doneEvt + 512 * bit x.errEvt + 1024 * bit x.abortedEvt + 2048 * bit x.goRefused + 65536 * x.code.toNat)

/-- A write of STAT clears the event bits written 1 (R308); the source is looked at again (R393). -/
def State.chanStatWrite (s : State) (c : ChanRef) (v : Nat) : State :=
  (s.modChan c fun x => { x with doneEvt := x.doneEvt && !v.testBit 8, errEvt := x.errEvt && !v.testBit 9,
                                 abortedEvt := x.abortedEvt && !v.testBit 10, goRefused := x.goRefused && !v.testBit 11 }).srcWritten (chanSource c)

end Sys2Proof.Machine
end

