-- ==== Sys2Proof/Machine/Frames.lean ====
section
/-! DEFINITION. Bilbin frames, their check and TAG, the mailbox rings, and how a frame is sent (R366, R422 to R424, R445 to R451). -/

namespace Sys2Proof.Machine

/-! ### Frames (R445) -/

/-- The 40-byte header of a frame (R445). -/
def frameHead (f : Frame) : List Byte :=
  [f.ver, f.op] ++ leBytes 2 f.flags.toNat ++ leBytes 4 f.session.toNat ++ leBytes 4 f.client.toNat ++ leBytes 4 f.cseq.toNat ++
  leBytes 2 f.index.toNat ++ [f.sub, f.status] ++ leBytes 2 f.length.toNat ++ leBytes 2 f.segment.toNat ++ leBytes 4 f.total.toNat ++
  leBytes 8 f.accession.toNat ++ leBytes 4 f.subId.toNat

/-- The bytes of a frame (R445). -/
def frameBytes (f : Frame) : List Byte := frameHead f ++ f.payload ++ f.tag ++ leBytes 4 f.crc.toNat

/-- The frame's length is 60 + LENGTH and its CRC is right (R445). -/
def frameGood (f : Frame) : Bool :=
  f.length.toNat = f.payload.length && f.tag.length = 16 && f.crc = crc32c (frameHead f ++ f.payload ++ f.tag)

/-- The frame in a mailbox slot or a datagram; none where the bytes end before the header does (R366, R445). -/
def parseFrame (bs : List Byte) : Option Frame :=
  if bs.length < 40 then none
  else
    let rest := bs.drop 40
    let n := rest.length - 20
    some { ver := BitVec.ofNat 8 (fieldAt bs 0 1), op := BitVec.ofNat 8 (fieldAt bs 1 1), flags := BitVec.ofNat 16 (fieldAt bs 2 2),
           session := BitVec.ofNat 32 (fieldAt bs 4 4), client := BitVec.ofNat 32 (fieldAt bs 8 4), cseq := BitVec.ofNat 32 (fieldAt bs 12 4),
           index := BitVec.ofNat 16 (fieldAt bs 16 2), sub := BitVec.ofNat 8 (fieldAt bs 18 1), status := BitVec.ofNat 8 (fieldAt bs 19 1),
           length := BitVec.ofNat 16 (fieldAt bs 20 2), segment := BitVec.ofNat 16 (fieldAt bs 22 2), total := BitVec.ofNat 32 (fieldAt bs 24 4),
           accession := BitVec.ofNat 64 (fieldAt bs 28 8), subId := BitVec.ofNat 32 (fieldAt bs 36 4),
           payload := rest.take n, tag := (rest.drop n).take 16, crc := BitVec.ofNat 32 (leNat (rest.drop (n + 16))) }

/-- A frame with its CRC. -/
def withCrc (f : Frame) : Frame := { f with crc := crc32c (frameHead f ++ f.payload ++ f.tag) }

/-- The TAG of a frame under a session key (R450). -/
def frameTag (ks : List Byte) (f : Frame) : List Byte := padTo 16 (Config.hmac ks (frameHead f ++ f.payload))

/-! ### Sessions (R448 to R451) -/

/-- A key slot; 255 is the slot of R451. -/
def State.slotOf (s : State) (k : Nat) : KeySlot :=
  if k = 255 then { len := 32, key := zeros 32, perm := 31, rooms := 0xFFFF, base := 1, count := 255 } else s.keySlot k

/-- The session, where it is open on the transport. -/
def State.openSession (s : State) (transport : BitVec 8) (number : W32) : Option Session :=
  s.bil.sessions.find? fun x => x.number = number && x.transport = transport && x.isOpen

/-- Sessions end, and with them their subscriptions and snapshots (R450, R453, R463). -/
def State.endSessions (s : State) (p : Session → Bool) : State :=
  let gone := (s.bil.sessions.filter p).map fun x => x.number
  { s with bil := { s.bil with sessions := s.bil.sessions.filter fun x => !p x,
                               subs := s.bil.subs.filter fun x => !gone.contains x.session,
                               snapshots := s.bil.snapshots.filter fun x => !gone.contains x.session } }

/-! ### The mailbox (R422 to R424) -/

def State.modMbx (s : State) (f : Nat) (g : Mbx → Mbx) : State := s.modFn f fun x => { x with mbx := g x.mbx }

/-- EN clears: frames not yet written are dropped, and the mailbox's sessions end (R424, R450). -/
def State.mbxStop (s : State) (f : Nat) : State :=
  (s.modMbx f fun m => { m with en := false, waiting := [] }).endSessions fun x => x.transport.toNat = 2 + f

/-- An error of R424: MBX_STAT and HOST_EVT.MBX_ERR. HOST and OVERRUN clear EN. -/
def State.mbxError (s : State) (f code : Nat) : State :=
  let s := (s.modMbx f fun m => { m with stat := BitVec.ofNat 4 code }).raiseHost f 2
  if code = 2 || code = 4 then s.mbxStop f else s

/-- Response slots that hold frames the host has not read. -/
def rspUsed (m : Mbx) : Nat := (m.rspTail - m.rspHead).toNat
/-- Request slots that the part has not read. -/
def reqUsed (m : Mbx) : Nat := (m.reqTail - m.reqHead).toNat

/-- The address of slot `i` of a ring (R422). -/
def slotAddr (base : W64) (log2 : BitVec 4) (i : BitVec 16) : W64 := base + BitVec.ofNat 64 (2048 * (i.toNat % 2 ^ log2.toNat))

/-- Waiting frames go to the response ring while it has room (R423), at most `n`. -/
def State.mbxPump (s : State) (f : Nat) : Nat → State
  | 0 => s
  | n + 1 =>
    let m := (s.fn f).mbx
    match m.waiting with
    | [] => s
    | fr :: rest =>
      if !m.en || 2 ^ m.log2.toNat ≤ rspUsed m then s
      else if !s.hostReach f then s.mbxError f 2
      else
        let bs := frameBytes fr
        let s := s.emit (.hostWrite (Fin.ofNat 17 f) (slotAddr m.rspBase m.log2 m.rspTail) (leBytes 2 bs.length ++ zeros 2 ++ bs))
        let s := (s.modMbx f fun m => { m with waiting := rest, rspTail := m.rspTail + 1 }).raiseHost f 4
        (if m.irq then s.sendMsix f m.vec.toNat else s).mbxPump f n

/-- The part sends a frame through a mailbox (R423). A disabled mailbox drops it. -/
def State.mbxSend (s : State) (f : Nat) (fr : Frame) : State :=
  if (s.fn f).mbx.en then
    let s := s.modMbx f fun m => { m with waiting := m.waiting ++ [fr] }
    s.mbxPump f (s.fn f).mbx.waiting.length
  else s

/-! ### Sending -/

/-- The block that carries a reply on SMBus (R444). -/
def smbusBlock (f : Frame) : List Byte :=
  let bs := [f.op, f.status] ++ leBytes 8 f.accession.toNat ++ [BitVec.ofNat 8 f.payload.length] ++ f.payload
  bs ++ leBytes 4 (crc32c bs).toNat

/-- Transport codes: 0 and 1 Ethernet, 2 + f the mailbox of function f, 19 SMBus (R465, R466). -/
def State.putFrame (s : State) (transport : BitVec 8) (f : Frame) : State :=
  if transport.toNat < 2 then s.emit (.frame transport f)
  else if transport.toNat < 19 then s.mbxSend (transport.toNat - 2) f
  else { s with bil := { s.bil with smbusReply := some (smbusBlock f), smbusWait := none } }

/-- A frame passes point 9 and is sent. After a failure it is built again; after three its session is closed (R365). -/
def State.sendTries (s : State) (transport : BitVec 8) (f : Frame) : Nat → State
  | 0 => s.endSessions fun x => x.number = f.session && x.transport = transport
  | n + 1 => match s.handover 9 255 0 0 with
    | (.fail, s) => s.sendTries transport f n
    | (_, s) => s.putFrame transport f

/-- A frame goes out with its CRC, and with a TAG under the session's key or of zeros where it has none (R450, R464). -/
def State.sendFrame (s : State) (transport : BitVec 8) (f : Frame) (ks : Option (List Byte)) : State :=
  let tag := match ks with | some k => frameTag k f | none => zeros 16
  s.sendTries transport (withCrc { f with tag := tag }) 3

/-- The key of a session that is open on the transport. -/
def State.sessionKey (s : State) (transport : BitVec 8) (number : W32) : Option (List Byte) :=
  (s.openSession transport number).map fun x => x.ks

/-- The reply to request `q` (R446): the request's OP with bit 7, its echoed fields, a status and a payload. -/
def replyTo (q : Frame) (status : Nat) (payload : List Byte) : Frame :=
  { q with op := q.op ||| 0x80, ver := 1, flags := 1, status := BitVec.ofNat 8 status, length := BitVec.ofNat 16 payload.length,
           total := BitVec.ofNat 32 payload.length, accession := 0, subId := 0, payload := payload, tag := [], crc := 0 }

end Sys2Proof.Machine
end

