-- ==== Sys2Proof/Machine/CueReg.lean ====
section
/-! DEFINITION. Cue entries: their registers, the arming checks, and when a cue is due, late, skipped or moved on (R63 to R89). -/

namespace Sys2Proof.Machine

/-! ### Registers (R66) -/

/-- CTL of an entry owned by room `room` (R66). -/
def cueCtl (e : CueEntry) (room : Nat) : W64 :=
  BitVec.ofNat 64 (bit e.arm + 2 * e.action.toNat + 16 * bit e.seam + 32 * bit e.late + 256 * e.rpt.toNat + 4096 * room +
    65536 * e.cls.toNat + 2 ^ 32 * e.stride.toNat + 2 ^ 48 * e.count.toNat)

/-- TGT of an entry (R66). -/
def cueTgt (e : CueEntry) : W64 :=
  BitVec.ofNat 64 (e.target.toNat + 65536 * e.amount.toNat + 2 ^ 32 * bit e.lateHit + 2 ^ 33 * bit e.miss + 2 ^ 34 * bit e.done +
    2 ^ 40 * e.missCode.toNat + 2 ^ 48 * e.fires.toNat)

/-- The RW fields of CTL but ARM, as value `v` writes them (R66). -/
def withCtl (e : CueEntry) (v : Nat) : CueEntry :=
  { e with action := BitVec.ofNat 3 (v / 2), seam := v.testBit 4, late := v.testBit 5, rpt := BitVec.ofNat 2 (v / 256),
           cls := BitVec.ofNat 16 (v / 65536), stride := BitVec.ofNat 16 (v / 2 ^ 32), count := BitVec.ofNat 16 (v / 2 ^ 48) }

/-- The RW fields of TGT, as value `v` writes them (R66). -/
def withTgt (e : CueEntry) (v : Nat) : CueEntry := { e with target := BitVec.ofNat 16 v, amount := BitVec.ofNat 16 (v / 65536) }

/-- The index of an entry in its table. -/
def cueIndex : CueRef → Nat
  | .dev n => n
  | .quire _ n => n

/-- Device entries 2032 to 2047 (R63). -/
def cueIsDevice : CueRef → Bool
  | .dev n => 2032 ≤ n.val
  | .quire _ _ => false

/-- The owner of an entry's contents: none for the device's own entries (R63). -/
def State.cueOwnerOf (s : State) (c : CueRef) : Option Nat := if cueIsDevice c then none else s.cueOwner c

/-- A refused arming or write is reported in the table's CUE_ERR, or in the instance of the writing room `w` (R64, R89, R392): 1 RANGE, 2 TARGET, 3 OWNER, 4 ARMED, 5 ACTION. -/
def State.cueErrRec (s : State) (c : CueRef) (w : Option Nat) (code : Nat) : State :=
  let v : W32 := BitVec.ofNat 32 (code * 65536 + cueIndex c)
  match c, w with
  | .quire q _, _ => s.srcRose (s.modQuire q fun x => { x with cueErr := v, cueEvt := x.cueEvt ||| 8 }) (48 * q)
  | .dev _, some r => s.srcRose (s.modRoom r fun x => { x with cueErr := v, cueEvt := x.cueEvt ||| 8 }) (3920 + r)
  | .dev _, none => s.srcRose { s with dev := { s.dev with cueErr := v, cueEvt := s.dev.cueEvt ||| 8 } } 3952

/-! ### Positions (R72 to R74) -/

/-- The effective position E of an entry (R72, R74): of a head cue, W lines earlier. A head cue is armed with LINE below W; one whose repeat in lines has moved it to a LINE at or past W takes the position W lines earlier in the same frame (DESIGN CHOICE, log 115). -/
def State.cueE (s : State) (e : CueEntry) : Pos :=
  let w := s.cfgN 0x2040 1
  if !e.seam then e.pos
  else if posLine e.pos < w then mkPos (posFrame e.pos + 2 ^ 36 - 1) (posLine e.pos + s.lpf - w) (posTick e.pos)
  else mkPos (posFrame e.pos) (posLine e.pos - w) (posTick e.pos)

/-- The class of the frame of an occurrence (R73). -/
def State.cueClass (s : State) (e : CueEntry) : Nat := posFrame (if e.seam then e.pos else s.cueE e) % s.cfgN 0x2040 2

/-- The class of the occurrence has its bit set in CLASS (R72). -/
def State.classOk (s : State) (e : CueEntry) : Bool := e.cls.getLsbD (s.cueClass e)

/-- POS moved on by `n` strides (R81). -/
def State.cueMove (s : State) (e : CueEntry) (n : Nat) : CueEntry :=
  { e with pos := if e.rpt = 1 then addLines s.lpf (n * e.stride.toNat) e.pos else addFrames (n * e.stride.toNat) e.pos }

/-- The cue is used up: ARM clears and DONE is set (R81). -/
def cueFinish (e : CueEntry) : CueEntry := { e with arm := false, done := true, due := none }

/-- `n` occurrences count against COUNT, which 0xFFFF leaves unlimited (R81). -/
def cueCount (e : CueEntry) (n : Nat) : CueEntry :=
  if e.count = 0xFFFF then e
  else
    let e := { e with count := BitVec.ofNat 16 (e.count.toNat - n) }
    if e.count = 0 then cueFinish e else e

/-- An entry after a fire or a drop (`counts`) or a skip (R81). COUNT is the fires that remain of a repeating cue (R66): that of a cue with RPT 0 stays as it is (DESIGN CHOICE, log 116). -/
def State.cueAfter (s : State) (e : CueEntry) (counts : Bool) : CueEntry :=
  let e := { e with due := none }
  if e.rpt = 0 then cueFinish e
  else
    let e := s.cueMove e 1
    if counts then cueCount e 1 else e

/-- Strides that bring E ahead of the position (R82). -/
def State.stridesPast (s : State) (e : CueEntry) : Nat :=
  let d := if e.rpt = 1 then linesPast s.lpf (s.cueE e) s.clk.pos else framesPast (s.cueE e) s.clk.pos
  (d + e.stride.toNat - 1) / e.stride.toNat

/-- The position is at or past E (R72). -/
def State.cueReached (s : State) (e : CueEntry) : Bool := posReached s.clk.pos (s.cueE e)

/-! ### Due, late, skipped (R72, R75, R79, R82) -/

/-- `n` cues dropped or late are counted in #2042.01 and raise CUE_LATE (R79, R82). -/
def State.countLate (s : State) (c : CueRef) (n : Nat) : State :=
  ({ s with dev := { s.dev with cueLate := s.dev.cueLate + BitVec.ofNat 64 n } } : State).raiseCue c 1

/-- An armed cue with LATE 1 that is late again moves on by whole strides, each a drop (R82). The class of the frames passed over is not looked at, since R82 counts each stride as a drop and R72 judges only a due cue (DESIGN CHOICE, log 117). -/
def State.cueBulk (s : State) (c : CueRef) (e : CueEntry) : State :=
  let k := s.stridesPast e
  let k := if e.count = 0xFFFF then k else Nat.min k e.count.toNat
  (s.setCue c { cueCount (s.cueMove e k) k with lateHit := true }).countLate c k

/-- The place in the issue order of a further occurrence of an entry, reached while its place was `key` at the present tick: the present tick again (R79), or its own E where a step passes over several occurrences (R80; log 118). -/
def State.nextKey (s : State) (key now : Pos) (e : CueEntry) : Pos := if key = now then s.clk.pos else s.cueE e

/-- How an entry whose E has been reached goes on (R72, R79 to R82). `key` gives its place in the issue order. A skip moves it to its next occurrence, at most `fuel` of them. -/
def State.cueSettle (s : State) (c : CueRef) (late : Bool) (key : Pos) : Nat → State
  | 0 => s
  | fuel + 1 =>
    let e := s.cueAt c
    if !e.arm || e.due.isSome || !s.cueReached e then s
    else if !s.classOk e then
      let e' := s.cueAfter e false
      let s := s.setCue c e'
      if e'.arm && s.cueReached e' && e'.late then s.cueBulk c e' else s.cueSettle c true (s.nextKey key s.clk.pos e') fuel
    else if late && e.late then
      let e' := { s.cueAfter e true with lateHit := true }
      let s := (s.setCue c e').countLate c 1
      if e'.arm && s.cueReached e' then s.cueBulk c e' else s
    else
      let s := s.setCue c { e with due := some key, dueAt := s.clk.pos, lateHit := e.lateHit || late }
      if late then s.countLate c 1 else s

/-- Settle one entry, with as many skips as it can take. -/
def State.cueDue (s : State) (c : CueRef) (late : Bool) (key : Pos) : State :=
  s.cueSettle c late key (s.stridesPast (s.cueAt c) + 2)

/-- Every cue entry that is armed. -/
def State.armedCues (s : State) : List CueRef :=
  ((s.cue.filter fun e => e.2.arm).map fun e => CueRef.dev (Fin.ofNat 2048 e.1)) ++
  s.quires.flatMap fun q => (q.2.cue.filter fun e => e.2.arm).map fun e => CueRef.quire (toQuire q.1) (Fin.ofNat 64 e.1)

/-- A re-armed entry at the first valid position after power-on: it moves on by whole strides for as long as its next E is at or behind the position, each a drop (R92). -/
def State.cueRestored (s : State) (c : CueRef) : State :=
  let e := s.cueAt c
  if !e.restored then s
  else
    let e' := { e with restored := false }
    if e.rpt = 0 || !s.cueReached e then s.setCue c e'
    else
      let k := s.stridesPast e - 1
      let k := if e.count = 0xFFFF then k else Nat.min k e.count.toNat
      let s := s.setCue c (cueCount (s.cueMove e' k) k)
      { s with dev := { s.dev with cueLate := s.dev.cueLate + BitVec.ofNat 64 k } }

/-- The position has moved by a tick: armed cues that it has reached become due, and none is late (R72). -/
def State.cuesReached (s : State) : State :=
  if s.posValid then forL s.armedCues (fun c s => s.cueDue c false s.clk.pos) s else s

/-- The position has moved by a step: armed cues that it has reached become due, and those it passed over are late, by rising E (R72, R79, R80). R79 names the forward step of R47; the forward step of R46, which is made while no room is formed, passes over cues in the same way (DESIGN CHOICE, log 119). -/
def State.cuesPassed (s : State) : State :=
  if s.posValid then
    forL s.armedCues (fun c s => let e := s.cueE (s.cueAt c); s.cueDue c (e ≠ s.clk.pos) e) s
  else s

/-- The position becomes valid: armed cues at or behind it are late, and a fire that was due before is judged anew (R75, R92). -/
def State.cuesValid (s : State) : State :=
  forL s.armedCues (fun c s => ((s.setCue c { s.cueAt c with due := none }).cueRestored c).cueDue c true s.clk.pos) s

/-! ### Arming (R67 to R69, R74, R81) -/

/-- The action is allowed in the entry's table (R68). -/
def actionAllowed (c : CueRef) (a : Nat) : Bool :=
  match c with
  | .dev n => (1 ≤ a && a ≤ 4) || (a = 5 && 2032 ≤ n.val)
  | .quire _ _ => 1 ≤ a && a ≤ 3

/-- Every value lies in the ranges of R68, R74 and R81. -/
def State.cueInRange (s : State) (c : CueRef) (e : CueEntry) : Bool :=
  let t := e.target.toNat
  let ad := e.addr.toNat
  let quire := match c with | .dev _ => false | .quire _ _ => true
  e.rpt ≠ 3 && (e.rpt = 0 || (e.count ≠ 0 && e.stride ≠ 0)) &&
  (!e.seam || (!cueIsDevice c && posLine e.pos < s.cfgN 0x2040 1 && 1 ≤ posFrame e.pos)) &&
  match e.action.toNat with
  | 1 => t < 5120 && e.amount ≠ 0 && ad = 0
  | 2 => if quire then t < 32 && e.amount = 0 && ad < 2 ^ 32 else t < 64 && e.amount = 0
  | 3 => (if quire then t = 0 else t < 80) && ad < 2 ^ 32
  | 4 => t < 4 && e.amount = 0 && ad = 0
  | _ => t < 16 && e.amount = 0 && ad = 0

/-- The target belongs to the cue's room (R69). The device's own entries have no room, so that no target fails them here; their fires act on what a room then owns (DESIGN CHOICE, log 120). -/
def State.cueTargetOk (s : State) (c : CueRef) (e : CueEntry) : Bool :=
  if e.action = 5 || cueIsDevice c then true
  else match s.cueOwnerOf c with
    | none => false
    | some r => match (s.room r).form with
      | none => false
      | some f =>
        let t := e.target.toNat
        let dev := match c with | .dev _ => true | .quire _ _ => false
        match e.action.toNat with
        | 1 => formOwns f t
        | 2 => !dev || f.sdma.getLsbD t
        | 3 => !dev || f.quires.getLsbD t
        | _ => (bitList 2 t).all fun p => (s.pipe p).owner = some (toRoom r)

/-- The first failing check of an arming: 5 ACTION, 1 RANGE, 2 TARGET; 0 when the entry may be armed (R67 to R69). -/
def State.cueCheck (s : State) (c : CueRef) (e : CueEntry) : Nat :=
  if !actionAllowed c e.action.toNat then 5
  else if !s.cueInRange c e then 1
  else if !s.cueTargetOk c e then 2
  else 0

/-- The entry becomes armed; FIRES, DONE and MISS_CODE clear, and a cue at or behind the position is late (R67, R79). -/
def State.cueArmNow (s : State) (c : CueRef) (e : CueEntry) : State :=
  let s := s.setCue c { e with arm := true, fires := 0, done := false, missCode := 0, due := none, restored := false }
  if s.posValid then s.cueDue c true s.clk.pos else s

/-- ARM clears by a write or a command (R67). -/
def State.cueDisarmNow (s : State) (c : CueRef) : State := s.setCue c { s.cueAt c with arm := false, due := none, restored := false }

/-- A write of CTL by room `w` (R67). While ARM is 1 only ARM takes it, and a write that would change another field is reported. -/
def State.cueCtlWrite (s : State) (c : CueRef) (w : Option Nat) (v : Nat) : State :=
  let e := s.cueAt c
  let n := withCtl e v
  if e.arm then
    let s := if n = e then s else s.cueErrRec c w 4
    if v.testBit 0 then s else s.cueDisarmNow c
  else
    let s := s.setCue c n
    if v.testBit 0 then
      match s.cueCheck c n with
      | 0 => s.cueArmNow c n
      | k => s.cueErrRec c w k
    else s

/-- A write of POS (0), ADDR (1), CTL (2) or TGT (3) of an entry that the writer owns (R66, R67). -/
def State.cueRegWrite (s : State) (c : CueRef) (w : Option Nat) (reg v : Nat) : State :=
  let e := s.cueAt c
  if reg = 2 then s.cueCtlWrite c w v
  else if e.arm then s.cueErrRec c w 4
  else match reg with
    | 0 => s.setCue c { e with pos := BitVec.ofNat 64 v }
    | 1 => s.setCue c { e with addr := BitVec.ofNat 56 v }
    | _ => s.setCue c { withTgt e v with lateHit := e.lateHit && !v.testBit 32, miss := e.miss && !v.testBit 33 }

/-- A read of a register of an entry (R66). ROOM reads the owner; 0 for the device's own entries. -/
def State.cueRegRead (s : State) (c : CueRef) (reg : Nat) : W64 :=
  let e := s.cueAt c
  match reg with
  | 0 => e.pos
  | 1 => e.addr.setWidth 64
  | 2 => cueCtl e ((s.cueOwnerOf c).getD 0)
  | _ => cueTgt e

end Sys2Proof.Machine
end

