-- ==== Sys2Proof/Machine/QuireReg.lean ====
section
/-! DEFINITION. The quire register block (R247, R278 to R282, R309, R412). -/

namespace Sys2Proof.Machine

/-- The register of the block that holds byte offset `off`: its offset and its size in bytes (R412). None for a reserved offset. -/
def qregAt (off : Nat) : Option (Nat × Nat) :=
  let at8 : Nat → Option (Nat × Nat) := fun size => if off % 8 < size then some (off / 8 * 8, size) else none
  if off < 0x800 then at8 8
  else match off / 8 * 8 with
    | 0x800 => at8 4
    | 0x808 => at8 4
    | 0x810 => at8 4
    | 0x818 => at8 8
    | 0x820 => at8 8
    | 0x828 => at8 4
    | _ =>
      if 0x900 ≤ off && off < 0x980 then at8 8
      else if 0x1000 ≤ off && off < 0x1800 then
        (if off % 64 / 8 = 1 then at8 4 else if off % 64 / 8 = 2 then at8 8 else none)
      else none

/-- The register has a writable bit in 63:32 (R413). -/
def qregWide (base : Nat) : Bool := base < 0x800 || base = 0x818 || (0x900 ≤ base && base < 0x980)

/-- QC_HBMWIN as it reads: the waiting value with PEND while there is one (R277, R279). -/
def winWord (x : Quire) (k : Nat) : W64 :=
  let (w, p) := match Tbl.get none x.winPend k with | some w => (w, true) | none => (hbmWin x k, false)
  BitVec.ofNat 64 (w.base.toNat + 2 ^ 32 * w.size.toNat + 2 ^ 56 * w.mode.toNat + 2 ^ 63 * bit p)

/-- QC_CMD as it reads (R280). -/
def cmdWord (x : QcCmd) : W64 :=
  BitVec.ofNat 64 (2 ^ 7 * x.line.toNat + 2 ^ 40 * x.lines.toNat + 2 ^ 56 * bit x.all + 2 ^ 57 * x.op.toNat + 2 ^ 62 * bit x.refused + 2 ^ 63 * bit x.busy)

/-- A read of the register at `base` (R412). Reserved offsets read 0. -/
def State.qregRead (s : State) (q base : Nat) : W64 :=
  let x := s.quire q
  if base < 0x800 then s.cueRegRead (.quire (toQuire q) (Fin.ofNat 64 (base / 32))) (base % 32 / 8)
  else match base with
    | 0x800 => x.cueErr.setWidth 64
    | 0x808 => x.cueEvt.setWidth 64
    | 0x810 => BitVec.ofNat 64 ((if x.wayBusy then x.wayTo else x.groups).toNat + 32768 * bit x.wayBusy)
    | 0x818 => cmdWord x.cmd
    | 0x820 => x.memErr
    | 0x828 => x.memEvt.setWidth 64
    | _ =>
      if 0x900 ≤ base && base < 0x980 then winWord x ((base - 0x900) / 8)
      else if 0x1000 ≤ base && base < 0x1800 then
        let c := Tbl.get {} x.chan ((base - 0x1000) / 64)
        if base % 64 = 8 then (chanStat c).setWidth 64 else if base % 64 = 16 then c.curDesc else 0
      else 0

/-- A write of QC_CMD with value `v` by room `r` (R280). -/
def State.qcCmdValue (s : State) (r q v : Nat) : State :=
  s.qcCmdWrite r q (BitVec.ofNat 3 (v / 2 ^ 57)) (v.testBit 56) (BitVec.ofNat 16 (v / 2 ^ 40)) (BitVec.ofNat 31 (v / 2 ^ 7))

/-- A write of the register at `base` that takes effect, by room `r` (R247, R412). -/
def State.qregWrite (s : State) (r q base v : Nat) : State :=
  if base < 0x800 then s.cueRegWrite (.quire (toQuire q) (Fin.ofNat 64 (base / 32))) (some r) (base % 32 / 8) v
  else match base with
    | 0x808 => (s.modQuire q fun x => { x with cueEvt := x.cueEvt &&& ~~~(BitVec.ofNat 32 v) }).srcWritten (48 * q)
    | 0x810 => s.waymapWrite q (BitVec.ofNat 3 v)
    | 0x818 => s.qcCmdValue r q v
    | 0x828 => (s.modQuire q fun x => { x with memEvt := x.memEvt &&& ~~~(BitVec.ofNat 32 v) }).srcWritten (48 * q + 1)
    | _ =>
      if 0x900 ≤ base && base < 0x980 then s.hbmwinWrite r q ((base - 0x900) / 8) (BitVec.ofNat 64 v)
      else if 0x1000 ≤ base && base < 0x1800 && base % 64 = 8 then
        s.chanStatWrite (.tile (toQuire q) (Fin.ofNat 32 ((base - 0x1000) / 64))) v
      else s

/-! ### Stores and loads of a tile (R247) -/

/-- A staged word. -/
def stagedWord (x : Tile) (i : Nat) : Option W16 := Tbl.get none x.stage i

/-- One word of a store by tile `t` reaches byte offset `off` of the block (R247). -/
def State.qregStoreWord (s : State) (t off : Nat) (w : W16) : State :=
  match qregAt off with
  | none => s
  | some (base, size) =>
    let x := s.tile t
    let i := (off - base) / 2
    let st := if x.stageReg = some base then x.stage else []
    if off + 2 < base + size then
      s.setTile t { x with stageReg := some base, stage := Tbl.put none st i (some w) }
    else
      let s := s.setTile t { x with stageReg := none, stage := [] }
      let low := (List.range i).map fun j => Tbl.get none st j
      if low.all fun o => o.isSome then
        match s.tileRoom t with
        | some r => s.qregWrite r (tileQuire t) base (((low.map fun o => (o.getD 0).toNat) ++ [w.toNat]).foldr (fun a b => a + 65536 * b) 0)
        | none => s
      else s

/-- A store of words at byte offset `off` of the block drains (R247). -/
def State.qregStore (s : State) (t off : Nat) : List W16 → State
  | [] => s
  | w :: ws => (s.qregStoreWord t off w).qregStore t (off + 2) ws

/-- A load of one word at byte offset `off` by tile `t`: the lowest word of a register latches the others (R247). -/
def State.qregLoadWord (s : State) (t off : Nat) : W16 × State :=
  match qregAt off with
  | none => (0, s)
  | some (base, _) =>
    let i := (off - base) / 2
    let v := s.qregRead (tileQuire t) base
    if i = 0 then (v.setWidth 16, s.modTile t fun x => { x with qlatch := Tbl.put none x.qlatch base (some v) })
    else (BitVec.ofNat 16 (((Tbl.get none (s.tile t).qlatch base).getD v).toNat / 65536 ^ i), s)

/-- `n` words at byte offset `off` lie within one register, or in reserved space (R247). -/
def qregSpan (off n : Nat) : Bool :=
  match qregAt off with
  | some (base, size) => off + 2 * n ≤ base + size
  | none => (List.range n).all fun i => (qregAt (off + 2 * i)).isNone

end Sys2Proof.Machine
end

