-- ==== Sys2Proof/Machine/TileMem.lean ====
section
/-! DEFINITION. How a tile core reaches memory: the word address map, access checks, loads, the store buffer and instruction fetch (R131, R132, R156 to R163, R170, R245, R247). -/

namespace Sys2Proof.Machine

/-! ### The tile word address map (R245) -/

/-- The region of a tile word address, with the word offset in it. -/
inductive TReg where
  | scratch (w : Nat)
  | xregs (w : Nat)
  | qscratch (w : Nat)
  | qregs (w : Nat)
  | hbm (off : Nat)
  deriving DecidableEq, Repr

/-- Room of tile `t` owns the 2 MiB HBM unit `u` (R274). -/
def State.tileOwnsUnit (s : State) (t u : Nat) : Bool :=
  match s.tileRoom t with | some r => (s.room r).hbm.contains u | none => false

/-- The groups of quire scratch that QC_WAYMAP gives: while a change runs, those it changes to, and accesses to them stall (R267). -/
def scratchGroups (x : Quire) : Nat := (if x.wayBusy then x.wayTo else x.groups).toNat

/-- The region of word address `a` of tile `t`; none outside every region (R245, R274). For HBM the offset is a byte offset. -/
def State.tileRegion (s : State) (t a : Nat) : Option TReg :=
  let q := tileQuire t
  if a < 0x100000 then (if a < s.usable t * 768 then some (.scratch a) else none)
  else if a < 0x200000 then (if a < 0x104000 then some (.xregs (a - 0x100000)) else none)
  else if a < 0x400000 then (if a - 0x200000 < scratchGroups (s.quire q) * 262144 then some (.qscratch (a - 0x200000)) else none)
  else if a < 0x40000000 then (if a < 0x408000 then some (.qregs (a - 0x400000)) else none)
  else
    let w := hbmWin (s.quire q) (tileIndex t)
    let o := a - 0x40000000
    if o < w.size.toNat * 1048576 && s.tileOwnsUnit t (w.base.toNat + o / 1048576) then some (.hbm (w.base.toNat * 0x200000 + 2 * o)) else none

/-- Two words of one region (R131). -/
def sameRegion : TReg → TReg → Bool
  | .scratch _, .scratch _ => true
  | .xregs _, .xregs _ => true
  | .qscratch _, .qscratch _ => true
  | .qregs _, .qregs _ => true
  | .hbm _, .hbm _ => true
  | _, _ => false

/-- What an access is: LD, ST, LDA and STA reach every region; other data accesses neither the tile registers nor the quire registers (R193, R247). -/
inductive Acc where
  | ldst
  | other
  deriving DecidableEq, Repr

/-- The kind of access may reach the region. -/
def accReaches : Acc → TReg → Bool
  | .ldst, _ => true
  | .other, .xregs _ => false
  | .other, .qregs _ => false
  | .other, _ => true

/-- The first of `n` words from `a` that lies outside the region of the first word, or whose region the access does not reach (R131). -/
def State.firstOutside (s : State) (t : Nat) (k : Acc) (a n : Nat) : Option Nat :=
  match s.tileRegion t a with
  | none => some a
  | some g =>
    if !accReaches k g then some a
    else ((List.range n).map (a + ·)).find? fun w => match s.tileRegion t w with | none => true | some h => !sameRegion g h

/-- A word of the supervisor area, which lies in the tile's own scratchpad (R170, R246). -/
def State.inSup (s : State) (t a : Nat) : Bool := a < supWords (s.tile t) && a < s.usable t * 768

/-- The checks of a data access at the tile's level (R131, R170, R247): the fault code and FLT_ADDR, or none. An access to the quire registers lies within one register, or in reserved space; of two faults the lower code counts (R191). -/
def State.accessFault (s : State) (t : Nat) (k : Acc) (a n : Nat) : Option (Nat × Nat) :=
  let task := !swS (s.tile t).sw
  match s.firstOutside t k a n, s.tileRegion t a with
  | some w, _ => some (3, w % 2 ^ 32)
  | none, some (.qregs w) => if !qregSpan (2 * w) n then some (3, a) else if task then some (4, a) else none
  | none, _ => if task then (((List.range n).map (a + ·)).find? fun w => s.inSup t w).map fun w => (4, w) else none

/-! ### Draining the store buffer (R156 to R160) -/

/-- A word as its two bytes (R130). -/
def wordBytes (w : W16) : List Byte := leBytes 2 w.toNat

/-- Words from bytes (R130). -/
def bytesWords : List Byte → List W16
  | a :: b :: l => (b ++ a) :: bytesWords l
  | _ => []

/-- STORE_ERR: the asynchronous fault and the fault of the room (R160). -/
def State.storeErr (s : State) (t a : Nat) : State :=
  (s.modTile t fun x => { x with async := x.async ++ [{ code := 32, addr := BitVec.ofNat 32 a }] }).tileFaultRoom t { cause := 3 }

/-- XU_ECC: the asynchronous fault and the fault of the room (R194, R222). The access that met the error has run, and all before it. -/
def State.xuEcc (s : State) (t a : Nat) : State :=
  (s.modTile t fun x => { x with xu := drainedUnit x.xu, async := x.async ++ [{ code := 21, addr := BitVec.ofNat 32 a }] }).tileFaultRoom t { cause := 2 }

/-- Write bytes into the tile registers from byte offset `off`, merging partial granules; every latch and B store that holds a row is invalidated, and the queue is empty by then (R193, R212). The first granule that could not be merged is answered. -/
def State.xrStore (s : State) (t off : Nat) (bs : List Byte) : Option Nat × State :=
  let (bad, s) := (granPieces bs.length off bs).foldl (fun ((bad : Option Nat), s) (g, o, c) =>
    match State.xrGran s t g with
    | (none, s) => (bad.or (some g), s)
    | (some d, s) => (bad, s.putXr t (8 * g) (forN c.length (fun i l => setAt l (o + i) (c.getD i 0)) d))) ((none : Option Nat), s)
  (bad, s.modTile t fun x => { x with xu := forgetRow (forgetRow (drainedUnit x.xu) (off / 64)) ((off + bs.length - 1) / 64) })

/-- Write bytes at HBM offset `off` for tile `t`, through the cache or around it (R260, R263). -/
def State.hbmStore (s : State) (t off : Nat) (bs : List Byte) : Bool × State :=
  let q := tileQuire t
  let cached := (hbmWin (s.quire q) (tileIndex t)).mode = 0
  (granPieces bs.length off bs).foldl (fun (ok, s) (g, o, c) =>
    let line := BitVec.ofNat 31 (g / 16)
    let (k, s) := if cached then State.cacheStore s q t line (g % 16) o c else (s.evict q line).writeGran g o c
    (ok && k, s)) (true, s)

/-- A store-buffer entry is written at its destination (R158). A destination that does not take it gives STORE_ERR (R160). -/
def State.drainEntry (s : State) (t : Nat) (e : SbEntry) : State :=
  let bs := e.words.flatMap wordBytes
  let a := e.addr.toNat
  let done : Bool × State → State := fun p => if p.1 then p.2 else p.2.storeErr t a
  match s.tileRegion t a with
  | some (.scratch w) => done (s.writeMem (scratchBase t + 2 * w) bs)
  | some (.qscratch w) => done (s.writeMem (qscratchBase (tileQuire t) + 2 * w) bs)
  | some (.qregs w) => s.qregStore t (2 * w) e.words
  | some (.xregs w) => match s.xrStore t (2 * w) bs with
    | (none, s) => s
    | (some g, s) => s.xuEcc t (g / 8)
  | some (.hbm off) => done (s.hbmStore t off bs)
  | none => s.storeErr t a

/-- The quire cache and quire scratch take no access while a GROUPS change runs (R267). -/
def State.entryStalls (s : State) (t : Nat) (e : SbEntry) : Bool :=
  (s.quire (tileQuire t)).wayBusy && match s.tileRegion t e.addr.toNat with
    | some (.qscratch _) => true
    | some (.hbm _) => true
    | _ => false

/-- The oldest entry drains. False when it must wait (R158, R267). -/
def State.drainOne (s : State) (t : Nat) : Bool × State :=
  match (s.tile t).sb with
  | [] => (true, s)
  | e :: rest =>
    if s.entryStalls t e then (false, s)
    else (true, (s.modTile t fun x => { x with sb := rest }).drainEntry t e)

/-- The `n` oldest entries drain in program order. False when one must wait. -/
def State.drainN (s : State) (t : Nat) : Nat → Bool × State
  | 0 => (true, s)
  | n + 1 => match s.drainOne t with
    | (true, s) => s.drainN t n
    | (false, s) => (false, s)

/-- The store buffer becomes empty. -/
def State.drainAll (s : State) (t : Nat) : Bool × State := s.drainN t (s.tile t).sb.length

/-- The store buffer and the write-back list become empty, as TADV, SIG, DMAGO and FENCE ask (R159, R262). -/
def State.drainFull (s : State) (t : Nat) : Bool × State :=
  match s.drainAll t with
  | (false, s) => (false, s)
  | (true, s) => if (s.quire (tileQuire t)).wayBusy && !(s.tile t).wb.isEmpty then (false, s) else (true, s.drainWb t)

/-- STORE_DRAIN (R158). The stores of a stopped or halted tile drain too (R137). -/
def execStoreDrain (t : TileId) (s : State) : Host.Outcome State Fault Refusal := .next (s.drainOne t).2

/-! ### Outcomes of an access -/

/-- How a memory access of an instruction goes: a value, a synchronous fault with code and FLT_ADDR, or a stall. -/
inductive Mem (α : Type) where
  | ok (v : α) (s : State)
  | fault (code addr : Nat) (s : State)
  | stall
  deriving DecidableEq, Repr

/-- Go on with the value of an access. -/
def Mem.andThen {α β : Type} (m : Mem α) (f : α → State → Mem β) : Mem β :=
  match m with
  | .ok v s => f v s
  | .fault c a s => .fault c a s
  | .stall => .stall

/-! ### Loads (R142, R157) -/

/-- Read granule `g` of HBM for tile `t`, through the cache or around it (R260, R263, R264). -/
def State.hbmGran (s : State) (t g : Nat) : Option (List Byte) × State :=
  let q := tileQuire t
  let w := hbmWin (s.quire q) (tileIndex t)
  let line := BitVec.ofNat 31 (g / 16)
  if w.mode = 0 then
    s.cacheGran q ((s.tileRoom t).getD 0) line (g % 16) (w.base.toNat * 16384) ((w.base.toNat + w.size.toNat) * 16384)
  else (s.evict q line).readGran g

/-- Read `n` bytes from byte offset `off` with a granule reader; none with the granule's first byte offset when one is uncorrectable. -/
def readVia (rd : State → Nat → Option (List Byte) × State) (s : State) (off n : Nat) : (List Byte ⊕ Nat) × State :=
  let (r, s) := (granules off n).foldl (fun (acc, s) g =>
    match acc with
    | .inr e => (.inr e, s)
    | .inl l => match rd s g with
      | (some d, s) => (.inl (l ++ d), s)
      | (none, s) => (.inr (8 * g), s)) ((.inl [] : List Byte ⊕ Nat), s)
  match r with
  | .inl l => (.inl ((l.drop (off % 8)).take n), s)
  | .inr e => (.inr e, s)

/-- A read of memory by the core: words, or ECC_UE with the first word it touches (R142). `base` is the word address, `off` the byte offset it starts at. -/
def loadVia (rd : State → Nat → Option (List Byte) × State) (s : State) (base off n : Nat) : Mem (List W16) :=
  match readVia rd s off (2 * n) with
  | (.inl bs, s) => .ok (bytesWords bs) s
  | (.inr e, s) => .fault 5 ((base + (e - off) / 2) % 2 ^ 32) s

/-- A load of `n` words of the tile registers at byte offset `off`: an uncorrectable granule gives free words and raises XU_ECC (R194, R222; log 128). -/
def State.xrLoad (s : State) (t off n : Nat) : List W16 × State :=
  let (bs, s) := (granules off (2 * n)).foldl (fun ((bs : List Byte), (s : State)) g =>
    match State.xrGran s t g with
    | (some d, s) => (bs ++ d, s)
    | (none, s) => (bs ++ leBytes 8 (s.freeVal 64).toNat, s.spend.xuEcc t (g / 8))) (([] : List Byte), s)
  (bytesWords ((bs.drop (off % 8)).take (2 * n)), s.modTile t fun x => { x with xu := drainedUnit x.xu })

/-- Read `n` words at word address `a` from memory. -/
def State.readWords (s : State) (t a n : Nat) : Mem (List W16) :=
  let q := tileQuire t
  match s.tileRegion t a with
  | some (.scratch w) => loadVia (fun s g => s.readGran g) s a (scratchBase t + 2 * w) n
  | some (.qscratch w) => if (s.quire q).wayBusy then .stall else loadVia (fun s g => s.readGran g) s a (qscratchBase q + 2 * w) n
  | some (.xregs w) => let (l, s) := s.xrLoad t (2 * w) n; .ok l s
  | some (.hbm off) => if (s.quire q).wayBusy then .stall else loadVia (fun s g => s.hbmGran t g) s a off n
  | some (.qregs w) =>
    let (l, s) := (List.range n).foldl (fun (l, s) i => let (v, s) := State.qregLoadWord s t (2 * w + 2 * i); (l ++ [v], s)) (([] : List W16), s)
    .ok l s
  | none => .fault 3 a s

/-- An entry overlaps the words `a` to `a + n - 1`. -/
def sbOverlaps (e : SbEntry) (a n : Nat) : Bool := e.addr.toNat < a + n && a < e.addr.toNat + e.words.length
/-- An entry holds every one of those words. -/
def sbContains (e : SbEntry) (a n : Nat) : Bool := e.addr.toNat ≤ a && a + n ≤ e.addr.toNat + e.words.length

/-- One more than the place of the youngest entry that satisfies `p`; 0 when none does. -/
def youngest (p : SbEntry → Bool) (l : List SbEntry) : Nat := (l.foldl (fun (i, m) e => (i + 1, if p e then i + 1 else m)) (0, 0)).2

/-- A load of `n` words with its checks already made: forwarded from the store buffer, or from memory once the entries it must wait for have drained (R157, R247). -/
def State.loadWords (s : State) (t a n : Nat) : Mem (List W16) :=
  let sb := (s.tile t).sb
  let isQreg : Bool := match s.tileRegion t a with | some (.qregs _) => true | _ => false
  if isQreg then
    match s.drainN t (youngest (fun e => match s.tileRegion t e.addr.toNat with | some (.qregs _) => true | _ => false) sb) with
    | (true, s) => s.readWords t a n
    | (false, _) => .stall
  else
    let k := youngest (fun e => sbOverlaps e a n) sb
    match (if k = 0 then none else sb[k - 1]?) with
    | none => s.readWords t a n
    | some y =>
      if sbContains y a n then .ok ((y.words.drop (a - y.addr.toNat)).take n) (s.modTile t fun x => perfCount 10 (swS x.sw) x)
      else match s.drainN t k with
        | (true, s) => s.readWords t a n
        | (false, _) => .stall

/-- A load of `n` words at `a` (R131, R157). -/
def State.load (s : State) (t : Nat) (k : Acc) (a n : Nat) : Mem (List W16) :=
  match s.accessFault t k a n with
  | some (c, w) => .fault c w s
  | none => s.loadWords t a n

/-- The load of a 16-bit word. -/
def State.load16 (s : State) (t : Nat) (k : Acc) (a : Nat) : Mem W16 := (s.load t k a 1).andThen fun l s => .ok (l.getD 0 0) s

/-- The load of a 32-bit value, low word first. -/
def State.load32 (s : State) (t : Nat) (k : Acc) (a : Nat) : Mem W32 :=
  (s.load t k a 2).andThen fun l s => .ok (l.getD 1 0 ++ l.getD 0 0) s

/-- The words of a 64-bit value, low word first. -/
def words64 (v : W64) : List W16 := (List.range 4).map (word64 v)
/-- The 64-bit value of four words, low word first. -/
def ofWords64 (l : List W16) : W64 := BitVec.ofNat 64 (l.foldr (fun w n => w.toNat + 65536 * n) 0)

/-! ### Stores (R156) -/

/-- The checks of a store at `a` (R131, R170, R247). -/
def State.storeFault (s : State) (t : Nat) (k : Acc) (a n : Nat) : Option (Nat × Nat) := s.accessFault t k a n

/-- A store completes into the store buffer; with 8 entries held, the oldest drains first (R156). -/
def State.store (s : State) (t : Nat) (k : Acc) (a : Nat) (ws : List W16) : Mem Unit :=
  match s.storeFault t k a ws.length with
  | some (c, w) => .fault c w s
  | none =>
    match (if 8 ≤ (s.tile t).sb.length then s.drainOne t else (true, s)) with
    | (false, _) => .stall
    | (true, s) => .ok () (s.modTile t fun x => { x with sb := x.sb ++ [{ addr := BitVec.ofNat 32 a, words := ws }] })

/-! ### Instruction fetch (R132, R161, R163, R170) -/

/-- The line is present in the instruction cache. -/
def icHit (x : Tile) (line : Nat) : Bool := (List.range 4).any fun w => Tbl.get none x.icLine (line % 128 * 4 + w) = some line

/-- Install a line: an empty way of its set, or the next in round-robin order (R161). -/
def icInstall (x : Tile) (line : Nat) : Tile :=
  let set := line % 128
  match (List.range 4).find? fun w => Tbl.get none x.icLine (set * 4 + w) = none with
  | some w => { x with icLine := Tbl.put none x.icLine (set * 4 + w) (some line) }
  | none =>
    let w := Tbl.get 0 x.icPtr set
    { x with icLine := Tbl.put none x.icLine (set * 4 + w) (some line), icPtr := Tbl.put 0 x.icPtr set ((w + 1) % 4) }

/-- An instruction-cache fill of HBM (R161): in a cached window it reads through the quire cache, which it neither fills nor reorders, and an uncorrectable error in a clean line makes it read HBM (R253); in an uncached window the line is first written back and removed (R263). -/
def State.fetchGran (s : State) (t g : Nat) : Option (List Byte) × State :=
  let q := tileQuire t
  let line := BitVec.ofNat 31 (g / 16)
  if (hbmWin (s.quire q) (tileIndex t)).mode = 0 then
    match s.lineGranBy holdLine q line (g % 16) with
    | (.data bs, s) => (some bs, s)
    | (.ue, s) => (none, s)
    | (.absent, s) => s.readGran g
  else (s.evict q line).readGran g

/-- Read the 64 bytes of an instruction-cache line at word address `32 * line`, as far as they lie in a fetchable region. None on an uncorrectable error, with its word address. -/
def State.readLine (s : State) (t line : Nat) : Option Nat × State :=
  let a := 32 * line
  let one : (State → Nat → Option (List Byte) × State) → Nat → Option Nat × State := fun rd off =>
    match readVia rd s off 64 with
    | (.inl _, s) => (none, s)
    | (.inr e, s) => (some (a + (e - off) / 2), s)
  match s.tileRegion t a with
  | some (.scratch w) => one (fun s g => s.readGran g) (scratchBase t + 2 * w)
  | some (.qscratch w) => one (fun s g => s.readGran g) (qscratchBase (tileQuire t) + 2 * w)
  | some (.hbm off) => one (fun s g => s.fetchGran t g) off
  | _ => (none, s)

/-- An instruction may be fetched from word address `a` (R132): the fault and its address, or none. -/
def State.fetchFault (s : State) (t a : Nat) : Option (Nat × Nat) :=
  match s.tileRegion t a with
  | some (.scratch _) => if !swS (s.tile t).sw && s.inSup t a then some (4, a) else none
  | some (.qscratch _) => none
  | some (.hbm _) => none
  | _ => some (3, a)

/-- One occurrence of event `code` at the tile's level (R167, R168). -/
def levelCount (code : Nat) (x : Tile) : Tile := perfCount code (swS x.sw) x

/-- Fill a line, and prefetch the next one if it is not present (R161). A prefetch raises no fault. Event 6 counts the fills that a miss asks for, event 8 the prefetches (R168; log 7). -/
def State.icFill (s : State) (t line : Nat) : Option Nat × State :=
  match s.readLine t line with
  | (some a, s) => (some a, s)
  | (none, s) =>
    let s := s.modTile t fun x => icInstall (levelCount 6 x) line
    let next := (line + 1) % 2 ^ 27
    if icHit (s.tile t) next || (s.fetchFault t (32 * next)).isSome then (none, s)
    else match s.readLine t next with
      | (some _, s) => (none, s)
      | (none, s) => (none, s.modTile t fun x => icInstall (levelCount 8 x) next)

/-- Fetch the word at `a` (R132, R142, R161). -/
def State.fetchWord (s : State) (t a : Nat) : Mem Unit :=
  match s.fetchFault t a with
  | some (c, w) => .fault c w s
  | none =>
    if icHit (s.tile t) (a / 32) then .ok () s
    else if (s.quire (tileQuire t)).wayBusy && 0x200000 ≤ a then .stall
    else match s.icFill t (a / 32) with
      | (none, s) => .ok () s
      | (some w, s) => .fault 5 w s

/-- Fetch the `n` words of the instruction at `a`. -/
def State.fetch (s : State) (t a : Nat) : Nat → Mem Unit
  | 0 => .ok () s
  | n + 1 => (s.fetchWord t a).andThen fun _ s => s.fetch t ((a + 1) % 2 ^ 32) n

/-- A wrong-path fetch of the word at `a`: a fill with its prefetch, or nothing where the fetch would fault or meets an uncorrectable error. Nothing is logged (R163); events 6 to 9 count them (R168). -/
def State.wrongWord (s : State) (t a : Nat) : State :=
  let clean : Nat → Bool := fun line => (s.fetchFault t (32 * line)).isNone && (s.readLine t line).1.isNone
  let line := a / 32
  let next := (line + 1) % 2 ^ 27
  if icHit (s.tile t) line || !clean line then s
  else
    let s' := s.modTile t fun x => icInstall (levelCount 7 (levelCount 6 x)) line
    if icHit (s'.tile t) next || !clean next then s' else s'.modTile t fun x => icInstall (levelCount 9 (levelCount 8 x)) next

/-- After a misprediction at most two instructions at `a` have been fetched, of one to three words each; how many is free (R163, log 3). Event 5 counts them (R168). -/
def State.wrongPath (s : State) (t a : Nat) : State :=
  let k := (s.freeVal 8).toNat % 3
  let n := k + (s.spend.freeVal 8).toNat % (2 * k + 1)
  forN n (fun i s => s.wrongWord t ((a + i) % 2 ^ 32)) (s.spend.spend.modTile t fun x => forN k (fun _ x => levelCount 5 x) x)

end Sys2Proof.Machine
end

