-- ==== Sys2Proof/Machine/TileExec.lean ====
section
/-! DEFINITION. How a tile core runs one instruction: fetch, effect, retirement, and the taking of faults (R137, R149, R183 to R189). -/

namespace Sys2Proof.Machine

/-! ### Entry to a handler (R185) -/

/-- SW on entry to a handler: S 1, SB 1, MASK 7, NW 0 (R185). -/
def entrySw (w : W16) : W16 := putBit (putMask (putBit (putBit w 15 true) 10 true) 7) 11 false

/-- Taking an interrupt or a fault with return PC `ret` through vector slot `slot` (R173, R185). -/
def enterHandler (x : Tile) (ret : W32) (slot : Nat) : Tile :=
  { x with sw := entrySw x.sw, pc := x.priv.vecBase + BitVec.ofNat 32 (16 * slot), run := if x.run = .stopped then .stopped else .running,
           priv := { x.priv with ssw := x.sw, spc := ret, xr := false, xw := false, nrem := 0 } }

/-- The fault registers take a fault (R185, R191). -/
def recordFault (x : Tile) (code addr : Nat) (pc : W32) : Tile :=
  { x with priv := { x.priv with fltCode := BitVec.ofNat 16 code, fltAddr := BitVec.ofNat 32 addr, fltPc := pc } }

/-- The effective mask is 7 (R182). -/
def fullyMasked (x : Tile) : Bool := swSB x.sw || swMask x.sw = 7

/-! ### Escalation (R189, R190) -/

/-- The tile halts: its unit queue is discarded (R198), HALT_CAUSE and HALT_PC are written and the room's TILE_HALTED is set (R189, R190). -/
def State.haltTile (s : State) (t : Nat) (cause : W16) : State :=
  let s := (s.dropTileWaits t).discardQueue t
  let s := s.modTile t fun x => { x with run := .halted, sw := putBit x.sw 11 false, priv := { x.priv with haltCause := cause, haltPc := x.pc, nrem := 0 } }
  match s.tileRoom t with
  | some r => s.raiseRoom r 8
  | none => s

/-- A synchronous fault at the instruction at PC: taken, or escalated to a halt with a room fault where its level is masked (R183, R185, R189). ECC_UE faults the room as well (R142). -/
def State.takeSync (s : State) (t code addr : Nat) : State :=
  let s := if code = 5 then s.tileFaultRoom t { cause := 1 } else s
  let x := s.tile t
  if fullyMasked x then
    let cause : W16 := BitVec.ofNat 16 (0x8000 + code)
    (s.haltTile t cause).tileFaultRoom t { cause := 4, haltCause := cause }
  else s.setTile t (recordFault (enterHandler x x.pc 16) code addr x.pc)

/-! ### One instruction -/

/-- The tile executes instructions: its core runs and its quire is not gated (R174, R190, R523). -/
def State.tileRuns (s : State) (t : Nat) : Bool := (s.tile t).run = .running && s.quireOn (tileQuire t)

/-- The counters that count by cycle timing grow by the occurrences since the tile's last instruction, which are free, at the level of the tile (R167; log 7). A counter that passes 2^48 - 1 wraps. -/
def State.cyclePerf (s : State) (t : Nat) : State :=
  forN 4 (fun n s =>
    let x := s.tile t
    if x.perf.en && !(swS x.sw && x.perf.noSup) && cycleEvent (Tbl.get 0 x.perf.sel n).toNat then
      let v := (Tbl.get 0 x.perf.cnt n).toNat + (s.freeVal 48).toNat
      (s.modTile t fun z => if v < 2 ^ 48 then { z with perf := { z.perf with cnt := Tbl.put 0 z.perf.cnt n (BitVec.ofNat 48 v) } }
        else perfWrap z n (BitVec.ofNat 48 v)).spend
    else s) s

/-- Run an instruction of `words` words: fetch it, and let `body` have its effect. The body answers the next PC when the instruction retires, none when the core now waits in it, a fault, or a stall. -/
def State.runInstr (s : State) (t words : Nat) (body : State → Mem (Option W32)) : State :=
  if s.tileRuns t then
    let sup := swS (s.tile t).sw
    match ((s.cyclePerf t).fetch t (s.tile t).pc.toNat words).andThen fun _ s => body s with
    | .ok (some pc) s' => s'.modTile t fun x => retireAt x sup pc
    | .ok none s' => s'
    | .fault c a s' => s'.takeSync t c a
    | .stall => s
  else s

/-- The word address after the instruction at PC (R141). -/
def pcNext (x : Tile) (words : Nat) : W32 := x.pc + BitVec.ofNat 32 words

/-- An instruction that only changes the core's registers, to `f` of them. -/
def State.regInstr (s : State) (t words : Nat) (f : Tile → Tile) : State :=
  s.runInstr t words fun s => .ok (some (pcNext (s.tile t) words)) (s.modTile t f)

/-- An instruction that raises a fault, whatever it would do otherwise. -/
def State.faultInstr (s : State) (t words code addr : Nat) : State := s.runInstr t words fun s => .fault code addr s

/-- End an instruction whose memory access is made: change the registers and go on. -/
def State.finish (s : State) (t words : Nat) (f : Tile → Tile) : Mem (Option W32) := .ok (some (pcNext (s.tile t) words)) (s.modTile t f)

/-! ### Boundary events (R183) -/

/-- A waiting or running core has an instruction boundary (R183). -/
def atBoundary (x : Tile) : Bool :=
  match x.run with
  | .running | .waitS _ | .waitP _ | .waitT _ _ _ => true
  | .stopped | .halted => false

/-- The level of line `k` (R181). -/
def lineLevel (x : Tile) (k : Nat) : Nat := bitsOf (Tbl.get 0 x.priv.irqLevel (k / 4)).toNat (4 * (k % 4)) 3

/-- The line accepted at a boundary: the highest level that is pending, enabled and unmasked, and among equals the lowest number (R181, R183). -/
def chosenLine (x : Tile) : Option Nat :=
  (List.range 16).foldl (fun best k =>
    if x.priv.irqPend.getLsbD k && x.priv.irqEn.getLsbD k && swMask x.sw < lineLevel x k then
      match best with
      | none => some k
      | some b => if lineLevel x b < lineLevel x k then some k else some b
    else best) none

/-- INTERRUPT_ACCEPT (R183, R185): unless a NOINT window is open, an asynchronous fault comes first, or the mask stands against it, the chosen line is taken. -/
def execInterruptAccept (t : TileId) (s : State) : Host.Outcome State Fault Refusal :=
  .next (let x := s.tile t
    if atBoundary x && s.quireOn (tileQuire t) && !swNW x.sw && !fullyMasked x && x.async.isEmpty then
      match chosenLine x with
      | none => s
      | some k =>
        ((s.dropTileWaits t).cyclePerf t).modTile t fun x => perfCount 15 (swS x.sw)
          (enterHandler { x with priv := { x.priv with irqPend := putBit x.priv.irqPend k false } } x.pc k)
    else s)

/-- The instruction at whose boundary a core stands: the one it waits in, else the one that retired last (R183, R191). -/
def boundaryPc (x : Tile) : W32 := if x.run = .running then x.lastPc else x.pc

/-- ASYNC_FAULT (R183, R185, R191): the oldest pending asynchronous fault is taken when the effective mask is below 7. -/
def execAsyncFault (t : TileId) (s : State) : Host.Outcome State Fault Refusal :=
  .next (let x := s.tile t
    if atBoundary x && s.quireOn (tileQuire t) && !swNW x.sw && !fullyMasked x then
      match x.async with
      | [] => s
      | f :: rest => ((s.dropTileWaits t).cyclePerf t).modTile t fun x =>
        recordFault (enterHandler { x with async := rest } x.pc 17) f.code.toNat f.addr.toNat (boundaryPc x)
    else s)

end Sys2Proof.Machine
end

