-- ==== Sys2Proof/Machine/RoomOps.lean ====
section
/-! DEFINITION. Rooms: the formation record, its checks, forming, dissolving, resetting and sharing (R374 to R386). -/

namespace Sys2Proof.Machine

/-! ### How a command takes effect (R455, R456) -/

/-- What carrying out a recorded command does: it is done with a status and a result, or it goes on and is done later. -/
inductive Eff where
  | done (status : Nat) (res : List Byte) (s : State)
  | wait (s : State)
  deriving DecidableEq, Repr

/-- Status codes of R464. -/
def stOK : Nat := 0
def stRANGE : Nat := 2
def stSTATE : Nat := 3
def stCONFLICT : Nat := 4
def stCAPACITY : Nat := 5

/-- A refusal at step 13: nothing changes (R455). -/
def Eff.refuse (status : Nat) (s : State) : Eff := .done status [] s
/-- A command that is done at once. -/
def Eff.ok (s : State) : Eff := .done stOK [] s

/-! ### The formation record (R375) -/

/-- The bytes of a formation record (R375). -/
def formBytes (f : FormRec) : List Byte :=
  [f.room, f.policy, f.hbmShare, 0, f.meshWeight, f.fabricWeight] ++ leBytes 2 f.dmaRate.toNat ++ leBytes 10 f.quires.toNat ++ zeros 6 ++
  leBytes 8 f.sdma.toNat ++ padTo 16 (f.hbmUnits.flatMap fun u => leBytes 4 u.toNat) ++ leBytes 2 f.ltBase.toNat ++ leBytes 2 f.ltCount.toNat ++
  leBytes 2 f.ftBase.toNat ++ leBytes 2 f.ftCount.toNat ++ leBytes 4 f.jobId.toNat ++ leBytes 2 f.home.toNat ++ zeros 2 ++
  leBytes 2 f.cueBase.toNat ++ leBytes 2 f.cueCount.toNat ++ leBytes 2 f.twBase.toNat ++ leBytes 2 f.twCount.toNat ++ zeros 8 ++
  f.perQuire.flatMap fun q => [q.groups, 0] ++ padTo 32 (q.need.flatMap fun n => leBytes 2 n.toNat)

/-- The owned quires that a record names. -/
def recQuires (bs : List Byte) : Nat := (bitList 80 (fieldAt bs 8 10)).length

/-- The length of a record matches its QUIRES (R375). -/
def recLengthOk (bs : List Byte) : Bool := 80 ≤ bs.length && bs.length = 80 + 34 * recQuires bs

/-- The fields of a formation record (R375). -/
def parseForm (bs : List Byte) : FormRec :=
  { room := BitVec.ofNat 8 (fieldAt bs 0 1), policy := BitVec.ofNat 8 (fieldAt bs 1 1), hbmShare := BitVec.ofNat 8 (fieldAt bs 2 1),
    meshWeight := BitVec.ofNat 8 (fieldAt bs 4 1), fabricWeight := BitVec.ofNat 8 (fieldAt bs 5 1), dmaRate := BitVec.ofNat 16 (fieldAt bs 6 2),
    quires := BitVec.ofNat 80 (fieldAt bs 8 10), sdma := BitVec.ofNat 64 (fieldAt bs 24 8),
    hbmUnits := (List.range 4).map fun d => BitVec.ofNat 32 (fieldAt bs (32 + 4 * d) 4),
    ltBase := BitVec.ofNat 16 (fieldAt bs 48 2), ltCount := BitVec.ofNat 16 (fieldAt bs 50 2),
    ftBase := BitVec.ofNat 16 (fieldAt bs 52 2), ftCount := BitVec.ofNat 16 (fieldAt bs 54 2),
    jobId := BitVec.ofNat 32 (fieldAt bs 56 4), home := BitVec.ofNat 16 (fieldAt bs 60 2),
    cueBase := BitVec.ofNat 16 (fieldAt bs 64 2), cueCount := BitVec.ofNat 16 (fieldAt bs 66 2),
    twBase := BitVec.ofNat 16 (fieldAt bs 68 2), twCount := BitVec.ofNat 16 (fieldAt bs 70 2),
    perQuire := (List.range (recQuires bs)).map fun i =>
      { groups := BitVec.ofNat 8 (fieldAt bs (80 + 34 * i) 1), need := (List.range 16).map fun k => BitVec.ofNat 16 (fieldAt bs (82 + 34 * i + 2 * k) 2) } }

/-- A reserved byte or bit of the record is not 0 (R375). -/
def recReserved (bs : List Byte) : Bool :=
  fieldAt bs 3 1 ≠ 0 || 4 ≤ fieldAt bs 1 1 || fieldAt bs 18 6 ≠ 0 || fieldAt bs 62 2 ≠ 0 || fieldAt bs 72 8 ≠ 0 ||
  (List.range (recQuires bs)).any fun i => fieldAt bs (81 + 34 * i) 1 ≠ 0

/-- A field breaks its limits in R375, R64, R94 or R110. -/
def formLimits (f : FormRec) : Bool :=
  15 < f.room.toNat || f.hbmShare = 0 || f.meshWeight = 0 || f.fabricWeight = 0 || f.dmaRate = 0 || 256 < f.dmaRate.toNat || f.quires = 0 ||
  (f.hbmUnits.any fun u => 24576 < u.toNat) ||
  f.ltBase.toNat % 64 ≠ 0 || f.ltCount.toNat % 64 ≠ 0 || f.ltCount = 0 || 4096 < f.ltBase.toNat + f.ltCount.toNat ||
  (if f.ftCount = 0 then f.ftBase ≠ 0 || f.jobId ≠ 0 || f.home ≠ 0
   else f.jobId = 0 || f.ftBase.toNat % 16 ≠ 0 || f.ftCount.toNat % 16 ≠ 0 || f.ftBase.toNat < 4096 || 5120 < f.ftBase.toNat + f.ftCount.toNat) ||
  2032 < f.cueBase.toNat + f.cueCount.toNat || 256 < f.twBase.toNat + f.twCount.toNat ||
  f.perQuire.any fun q => 6 < q.groups.toNat || q.need.any fun n => 1024 < n.toNat

/-! ### Checks (R376) -/

/-- The sum of a share over the rooms that exist, but room `r`. -/
def State.shareSum (s : State) (r : Nat) (g : FormRec → Nat) : Nat :=
  (List.range 16).foldl (fun n i => match (s.room i).form with
    | some f => if i ≠ r && (s.room i).exists' then n + g f else n
    | none => n) 0

/-- Two ranges of numbers overlap. -/
def rangesMeet (b c b' c' : Nat) : Bool := c ≠ 0 && c' ≠ 0 && b < b' + c' && b' < b + c

/-- A resource of the record is owned by another room (R376, row 3). -/
def formsMeet (f g : FormRec) : Bool :=
  f.quires &&& g.quires ≠ 0 || f.sdma &&& g.sdma ≠ 0 || rangesMeet f.ltBase.toNat f.ltCount.toNat g.ltBase.toNat g.ltCount.toNat ||
  rangesMeet f.ftBase.toNat f.ftCount.toNat g.ftBase.toNat g.ftCount.toNat || rangesMeet f.cueBase.toNat f.cueCount.toNat g.cueBase.toNat g.cueCount.toNat ||
  rangesMeet f.twBase.toNat f.twCount.toNat g.twBase.toNat g.twCount.toNat

/-- Row 3 of R376. -/
def State.formConflict (s : State) (f : FormRec) : Bool := (s.roomWith fun g _ => formsMeet f g).isSome

/-- The units of quarter `d` that are allocated or await clearing (R378). -/
def State.usedUnits (s : State) (d : Nat) : List Nat :=
  ((List.range 16).flatMap (fun r => (s.room r).hbm) ++ s.reb.clearing).filter fun u => u / 24576 = d

/-- The free, cleared units of quarter `d` (#3000.02). -/
def State.freeUnits (s : State) (d : Nat) : Nat := 24576 - (s.usedUnits d).length

/-- The needs of a record by tile: (tile, stripes). -/
def formNeeds (f : FormRec) : List (Nat × Nat) :=
  ((formQuires f).zip f.perQuire).flatMap fun (q, p) => (List.range 16).map fun k => (quireTile q k, (p.need.getD k 0).toNat)

/-- The first tile, in tile-number order, whose need exceeds its published USABLE (R258). -/
def State.firstShort (s : State) (f : FormRec) : Option (Nat × Nat) :=
  ((formNeeds f).filter fun e => s.published e.1 < e.2).foldl (fun m e => match m with
    | none => some e
    | some b => if e.1 < b.1 then some e else some b) none

/-- The first quarter with fewer free units than the record wants (R258). -/
def State.shortQuarter (s : State) (f : FormRec) : Option Nat := (List.range 4).find? fun d => s.freeUnits d < (f.hbmUnits.getD d 0).toNat

/-- A position and the hub units allow formations (R15, R376 row 1, R552). -/
def State.roomsAllowed (s : State) : Bool := s.pow.boot = .ready && s.posValid && !s.clk.tooFar

/-- The checks of R376 on a record, in order: the number of the row that fails, 0 for none. -/
def State.formCheck (s : State) (bs : List Byte) : Nat :=
  let f := parseForm bs
  if !s.roomsAllowed || (f.room.toNat < 16 && (s.room f.room.toNat).exists') then 1
  else if !recLengthOk bs || recReserved bs || formLimits f || 255 < s.shareSum 16 (fun g => g.hbmShare.toNat) + f.hbmShare.toNat ||
      256 < s.shareSum 16 (fun g => g.dmaRate.toNat) + f.dmaRate.toNat then 2
  else if s.formConflict f then 3
  else if (s.firstShort f).isSome || (s.shortQuarter f).isSome then 4
  else 0

/-- The status of a row of R376. -/
def rowStatus (row : Nat) : Nat := if row = 1 then stSTATE else if row = 2 then stRANGE else if row = 3 then stCONFLICT else stCAPACITY

/-- What #5012.01 records of a CAPACITY refusal (R258). -/
def State.capRecord (s : State) (f : FormRec) : CapRefusal :=
  match s.firstShort f with
  | some (t, n) => { tile := BitVec.ofNat 16 t, need := BitVec.ofNat 16 n, usable := BitVec.ofNat 16 (s.published t), quarter := 255 }
  | none =>
    let d := (s.shortQuarter f).getD 0
    { tile := 0xFFFF, need := (f.hbmUnits.getD d 0).setWidth 16, usable := BitVec.ofNat 16 (s.freeUnits d), quarter := BitVec.ofNat 8 d }

/-- A refused formation is described in #3012.01 and, for CAPACITY, in #5012.01; `view` is the state it was checked against. -/
def State.recordRefusal (s view : State) (bs : List Byte) (row plan form : Nat) : State :=
  let s : State := { s with dev := { s.dev with refusal :=
    { status := BitVec.ofNat 8 (rowStatus row), room := BitVec.ofNat 8 (fieldAt bs 0 1), plan := BitVec.ofNat 8 plan, formation := BitVec.ofNat 8 form, order := BitVec.ofNat 8 row } } }
  if row = 4 then { s with reb := { s.reb with capRefusal := view.capRecord (parseForm bs) } } else s

/-! ### Forming (R377) -/

/-- The `k` lowest-numbered free units of quarter `d`. -/
def State.lowestUnits (s : State) (d k : Nat) : List Nat :=
  let used := s.usedUnits d
  (((List.range (Nat.min 24576 (used.length + k))).map (24576 * d + ·)).filter fun u => !used.contains u).take k

/-- The units that a formation takes, quarter by quarter. -/
def State.formUnits (s : State) (f : FormRec) : List Nat := (List.range 4).flatMap fun d => s.lowestUnits d (f.hbmUnits.getD d 0).toNat

/-- A formation that passed its checks begins (R377, steps 1 and 2): FORMING, its units allocated, its gated quires woken. -/
def State.beginForm (s : State) (f : FormRec) (acc : W64) : State :=
  let r := f.room.toNat
  let s := s.leaveIdle.activity 5 false
  let s := s.setRoom r { state := .forming, accession := acc, form := some f, hbm := s.formUnits f }
  forL (formQuires f) (fun q s => s.askWake q) s

/-- Every quire of a forming room is powered. -/
def State.formReady (s : State) (r : Nat) : Bool := (s.roomQuires r).all fun q => (s.quire q).power = .on

/-- A quire enters a newly formed room (R377, step 2): marks take effect, memories are cleared, tiles and the register block are reset, and GROUPS is set. -/
def State.enterRoom (s : State) (q groups : Nat) : State :=
  let s := s.applyMarks q
  let s := forL (quireTiles q) (fun t s => (s.clearScratch t).setTile t {}) s
  let s := s.clearQscratch q
  s.setQuire q { groups := BitVec.ofNat 3 groups }

/-- The values of tallies `base` to `base + n - 1` become 0. -/
def State.zeroTallies (s : State) (base n : Nat) : State := { s with tal := { s.tal with val := Tbl.clear s.tal.val base (base + n) } }

/-- The fabric range is bound at the home, or each group is joined (R111). Only the home binds: on a member #4012.01 reads 0 for the group (DESIGN CHOICE, log 125). -/
def State.bindFabric (s : State) (r : Nat) (f : FormRec) : State :=
  let s := s.zeroTallies f.ftBase.toNat f.ftCount.toNat
  let groups := (List.range (f.ftCount.toNat / 16)).map fun i => tallyGroup f.ftBase.toNat + i
  if s.isHome f then
    forL groups (fun g (s : State) => { s with tal := { s.tal with bind := Tbl.put {} s.tal.bind g { jobId := f.jobId, home := f.home } } })
      { s with tal := { s.tal with frozenJobs := s.tal.frozenJobs.filter fun j => j ≠ f.jobId } }
  else
    forL groups (fun g s =>
      let s : State := { s with tal := { s.tal with sent := s.tal.sent ++ [{ tally := BitVec.ofNat 16 (4096 + 16 * g), amount := 0, jobId := f.jobId, room := toRoom r, source := 0, refused := false }] } }
      s.sendCtrl r f.home 2 (leBytes 1 g ++ leBytes 4 f.jobId.toNat)) s

/-- The room's cue entries, watches, vectors, slots and sources are at their reset values (R377, step 4; R88, R398). -/
def State.clearRoomParts (s : State) (r : Nat) (f : FormRec) : State :=
  let srcs := (formQuires f).flatMap (fun q => (List.range 48).map (48 * q + ·)) ++ (bitList 64 f.sdma.toNat).map (3840 + ·) ++ [3904 + r, 3920 + r, 3936 + r, 4064 + r]
  { s with
    cue := Tbl.clear s.cue f.cueBase.toNat (f.cueBase.toNat + f.cueCount.toNat),
    tal := { s.tal with watch := Tbl.clear s.tal.watch f.twBase.toNat (f.twBase.toNat + f.twCount.toNat) },
    irq := { src := srcs.foldl (fun t n => Tbl.put {} t n {}) s.irq.src,
             vec := Tbl.clear s.irq.vec (256 * r) (256 * r + 256), slot := Tbl.clear s.irq.slot (2048 * r) (2048 * r + 2048) } }

/-- Every step of a formation is done (R377): the room is FORMED. -/
def State.endForm (s : State) (r : Nat) (f : FormRec) : State :=
  let s := ((formQuires f).zip f.perQuire).foldl (fun s (q, p) => s.enterRoom q p.groups.toNat) s
  let s := s.zeroTallies f.ltBase.toNat f.ltCount.toNat
  let s := if f.ftCount = 0 then s else s.bindFabric r f
  let s := s.clearRoomParts r f
  (s.modRoom r fun x => { x with state := .formed }).raiseRoom r 1

/-! ### Dissolving (R379) -/

/-- A Vault job ends short (R485): VAULT_END with a code of R485, no advance, and the committed version stays. The job has left the list. -/
def State.jobEnds (s : State) (j : VaultJob) (code : Nat) : State :=
  ({ s with vault := { s.vault with endedShort := true } } : State).event 6
    (leBytes 2 j.object.toNat ++ leBytes 8 j.accession.toNat ++ leBytes 8 j.bytesDone ++ leBytes 1 code)

/-- The queued Vault jobs of a room end with `code` (R485, R487). -/
def State.endQueuedJobs (s : State) (r code : Nat) : State :=
  let gone := s.vault.jobs.filter fun j => j.room.val = r && !j.inExtent
  forL gone (fun j s => s.jobEnds j code) { s with vault := { s.vault with jobs := s.vault.jobs.filter fun j => j.room.val ≠ r || j.inExtent } }

/-- A job of a room whose extent is running stops at its end (R487). -/
def State.stopRunningJob (s : State) (r code : Nat) : State :=
  { s with vault := { s.vault with jobs := s.vault.jobs.map fun j => if j.room.val = r && j.inExtent then { j with stop := some (j.stop.getD (BitVec.ofNat 8 code)) } else j } }

/-- Steps 1 to 4 of a dissolution (R379): cues disarmed, windows closed, tiles stopped, channels aborted. -/
def State.beginDissolve (s : State) (r : Nat) : State :=
  let s := (s.modRoom r fun x => { x with state := .dissolving, haltAt := none, resetting := false, flr := false }).disarmCues r
  let s : State := { s with wins := s.wins.map fun e => if e.2.isOpen && e.2.room.toNat = r then (e.1, { e.2 with isOpen := false }) else e }
  let s := forL (s.roomTiles r) (fun t s => if s.tile t = {} then s else ((s.modTile t stopTile).dropTileWaits t).discardQueue t) s
  forL (s.roomChans r) (fun c s => s.chanAbort c) s

/-- Step 4 has ended: no channel of the room is busy (R379). -/
def State.chansQuiet (s : State) (r : Nat) : Bool := (s.roomChans r).all fun c => chanIdle (s.chan c)

/-- Step 7 stops the room's Vault jobs: a queued job at once, a running one at the end of its extent (R379, R487). -/
def State.stopJobs (s : State) (r : Nat) : State := (s.endQueuedJobs r 5).stopRunningJob r 5

/-- Every Vault job of the room has ended, so that step 7 can (R379). -/
def State.jobsEnded (s : State) (r : Nat) : Bool := s.vault.jobs.all fun j => j.room.val ≠ r

/-- A quire leaves its room (R88, R221, R268, R379 steps 5 to 7): stores drain, unit state is saved and cleared, the cache is written back and emptied, and the cue table and the register block go to their reset values. A gated quire keeps nothing but its register block, which is cleared too. -/
def State.leaveRoom (s : State) (q : Nat) : State :=
  if (s.quire q).power = .gated then s.setQuire q { power := .gated }
  else
    let s := forL (quireTiles q) (fun t s => if s.tile t = {} then s else (((s.drainAll t).2.discardQueue t).saveUnits t).setTile t {}) s
    ((s.flushCache q true).clearQscratch q).setQuire q { power := (s.quire q).power }

/-- The tallies of a dissolved room are released (R120): late advances are discarded, and at the home the job's groups are unbound. -/
def State.releaseTallies (s : State) (r : Nat) (f : FormRec) : State :=
  let mine := s.tal.adv.filter fun a => a.room.val = r
  let home := f.ftCount ≠ 0 && s.isHome f
  let gs := (s.tal.bind.filter fun e => e.2.jobId = f.jobId).map fun e => e.1
  { s with tal := { s.tal with
      adv := s.tal.adv.filter fun a => a.room.val ≠ r,
      discarded := s.tal.discarded + BitVec.ofNat 64 mine.length,
      sent := s.tal.sent.filter fun m => m.room.val ≠ r,
      released := if home then gs.foldl (fun l g => Tbl.put 0 l g f.jobId) s.tal.released else s.tal.released,
      bind := if home then s.tal.bind.filter fun e => e.2.jobId ≠ f.jobId else s.tal.bind,
      members := if home then s.tal.members.filter fun e => !gs.contains e.1 else s.tal.members,
      frozenJobs := if home then s.tal.frozenJobs.filter fun j => j ≠ f.jobId else s.tal.frozenJobs } }

/-- Every Glaze pipe of the room is released (R494, R379 step 7). -/
def State.releasePipes (s : State) (r : Nat) : State :=
  let mine := (s.glz.pipe.filter fun e => e.2.owner = some (toRoom r)).map fun e => e.1
  { s with
    glz := { s.glz with pipe := s.glz.pipe.map fun e => if e.2.owner = some (toRoom r) then
      (e.1, { e.2 with owner := none, placed := false, shadow := 0, coefAddr := 0, reading := false, waiting := false, takenAt := none,
                       pending := none, pendAt := none, heldL := [], heldCnt := [], met := 0, released := true }) else e },
    tal := { s.tal with waits := s.tal.waits.filter fun w => match w.who with | .layer p _ => !mine.contains p.val | _ => true } }

/-- Steps 5 to 8 of a dissolution (R379): the room is free, and its HBM units await clearing (R378). -/
def State.endDissolve (s : State) (r : Nat) (f : FormRec) : State :=
  let s := forL (formQuires f) (fun q s => s.leaveRoom q) s
  let s := ((s.releaseTallies r f).clearRoomParts r f).releasePipes r
  let s := forL (s.roomChans r) (fun c s => s.setChan c { gone := (s.chan c).gone }) s
  let s : State := { s with reb := { s.reb with clearing := s.reb.clearing ++ (s.room r).hbm },
                            integ := { s.integ with inject := s.integ.inject.filter fun i => i.point = 8 || i.point = 9 || i.room.toNat ≠ r } }
  let keep := (s.room r).flt
  s.setRoom r { flt := keep }

/-- HBM_UNIT_CLEARED (R378): the unit released first has been cleared and counts as free. -/
def execHbmUnitCleared (s : State) : Host.Outcome State Fault Refusal :=
  .next (match s.reb.clearing with
    | [] => s
    | u :: rest => ({ s with reb := { s.reb with clearing := rest } } : State).clearMem (u * 0x200000) ((u + 1) * 0x200000))

/-! ### Room reset (R382, R383) -/

/-- A tile is reset (R174, R195, R382): the core, privilege, signal-count, launch and unit registers and the instruction cache. Its dirty lines stay dirty. -/
def resetTile (x : Tile) : Tile := { wb := x.wb }

/-- Steps 1 to 4 of a room reset (R382). -/
def State.beginReset (s : State) (r : Nat) (flr : Bool) : State :=
  let s := if s.hasFabric r && (s.room r).state ≠ .faulted then s.roomFault r { cause := 13 } else s
  let s := s.disarmCues r
  let s := forL (s.roomTiles r) (fun t s => if s.tile t = {} then s else (s.modTile t stopTile).dropTileWaits t) s
  let s := forL (s.roomChans r) (fun c s => s.chanAbort c) s
  s.modRoom r fun x => { x with resetting := true, flr := x.flr || flr, haltAt := none }

/-- The wait of step 4 has ended. -/
def State.resetReady (s : State) (r : Nat) : Bool := (s.room r).resetting && (s.roomChans r).all fun c => chanIdle (s.chan c)

/-- Steps 5 and 6 of a room reset, and RESET_DONE (R382). -/
def State.endReset (s : State) (r : Nat) : State :=
  let s : State := forL (s.roomTiles r) (fun t s => if s.tile t = {} then s else s.modTile t resetTile) s
  let s : State := forL (s.roomQuires r) (fun q s => if (s.quire q).launches.isEmpty then s else s.modQuire q fun x => { x with launches := [] }) s
  let s : State := match (s.room r).form with
    | some f => forL ((s.tal.watch.filter fun e => inRange e.1 f.twBase.toNat f.twCount.toNat && e.2.arm).map fun e => e.1)
        (fun n s => s.setWatch n { s.watch n with arm := false }) s
    | none => s
  let vs := (s.irq.vec.filter fun e => inRange e.1 (256 * r) 256).map fun e => e.1
  let s : State := { s with irq := { s.irq with vec := vs.foldl (fun t n => Tbl.put {} t n { Tbl.get {} t n with held := 0 }) s.irq.vec } }
  (s.modRoom r fun x => { x with resetting := false, flr := false }).raiseRoom r 16

/-- A room reset that can end, ends. -/
def State.settleReset (s : State) (r : Nat) : State := if s.resetReady r then s.endReset r else s

/-- The requests of a channel count as timed out, and its abort ends (R383). -/
def State.giveUp (s : State) (r : Nat) (c : ChanRef) : State :=
  let x := s.chan c
  if x.state = .aborting then
    let s := s.modChan c fun y => { y with gone := y.gone ++ (y.reqs.filter fun q => !q.lost).map (fun q => q.tag), failed := y.failed ++ y.reqs.map (fun q => (q.off, q.len)), reqs := [] }
    if (s.statusAsleep c).isEmpty then s.abortEnd c r else s.wakeForStatus c
  else s

/-! ### Shares (R384, R386) -/

/-- ROOM_QOS (R386): rows 1 and 2 of R376, then the shares change. -/
def State.qosEffect (s : State) (bs : List Byte) : Eff :=
  let r := fieldAt bs 0 1
  let hbm := fieldAt bs 1 1
  let rate := fieldAt bs 5 2
  match (s.room r).form with
  | none => .refuse stSTATE s
  | some f =>
    if !s.roomsAllowed || 15 < r || !(s.room r).isFormed then .refuse stSTATE s
    else if hbm = 0 || fieldAt bs 2 1 ≠ 0 || fieldAt bs 3 1 = 0 || fieldAt bs 4 1 = 0 || rate = 0 || 256 < rate ||
        255 < s.shareSum r (fun g => g.hbmShare.toNat) + hbm || 256 < s.shareSum r (fun g => g.dmaRate.toNat) + rate then .refuse stRANGE s
    else .ok (s.modRoom r fun x => { x with form := some { f with hbmShare := BitVec.ofNat 8 hbm, meshWeight := BitVec.ofNat 8 (fieldAt bs 3 1), fabricWeight := BitVec.ofNat 8 (fieldAt bs 4 1), dmaRate := BitVec.ofNat 16 rate } })

/-! ### Commands on rooms -/

/-- ROOM_FORM at step 13 (R376, R377). -/
def State.formEffect (s : State) (acc : W64) (bs : List Byte) : Eff :=
  match s.formCheck bs with
  | 0 => .wait (s.beginForm (parseForm bs) acc)
  | row => .refuse (rowStatus row) (s.recordRefusal s bs row 255 0)

/-- ROOM_DISSOLVE (R379): refused with STATE for a room that is not formed. -/
def State.dissolveEffect (s : State) (r : Nat) : Eff :=
  if r < 16 && (s.room r).isFormed then .wait (s.beginDissolve r) else .refuse stSTATE s

/-- ROOM_RESET (R382). -/
def State.resetEffect (s : State) (r : Nat) : Eff :=
  if r < 16 && (s.room r).isFormed then
    let s := s.beginReset r false
    if s.resetReady r then .ok (s.endReset r) else .wait s
  else .refuse stSTATE s

/-- ROOM_DECLARE_FAULT (R387). -/
def State.declareEffect (s : State) (bs : List Byte) : Eff :=
  let r := fieldAt bs 0 1
  if r < 16 && (s.room r).isFormed then .ok (s.roomFault r { cause := 16, detail := fieldAt bs 1 2 }) else .refuse stSTATE s

/-! ### Plans (R380, R381) -/

/-- Cut the formations of a PLAN_WRITE: each a length and its record; none where a length does not match (R380). -/
def planForms : Nat → List Byte → Option (List (List Byte))
  | 0, bs => if bs.isEmpty then some [] else none
  | fuel + 1, bs =>
    if bs.isEmpty then some []
    else
      let n := fieldAt bs 0 2
      let rec1 := (bs.drop 2).take n
      if bs.length < 2 + n || !recLengthOk rec1 then none
      else (planForms fuel (bs.drop (2 + n))).map fun l => rec1 :: l

/-- PLAN_WRITE (R380). -/
def State.planEffect (s : State) (bs : List Byte) : Eff :=
  match planForms 16 (bs.drop 3) with
  | some l => if fieldAt bs 0 1 < 16 && 3 ≤ bs.length then
      .ok { s with plans := Tbl.put {} s.plans (fieldAt bs 0 1) { dissolve := BitVec.ofNat 16 (fieldAt bs 1 2), forms := l } }
    else .refuse stRANGE s
  | none => .refuse stRANGE s

/-- The state that follows the dissolution of a room, as later checks of a plan see it (R378, R381). -/
def State.withoutRoom (s : State) (r : Nat) : State :=
  let s : State := { s with reb := { s.reb with clearing := s.reb.clearing ++ (s.room r).hbm } }
  s.setRoom r {}

/-- The state that follows a formation, as later checks of a plan see it. -/
def State.withRoom (s : State) (f : FormRec) : State := s.setRoom f.room.toNat { state := .formed, form := some f, hbm := s.formUnits f }

/-- The rooms that a plan dissolves: those of its mask that are formed, rising (R381). -/
def State.planRooms (s : State) (p : Plan) : List Nat := (bitList 16 p.dissolve.toNat).filter fun r => (s.room r).isFormed

/-- The first formation of a plan that fails, with its row and the state it was checked against (R381). -/
def planFails : Nat → State → List (List Byte) → Option (Nat × Nat × List Byte × State)
  | _, _, [] => none
  | k, s, bs :: l => match s.formCheck bs with
    | 0 => planFails (k + 1) (s.withRoom (parseForm bs)) l
    | row => some (k, row, bs, s)

/-- The whole plan is checked (R381): each formation against the state that follows what comes before it. -/
def State.planCheck (s : State) (p : Plan) : Option (Nat × Nat × List Byte × State) :=
  planFails 0 ((s.planRooms p).foldl (fun s r => s.withoutRoom r) s) p.forms

end Sys2Proof.Machine
end

