-- ==== Sys2Proof/Machine/Bar0.lean ====
section
/-! DEFINITION. BAR0: the registers that a function reaches, and how an access is checked, staged, latched and applied (R9, R33, R393, R394, R399 to R403, R407 to R414, R421, R431 to R433). -/

namespace Sys2Proof.Machine

/-! ### Register values -/

/-- The code of a clock state (R42). -/
def clockCode : ClockState → Nat
  | .free => 0 | .acquire => 1 | .locked => 2 | .holdover => 3

/-- The code of a clock source (R35). -/
def sourceCode : ClockSource → Nat
  | .analog => 1 | .ptp => 2 | .fabric => 3 | .synthetic => 4

/-- This device is the keeper: elected, or alone in its domain (R35, R51). -/
def State.isKeeper (s : State) : Bool := s.alone || s.clk.keeper

/-- DISAGREE: the secondary source or a local input disagrees (R60). -/
def Clock.disagrees (c : Clock) : Bool := c.disagree1 || c.disagree2

/-- HOPS, 0 to 64. The manual does not say what it reads on a device farther from its keeper; the model answers 64 there (DESIGN CHOICE, log 109). -/
def Clock.hopsRead (c : Clock) : Nat := Nat.min 64 c.hops.toNat

/-- HUB_POS_STAT (R60). -/
def State.posStat (s : State) : W32 :=
  let c := s.clk
  BitVec.ofNat 32 (clockCode c.state + 4 * (match c.src with | some x => sourceCode x | none => 0) + 32 * bit c.disagrees + 64 * bit c.agedBit +
    128 * bit c.tooFar + 256 * bit s.isKeeper + 512 * c.hopsRead)

/-- The code of a room state (R404 #3010). -/
def roomCode : RoomState → Nat
  | .free => 0 | .forming => 1 | .formed => 2 | .faulted => 3 | .dissolving => 4

/-- ROOM_STAT (R399). -/
def roomStat (x : Room) : Nat := roomCode x.state + 256 * (if x.state = .faulted then x.flt.cause.toNat else 0)

/-- ROOM_FAULT (R401): the first fault of the room, from the fault until its dissolution has ended; 0 before one. -/
def roomFaultWord (x : Room) : Nat :=
  if x.frozen then
    x.flt.secondary.toNat + 256 * x.flt.cause.toNat + 65536 * x.flt.detail.toNat + 2 ^ 32 * x.flt.haltCause.toNat + 2 ^ 53 * x.flt.tile.toNat
  else 0

/-- IR_SRC[n] as it reads (R402). -/
def State.irSrcWord (s : State) (n : Nat) : Nat :=
  let x := s.irSrc n
  x.vector.toNat + 256 * bit x.en + 65536 * s.srcOwner n + 2 ^ 32 * x.mask.toNat

/-- IR_VEC[v].CTL as it reads (R403). -/
def irVecWord (x : IrVec) : Nat := bit x.en + 2 * bit (x.held ≠ 0) + 32 * x.last.toNat + 256 * x.count.toNat + 65536 * x.holdoff.toNat

/-- IR_SLOT[n] as it reads (R403). -/
def irSlotWord (x : IrSlot) : Nat := x.index.toNat + 2 ^ 15 * x.line.toNat + 2 ^ 29 * x.kind.toNat + 2 ^ 31 * bit x.en

/-- MBX_CTL as it reads (R433). -/
def mbxCtl (m : Mbx) : Nat := bit m.en + 2 * bit m.irq + 16 * m.log2.toNat + 65536 * m.vec.toNat

/-- The state code of a port (R335). -/
def portCode : PortState → Nat
  | .disabled => 0 | .down => 1 | .train => 2 | .exch => 3 | .up => 4 | .hold => 5 | .refused => 6

/-- FAB_PORT[p].STAT (R350). -/
def State.portStat (s : State) (p : Nat) : Nat :=
  let x := s.port p
  (if s.portEnabled p then portCode x.state else 0) + 16 * bit x.half + 32 * bit x.rate + 256 * x.cause.toNat + 65536 * x.replayBuf.length

/-! ### The interrupt router's registers (R393, R394) -/

/-- A write to IR_SRC or IR_SLOT by `owner` is refused (R394, R400). The device has no ROOM_EVT. -/
def State.cfgRefused (s : State) (owner : Nat) : State := if owner = devOwner then s else s.raiseRoom owner 32

/-- A write of IR_SRC[n] through the function of `owner` (R393). -/
def State.irSrcWrite (s : State) (owner n v : Nat) : State :=
  if s.srcOwner n ≠ owner then s.cfgRefused owner
  else s.srcRose { s with irq := { s.irq with src := Tbl.put {} s.irq.src n { mask := BitVec.ofNat 32 (v / 2 ^ 32), en := v.testBit 8, vector := BitVec.ofNat 8 v } } } n

/-- A write of IR_VEC[k].CTL (R396, R403). -/
def State.irVecWrite (s : State) (owner k v : Nat) : State :=
  s.setIrVec owner k { s.irVec owner k with holdoff := BitVec.ofNat 16 (v / 65536), count := BitVec.ofNat 8 (v / 256), en := v.testBit 0 }

/-- Entries of a function's MSI-X table (R421). -/
def msixEntries (f : Nat) : Nat := if f = 0 then 128 else 120

/-- The slot value keeps the table of R394. -/
def State.slotOk (s : State) (owner : Nat) (x : IrSlot) : Bool :=
  match x.kind.toNat with
  | 0 => x.index = 0 && x.line = 0
  | 1 => x.index.toNat < msixEntries (ownerFn owner) && x.line = 0
  | 2 => owner ≠ devOwner && x.index.toNat < 1280 && s.tileRoom x.index.toNat = some owner && 2 ≤ x.line.toNat
  | _ => owner = devOwner && x.index = 0 && x.line = 0

/-- A write of IR_SLOT[n] (R394). -/
def State.irSlotWrite (s : State) (owner n v : Nat) : State :=
  let x : IrSlot := { en := v.testBit 31, kind := BitVec.ofNat 2 (v / 2 ^ 29), line := BitVec.ofNat 4 (v / 2 ^ 15), index := BitVec.ofNat 11 v }
  if s.slotOk owner x then { s with irq := { s.irq with slot := Tbl.put {} s.irq.slot (owner * 2048 + n) x } } else s.cfgRefused owner

/-! ### MSI-X (R421; the table's layout is that of PCI Express) -/

/-- A pending message of an entry that is masked no more is sent. -/
def State.msixFlush (s : State) (f k : Nat) : State :=
  let x := s.fn f
  let e := Tbl.get {} x.msix k
  if e.pending && !e.masked && !x.fnMask && x.busMaster then
    (s.setFn f { x with msix := Tbl.put {} x.msix k { e with pending := false } }).sendMsix f k
  else s

/-- The four 32-bit words of a table entry: message address, upper address, data, vector control. -/
def msixWord (e : Msix) (i : Nat) : Nat :=
  match i with
  | 0 => e.addr.toNat % 2 ^ 32
  | 1 => e.addr.toNat / 2 ^ 32
  | 2 => e.data.toNat
  | _ => bit e.masked

/-- One word of a table entry is written. -/
def msixPut (e : Msix) (i v : Nat) : Msix :=
  match i with
  | 0 => { e with addr := BitVec.ofNat 64 (e.addr.toNat / 2 ^ 32 * 2 ^ 32 + v % 2 ^ 32 / 4 * 4) }
  | 1 => { e with addr := BitVec.ofNat 64 (e.addr.toNat % 2 ^ 32 + v % 2 ^ 32 * 2 ^ 32) }
  | 2 => { e with data := BitVec.ofNat 32 v }
  | _ => { e with masked := v.testBit 0 }

/-- A write of 4 or 8 bytes in the table. -/
def State.msixWrite (s : State) (f o size v : Nat) : State :=
  let k := o / 16
  let i := o % 16 / 4
  let s := s.modFn f fun x =>
    let e := msixPut (Tbl.get {} x.msix k) i v
    { x with msix := Tbl.put {} x.msix k (if size = 8 then msixPut e (i + 1) (v / 2 ^ 32) else e) }
  s.msixFlush f k

/-- A read in the table, or of 64 pending bits in the PBA. -/
def State.msixRead (s : State) (f off size : Nat) : Nat :=
  let x := s.fn f
  if off < 0xF80000 then
    let e := Tbl.get {} x.msix ((off - 0xF00000) / 16)
    let i := off % 16 / 4
    msixWord e i + (if size = 8 then 2 ^ 32 * msixWord e (i + 1) else 0)
  else
    let q := (off - 0xF80000) / 8
    let v := (List.range 64).foldl (fun t i => t + 2 ^ i * bit (Tbl.get {} x.msix (64 * q + i)).pending) 0
    v / 2 ^ (8 * (off % 8)) % 2 ^ (8 * size)

/-- The offset lies in the MSI-X table or its PBA (R410, R411). -/
def msixArea (f off : Nat) : Bool :=
  (0xF00000 ≤ off && off < 0xF00000 + 16 * msixEntries f) || (0xF80000 ≤ off && off < 0xF80000 + 16)

/-! ### Which register an offset names (R410 to R412) -/

/-- A register: offset, size in bytes, whether a bit of 63:32 can be written, and whether it is wholly read-only. -/
structure RegSpan where
  base : Nat
  size : Nat
  wide : Bool := false
  ro : Bool := false
  deriving DecidableEq, Repr

/-- A register of `size` bytes at a multiple of 8. -/
def span8 (off size : Nat) (wide ro : Bool) : Option RegSpan :=
  if off % 8 < size then some { base := off / 8 * 8, size := size, wide := wide, ro := ro } else none

/-- Registers that every function has: HOST_ERR, HOST_EVT and the mailbox (R410, R411, R433). -/
def hostSpan (off : Nat) : Option RegSpan :=
  match off / 8 * 8 with
  | 0x48 => span8 off 8 false true
  | 0x50 => span8 off 4 false false
  | 0x208 => span8 off 8 true false
  | 0x210 => span8 off 8 true false
  | b => if 0x200 ≤ b && b < 0x240 then span8 off 8 false (b = 0x220 || b = 0x228 || b = 0x238) else none

/-- The router's registers (R402, R403, R410). -/
def irSpan (off : Nat) : Option RegSpan :=
  if 0x60000 ≤ off && off < 0x68000 then span8 off 8 true false
  else if (0x70000 ≤ off && off < 0x70400) || (0x71000 ≤ off && off < 0x73000) then some { base := off / 4 * 4, size := 4 }
  else none

/-- The register at an offset of the physical function (R411). -/
def pfSpan (off : Nat) : Option RegSpan :=
  match hostSpan off with
  | some x => some x
  | none =>
    if off < 8 then span8 off 8 false true
    else if off < 16 then span8 off 4 false true
    else if off < 0x18 then span8 off 4 false false
    else if off < 0x20 then span8 off 4 false true
    else if off < 0x28 then span8 off 4 false false
    else if 0x3FE00 ≤ off && off < 0x40000 then span8 off 8 true false
    else if 0x80000 ≤ off && off < 0x80100 then span8 off 4 false (off % 16 < 8)
    else irSpan off

/-- The register at an offset of a virtual function (R410, R412). -/
def vfSpan (off : Nat) : Option RegSpan :=
  match hostSpan off with
  | some x => some x
  | none =>
    if off < 0x10000 then
      match off / 8 * 8 with
      | 0x00 => span8 off 4 false false
      | 0x08 => span8 off 4 false true
      | 0x10 => span8 off 4 false false
      | 0x18 => span8 off 8 false true
      | 0x20 => span8 off 8 false false
      | 0x28 => span8 off 4 false true
      | 0x30 => span8 off 4 false false
      | 0x38 => span8 off 4 false true
      | 0x40 => span8 off 4 false false
      | 0x60 => span8 off 8 false true
      | b => if 0x100 ≤ b && b < 0x180 then span8 off 8 true false else none
    else if off < 0x1A000 then span8 off 8 false true
    else if 0x20000 ≤ off && off < 0x2A000 then span8 off 8 false false
    else if 0x30000 ≤ off && off < 0x40000 then span8 off 8 true false
    else if 0x40000 ≤ off && off < 0x41000 then (if off % 16 < 8 then span8 off 8 true false else span8 off 4 false false)
    else if 0x50000 ≤ off && off < 0x51000 then
      match off % 64 / 8 with
      | 0 => span8 off 8 true false
      | 1 => span8 off 4 false false
      | 6 => span8 off 4 false false
      | 7 => none
      | _ => span8 off 8 false true
    else if 0x60000 ≤ off && off < 0x80000 then irSpan off
    else if 0x100000 ≤ off && off < 0x600000 then
      (qregAt (off % 0x10000)).map fun (b, n) =>
        { base := off / 0x10000 * 0x10000 + b, size := n, wide := qregWide b, ro := b = 0x800 || b = 0x820 || (0x1000 ≤ b && b % 64 = 16) }
    else none

/-- The register at an offset of function `f`. -/
def fnSpan (f off : Nat) : Option RegSpan := if f = 0 then pfSpan off else vfSpan off

/-- The register belongs to a resource that room `r` does not own (R414): a quire block, a system channel or a watch. -/
def State.foreignReg (s : State) (r base : Nat) : Bool :=
  if 0x40000 ≤ base && base < 0x41000 then s.watchRoom ((base - 0x40000) / 16) ≠ some r
  else if 0x50000 ≤ base && base < 0x51000 then s.chanRoom (.sys (Fin.ofNat 64 ((base - 0x50000) / 64))) ≠ some r
  else if 0x100000 ≤ base && base < 0x600000 then s.quireRoom ((base - 0x100000) / 0x10000) ≠ some r
  else false

/-- Registers of a virtual function that do not belong to its room (R407). -/
def hostSide (base : Nat) : Bool := (hostSpan base).isSome || base = 0x60 || (0x100 ≤ base && base < 0x180)

/-! ### Writes that take effect -/

/-- A write of MBX_CTL (R424). While EN is 1 only EN takes it. -/
def State.mbxCtlWrite (s : State) (f v : Nat) : State :=
  let m := (s.fn f).mbx
  if m.en then (if v.testBit 0 then s else s.mbxStop f)
  else
    let s := s.modMbx f fun m => { m with irq := v.testBit 1, log2 := BitVec.ofNat 4 (v / 16), vec := BitVec.ofNat 12 (v / 65536) }
    let log2 := v / 16 % 16
    if !v.testBit 0 then s
    else if m.reqBase.toNat % 4096 ≠ 0 || m.rspBase.toNat % 4096 ≠ 0 || log2 < 2 || 8 < log2 then s.mbxError f 1
    else s.modMbx f fun m => { m with en := true, reqTail := 0, reqHead := 0, rspTail := 0, rspHead := 0, stat := 0, waiting := [] }

/-- A write of MBX_REQ_TAIL (R423, R424): more slots than the ring has is OVERRUN. -/
def State.mbxTailWrite (s : State) (f v : Nat) : State :=
  let s := s.modMbx f fun m => { m with reqTail := BitVec.ofNat 16 v }
  let m := (s.fn f).mbx
  if m.en && 2 ^ m.log2.toNat < reqUsed m then s.mbxError f 4 else s

/-- A write of MBX_RSP_HEAD (R423): freed slots take waiting frames. -/
def State.mbxHeadWrite (s : State) (f v : Nat) : State :=
  let s := s.modMbx f fun m => { m with rspHead := BitVec.ofNat 16 v }
  s.mbxPump f (s.fn f).mbx.waiting.length

/-- A write of HOST_EVT or of a mailbox register of function `f`. -/
def State.hostSideWrite (s : State) (f base v : Nat) : State :=
  match base with
  | 0x50 => (s.modFn f fun x => { x with hostEvt := x.hostEvt &&& ~~~(BitVec.ofNat 32 v) }).srcWritten (hostSource f)
  | 0x200 => s.mbxCtlWrite f v
  | 0x208 => if (s.fn f).mbx.en then s else s.modMbx f fun m => { m with reqBase := BitVec.ofNat 64 v }
  | 0x210 => if (s.fn f).mbx.en then s else s.modMbx f fun m => { m with rspBase := BitVec.ofNat 64 v }
  | 0x218 => s.mbxTailWrite f v
  | 0x230 => s.mbxHeadWrite f v
  | _ => s

/-- A write of a router register through the function of `owner`. -/
def State.irWrite (s : State) (owner base v : Nat) : State :=
  if base < 0x68000 then s.irSrcWrite owner ((base - 0x60000) / 8) v
  else if base < 0x70400 then s.irVecWrite owner ((base - 0x70000) / 4) v
  else s.irSlotWrite owner ((base - 0x71000) / 4) v

/-- A write to the register block of quire `q` by room `r`. QC_CMD and QC_WAYMAP of a quire that is not powered wake it and are applied after the wake (R525). -/
def State.quireBlockWrite (s : State) (r q base v : Nat) : State :=
  if (base = 0x810 || base = 0x818) && ((s.quire q).power = .gated || (s.quire q).power = .waking) then
    (s.askWake q).modQuire q fun x => { x with held := x.held ++ [{ off := base, v := BitVec.ofNat 64 v }] }
  else (if base = 0x810 || base = 0x818 then s.askWake q else s).qregWrite r q base v

/-- A write of DMA_CH[n] of room `r` (R307 to R309). -/
def State.dmaRegWrite (s : State) (n reg v : Nat) : State :=
  let c := ChanRef.sys (Fin.ofNat 64 n)
  match reg with
  | 0 => s.dmaCtrlWrite c v
  | 1 => s.chanStatWrite c v
  | 6 => s.modChan c fun x => { x with share := BitVec.ofNat 8 v }
  | _ => s

/-- ROOM_CTL (R382, R387, R399). -/
def State.roomCtlWrite (s : State) (r v : Nat) : State :=
  let s := if v.testBit 1 && (s.room r).isFormed then s.roomFault r { cause := 16 } else s
  if v.testBit 0 && (s.room r).isFormed then (s.beginReset r false).settleReset r else s

/-- A write of a room register that takes effect, by room `r` through its function. -/
def State.roomRegWrite (s : State) (r base v : Nat) : State :=
  if base < 0x100 then
    match base with
    | 0x00 => s.roomCtlWrite r v
    | 0x10 => (s.modRoom r fun x => { x with evt := x.evt &&& ~~~(BitVec.ofNat 32 v) }).srcWritten (3936 + r)
    | 0x20 => s.modFn (r + 1) fun x => { x with hint := v.testBit 0 }
    | 0x30 => (s.modRoom r fun x => { x with tallyEvt := x.tallyEvt &&& ~~~(BitVec.ofNat 32 v) }).srcWritten (3904 + r)
    | 0x40 => (s.modRoom r fun x => { x with cueEvt := x.cueEvt &&& ~~~(BitVec.ofNat 32 v) }).srcWritten (3920 + r)
    | _ => s
  else if 0x20000 ≤ base && base < 0x2A000 then s.tallyAdvWrite r ((base - 0x20000) / 8) (v % 65536)
  else if 0x30000 ≤ base && base < 0x40000 then
    let c := CueRef.dev (Fin.ofNat 2048 ((base - 0x30000) / 32))
    if s.cueOwnerOf c = some r then s.cueRegWrite c (some r) (base % 32 / 8) v else s.cueErrRec c (some r) 3
  else if 0x40000 ≤ base && base < 0x41000 then
    (if base % 16 = 0 then s.watchValueWrite ((base - 0x40000) / 16) (BitVec.ofNat 64 v) else s.watchCtlWrite r ((base - 0x40000) / 16) v)
  else if 0x50000 ≤ base && base < 0x51000 then s.dmaRegWrite ((base - 0x50000) / 64) (base % 64 / 8) v
  else if 0x60000 ≤ base && base < 0x80000 then s.irWrite r base v
  else if 0x100000 ≤ base then s.quireBlockWrite r ((base - 0x100000) / 0x10000) (base % 0x10000) v
  else s

/-- A write of a device register that takes effect, through the physical function (R411). -/
def State.devRegWrite (s : State) (base v : Nat) : State :=
  if base = 0x10 then { s with clk := { s.clk with evt := s.clk.evt &&& ~~~(BitVec.ofNat 32 v) } }.srcWritten 3953
  else if base = 0x20 then { s with dev := { s.dev with cueEvt := s.dev.cueEvt &&& ~~~(BitVec.ofNat 32 v) } }.srcWritten 3952
  else if 0x3FE00 ≤ base && base < 0x40000 then s.cueErrRec (.dev (Fin.ofNat 2048 ((base - 0x30000) / 32))) none 3
  else if 0x60000 ≤ base && base < 0x80000 then s.irWrite devOwner base v
  else if 0x80000 ≤ base && base < 0x80100 && base % 16 = 8 then
    let p := (base - 0x80000) / 16
    (s.modPort p fun x => { x with evt := x.evt &&& ~~~(BitVec.ofNat 32 v) }).srcWritten (3954 + p)
  else s

/-- A write of the register at `base` that takes effect. Registers of a room that does not exist ignore it (R407). -/
def State.regPut (s : State) (f base v : Nat) : State :=
  if (hostSpan base).isSome then s.hostSideWrite f base v
  else if f = 0 then s.devRegWrite base v
  else if 0x100 ≤ base && base < 0x180 then
    s.modFn f fun x => { x with apt := Tbl.put {} x.apt ((base - 0x100) / 8) { en := v.testBit 63, base := BitVec.ofNat 35 (v / 2 ^ 21) } }
  else if (s.room (f - 1)).exists' then s.roomRegWrite (f - 1) base v
  else s

/-! ### Reads -/

/-- A read of HOST_ERR, HOST_EVT or a mailbox register. -/
def hostSideRead (x : Fn) (base : Nat) : Nat :=
  match base with
  | 0x48 => x.hostErr.toNat
  | 0x50 => x.hostEvt.toNat
  | 0x200 => mbxCtl x.mbx
  | 0x208 => x.mbx.reqBase.toNat
  | 0x210 => x.mbx.rspBase.toNat
  | 0x218 => x.mbx.reqTail.toNat
  | 0x220 => x.mbx.reqHead.toNat
  | 0x228 => x.mbx.rspTail.toNat
  | 0x230 => x.mbx.rspHead.toNat
  | 0x238 => x.mbx.stat.toNat
  | _ => 0

/-- A read of a router register through the function of `owner` (R414). -/
def State.irRead (s : State) (owner base : Nat) : Nat :=
  if base < 0x68000 then
    let n := (base - 0x60000) / 8
    if s.srcOwner n = owner then s.irSrcWord n else 65536 * s.srcOwner n
  else if base < 0x70400 then irVecWord (s.irVec owner ((base - 0x70000) / 4))
  else irSlotWord (s.irSlot owner ((base - 0x71000) / 4))

/-- A read of DMA_CH[n] (R307 to R309). GO and ABORT read 0. -/
def dmaRegRead (x : Chan) (reg : Nat) : Nat :=
  match reg with
  | 0 => 2 * bit x.pause + 64 * x.ctrlDesc.toNat
  | 1 => (chanStat x).toNat
  | 2 => x.curDesc.toNat
  | 3 => x.curSrc.toNat
  | 4 => x.curDst.toNat
  | 5 => x.curLen.toNat
  | 6 => x.share.toNat
  | _ => 0

/-- A read of a room register of room `r`, which exists. -/
def State.roomRegRead (s : State) (r base : Nat) : Nat × State :=
  let x := s.room r
  if base < 0x100 then
    (match base with
      | 0x08 => roomStat x
      | 0x10 => x.evt.toNat
      | 0x18 => roomFaultWord x
      | 0x20 => bit (s.fn (r + 1)).hint
      | 0x28 => x.tallyErr.toNat
      | 0x30 => x.tallyEvt.toNat
      | 0x38 => x.cueErr.toNat
      | 0x40 => x.cueEvt.toNat
      | _ => 0, s)
  else if base < 0x1A000 then
    let (v, s) := s.tallyValRead r ((base - 0x10000) / 8)
    (v.toNat, s)
  else if 0x30000 ≤ base && base < 0x40000 then
    let c := CueRef.dev (Fin.ofNat 2048 ((base - 0x30000) / 32))
    (if s.cueOwnerOf c = some r then (s.cueRegRead c (base % 32 / 8)).toNat else 0, s)
  else if 0x40000 ≤ base && base < 0x41000 then
    let n := (base - 0x40000) / 16
    (if base % 16 = 0 then (s.watch n).value.toNat else (s.watchCtl n).toNat, s)
  else if 0x50000 ≤ base && base < 0x51000 then (dmaRegRead (s.chan (.sys (Fin.ofNat 64 ((base - 0x50000) / 64)))) (base % 64 / 8), s)
  else if 0x60000 ≤ base && base < 0x80000 then (s.irRead r base, s)
  else if 0x100000 ≤ base then ((s.qregRead ((base - 0x100000) / 0x10000) (base % 0x10000)).toNat, s)
  else (0, s)

/-- A read of a device register (R411). -/
def State.devRegRead (s : State) (base : Nat) : Nat :=
  if base = 0 then s.clk.pos.toNat
  else if base = 8 then s.posStat.toNat
  else if base = 0x10 then s.clk.evt.toNat
  else if base = 0x18 then s.dev.cueErr.toNat
  else if base = 0x20 then s.dev.cueEvt.toNat
  else if 0x3FE00 ≤ base && base < 0x40000 then (s.cueRegRead (.dev (Fin.ofNat 2048 ((base - 0x30000) / 32))) (base % 32 / 8)).toNat
  else if 0x60000 ≤ base && base < 0x80000 then s.irRead devOwner base
  else if 0x80000 ≤ base && base < 0x80100 then
    (if base % 16 = 0 then s.portStat ((base - 0x80000) / 16) else (s.port ((base - 0x80000) / 16)).evt.toNat)
  else 0

/-- A read of the register at `base`. Registers of a room that does not exist read 0 (R407). -/
def State.regGet (s : State) (f base : Nat) : Nat × State :=
  if (hostSpan base).isSome then (hostSideRead (s.fn f) base, s)
  else if f = 0 then (s.devRegRead base, s)
  else if base = 0x60 then (s.clk.pos.toNat, s)
  else if 0x100 ≤ base && base < 0x180 then
    let a := Tbl.get {} (s.fn f).apt ((base - 0x100) / 8)
    (2 ^ 21 * a.base.toNat + 2 ^ 63 * bit a.en, s)
  else if (s.room (f - 1)).exists' then s.roomRegRead (f - 1) base
  else (0, s)

/-! ### Accesses (R413, R414) -/

/-- The access is of 4 or 8 bytes and naturally aligned. -/
def accessOk (off size : Nat) : Bool := (size = 4 || size = 8) && off % size = 0

/-- The register is one of a resource outside the function's room, which exists. -/
def State.regForeign (s : State) (f base : Nat) : Bool := f ≠ 0 && !hostSide base && (s.room (f - 1)).exists' && s.foreignReg (f - 1) base

/-- A BAR0 write of `size` bytes by function `f` (R413, R414). -/
def State.bar0Write (s : State) (f off size v : Nat) : State :=
  if !accessOk off size then s.hostErrRec f 0 off 2
  else if msixArea f off then (if off < 0xF80000 then s.msixWrite f (off - 0xF00000) size v else s)
  else match fnSpan f off with
    | none => s
    | some x =>
      if x.base + x.size < off + size then s.hostErrRec f 0 off 2
      else if s.regForeign f x.base then s.hostErrRec f 0 off 1
      else if x.ro then s
      else if x.size = 8 && size = 4 then
        if !x.wide then (if off = x.base then s.regPut f x.base (v % 2 ^ 32) else s)
        else if off = x.base then s.modFn f fun y => { y with stage := some (BitVec.ofNat 24 x.base, BitVec.ofNat 32 v) }
        else match (s.fn f).stage with
          | some (b, lo) =>
            if b.toNat = x.base then (s.modFn f fun y => { y with stage := none }).regPut f x.base (lo.toNat + 2 ^ 32 * (v % 2 ^ 32))
            else s.hostErrRec f 0 off 2
          | none => s.hostErrRec f 0 off 2
      else
        let s := s.modFn f fun y => match y.stage with
          | some (b, _) => if b.toNat = x.base then { y with stage := none } else y
          | none => y
        s.regPut f x.base (v % 2 ^ (8 * size))

/-- The register is 64 bits wide and read-only, so that a read of its low half latches the high half (R33, R413). -/
def latches (x : RegSpan) : Bool := x.size = 8 && x.ro

/-- A BAR0 read of `size` bytes by function `f` (R413, R414). -/
def State.bar0Read (s : State) (f off size : Nat) : Nat × State :=
  if !accessOk off size then (0, s.hostErrRec f 0 off 2)
  else if msixArea f off then (s.msixRead f off size, s)
  else match fnSpan f off with
    | none => (0, s)
    | some x =>
      if x.base + x.size < off + size then (0, s.hostErrRec f 0 off 2)
      else if s.regForeign f x.base then (0, s.hostErrRec f 0 off 1)
      else if size = 4 && off = x.base + 4 then
        match latches x, Tbl.get none (s.fn f).latch x.base with
        | true, some h => (h.toNat, s.modFn f fun y => { y with latch := Tbl.put none y.latch x.base none })
        | _, _ =>
          let (v, s) := s.regGet f x.base
          (v / 2 ^ 32, s)
      else
        let (v, s) := s.regGet f x.base
        if size = 4 && latches x then
          (v % 2 ^ 32, s.modFn f fun y => { y with latch := Tbl.put none y.latch x.base (some (BitVec.ofNat 32 (v / 2 ^ 32))) })
        else (v % 2 ^ (8 * size), s)

end Sys2Proof.Machine
end

