-- ==== Sys2Proof/Machine/Glaze.lean ====
section
/-! DEFINITION. The Glaze compositor: pipes, commits, fences, frame boundaries and video outputs (R493 to R517, R584). -/

namespace Sys2Proof.Machine

/-- Replace pipe `p`. -/
def State.setPipe (s : State) (p : Nat) (x : Pipe) : State := { s with glz := { s.glz with pipe := Tbl.put {} s.glz.pipe p x } }
/-- Change pipe `p`. -/
def State.modPipe (s : State) (p : Nat) (f : Pipe → Pipe) : State := s.setPipe p (f (s.pipe p))

/-! ### The shadow block (R502, R505) -/

/-- The fields of a layer from the 64 bytes of its part of the shadow block (R502). -/
def parseLayer (bs : List Byte) : Layer :=
  { base := BitVec.ofNat 64 (fieldAt bs 0 8), pitch := BitVec.ofNat 32 (fieldAt bs 8 4), format := BitVec.ofNat 8 (fieldAt bs 12 1),
    matrix := BitVec.ofNat 8 (fieldAt bs 13 1), blend := BitVec.ofNat 8 (fieldAt bs 14 1), alpha := BitVec.ofNat 8 (fieldAt bs 15 1),
    sx := BitVec.ofNat 16 (fieldAt bs 16 2), sy := BitVec.ofNat 16 (fieldAt bs 18 2), sw := BitVec.ofNat 16 (fieldAt bs 20 2), sh := BitVec.ofNat 16 (fieldAt bs 22 2),
    dx := BitVec.ofNat 16 (fieldAt bs 24 2), dy := BitVec.ofNat 16 (fieldAt bs 26 2), dw := BitVec.ofNat 16 (fieldAt bs 28 2), dh := BitVec.ofNat 16 (fieldAt bs 30 2),
    hset := BitVec.ofNat 8 (fieldAt bs 32 1), vset := BitVec.ofNat 8 (fieldAt bs 33 1), fenceT := BitVec.ofNat 16 (fieldAt bs 34 2),
    fenceVal := BitVec.ofNat 64 (fieldAt bs 40 8) }

/-- The bytes of layer `l` in a shadow block. -/
def layerBytes (sh : List Byte) (l : Nat) : List Byte := slice sh (64 + 64 * l) 64

/-- The pipe image that a shadow block and a coefficient block describe. -/
def parseImage (sh co : List Byte) : PipeImage :=
  { en := BitVec.ofNat 8 (fieldAt sh 0 1), background := BitVec.ofNat 32 (fieldAt sh 4 4),
    layers := (List.range 8).foldl (fun t l => Tbl.put {} t l (parseLayer (layerBytes sh l))) [],
    coef := toTbl co }

/-- Layer `l` is enabled (R502). -/
def imageEnables (i : PipeImage) (l : Nat) : Bool := i.en.getLsbD l
/-- Layer `l` of an image. -/
def imageLayer (i : PipeImage) (l : Nat) : Layer := Tbl.get {} i.layers l

/-- The coefficient with number `k` in 16-bit units of the coefficient block (R505). -/
def coefAt (co : Tbl Byte) (k : Nat) : Int := (Tbl.get 0 co (2 * k + 1) ++ Tbl.get 0 co (2 * k) : BitVec 16).toInt
/-- Horizontal coefficient c[φ][k] of set `st` (R505). -/
def hCoef (co : Tbl Byte) (st ph k : Nat) : Int := coefAt co (896 * st + 8 * ph + k)
/-- Vertical coefficient c[φ][k] of set `st` (R505). -/
def vCoef (co : Tbl Byte) (st ph k : Nat) : Int := coefAt co (896 * st + 512 + 6 * ph + k)

/-! ### The checks of a commit (R508) -/

/-- Reserved bytes of the header are not 0 (R502). -/
def headerReserved (sh : List Byte) : Bool := fieldAt sh 1 3 ≠ 0 || bitsOf (fieldAt sh 4 4) 30 2 ≠ 0 || fieldAt sh 8 56 ≠ 0
/-- Unlisted bytes of a layer are not 0 (R502). -/
def layerReserved (bs : List Byte) : Bool := fieldAt bs 36 4 ≠ 0 || fieldAt bs 48 16 ≠ 0

/-- The taps of a phase lie in range and sum to 1,024 (R505). -/
def tapsOk (l : List Int) : Bool := (l.all fun c => -2048 ≤ c && c ≤ 2047) && l.sum = 1024
/-- Every horizontal phase of a set meets R505. -/
def hSetOk (co : Tbl Byte) (st : Nat) : Bool := (List.range 64).all fun ph => tapsOk ((List.range 8).map (hCoef co st ph))
/-- Every vertical phase of a set meets R505. -/
def vSetOk (co : Tbl Byte) (st : Nat) : Bool := (List.range 64).all fun ph => tapsOk ((List.range 6).map (vCoef co st ph))

/-- The coefficient sets that a layer names meet R505. -/
def layerSetsOk (co : Tbl Byte) (l : Layer) : Bool := (l.hset = 255 || hSetOk co l.hset.toNat) && (l.vset = 255 || vSetOk co l.vset.toNat)

/-- Row 3, FORMAT, of a layer (R499, R501, R508). -/
def layerFormatOk (l : Layer) : Bool :=
  l.format.toNat ≤ 5 && (if l.format = 3 || l.format = 4 then 1 ≤ l.matrix.toNat && l.matrix.toNat ≤ 4 else l.matrix = 0) &&
  (l.hset = 255 || l.hset.toNat < 4) && (l.vset = 255 || l.vset.toNat < 4)

/-- The active size of a raster format (R496). -/
def rasterSize (f : Nat) : Nat × Nat := if 11 ≤ f then (3840, 2160) else (1920, 1080)

/-- A scaler's step lies in range, or the sizes agree without scaling (R506). -/
def scaleOk (st src dst : Nat) : Bool := if st = 255 then dst = src else 4096 ≤ src * 65536 / dst && src * 65536 / dst ≤ 262144

/-- Row 4, RECT, of a layer (R499, R506, R508). -/
def layerRectOk (l : Layer) (w h : Nat) : Bool :=
  l.sw ≠ 0 && l.sh ≠ 0 && l.dw ≠ 0 && l.dh ≠ 0 && l.dx.toNat + l.dw.toNat ≤ w && l.dy.toNat + l.dh.toNat ≤ h &&
  (!(l.format = 3 || l.format = 4) || (l.sx.toNat % 2 = 0 && l.sw.toNat % 2 = 0)) &&
  scaleOk l.hset.toNat l.sw.toNat l.dw.toNat && scaleOk l.vset.toNat l.sh.toNat l.dh.toNat

/-- Bytes of the first `n` pixels of a line (R499). -/
def pixelBytes (fmt n : Nat) : Nat :=
  match fmt with
  | 0 | 1 => 4 * n
  | 2 => 8 * n
  | 3 => 2 * n
  | 4 => 4 * n
  | _ => 2 * n

/-- Row 5, MEMORY, of a layer of room `r` (R508). -/
def State.layerMemOk (s : State) (r : Nat) (l : Layer) : Bool :=
  let n := pixelBytes l.format.toNat (l.sx.toNat + l.sw.toNat)
  l.base.toNat % 256 = 0 && l.pitch.toNat % 256 = 0 && n ≤ l.pitch.toNat &&
  (List.range l.sh.toNat).all fun i => s.ownsHbm r (l.base.toNat + (l.sy.toNat + i) * l.pitch.toNat) n

/-- Row 6, FENCE, of a layer (R508). -/
def State.layerFenceOk (s : State) (r : Nat) (l : Layer) : Bool :=
  l.fenceT = 0xFFFF || match (s.room r).form with | some f => formOwns f l.fenceT.toNat | none => false

/-- The first check of R508, rows 3 to 6, that fails: its code and layer; (0, 0) when all pass. -/
def State.commitCheck (s : State) (p r : Nat) (sh co : List Byte) : Nat × Nat :=
  let i := parseImage sh co
  let (w, h) := rasterSize (s.pipeFormat p)
  let en := (List.range 8).filter fun l => imageEnables i l
  let held := ((s.pipe p).heldL.map fun e => e.2).filterMap id
  let first : (Nat → Bool) → Option Nat := fun ok => en.find? fun l => !ok l
  if headerReserved sh then (3, 0)
  else match first fun l => !layerReserved (layerBytes sh l) && layerFormatOk (imageLayer i l) && layerSetsOk i.coef (imageLayer i l) with
    | some l => (3, l)
    | none =>
      if held.any fun y => !layerSetsOk i.coef y then (3, 0)
      else match first fun l => layerRectOk (imageLayer i l) w h with
        | some l => (4, l)
        | none => match first fun l => s.layerMemOk r (imageLayer i l) with
          | some l => (5, l)
          | none => match first fun l => s.layerFenceOk r (imageLayer i l) with
            | some l => (6, l)
            | none => (0, 0)

/-! ### Commits (R507 to R509) -/

/-- A commit request is taken, or waits for the read in progress (R507). -/
def State.requestCommit (s : State) (p : Nat) : State :=
  s.modPipe p fun x => if x.reading then { x with waiting := true }
    else { x with reading := true, takenAt := if s.posValid then some s.clk.pos else none }

/-- The read in progress ends, and a waiting request is taken (R507). -/
def State.readEnds (s : State) (p : Nat) : State :=
  let s := s.modPipe p fun x => { x with reading := false, takenAt := none }
  if (s.pipe p).waiting then (s.modPipe p fun x => { x with waiting := false }).requestCommit p else s

/-- A refused commit changes nothing but its record (R508). -/
def State.refuseCommit (s : State) (p code layer : Nat) : State :=
  s.modPipe p fun x => { x with refused := true, refCode := BitVec.ofNat 8 code, refLayer := BitVec.ofNat 8 layer, refusals := x.refusals + 1 }

/-- A fence of a layer (R502). -/
def hasFence (l : Layer) : Bool := l.fenceT ≠ 0xFFFF

/-- The waits of a pipe's layers end. -/
def State.dropLayerWaits (s : State) (p : Nat) : State :=
  { s with tal := { s.tal with waits := s.tal.waits.filter fun w => match w.who with | .layer q _ => q.val ≠ p | _ => true } }

/-- An accepted commit becomes the pending state: it replaces what is pending or held, and each enabled layer with a fence registers its wait (R509, R511). -/
def State.acceptCommit (s : State) (p : Nat) (i : PipeImage) : State :=
  let s := s.dropLayerWaits p
  let s := s.modPipe p fun x => { x with
    pending := some i, pendAt := x.takenAt, refused := false, met := 0,
    dropped := x.dropped + BitVec.ofNat 64 x.heldL.length, heldL := [] }
  forN 8 (fun l s =>
    let y := imageLayer i l
    if imageEnables i l && hasFence y then (s.registerWait (.layer (Fin.ofNat 2 p) (Fin.ofNat 8 l)) y.fenceT.toNat y.fenceVal).2 else s) s

/-- SHADOW_CHECK (R508): the blocks have been read, and the commit is accepted or refused. -/
def execShadowCheck (p : Fin 2) (s : State) : Host.Outcome State Fault Refusal :=
  .next (settle s (let x := s.pipe p
    match x.reading, x.owner with
    | true, some r =>
      if !x.placed then (s.refuseCommit p 1 0).readEnds p
      else match s.readMem x.shadow.toNat 576 with
        | (none, s) => (s.refuseCommit p 2 0).readEnds p
        | (some sh, s) => match s.readMem x.coefAddr.toNat 7168 with
          | (none, s) => (s.refuseCommit p 2 0).readEnds p
          | (some co, s) => match s.commitCheck p r sh co with
            | (0, _) => (s.acceptCommit p (parseImage sh co)).readEnds p
            | (c, l) => (s.refuseCommit p c l).readEnds p
    | _, _ => s))

/-! ### Fences and frame boundaries (R509 to R512) -/

/-- The wait of a layer's fence is registered, so its condition does not hold. -/
def State.fenceWaits (s : State) (p l : Nat) : Bool := s.tal.waits.any fun w => w.who = .layer (Fin.ofNat 2 p) (Fin.ofNat 8 l)

/-- A layer state waits for its fence at a frame boundary: held, or pending with a fence. -/
def layerAwaits (x : Pipe) (l : Nat) : Bool :=
  (Tbl.get none x.heldL l).isSome || match x.pending with | some i => imageEnables i l && hasFence (imageLayer i l) | none => false

/-- DECISION_POINT (R511): 20 µs before the boundary, each fence is met or not. -/
def execDecisionPoint (p : Fin 2) (s : State) : Host.Outcome State Fault Refusal :=
  .next (s.modPipe p fun x => { x with met := BitVec.ofNat 8 ((List.range 8).foldl (fun m l => m + 2 ^ l * bit (layerAwaits x l && !s.fenceWaits p l)) 0) })

/-- Ticks from position `a` forward to position `b`. -/
def State.ticksBetween (s : State) (a b : Pos) : Int :=
  ((framesTo a b : Int) * s.lpf + posLine b - posLine a) * s.tpl + posTick b - posTick a

/-- The boundary now comes at least 50 µs after the request behind the pending state was taken (R509): by the position where it was valid at both, else by a free value (log 27). -/
def State.pendingRipe (s : State) (p : Nat) : Bool :=
  match (s.pipe p).pendAt, s.posValid with
  | some a, true => 50 * (s.cfgN 0x2001 3 : Int) * s.lpf * s.tpl ≤ s.ticksBetween a s.clk.pos * 1000000 * s.cfgN 0x2001 4
  | _, _ => s.freeVal 1 = 1

/-- Layer `l` shows state `y` from now on: a flip (R512). -/
def flipLayer (x : Pipe) (l : Nat) (y : Layer) : Pipe :=
  { x with active := { x.active with layers := Tbl.put {} x.active.layers l y }, heldL := Tbl.put none x.heldL l none, heldCnt := Tbl.put 0 x.heldCnt l 0 }

/-- Layer `l` holds state `y` at this boundary (R511, R512); a state newly held is counted, and the count that reaches `late` is a late event. -/
def holdLayer (late : Nat) (x : Pipe) (l : Nat) (y : Layer) (new : Bool) : Pipe :=
  let n := Tbl.get 0 x.heldCnt l + 1
  { x with heldL := Tbl.put none x.heldL l (some y), heldCnt := Tbl.put 0 x.heldCnt l n,
           heldStates := if new then x.heldStates + 1 else x.heldStates, lateEvents := if n = late then x.lateEvents + 1 else x.lateEvents }

/-- The pending state takes effect at a boundary (R509). -/
def applyPending (late : Nat) (pos : Pos) (x : Pipe) (i : PipeImage) : Pipe :=
  let x := { x with active := { x.active with en := i.en, background := i.background, coef := i.coef }, pending := none, pendAt := none,
                    commits := x.commits + 1, lastCommit := pos }
  forN 8 (fun l x =>
    let y := imageLayer i l
    if imageEnables i l && hasFence y && !x.met.getLsbD l then holdLayer late x l y true else flipLayer x l y) x

/-- Held layers at a boundary with no pending state to apply (R511). -/
def applyHeld (late : Nat) (x : Pipe) : Pipe :=
  forN 8 (fun l x => match Tbl.get none x.heldL l with
    | some y => if x.met.getLsbD l then flipLayer x l y else holdLayer late x l y false
    | none => x) x

/-- A layer reads the granule with number `g`: one of the bytes of its source lines (R504). Lines start at multiples of 256, so a granule lies in one line. -/
def layerReads (y : Layer) (g : Nat) : Bool :=
  let lo := y.base.toNat + y.sy.toNat * y.pitch.toNat
  let line := (8 * g - lo) / y.pitch.toNat
  let start := lo + line * y.pitch.toNat + pixelBytes y.format.toNat y.sx.toNat
  y.pitch ≠ 0 && lo ≤ 8 * g && line < y.sh.toNat && start < 8 * g + 8 && 8 * g < start + pixelBytes y.format.toNat y.sw.toNat

/-- The granules with an error that the frame just scanned out has read (R504), each once a frame (DESIGN CHOICE, log 136). -/
def State.pixelErrors (s : State) (p : Nat) : List (Nat × Byte) :=
  let x := s.pipe p
  if x.owner.isNone then []
  else s.synd.filter fun e => (List.range 8).any fun l => imageEnables x.active l && layerReads (imageLayer x.active l) e.1

/-- Those of them that are uncorrectable (R504). -/
def State.badPixelGranules (s : State) (p : Nat) : Nat := ((s.pixelErrors p).filter fun e => readSynd e.2 = .bad).length

/-- FRAME_BOUNDARY (R369, R494, R504, R509 to R512); `underrun` says whether the frame that ends had one. -/
def execFrameBoundary (p : Fin 2) (underrun : Bool) (s : State) : Host.Outcome State Fault Refusal :=
  .next (settle s (let x := s.pipe p
    let late := s.cfgN 0x8005 1
    let bad := s.badPixelGranules p
    let ripe := s.pendingRipe p
    let s := (s.sweep (s.pixelErrors p)).spend
    let x := { x with underrun := underrun || bad ≠ 0, underruns := if underrun then x.underruns + 1 else x.underruns, badPixels := x.badPixels + BitVec.ofNat 64 bad }
    if x.released then s.setPipe p { x with active := {}, released := false, met := 0 }
    else
      let x := match x.pending with
        | some i => if ripe then applyPending late s.posOrZero x i else applyHeld late x
        | none => applyHeld late x
      s.setPipe p { x with met := 0 }))

/-- Pipes that become LOCKED between `s` and `t` may retime one frame; how many outputs count is the part's phase error, a free value (R498, log 27). -/
def State.pipesLock (s t : State) : State :=
  forN 2 (fun p u =>
    if t.pipeLocked p && !s.pipeLocked p && u.freeVal 1 = 1 then
      forN 3 (fun o (u : State) => if t.outPipe o = p && t.outEnabled o then
        { u with glz := { u.glz with out := Tbl.put {} u.glz.out o { u.vout o with retimed := (u.vout o).retimed + 1 } } } else u) u.spend
    else u.spend) t

/-! ### Commands (R494, R502, R507) -/

/-- PIPE_ASSIGN (R494, R495). -/
def State.assignEffect (s : State) (r p : Nat) : Eff :=
  if 1 < p || 15 < r then .refuse stRANGE s
  else if !(s.room r).isFormed || (s.pipe p).owner = some (toRoom r) then .refuse stSTATE s
  else if (s.pipe p).owner.isSome then .refuse stCONFLICT s
  else .ok (s.modPipe p fun x => { x with owner := some (toRoom r), active := {}, released := false, placed := false, shadow := 0, coefAddr := 0 })

/-- PIPE_SHADOW (R502, R518). -/
def State.shadowEffect (s : State) (r p shadow coef : Nat) : Eff :=
  if 1 < p || 15 < r || shadow % 64 ≠ 0 || coef % 64 ≠ 0 || !s.ownsHbm r shadow 576 || !s.ownsHbm r coef 7168 then .refuse stRANGE s
  else if (s.pipe p).owner ≠ some (toRoom r) then .refuse stSTATE s
  else .ok (s.modPipe p fun x => { x with placed := true, shadow := BitVec.ofNat 64 shadow, coefAddr := BitVec.ofNat 64 coef })

/-- COMMIT (R507): a request for each pipe of the mask. -/
def State.commitEffect (s : State) (r mask : Nat) : Eff :=
  if 15 < r || 4 ≤ mask || ((bitList 2 mask).any fun p => (s.pipe p).owner ≠ some (toRoom r)) then .refuse stSTATE s
  else .ok (forL (bitList 2 mask) (fun p s => s.requestCommit p) s)

/-! ### Outputs (R515, R516, R584) -/

/-- An output that can be shorted. -/
def State.vid (s : State) : VidOut → VOut
  | .refLoop => s.glz.refLoop
  | .sdi m => s.vout m
def State.setVid (s : State) (o : VidOut) (x : VOut) : State :=
  match o with
  | .refLoop => { s with glz := { s.glz with refLoop := x } }
  | .sdi m => { s with glz := { s.glz with out := Tbl.put {} s.glz.out m x } }

/-- The output drives its load (R581, R584). -/
def State.vidDrives (s : State) : VidOut → Bool
  | .refLoop => s.pow.auxOk && !s.glz.refLoop.fault
  | .sdi m => s.outActive m

/-- HOT_PLUG_DETECT (R515). -/
def execHotPlugDetect (high : Bool) (s : State) : Host.Outcome State Fault Refusal :=
  .next (settle s { s with glz := { s.glz with out := Tbl.put {} s.glz.out 2 { s.vout 2 with noSink := !high, linkFail := false, link := 0, lanes := 0 } } })

/-- DP_LINK_TRAINING (R515): a configuration that carries the pipe's format, or LINK_FAIL. -/
def execDpLinkTraining (d : DpTrain) (s : State) : Host.Outcome State Fault Refusal :=
  .next (settle s (let x := s.vout 2
    if x.noSink || !s.outEnabled 2 then s
    else
      let put : VOut → State := fun y => { s with glz := { s.glz with out := Tbl.put {} s.glz.out 2 y } }
      match d with
      | .fail => put { x with linkFail := true, link := 0, lanes := 0, trainings := x.trainings + 1 }
      | .up link lanes =>
        if link ≠ 0 && (lanes = 4 || lanes = 2) then
          put { x with linkFail := false, link := BitVec.ofNat 4 link, lanes := BitVec.ofNat 4 lanes, trainings := x.trainings + 1 }
        else s))

/-- CURRENT_LIMIT (R584): a driving output limits; a retrying one stops until its next retry. -/
def execCurrentLimit (o : VidOut) (s : State) : Host.Outcome State Fault Refusal :=
  .next (let x := s.vid o
    if x.retrying then s.setVid o { x with retrying := false }
    else if s.vidDrives o then s.setVid o { x with limiting := true }
    else s)

/-- OUTPUT_FAULT (R584): 20 µs at the limit. -/
def execOutputFault (o : VidOut) (s : State) : Host.Outcome State Fault Refusal :=
  .next (settle s (let x := s.vid o
    if x.limiting then s.setVid o { x with limiting := false, fault := true, faults := match o with | .refLoop => x.faults | .sdi _ => x.faults + 1 } else s))

/-- FAULT_RETRY (R584). -/
def execFaultRetry (o : VidOut) (s : State) : Host.Outcome State Fault Refusal :=
  .next (let x := s.vid o
    if x.fault then s.setVid o { x with retrying := true } else s)

/-- RETRY_END (R584): the retry's millisecond passed without the limit, and the fault ends. -/
def execRetryEnd (o : VidOut) (s : State) : Host.Outcome State Fault Refusal :=
  .next (settle s (let x := s.vid o
    if x.retrying then s.setVid o { x with retrying := false, fault := false } else s))

/-- SHORT_REMOVED (R584): limiting ends before 20 µs. -/
def execShortRemoved (o : VidOut) (s : State) : Host.Outcome State Fault Refusal :=
  .next (let x := s.vid o
    if x.limiting then s.setVid o { x with limiting := false } else s)

end Sys2Proof.Machine
end

