-- ==== Sys2Proof/Machine/Clock.lean ====
section
/-! DEFINITION. The Position Clock: sources, states, steps, the keeper and its election, and sync words (R29 to R57, R341, R605). -/

namespace Sys2Proof.Machine

/-! ### Sources (R35, R36, R605) -/

/-- Total lines and frame rate of an analog format code (R36). -/
def analogFormat : Nat → Option (Nat × Nat × Nat)
  | 1 => some (525, 30000, 1001) | 2 => some (625, 25, 1)
  | 3 => some (750, 50, 1) | 4 => some (750, 60000, 1001) | 5 => some (750, 60, 1)
  | 6 => some (1125, 25, 1) | 7 => some (1125, 30000, 1001) | 8 => some (1125, 30, 1)
  | 9 => some (1125, 24000, 1001) | 10 => some (1125, 24, 1) | 11 => some (1125, 25, 1) | 12 => some (1125, 30000, 1001)
  | 13 => some (1125, 30, 1) | 14 => some (1125, 50, 1) | 15 => some (1125, 60000, 1001) | 16 => some (1125, 60, 1)
  | _ => none

/-- The format's lines equal LPF and its rate equals the frame rate as a ratio (R36). -/
def State.formatMatches (s : State) (fmt : Nat) : Bool :=
  match analogFormat fmt with
  | some (l, n, d) => l = s.lpf && n * s.cfgN 0x2001 4 = d * s.cfgN 0x2001 3
  | none => false

/-- The source with a code (R35). -/
def sourceOf : Nat → Option ClockSource
  | 1 => some .analog | 2 => some .ptp | 3 => some .fabric | 4 => some .synthetic | _ => none

def State.primary (s : State) : Option ClockSource := sourceOf (s.cfgN 0x2010 1)
def State.secondary (s : State) : Option ClockSource := sourceOf (s.cfgN 0x2010 2)

/-- The source is configured on the keeper. -/
def State.configured (s : State) (x : ClockSource) : Bool := s.primary = some x || s.secondary = some x

/-- The source is present (R605). -/
def State.sourcePresent (s : State) : ClockSource → Bool
  | .analog => s.clk.presentAnalog
  | .ptp => s.clk.presentPtp
  | .fabric => s.clk.presentFabric
  | .synthetic => s.configured .synthetic

/-- A configured source that is present. -/
def State.here (s : State) (o : Option ClockSource) : Bool := match o with | some x => s.sourcePresent x | none => false

def State.modClk (s : State) (f : Clock → Clock) : State := { s with clk := f s.clk }

def putPresent (c : Clock) (x : ClockSource) (b : Bool) : Clock :=
  match x with
  | .analog => { c with presentAnalog := b }
  | .ptp => { c with presentPtp := b }
  | .fabric => { c with presentFabric := b }
  | .synthetic => c

/-- A room is formed (R376): rw-idle entries cannot change, and the clock does not step. -/
def State.anyFormed (s : State) : Bool := (List.range 16).any fun r => (s.room r).isFormed

/-! ### Entering states (R42) -/

/-- The clock enters LOCKED. Where the position becomes valid, armed cues at or behind it are late (R75), and pipes may lock (R498). -/
def State.lock (s : State) (p : Pos) : State :=
  let was := s.posValid
  let t := (s.modClk fun c => { c with state := .locked, pos := if was then c.pos else p, agedBit := false }).raisePos 1
  pipesLock s (if was then t else t.cuesValid)

/-- The clock leaves LOCKED for HOLDOVER, following no source (R42, R49). -/
def State.holdover (s : State) : State :=
  if s.clk.state = .locked then (s.modClk fun c => { c with state := .holdover, src := none }).raisePos 2
  else s.modClk fun c => { c with src := if c.state = .free then none else c.src }

/-- FRAME takes #2001.05, at 0:0 (R37, R41). -/
def State.presetPos (s : State) : Pos := mkPos (s.cfgN 0x2001 5) 0 0

/-- From FREE or ACQUIRE: the source to acquire (R605), the fabric on a device that is not the keeper (R35). -/
def State.toAcquire (s : State) : Option ClockSource :=
  if s.clk.tooFar then none
  else if s.isKeeper then (if s.here s.primary then s.primary else if s.here s.secondary then s.secondary else none)
  else if s.clk.presentFabric then some .fabric else none

/-- The clock acquires where it is FREE or in ACQUIRE (R41, R42, R605). The synthetic source locks at once. -/
def State.acquire (s : State) : State :=
  if s.posValid then s
  else match s.toAcquire with
    | none => s.modClk fun c => { c with src := none }
    | some .synthetic => (s.modClk fun c => { c with src := some .synthetic }).lock s.presetPos
    | some x => s.modClk fun c => { c with state := .acquire, src := some x }

/-- The clock in HOLDOVER, or on another source, moves to source `x` by slewing (R49). The synthetic source takes the present phase and locks at once (R41). The manual does not say which state a clock reports that slews from its secondary back to its primary; the model leaves it LOCKED, with SRC the primary at once (DESIGN CHOICE, log 111). -/
def State.moveTo (s : State) (x : ClockSource) (offset : Int) : State :=
  let s := s.modClk fun c => { c with src := some x, offsetNs := if x = .synthetic then 0 else offset }
  if x = .synthetic && s.clk.state ≠ .locked then s.lock s.clk.pos else s

/-- A device alone in its domain is its own keeper, and the first keeper takes epoch 1 (R35, R51). -/
def State.ownKeeper (s : State) : State :=
  if s.alone then s.modClk fun c => { c with keeperNo := BitVec.ofNat 16 s.devNo, keeperEpoch := if c.keeperEpoch = 0 then 1 else c.keeperEpoch, hops := 0, parentPort := 255 } else s

/-- The clock returns to FREE, and acquires again from the sources configured (R44). -/
def State.clockFree (s : State) : State :=
  let was := s.clk
  let s := s.modClk fun c => { c with state := .free, pos := 0, src := none, agedBit := false, disagree1 := false, disagree2 := false, disagreeNs := 0, offsetNs := 0,
                                      presentAnalog := s.formatMatches c.format }
  let s := if was.state = .locked then s.raisePos 2 else s
  (if was.presentAnalog && !s.clk.presentAnalog then s.raisePos 32 else s).ownKeeper.acquire

/-! ### Ticks -/

/-- POSITION_TICK (R29): the position advances while it is valid; cues it reaches become due. -/
def execPositionTick (s : State) : Host.Outcome State Fault Refusal :=
  .next (if s.posValid then (s.modClk fun c => { c with pos := nextTick s.lpf s.tpl c.pos }).cuesReached else s)

/-! ### Sources come and go -/

/-- A source has become present (R42, R49, R605). In HOLDOVER, with no source followed, the clock moves to a returned primary at once. -/
def State.nowPresent (s : State) (x : ClockSource) : State :=
  let s := (s.modClk fun c => putPresent c x true).ownKeeper
  if !s.posValid then (if s.clk.src.isNone || s.isKeeper then s.acquire else s)
  else if s.clk.state = .holdover && s.clk.src.isNone then
    (if s.isKeeper then (if s.primary = some x then s.moveTo x s.clk.offsetNs else s)
     else if x = .fabric && !s.clk.tooFar then s.moveTo x s.clk.offsetNs else s)
  else s

/-- A local input whose offset is measured against the fabric (R48). -/
def localInput : Option ClockSource → Bool
  | some .analog | some .ptp => true
  | _ => false

/-- The input that a device other than the keeper reports in #2011.01 (R48): the one named in #2010.01 while it is present, otherwise the one named in #2010.02. -/
def State.reported (s : State) : Option ClockSource :=
  if localInput s.primary && s.here s.primary then s.primary else if localInput s.secondary && s.here s.secondary then s.secondary else none

/-- What R48 clears at once when source `x` stops being present: DISAGREE of every pair that holds `x`, and #2011.01 where it reported such a pair. -/
def State.endMeasure (s : State) (x : ClockSource) : State :=
  let all := s.isKeeper && s.configured x || !s.isKeeper && x = .fabric
  s.modClk fun c => { c with
    disagree1 := c.disagree1 && !(all || s.primary = some x)
    disagree2 := c.disagree2 && !(all || s.secondary = some x)
    disagreeNs := if all || s.reported = some x then 0 else c.disagreeNs }

/-- The clock stops following or acquiring source `x` (R42, R49): LOCKED becomes HOLDOVER, and ACQUIRE stays. A keeper whose primary is present moves to it at once, since the wait of #2010.05 applies only while it follows its secondary. -/
def State.leaveSource (s : State) (x : ClockSource) : State :=
  if s.clk.src = some x then
    match s.clk.state with
    | .locked | .holdover =>
      let s := if s.clk.state = .locked then s.holdover else s.modClk fun c => { c with src := none }
      match s.primary with
      | some y => if s.isKeeper && y ≠ x && s.sourcePresent y then s.moveTo y s.clk.offsetNs else s
      | none => s
    | _ => s.acquire
  else s

/-- A source stops being present (R42, R48, R49). -/
def State.nowLost (s : State) (x : ClockSource) : State :=
  ((s.endMeasure x).modClk fun c => putPresent c x false).leaveSource x

/-- SOURCE_LOST (R605). The synthetic source is never lost. -/
def execSourceLost (src : ClockSource) (s : State) : Host.Outcome State Fault Refusal :=
  .next (settle s (match src with
    | .synthetic => s
    | .analog => (s.nowLost .analog).modClk fun c => { c with format := 0 }
    | .ptp => (s.nowLost .ptp).modClk fun c => { c with ptpMaster := none }
    | .fabric => s.nowLost .fabric))

/-- The detected format changes (R36, R38). While the clock is LOCKED to the analog source, any change loses it. -/
def State.newFormat (s : State) (fmt : Fin 17) : State :=
  if fmt = s.clk.format then s
  else
    let s := s.modClk fun c => { c with format := fmt }
    if s.clk.src = some .analog && s.clk.state = .locked then (s.raisePos 32).nowLost .analog
    else if s.formatMatches fmt then s
    else (if fmt = 0 then s else s.raisePos 32).nowLost .analog

/-- SOURCE_PRESENT (R36, R605). Analog sync of a format that does not match is connected and not present. -/
def execSourcePresent (src : ClockSource) (fmt : Fin 17) (s : State) : Host.Outcome State Fault Refusal :=
  .next (settle s (match src with
    | .analog => if s.formatMatches fmt then (s.newFormat fmt).nowPresent .analog else if fmt = s.clk.format && fmt ≠ 0 then (s.raisePos 32).nowLost .analog else s.newFormat fmt
    | .synthetic => if s.configured .synthetic then s.nowPresent .synthetic else s
    | x => s.nowPresent x))

/-- FORMAT_CHANGE (R38). -/
def execFormatChange (fmt : Fin 17) (s : State) : Host.Outcome State Fault Refusal := .next (settle s (s.newFormat fmt))

/-- Saturate to an I32 (#2011.01). -/
def satI32 (x : Int) : BitVec 32 := BitVec.ofInt 32 (max (-2147483648) (min 2147483647 x))

/-- The offset of input `x` is measured (R48): on the keeper, `x` is the secondary, and neither source of the pair is absent or synthetic; on another device, `x` is a configured analog or PTP input, and it and the fabric are present. -/
def State.measures (s : State) (x : ClockSource) : Bool :=
  if s.isKeeper then s.secondary = some x && localInput s.primary && localInput s.secondary && s.here s.primary && s.here s.secondary
  else s.posValid && s.configured x && localInput (some x) && s.sourcePresent x && s.clk.presentFabric

/-- The offset measured of input `x` is the one that #2011.01 reports (R48). -/
def State.reports (s : State) (x : ClockSource) : Bool := s.measures x && (s.isKeeper || s.reported = some x)

/-- The keeper measures its secondary against its primary; an offset measured of input `x` against the clock's own frames stands for that pair where the clock follows the other source of it (R48). -/
def State.reportOffset (s : State) (x : ClockSource) (offsetNs : Int) : State :=
  if s.clk.src = some x then s.modClk fun c => { c with offsetNs := offsetNs }
  else match s.secondary with
    | some y =>
      if s.isKeeper then (if s.measures y && s.configured x then s.modClk fun c => { c with disagreeNs := satI32 (if s.primary = some x then -offsetNs else offsetNs) } else s)
      else if s.reports x then s.modClk fun c => { c with disagreeNs := satI32 offsetNs } else s
    | none => if !s.isKeeper && s.reports x then s.modClk fun c => { c with disagreeNs := satI32 offsetNs } else s

/-- ANALOG_REFERENCE_POINT (R36, R37, R48): a frame's reference point, `offsetNs` after the frame boundary that the clock runs on. -/
def execAnalogReferencePoint (fmt : Fin 17) (offsetNs : Int) (s : State) : Host.Outcome State Fault Refusal :=
  .next (settle s (let s := s.newFormat fmt
    if !s.clk.presentAnalog then s else s.reportOffset .analog offsetNs))

/-- What the best master clock algorithm compares of a master heard on a port, most significant first (R39; IEEE 1588 order, PRESUMED, log 110). -/
def ptpRank (m : PtpMaster) (port : Fin 2) : Nat :=
  [(8, m.clockClass.toNat), (8, m.accuracy.toNat), (16, m.variance.toNat), (8, m.priority2.toNat), (64, m.grandmaster.toNat), (16, m.steps.toNat), (64, m.sender.toNat), (1, port.val)].foldl
    (fun n f => n * 2 ^ f.1 + f.2) m.priority1.toNat

/-- The master that the algorithm holds once `m` is heard on `port` (R39): the better of the two, and the newest word of the one selected. -/
def State.bestMaster (s : State) (m : PtpMaster) (port : Fin 2) : PtpMaster × Fin 2 :=
  match s.clk.ptpMaster with
  | some b => if (b.1.sender = m.sender && b.2 = port) || ptpRank m port < ptpRank b.1 b.2 then (m, port) else b
  | none => (m, port)

/-- The precise time of a Sync message: its own of a one-step master, that of the Follow_Up of a two-step master (R39). -/
def syncTime (m : PtpSync) : PtpTime := m.followUp.getD m.origin

/-- PTP_SYNC (R39): a Sync message in the domain of #2020.01. Where it comes from the best master its time is taken, its delay is requested, and the offset of the frames that this time defines is reported (R48). -/
def execPtpSync (port : Fin 2) (m : PtpSync) (offsetNs : Int) (s : State) : Host.Outcome State Fault Refusal :=
  .next (if m.domain.toNat ≠ s.cfgN 0x2020 1 then s
    else
      let b := s.bestMaster m.master port
      let s := s.modClk fun c => { c with ptpMaster := some b }
      if b ≠ (m.master, port) then s
      else
        let s := (s.modClk fun c => { c with ptpTime := syncTime m }).emit (.ptpDelayReq port)
        if s.clk.presentPtp then s.reportOffset .ptp offsetNs else s)

/-- Nanoseconds of a PTP time. -/
def ptpNanos (t : PtpTime) : Nat := t.seconds.toNat * 1000000000 + t.nanos.toNat

/-- The position at PTP time `t` ns (R40): alignment points are the whole frame periods since the PTP epoch (SMPTE ST 2059-1, PRESUMED, log 110), and FRAME counts them from the first at or after #2020.02. -/
def State.ptpPos (s : State) (t : Nat) : Pos :=
  let num := s.cfgN 0x2001 3
  let unit := s.cfgN 0x2001 4 * 1000000000
  let n : Int := ((t * num / unit : Nat) : Int) - (((s.cfgN 0x2020 2 * num + s.cfgN 0x2001 4 - 1) / s.cfgN 0x2001 4 : Nat) : Int)
  let inFrame := t * num % unit * s.lpf
  mkPos (n % 2 ^ 36).toNat (inFrame / unit) (inFrame % unit * s.tpl / unit)

/-- LOCK_GAINED (R37, R40, R42, R55): the source the clock acquires or has moved to holds. From ACQUIRE the position becomes frame:line:tick from the fabric, line:tick of FRAME #2001.05 from the analog source, and from PTP the position `sincePtp` ns after the master's latest Sync message. A device whose keeper is in HOLDOVER reports HOLDOVER in place of LOCKED. -/
def execLockGained (frame : BitVec 36) (line tick : BitVec 14) (sincePtp : Nat) (s : State) : Host.Outcome State Fault Refusal :=
  .next (settle s (match s.clk.src with
    | none => s
    | some x =>
      let p := match x with
        | .ptp => s.ptpPos (ptpNanos s.clk.ptpTime + sincePtp)
        | .analog => mkPos (s.cfgN 0x2001 5) line.toNat tick.toNat
        | _ => mkPos frame.toNat line.toNat tick.toNat
      if !s.sourcePresent x then s
      else if x = .fabric && s.clk.keeperState ≠ 2 then
        (if s.clk.keeperState = 3 && s.clk.state = .acquire && posHeld s.lpf s.tpl p then
          s.pipesLock ((s.modClk fun c => { c with state := .holdover, pos := p }).cuesValid) else s)
      else match s.clk.state with
        | .acquire => if posHeld s.lpf s.tpl p then s.lock p else s
        | .holdover => s.lock s.clk.pos
        | _ => s))

/-- The magnitude of an offset exceeds a limit in ns. -/
def beyond (x : Int) (limit : Nat) : Bool := limit < x.natAbs

/-- STEP (R46): with no room formed, an offset beyond #2010.07 is removed in one move to `p`. -/
def execStep (p : Pos) (offsetNs : Int) (s : State) : Host.Outcome State Fault Refusal :=
  .next (if s.posValid && s.clk.src.isSome && !s.anyFormed && beyond offsetNs (s.cfgN 0x2010 7) && posHeld s.lpf s.tpl p then
      ((s.modClk fun c => { c with pos := p, offsetNs := 0 }).raisePos 16).cuesPassed
    else s)

/-- STEP_TO at step 13 and after (R47). -/
def State.stepToEffect (s : State) (p : Pos) : Eff :=
  if !(s.isKeeper && s.clk.src = some .synthetic && s.posValid) then .refuse stSTATE s
  else if !posHeld s.lpf s.tpl p || !posAhead p s.clk.pos then .refuse stRANGE s
  else .ok (((s.modClk fun c => { c with pos := p }).raisePos 16).cuesPassed)

/-- Three frames in a row have shown input `x` at `offsetNs`: it disagrees or it does not (R48). -/
def State.judged (s : State) (x : ClockSource) (bad : Bool) (offsetNs : Int) : State :=
  let first := !s.isKeeper && s.primary = some x
  s.modClk fun c => { c with
    disagree1 := if first then bad else c.disagree1
    disagree2 := if first then c.disagree2 else bad
    disagreeNs := if s.reports x then satI32 offsetNs else c.disagreeNs }

/-- DISAGREE (R48). -/
def execDisagree (x : ClockSource) (offsetNs : Int) (s : State) : Host.Outcome State Fault Refusal :=
  .next (if s.measures x && beyond offsetNs (s.cfgN 0x2010 3) then
      let t := s.judged x true offsetNs
      if s.clk.disagrees then t else t.raisePos 4
    else s)

/-- DISAGREE_CLEAR (R48). -/
def execDisagreeClear (x : ClockSource) (offsetNs : Int) (s : State) : Host.Outcome State Fault Refusal :=
  .next (if s.measures x && !beyond offsetNs (s.cfgN 0x2010 3) then s.judged x false offsetNs else s)

/-- SWITCH_TO_SECONDARY (R49). -/
def execSwitchToSecondary (offsetNs : Int) (s : State) : Host.Outcome State Fault Refusal :=
  .next (settle s (match s.secondary with
    | some x => if s.isKeeper && s.clk.state = .holdover && s.clk.src.isNone && s.sourcePresent x && !s.here s.primary then s.moveTo x offsetNs else s
    | none => s))

/-- REVERT_TO_PRIMARY (R49). -/
def execRevertToPrimary (offsetNs : Int) (s : State) : Host.Outcome State Fault Refusal :=
  .next (settle s (match s.primary with
    | some x => if s.isKeeper && s.posValid && s.clk.src = s.secondary && s.clk.src ≠ some x && s.sourcePresent x then s.moveTo x offsetNs else s
    | none => s))

/-- AGED (R50). -/
def execAged (s : State) : Host.Outcome State Fault Refusal :=
  .next (if s.clk.state = .holdover && !s.clk.agedBit then (s.modClk fun c => { c with agedBit := true }).raisePos 64 else s)

/-! ### Sync words (R52, R53, R55, R57, R341) -/

/-- SYNC_WORD_SEND (R53, R341). The keeper's heartbeat counts each sync word it sends (log 28). -/
def execSyncWordSend (p : PortId) (txTs : W64) (s : State) : Host.Outcome State Fault Refusal :=
  .next (let x := s.port p
    if x.state ≠ .up then s
    else
      let k := s.isKeeper
      let s := if k then s.modClk fun c => { c with heartbeat := c.heartbeat + 1 } else s
      let c := s.clk
      s.emit (.sync p <| syncPayload
        { pos := c.pos, txTs := txTs, echoTs := if x.syncGot then x.lastTxTs else 0, echoHold := if x.syncGot then txTs - x.lastRxAt else 0,
          keeper := c.keeperNo, epoch := c.keeperEpoch, heartbeat := c.heartbeat,
          hops := if k then 0 else if c.parentPort = 255 then 255 else c.hops,
          state := if k then BitVec.ofNat 2 (clockCode c.state) else c.keeperState, valid := s.posValid }))

/-- The link delay from a sync word (R53, R341): half the round trip plus the asymmetry correction. -/
def State.linkDelayOf (s : State) (p : Nat) (w : SyncWord) (tRx : W64) : Int :=
  1000 * (((tRx - w.echoTs) - w.echoHold).toNat : Int) + 128 * (BitVec.ofNat 32 (s.cfgN 0x2031 (p + 1))).toInt

/-- The device has a keeper that is alive: itself, or one whose heartbeat reaches it. -/
def State.keeperAlive (s : State) : Bool := s.clk.keeper || s.clk.heard

/-- The device takes port `p` as its parent, `h` hops from the keeper of `w` (R52). Beyond 64 hops it is TOO_FAR and follows nothing: from FREE it stays FREE, and a clock that is LOCKED holds over, since R44 alone takes it to FREE (DEDUCED, log 109). -/
def State.takeParent (s : State) (p h : Nat) (w : SyncWord) : State :=
  let s := s.modClk fun c => { c with keeper := false, heard := true, keeperNo := w.keeper, keeperEpoch := w.epoch, heartbeat := w.heartbeat, keeperState := w.state,
                                      parentPort := BitVec.ofNat 8 p, hops := BitVec.ofNat 8 h, election := none, tooFar := 64 < h }
  if 64 < h then s.leaveSource .fabric else s

/-- The keeper's state reaches a device that is LOCKED to the fabric (R55). It reports LOCKED only while its keeper is LOCKED; in every other state of the keeper it holds over (for FREE and ACQUIRE: DEDUCED, log 112). -/
def State.followKeeper (s : State) : State :=
  if s.clk.src = some .fabric && s.clk.state = .locked && s.clk.keeperState ≠ 2 then
    (s.modClk fun c => { c with state := .holdover }).raisePos 2
  else s

/-- Whole ticks of the link delay of port `p`, which is held in units of 2^-7 ps (R53). -/
def State.delayTicks (s : State) (p : Nat) : Nat :=
  ((s.port p).linkDelay.toNat * s.cfgN 0x2001 3 * s.lpf * s.tpl) / (s.cfgN 0x2001 4 * 128000000000000)

/-- A forward step of the keeper under STEP_TO arrives (R46, R47): the device steps to the sender's position, corrected for the path. The manual does not say how a device tells such a step from the keeper's other steps; the command says it (log 113). -/
def State.followStep (s : State) (p : Nat) (w : SyncWord) : State :=
  let q := addTicks s.lpf s.tpl (s.delayTicks p) w.pos
  if w.valid && s.posValid && s.clk.src = some .fabric && posAhead q s.clk.pos && posHeld s.lpf s.tpl w.pos then
    ((s.modClk fun c => { c with pos := q }).raisePos 16).cuesPassed
  else s

/-- A sync word from the keeper that the device already follows (R52): by its parent port, or by a port that gives fewer hops, or as few and has a lower number. -/
def State.sameKeeper (s : State) (p : Nat) (w : SyncWord) (stepTo : Bool) : State :=
  let h := w.hops.toNat + 1
  let c := s.clk
  if c.parentPort.toNat = p || c.parentPort = 255 || h < c.hops.toNat || (h = c.hops.toNat && p < c.parentPort.toNat) then
    let s := ((s.takeParent p h w).nowPresent .fabric).followKeeper
    if stepTo then s.followStep p w else s
  else s

/-- A sync word from another keeper (R56, R57): after a split the one with the lower number, where none is alive any other one, or the lost one where its heartbeat has advanced. -/
def State.otherKeeper (s : State) (p : Nat) (w : SyncWord) : State :=
  let h := w.hops.toNat + 1
  if s.keeperAlive then
    if w.keeper.toNat < s.clk.keeperNo.toNat then
      ((((s.holdover).modClk fun c => { c with src := none }).takeParent p h w).raisePos 128).nowPresent .fabric
    else s
  else if s.clk.keeperEpoch.toNat < w.epoch.toNat || s.clk.keeperNo ≠ w.keeper || s.clk.heartbeat ≠ w.heartbeat then
    let t := (s.takeParent p h w).nowPresent .fabric
    if s.clk.keeperNo = w.keeper && s.clk.keeperEpoch = w.epoch then t else t.raisePos 8
  else s

/-- The parent port no longer leads to the keeper (R52, R605): its link is not UP, or its peer has no parent itself. Another port that hears the keeper is taken with its next sync word. -/
def State.parentLost (s : State) (p : Nat) : State :=
  if s.clk.parentPort.toNat = p then (s.nowLost .fabric).modClk fun c => { c with parentPort := 255 } else s

/-- The fields of a sync word are taken (R52, R53, R341). -/
def State.takeSyncWord (s : State) (p : Nat) (w : SyncWord) (tRx : W64) (stepTo : Bool) : State :=
  let s := s.modPort p fun x => { x with lastTxTs := w.txTs, lastRxAt := tRx, syncGot := true, linkDelay := if w.echoTs = 0 then x.linkDelay else s.linkDelayOf p w tRx }
  if s.alone then s
  else if w.hops = 255 then s.parentLost p
  else if s.clk.heard && w.keeper = s.clk.keeperNo && !s.clk.keeper then s.sameKeeper p w stepTo
  else if s.clk.keeper && w.keeper = s.clk.keeperNo then s
  else s.otherKeeper p w

/-- A port that was UP loses its link (R330, R52): it enters HOLD, and is no parent port of the clock any more. -/
def State.loseUp (s : State) (p : Nat) : State :=
  let t := s.holdPort p
  if s.clk.parentPort.toNat = p then settle s (t.parentLost p) else t

/-- A flit fails its LCRC (R326). Sixteen in a row lose the link (R330). -/
def State.lcrcBad (s : State) (p : Nat) : State :=
  let s := s.badFlit p
  if (s.port p).state = .up && 16 ≤ (s.port p).badRun then s.loseUp p else s

/-- SYNC_WORD (R53, R326, R341): the ACK, NAK and credit returns of the SYNC flit, then its fields. `stepTo`: with this word a step of R47 reaches the device. -/
def execSyncWord (p : PortId) (h : FlitHdr) (payload : List Byte) (tRx : W64) (stepTo : Bool) (s : State) : Host.Outcome State Fault Refusal :=
  .next (settle s (if (s.port p).state ≠ .up then s
    else
      let s := s.codewords p h
      if !h.lcrcOk then s.lcrcBad p
      else (s.takeReturns p h).takeSyncWord p (readSync payload) tRx stepTo))

/-! ### The election (R51, R56, R334) -/

/-- A message floods to every port that is UP, but the one it came by (R334). -/
def State.flood (s : State) (ty : Nat) (body : List Byte) (inPort : Nat) : State :=
  forL ((List.range 16).filter fun p => p ≠ inPort && (s.port p).state = .up) (fun p s =>
    let k := ctrlPacket (BitVec.ofNat 16 s.devNo) (BitVec.ofNat 16 (s.neighbour p)) ty body
    match s.handover 5 255 0 0 with
    | (.fail, s) => s
    | (_, s) => s.enqueue p { k with v := s.crossesDateline p, pchk := packetCheck k }) s

/-- The device may stand in the election (R51, R56). The first election of a domain needs no valid position (log 29). -/
def State.eligible (s : State) : Bool := s.cfgN 0x2030 1 = 1 && (s.posValid || s.clk.keeperEpoch = 0)

def candidacyBody (dev : BitVec 16) (epoch : W32) : List Byte := leBytes 2 dev.toNat ++ leBytes 4 epoch.toNat

/-- The lower of a candidate and those seen. -/
def lowestSeen (o : Option (BitVec 16)) (n : BitVec 16) : Option (BitVec 16) :=
  match o with | none => some n | some m => if n.toNat < m.toNat then some n else some m

/-- The device takes its keeper as lost (R56): it holds over, and sends its candidacy where it is eligible. -/
def State.startElection (s : State) : State :=
  let s := (s.nowLost .fabric).modClk fun c => { c with keeper := false, heard := false, parentPort := 255 }
  if s.eligible then
    let me := BitVec.ofNat 16 s.devNo
    (s.modClk fun c => { c with election := lowestSeen c.election me }).flood 8 (candidacyBody me s.clk.keeperEpoch) 255
  else s.modClk fun c => { c with election := lowestSeen c.election 0xFFFF }

/-- KEEPER_LOST (R56). -/
def execKeeperLost (s : State) : Host.Outcome State Fault Refusal := .next (settle s (if s.isKeeper then s else s.startElection))

/-- A device of a larger domain whose #2030.01 is false is never keeper (R51): it gives the part up, holds over and leaves the choice to an election. -/
def State.dropKeeper (s : State) : State :=
  if s.alone || !s.clk.keeper || s.cfgN 0x2030 1 = 1 then s
  else
    let s := if s.posValid then s.holdover.modClk fun c => { c with src := none } else s.modClk fun c => { c with src := none }
    (s.modClk fun c => { c with keeper := false }).startElection

/-- A port was turned on or off (R35, R51; log 114). `was`: the device was alone before. With its last port off it is its own keeper, and follows its own sources; with its first port on it stays the keeper that it was where #2030.01 lets it, and otherwise has none. -/
def State.domainFollows (s : State) (was : Bool) : State :=
  if s.alone && !was then
    let s := ((s.nowLost .fabric).modClk fun c => { c with heard := false, parentPort := 255, tooFar := false, election := none }).ownKeeper
    if s.posValid then
      (match s.primary with
      | some x => if s.clk.src.isNone && s.sourcePresent x then s.moveTo x s.clk.offsetNs else s
      | none => s)
    else s.acquire
  else if was && !s.alone then (s.modClk fun c => { c with keeper := true }).dropKeeper
  else s.ownKeeper

/-- CANDIDACY (R56, R334): a newer message of its origin is kept, and passed on where it is the lowest seen. -/
def execCandidacy (p : PortId) (dev : BitVec 16) (epoch : W32) (s : State) : Host.Outcome State Fault Refusal :=
  .next (let body := candidacyBody dev epoch
    match s.arrivedWhere fun k => k.op = 6 && k.dst.toNat = s.devNo && k.payload = 8 :: body with
    | none => s
    | some e =>
      if arrivedBy e.1 ≠ p.val then s
      else match (s.takeArrived e).point7 e.2 255 0 with
        | (none, s) => s
        | (some _, s) =>
          let seen := match s.clk.candidacies.find? fun x => x.1 = dev.toNat with | some x => x.2 | none => 0
          if epoch.toNat + 1 ≤ seen then s
          else
            let low := match s.clk.election with | none => true | some m => dev.toNat < m.toNat
            let s := s.modClk fun c => { c with candidacies := (dev.toNat, epoch.toNat + 1) :: c.candidacies.filter (fun x => x.1 ≠ dev.toNat), election := lowestSeen c.election dev }
            if low then s.flood 8 body p else s)

/-- ELECTION_CLOSE (R51, R56): the device whose own number is the lowest seen becomes keeper at the next epoch, and moves to its primary where that is present. -/
def execElectionClose (s : State) : Host.Outcome State Fault Refusal :=
  .next (settle s (match s.clk.election with
    | none => s
    | some n =>
      let s := s.modClk fun c => { c with election := none }
      if n.toNat = s.devNo && s.eligible && !s.keeperAlive then
        let s := (s.modClk fun c => { c with keeper := true, keeperNo := n, keeperEpoch := c.keeperEpoch + 1, hops := 0, parentPort := 255, heartbeat := c.heartbeat + 1, tooFar := false }).raisePos 8
        if !s.posValid then s.acquire
        else match s.primary with
          | some x => if s.sourcePresent x then s.moveTo x s.clk.offsetNs else s
          | none => s
      else s))

end Sys2Proof.Machine
end

