-- ==== Sys2Proof/Machine/Cues.lean ====
section
/-! DEFINITION. Cues fire: the issue order, the actions, misses and delays, and the halt at a cue boundary (R68 to R88, R174, R175). -/

namespace Sys2Proof.Machine

/-! ### Issue order (R77, R80) -/

/-- The cues of one table that wait to be issued. -/
def State.dueCues (s : State) (c : CueRef) : List CueRef :=
  match c with
  | .dev _ => (s.cue.filter fun e => e.2.due.isSome).map fun e => .dev (Fin.ofNat 2048 e.1)
  | .quire q _ => ((s.quire q).cue.filter fun e => e.2.due.isSome).map fun e => .quire q (Fin.ofNat 64 e.1)

/-- The group of R77: SEAM 0, then SEAM 1, then REPARTITION. -/
def cueGroup (e : CueEntry) : Nat := if e.action = 5 then 2 else bit e.seam

/-- `a` is issued before `b` (R77, R80). -/
def State.cueBefore (s : State) (a b : CueRef) : Bool :=
  let x := s.cueAt a
  let y := s.cueAt b
  let p := x.due.getD 0
  let q := y.due.getD 0
  if p = q then cueGroup x < cueGroup y || (cueGroup x = cueGroup y && cueIndex a < cueIndex b) else posAhead q p

/-- The room of a cue lets it fire (R87): it is formed and has taken no fault. The device's own entries always may. -/
def State.cueMayFire (s : State) (c : CueRef) : Bool :=
  match s.cueOwnerOf c with
  | none => cueIsDevice c
  | some r => (s.room r).state = .formed

/-- The cue waits with action `a`, and is the next that its table issues (R75, R77). -/
def State.cueNext (s : State) (c : CueRef) (a : Nat) : Bool :=
  let e := s.cueAt c
  e.arm && e.due.isSome && e.action.toNat = a && s.posValid && s.cueMayFire c && (s.dueCues c).all fun d => d = c || !s.cueMayFire d || !s.cueBefore d c

/-! ### What a fire records (R71, R76, R81, R82) -/

/-- The action of cue `c` was refused with `code` (R71). -/
def State.cueMissed (s : State) (c : CueRef) (code : Nat) : State :=
  let s := s.setCue c { s.cueAt c with miss := true, missCode := BitVec.ofNat 4 code }
  ({ s with dev := { s.dev with cueMiss := s.dev.cueMiss + 1 } } : State).raiseCue c 2

/-- The fire is issued more than one tick after the tick it became due (R76). -/
def State.cueDelayed (s : State) (e : CueEntry) : Bool := posAhead s.clk.pos (nextTick s.lpf s.tpl e.dueAt)

/-- A delayed fire is counted (R76). -/
def State.countDelayed (s : State) (c : CueRef) : State :=
  ({ s with dev := { s.dev with cueDelayed := s.dev.cueDelayed + 1 } } : State).raiseCue c 4

/-- The fire of cue `c` has been issued: FIRES counts it, the cue moves on, and it is late again where its next E has been reached (R81, R82). -/
def State.cueIssued (s : State) (c : CueRef) (delayed : Bool) : State :=
  let s := s.activity 1 false
  let e := s.cueAt c
  let s := if delayed || s.cueDelayed e then s.countDelayed c else s
  let e := s.cueAt c
  let n := s.cueAfter { e with fires := e.fires + 1 } true
  (s.setCue c n).cueDue c true (s.nextKey (e.due.getD e.dueAt) e.dueAt n)

/-- A fire whose action answered with a miss code, 0 for none. -/
def State.fireEnds (s : State) (c : CueRef) (miss : Nat) (delayed : Bool) : State :=
  (if miss = 0 then s else s.cueMissed c miss).cueIssued c delayed

/-! ### Launches (R70, R174, R175) -/

/-- A tile core starts at a launch's entry address (R174). -/
def startTile (x : Tile) (a : W32) : Tile := { x with pc := a, sw := 0xF000, run := .running }

/-- A launch to a tile that has been started (R175, R190); false when its last launch has not been taken. -/
def launchTile (x : Tile) (a : W32) : Bool × Tile :=
  if x.priv.launchPend then (false, x)
  else
    let x := { x with priv := { x.priv with launchAddr := a, launchPend := true, irqPend := x.priv.irqPend ||| 2 } }
    (true, signalTile x)

/-- A launch reaches tile `t`: true unless it was an OVERRUN. -/
def State.launchAt (s : State) (t : Nat) (a : W32) : Bool × State :=
  if (s.tile t).run = .stopped then (true, s.modTile t fun x => startTile x a)
  else
    let (ok, x) := launchTile (s.tile t) a
    (ok, s.setTile t x)

/-- A launch reaches the tiles of a mask in a quire; false when one of them was an OVERRUN (R71). -/
def State.launchMask (s : State) (q : Nat) (mask : BitVec 16) (a : W32) : Bool × State :=
  (bitList 16 mask.toNat).foldl (fun (ok, s) k => let (o, s) := s.launchAt (quireTile q k) a; (ok && o, s)) (true, s)

/-- The quire of a LAUNCH_TASK. -/
def launchQuire (c : CueRef) (e : CueEntry) : Nat :=
  match c with
  | .dev _ => e.target.toNat
  | .quire q _ => q

/-- A LAUNCH_TASK is delivered, or waits for the wake of its quire, which delays the fire (R70). -/
def State.launch3 (s : State) (c : CueRef) (e : CueEntry) : State :=
  let q := launchQuire c e
  let s := s.askWake q
  if (s.quire q).power = .on then
    let (ok, s) := s.launchMask q e.amount (e.addr.setWidth 32)
    s.fireEnds c (if ok then 0 else 2) false
  else (s.modQuire q fun x => { x with launches := x.launches ++ [(c, e.amount, e.addr.setWidth 32)] }).fireEnds c 0 true

/-- Launches that waited for the wake of quire `q` are delivered (R70). -/
def State.deliverLaunches (s : State) (q : Nat) : State :=
  let l := (s.quire q).launches
  l.foldl (fun s (c, m, a) => let (ok, s) := s.launchMask q m a; if ok then s else s.cueMissed c 2) (s.modQuire q fun x => { x with launches := [] })

/-! ### Rows -/

/-- ADVANCE_TALLY (R68). -/
def execAdvanceTally (c : CueRef) (s : State) : Host.Outcome State Fault Refusal :=
  .next (if s.cueNext c 1 then
      let e := s.cueAt c
      let t := e.target.toNat
      (match (if cueIsDevice c then s.tallyRoom t else s.cueOwner c) with
      | some r => s.tryAdvance r t e.amount.toNat 3
      | none => { s with tal := { s.tal with refused := s.tal.refused + 1 } }).fireEnds c 0 false
    else s)

/-- The channel of a START_DMA. -/
def cueChan (c : CueRef) (e : CueEntry) : ChanRef :=
  match c with
  | .dev _ => .sys (Fin.ofNat 64 e.target.toNat)
  | .quire q _ => .tile q (Fin.ofNat 32 e.target.toNat)

/-- START_DMA (R68, R71, R285). -/
def execStartDma (c : CueRef) (s : State) : Host.Outcome State Fault Refusal :=
  .next (if s.cueNext c 2 then
      let e := s.cueAt c
      if (s.chanRoom (cueChan c e)).isNone then s.fireEnds c 0 false
      else
        let (ok, s) := s.dmaStart (cueChan c e) e.addr.toNat false
        s.fireEnds c (if ok then 0 else 1) false
    else s)

/-- LAUNCH_TASK (R68, R70, R174, R175). -/
def execLaunchTask (c : CueRef) (s : State) : Host.Outcome State Fault Refusal :=
  .next (if s.cueNext c 3 then (if (s.quireRoom (launchQuire c (s.cueAt c))).isNone then s.fireEnds c 0 false else s.launch3 c (s.cueAt c)) else s)

/-- GLAZE_COMMIT (R68, R507). -/
def execGlazeCommit (c : CueRef) (s : State) : Host.Outcome State Fault Refusal :=
  .next (if s.cueNext c 4 then
      let mine := (bitList 2 (s.cueAt c).target.toNat).filter fun p => (s.pipe p).owner.isSome && (cueIsDevice c || (s.pipe p).owner.map (fun r => r.val) = s.cueOwner c)
      (forL mine (fun p s => s.requestCommit p) s).fireEnds c 0 false
    else s)

/-! ### The cue boundary (R87) -/

/-- The cue boundary of a room has come: a cue of it would be issued, or a frame has begun since the notice. -/
def State.atCueBoundary (s : State) (r : Nat) : Bool :=
  match (s.room r).haltAt with
  | none => false
  | some p => posFrame p ≠ posFrame s.clk.pos || (s.roomCues r).any fun c => (s.cueAt c).due.isSome

/-- HALT_AT_CUE_BOUNDARY (R87): the cue at the boundary is not issued, the cues are disarmed and the tiles halt. -/
def execHaltAtCueBoundary (room : RoomId) (s : State) : Host.Outcome State Fault Refusal :=
  .next (if s.atCueBoundary room then ((s.modRoom room fun x => { x with haltAt := none }).disarmCues room).haltTiles room else s)

end Sys2Proof.Machine
end

