-- ==== Sys2Proof/Machine/Fabric.lean ====
section
/-! DEFINITION. Fabric ports, their sessions and replay, routes, inbound requests and completions, and inbound windows (R303 to R305, R323 to R349, R364, R372). -/

namespace Sys2Proof.Machine

/-! ### Routes (R334, R345, R347) -/

/-- The ports of this device that are up in the link map (R334). -/
def State.portsUp (s : State) : BitVec 16 := BitVec.ofNat 16 ((List.range 16).foldl (fun n p => if s.portLinked p then n + 2 ^ p else n) 0)

def routeBody (u : RouteUpd) : List Byte := leBytes 2 u.device.toNat ++ leBytes 4 u.incarnation.toNat ++ leBytes 2 u.portsUp.toNat ++ leBytes 4 u.epoch.toNat

/-- The devices of the domain that cannot be reached (#6005.02). -/
def State.unreach (s : State) : List Nat :=
  if s.alone then [] else (List.range (s.dim 0 * s.dim 1 * s.dim 2)).filter fun n => n ≠ s.devNo && !s.reaches n

/-- A member, a home or the keeper is lost (R347): unreachable, or back with a new incarnation. A keeper lost this way is handled as R56 says. -/
def State.deviceLost (s : State) (n : Nat) : State :=
  let s := if !s.isKeeper && s.clk.heard && s.clk.keeperNo.toNat = n then s.startElection else s
  forN 16 (fun r s => match (s.room r).form with
    | some f =>
      if f.ftCount = 0 then s
      else if s.isHome f then (if (s.jobMembers f.jobId).contains (BitVec.ofNat 16 n) then s.roomFault r { cause := 8, detail := n } else s)
      else if f.home.toNat = n then s.roomFault r { cause := 9, detail := n } else s
    | none => s) s

/-- The link map changed since `before`: new routes are installed, and devices that can no longer be reached are lost (R345, R347). -/
def State.routesChanged (s : State) (before : List Nat) : State :=
  let now := s.unreach
  let s : State := { s with fab := { s.fab with unreachable := now.map fun n => BitVec.ofNat 16 n } }
  forL (now.filter fun n => !before.contains n) (fun n s => s.deviceLost n) s

/-- The later of the route epochs installed and flooded here. -/
def lastEpoch (x : Fabric) : W32 := if x.routeEpoch.toNat < x.ownEpoch.toNat then x.ownEpoch else x.routeEpoch

/-- This device floods ROUTE_UPDATE with a new route epoch, and installs it (R345). -/
def State.floodRoutes (s : State) : State :=
  let e := lastEpoch s.fab + 1
  ({ s with fab := { s.fab with routeEpoch := e, ownEpoch := e } } : State).flood 9
    (routeBody { device := BitVec.ofNat 16 s.devNo, incarnation := s.pow.incarnation, portsUp := s.portsUp, epoch := e }) 255

/-- An update is newer than the one kept for its origin (R334): by incarnation, then by route epoch. -/
def updNewer (m : List RouteUpd) (u : RouteUpd) : Bool :=
  match m.find? fun x => x.device = u.device with
  | none => true
  | some x => x.incarnation.toNat < u.incarnation.toNat || (x.incarnation = u.incarnation && x.epoch.toNat < u.epoch.toNat)

/-- Install a newer ROUTE_UPDATE (R345, R347); #6005.01 holds its epoch. -/
def State.installRoute (s : State) (u : RouteUpd) : State :=
  let before := s.unreach
  let again := s.fab.map.any fun x => x.device = u.device && x.incarnation ≠ u.incarnation
  let s : State := { s with fab := { s.fab with map := u :: s.fab.map.filter (fun x => x.device ≠ u.device),
                                                routeEpoch := u.epoch } }
  let s := if again then s.deviceLost u.device.toNat else s
  s.routesChanged before

/-- ROUTE_UPDATE (R334, R345): kept and passed on once, where it is newer. -/
def execRouteUpdate (p : PortId) (u : RouteUpd) (s : State) : Host.Outcome State Fault Refusal :=
  .next (match s.ctrlArrived 9 none (routeBody u) with
    | none => s
    | some e =>
      if arrivedBy e.1 ≠ p.val then s
      else match (s.takeArrived e).point7 e.2 255 0 with
        | (none, s) => s
        | (some _, s) =>
          if u.device.toNat = s.devNo || !updNewer s.fab.map u then s
          else settle s ((s.installRoute u).flood 9 (routeBody u) p))

/-! ### Completions and errors of requests (R333, R338) -/

/-- A completion of request `k` (R332, R333): it goes to the requester, with the requester's tag. -/
def State.answer (s : State) (k : Packet) (op err : Nat) (bs : List Byte) : Packet :=
  { op := BitVec.ofNat 4 op, cls := 2, v := false, dst := k.src, src := BitVec.ofNat 16 s.devNo, tag := k.tag, jobId := k.jobId, addr := 0,
    err := BitVec.ofNat 8 err, len := BitVec.ofNat 8 bs.length, payload := bs, pchk := 0 }

/-- ERR is sent to the requester. -/
def State.sendErr (s : State) (k : Packet) (err : Nat) : State := (s.originate 255 0 (s.answer k 5 err [])).2

/-- The channel whose tag a completion carries: system channel n has tags 1024 n to 1024 n + 1023. -/
def tagChan (tag : BitVec 16) : ChanRef := .sys (Fin.ofNat 64 (tag.toNat / 1024))

/-- A request ends in a bus error (R297, R333). -/
def State.failReq (s : State) (c : ChanRef) (q : DmaReq) (code point : Nat) : State :=
  s.modChan c fun x => chanSettle (chanFail (dropReq x q.tag) q.off q.len code point)

/-- A packet that leaves the replay buffer undelivered (R338). -/
def State.discardPacket (s : State) (peer : BitVec 16) (k : Packet) : State :=
  if k.op = 6 then (if k.dst = peer then s else (s.launch k 255 (isTreeMsg k)).2)
  else if k.op = 1 || k.op = 2 then
    if k.src.toNat = s.devNo then
      match (s.chan (tagChan k.tag)).reqs.find? fun q => q.tag = k.tag with
      | some q => s.failReq (tagChan k.tag) q 19 0
      | none => s
    else s.sendErr k 2
  else s

/-- Every packet of a discarded replay buffer is treated under R338. -/
def State.discardAll (s : State) (peer : BitVec 16) (l : List ReplayFlit) : State := forL (l.flatMap fun f => f.pkts) (fun k s => s.discardPacket peer k) s

/-! ### Link states (R335 to R339) -/

/-- The EXCH flit of a port (R336). -/
def State.exchOf (s : State) (p : Nat) : Exch :=
  let x := s.port p
  { incarnation := s.pow.incarnation, domainId := BitVec.ofNat 32 (s.cfgN 0x6000 1), device := BitVec.ofNat 16 s.devNo,
    x := BitVec.ofNat 8 (s.coord 0), y := BitVec.ofNat 8 (s.coord 1), z := BitVec.ofNat 8 (s.coord 2), port := BitVec.ofNat 8 p,
    session := x.session, rxNext := x.rxNext.setWidth 16, resume := x.fromHold && x.peer.known }

/-- A port refuses its peer (R343). Replay state from HOLD stays until the timer runs out. -/
def State.refusePeer (s : State) (p cause : Nat) : State :=
  (s.modPort p fun x => { x with state := .refused, cause := BitVec.ofNat 3 cause }).raisePort p 32

/-- TRAIN_COMPLETE (R323, R336, R340, R343): with all lanes, or lanes 0 to 3 or 4 to 7, the port enters EXCH and sends its EXCH flit. A port in DOWN or HOLD trains when its peer transmits, which no row tells: its TRAIN lies within this row (DESIGN CHOICE, log 134). -/
def execTrainComplete (p : PortId) (lanes : BitVec 8) (s : State) : Host.Outcome State Fault Refusal :=
  .next (let x := s.port p
    let half := lanes &&& 0x0F = 0x0F || lanes &&& 0xF0 = 0xF0
    if !(s.portsRun && s.portEnabled p && s.inTorus) || !(x.state = .down || x.state = .train || x.state = .hold) then s
    else if !half then s.refusePeer p 4
    else
      let s := s.modPort p fun x => { x with state := .exch, half := lanes ≠ 0xFF, rate := s.cfgAt 0x6001 (p + 1) 1 1 = 1, cause := 0 }
      s.emit (.exch p (exchPayload (s.exchOf p))))

/-- EXCH_SEND (R336). -/
def execExchSend (p : PortId) (s : State) : Host.Outcome State Fault Refusal :=
  .next (if (s.port p).state = .exch then s.emit (.exch p (exchPayload (s.exchOf p))) else s)

/-- The first check of R343 that the peer's fields fail; 0 for none. -/
def State.peerCheck (s : State) (p : Nat) (e : Exch) : Nat :=
  let n := s.neighbour p
  let wired := if p < 6 then e.x.toNat = s.coordOf n 0 && e.y.toNat = s.coordOf n 1 && e.z.toNat = s.coordOf n 2 && e.port.toNat = p ^^^ 1
    else e.device.toNat = s.expressPeer p
  if e.domainId.toNat ≠ s.cfgN 0x6000 1 then 1 else if !wired then 2 else if e.device.toNat = s.devNo then 3 else 0

/-- The conditions of R337 that this side can see. -/
def canResume (x : Port) (e : Exch) : Bool :=
  x.fromHold && x.peer.known && e.resume && x.peer.incarnation = e.incarnation && x.peer.session = e.session &&
  (e.rxNext = x.txSeq.setWidth 16 || (x.replayBuf.any fun f => f.seq.setWidth 16 = e.rxNext))

/-- The port comes UP (R335, R351). -/
def State.portUp (s : State) (p : Nat) : State :=
  let s := s.modPort p fun x => { x with state := .up, fromHold := false }
  s.raisePort p (if (s.port p).half then 257 else 1)

/-- The credits that the port owes its peer are returned (R327, R330). -/
def State.payCredits (s : State) (p : Nat) : State :=
  forL (s.port p).owed (fun e s => s.emit (.credit (Fin.ofNat 16 p) e.1 e.2)) (s.modPort p fun x => { x with owed := [] })

/-- The session resumes: replay from the peer's RX_NEXT, and the credits as they stood (R337). The port enters UP, which is flooded (R345). -/
def State.resumeSession (s : State) (p : Nat) (e : Exch) : State :=
  let s := s.modPort p fun x => { x with replayBuf := x.replayBuf.dropWhile fun f => f.seq.setWidth 16 ≠ e.rxNext }
  let s := ((((s.portUp p).raisePort p 8).resend p).payCredits p).floodRoutes
  s.pump p (s.port p).txq.length

/-- What the fabric holds when a session of port `p` ends (R337, R338): a packet that had wholly arrived stays, and its credits no longer count. -/
def endSession (p : Nat) (x : Fabric) : Fabric := { x with arrived := x.arrived.map fun e => if e.1 = p then (32 + p, e.2) else e }

/-- A fresh session (R337 to R339): replay state is discarded, SEQ starts at 0, credits return, and the peer is recorded anew at the SESSION it takes next (log 31). A peer with a new incarnation is flooded with the ports that the link map showed, since only a port entering UP or a replay timer changes it (R345). -/
def State.freshSession (s : State) (p : Nat) (e : Exch) : State :=
  let before := s.unreach
  let old := s.port p
  let again : Bool := old.peer.known && old.peer.incarnation ≠ e.incarnation
  let s := s.setPort p { old with
    session := old.session + 1, txSeq := 0, rxNext := 0, nakSent := false, rxAny := false, credits := [], owed := [], replayBuf := [],
    syncGot := false, peer := { known := true, device := e.device, incarnation := e.incarnation, session := e.session + 1, x := e.x, y := e.y, z := e.z } }
  let s : State := { s with fab := endSession p s.fab }
  let s := s.portUp p
  let s := s.discardAll e.device old.replayBuf
  let s := s.floodRoutes
  let s := if again then
      let up := match s.fab.map.find? fun x => x.device = e.device with | some x => x.portsUp | none => 0
      let u : RouteUpd := { device := e.device, incarnation := e.incarnation, portsUp := up ||| BitVec.ofNat 16 (2 ^ e.port.toNat), epoch := 0 }
      let s := ((s.modCnt p fun c => { c with reinc := c.reinc + 1 }).raisePort p 16).flood 9 (routeBody u) 255
      if updNewer s.fab.map u then
        let s : State := { s with fab := { s.fab with map := u :: s.fab.map.filter fun x => x.device ≠ u.device } }
        s.deviceLost e.device.toNat
      else s.deviceLost e.device.toNat
    else s
  (s.routesChanged before).pump p (s.port p).txq.length

/-- EXCH_FLIT (R326, R336, R337, R343). -/
def execExchFlit (p : PortId) (lcrcOk : Bool) (payload : List Byte) (s : State) : Host.Outcome State Fault Refusal :=
  .next (let e := readExch payload
    if (s.port p).state ≠ .exch then s
    else if !lcrcOk then s.badFlit p
    else match s.peerCheck p e with
      | 0 => if canResume (s.port p) e then s.resumeSession p e else settle s (s.freshSession p e)
      | cause => s.refusePeer p cause)

/-- LINK_LOST (R330): UP becomes HOLD with its replay state kept; a port that was training goes back to where it came from. -/
def execLinkLost (p : PortId) (s : State) : Host.Outcome State Fault Refusal :=
  .next (let x := s.port p
    match x.state with
    | .up => s.loseUp p
    | .exch | .train => if x.fromHold then s.holdPort p else s.modPort p fun x => { x with state := .down }
    | _ => s)

/-- HOLD_EXPIRED (R330, R338, R345): the replay timer runs out before the port is UP again, and the port is DOWN, wherever its training or exchange had come to. -/
def execHoldExpired (p : PortId) (s : State) : Host.Outcome State Fault Refusal :=
  .next (let x := s.port p
    if !x.fromHold then s
    else
      let before := s.unreach
      let s := s.setPort p { x with fromHold := false, replayBuf := [], owed := [], cause := 0, state := .down }
      let s : State := { s with fab := endSession p s.fab }
      let s := (s.modCnt p fun c => { c with expiries := c.expiries + 1 }).raisePort p 4
      settle s (((s.discardAll x.peer.device x.replayBuf).floodRoutes).routesChanged before))

/-- REFUSED_RETRAIN (R335). -/
def execRefusedRetrain (p : PortId) (s : State) : Host.Outcome State Fault Refusal :=
  .next (s.modPort p fun x => if x.state = .refused then { x with state := .train } else x)

/-! ### Flits (R325, R326, R329) -/

/-- A DATA flit that does not come in sequence is discarded; one NAK is sent for each gap (R329). A flit already accepted makes no gap (log 32). -/
def State.flitGap (s : State) (p : Nat) : State :=
  let x := s.port p
  if x.nakSent || x.state ≠ .up then s else (s.modPort p fun x => { x with nakSent := true }).emit (.linkAck (Fin.ofNat 16 p) (x.rxNext - 1) true)

/-- DATA_FLIT (R326, R329, R330, R353): `packets` are the packets that end in the flit. -/
def execDataFlit (p : PortId) (h : FlitHdr) (packets : List Packet) (s : State) : Host.Outcome State Fault Refusal :=
  .next (if (s.port p).state ≠ .up then s
    else
    let s := s.codewords p h
    if !h.lcrcOk then ((s.handFail 6 255 0 0).lcrcBad p).flitGap p
    else
      let s := s.takeReturns p h
      let x := s.port p
      if h.seq = x.rxNext then
        let s := s.modPort p fun x => { x with rxNext := x.rxNext + 1, nakSent := false, rxAny := true }
        let s : State := { s with integ := countHand s.integ 6 false,
                                  fab := { s.fab with arrived := s.fab.arrived ++ packets.map fun k => (p.val, k) } }
        s.emit (.linkAck p h.seq false)
      else if (x.rxNext - h.seq).toNat ≤ 512 then s
      else s.flitGap p)

/-- IDLE_FLIT (R326, R330). -/
def execIdleFlit (p : PortId) (h : FlitHdr) (s : State) : Host.Outcome State Fault Refusal :=
  .next (if (s.port p).state ≠ .up then s
    else
      let s := s.codewords p h
      if !h.lcrcOk then s.lcrcBad p else s.takeReturns p h)

/-- REPLAY (R329). -/
def execReplay (p : PortId) (s : State) : Host.Outcome State Fault Refusal :=
  .next (if (s.port p).state = .up then s.replayPort p else s)

/-! ### Packets (R304, R333, R344, R365) -/

/-- PACKET_FORWARD (R344, R345): a packet for another device goes on by the route table. With no route a request is answered UNREACHABLE, and another packet is dropped. -/
def execPacketForward (p : PortId) (k : Packet) (s : State) : Host.Outcome State Fault Refusal :=
  .next (match s.fab.arrived.find? fun e => arrivedBy e.1 = p.val && e.2 = k && k.dst.toNat ≠ s.devNo with
    | none => s
    | some e =>
      let s := s.takeArrived e
      match s.launch k p.val (isTreeMsg k) with
      | (true, s) => s
      | (false, s) => if k.op = 1 || k.op = 2 then s.sendErr k 2 else s)

/-- How the windows judge a request (R304): the window that admits it, or the cause of #6202.02. -/
inductive WinJudge where
  | takeIn (w : Nat)
  | refuse (cause : Nat)
  deriving DecidableEq, Repr

/-- The judgement of R304 on a request for `n` bytes at `a`. Bytes that lie in no region any more, after GROUPS was lowered, are refused as bytes of no window (R270). -/
def State.winJudge (s : State) (write : Bool) (job : W32) (a n : Nat) : WinJudge :=
  let covers := (List.range 256).filter fun w => let x := s.window w; x.isOpen && x.base.toNat ≤ a && a + n ≤ x.base.toNat + x.size.toNat
  let covers := if (List.range n).all fun i => s.inUse (a + i) then covers else []
  let permits := covers.filter fun w => (s.window w).perm.getLsbD (bit write)
  match permits.find? fun w => (s.window w).jobId = 0 || (s.window w).jobId = job with
  | some w => .takeIn w
  | none => .refuse (if covers.isEmpty then 1 else if permits.isEmpty then 2 else 3)

/-- The windows refuse a request (R304). -/
def State.winRefuse (s : State) (k : Packet) (cause : Nat) : State :=
  ({ s with dev := { s.dev with winRefusals := s.dev.winRefusals + 1,
                                winLast := { requester := k.src, jobId := k.jobId, addr := k.addr.setWidth 64, cause := BitVec.ofNat 8 cause } } } : State).sendErr k 1

/-- An arrived packet for this device, equal to `k`. -/
def State.arrivedHere (s : State) (k : Packet) (op : Nat) : Option (Nat × Packet) :=
  if k.op.toNat = op && k.dst.toNat = s.devNo then s.arrivedWhere fun x => x = k else none

/-- An arrived request passes point 7 and the windows (R304, R353, R365). The room of the window has its unit pass the point (log 33). -/
def State.takeIn (s : State) (k : Packet) (write : Bool) (n : Nat) : Option (Nat × Hand) × State :=
  if k.pchk ≠ packetCheck k then (none, (s.handFail 7 255 0 k.addr.toNat).sendErr k 5)
  else match s.winJudge write k.jobId k.addr.toNat n with
    | .refuse cause => (none, ({ s with integ := countHand s.integ 7 false } : State).winRefuse k cause)
    | .takeIn w =>
      let r := (s.window w).room.toNat
      match s.point7 k r 0 with
      | (none, s) => (none, s.sendErr k 5)
      | (some h, s) => (some (r, h), s)

/-- FABRIC_READ (R304, R333, R365, R369). -/
def execFabricRead (p : Packet) (s : State) : Host.Outcome State Fault Refusal :=
  .next (match s.arrivedHere p 1 with
    | none => s
    | some e =>
      match (s.takeArrived e).takeIn p false p.len.toNat with
      | (none, s) => s
      | (some (r, _), s) =>
        let s := s.countCorrected 5 p.addr.toNat p.len.toNat
        match s.readMem p.addr.toNat p.len.toNat with
        | (none, s) => s.sendErr p 3
        | (some bs, s) => match s.originateAt r 0 p.addr.toNat (s.answer p 4 0 bs) with
          | (none, s) => (s.policyFault r 15 5).sendErr p 5
          | (some _, s) => s)

/-- FABRIC_WRITE (R304, R333, R365). -/
def execFabricWrite (p : Packet) (s : State) : Host.Outcome State Fault Refusal :=
  .next (match s.arrivedHere p 2 with
    | none => s
    | some e =>
      match (s.takeArrived e).takeIn p true p.payload.length with
      | (none, s) => s
      | (some (_, h), s) =>
        match s.writeUnit h p.addr.toNat p.payload with
        | (false, s) => s.sendErr p 4
        | (true, s) => (s.originate 255 0 (s.answer p 3 0 [])).2)

/-- A completion takes its request: the channel, its room and descriptor, and how the packet passed point 7. A completion that no request expects is dropped (R383). None also where the handover failed, which ends the request with CHECK (R333, R365). -/
def State.takeCpl (s : State) (p : Packet) (op : Nat) (writing : Option Bool) : Option (ChanRef × Nat × Desc × DmaReq × Hand) × State :=
  match s.arrivedHere p op with
  | none => (none, s)
  | some e =>
    let s := s.takeArrived e
    let c := tagChan p.tag
    match s.chanRoom c, (s.chan c).desc, (s.chan c).reqs.find? fun q => q.tag = p.tag && (match writing with | some w => q.writing = w | none => true) with
    | some r, some d, some q =>
      match s.point7 p r 21 with
      | (none, s) => (none, s.failReq c q 21 7)
      | (some h, s) => (some (c, r, d, q, h), s)
    | _, _, _ => (none, ((s.point7 p 255 0).2).lateCompletion c p.tag)

/-- WACK (R333). -/
def execWack (p : Packet) (s : State) : Host.Outcome State Fault Refusal :=
  .next (match s.takeCpl p 3 (some true) with
    | (some (c, r, d, q, _), s) => ((s.modChan c fun x => dropReq x q.tag).flushReady c r d).modChan c chanSettle
    | (none, s) => s)

/-- RDATA (R333). -/
def execRdata (p : Packet) (s : State) : Host.Outcome State Fault Refusal :=
  .next (match s.takeCpl p 4 (some false) with
    | (some (c, r, d, q, h), s) => ((s.modChan c fun x => dropReq x q.tag).pieceArrived c r d q [h] p.payload).modChan c chanSettle
    | (none, s) => s)

/-- The bus error of R296 for an ERR code of R332. -/
def errBus (e : Nat) : Nat := if e = 1 then 18 else if e = 2 then 19 else if e = 3 then 16 else if e = 4 then 17 else 21

/-- ERR (R333). -/
def execErr (p : Packet) (s : State) : Host.Outcome State Fault Refusal :=
  .next (match s.takeCpl p 5 none with
    | (some (c, _, _, q, _), s) => s.failReq c q (errBus p.err.toNat) (if p.err = 5 then 7 else 0)
    | (none, s) => s)

/-- MESH_HEADER (R364, R367): a packet or message is dropped, every formed room faults, and one record is made. -/
def execMeshHeader (s : State) : Host.Outcome State Fault Refusal :=
  .next (let s := s.meshDropFree
    let s : State := { s with integ := { s.integ with meshFaults := s.integ.meshFaults + 1 } }
    forN 16 (fun r s => if (s.room r).isFormed then s.roomFault r { cause := 10, detail := 10 } else s) (s.integRecord 10 255 0 false 0))

/-! ### Windows and injection at step 13 (R303, R305, R372) -/

/-- The whole range lies in one region of R270. -/
def oneRegion (a n : Nat) : Bool :=
  match regionOf a with
  | some (.hbm _) => a + n ≤ 0x3000000000
  | some (.scratch t _) => a + n ≤ scratchBase t + 0x200000
  | some (.qscratch q _) => a + n ≤ qscratchBase q + 0x400000
  | none => false

/-- WINDOW_OPEN (R303). A room that is not formed owns nothing, so its STATE is checked first (log 34). -/
def State.windowOpenEffect (s : State) (bs : List Byte) : Eff :=
  let w := fieldAt bs 0 1
  let r := fieldAt bs 1 1
  let perm := fieldAt bs 2 1
  let base := fieldAt bs 7 8
  let size := fieldAt bs 15 8
  if !(r < 16 && (s.room r).isFormed) then .refuse stSTATE s
  else if base % 4096 ≠ 0 || size % 4096 ≠ 0 || size < 4096 || 4 ≤ perm || 0x3000000000 < size || !oneRegion base size || !s.ownsBytes r base size then .refuse stRANGE s
  else if (s.window w).isOpen then .refuse stSTATE s
  else .ok { s with wins := Tbl.put {} s.wins w { isOpen := true, room := BitVec.ofNat 8 r, perm := BitVec.ofNat 8 perm, jobId := BitVec.ofNat 32 (fieldAt bs 3 4), base := BitVec.ofNat 64 base, size := BitVec.ofNat 64 size } }

/-- WINDOW_CLOSE (R305). Every request admitted before it has completed. A window that is not open stays so (log 35). -/
def State.windowCloseEffect (s : State) (bs : List Byte) : Eff :=
  let w := fieldAt bs 0 1
  .ok { s with wins := Tbl.put {} s.wins w { s.window w with isOpen := false } }

/-- The kind applies to the point (R372). -/
def kindApplies (kind point : Nat) : Bool :=
  match kind with
  | 1 | 2 => point = 1 || point = 4 || point = 7 || point = 8
  | 3 => 1 ≤ point && point ≤ 9 && point ≠ 6
  | 4 => point = 6
  | _ => false

/-- INJECT (R372). -/
def State.injectEffect (s : State) (bs : List Byte) : Eff :=
  let r := fieldAt bs 0 1
  let pt := fieldAt bs 1 1
  let kind := fieldAt bs 2 1
  let n := fieldAt bs 3 2
  let frame := pt = 8 || pt = 9
  if s.cfgN 0xA010 1 = 0 then .refuse stSTATE s
  else if !kindApplies kind pt || n = 0 || !(frame || (r < 16 && (s.room r).isFormed)) then .refuse stRANGE s
  else .ok { s with integ := { s.integ with inject := s.integ.inject ++ [{ room := if frame then 255 else BitVec.ofNat 8 r, point := BitVec.ofNat 8 pt, kind := BitVec.ofNat 8 kind, left := BitVec.ofNat 16 n }] } }

end Sys2Proof.Machine
end

