-- ==== Sys2Proof/Machine/HostOps.lean ====
section
/-! DEFINITION. The host attachment: TLPs in order, the memory aperture, MSI-X, function-level reset and loss of the link (R405 to R430), and the rows that are BAR0 writes. -/

namespace Sys2Proof.Machine

/-! ### The aperture (R418, R419) -/

/-- The device byte address behind a BAR2 offset, where its segment maps (R418). -/
def State.bar2Addr (s : State) (f o : Nat) : Option Nat :=
  let a := Tbl.get {} (s.fn f).apt (o / 2 ^ 28)
  if a.en then some (a.base.toNat * 2 ^ 21 + o % 2 ^ 28) else none

/-- The segments that `n` bytes from a BAR2 offset fall in: where each part lies, and its length. -/
def State.bar2Parts (s : State) (f o n : Nat) : List (Option Nat × Nat) :=
  let k := Nat.min n (2 ^ 28 - o % 2 ^ 28)
  (s.bar2Addr f o, k) :: (if k < n then [(s.bar2Addr f (o + k), n - k)] else [])

/-- Every byte lies in a mapped segment and in memory of the function's room (R419). -/
def State.bar2Ok (s : State) (f o n : Nat) : Bool :=
  f ≠ 0 && o + n ≤ 2 ^ 32 && (s.bar2Parts f o n).all fun (a, k) => match a with | some a => s.ownsBytes (f - 1) a k | none => false

/-- The mapped parts. -/
def mappedParts (l : List (Option Nat × Nat)) : List (Nat × Nat) := l.filterMap fun (a, k) => a.map fun a => (a, k)

/-- The memory that `n` bytes from a BAR2 offset name now. -/
def State.bar2Memory (s : State) (f o n : Nat) : List (Nat × Nat) := mappedParts (s.bar2Parts f o n)

/-- Quires not running whose memory the access names (R420). -/
def State.partsAsleep (s : State) (ps : List (Nat × Nat)) : List Nat :=
  ps.flatMap fun (a, k) => (rangeQuires a k).filter fun q => !s.quireOn q

/-- A BAR2 write is applied: point 1 for each granule, then the bytes. A failed handover drops the TLP, reports the ECRC error and faults the room with CHECK_HOST (R365). -/
def State.bar2Write (s : State) (f : Nat) (ps : List (Nat × Nat)) (bs : List Byte) : State :=
  let r := f - 1
  let gs := ps.flatMap fun (a, k) => granules a k
  match s.handList 1 r 0 (gs.map (8 * ·)) with
  | (none, s) => (s.emit (.aer (Fin.ofNat 17 f))).roomFault r { cause := 11, detail := 1 }
  | (some hs, s) =>
    let (s, _) := ps.foldl (fun (s, bs) (a, k) => ((s.writeMem a (bs.take k)).2, bs.drop k)) (s, bs)
    (gs.zip hs).foldl (fun s (g, h) => s.injectStored h [g]) s

/-- A BAR2 read is completed: with the bytes, or with Completer Abort after a failure at point 2, which the room's policy decides (R365). -/
def State.bar2Read (s : State) (f : Nat) (ps : List (Nat × Nat)) : State :=
  let r := f - 1
  let gs := ps.flatMap fun (a, k) => granules a k
  let bad := gs.find? fun g => readSynd (s.syndAt g) = .bad
  let s := ps.foldl (fun s (a, k) => s.countCorrected 2 a k) s
  let (d, s) := ps.foldl (fun ((d, s) : Option (List Byte) × State) (a, k) =>
    let (x, s) := s.readMem a k
    ((match d, x with | some d, some x => some (d ++ x) | _, _ => none), s)) (some [], s)
  let abort : State → State := fun s => (s.emit (.cpl (Fin.ofNat 17 f) none)).policyFault r 15 2
  match d, bad with
  | some d, none => match s.handList 2 r 0 (gs.map (8 * ·)) with
    | (some _, s) => s.emit (.cpl (Fin.ofNat 17 f) (some d))
    | (none, s) => abort s
  | _, g => abort (s.handFail 2 r 0 (8 * g.getD 0))

/-! ### TLPs in order (R415, R419, R420) -/

/-- A TLP takes effect. -/
def State.doTlp (s : State) (f : Nat) (t : HeldTlp) : State :=
  match t with
  | .wr _ ps bs => s.bar2Write f ps bs
  | .rd _ ps _ => s.bar2Read f ps
  | .reg o size v => s.bar0Write f o.toNat size.val v.toNat
  | .regRead o size =>
    let (v, s) := s.bar0Read f o.toNat size
    s.emit (.regRead (Fin.ofNat 17 f) o (BitVec.ofNat 64 v))

/-- The quires that a TLP must wait for. -/
def State.tlpAsleep (s : State) (t : HeldTlp) : List Nat :=
  match t with
  | .wr _ ps _ => s.partsAsleep ps
  | .rd _ ps _ => s.partsAsleep ps
  | _ => []

/-- A BAR2 TLP is refused when it arrives (R419). -/
def State.tlpRefused (s : State) (f : Nat) (t : HeldTlp) : Bool :=
  match t with
  | .wr o _ bs => !s.bar2Ok f o.toNat bs.length
  | .rd o _ n => !s.bar2Ok f o.toNat n.toNat
  | _ => false

/-- The refusal of a BAR2 TLP: a write is dropped, a read gets Completer Abort, and HOST_ERR records APERTURE (R419). -/
def State.refuseTlp (s : State) (f : Nat) (t : HeldTlp) : State :=
  match t with
  | .wr o _ _ => s.hostErrRec f 2 o.toNat 3
  | .rd o _ _ => (s.emit (.cpl (Fin.ofNat 17 f) none)).hostErrRec f 2 o.toNat 3
  | _ => s

/-- A TLP of function `f` arrives. While one waits for a gated quire, every later one of the function waits behind it (R420). -/
def State.tlp (s : State) (f : FnId) (t : HeldTlp) : State :=
  let s := s.activity 6 false
  if s.tlpRefused f t then s.refuseTlp f t
  else
    let asleep := s.tlpAsleep t
    if (s.fn f).held.isEmpty && asleep.isEmpty then s.doTlp f t
    else (forL asleep (fun q s => s.askWake q) s).modFn f fun x => { x with held := x.held ++ [t] }

/-- Held TLPs of a function take effect in order, up to one whose quire still sleeps (R420). -/
def State.drainTlps (s : State) (f : Nat) : Nat → State
  | 0 => s
  | n + 1 =>
    match (s.fn f).held with
    | [] => s
    | t :: rest =>
      let asleep := s.tlpAsleep t
      if asleep.isEmpty then ((s.modFn f fun x => { x with held := rest }).doTlp f t).drainTlps f n
      else forL asleep (fun q s => s.askWake q) s

/-! ### Rows that are register accesses -/

/-- The words of a value of `size` bytes, lowest first. -/
def valueWords (size : Nat) (v : W64) : List W16 := (List.range (size / 2)).map fun i => BitVec.ofNat 16 (v.toNat / 65536 ^ i)

/-- A store of `size` bytes by tile `t` at byte offset `off` of its quire's register block (R247): at task level it raises PRIV_ADDR, and across registers ADDR_RANGE. -/
def State.tilePut (s : State) (t off size : Nat) (v : W64) : State :=
  if !qregSpan off (size / 2) then s.takeSync t 3 (0x400000 + off / 2)
  else if !swS (s.tile t).sw then s.takeSync t 4 (0x400000 + off / 2)
  else s.qregStore t off (valueWords size v)

/-- A write of `size` bytes at BAR0 offset `off` of a room's function. A tile reaches only the block of its own quire (R247, R410). -/
def State.writerPut (s : State) (w : Writer) (off size : Nat) (v : W64) : State :=
  match w with
  | .host f => s.tlp f (.reg (BitVec.ofNat 24 off) (Fin.ofNat 16 size) v)
  | .tile t => if off / 0x10000 = 0x10 + tileQuire t then s.tilePut t (off % 0x10000) size v else s

/-- REGISTER_WRITE (R9, R413). For a tile the offset is that of its quire register block. -/
def execRegisterWrite (w : Writer) (off : BitVec 24) (size : Fin 16) (v : W64) (s : State) : Host.Outcome State Fault Refusal :=
  .next (match w with
    | .host f => s.tlp f (.reg off size v)
    | .tile t => s.tilePut t off.toNat size v)

/-- LOW_HALF_READ (R33, R100, R413): a read of a half, or of 8 bytes in one piece. -/
def execLowHalfRead (f : FnId) (off : BitVec 24) (size : Fin 16) (s : State) : Host.Outcome State Fault Refusal := .next (s.tlp f (.regRead off size))

/-- BAR0_LOW_HALF_WRITE (R413). -/
def execBar0LowHalfWrite (f : FnId) (off : BitVec 24) (v : W32) (s : State) : Host.Outcome State Fault Refusal :=
  .next (s.tlp f (.reg off 4 (v.setWidth 64)))

/-- BAR0_HIGH_HALF_WRITE (R413). -/
def execBar0HighHalfWrite (f : FnId) (off : BitVec 24) (v : W32) (s : State) : Host.Outcome State Fault Refusal :=
  .next (s.tlp f (.reg off 4 (v.setWidth 64)))

/-- The BAR0 offset of a cue entry (R410, R412). -/
def cueOffset : CueRef → Nat
  | .dev n => 0x30000 + 32 * n
  | .quire q n => 0x100000 + 0x10000 * q + 32 * n

/-- CUE_ARM (R67): a write of CTL with ARM 1. -/
def execCueArm (w : Writer) (c : CueRef) (ctl : W64) (s : State) : Host.Outcome State Fault Refusal :=
  .next (s.writerPut w (cueOffset c + 16) 8 (ctl ||| 1))

/-- CUE_DISARM (R67): a write of CTL with ARM 0. -/
def execCueDisarm (w : Writer) (c : CueRef) (ctl : W64) (s : State) : Host.Outcome State Fault Refusal :=
  .next (s.writerPut w (cueOffset c + 16) 8 (ctl &&& ~~~1))

/-- TALLY_ADV (R122). -/
def execTallyAdv (f : FnId) (tally : Fin 5120) (v : W32) (s : State) : Host.Outcome State Fault Refusal :=
  .next (s.tlp f (.reg (BitVec.ofNat 24 (0x20000 + 8 * tally)) 4 (v.setWidth 64)))

/-- WATCH_ARM (R110): a write of HUB_TW[n].CTL with ARM 1. -/
def execWatchArm (f : FnId) (n : Fin 256) (ctl : W32) (s : State) : Host.Outcome State Fault Refusal :=
  .next (s.tlp f (.reg (BitVec.ofNat 24 (0x40008 + 16 * n)) 4 ((ctl ||| 0x1000000).setWidth 64)))

/-- QC_CMD with an operation (R265, R280). -/
def qcCmdWord (op : Nat) (all : Bool) (lines : BitVec 16) (line : BitVec 31) : W64 :=
  BitVec.ofNat 64 (2 ^ 7 * line.toNat + 2 ^ 40 * lines.toNat + 2 ^ 56 * bit all + 2 ^ 57 * op)

/-- The offset of register `base` in the block of quire `q` (R410). -/
def blockOffset (q base : Nat) : Nat := 0x100000 + 0x10000 * q + base

/-- ZERO (R265). -/
def execZero (w : Writer) (q : QuireId) (all : Bool) (lines : BitVec 16) (line : BitVec 31) (s : State) : Host.Outcome State Fault Refusal :=
  .next (s.writerPut w (blockOffset q 0x818) 8 (qcCmdWord 1 all lines line))

/-- WRITEBACK (R265). -/
def execWriteback (w : Writer) (q : QuireId) (all : Bool) (lines : BitVec 16) (line : BitVec 31) (s : State) : Host.Outcome State Fault Refusal :=
  .next (s.writerPut w (blockOffset q 0x818) 8 (qcCmdWord 2 all lines line))

/-- INVALIDATE (R265). -/
def execInvalidate (w : Writer) (q : QuireId) (all : Bool) (lines : BitVec 16) (line : BitVec 31) (s : State) : Host.Outcome State Fault Refusal :=
  .next (s.writerPut w (blockOffset q 0x818) 8 (qcCmdWord 3 all lines line))

/-- WB_INV (R265). -/
def execWbInv (w : Writer) (q : QuireId) (all : Bool) (lines : BitVec 16) (line : BitVec 31) (s : State) : Host.Outcome State Fault Refusal :=
  .next (s.writerPut w (blockOffset q 0x818) 8 (qcCmdWord 4 all lines line))

/-- WAYMAP_CHANGE (R267). -/
def execWaymapChange (w : Writer) (q : QuireId) (groups : Fin 8) (s : State) : Host.Outcome State Fault Refusal :=
  .next (s.writerPut w (blockOffset q 0x810) 4 (BitVec.ofNat 64 groups))

/-- QC_HBMWIN (R276). -/
def execQcHbmwin (w : Writer) (q : QuireId) (k : Fin 16) (v : W64) (s : State) : Host.Outcome State Fault Refusal :=
  .next (s.writerPut w (blockOffset q (0x900 + 8 * k)) 8 v)

/-- A write of DMA_CH[n].CTRL by the host (R307). -/
def State.dmaCtrlTlp (s : State) (f : FnId) (n : Fin 64) (v : W64) : State := s.tlp f (.reg (BitVec.ofNat 24 (0x50000 + 64 * n)) 8 v)

/-- GO (R285). -/
def execGo (f : FnId) (n : Fin 64) (ctrl : W64) (s : State) : Host.Outcome State Fault Refusal := .next (s.dmaCtrlTlp f n (ctrl ||| 1))

/-- PAUSE (R299). -/
def execPause (f : FnId) (n : Fin 64) (ctrl : W64) (s : State) : Host.Outcome State Fault Refusal := .next (s.dmaCtrlTlp f n (ctrl ||| 2))

/-- RESUME (R299). -/
def execResume (f : FnId) (n : Fin 64) (ctrl : W64) (s : State) : Host.Outcome State Fault Refusal := .next (s.dmaCtrlTlp f n (ctrl &&& ~~~2))

/-- ABORT (R301). -/
def execAbort (f : FnId) (n : Fin 64) (ctrl : W64) (s : State) : Host.Outcome State Fault Refusal := .next (s.dmaCtrlTlp f n (ctrl ||| 4))

/-- MBX_ENABLE (R424). -/
def execMbxEnable (f : FnId) (ctl : W32) (s : State) : Host.Outcome State Fault Refusal := .next (s.tlp f (.reg 0x200 4 ((ctl ||| 1).setWidth 64)))

/-- MBX_DISABLE (R424). -/
def execMbxDisable (f : FnId) (s : State) : Host.Outcome State Fault Refusal := .next (s.tlp f (.reg 0x200 4 0))

/-- MBX_REQ_TAIL (R423). -/
def execMbxReqTail (f : FnId) (v : W16) (s : State) : Host.Outcome State Fault Refusal := .next (s.tlp f (.reg 0x218 4 (v.setWidth 64)))

/-- MBX_RSP_HEAD (R423). -/
def execMbxRspHead (f : FnId) (v : W16) (s : State) : Host.Outcome State Fault Refusal := .next (s.tlp f (.reg 0x230 4 (v.setWidth 64)))

/-! ### The aperture's rows -/

/-- A TLP into device memory fails point 1 on arrival: the link check or its ECRC does not hold. It is dropped, the error is reported, and the room of the function faults (R353, R365). -/
def State.badTlp (s : State) (f : FnId) (off : Nat) : State :=
  let s := s.handFail 1 (if f = 0 then 255 else f.val - 1) 0 ((s.bar2Addr f off).getD 0)
  let s := s.emit (.aer f)
  if f = 0 then s else s.roomFault (f.val - 1) { cause := 11, detail := 1 }

/-- APERTURE_WRITE (R365, R419, R420). `checkOk`: the PCIe link check holds, and the ECRC where there is one. -/
def execApertureWrite (f : FnId) (off : W32) (bytes : List Byte) (checkOk : Bool) (s : State) : Host.Outcome State Fault Refusal :=
  .next (if checkOk then s.tlp f (.wr off (s.bar2Memory f off.toNat bytes.length) bytes) else s.badTlp f off.toNat)

/-- APERTURE_READ (R419, R420). -/
def execApertureRead (f : FnId) (off : W32) (len : BitVec 13) (s : State) : Host.Outcome State Fault Refusal := .next (s.tlp f (.rd off (s.bar2Memory f off.toNat len.toNat) len))

/-! ### MSI-X (R421) -/

/-- MSIX_UNMASK (R421): the mask of an entry clears, by its table; or the Function Mask clears while MSI-X and bus mastering are enabled. -/
def execMsixUnmask (f : FnId) (entry : Option (Fin 128)) (s : State) : Host.Outcome State Fault Refusal :=
  .next (match entry with
    | some k => s.tlp f (.reg (BitVec.ofNat 24 (0xF0000C + 16 * k)) 4 0)
    | none => forN (msixEntries f) (fun k s => s.msixFlush f k) (s.modFn f fun x => { x with msixEn := true, busMaster := true, fnMask := false }))

/-! ### Host-side resets (R408, R425 to R429) -/

/-- A BAR0 offset of the host-side state of function `f` that a reset clears: IR_HOST_IDLE of a room, HOST_APT, the mailbox and MSI-X (R411, R425). -/
def hostSideReg (f o : Nat) : Bool := (f ≠ 0 && 0x20 ≤ o && o < 0x28) || (0x100 ≤ o && o < 0x180) || (0x200 ≤ o && o < 0x240) || 0xF00000 ≤ o

/-- Of the TLPs that wait, what a host-side reset leaves: posted writes that have arrived are still applied, but to the state that the reset clears after them; reads are discarded (R425). -/
def heldPosted (f : Nat) : HeldTlp → Bool
  | .wr _ _ _ => true
  | .reg o _ _ => !hostSideReg f o.toNat
  | _ => false

/-- The host-side state of a function is reset (R425). Without a function-level reset HOST_ERR, HOST_EVT and the staging slot stay (R413, R426). -/
def State.resetHostSide (s : State) (f : Nat) (flr : Bool) : State :=
  let s := s.mbxStop f
  s.modFn f fun x => { hostErr := if flr then 0 else x.hostErr, hostEvt := if flr then 0 else x.hostEvt,
                       stage := if flr then none else x.stage, latch := x.latch, held := x.held.filter (heldPosted f) }

/-- The virtual functions from `lo` to `hi` are disabled (R408, R426). -/
def State.disableVfs (s : State) (lo hi : Nat) : State := forL ((List.range 17).filter fun f => lo ≤ f && f ≤ hi) (fun f s => s.resetHostSide f false) s

/-- Virtual functions enabled now. -/
def Pcie.vfs (x : Pcie) : Nat := if x.vfEnable then x.numVfs else 0

/-- VF_ENABLE_CLEAR (R408). -/
def execVfEnableClear (enable : Bool) (numVfs : Fin 17) (s : State) : Host.Outcome State Fault Refusal :=
  .next (let s' : State := { s with pcie := { s.pcie with vfEnable := enable, numVfs := numVfs } }
    s'.disableVfs (s'.pcie.vfs + 1) s.pcie.vfs)

/-- FUNCTION_LEVEL_RESET (R382, R383, R425). That of the physical function clears VF Enable with the rest of its configuration. -/
def execFunctionLevelReset (f : FnId) (s : State) : Host.Outcome State Fault Refusal :=
  .next (if f = 0 then
      let n := s.pcie.vfs
      (({ s with pcie := { s.pcie with vfEnable := false, numVfs := 0 } } : State).disableVfs 1 n).resetHostSide 0 true
    else
      let r := f.val - 1
      let s := s.resetHostSide f true
      if (s.room r).isFormed then (s.beginReset r true).settleReset r else s)

/-- System DMA reads of the host that are outstanding end at once with code HOST (R428). -/
def State.hostReadsFail (s : State) : State :=
  forL (s.sdma.map fun e => e.1) (fun n s =>
    let c := ChanRef.sys (Fin.ofNat 64 n)
    match s.chanRoom c, (s.chan c).desc with
    | some r, some d => forL ((s.chan c).reqs.filter fun q => !q.writing && d.ssp.toNat = 2) (fun q s => s.reqComplete c r d q (.err 20)) s
    | _, _ => s) s

/-- LINK_LOSS (R428). -/
def execLinkLoss (s : State) : Host.Outcome State Fault Refusal :=
  .next (let s : State := { s with pcie := { s.pcie with linkUp := false, lost := s.pcie.lost || s.pcie.linkUp, vfEnable := false, numVfs := 0, rate := 0, width := 0 } }
    (forN 17 (fun f s => s.resetHostSide f false) s).hostReadsFail)

/-- The link has trained: its rate and width are what training reached (R405). -/
def State.linkTrained (s : State) : State :=
  ({ s with pcie := { s.pcie with linkUp := true, rate := s.freeVal 8, width := s.spend.freeVal 8 } } : State).spend.spend

/-- PERST_DEASSERT (R427): training starts; the first one brings the link up. -/
def execPerstDeassert (s : State) : Host.Outcome State Fault Refusal :=
  .next (let s : State := { s with pcie := { s.pcie with perst := false } }
    if s.pcie.linkUp || s.pcie.lost then s else s.linkTrained)

/-- LINK_RETURN (R429). -/
def execLinkReturn (s : State) : Host.Outcome State Fault Refusal :=
  .next (if s.pcie.lost && !s.pcie.perst then
      (({ s with pcie := { s.pcie with lost := false, losses := s.pcie.losses + 1 } } : State).linkTrained).raiseHost 0 8
    else s)

end Sys2Proof.Machine
end

