-- ==== Sys2Proof/Machine/Power.lean ====
section
/-! DEFINITION. Power states, sleep negotiation, gating, the island, supplies, throttling and resets (R519 to R543, R565 to R577). -/

namespace Sys2Proof.Machine

/-- Change the power manager's state. -/
def State.modPow (s : State) (f : Power → Power) : State := { s with pow := f s.pow }

/-- The hub domain is powered. -/
def State.hubOn (s : State) : Bool := s.pow.state = .run || s.pow.state = .idle

/-- The steward has finished its stage: the part is READY or HELD. -/
def State.booted (s : State) : Bool := s.pow.boot = .ready || s.pow.boot = .held

/-! ### Reasons to refuse (R524, R528) -/

/-- The blocks asked for a target: 1 IDLE, 2 STANDBY (R528). -/
def sleepBlocks (target : Nat) : List Nat := if target = 1 then [2, 3, 5, 10] else [1, 2, 3, 4, 5, 6, 7, 8, 9, 10]

/-- Why block `b` refuses to stop; 0 where it stops (R528). -/
def State.blockReason (s : State) (b : Nat) : Nat :=
  match b with
  | 1 => if (List.range 16).any fun i => (s.cueAt (.dev (Fin.ofNat 2048 (2032 + i)))).arm then 3 else 0
  | 2 => if s.sdma.any fun e => e.2.state ≠ .idle then 8 else 0
  | 3 => if s.vault.jobs.isEmpty then 0 else 9
  | 4 => if (List.range 3).any fun o => s.outEnabled o then 12 else 0
  | 5 => if (List.range 16).any fun r => (s.room r).exists' then 11 else if s.reb.clearing.isEmpty then 0 else 10
  | 6 => if s.pcie.linkUp && (List.range 17).any fun f => (s.fn f).busMaster then 14 else 0
  | 7 => if s.bil.sessions.any fun x => x.isOpen then 15 else 0
  | 8 => if s.ports.any fun e => e.2.state = .up || e.2.state = .hold then 13 else 0
  | 9 => if s.isKeeper && !s.alone then 16 else 0
  | _ => if s.led.running.isSome then 17 else 0

/-- A tile keeps its quire awake (R524). -/
def tileBusy (x : Tile) : Bool :=
  (match x.run with | .stopped => false | .halted => false | .waitS _ => false | _ => true) || !x.sb.isEmpty || !x.wb.isEmpty || x.priv.launchPend

/-- A channel in MOVE, drained or not, whose descriptor addresses quire `q` (R316). -/
def chanMoves (c : ChanRef) (x : Chan) (q : Nat) : Bool :=
  (x.state = .move || x.state = .drain) && match x.desc with | some d => (descQuires c d).contains q | none => false

/-- Every channel that is not at its reset state. -/
def State.liveChans (s : State) : List (ChanRef × Chan) :=
  (s.sdma.map fun e => (.sys (Fin.ofNat 64 e.1), e.2)) ++
  s.quires.flatMap fun q => q.2.chan.map fun e => (.tile (toQuire q.1) (Fin.ofNat 32 e.1), e.2)

/-- Why quire `q` refuses to stop; 0 where it stops (R524, R528). -/
def State.quireReason (s : State) (q : Nat) : Nat :=
  let x := s.quire q
  if x.cue.any fun e => e.2.arm then 3
  else if s.liveChans.any fun e => chanMoves e.1 e.2 q then 4
  else if s.wins.any fun e => e.2.isOpen && (rangeQuires e.2.base.toNat e.2.size.toNat).contains q then 5
  else if !x.launches.isEmpty || (quireTiles q).any fun t => tileBusy (s.tile t) then 6
  else if (s.quireRoom q).any (fun r => (s.room r).state = .faulted) then 7
  else if x.cmd.busy || x.wayBusy then 18
  else 0

/-! ### Gating (R523 to R526, R269) -/

/-- A quire loses power (R269, R524, R526): dirty lines are written back, and its tiles, memories and cue table are lost. The register block keeps its values. -/
def State.gateQuire (s : State) (q : Nat) : State :=
  let s := s.flushCache q true
  let s := forL (quireTiles q) (fun t s => (s.clearScratch t).setTile t {}) s
  (s.clearQscratch q).modQuire q fun x => { x with power := .gated, cue := [] }

/-! ### Negotiation (R528 to R531) -/

/-- A negotiation that ended: the record to complete, its status and its result. -/
abbrev NegEnd := Option (W64 × Nat × List Byte)

/-- A negotiation begins (R528). -/
def State.negotiate (s : State) (target : Nat) (todo : List Nat) (record : Option W64) (room : Option RoomId) : State :=
  s.modPow fun p => { p with neg := some { target := BitVec.ofNat 8 target, stopped := [], todo := todo, record := record, room := room } }

/-- A block refuses (R529): the stopped blocks restart, the refusal is logged, and the timer backs off. -/
def State.negRefused (s : State) (n : Negotiation) (block reason : Nat) : NegEnd × State :=
  let ki := if n.target = 1 then Nat.min 4 (s.pow.kIdle + 1) else s.pow.kIdle
  let ks := if n.target = 2 then Nat.min 4 (s.pow.kStandby + 1) else s.pow.kStandby
  let k := if n.target = 1 then ki else if n.target = 2 then ks else 0
  let s := s.modPow fun p => { p with neg := none, kIdle := ki, kStandby := ks, refusals := lastN 64 (p.refusals ++
    [{ target := n.target, block := BitVec.ofNat 8 block, reason := BitVec.ofNat 8 reason, k := BitVec.ofNat 8 k, pos := s.posOrZero }]) }
  let s := if n.target = 3 then forL n.stopped (fun q s => if (s.quire q).power = .gating then s.modQuire q fun x => { x with power := .on } else s) s else s
  (n.record.map fun a => (a, stSTATE, [BitVec.ofNat 8 block, BitVec.ofNat 8 reason]), s)

/-- Every block asked has stopped (R521, R524, R531). -/
def State.negDone (s : State) (n : Negotiation) : NegEnd × State :=
  if n.target = 1 then
    (n.record.map fun a => (a, stOK, []), forN 80 (fun q s => if (s.quire q).power = .gated then s else s.gateQuire q) (s.modPow fun p => { p with neg := none, kIdle := 0, state := .idle }))
  else if n.target = 2 then
    (n.record.map fun a => (a, stOK, []), s.modPow fun p => { p with neg := none, kStandby := 0, standbyDue := true })
  else (none, forL n.stopped (fun q s => s.modQuire q fun x => { x with power := .gating }) (s.modPow fun p => { p with neg := some n }))

/-- The block asked answers, or has not answered in time; `own` is the reason that an outside event gives it, 0 for none (R528, R530). -/
def State.blockAnswers (s : State) (own : Nat) : NegEnd × State :=
  match s.pow.neg with
  | none => (none, s)
  | some n =>
    match n.active, n.todo with
    | some b, _ => s.negRefused n b 1
    | none, [] => (none, s)
    | none, b :: rest =>
      let reason := if own ≠ 0 then own else if n.target = 3 then s.quireReason b else s.blockReason b
      if reason ≠ 0 then s.negRefused n b reason
      else
        let n' := { n with stopped := n.stopped ++ [b], todo := rest }
        if rest.isEmpty then s.negDone n' else (none, s.modPow fun p => { p with neg := some n' })

/-- The tile channels of a quire (R284). -/
def quireChans (q : Nat) : List ChanRef := (List.range 32).map fun m => .tile (toQuire q) (Fin.ofNat 32 m)

/-- The reset of a quire's tiles aborts their channels (R301). -/
def State.abortTileChans (s : State) (q : Nat) : State := forL (quireChans q) (fun c s => s.chanAbort c) s

/-- The aborts of a quire's channels whose requests have ended are completed (R301). -/
def State.endTileAborts (s : State) (q : Nat) : State :=
  forL (quireChans q) (fun c s => if (s.chan c).state = .aborting && (s.chan c).reqs.isEmpty then
    (match s.chanRoom c with | some r => s.abortEnd c r | none => s.setChan c {}) else s) s

/-- Isolation engages and power is removed, or what has come since the quires answered calls the gating off (R316, R524, R525, R530). Channels of the quires that have a descriptor in hand are aborted first, since their tiles are reset (R301, R541): until their requests have ended, the gating waits. -/
def State.gatingEnds (s : State) : NegEnd × State :=
  match s.pow.neg with
  | none => (none, s)
  | some n =>
    if n.target ≠ 3 || !n.todo.isEmpty then (none, s)
    else match n.active, n.stopped.find? fun q => (s.quire q).power ≠ .gating with
      | some q, _ => s.negRefused n q 1
      | none, some q => s.negRefused n q 1
      | none, none =>
        match n.stopped.find? fun q => s.quireReason q ≠ 0 with
        | some q => s.negRefused n q 1
        | none =>
        let s := forL n.stopped (fun q s => (s.abortTileChans q).endTileAborts q) s
        if n.stopped.any fun q => (quireChans q).any fun c => !chanIdle (s.chan c) then (none, s)
        else
        (n.record.map fun a => (a, stOK, [255, 0]), forL n.stopped (fun q s => s.gateQuire q) (s.modPow fun p => { p with neg := none }))

/-- A quire has been woken (R269, R525, R541): on, its domain reset and cleared. -/
def State.wakeDone (s : State) (q : Nat) : State :=
  let s := forL (quireTiles q) (fun t s => s.clearScratch t) s
  (s.clearQscratch q).modQuire q fun x => { x with power := .on, chan := [] }

/-- Writes of QC_CMD and QC_WAYMAP that waited for the wake are applied (R525). -/
def State.applyHeldWrites (s : State) (q : Nat) : State :=
  let l := (s.quire q).held
  let s := s.modQuire q fun x => { x with held := [] }
  match s.quireRoom q with
  | some r => forL l (fun h s => s.qregWrite r q h.off h.v.toNat) s
  | none => s

/-- What waited for a quire goes on: register writes, launches and TLPs (R70, R420, R525). -/
def State.resumeQuire (s : State) (q : Nat) : State :=
  let s := (s.applyHeldWrites q).deliverLaunches q
  forN 17 (fun f s => if (s.fn f).held.isEmpty then s else s.drainTlps f (s.fn f).held.length) s

/-! ### Commands on power (R521 to R525, R531) -/

/-- POWER_REQUEST at step 13 (R521, R522, R529, R531). -/
def State.powerRequestEffect (s : State) (acc : W64) (v : Nat) : Eff :=
  if 2 < v then .refuse stRANGE s
  else if v = 2 && s.anyFormed then .refuse stSTATE s
  else
    let s := s.modPow fun p => { p with kIdle := 0, kStandby := 0, island := { p.island with lastRequest := BitVec.ofNat 8 v } }
    match v with
    | 0 => .ok s.leaveIdle
    | 1 => if s.pow.neg.isSome || s.pow.state ≠ .run then .ok s else .ok (s.negotiate 1 (sleepBlocks 1) none none)
    | _ => if s.pow.neg.isSome then .done stSTATE [255, 1] s else .wait (s.negotiate 2 (sleepBlocks 2) (some acc) none)

/-- The quires that a mask of 10 bytes names. -/
def maskQuires (bs : List Byte) : List Nat := bitList 80 (fieldAt bs 1 10)

/-- QUIRE_GATE (R523). -/
def State.quireGateEffect (s : State) (acc : W64) (bs : List Byte) : Eff :=
  let r := fieldAt bs 0 1
  let qs := maskQuires bs
  if !(r < 16 && (s.room r).isFormed) then .refuse stSTATE s
  else if qs.any fun q => !(s.roomQuires r).contains q then .refuse stRANGE s
  else
    let qs := qs.filter fun q => (s.quire q).power = .on
    if s.pow.neg.isSome then .done stSTATE [255, 1] s
    else if qs.isEmpty then .done stOK [255, 0] s
    else .wait (s.negotiate 3 qs (some acc) (some (toRoom r)))

/-- Every quire of the mask runs. -/
def State.maskAwake (s : State) (bs : List Byte) : Bool := (maskQuires bs).all fun q => (s.quire q).power = .on

/-- QUIRE_WAKE (R523, R525). -/
def State.quireWakeEffect (s : State) (bs : List Byte) : Eff :=
  let r := fieldAt bs 0 1
  let qs := maskQuires bs
  if !(r < 16 && (s.room r).isFormed) then .refuse stSTATE s
  else if qs.any fun q => !(s.roomQuires r).contains q then .refuse stRANGE s
  else
    let s := forL qs (fun q s => s.askWake q) s
    if s.maskAwake bs then .ok s else .wait s

/-! ### Power removed and applied (R430, R533, R536 to R542) -/

/-- The fault records of the rooms, which outlive power (R404 #3011). -/
def keptFaults (t : Tbl Room) : Tbl Room := t.foldl (fun u e => Tbl.put {} u e.1 { flt := e.2.flt }) []

/-- A record as it stands in MRAM: who waits for it and what it acted on beside its value are gone. -/
def recKept (r : Record) : Record := { r with waiting := [], full := [] }

/-- The Ledger as it stands in MRAM, before recovery rebuilds the rest (R466, R474, R479). -/
def ledKept (l : Ledger) : Ledger :=
  { recs := l.recs.map recKept, nextAcc := l.nextAcc, heads := l.heads, last := l.last }

/-- A Vault job when power goes (R489): the extent in progress has completed. -/
def jobKept (j : VaultJob) : VaultJob := { j with inExtent := false, stop := some 3 }

/-- The hub domain loses power, or is reset (R430, R541): what MRAM, NAND, fuses and the island hold stays, and everything else goes to its reset value. -/
def State.hubOff (s : State) (st : PowerState) (cause : Nat) : State :=
  let p := s.pow
  { pending := s.pending, out := s.out, free := s.free,
    reb := { usable := s.reb.usable, bank := s.reb.bank, marks := s.reb.marks, markLog := s.reb.markLog },
    integ := { log := s.integ.log, lost := s.integ.lost, poisoned := s.integ.poisoned },
    rooms := keptFaults s.rooms, plans := s.plans,
    pcie := { perst := s.pcie.perst },
    bil := { keys := s.bil.keys.map fun e => (e.1, { e.2 with heldOff := false }), smbusHeld := s.bil.smbusHeld, asel := s.bil.asel },
    led := ledKept s.led,
    vault := { objects := s.vault.objects, jobs := s.vault.jobs.map jobKept },
    glz := { refLoop := s.glz.refLoop },
    pow := { state := st, byRequest := p.byRequest, refusals := p.refusals, hottest := p.hottest, watts := p.watts, inputOk := p.inputOk, auxOk := p.auxOk,
             thermal := p.thermal, heldWake := p.heldWake, inReset := p.inReset, cause := BitVec.ofNat 8 cause, resetPos := s.posOrZero,
             island := p.island, lastReset := p.lastReset, bootLog := p.bootLog, store := p.store } }

/-- A device reset (R541, R542): as a power-on, with its cause. -/
def State.deviceReset (s : State) (cause : Nat) : State := s.hubOff .run cause

/-- 48 V conversion starts (R567), with the event that led to it (R538). -/
def State.startHub (s : State) (wake : Nat) : State :=
  s.modPow fun p => { p with starting := true, heldWake := false, island := { p.island with wakeCause := BitVec.ofNat 8 wake } }

/-- A wake of R534 reaches the island: it powers the part on, or is held while the 48 V input is out of range (R538). Only STANDBY by request waits for one. -/
def State.islandWake (s : State) (wake : Nat) : State :=
  if s.pow.state = .standby && s.pow.byRequest && !s.pow.starting then
    (if s.pow.inputOk then s.startHub wake
     else s.modPow fun p => { p with heldWake := true, island := { p.island with wakeCause := BitVec.ofNat 8 wake } })
  else if s.hubOn then
    match s.pow.neg with
    | some n => if n.target ≠ 3 then s.modPow fun p => { p with neg := some { n with active := some (n.active.getD (n.todo.headD 10)) } } else s
    | none => s
  else s

/-- In STANDBY for another reason than a request, the part powers on once the input is in range and the sensors have recovered (R538, R540). -/
def State.autoStart (s : State) : State :=
  if s.pow.state = .standby && !s.pow.byRequest && s.pow.auxOk && s.pow.inputOk && !s.pow.thermal && !s.pow.starting then
    s.startHub (if s.pow.cause = 7 then 5 else 0)
  else s

/-! ### Rows -/

/-- IDLE_TIMER (R521). -/
def execIdleTimer (s : State) : Host.Outcome State Fault Refusal :=
  .next (if s.pow.state = .run && s.booted && s.pow.neg.isNone && s.cfgN 0x9010 1 ≠ 0 && !s.anyFormed && s.vault.jobs.isEmpty && s.blockReason 2 = 0 then
      settle s (s.negotiate 1 (sleepBlocks 1) none none)
    else s)

/-- STANDBY_AFTER_IDLE (R531). -/
def execStandbyAfterIdle (s : State) : Host.Outcome State Fault Refusal :=
  .next (if s.pow.state = .idle && s.pow.neg.isNone && s.cfgN 0x9010 3 ≠ 0 then settle s (s.negotiate 2 (sleepBlocks 2) none none) else s)

/-- STANDBY_ENTRY (R531): hub power is removed. -/
def execStandbyEntry (s : State) : Host.Outcome State Fault Refusal :=
  .next (if s.hubOn && s.pow.standbyDue then (s.hubOff .standby 6).modPow fun p => { p with byRequest := true } else s)

/-- FREE_QUIRE_GATE (R523). -/
def execFreeQuireGate (q : QuireId) (s : State) : Host.Outcome State Fault Refusal :=
  .next (if s.pow.state = .run && s.pow.neg.isNone && s.cfgN 0x9010 2 ≠ 0 && (s.quireRoom q).isNone && (s.quire q).power = .on then
      settle s (s.negotiate 3 [q.val] none none)
    else s)

/-- BROWN_OUT (R532): the island restarts. What it held in volatile form is lost. -/
def execBrownOut (s : State) : Host.Outcome State Fault Refusal :=
  .next (if s.pow.state = .standby then
      { s with pow := { s.pow with heldWake := false, island := { s.pow.island with brownouts := s.pow.island.brownouts + 1 } },
               bil := { s.bil with smbusHeld := none, smbusReply := none, smbusWait := none } }
    else s)

/-- The setting of a wake pin: enabled, and its active level (#9011). -/
def wakePinSet (x : Island) (pin : Fin 2) : Bool × Bool := if pin = 0 then (x.pinA, x.pinALevel) else (x.pinB, x.pinBLevel)

/-- WAKE_PIN (R534, R577): the pin has been at `level` for 10 ms. -/
def execWakePin (pin : Fin 2) (level : Bool) (s : State) : Host.Outcome State Fault Refusal :=
  .next (if wakePinSet s.pow.island pin = (true, level) then s.islandWake (pin.val + 1) else s)

/-- SMBUS_WAKE (R534). -/
def execSmbusWake (s : State) : Host.Outcome State Fault Refusal := .next (if s.pow.island.smbusWake then s.islandWake 3 else s)

/-- POWER_ON (R536, R567): the hub domain reaches power good, and boot begins. -/
def execPowerOn (s : State) : Host.Outcome State Fault Refusal :=
  .next (if s.pow.starting && s.pow.inputOk && s.pow.auxOk then s.modPow fun p => { p with starting := false, byRequest := false, state := .run, boot := .rom } else s)

/-- INPUT_LOST (R489, R537, R565, R570): the hub runs on from the hold-up bank; no new extent or record starts, and the rooms are lost. -/
def execInputLost (s : State) : Host.Outcome State Fault Refusal :=
  .next (settle s (if !s.pow.inputOk then s
    else if s.hubOn then
      { s with rooms := keptFaults s.rooms, tiles := [], quires := [], sdma := [], wins := [],
               led := { s.led with closed := true },
               vault := { s.vault with jobs := s.vault.jobs.map fun j => { j with stop := some 3 } },
               pow := { s.pow with inputOk := false, onHoldup := true, neg := none } }
    else s.modPow fun p => { p with inputOk := false, starting := false, heldWake := p.heldWake || (p.starting && p.byRequest) }))

/-- HOLDUP_EXHAUSTED (R537, R570): conversion stops, and only the island is powered. -/
def execHoldupExhausted (s : State) : Host.Outcome State Fault Refusal :=
  .next (if s.hubOn && s.pow.onHoldup then (s.hubOff .standby 7).modPow fun p => { p with byRequest := false } else s)

/-- INPUT_RETURN (R534, R538, R565). A part that still runs on hold-up has lost its rooms and powers on anew. -/
def execInputReturn (s : State) : Host.Outcome State Fault Refusal :=
  .next (if s.pow.inputOk then s
    else
      let s := if s.hubOn then (s.hubOff .standby 7).modPow fun p => { p with byRequest := false } else s
      let s := s.modPow fun p => { p with inputOk := true }
      if s.pow.byRequest then (if s.pow.state = .standby && s.pow.heldWake then s.startHub s.pow.island.wakeCause.toNat else s) else s.autoStart)

/-- AUX_GOOD (R567, R576): the island starts and samples SMB_ASEL; power from OFF is always a power-on. -/
def execAuxGood (asel : BitVec 2) (s : State) : Host.Outcome State Fault Refusal :=
  .next (if s.pow.state = .off then
      (({ s with bil := { s.bil with asel := asel } } : State).modPow fun p => { p with state := .standby, auxOk := true, byRequest := false, cause := 1 }).autoStart
    else s)

/-- AUX_LOST (R568): as a failure of the 48 V input, and the part is OFF. -/
def execAuxLost (s : State) : Host.Outcome State Fault Refusal :=
  .next (if s.pow.state = .off then s
    else
      let t := s.hubOff .off 1
      { t with pow := { t.pow with auxOk := false, byRequest := false, heldWake := false, thermal := false },
               bil := { t.bil with smbusHeld := none } })

/-- The limit of #9020.02. -/
def State.powerLimit (s : State) : Nat := s.cfgN 0x9020 2

/-- New readings of the hottest junction sensor, in 0.1 °C, and of the averaged input power. -/
def State.readings (s : State) (tenths : Int) (watts : BitVec 16) : State := s.modPow fun p => { p with hottest := tenths, watts := watts }

/-- THROTTLE (R539). -/
def execThrottle (tenths : Int) (watts : BitVec 16) (s : State) : Host.Outcome State Fault Refusal :=
  .next (settle s (if s.hubOn then
      let t := s.readings tenths watts
      if (950 < tenths || s.powerLimit < watts.toNat) && s.pow.opPoint ≠ 3 then t.modPow fun p => { p with opPoint := p.opPoint + 1, throttles := p.throttles + 1 } else t
    else s))

/-- THROTTLE_RAISE (R539). -/
def execThrottleRaise (tenths : Int) (watts : BitVec 16) (s : State) : Host.Outcome State Fault Refusal :=
  .next (settle s (if s.hubOn then
      let t := s.readings tenths watts
      if tenths ≤ 900 && 100 * watts.toNat ≤ 95 * s.powerLimit && s.cfgN 0x9020 1 < s.pow.opPoint.val then t.modPow fun p => { p with opPoint := p.opPoint - 1 } else t
    else s))

/-- THERMAL_SHUTDOWN (R540): 48 V conversion is removed at once. -/
def execThermalShutdown (tenths : Int) (s : State) : Host.Outcome State Fault Refusal :=
  .next (if s.hubOn then
      let t := s.readings tenths s.pow.watts
      if 1100 < tenths then (t.hubOff .standby 5).modPow fun p => { p with thermal := true, byRequest := false } else settle s t
    else s)

/-- THERMAL_RECOVERY (R540): every sensor reads below 85 °C. -/
def execThermalRecovery (tenths : Int) (s : State) : Host.Outcome State Fault Refusal :=
  .next (if s.pow.thermal && tenths < 850 then (s.modPow fun p => { p with thermal := false, hottest := tenths }).autoStart else s)

/-- SYS_RST_N (R541, R577). The pin has no effect while the hub is unpowered, but holds it in reset once it is. -/
def execSysRstN (s : State) : Host.Outcome State Fault Refusal :=
  .next (let t := if s.hubOn then s.deviceReset 2 else s
    t.modPow fun p => { p with inReset := true })

/-- SYS_RST_N_RELEASE (R577). -/
def execSysRstNRelease (s : State) : Host.Outcome State Fault Refusal := .next (s.modPow fun p => { p with inReset := false })

/-- WATCHDOG (R541, R548): the steward has not served it for 2 s. A newly activated image that fails three boots in a row gives way to the previous slot. -/
def execWatchdog (s : State) : Host.Outcome State Fault Refusal :=
  .next (if s.hubOn && (s.pow.boot = .steward || s.booted) then
      let x := s.pow.store
      let n := if x.fresh && s.pow.boot = .steward then x.failed + 1 else x.failed
      let x := if 3 ≤ n then { x with failed := 0, fresh := false, next1 := !x.active1 } else { x with failed := n }
      (s.modPow fun p => { p with store := x }).deviceReset 4
    else s)

end Sys2Proof.Machine
end

