-- ==== Sys2Proof/Machine/Firmware.lean ====
section
/-! DEFINITION. Firmware images, their checks and commands, the pairing, and the boot stages beside Ledger recovery (R544 to R555). -/

namespace Sys2Proof.Machine

/-! ### The image store (R546 to R549) -/

/-- The slot of a KIND: B where `b` (R548). -/
def State.image (s : State) (k : Nat) (b : Bool) : Image := Tbl.get {} s.pow.store.image (2 * (k - 1) + bit b)

/-- The largest body of a KIND (R546). -/
def maxBody (k : Nat) : Nat := if k = 1 then 16777216 else 1048320

/-- Byte `i` of the image set at manufacture. Its bytes are opaque where R546 leaves them to the image; R603 says that it is valid, so MAGIC, KIND and the bytes that are 0 stand, and LENGTH is within its limit (log 18). -/
def factoryByte (k i : Nat) : Byte :=
  let raw : Nat → Byte := fun j => (Config.factoryImage k).getD j 0
  if i < 4 then (ascii "AFW1").getD i 0
  else if i = 4 then BitVec.ofNat 8 k
  else if i = 14 || i = 15 || (72 ≤ i && i < 160) || (k = 2 && 20 ≤ i && i < 24) then 0
  else if 16 ≤ i && i < 20 then BitVec.ofNat 8 (min (leNat ((List.range 4).map fun j => raw (16 + j))) (maxBody k) / 256 ^ (i - 16))
  else raw i

/-- Byte `i` of a slot. What no chunk has written, and no image set at manufacture holds, reads 0. -/
def imageByte (k : Nat) (x : Image) (i : Nat) : Byte :=
  match Tbl.get none x.bytes i with
  | some v => v
  | none => if x.factory then factoryByte k i else 0

/-- `n` bytes of a slot from byte `i`. -/
def imageBytes (k : Nat) (x : Image) (i n : Nat) : List Byte := (List.range n).map fun j => imageByte k x (i + j)

/-- A little-endian field of a slot. -/
def imageField (k : Nat) (x : Image) (i n : Nat) : Nat := leNat (imageBytes k x i n)

def imageEpoch (k : Nat) (x : Image) : Nat := imageField k x 6 2
def imageVersion (k : Nat) (x : Image) : Nat := imageField k x 8 4
def imageSecurity (k : Nat) (x : Image) : Nat := imageField k x 12 2
def imageLength (k : Nat) (x : Image) : Nat := imageField k x 16 4

/-- The slot holds the image set at manufacture, which is valid (R603). -/
def Image.pristine (x : Image) : Bool := x.factory && x.bytes.isEmpty

/-- ROM key `k` is named by the boot ROM and not revoked (R547, #9032.01). -/
def romKeyGood (k : Nat) : Bool := k < 4 && (Config.factory 0x9032 1).getD (49 * k + 48) 1 = 0

/-- The minimum SECURITY of a KIND (#9030.05). -/
def State.minSec (s : State) (k : Nat) : Nat := if k = 1 then s.pow.store.minSec1.toNat else s.pow.store.minSec2.toNat

/-- Whether the image in a slot is valid, as a result code of R554: 0 valid; 1 FORMAT, 6 LENGTH, 2 DIGEST, 3 KEY, 4 SIGNATURE, 5 ROLLBACK (R547). -/
def State.imageCode (s : State) (k : Nat) (x : Image) : Nat :=
  let old := imageSecurity k x < s.minSec k
  if x.pristine then (if old then 5 else 0)
  else if imageBytes k x 0 4 ≠ ascii "AFW1" || imageField k x 4 1 ≠ k || imageField k x 14 2 ≠ 0 || (imageBytes k x 72 88).any (fun b => b ≠ 0) then 1
  else if maxBody k < imageLength k x then 6
  else if Config.sha384 (imageBytes k x 256 (imageLength k x)) ≠ imageBytes k x 24 48 then 2
  else if !romKeyGood (imageField k x 5 1) then 3
  else if !Config.signatureOk (imageField k x 5 1) (imageBytes k x 0 160) (imageBytes k x 160 96) then 4
  else if old then 5
  else 0

/-- The slot holds a valid image (R547). -/
def State.imageValid (s : State) (k : Nat) (b : Bool) : Bool := s.imageCode k (s.image k b) = 0

/-- The active slot of a KIND (R548). -/
def Store.active (x : Store) (k : Nat) : Bool := if k = 1 then x.active1 else x.active2
/-- The slot of a KIND that is active from the next reset (R554, R555). -/
def Store.next (x : Store) (k : Nat) : Bool := if k = 1 then x.next1 else x.next2
/-- The slot of a KIND that this boot used. -/
def Store.used (x : Store) (k : Nat) : Bool := if k = 1 then x.used1 else x.used2
def Store.setNext (x : Store) (k : Nat) (b : Bool) : Store := if k = 1 then { x with next1 := b } else { x with next2 := b }

/-! ### The pairing (R550) -/

/-- Byte offset of the pairing table of a steward image. -/
def pairingAt (x : Image) : Nat := 256 + imageField 1 x 20 4

/-- The rows of a pairing table: boot ROM epoch and supervisor epoch (R550). -/
def pairingRows (x : Image) : List (Nat × Nat) :=
  (List.range (imageField 1 x (pairingAt x) 2)).map fun i => (imageField 1 x (pairingAt x + 2 + 4 * i) 2, imageField 1 x (pairingAt x + 4 + 4 * i) 2)

/-- A steward and a supervisor image form a tested pairing (R550); those set at manufacture do (R603). -/
def paired (steward supervisor : Image) : Bool :=
  (steward.pristine && supervisor.pristine) || (pairingRows steward).contains (Config.romEpoch.toNat, imageEpoch 2 supervisor)

/-! ### Commands (R553 to R555) -/

def isKind (k : Nat) : Bool := k = 1 || k = 2

/-- A chunk goes into the inactive slot of its KIND. -/
def State.putChunk (s : State) (k off : Nat) (bs : List Byte) : State :=
  let b := !s.pow.store.active k
  let x := s.image k b
  let x := { x with bytes := forN bs.length (fun i t => Tbl.put none t (off + i) (some (bs.getD i 0))) x.bytes }
  s.modPow fun p => { p with store := { p.store with image := Tbl.put {} p.store.image (2 * (k - 1) + bit b) x } }

/-- FW_CHUNK (R553). -/
def State.chunkEffect (s : State) (bs : List Byte) : Eff :=
  let k := fieldAt bs 0 1
  let off := fieldAt bs 1 4
  let data := bs.drop 5
  if !isKind k || off % 4096 ≠ 0 || 256 + maxBody k < off + data.length then .refuse stRANGE s else .ok (s.putChunk k off data)

/-- The value recorded for a chunk (R553): its digest in place of the data. -/
def chunkRecorded (bs : List Byte) : List Byte :=
  bs.take 5 ++ leBytes 4 (bs.length - 5) ++ padTo 48 (Config.sha384 (bs.drop 5))

/-- FW_COMMIT (R554). -/
def State.fwCommitEffect (s : State) (bs : List Byte) : Eff :=
  let k := fieldAt bs 0 1
  let n := fieldAt bs 1 4
  if !isKind k then .refuse stRANGE s
  else
    let b := !s.pow.store.active k
    let x := s.image k b
    let code := s.imageCode k x
    let code := if (code ≠ 1 || x.pristine) && n ≠ 256 + imageLength k x then 6 else code
    let other := s.image (3 - k) (s.pow.store.active (3 - k))
    if code ≠ 0 then .done stSTATE [BitVec.ofNat 8 code, 0] s
    else .done stOK [0, BitVec.ofNat 8 (bit (if k = 1 then paired x other else paired other x))] (s.modPow fun p => { p with store := p.store.setNext k b })

/-- FW_SELECT (R555). -/
def State.fwSelectEffect (s : State) (k : Nat) : Eff :=
  if !isKind k then .refuse stRANGE s
  else
    let b := !s.pow.store.active k
    if s.imageValid k b then .ok (s.modPow fun p => { p with store := p.store.setNext k b }) else .refuse stSTATE s

/-- SECURITY_RAISE (R555). -/
def State.raiseEffect (s : State) (bs : List Byte) : Eff :=
  let k := fieldAt bs 0 1
  let v := fieldAt bs 1 2
  if !isKind k || v < s.minSec k || imageSecurity k (s.image k (s.pow.store.active k)) < v then .refuse stRANGE s
  else .ok (s.modPow fun p => { p with store := if k = 1 then { p.store with minSec1 := BitVec.ofNat 16 v } else { p.store with minSec2 := BitVec.ofNat 16 v } })

/-! ### Boot stages (R544, R548 to R551) -/

/-- The slots chosen before this reset become active (R554, R555). A newly activated steward image is fresh until a boot finishes (R548). -/
def applyNext (x : Store) : Store :=
  let fresh := x.next1 ≠ x.active1
  { x with active1 := x.next1, active2 := x.next2, fresh := x.fresh || fresh, failed := if fresh then 0 else x.failed }

/-- ROM (R544). A hub that SYS_RST_N holds in reset does not boot (R577). -/
def execRom (s : State) : Host.Outcome State Fault Refusal :=
  .next (if s.hubOn && s.pow.boot = .rom && !s.pow.inReset then s.modPow fun p => { p with boot := .ledger, store := applyNext p.store } else s)

/-- The slot of a KIND that boot uses: the active one, or the other where only that is valid (R548, R549). -/
def State.bootSlot (s : State) (k : Nat) : Option Bool :=
  let b := s.pow.store.active k
  if s.imageValid k b then some b else if s.imageValid k (!b) then some (!b) else none

/-- A record of #9030.01. -/
def State.logBoot (s : State) (st : Nat) : State :=
  s.modPow fun p => { p with bootLog := lastN 16 (p.bootLog ++ [⟨p.incarnation, BitVec.ofNat 8 (bit p.store.used1), BitVec.ofNat 8 (bit p.store.used2), p.store.fallback, BitVec.ofNat 8 st⟩]) }

/-- VERIFY as a stage (R548): the steward image is chosen, or the part enters RECOVERY. -/
def State.verifyStage (s : State) : State :=
  match s.bootSlot 1 with
  | some b => s.modPow fun p => { p with
      boot := .steward,
      island := { p.island with steward := BitVec.ofNat 32 (imageVersion 1 (s.image 1 b)) },
      store := { p.store with used1 := b, used2 := p.store.active2, fallback := b ≠ p.store.active1 } }
  | none => (s.modPow fun p => { p with boot := .recovery, store := { p.store with used1 := p.store.active1, used2 := p.store.active2, fallback := false } }).logBoot 6

/-- STEWARD (R549, R551): the supervisor image is chosen and the pairing checked; the part enters READY or HELD. -/
def execSteward (s : State) : Host.Outcome State Fault Refusal :=
  .next (if s.hubOn && s.pow.boot = .steward then
      let o := s.bootSlot 2
      let b := o.getD s.pow.store.active2
      let reason := match o with
        | none => 2
        | some b => if paired (s.image 1 s.pow.store.used1) (s.image 2 b) then 0 else 1
      let t := s.modPow fun p => { p with
        boot := if reason = 0 then .ready else .held,
        heldReason := BitVec.ofNat 8 reason,
        store := { p.store with used2 := b, fallback := p.store.fallback || b ≠ p.store.active2, fresh := false, failed := 0 } }
      settle s (t.logBoot (if reason = 0 then 4 else 5))
    else s)

end Sys2Proof.Machine
end

