-- ==== Sys2Proof/Machine/Vault.lean ====
section
/-! DEFINITION. The Vault: its commands, its jobs, the hold-up check and commits (R482 to R490). -/

namespace Sys2Proof.Machine

/-! ### The hold-up check (R488) -/

/-- The check for an extent of `bytes`. What the power manager measures of the bank, C in µF and V in mV, are free values (log 36). -/
def State.holdCheck (s : State) (bytes : Nat) : Bool × State :=
  let c := s.freeVal 32
  let v := s.spend.freeVal 32
  let ok := s.pow.inputOk && holdEnough c.toNat v.toNat bytes
  let s := s.spend.spend
  (ok, { s with vault := { s.vault with
    check := { made := true, cMicro := c, vMilli := v, avail := BitVec.ofNat 32 (holdAvailMilli c.toNat v.toNat), req := BitVec.ofNat 32 (holdReqMilli bytes), pos := s.posOrZero, passed := ok },
    failures := if ok then s.vault.failures else s.vault.failures + 1 } })

/-! ### Objects and space (R482, R485) -/

/-- Units of 256 MiB that hold `n` bytes. -/
def vaultUnits (n : Nat) : Nat := (n + 0xFFFFFFF) / 0x10000000

/-- Units that no object and no write job uses (#7100.03). -/
def vaultFree (x : Vault) : Nat :=
  2048 - x.objects.foldl (fun n o => n + o.units) 0 - (x.jobs.filter fun j => j.write).foldl (fun n j => n + vaultUnits j.length.toNat) 0

def findObject (l : List VaultObj) (n : BitVec 16) : Option VaultObj := l.find? fun o => o.number = n

/-- Objects in ascending number. -/
def putObject (o : VaultObj) : List VaultObj → List VaultObj
  | [] => [o]
  | a :: t => if o.number.toNat < a.number.toNat then o :: a :: t else if a.number = o.number then o :: t else a :: putObject o t

/-- Jobs that wait: every one but that whose extent runs (R484). -/
def jobsWaiting (x : Vault) : Nat := (x.jobs.filter fun j => !j.inExtent).length

/-! ### Commands at step 13 (R483) -/

/-- An aligned length of a job (R483). -/
def vaultSizes (a b n : Nat) : Bool := a % 4096 = 0 && b % 4096 = 0 && n % 4096 = 0 && 4096 ≤ n && n ≤ 0x1000000000

/-- The tally of a job, 0xFFFF for none, may be advanced by the amount (R95, R97). -/
def State.vaultTally (s : State) (r t amount : Nat) : Bool := t = 0xFFFF || s.advanceCheck r t amount = 0

/-- A job is queued (R484). -/
def State.queueJob (s : State) (j : VaultJob) : State := { s with vault := { s.vault with jobs := s.vault.jobs ++ [j] } }

/-- VAULT_WRITE (R483). Object numbers end at 4,095 and no tag is 0 (R482). -/
def State.vaultWriteEffect (s : State) (acc : W64) (bs : List Byte) : Eff :=
  let s := s.leaveIdle
  let r := fieldAt bs 0 1
  let obj := BitVec.ofNat 16 (fieldAt bs 1 2)
  let tag := BitVec.ofNat 32 (fieldAt bs 3 4)
  let src := fieldAt bs 7 8
  let n := fieldAt bs 15 8
  let t := fieldAt bs 23 2
  let amount := fieldAt bs 25 2
  if !(r < 16 && (s.room r).isFormed) then .refuse stSTATE s
  else if 4096 ≤ obj.toNat || tag = 0 || !vaultSizes src 0 n || !s.ownsHbm r src n || !s.vaultTally r t amount then .refuse stRANGE s
  else if (findObject s.vault.objects obj).any fun o => o.tag ≠ tag then .refuse stSTATE s
  else if vaultFree s.vault < vaultUnits n then .refuse stCAPACITY s
  else
    let (ok, s) := s.holdCheck (Nat.min n 0x10000000)
    if !ok then .done stSTATE [1] s
    else if 16 ≤ jobsWaiting s.vault then .refuse stCAPACITY s
    else .ok (s.queueJob { accession := acc, room := toRoom r, write := true, object := obj, tag := tag, addr := BitVec.ofNat 64 src, offset := 0,
                           length := BitVec.ofNat 64 n, tally := BitVec.ofNat 16 t, amount := BitVec.ofNat 16 amount })

/-- VAULT_READ (R483). -/
def State.vaultReadEffect (s : State) (acc : W64) (bs : List Byte) : Eff :=
  let s := s.leaveIdle
  let r := fieldAt bs 0 1
  let obj := BitVec.ofNat 16 (fieldAt bs 1 2)
  let tag := BitVec.ofNat 32 (fieldAt bs 3 4)
  let off := fieldAt bs 7 8
  let dst := fieldAt bs 15 8
  let n := fieldAt bs 23 8
  let t := fieldAt bs 31 2
  let amount := fieldAt bs 33 2
  if !(r < 16 && (s.room r).isFormed) then .refuse stSTATE s
  else if !vaultSizes off dst n || !s.ownsHbm r dst n || !s.vaultTally r t amount then .refuse stRANGE s
  else match findObject s.vault.objects obj with
    | none => .refuse stRANGE s
    | some o =>
      if o.tag ≠ tag then .refuse stSTATE s
      else if o.length.toNat < off + n then .refuse stRANGE s
      else if 16 ≤ jobsWaiting s.vault then .refuse stCAPACITY s
      else .ok (s.queueJob { accession := acc, room := toRoom r, write := false, object := obj, tag := tag, addr := BitVec.ofNat 64 dst, offset := BitVec.ofNat 64 off,
                             length := BitVec.ofNat 64 n, tally := BitVec.ofNat 16 t, amount := BitVec.ofNat 16 amount })

/-- VAULT_DELETE (R483). -/
def State.vaultDeleteEffect (s : State) (bs : List Byte) : Eff :=
  let s := s.leaveIdle
  let obj := BitVec.ofNat 16 (fieldAt bs 1 2)
  match findObject s.vault.objects obj with
  | none => .refuse stRANGE s
  | some o =>
    if o.tag.toNat ≠ fieldAt bs 3 4 then .refuse stSTATE s
    else .ok { s with vault := { s.vault with objects := s.vault.objects.filter fun o => o.number ≠ obj } }

/-- VAULT_STOP (R483, R487). -/
def State.vaultStopEffect (s : State) (r : Nat) : Eff :=
  let s := s.leaveIdle
  .ok ((s.endQueuedJobs r 2).stopRunningJob r 2)

/-! ### Jobs (R484 to R487, R490) -/

/-- The bytes of the extent in progress. -/
def extentBytes (j : VaultJob) : Nat := Nat.min 0x10000000 (j.length.toNat - j.bytesDone)

/-- The listed entries from `lo` up to, not including, `hi`, moved to start at `to'`. -/
def moveTbl (t : Tbl Byte) (lo hi to' : Nat) : Tbl Byte := (t.filter fun e => lo ≤ e.1 && e.1 < hi).map fun e => (e.1 - lo + to', e.2)

/-- Counts of handovers between the granule code and the page CRC (R371, R490): 0 writing, 1 reading. -/
def State.countPages (s : State) (k done corrected failed : Nat) : State :=
  let c := Tbl.get {} s.vault.hand k
  let c : HandCount := { completed := c.completed + BitVec.ofNat 64 done, corrected := c.corrected + BitVec.ofNat 64 corrected, failed := c.failed + BitVec.ofNat 64 failed }
  { s with vault := { s.vault with hand := Tbl.put {} s.vault.hand k c } }

/-- Granules of an HBM range that are not good, as listed. -/
def State.badGranules (s : State) (a n : Nat) : List (Nat × Byte) := s.synd.filter fun e => a / 8 ≤ e.1 && e.1 < (a + n) / 8

/-- HBM from byte `a` takes `n` bytes of `t` (R490). -/
def State.copyIn (s : State) (a n : Nat) (t : Tbl Byte) : State :=
  (moveTbl t 0 n a).foldl (fun s e => s.putByte e.1 e.2) { s with mem := Tbl.clear s.mem a (a + n), synd := Tbl.clear s.synd (a / 8) ((a + n) / 8) }

/-- The job at the front changes. -/
def State.modJob (s : State) (f : VaultJob → VaultJob) : State :=
  { s with vault := { s.vault with jobs := match s.vault.jobs with | [] => [] | j :: l => f j :: l } }

/-- The job at the front leaves the list. -/
def State.popJob (s : State) : State := { s with vault := { s.vault with jobs := s.vault.jobs.tail } }

/-- The next extent of the job at the front starts, a write's after its check; a failed check ends the job with HOLDUP (R486). -/
def State.startExtent (s : State) (j : VaultJob) : State :=
  if j.write then
    let (ok, s) := s.holdCheck (extentBytes j)
    if ok then s.modJob fun j => { j with inExtent := true } else s.popJob.jobEnds j 1
  else s.modJob fun j => { j with inExtent := true }

/-- VAULT_JOB_START (R484, R486, R489). A read of an object that has been deleted since ends with STOP (log 37). -/
def execVaultJobStart (s : State) : Host.Outcome State Fault Refusal :=
  .next (settle s (match s.vault.jobs with
    | [] => s
    | j :: _ =>
      if j.inExtent || j.stop.isSome || s.led.closed || !s.hubOn then s
      else if !j.write && (findObject s.vault.objects j.object).isNone then s.popJob.jobEnds j 2
      else s.startExtent j))

/-- A finished job makes its advance (R485). -/
def State.jobAdvance (s : State) (j : VaultJob) : State :=
  if j.tally = 0xFFFF then s else s.tryAdvance j.room j.tally.toNat j.amount.toNat 5

/-- A write commits (R485): VAULT_COMMIT is recorded, the new version replaces the old one, and then the advance is made. -/
def State.commitJob (s : State) (j : VaultJob) : State :=
  let acc := s.nextEventAcc 18
  let s := s.event 5 (leBytes 2 j.object.toNat ++ leBytes 8 j.length.toNat ++ leBytes 8 j.accession.toNat)
  let o : VaultObj := { number := j.object, tag := j.tag, length := j.length, commit := acc, units := vaultUnits j.length.toNat, data := j.data }
  let s : State := { s with vault := { s.vault with objects := putObject o s.vault.objects, endedShort := false } }
  s.jobAdvance j

/-- The source of the first `n` bytes of the extent in progress is read from HBM (R490): errors are corrected, written back and counted (R369), and each page with a correction counts once in #7104.01. -/
def State.readSource (s : State) (j : VaultJob) (n : Nat) : State :=
  let l := s.badGranules (j.addr.toNat + j.bytesDone) n
  let pages := ((l.filter fun e => readSynd e.2 ≠ .bad).map fun e => e.1 / 512).dedup.length
  (s.sweep l).countPages 0 0 pages 0

/-- The first `n` bytes of a read's extent are written to HBM (R490). -/
def State.writeDest (s : State) (j : VaultJob) (n : Nat) : State :=
  match findObject s.vault.objects j.object with
  | none => s
  | some o => s.copyIn (j.addr.toNat + j.bytesDone) n (moveTbl o.data (j.offset.toNat + j.bytesDone) (j.offset.toNat + j.bytesDone + n) 0)

/-- The page of the extent in progress that cannot be moved: that of the first uncorrectable granule of a write's source, or the first page of an object that is gone. -/
def State.badPage (s : State) (j : VaultJob) : Option Nat :=
  if j.write then
    let a := j.addr.toNat + j.bytesDone
    ((s.badGranules a (extentBytes j)).find? fun e => readSynd e.2 = .bad).map fun e => (8 * e.1 - a) / 4096
  else if (findObject s.vault.objects j.object).isNone then some 0
  else none

/-- The data of the extent in progress moves (R484, R490). -/
def State.moveExtent (s : State) (j : VaultJob) : State :=
  let n := extentBytes j
  let a := j.addr.toNat + j.bytesDone
  if j.write then
    let s := s.readSource j n
    let d := j.data ++ moveTbl s.mem a (a + n) j.bytesDone
    (s.modJob fun j => { j with data := d }).countPages 0 (n / 4096) 0 0
  else (s.writeDest j n).countPages 1 (n / 4096) 0 0

/-- Page `k` of an extent fails its handover (R490): the job ends with CHECK. The pages before it were handed over, and a read leaves them written. -/
def State.failExtent (s : State) (j : VaultJob) (k : Nat) : State :=
  let s := s.countPages (bit (!j.write)) k 0 1
  let s := if j.write then s.readSource j (4096 * (k + 1)) else s.writeDest j (4096 * k)
  s.popJob.jobEnds j 4

/-- An extent has ended well: the job stops, commits, is done, or goes on (R485 to R487, R489). A job that power failure stops stays listed for its VAULT_END at power-on. -/
def State.extentEnds (s : State) : State :=
  match s.vault.jobs with
  | [] => s
  | j0 :: _ =>
    let s := s.modJob fun j => { j with inExtent := false, bytesDone := j.bytesDone + extentBytes j0 }
    match s.vault.jobs with
    | [] => s
    | j :: _ => match j.stop with
      | some c => if c = 3 then s else s.popJob.jobEnds j c.toNat
      | none =>
        if j.bytesDone < j.length.toNat then s.startExtent j
        else if j.write then s.popJob.commitJob j
        else
          let s := s.popJob
          ({ s with vault := { s.vault with endedShort := false } } : State).jobAdvance j

/-- EXTENT_COMPLETE as an effect (R484 to R490): `ok` is false where a page failed its handover; which one is a free value. -/
def State.extentComplete (s : State) (ok : Bool) : State :=
  match s.vault.jobs with
  | [] => s
  | j :: _ =>
    if !j.inExtent then s
    else if !ok then s.spend.failExtent j ((s.freeVal 32).toNat % (extentBytes j / 4096))
    else match s.badPage j with
      | some k => s.failExtent j k
      | none => (s.moveExtent j).extentEnds

end Sys2Proof.Machine
end

