-- ==== Sys2Proof/Machine/Catalogue.lean ====
section
/-! DEFINITION. The value that each Catalogue entry reads as (R435 to R441, R604, and the entry tables of every chapter). -/

namespace Sys2Proof.Machine

/-! ### Encodings (R436) -/

def enc8 (n : Nat) : List Byte := leBytes 1 n
def enc16 (n : Nat) : List Byte := leBytes 2 n
def enc32 (n : Nat) : List Byte := leBytes 4 n
def enc64 (n : Nat) : List Byte := leBytes 8 n
def encBool (b : Bool) : List Byte := enc8 (bit b)
def encI32 (x : Int) : List Byte := enc32 (satI32 x).toNat

/-- Three counts (R371). -/
def handBytes (c : HandCount) : List Byte := enc64 c.completed.toNat ++ enc64 c.corrected.toNat ++ enc64 c.failed.toNat

/-- A list of repeated records. -/
def records {α : Type} (l : List α) (f : α → List Byte) : List Byte := l.flatMap f

/-! ### Ranges 1000 to 2FFF -/

/-- One record of #1003.01. -/
def dirRecord (idx sub : Nat) (e : EntryDef) : List Byte := enc16 idx ++ enc8 sub ++ enc8 e.typ ++ enc8 e.access ++ enc8 e.persist

/-- The documented indexes, rising. -/
def entryIndexes : List Nat := (entryTable.map fun e => e.index).foldr (fun i l => if l.head? = some i then l else i :: l) []

/-- #1003.01. -/
def directory : List Byte :=
  records entryIndexes fun i => records (List.range (topSub i + 1)) fun k => match entryDef i k with | some e => dirRecord i k e | none => []

/-- The supervisor image in use has been found valid (R549). -/
def State.supervisorIn (s : State) : Bool := s.booted && s.pow.heldReason ≠ 2

/-- The steward image in use. -/
def State.stewardImage (s : State) : Image := s.image 1 s.pow.store.used1
/-- The supervisor image in use. -/
def State.supervisorImage (s : State) : Image := s.image 2 s.pow.store.used2
/-- The steward image has been verified in this boot. -/
def State.stewardIn (s : State) : Bool := s.booted || s.pow.boot = .steward

/-- The code of a boot state (R544). -/
def bootCode : BootState → Nat
  | .rom => 0 | .ledger => 1 | .verify => 2 | .steward => 3 | .ready => 4 | .held => 5 | .recovery => 6

/-- A byte of #1030 set at manufacture: the disabled row of a strip, 0 to 20 (R19, R603; log 18). -/
def rowByte (b : Byte) : Byte := BitVec.ofNat 8 (b.toNat % 21)

def State.value1000 (s : State) (idx sub : Nat) : List Byte :=
  match idx, sub with
  | 0x1000, 4 => padTo 12 (Config.factory 0x1000 4)
  | 0x1000, 5 => padTo 4 (Config.factory 0x1000 5)
  | 0x1001, 1 => padTo 4 (Config.factory 0x1001 1)
  | 0x1001, 2 => enc32 s.pow.island.steward.toNat
  | 0x1001, 3 => enc32 (if s.supervisorIn then imageVersion 2 s.supervisorImage else 0)
  | 0x1001, 4 => enc16 Config.romEpoch.toNat ++ enc16 (if s.stewardIn then imageEpoch 1 s.stewardImage else 0) ++
      enc16 (if s.supervisorIn then imageEpoch 2 s.supervisorImage else 0)
  | 0x1003, _ => directory
  | 0x1010, 1 => enc32 s.pow.incarnation.toNat
  | 0x1010, 2 => enc8 (bootCode s.pow.boot)
  | 0x1030, k => (padTo 4 (Config.factory 0x1030 (BitVec.ofNat 8 k))).map rowByte
  | _, _ => s.cfg idx sub

def State.value2000 (s : State) (idx sub : Nat) : List Byte :=
  match idx, sub with
  | 0x2000, 1 => enc64 s.clk.pos.toNat
  | 0x2000, 2 => enc8 (clockCode s.clk.state)
  | 0x2000, 3 => enc8 (match s.clk.src with | some x => sourceCode x | none => 0)
  | 0x2011, 1 => enc32 s.clk.disagreeNs.toNat
  | 0x2011, 2 => enc8 s.clk.format.val
  | 0x2030, 2 => enc16 s.clk.keeperNo.toNat
  | 0x2030, 3 => enc32 s.clk.keeperEpoch.toNat
  | 0x2030, 4 => enc8 s.clk.hopsRead
  | 0x2030, 5 => enc8 s.clk.parentPort.toNat
  | 0x2040, 3 => enc8 (posFrame s.clk.pos % s.cfgN 0x2040 2)
  | 0x2042, 1 => enc64 s.dev.cueLate.toNat
  | 0x2042, 2 => enc64 s.dev.cueMiss.toNat
  | 0x2042, 3 => enc64 s.dev.cueDelayed.toNat
  | _, _ => s.cfg idx sub

/-! ### Ranges 3000 to 5FFF -/

/-- A bit mask of the numbers below `n` that satisfy `p`. -/
def maskOf (n : Nat) (p : Nat → Bool) : Nat := (List.range n).foldl (fun m i => if p i then m + 2 ^ i else m) 0

/-- Ranges of a rising list of numbers: first and last. -/
def unitRanges : List Nat → List (Nat × Nat)
  | [] => []
  | u :: t => match unitRanges t with
    | (a, b) :: r => if u + 1 = a then (u, b) :: r else (u, u) :: (a, b) :: r
    | [] => [(u, u)]

/-- #3010 of a room. A free room has a formation record of zeros. -/
def roomStatus (x : Room) : List Byte :=
  let rs := unitRanges (x.hbm.mergeSort (· ≤ ·))
  enc8 (roomCode x.state) ++ enc64 x.accession.toNat ++ (match x.form with | some f => formBytes f | none => zeros 80) ++
  enc16 rs.length ++ records rs (fun e => enc32 e.1 ++ enc32 e.2) ++ enc64 x.reported.toNat ++ enc64 x.lateCpl.toNat

/-- A plan as PLAN_WRITE wrote it (#3020.02). -/
def planBytes (p : Nat) (x : Plan) : List Byte := enc8 p ++ enc16 x.dissolve.toNat ++ records x.forms fun f => enc16 f.length ++ f

def State.value3000 (s : State) (idx sub : Nat) : List Byte :=
  match idx, sub with
  | 0x3000, 2 => records (List.range 4) fun d => enc32 (s.freeUnits d)
  | 0x3000, 3 => leBytes 10 (maskOf 80 fun q => (s.quireRoom q).isNone)
  | 0x3000, 5 => enc32 s.reb.clearing.length
  | 0x3010, k => roomStatus (s.room (k - 1))
  | 0x3011, k => faultBytes (s.room (k - 1)).flt
  | 0x3012, _ => let x := s.dev.refusal; [x.status, x.room, x.plan, x.formation, x.order]
  | 0x3020, 2 => records (List.range 16) fun p => planBytes p (s.plan p)
  | _, _ => s.cfg idx sub

/-- Free spares of a bank after every pending mark (#5010.03). -/
def sparesOf (r : Rebind) (t b : Nat) : Nat := (Tbl.get {} r.bank (bankKey t b)).spares.length

def markBytes (m : Mark) : List Byte := enc16 m.tile.val ++ enc8 m.bank ++ enc16 m.row ++ [m.cause]

def State.value5000 (s : State) (idx sub : Nat) : List Byte :=
  let p := publishedReb s.reb
  match idx, sub with
  | 0x4011, 1 => enc64 s.tal.discarded.toNat
  | 0x4011, 2 => enc64 s.tal.refused.toNat
  | 0x4011, 3 => enc64 s.tal.nacks.toNat
  | 0x4012, _ => records (List.range 64) fun g => let b := Tbl.get {} s.tal.bind g; enc32 b.jobId.toNat ++ enc16 b.home.toNat
  | 0x5010, 1 => records (List.range 1280) fun t => enc16 (Tbl.get 1024 p.usable t)
  | 0x5010, 2 => enc16 (p.usable.foldl (fun m e => Nat.min m e.2) 1024)
  | 0x5010, 3 => records (List.range 1280) fun t => records (List.range 24) fun b => enc8 (sparesOf p t b)
  | 0x5011, 1 => enc32 s.reb.marks.length
  | 0x5011, 2 => records s.reb.markLog markBytes
  | 0x5012, _ => let x := s.reb.capRefusal; enc16 x.tile.toNat ++ enc16 x.need.toNat ++ enc16 x.usable.toNat ++ [x.quarter]
  | 0x5021, 1 => enc64 s.reb.spCe.toNat
  | 0x5021, 2 => enc64 s.reb.spUe.toNat
  | 0x5021, 3 => enc64 s.reb.qcCe.toNat
  | 0x5021, 4 => enc64 s.reb.qcUe.toNat
  | 0x5021, 5 => enc64 s.reb.hbmCe.toNat
  | 0x5021, 6 => enc64 s.reb.hbmUe.toNat
  | 0x5022, 1 => records s.reb.errLog fun e => e.1 :: enc64 e.2.toNat
  | 0x5022, 2 => enc64 s.reb.errLost.toNat
  | _, _ => s.cfg idx sub

/-! ### Range 6000 -/

def windowBytes (n : Nat) (w : Window) : List Byte :=
  encBool w.isOpen ++ enc8 n ++ [w.room, w.perm] ++ enc32 w.jobId.toNat ++ enc64 w.base.toNat ++ enc64 w.size.toNat

def peerBytes (x : Peer) : List Byte := enc16 x.device.toNat ++ enc32 x.incarnation.toNat ++ enc16 x.session.toNat ++ [x.x, x.y, x.z]

def portCounterBytes (x : PortCounters) : List Byte :=
  enc64 x.lcrc.toNat ++ enc64 x.corrected.toNat ++ enc64 x.uncorrectable.toNat ++ enc64 x.replays.toNat ++ enc64 x.flitsReplayed.toNat ++
  enc32 x.reinc.toNat ++ enc32 x.expiries.toNat

/-- A permission bit of a key slot: 0 READ, 1 ROOM, 2 DEVICE, 3 KEYS, 4 FIRMWARE (R448). -/
def KeySlot.allows (k : KeySlot) (b : Nat) : Bool := k.perm.getLsbD b

def keyInfo (k : KeySlot) : List Byte :=
  encBool (k.len ≠ 0) ++ [k.perm] ++ enc16 k.rooms.toNat ++ enc32 k.base.toNat ++ enc16 k.count.toNat ++ enc32 k.failures.toNat

def State.value6000 (s : State) (idx sub : Nat) : List Byte :=
  match idx, sub with
  | 0x6000, 4 => enc16 s.devNo
  | 0x6002, k => peerBytes (s.port (k - 1)).peer
  | 0x6003, k => portCounterBytes (s.port (k - 1)).cnt
  | 0x6005, 1 => enc32 s.fab.routeEpoch.toNat
  | 0x6005, 2 => enc16 s.fab.unreachable.length ++ records (s.fab.unreachable.take 64) fun n => enc16 n.toNat
  | 0x6100, 2 => enc32 s.pcie.losses.toNat
  | 0x6100, 3 => enc64 s.pcie.mbxLenErrors.toNat
  | 0x6100, 4 => enc16 (2 ^ s.pcie.vfs - 1)
  | 0x6201, _ => records (List.range 256) fun w => windowBytes w (s.window w)
  | 0x6202, 1 => enc64 s.dev.winRefusals.toNat
  | 0x6202, 2 => let x := s.dev.winLast; enc16 x.requester.toNat ++ enc32 x.jobId.toNat ++ enc64 x.addr.toNat ++ [x.cause]
  | 0x6210, 3 => enc64 s.dev.dmaBad.toNat
  | 0x6300, 4 =>
    let l := s.bil.sessions.filter fun x => x.isOpen
    enc8 l.length ++ records l fun x => enc32 x.number.toNat ++ [x.transport] ++ enc8 x.slot.val ++ enc8 (s.bil.subs.filter fun u => u.session = x.number).length
  | 0x6302, _ => records (List.range 32) fun k => keyInfo (s.keySlot k)
  | 0x6304, _ => records (List.range 8) fun k => enc64 (Tbl.get 0 s.bil.errors k).toNat
  | 0x6305, _ => enc8 s.bil.subs.length ++ records s.bil.subs fun u =>
      enc32 u.subId.toNat ++ enc32 u.session.toNat ++ enc16 u.index.toNat ++ [u.sub] ++ posBytes u.next ++ enc16 u.count.toNat
  | _, _ => s.cfg idx sub

/-! ### Ranges 7000 to AFFF -/

/-- Unacknowledged COMMAND records (#7000.04). -/
def ledUnacked (l : Ledger) : Nat := (l.recs.filter fun r => r.kind = 1 && !r.acked).length

/-- The accession number given last. -/
def ledHighest (l : Ledger) : W64 := l.nextAcc - 1

def objectBytes (o : VaultObj) : List Byte := enc16 o.number.toNat ++ enc32 o.tag.toNat ++ enc64 o.length.toNat ++ enc64 o.commit.toNat ++ enc16 o.units

def jobBytes (j : VaultJob) : List Byte :=
  enc64 j.accession.toNat ++ enc8 j.room.val ++ enc8 (if j.write then 1 else 2) ++ enc16 j.object.toNat ++ enc64 j.bytesDone

def State.value7000 (s : State) (idx sub : Nat) : List Byte :=
  match idx, sub with
  | 0x7000, 3 => enc32 (ledFreeOut s.led)
  | 0x7000, 4 => enc32 (ledUnacked s.led)
  | 0x7000, 5 => enc64 (ledHighest s.led).toNat
  | 0x7000, 6 => (match s.led.last with | some c => enc64 c.a.toNat ++ enc16 c.slots.length | none => zeros 10)
  | 0x7000, 8 => enc64 s.led.busyRefusals.toNat
  | 0x7000, 9 => enc32 s.led.eventsLost.toNat
  | 0x7000, 0x10 => enc32 s.ledgerStat.toNat
  | 0x7100, 3 => enc16 (vaultFree s.vault)
  | 0x7100, 4 => enc32 s.vaultStat.toNat
  | 0x7102, 1 => enc16 s.vault.objects.length ++ records s.vault.objects objectBytes
  | 0x7102, 2 => enc8 s.vault.jobs.length ++ records s.vault.jobs jobBytes
  | 0x7103, 1 => let c := s.vault.check
      enc32 c.cMicro.toNat ++ enc32 c.vMilli.toNat ++ enc32 c.avail.toNat ++ enc32 c.req.toNat ++ posBytes c.pos ++ encBool c.passed
  | 0x7103, 3 => enc64 s.vault.failures.toNat
  | 0x7104, _ => handBytes (Tbl.get {} s.vault.hand 0) ++ handBytes (Tbl.get {} s.vault.hand 1)
  | _, _ => s.cfg idx sub

/-- Layers of a pipe that hold (#8006). -/
def heldMask (x : Pipe) : Nat := maskOf 8 fun l => (Tbl.get none x.heldL l).isSome

def State.value8000 (s : State) (idx sub : Nat) : List Byte :=
  match idx with
  | 0x8006 =>
    let x := s.pipe (sub - 1)
    enc8 (match x.owner with | some r => r.val | none => 255) ++ enc32 (s.pipeStat (sub - 1)).toNat ++ enc8 (heldMask x) ++ [x.refCode, x.refLayer] ++
    posBytes x.lastCommit ++ records [x.commits, x.refusals, x.heldStates, x.lateEvents, x.dropped, x.underruns, x.badPixels] fun v => enc64 v.toNat
  | 0x8011 =>
    let x := s.vout (sub - 1)
    enc32 (s.outStat (sub - 1)).toNat ++ enc32 x.faults.toNat ++ enc32 x.retimed.toNat ++ enc32 x.trainings.toNat
  | _ => s.cfg idx sub

/-- The code of the power state (R520): QUIRE_GATED is RUN with a quire gated. -/
def State.powerCode (s : State) : Nat :=
  match s.pow.state with
  | .run => if s.quires.any fun e => e.2.power = .gated then 1 else 0
  | .idle => 2
  | _ => 3

def resetBytes (x : LastReset) : List Byte := [x.cause] ++ posBytes x.pos ++ enc32 x.incarnation.toNat

def sleepBytes (x : SleepRefusal) : List Byte := [x.target, x.block, x.reason, x.k] ++ posBytes x.pos

def bootBytes (x : BootRec) : List Byte := enc32 x.incarnation.toNat ++ [x.slot1, x.slot2] ++ encBool x.fallback ++ [x.endState]

/-- One slot of #9030.02. -/
def State.slotBytes (s : State) (k : Nat) (b : Bool) : List Byte :=
  let x := s.image k b
  encBool (s.imageValid k b) ++ encBool (s.pow.store.active k = b) ++ encBool (s.pow.store.next k = b) ++ enc32 (imageVersion k x) ++ enc16 (imageEpoch k x) ++ enc16 (imageSecurity k x)

def State.value9000 (s : State) (idx sub : Nat) : List Byte :=
  match idx, sub with
  | 0x9000, 1 => enc8 s.powerCode
  | 0x9000, 2 => enc32 s.pwrStat.toNat
  | 0x9000, 4 => leBytes 10 (maskOf 80 fun q => (s.quire q).power = .gated)
  | 0x9000, 5 => resetBytes s.pow.lastReset
  | 0x9012, 1 => records s.pow.refusals sleepBytes
  | 0x9012, 2 => enc32 s.pow.island.brownouts.toNat
  | 0x9012, 3 => enc8 s.pow.island.wakeCause.toNat
  | 0x9021, 4 => enc64 s.pow.throttles.toNat
  | 0x9030, 1 => records s.pow.bootLog bootBytes
  | 0x9030, 2 => s.slotBytes 1 false ++ s.slotBytes 1 true ++ s.slotBytes 2 false ++ s.slotBytes 2 true
  | 0x9030, 3 =>
    let rows := if s.stewardIn then pairingRows s.stewardImage else []
    enc16 rows.length ++ records rows fun e => enc16 e.1 ++ enc16 e.2
  | 0x9030, 4 => [s.pow.heldReason]
  | 0x9030, 5 => enc16 s.pow.store.minSec1.toNat ++ enc16 s.pow.store.minSec2.toNat
  | 0x9032, _ => padTo 196 (Config.factory 0x9032 1)
  | 0x9033, _ => if s.supervisorIn then imageBytes 2 s.supervisorImage 0 (256 + imageLength 2 s.supervisorImage) else []
  | _, _ => s.cfg idx sub

def State.valueA000 (s : State) (idx sub : Nat) : List Byte :=
  match idx, sub with
  | 0xA001, k => handBytes (Tbl.get {} s.integ.counts k)
  | 0xA002, 1 => records s.integ.log integBytes
  | 0xA002, 2 => enc64 s.integ.lost.toNat
  | 0xA003, 2 => enc64 s.integ.poisoned.toNat
  | 0xA010, 3 => enc16 s.integ.inject.length ++ records s.integ.inject fun i => [i.room, i.point, i.kind] ++ enc16 i.left.toNat
  | 0xA011, _ => enc64 s.integ.meshFaults.toNat
  | _, _ => s.cfg idx sub

/-! ### A read of an entry (R439) -/

/-- The value of a documented entry whose reading is not a measurement. -/
def State.entryValue (s : State) (idx sub : Nat) : List Byte :=
  if sub = 0 then enc8 (topSub idx)
  else match idx / 4096 with
    | 1 => s.value1000 idx sub
    | 2 => s.value2000 idx sub
    | 3 => s.value3000 idx sub
    | 4 => s.value5000 idx sub
    | 5 => s.value5000 idx sub
    | 6 => s.value6000 idx sub
    | 7 => s.value7000 idx sub
    | 8 => s.value8000 idx sub
    | 9 => s.value9000 idx sub
    | _ => s.valueA000 idx sub

/-- The value of a documented entry. What the part measures, and flit mode below 64 GT/s, are free values (log 38). -/
def State.readEntry (s : State) (idx sub : Nat) : List Byte × State :=
  if idx = 0x9000 && sub = 3 then
    (enc32 (s.freeVal 32).toNat ++ enc32 (s.spend.freeVal 32).toNat ++ enc16 s.pow.watts.toNat, s.spend.spend)
  else if idx = 0x9021 && sub = 1 then
    (records (List.range 5) fun i => enc32 (Config.free 32 (s.free + i)).toNat, { s with free := s.free + 5 })
  else if idx = 0x6100 && sub = 1 then
    let flit := s.pcie.linkUp && (s.pcie.rate = 64 || s.freeVal 1 = 1)
    ([s.pcie.rate, s.pcie.width] ++ encBool flit ++ encBool s.pcie.linkUp, s.spend)
  else (s.entryValue idx sub, s)

end Sys2Proof.Machine
end

