-- ==== Sys2Proof/Machine/Entry.lean ====
section
/-! DEFINITION. Writes of settings, key slots and device cues: types, ranges and what a new value sets off (R31, R44, R65, R83, R331, R342, R437, R448, and the entry tables). -/

namespace Sys2Proof.Machine

/-! ### Types (R436, step 9 of R455) -/

/-- The length of a value of a writable entry whose type does not fix it; none where the entry's own rule judges it. -/
def recLen (idx sub : Nat) : Option Nat :=
  match idx, sub with
  | 0x2041, 1 => some 34
  | 0x3003, _ => some 3
  | 0x3004, _ => some 7
  | 0x4001, _ => some 5
  | 0x6000, _ => some 3
  | 0x6001, _ => some 4
  | 0x6200, 1 => some 23
  | 0x6301, _ => some 74
  | 0x6303, _ => some 11
  | 0x7101, 1 => some 27
  | 0x7101, 2 => some 35
  | 0x7101, 3 => some 7
  | 0x7101, _ => some 1
  | 0x8001, _ => some 6
  | 0x8002, _ => some 2
  | 0x8003, _ => some 18
  | 0x8004, _ => some 2
  | 0x8010, _ => some 3
  | 0x9002, _ => some 11
  | 0x9011, _ => some 2
  | 0x9031, 2 => some 5
  | 0x9031, 4 => some 3
  | 0xA010, _ => some 5
  | _, _ => none

/-- Where a RECORD holds a BOOL (R436). -/
def recBool (idx : Nat) : Option Nat :=
  match idx with
  | 0x6001 => some 0
  | 0x6303 => some 10
  | 0x8010 => some 0
  | 0x9011 => some 0
  | _ => none

/-- The value's length and encoding match the entry's type (R436). -/
def typeOk (e : EntryDef) (sub : Nat) (v : List Byte) : Bool :=
  match typeLen e.typ with
  | some n => v.length = n && (e.typ ≠ 0 || fieldAt v 0 1 ≤ 1)
  | none =>
    (match recLen e.index sub with | some n => v.length = n | none => true) &&
    (match recBool e.index with | some i => fieldAt v i 1 ≤ 1 | none => true) &&
    (e.index ≠ 0x9031 || sub ≠ 1 || (6 ≤ v.length && v.length ≤ 61445)) &&
    (e.index ≠ 0x3020 || 3 ≤ v.length)

/-! ### Ranges -/

/-- The tick rate of a configuration lies between 1 kHz and 250 MHz (R31). -/
def tickRateOk (lpf tpl num den : Nat) : Bool :=
  den ≠ 0 && 1000 * den ≤ num * lpf * tpl && num * lpf * tpl ≤ 250000000 * den

/-- The frame configuration that a write of #2001 would produce is within the limits (R31, R83). -/
def State.frameOk (s : State) (sub n : Nat) : Bool :=
  let pick : Nat → Nat := fun k => if k = sub then n else s.cfgN 0x2001 k
  1 ≤ pick 1 && pick 1 ≤ 16384 && 1 ≤ pick 2 && pick 2 ≤ 16384 && tickRateOk (pick 1) (pick 2) (pick 3) (pick 4) &&
  2 * s.cfgN 0x2040 1 ≤ pick 1

/-- Torus dimensions (R342). -/
def dimsOk (x y z : Nat) : Bool :=
  1 ≤ x && x ≤ 128 && 1 ≤ y && y ≤ 128 && 1 ≤ z && z ≤ 128 && x * y * z ≤ 16384 && x / 2 + y / 2 + z / 2 ≤ 64

/-- A new value of a setting lies within its range. -/
def State.rangeOk (s : State) (idx sub : Nat) (v : List Byte) : Bool :=
  let n := leNat v
  let at1 : Nat → Nat := fun i => fieldAt v i 1
  match idx, sub with
  | 0x2001, 5 => n < 2 ^ 36
  | 0x2001, k => s.frameOk k n
  | 0x2010, 1 => (n = 1 || n = 2 || n = 4) && n ≠ s.cfgN 0x2010 2
  | 0x2010, 2 => (n = 0 || n = 1 || n = 2 || n = 4) && n ≠ s.cfgN 0x2010 1
  | 0x2040, 1 => 2 * n ≤ s.lpf
  | 0x2040, 2 => 1 ≤ n && n ≤ 16
  | 0x3000, 4 => 1 ≤ n
  | 0x4010, 1 => 1 ≤ n && n ≤ 60000
  | 0x4010, 2 => 1 ≤ n && n ≤ 10000
  | 0x5020, 1 => 1 ≤ n
  | 0x5030, 1 => n ≤ 1
  | 0x6000, 2 => dimsOk (at1 0) (at1 1) (at1 2)
  | 0x6001, _ => at1 1 ≤ 1
  | 0x6004, 1 => 100 ≤ n && n ≤ 1000000 && n < s.cfgN 0x6210 1
  | 0x6210, 1 => 100 ≤ n && n ≤ 1000000 && s.cfgN 0x6004 1 < n
  | 0x6300, 1 => 1024 ≤ n
  | 0x6300, 2 => 5 ≤ n && n ≤ 3600
  | 0x6303, _ => at1 0 ≤ 1 && at1 5 ≤ 32
  | 0x7000, 7 => 1 ≤ n && n ≤ 60928
  | 0x8001, _ =>
    let ph := (BitVec.ofNat 32 (fieldAt v 2 4)).toInt
    1 ≤ at1 0 && at1 0 ≤ 18 && at1 1 ≤ 1 && -10000000 ≤ ph && ph ≤ 10000000
  | 0x8005, 1 => 1 ≤ n
  | 0x8010, _ => at1 1 ≤ 1 && at1 2 ≤ 1
  | 0x9011, 3 => true
  | 0x9011, _ => at1 1 ≤ 1
  | 0x9020, 1 => n ≤ 3
  | 0x9020, 2 => 400 ≤ n && n ≤ 1600
  | 0xA003, 1 => n ≤ 8760
  | _, _ => true

/-! ### What a new value sets off -/

/-- A port follows its setting (R335): turned off it loses its session and its replay state, turned on it trains (log 134). A link that is turned off leaves the link map as one that is lost: R345 names no change for it (DESIGN CHOICE, log 135). -/
def State.portFollows (s : State) (p : Nat) : State :=
  let x := s.port p
  if s.portEnabled p then (if x.state = .disabled then (s.setPort p { x with state := .down }).startTraining p else s)
  else if x.state = .disabled then s
  else
    let before := s.unreach
    let s := s.setPort p { x with state := .disabled, fromHold := false, half := false, replayBuf := [], owed := [] }
    let s : State := { s with fab := endSession p s.fab }
    ((s.discardAll x.peer.device x.replayBuf).floodRoutes).routesChanged before

/-- The DP output trains anew when its setting or its pipe's format changes (R515). -/
def State.dpRetrain (s : State) : State :=
  { s with glz := { s.glz with out := Tbl.put {} s.glz.out 2 { s.vout 2 with linkFail := false, link := 0, lanes := 0 } } }

/-- An SDI output that is turned off stops driving, and its fault ends with it. -/
def State.sdiFollows (s : State) (o : Nat) : State :=
  if s.outEnabled o then s
  else { s with glz := { s.glz with out := Tbl.put {} s.glz.out o { s.vout o with limiting := false, fault := false, retrying := false } } }

/-- The island takes its copies of the wake settings (R533). -/
def State.islandCopies (s : State) : State :=
  s.modPow fun p => { p with island := { p.island with
    pinA := s.cfgAt 0x9011 1 0 1 = 1, pinALevel := s.cfgAt 0x9011 1 1 1 = 1,
    pinB := s.cfgAt 0x9011 2 0 1 = 1, pinBLevel := s.cfgAt 0x9011 2 1 1 = 1, smbusWake := s.cfgN 0x9011 3 = 1 } }

/-- A change of the interleave mode (R272, R273): every HBM unit awaits clearing, whatever it holds until then (log 137). -/
def State.interleaveFollows (s : State) (old : Nat) : State :=
  if s.cfgN 0x5030 1 = old then s else { s with reb := { s.reb with clearing := List.range hbmUnits } }

/-- What follows a new value of a setting. `was`: before the write no port was enabled. -/
def State.entryFollows (s : State) (was : Bool) (idx sub : Nat) : State :=
  match idx, sub with
  | 0x2001, _ => s.clockFree
  | 0x2010, k => if k ≤ 2 then s.clockFree else s
  | 0x2020, 1 => (s.modClk fun c => { c with presentPtp := false, ptpMaster := none }).clockFree
  | 0x2020, _ => s.clockFree
  | 0x2030, _ => s.dropKeeper
  | 0x6000, _ => s.ownKeeper
  | 0x6001, k => (s.portFollows (k - 1)).domainFollows was
  | 0x6300, 1 => s.endSessions fun x => x.transport.toNat < 2
  | 0x6303, k => s.endSessions fun x => x.transport.toNat = k - 1
  | 0x8001, _ => s.dpRetrain
  | 0x8010, 3 => s.dpRetrain
  | 0x8010, k => s.sdiFollows (k - 1)
  | 0x9011, _ => s.islandCopies
  | 0x9020, 1 => s.modPow fun p => { p with opPoint := Fin.ofNat 4 (s.cfgN 0x9020 1) }
  | _, _ => s

/-- A write of an rw or rw-idle entry at step 13 and after (R437). -/
def State.writeEntry (s : State) (idle : Bool) (idx sub : Nat) (v : List Byte) : Eff :=
  if idle && s.anyFormed then .refuse stSTATE s
  else if !s.rangeOk idx sub v then .refuse stRANGE s
  else .ok (((s.setCfg idx sub v).interleaveFollows (s.cfgN 0x5030 1)).entryFollows s.alone idx sub)

/-! ### Key slots (R448) -/

/-- The slot that a value of 74 bytes writes. -/
def keySlotOf (old : KeySlot) (v : List Byte) : KeySlot :=
  let n := fieldAt v 0 1
  if n = 0 then { failures := old.failures, heldOff := old.heldOff }
  else { len := BitVec.ofNat 8 n, key := slice v 1 n, perm := BitVec.ofNat 8 (fieldAt v 65 1), rooms := BitVec.ofNat 16 (fieldAt v 66 2),
         base := BitVec.ofNat 32 (fieldAt v 68 4), count := BitVec.ofNat 16 (fieldAt v 72 2), failures := old.failures, heldOff := old.heldOff }

/-- CLIENT_COUNT over every slot but `k`. -/
def State.clientSum (s : State) (k : Nat) : Nat := (List.range 32).foldl (fun n i => if i = k then n else n + (s.keySlot i).count.toNat) 0

/-- KEY_SLOT (R448, R465). -/
def State.keyEffect (s : State) (k : Nat) (v : List Byte) : Eff :=
  let n := fieldAt v 0 1
  let base := fieldAt v 68 4
  let count := fieldAt v 72 2
  let bad := (n ≠ 0 && (n < 16 || 64 < n)) || (slice v (1 + n) (64 - n)).any (fun b => b ≠ 0) || 32 ≤ fieldAt v 65 1 ||
    (count ≠ 0 && (base = 0 || 0xFFFFFF00 ≤ base + count - 1)) || 65536 < s.clientSum k + (if n = 0 then 0 else count)
  if bad then .refuse stRANGE s
  else .ok { s with bil := { s.bil with keys := Tbl.put {} s.bil.keys k (keySlotOf (s.keySlot k) v) } }

/-- The value recorded for a key slot (R468): a digest in place of the key. -/
def keyRecorded (v : List Byte) : List Byte :=
  v.take 1 ++ padTo 64 (padTo 32 (Config.sha256 (slice v 1 (fieldAt v 0 1)))) ++ v.drop 65

/-! ### Device cues 2032 to 2047 (R65, R67) -/

/-- Entries 2032 to 2047. -/
def plainCue (n : Nat) : Bool := 2032 ≤ n && n < 2048

/-- The entry that 32 bytes POS, ADDR, CTL, TGT write over `e`. -/
def cueOfBytes (e : CueEntry) (v : List Byte) : CueEntry :=
  withTgt (withCtl { e with pos := BitVec.ofNat 64 (fieldAt v 0 8), addr := BitVec.ofNat 56 (fieldAt v 8 8) } (fieldAt v 16 8)) (fieldAt v 24 8)

/-- The layout of #2041.01: index, POS, ADDR, CTL and TGT. -/
def cueBytes (n : Nat) (e : CueEntry) : List Byte :=
  enc16 n ++ posBytes e.pos ++ enc64 e.addr.toNat ++ enc64 (cueCtl e 0).toNat ++ enc64 (cueTgt e).toNat

/-- ARM_DEVICE_CUE (R65, R67). An armed entry answers STATE, a failed check RANGE, and both are reported (log 39). The command arms whatever CTL.ARM of its record holds, and it clears LATE_HIT and MISS too, of which R67 says nothing (DESIGN CHOICE, log 39). -/
def State.armEffect (s : State) (v : List Byte) : Eff :=
  let n := fieldAt v 0 2
  if !plainCue n then .refuse stRANGE s
  else
    let c := CueRef.dev (Fin.ofNat 2048 n)
    let e := s.cueAt c
    if e.arm then .refuse stSTATE (s.cueErrRec c none 4)
    else
      let e := cueOfBytes e (v.drop 2)
      match s.cueCheck c e with
      | 0 => .ok (s.cueArmNow c { e with lateHit := false, miss := false })
      | k => .refuse stRANGE (s.cueErrRec c none k)

/-- DISARM_DEVICE_CUE (R65). -/
def State.disarmEffect (s : State) (n : Nat) : Eff :=
  if plainCue n then .ok (s.cueDisarmNow (.dev (Fin.ofNat 2048 n))) else .refuse stRANGE s

/-! ### Tallies (R95, R118) -/

/-- TALLY_ADVANCE (R95, R97, R118). -/
def State.advanceEffect (s : State) (v : List Byte) : Eff :=
  let r := fieldAt v 0 1
  let t := fieldAt v 1 2
  let amount := fieldAt v 3 2
  if 15 < r then .refuse stRANGE s
  else if s.advanceCheck r t amount ≠ 0 then .refuse stRANGE (s.tryAdvance r t amount 5)
  else if s.frozen t then .refuse stSTATE (s.discardFrozen r 5 t)
  else .ok (s.issueAdvance r t amount 5)

end Sys2Proof.Machine
end

