-- ==== Sys2Proof/Machine/Journal.lean ====
section
/-! DEFINITION. How a write is accepted, recorded, carried out and answered (R85, R381, R455 to R460, R466 to R478, R552). -/

namespace Sys2Proof.Machine

/-! ### Replies -/

/-- A write as it stands at step 9 of R455. -/
structure WriteReq where
  transport : BitVec 8
  session : W32
  client : W32
  cseq : W32
  index : BitVec 16
  sub : BitVec 8
  segment : BitVec 16
  ks : Option (List Byte)
  value : List Byte
  deriving DecidableEq, Repr

/-- Who waits for the reply to a write. -/
def WriteReq.waiting (w : WriteReq) (rep differs : Bool) : Waiting :=
  { transport := w.transport, session := w.session, client := w.client, cseq := w.cseq, index := w.index, sub := w.sub, segment := w.segment,
    rep := rep, differs := differs, ks := w.ks }

/-- The reply to a write (R446, R447). -/
def writeReply (w : Waiting) (status : Nat) (acc : W64) (res : List Byte) : Frame :=
  { ver := 1, op := 0x84, flags := BitVec.ofNat 16 (1 + 2 * bit w.rep + 4 * bit w.differs), session := w.session, client := w.client, cseq := w.cseq,
    index := w.index, sub := w.sub, status := BitVec.ofNat 8 status, length := BitVec.ofNat 16 res.length, segment := w.segment,
    total := BitVec.ofNat 32 res.length, accession := acc, subId := 0, payload := res, tag := [], crc := 0 }

/-- Send the reply to a write. On SMBus it is dropped where a later Block Write has taken its place (R444). -/
def State.replyWrite (s : State) (w : Waiting) (status : Nat) (acc : W64) (res : List Byte) : State :=
  if w.transport.toNat = 19 && s.bil.smbusWait ≠ some (w.client, w.cseq) then s
  else s.sendFrame w.transport (writeReply w status acc res) w.ks

/-- Count a refused frame in #6304.01: 0 CHECK, 1 VERSION, 2 SESSION, 3 AUTH, 4 DENIED, 5 SEGMENT, 6 STALE, 7 BUSY. -/
def State.countFrame (s : State) (k : Nat) : State :=
  { s with bil := { s.bil with errors := Tbl.put 0 s.bil.errors k (Tbl.get 0 s.bil.errors k + 1) } }

/-! ### Records (R466, R468, R472, R477, R478, R553) -/

/-- The value that the Ledger holds for a write. -/
def recordedValue (idx sub : Nat) (v : List Byte) : List Byte :=
  if idx = 0x6301 then keyRecorded v else if idx = 0x9031 && sub = 1 then chunkRecorded v else v

/-- A COMMAND record is made with the slots of its value, and holds those its result may need (R472, R477, R478). -/
def ledRecordCmd (s : State) (l : Ledger) (r : Record) : Ledger :=
  let k := ledLowest l (1 + admitParts r.value.length)
  let l := ledTake l k
  let n := 1 + recParts r.value.length
  { l with recs := l.recs ++ [{ r with accession := l.nextAcc, incarnation := s.pow.incarnation, kind := 1, pos := s.posOrZero, slots := k.take n, held := k.drop n }],
           nextAcc := l.nextAcc + 1, heads := l.heads + 1, queue := l.queue ++ [l.nextAcc] }

/-- The Ledger takes a command with a value of `n` bytes (R478, R489). -/
def ledAdmits (l : Ledger) (n : Nat) : Bool := !l.closed && admitParts n + 1 ≤ ledFreeOut l

/-- A record becomes DONE (R472): the result takes held slots, and the others are freed. -/
def recDone (status : Nat) (res : List Byte) (r : Record) : Record :=
  let n := 1 + recParts (r.value.length + res.length) - r.slots.length
  { r with done := true, status := BitVec.ofNat 8 status, result := res, slots := r.slots ++ r.held.take n, held := [], waiting := [], full := [] }

/-- What a command acts on: its value, or what the record holds only a digest of. -/
def recValue (r : Record) : List Byte := if r.full.isEmpty then r.value else r.full

/-! ### Effects (steps 13 and 14 of R455) -/

/-- Writes that the part accepts while it is HELD (R552). -/
def heldAllows (idx : Nat) (sub : Nat) : Bool :=
  idx = 0x6301 || (idx = 0x9001 && (sub = 1 || sub = 2)) || (idx = 0x9020 && (sub = 1 || sub = 2)) || (idx = 0x9031 && 1 ≤ sub && sub ≤ 4)

/-- Writes that the ROM accepts in RECOVERY (R548). -/
def recoveryAllows (idx sub : Nat) (v : List Byte) : Bool :=
  (idx = 0x9031 && (sub = 1 || sub = 2) && fieldAt v 0 1 = 1) || (idx = 0x9001 && sub = 2)

/-- The boot state lets a write take effect (R548, R552). -/
def State.bootAllows (s : State) (idx sub : Nat) (v : List Byte) : Bool :=
  match s.pow.boot with
  | .held => heldAllows idx sub
  | .recovery => recoveryAllows idx sub v
  | _ => true

/-- DEVICE_RESET (R542); the reset follows its reply. -/
def State.resetDeviceEffect (s : State) (v : Nat) : Eff :=
  if v = 1 then (if s.anyFormed then .refuse stSTATE s else .ok s)
  else if v = 2 then .ok s
  else .refuse stRANGE s

/-- The next part of the plan being carried out begins; done when none is left (R381). -/
def State.planGoes (s : State) (acc : W64) (p : Plan) : Eff :=
  match s.led.todo with
  | [] => .ok s
  | k :: _ =>
    if k < 16 then .wait (s.beginDissolve k)
    else .wait (s.beginForm (parseForm (p.forms.getD (k - 16) [])) acc)

/-- A REPARTITION record takes effect (R85, R381): the whole plan is checked, then carried out. A refusal is a miss with CONFLICT. -/
def State.repartitionEffect (s : State) (r : Record) : Eff :=
  let c := CueRef.dev (Fin.ofNat 2048 r.cue.toNat)
  let n := fieldAt r.value 26 2
  let p := s.plan n
  if s.pow.boot = .held then .refuse stCONFLICT (s.cueMissed c 4)
  else match s.planCheck p with
    | some (k, row, bs, view) => .refuse stCONFLICT ((s.recordRefusal view bs row n k).cueMissed c 4)
    | none =>
      let todo := s.planRooms p ++ (List.range p.forms.length).map (16 + ·)
      ({ s with led := { s.led with todo := todo } } : State).planGoes r.accession p

/-- A command at step 13 and after, by its entry. -/
def State.commandEffect (s : State) (r : Record) : Eff :=
  let v := recValue r
  let n := leNat v
  let acc := r.accession
  let vault : State := s.activity 3 false
  match r.index.toNat, r.sub.toNat with
  | 0x2012, _ => s.stepToEffect (BitVec.ofNat 64 n)
  | 0x2041, 1 => s.armEffect v
  | 0x2041, _ => s.disarmEffect n
  | 0x3001, 1 => s.formEffect acc v
  | 0x3001, _ => s.dissolveEffect n
  | 0x3002, _ => s.resetEffect n
  | 0x3003, _ => s.declareEffect v
  | 0x3004, _ => s.qosEffect v
  | 0x3020, _ => s.planEffect v
  | 0x4001, _ => s.advanceEffect v
  | 0x6200, 1 => s.windowOpenEffect v
  | 0x6200, _ => s.windowCloseEffect v
  | 0x6301, k => s.keyEffect (k - 1) v
  | 0x7101, 1 => vault.vaultWriteEffect acc v
  | 0x7101, 2 => vault.vaultReadEffect acc v
  | 0x7101, 3 => vault.vaultDeleteEffect v
  | 0x7101, _ => vault.vaultStopEffect n
  | 0x8002, _ => s.assignEffect (fieldAt v 0 1) (fieldAt v 1 1)
  | 0x8003, _ => s.shadowEffect (fieldAt v 0 1) (fieldAt v 1 1) (fieldAt v 2 8) (fieldAt v 10 8)
  | 0x8004, _ => s.commitEffect (fieldAt v 0 1) (fieldAt v 1 1)
  | 0x9001, 1 => s.powerRequestEffect acc n
  | 0x9001, _ => s.resetDeviceEffect n
  | 0x9002, 1 => s.quireGateEffect acc v
  | 0x9002, _ => s.quireWakeEffect v
  | 0x9031, 1 => s.chunkEffect v
  | 0x9031, 2 => s.fwCommitEffect v
  | 0x9031, 3 => s.fwSelectEffect n
  | 0x9031, _ => s.raiseEffect v
  | 0xA010, 2 => s.injectEffect v
  | idx, sub => match entryRow idx sub with
    | some e => s.writeEntry (e.access = 3) idx sub v
    | none => .refuse stSTATE s

/-- A recorded command begins to take effect. A formation while the part is Held is refused by its own first check, and described in #3012.01 (R376). -/
def State.beginEffect (s : State) (r : Record) : Eff :=
  if r.source = 20 then s.repartitionEffect r
  else if s.bootAllows r.index.toNat r.sub.toNat (recValue r) then s.commandEffect r
  else if s.pow.boot = .held && r.index = 0x3001 && r.sub = 1 then s.formEffect r.accession (recValue r)
  else .refuse stSTATE s

/-- A command is done (R456, R472): its record, then its replies. -/
def State.finishRec (s : State) (a : W64) (status : Nat) (res : List Byte) : State :=
  match s.record a with
  | none => s
  | some r =>
    let s := s.modLed fun l => { ledModRec l a (recDone status res) with current := if l.current = some a then none else l.current }
    let s := forL r.waiting (fun w s => s.replyWrite w status a res) s
    if r.index = 0x9001 && r.sub = 2 && r.source ≠ 20 && status = 0 then s.deviceReset 3 else s

/-- Commands that wait take effect in ascending accession order, each when the one before it has (R456). -/
def State.runQueue (s : State) : Nat → State
  | 0 => s
  | fuel + 1 =>
    match s.led.current, s.led.queue with
    | none, a :: rest =>
      let s : State := { s with led := { s.led with queue := rest, current := some a } }
      match s.record a with
      | none => ({ s with led := { s.led with current := none } } : State).runQueue fuel
      | some r => match s.beginEffect r with
        | .done status res t => (t.finishRec a status res).runQueue fuel
        | .wait t => t
    | _, _ => s

/-- Let waiting commands take effect. -/
def State.runLedger (s : State) : State := s.runQueue (s.led.queue.length + 1)

/-- The command that was taking effect is done, and the next ones follow. -/
def State.completeCmd (s : State) (a : W64) (status : Nat) (res : List Byte) : State := (s.finishRec a status res).runLedger

/-- The record of the command that is taking effect. -/
def State.currentRec (s : State) : Option Record := match s.led.current with | some a => s.record a | none => none

/-! ### Steps 9 to 12 of R455 -/

/-- The COMMAND record of a pair (R458). -/
def findPair (l : Ledger) (client cseq : W32) : Option Record :=
  l.recs.find? fun r => r.kind = 1 && r.client = client && r.cseq = cseq && client ≠ 0

/-- The highest CSEQ recorded for a client; 0 where none is (R459). -/
def highestCseq (l : Ledger) (client : W32) : Nat := match Tbl.get none l.clients client.toNat with | some n => n.toNat | none => 0

/-- A repeat (R458, R473): answered from the DONE record, or held until it is DONE. -/
def State.repeatWrite (s : State) (w : WriteReq) (r : Record) : State :=
  let differs := r.index ≠ w.index || r.sub ≠ w.sub || r.value ≠ recordedValue w.index.toNat w.sub.toNat w.value
  let q := w.waiting true differs
  if r.done then s.replyWrite q r.status.toNat r.accession r.result
  else s.modLed fun l => ledModRec l r.accession fun r => { r with waiting := r.waiting ++ [q] }

/-- A write is recorded with the next accession number, and takes effect in its turn (R455, R456, R459). -/
def State.recordWrite (s : State) (w : WriteReq) : State :=
  let v := recordedValue w.index.toNat w.sub.toNat w.value
  let r : Record := { accession := 0, incarnation := 0, kind := 1, client := w.client, cseq := w.cseq, index := w.index, sub := w.sub, source := w.transport,
                      value := v, full := if v = w.value then [] else w.value, waiting := [w.waiting false false] }
  (s.modLed fun l => { ledRecordCmd s l r with clients := Tbl.put none l.clients w.client.toNat (some w.cseq) }).runLedger

/-- A refusal before step 12. -/
def State.refuseWrite (s : State) (w : WriteReq) (status : Nat) : State := s.replyWrite (w.waiting false false) status 0 []

/-- Steps 9 to 14 of R455 for a write whose entry `e` its class lets be written. -/
def State.journalWrite (s : State) (e : EntryDef) (w : WriteReq) : State :=
  if !typeOk e w.sub.toNat w.value then s.refuseWrite w 14
  else if w.cseq = 0 then s.refuseWrite w stRANGE
  else match findPair s.led w.client w.cseq with
    | some r => s.repeatWrite w r
    | none =>
      if w.cseq.toNat ≤ highestCseq s.led w.client then (s.countFrame 6).refuseWrite w 16
      else if !ledAdmits s.led (recordedValue w.index.toNat w.sub.toNat w.value).length then
        let s := s.countFrame 7
        let s : State := if s.led.closed then s else { s with led := { s.led with busyRefusals := s.led.busyRefusals + 1 } }
        s.refuseWrite w 6
      else s.recordWrite w

/-! ### Commands as rows -/

/-- The part takes Bilbin requests on this transport (R535, R545, R548). -/
def State.hears (s : State) (transport : BitVec 8) : Bool :=
  s.hubOn && match s.pow.boot with
    | .steward => true
    | .ready => true
    | .held => true
    | .recovery => transport = 2 || transport = 19
    | _ => false

/-- A new Block Write discards a reply not yet read; `o` is the pair of a write whose reply is awaited (R444). -/
def State.smbusTakes (s : State) (o : Option (W32 × W32)) : State := { s with bil := { s.bil with smbusReply := none, smbusWait := o } }

/-- A journaled command whose frame has passed steps 1 to 8 of R455. -/
def State.command (s : State) (r : Req) (idx sub : Nat) (v : List Byte) : State :=
  match entryRow idx sub with
  | none => s
  | some e =>
    if s.hears r.source then
      let u := if r.source = 19 then s.smbusTakes (some (r.client, r.cseq)) else s
      let t := (u.activity 7 false).journalWrite e
        { transport := r.source, session := r.session, client := r.client, cseq := r.cseq, index := BitVec.ofNat 16 idx, sub := BitVec.ofNat 8 sub, segment := 0,
          ks := s.sessionKey r.source r.session, value := v }
      settle s t
    else s

/-- The same, as the outcome of a row. -/
def State.commandRow (s : State) (r : Req) (idx sub : Nat) (v : List Byte) : Host.Outcome State Fault Refusal := .next (s.command r idx sub v)

/-! ### Repartition (R71, R85, R478) -/

/-- A REPARTITION fire (R85, R92): its record holds the entry as R81 leaves it. Without room in the Ledger it is a miss (R478). -/
def State.fireRepartition (s : State) (c : CueRef) : State :=
  let e := s.cueAt c
  let after := s.cueAfter { e with fires := e.fires + 1 } true
  let v := cueBytes (cueIndex c) after
  if !ledAdmits s.led v.length then s.fireEnds c 3 false
  else
    let r : Record := { accession := 0, incarnation := 0, kind := 1, index := 0x2041, sub := 1, source := 20, cue := BitVec.ofNat 16 (cueIndex c), value := v }
    let s := s.fireEnds c 0 false
    (s.modLed fun l => ledRecordCmd s l r).runLedger

/-- REPARTITION (R68, R85). A formation takes the part out of IDLE (R522). -/
def execRepartition (c : CueRef) (s : State) : Host.Outcome State Fault Refusal :=
  .next (if s.cueNext c 5 then settle s (s.fireRepartition c) else s)

end Sys2Proof.Machine
end

