-- ==== Sys2Proof/Machine/Requests.lean ====
section
/-! DEFINITION. What Bilbin requests are allowed and what they answer: permissions, reads, segments, Ledger reads and acknowledgement, subscriptions (R440, R447 to R454, R461 to R463, R466, R467, R475, R480). -/

namespace Sys2Proof.Machine

/-! ### Answers -/

/-- A reply to `q` under a session key, or with a TAG of zeros. -/
def State.answerFrame (s : State) (tr : BitVec 8) (q : Frame) (ks : Option (List Byte)) (status : Nat) (payload : List Byte) : State :=
  s.sendFrame tr (replyTo q status payload) ks

/-- A refusal that #6304.01 counts as `k`. -/
def State.refuseFrame (s : State) (tr : BitVec 8) (q : Frame) (ks : Option (List Byte)) (status k : Nat) : State :=
  (s.countFrame k).answerFrame tr q ks status []

/-! ### Permissions (R452) -/

/-- A client identity lies in the slot's range (R448). -/
def KeySlot.has (k : KeySlot) (client : W32) : Bool := inRange client.toNat k.base.toNat k.count.toNat

/-- Where an entry's value holds a room (R452). -/
def roomField (idx sub : Nat) : Option Nat :=
  match idx, sub with
  | 0x3001, _ => some 0
  | 0x3002, _ => some 0
  | 0x3003, _ => some 0
  | 0x3004, _ => some 0
  | 0x4001, _ => some 0
  | 0x6200, 1 => some 1
  | 0x7101, _ => some 0
  | 0x8002, _ => some 0
  | 0x8003, _ => some 0
  | 0x8004, _ => some 0
  | 0x9002, _ => some 0
  | 0xA010, 2 => some 0
  | _, _ => none

/-- The room that a write names; none for a device-wide write (R452). -/
def State.namedRoom (s : State) (idx sub : Nat) (v : List Byte) : Option Nat :=
  if idx = 0x6200 && sub = 2 then
    (let w := s.window (fieldAt v 0 1); if w.isOpen && !v.isEmpty then some w.room.toNat else none)
  else match roomField idx sub with
    | some i => if i < v.length then some (fieldAt v i 1) else none
    | none => none

/-- A key allows the write on its transport (R440, R452). -/
def State.mayWrite (s : State) (k : KeySlot) (tr : BitVec 8) (idx sub : Nat) (v : List Byte) : Bool :=
  let room := s.namedRoom idx sub v
  idx < 0xF000 &&
  (match room with | some r => k.allows 1 && k.rooms.getLsbD r | none => k.allows 2) &&
  (idx ≠ 0x6301 || k.allows 3) && (idx ≠ 0x9031 || k.allows 4) &&
  (!(3 ≤ tr.toNat && tr.toNat ≤ 18) || room = some (tr.toNat - 3))

/-! ### Reading entries (R437, R439, R440, R453) -/

/-- The entry exists (R440). Which vendor entries exist is not documented. -/
def entryExists (idx sub : Nat) : Bool :=
  if 0xF000 ≤ idx then !(Config.vendor (BitVec.ofNat 16 idx) (BitVec.ofNat 8 sub) 0).isEmpty else (entryDef idx sub).isSome

/-- The access class lets the entry be read (R437). -/
def entryReadable (idx sub : Nat) : Bool := match entryDef idx sub with | some e => e.access < 4 | none => true

/-- The value of an entry that exists. -/
def State.valueOf (s : State) (idx sub : Nat) : List Byte × State :=
  if 0xF000 ≤ idx then (Config.vendor (BitVec.ofNat 16 idx) (BitVec.ofNat 8 sub) (s.free + 1), s.spend) else s.readEntry idx sub

/-- Reads that the ROM answers in RECOVERY (R548). -/
def recoveryReads (idx : Nat) : Bool := (0x1000 ≤ idx && idx < 0x2000) || (0x9030 ≤ idx && idx ≤ 0x9033)

/-- Segment `k` of a value as the reply to `q` (R446, R453). -/
def segReply (q : Frame) (v : List Byte) (k : Nat) : Frame :=
  let last := v.length ≤ 1024 * (k + 1)
  { replyTo q stOK ((v.drop (1024 * k)).take 1024) with flags := BitVec.ofNat 16 (bit last), total := BitVec.ofNat 32 v.length, segment := BitVec.ofNat 16 k }

/-- Snapshots that this frame leaves: those of the session under another CSEQ go (R453). -/
def State.keepSnapshots (s : State) (q : Frame) : State :=
  { s with bil := { s.bil with snapshots := s.bil.snapshots.filter fun x => x.session ≠ q.session || (x.client = q.client && x.cseq = q.cseq) } }

def snapOf (q : Frame) (v : List Byte) : Snapshot := { session := q.session, client := q.client, cseq := q.cseq, bytes := v }
def isSnapOf (q : Frame) (x : Snapshot) : Bool := x.session = q.session && x.client = q.client && x.cseq = q.cseq

/-- The first segment of a value goes out, and its snapshot is kept where more follow. -/
def State.firstSegment (s : State) (tr : BitVec 8) (q : Frame) (ks : Option (List Byte)) (v : List Byte) : State :=
  let others := s.bil.snapshots.filter fun x => !isSnapOf q x
  let s : State := { s with bil := { s.bil with snapshots := if v.length ≤ 1024 then others else others ++ [snapOf q v] } }
  s.sendFrame tr (segReply q v 0) ks

/-- A later segment goes out of its snapshot, which ends with its last (R453). -/
def State.laterSegment (s : State) (tr : BitVec 8) (q : Frame) (ks : Option (List Byte)) : State :=
  match s.bil.snapshots.find? (isSnapOf q) with
  | none => s.refuseFrame tr q ks 15 5
  | some x =>
    let k := q.segment.toNat
    if x.bytes.length ≤ 1024 * k then s.refuseFrame tr q ks 15 5
    else
      let s : State := if x.bytes.length ≤ 1024 * (k + 1) then { s with bil := { s.bil with snapshots := s.bil.snapshots.filter fun y => !isSnapOf q y } } else s
      s.sendFrame tr (segReply q x.bytes k) ks

/-- READ past step 5 (R437, R440, R453, R548). -/
def State.readFrame (s : State) (tr : BitVec 8) (q : Frame) (ks : Option (List Byte)) : State :=
  let idx := q.index.toNat
  let sub := q.sub.toNat
  if !entryExists idx sub then s.answerFrame tr q ks 12 []
  else if !entryReadable idx sub then s.answerFrame tr q ks 13 []
  else if s.pow.boot = .recovery && !recoveryReads idx then s.answerFrame tr q ks stSTATE []
  else
    let s := s.keepSnapshots q
    if q.segment = 0 then (let (v, s) := s.valueOf idx sub; s.firstSegment tr q ks v) else s.laterSegment tr q ks

/-! ### Segmented writes (R454) -/

/-- FLAGS.LAST (R447). -/
def isLast (q : Frame) : Bool := q.flags.getLsbD 0

def State.findAssembly (s : State) (q : Frame) : Option Assembly := s.bil.assemblies.find? fun a => a.client = q.client && a.cseq = q.cseq

/-- The assembly of a pair goes. -/
def State.dropAssembly (s : State) (client cseq : W32) : State :=
  { s with bil := { s.bil with assemblies := s.bil.assemblies.filter fun a => a.client ≠ client || a.cseq ≠ cseq } }

/-- What a segment of a write comes to (R454). -/
inductive Segment where
  | whole (value : List Byte)
  | more (a : Assembly)
  | again
  | broken
  deriving DecidableEq, Repr

/-- Judge a segment of a write against what has been assembled (R454). -/
def State.segment (s : State) (q : Frame) : Segment :=
  let n := q.payload.length
  let old := s.findAssembly q
  let add : List Byte → Segment := fun bs =>
    let all := bs ++ q.payload
    if isLast q then (if all.length = q.total.toNat && n ≤ 1024 then .whole all else .broken)
    else if n = 1024 && all.length < q.total.toNat then
      .more { client := q.client, cseq := q.cseq, total := q.total, next := q.segment + 1, bytes := all }
    else .broken
  if 65536 < q.total.toNat then .broken
  else if q.segment = 0 then
    match old with
    | some a => if a.next = 1 && a.total = q.total && a.bytes = q.payload && !isLast q then .again else add []
    | none => add []
  else match old with
    | none => .broken
    | some a =>
      if a.total ≠ q.total then .broken
      else if q.segment = a.next then add a.bytes
      else if q.segment + 1 = a.next && !isLast q && n = 1024 then .again
      else .broken

/-- The bytes of the value known with this segment: what step 5 judges the room by. -/
def State.valueSoFar (s : State) (q : Frame) : List Byte :=
  if q.segment = 0 then q.payload else match s.findAssembly q with | some a => a.bytes | none => []

/-- WRITE past step 4 (R455, steps 5 to 8, and on). -/
def State.writeFrame (s : State) (tr : BitVec 8) (q : Frame) (k : KeySlot) (ks : Option (List Byte)) : State :=
  let idx := q.index.toNat
  let sub := q.sub.toNat
  if !s.mayWrite k tr idx sub (s.valueSoFar q) then s.refuseFrame tr q ks 11 4
  else match entryDef idx sub with
    | none => s.answerFrame tr q ks 12 []
    | some e =>
      if e.access < 2 then s.answerFrame tr q ks 13 []
      else match s.segment q with
        | .again => s.answerFrame tr q ks 1 []
        | .broken => (s.dropAssembly q.client q.cseq).refuseFrame tr q ks 15 5
        | .more a =>
          let s := s.dropAssembly q.client q.cseq
          ({ s with bil := { s.bil with assemblies := s.bil.assemblies ++ [a] } } : State).answerFrame tr q ks 1 []
        | .whole v => (s.dropAssembly q.client q.cseq).journalWrite e
            { transport := tr, session := q.session, client := q.client, cseq := q.cseq, index := q.index, sub := q.sub, segment := q.segment, ks := ks, value := v }

/-! ### ACK (R475, R476) -/

/-- The lowest unacknowledged accession number of a client; 0 if none. -/
def lowestUnacked (l : Ledger) (client : W32) : Nat :=
  match l.recs.find? fun r => r.kind = 1 && r.client = client && !r.acked with
  | some r => r.accession.toNat
  | none => 0

/-- A record that an ACK up to `a` acknowledges (R475). -/
def ackable (client : W32) (a : Nat) (r : Record) : Bool := r.kind = 1 && r.client = client && r.done && !r.acked && r.accession.toNat ≤ a

/-- ACK past step 5: a checkpoint is due where it acknowledged a record while LEDGER_STAT.LOW or FULL was 1 (R476). -/
def State.ackFrame (s : State) (tr : BitVec 8) (q : Frame) (ks : Option (List Byte)) : State :=
  let a := leNat q.payload
  if q.payload.length ≠ 8 then s.answerFrame tr q ks 14 []
  else if (ledHighest s.led).toNat < a then s.answerFrame tr q ks stRANGE []
  else
    let n := (s.led.recs.filter (ackable q.client a)).length
    let tight := (s.ledgerStat &&& 3) ≠ 0
    let s := s.modLed fun l => { l with recs := l.recs.map fun r => if ackable q.client a r then { r with acked := true } else r,
                                        due := l.due || (tight && n ≠ 0) }
    s.answerFrame tr q ks stOK (enc32 n ++ enc64 (lowestUnacked s.led q.client))

/-! ### LEDGER_READ (R466, R467, R480) -/

/-- FLAGS of a record (R466). -/
def recFlags (r : Record) : Nat := bit r.done + 2 * bit r.acked + 4 * bit r.interrupted

/-- A 512-byte entry: its bytes 0 to 507, and their ECRC. -/
def withEcrc (bs : List Byte) : List Byte := bs ++ leBytes 4 (crc32c bs).toNat

/-- A record as its entries store it (R466, R467). -/
def recEntries (r : Record) : List Byte :=
  let data := r.value ++ r.result
  let parts := recParts data.length
  let head := enc64 r.accession.toNat ++ enc32 r.incarnation.toNat ++ [r.kind] ++ enc8 (recFlags r)
  let first := head ++ enc16 parts ++ enc32 r.client.toNat ++ enc32 r.cseq.toNat ++ enc16 r.index.toNat ++ [r.sub, r.status, r.source, 0] ++
    enc16 r.cue.toNat ++ posBytes r.pos ++ enc32 r.value.length ++ enc16 r.result.length ++ zeros 2 ++ padTo 456 data ++ zeros 4
  let cont : Nat → List Byte := fun i =>
    enc64 r.accession.toNat ++ enc32 r.incarnation.toNat ++ [4] ++ enc8 (recFlags r) ++ enc16 (i + 1) ++ slice data (456 + 492 * i) 492
  withEcrc first ++ (List.range parts).flatMap fun i => withEcrc (cont i)

/-- The records that fit a reply: at most `n` of them, and `room` bytes. -/
def takeRecords : Nat → Nat → List Record → List (List Byte)
  | 0, _, _ => []
  | _, _, [] => []
  | n + 1, room, r :: l =>
    let bs := recEntries r
    if room < bs.length then [] else bs :: takeRecords n (room - bs.length) l

/-- The value that LEDGER_READ answers with (R480). -/
def State.ledgerValue (s : State) (k : KeySlot) (client : W32) (first n filter : Nat) : List Byte :=
  let fits : Record → Bool := fun r => first ≤ r.accession.toNat && (k.allows 2 || k.has r.client) &&
    (filter = 0 || (r.client = client && r.kind = 1 && (filter = 1 || !r.acked)))
  let l := takeRecords n (1048576 - 32) (s.led.recs.filter fits)
  enc32 (highestCseq s.led client) ++ enc64 (lowestUnacked s.led client) ++ enc64 (ledHighest s.led).toNat ++ enc32 s.pow.incarnation.toNat ++
  enc32 l.length ++ zeros 4 ++ l.flatten

/-- LEDGER_READ past step 5 (R480). -/
def State.ledgerFrame (s : State) (tr : BitVec 8) (q : Frame) (k : KeySlot) (ks : Option (List Byte)) : State :=
  let n := fieldAt q.payload 8 2
  let filter := fieldAt q.payload 10 1
  let s := s.keepSnapshots q
  if q.segment ≠ 0 then s.laterSegment tr q ks
  else if q.payload.length ≠ 11 then s.answerFrame tr q ks 14 []
  else if n = 0 || 2047 < n || 2 < filter then s.answerFrame tr q ks stRANGE []
  else s.firstSegment tr q ks (s.ledgerValue k q.client (fieldAt q.payload 0 8) n filter)

/-! ### Subscriptions (R461 to R463) -/

/-- More than 1,000 samples a second (R461). -/
def State.tooFast (s : State) (rpt stride : Nat) : Bool :=
  1000 * s.cfgN 0x2001 4 * stride < s.cfgN 0x2001 3 * (if rpt = 1 then s.lpf else 1)

/-- SUBSCRIBE past step 5 (R461). -/
def State.subscribeFrame (s : State) (tr : BitVec 8) (q : Frame) (ks : Option (List Byte)) : State :=
  let idx := q.index.toNat
  let sub := q.sub.toNat
  let rpt := fieldAt q.payload 8 1
  let stride := fieldAt q.payload 9 2
  let count := fieldAt q.payload 11 2
  if !entryExists idx sub then s.answerFrame tr q ks 12 []
  else if !entryReadable idx sub then s.answerFrame tr q ks 13 []
  else if q.payload.length ≠ 13 then s.answerFrame tr q ks 14 []
  else
    let (v, s) := s.valueOf idx sub
    if 1016 < v.length then s.refuseFrame tr q ks 15 5
    else if !(rpt = 1 || rpt = 2) || stride = 0 || count = 0 || s.tooFast rpt stride then s.answerFrame tr q ks stRANGE []
    else if 8 ≤ (s.bil.subs.filter fun u => u.session = q.session).length || 64 ≤ s.bil.subs.length then s.answerFrame tr q ks stCAPACITY []
    else
      let id := s.bil.nextSub
      let u : Sub := { subId := id, session := q.session, transport := tr, client := q.client, index := q.index, sub := q.sub, next := BitVec.ofNat 64 (fieldAt q.payload 0 8),
                       rpt := BitVec.ofNat 8 rpt, stride := BitVec.ofNat 16 stride, count := BitVec.ofNat 16 count, sample := 0, lost := false }
      let s : State := { s with bil := { s.bil with subs := s.bil.subs ++ [u], nextSub := if id + 1 = 0 then 1 else id + 1 } }
      s.sendFrame tr { replyTo q stOK [] with subId := id } ks

/-- UNSUBSCRIBE past step 5 (R463). A number that is not the session's own is refused with RANGE. -/
def State.unsubscribeFrame (s : State) (tr : BitVec 8) (q : Frame) (ks : Option (List Byte)) : State :=
  let mine : Sub → Bool := fun u => u.subId = q.subId && u.session = q.session
  let reply : Nat → Frame := fun st => { replyTo q st [] with subId := q.subId }
  if s.bil.subs.any mine then
    ({ s with bil := { s.bil with subs := s.bil.subs.filter fun u => !mine u } } : State).sendFrame tr (reply stOK) ks
  else s.sendFrame tr (reply stRANGE) ks

/-- A subscription as a device cue with SEAM 0 and LATE 1 (R462). -/
def subCue (u : Sub) : CueEntry := { pos := u.next, rpt := BitVec.ofNat 2 u.rpt.toNat, stride := u.stride, count := u.count, arm := true, late := true }

/-- A subscription after `n` samples: it moves on by `n` strides, and ends with its count (R462, R463). -/
def State.subMoves (s : State) (u : Sub) (n : Nat) : Option Sub :=
  let e := s.cueMove (subCue u) n
  let left := if u.count = 0xFFFF then u.count else u.count - BitVec.ofNat 16 n
  if left = 0 then none else some { u with next := e.pos, count := left, sample := u.sample + BitVec.ofNat 32 n }

/-- Replace or end a subscription. -/
def State.putSub (s : State) (id : W32) (o : Option Sub) : State :=
  { s with bil := { s.bil with subs := s.bil.subs.flatMap fun u => if u.subId = id then (match o with | some v => [v] | none => []) else [u] } }

/-- NOTIFY's frame (R446, R447, R462). -/
def notifyFrame (u : Sub) (v : List Byte) : Frame :=
  let bs := posBytes u.next ++ v
  { ver := 1, op := 0x8A, flags := BitVec.ofNat 16 (1 + 8 * bit u.lost), session := u.session, client := u.client, cseq := u.sample, index := u.index, sub := u.sub,
    status := 0, length := BitVec.ofNat 16 bs.length, segment := 0, total := BitVec.ofNat 32 bs.length, accession := 0, subId := u.subId, payload := bs, tag := [], crc := 0 }

/-- NOTIFY (R462): at its sample position a subscription sends its entry's value; samples already passed are dropped. -/
def execNotify (subId : W32) (s : State) : Host.Outcome State Fault Refusal :=
  .next (match s.bil.subs.find? fun u => u.subId = subId with
    | none => s
    | some u =>
      let e := subCue u
      if !s.posValid || !s.cueReached e then s
      else if u.next = s.clk.pos then
        let (v, s) := s.valueOf u.index.toNat u.sub.toNat
        (s.putSub subId ((s.subMoves u 1).map fun w => { w with lost := false })).sendFrame u.transport (notifyFrame u v) (s.sessionKey u.transport u.session)
      else
        let k := if u.count = 0xFFFF then s.stridesPast e else Nat.min (s.stridesPast e) u.count.toNat
        s.putSub subId ((s.subMoves u k).map fun w => { w with lost := true }))

end Sys2Proof.Machine
end

