-- ==== Sys2Proof/Machine/Bilbin.lean ====
section
/-! DEFINITION. Bilbin frames in, sessions, the mailbox slots and SMBus (R366, R423, R424, R443 to R451, R535, R545, R576). -/

namespace Sys2Proof.Machine

/-! ### Opening a session (R449, R451) -/

/-- Some key slot that holds a key has the KEYS permission (R451). -/
def State.keysHeld (s : State) : Bool := s.bil.keys.any fun e => e.2.len ≠ 0 && e.2.allows 3

/-- The key of slot `k` may open a session on this transport; slot 255 only as R451 says. -/
def State.slotUsable (s : State) (k : Nat) (tr : BitVec 8) : Bool :=
  if k = 255 then tr = 2 && !s.keysHeld else k < 32 && (s.keySlot k).len ≠ 0

/-- HELLO for the slot is held off (R449). -/
def State.slotHeldOff (s : State) (k : Nat) : Bool := if k = 255 then s.bil.heldOff255 else (s.keySlot k).heldOff

/-- The SESSION number that the part chooses: not 0, and not in use. Its choice is a free value (log 3). -/
def State.newSession (s : State) : W32 :=
  let v := s.freeVal 32
  let cands := (List.range 66).map fun i => v + BitVec.ofNat 32 i
  (cands.find? fun n => n ≠ 0 && s.bil.sessions.all fun x => x.number ≠ n).getD 1

/-- The nonce that the part chooses, a free value. -/
def State.newNonce (s : State) : List Byte := leBytes 16 (s.freeVal 128).toNat

/-- HELLO (R449): answered with AUTH for a slot that holds no usable key, and with BUSY while it is held off or every session is taken. -/
def State.helloFrame (s : State) (tr : BitVec 8) (q : Frame) : State :=
  let k := fieldAt q.payload 0 1
  if q.payload.length ≠ 20 then s.answerFrame tr q none 14 []
  else if !s.slotUsable k tr then s.refuseFrame tr q none 10 3
  else if s.slotHeldOff k || 64 ≤ s.bil.sessions.length then s.refuseFrame tr q none 6 7
  else
    let n := s.newSession
    let s := s.spend
    let np := s.newNonce
    let s := s.spend
    let x : Session := { number := n, transport := tr, slot := Fin.ofNat 256 k, nc := slice q.payload 4 16, np := np, isOpen := false }
    let s : State := { s with bil := { s.bil with sessions := s.bil.sessions ++ [x] } }
    s.sendFrame tr { replyTo q stOK (np ++ enc32 s.pow.incarnation.toNat) with session := n } none

/-- The text under a label that both sides sign (R449). -/
def proofText (label : String) (a b : List Byte) (n : W32) : List Byte := ascii label ++ a ++ b ++ enc32 n.toNat

/-- The key of a slot (R448). -/
def slotKey (k : KeySlot) : List Byte := k.key.take k.len.toNat

/-- A failed proof: the slot counts it, and answers HELLO with BUSY for the next second (R449). -/
def State.failProof (s : State) (k : Nat) : State :=
  if k = 255 then { s with bil := { s.bil with heldOff255 := true } }
  else
    let x := s.keySlot k
    { s with bil := { s.bil with keys := Tbl.put {} s.bil.keys k { x with failures := x.failures + 1, heldOff := true } } }

/-- AUTH (R449). -/
def State.authFrame (s : State) (tr : BitVec 8) (q : Frame) : State :=
  match s.bil.sessions.find? fun x => x.number = q.session && x.transport = tr && !x.isOpen with
  | none => s.refuseFrame tr q none 9 2
  | some x =>
    let key := slotKey (s.slotOf x.slot)
    if q.payload.length ≠ 32 then s.answerFrame tr q none 14 []
    else if q.payload = padTo 32 (Config.hmac key (proofText "BILBIN-C" x.nc x.np x.number)) then
      let ks := Config.hmac key (proofText "BILBIN-K" x.nc x.np x.number)
      let s : State := { s with bil := { s.bil with sessions := s.bil.sessions.map fun y => if y = x then { y with isOpen := true, ks := ks } else y } }
      s.answerFrame tr q none stOK (padTo 32 (Config.hmac key (proofText "BILBIN-S" x.np x.nc x.number)))
    else ((s.endSessions fun y => y = x).failProof x.slot).refuseFrame tr q none 10 3

/-! ### Frames in (R445, R450, R452, R455) -/

/-- A request within an open session, past the TAG: step 5 and on. -/
def State.sessionFrame (s : State) (tr : BitVec 8) (q : Frame) (x : Session) : State :=
  let k := s.slotOf x.slot
  let ks := some x.ks
  let device := q.op = 5 && q.client = 0
  if !(k.has q.client || device) || (device && !k.allows 2) then s.refuseFrame tr q ks 11 4
  else match q.op.toNat with
    | 3 => if k.allows 0 then s.readFrame tr q ks else s.refuseFrame tr q ks 11 4
    | 4 => s.writeFrame tr q k ks
    | 5 => s.ackFrame tr q ks
    | 6 => if k.allows 0 then s.ledgerFrame tr q k ks else s.refuseFrame tr q ks 11 4
    | 7 => if k.allows 0 then s.subscribeFrame tr q ks else s.refuseFrame tr q ks 11 4
    | 8 => s.unsubscribeFrame tr q ks
    | _ => (s.answerFrame tr q ks stOK []).endSessions fun y => y = x

/-- A frame past point 8: steps 2 to 4 of R455. -/
def State.goodFrame (s : State) (tr : BitVec 8) (q : Frame) : State :=
  let ks := s.sessionKey tr q.session
  if q.ver ≠ 1 || q.op = 0 || 9 < q.op.toNat then s.refuseFrame tr q ks 8 1
  else if q.op = 1 then s.helloFrame tr q
  else if q.op = 2 then s.authFrame tr q
  else match s.openSession tr q.session with
    | none => s.refuseFrame tr q none 9 2
    | some x => if q.tag ≠ frameTag x.ks q then s.refuseFrame tr q none 10 3 else s.sessionFrame tr q x

/-- A frame that fails point 8 is answered with CHECK (R366); on Ethernet a datagram that is not one whole frame is dropped (R443). -/
def State.badFrame (s : State) (tr : BitVec 8) (q : Frame) : State :=
  if tr.toNat < 2 && q.length.toNat ≠ q.payload.length then s.countFrame 0
  else s.refuseFrame tr q (s.sessionKey tr q.session) 7 0

/-- A frame arrives on Ethernet or in a mailbox slot (R366, R442, R445, R545). -/
def State.frameIn (s : State) (tr : BitVec 8) (q : Frame) : State :=
  if !s.hears tr then s
  else
    let s := s.activity 7 false
    if !frameGood q then (s.handFail 8 255 0 0).badFrame tr q
    else match s.handover 8 255 0 0 with
      | (.ok, s) => s.goodFrame tr q
      | (.storeCe, s) => s.goodFrame tr q
      | (_, s) => s.badFrame tr q

/-! ### Rows -/

/-- A frame on Ethernet or a mailbox as a row. -/
def State.frameRow (s : State) (tr : BitVec 8) (q : Frame) : Host.Outcome State Fault Refusal :=
  .next (if tr.toNat < 19 then settle s (s.frameIn tr q) else s)

/-- HELLO (R449, R451). -/
def execHello (transport : BitVec 8) (fr : Frame) (s : State) : Host.Outcome State Fault Refusal := s.frameRow transport fr

/-- AUTH (R449). -/
def execAuth (transport : BitVec 8) (fr : Frame) (s : State) : Host.Outcome State Fault Refusal := s.frameRow transport fr

/-- AUTH_HOLDOFF_END (R449): slot 32 of the operand stands for slot 255. -/
def execAuthHoldoffEnd (slot : Fin 33) (s : State) : Host.Outcome State Fault Refusal :=
  .next (if slot.val = 32 then { s with bil := { s.bil with heldOff255 := false } }
    else { s with bil := { s.bil with keys := Tbl.put {} s.bil.keys slot { s.keySlot slot with heldOff := false } } })

/-- READ (R437, R452, R453). -/
def execRead (transport : BitVec 8) (fr : Frame) (s : State) : Host.Outcome State Fault Refusal := s.frameRow transport fr

/-- SNAPSHOT_EXPIRY (R453). -/
def execSnapshotExpiry (session : W32) (s : State) : Host.Outcome State Fault Refusal :=
  .next { s with bil := { s.bil with snapshots := s.bil.snapshots.filter fun x => x.session ≠ session } }

/-- WRITE (R454, R455). -/
def execWrite (transport : BitVec 8) (fr : Frame) (s : State) : Host.Outcome State Fault Refusal := s.frameRow transport fr

/-- ASSEMBLY_TIMEOUT (R454). -/
def execAssemblyTimeout (client cseq : W32) (s : State) : Host.Outcome State Fault Refusal := .next (s.dropAssembly client cseq)

/-- ACK (R475). -/
def execAck (transport : BitVec 8) (fr : Frame) (s : State) : Host.Outcome State Fault Refusal := s.frameRow transport fr

/-- LEDGER_READ (R480). -/
def execLedgerRead (transport : BitVec 8) (fr : Frame) (s : State) : Host.Outcome State Fault Refusal := s.frameRow transport fr

/-- SUBSCRIBE (R461). -/
def execSubscribe (transport : BitVec 8) (fr : Frame) (s : State) : Host.Outcome State Fault Refusal := s.frameRow transport fr

/-- UNSUBSCRIBE (R463). -/
def execUnsubscribe (transport : BitVec 8) (fr : Frame) (s : State) : Host.Outcome State Fault Refusal := s.frameRow transport fr

/-- BYE (R450). -/
def execBye (transport : BitVec 8) (fr : Frame) (s : State) : Host.Outcome State Fault Refusal := s.frameRow transport fr

/-- SESSION_IDLE_TIMEOUT (R450). -/
def execSessionIdleTimeout (session : W32) (s : State) : Host.Outcome State Fault Refusal := .next (settle s (s.endSessions fun x => x.number = session))

/-- The mailbox of function `f` reads its next slot (R423): it is enabled, a slot waits, and the response ring has room. -/
def State.mbxReads (s : State) (f : Nat) : Bool :=
  let m := (s.fn f).mbx
  m.en && reqUsed m ≠ 0 && rspUsed m < 2 ^ m.log2.toNat && s.hears (BitVec.ofNat 8 (2 + f))

/-- MBX_SLOT_READ (R423, R424). -/
def execMbxSlotRead (f : FnId) (r : SlotRead) (s : State) : Host.Outcome State Fault Refusal :=
  .next (settle s (if !s.mbxReads f then s
    else
      let m := (s.fn f).mbx
      let s := s.emit (.hostRead f (slotAddr m.reqBase m.log2 m.reqHead) 2048)
      match r with
      | .failed => s.mbxError f 2
      | .slot len bytes =>
        if !s.hostReach f then s.mbxError f 2
        else
          let s := s.modMbx f fun m => { m with reqHead := m.reqHead + 1 }
          if len = 0 || 2044 < len.toNat then
            (({ s with pcie := { s.pcie with mbxLenErrors := s.pcie.mbxLenErrors + 1 } } : State).mbxError f 3)
          else match parseFrame (padTo len.toNat bytes) with
            | some q => s.frameIn (BitVec.ofNat 8 (2 + f.val)) q
            | none => (s.handFail 8 255 0 0).countFrame 0))

/-! ### SMBus (R444, R535) -/

/-- The CRC of a Block Write holds (R444). -/
def blockGood (bs : List Byte) : Bool := let n := fieldAt bs 12 1; fieldAt bs (13 + n) 4 = (crc32c (bs.take (13 + n))).toNat

/-- The request in a Block Write, whose header decodes: a frame without session; none where the block is not one (R444). -/
def parseBlock (bs : List Byte) : Option Frame :=
  let n := fieldAt bs 12 1
  if bs.length < 17 || bs.length ≠ 17 + n then none
  else some { ver := 1, op := BitVec.ofNat 8 (fieldAt bs 0 1), flags := 1, session := 0, client := BitVec.ofNat 32 (fieldAt bs 1 4), cseq := BitVec.ofNat 32 (fieldAt bs 5 4),
              index := BitVec.ofNat 16 (fieldAt bs 9 2), sub := BitVec.ofNat 8 (fieldAt bs 11 1), status := 0, length := BitVec.ofNat 16 n, segment := 0,
              total := BitVec.ofNat 32 n, accession := 0, subId := 0, payload := slice bs 13 n, tag := [], crc := 0 }

/-- Entries that SMBus may write (R557). -/
def smbusWritable (idx sub : Nat) : Bool := (idx = 0x9001 && (sub = 1 || sub = 2)) || (idx = 0x9011 && 1 ≤ sub && sub ≤ 3)

/-- Step 2 and the limits of R444: the status of a refusal and its counter; none where the request may go on. -/
def smbusLimit (q : Frame) : Option (Nat × Nat) :=
  let idx := q.index.toNat
  if q.op = 0 || 9 < q.op.toNat then some (8, 1)
  else if q.client.toNat < 0xFFFFFF00 || !(q.op = 3 || q.op = 4) then some (11, 4)
  else if q.op = 3 && !((0x1000 ≤ idx && idx < 0x2000) || (0x9000 ≤ idx && idx < 0xA000)) then some (11, 4)
  else if q.op = 4 && !smbusWritable idx q.sub.toNat then some (11, 4)
  else if 32 < q.payload.length then some (15, 5)
  else none

/-- A READ over SMBus (R444). -/
def State.smbusRead (s : State) (q : Frame) : State :=
  let idx := q.index.toNat
  let sub := q.sub.toNat
  if !entryExists idx sub then s.answerFrame 19 q none 12 []
  else if !entryReadable idx sub then s.answerFrame 19 q none 13 []
  else if s.pow.boot = .recovery && !recoveryReads idx then s.answerFrame 19 q none stSTATE []
  else
    let (v, s) := s.valueOf idx sub
    if 32 < v.length then s.refuseFrame 19 q none 15 5 else s.answerFrame 19 q none stOK v

/-- A good request over SMBus with the hub up (R444, R455). -/
def State.smbusRequest (s : State) (q : Frame) : State :=
  let s := (s.smbusTakes (some (q.client, q.cseq))).activity 7 false
  match smbusLimit q with
  | some (st, k) => s.refuseFrame 19 q none st k
  | none =>
    if q.op = 3 then s.smbusRead q
    else match entryRow q.index.toNat q.sub.toNat with
      | some e => s.journalWrite e { transport := 19, session := 0, client := q.client, cseq := q.cseq, index := q.index, sub := q.sub, segment := 0, ks := none, value := q.payload }
      | none => s

/-- A block whose header decodes fails point 8: it has no effect, and is answered with CHECK (R366). -/
def State.blockFails (s : State) (q : Frame) : State := (s.smbusTakes (some (q.client, q.cseq))).refuseFrame 19 q none 7 0

/-- A block passes point 8 and is carried out (R366, R444). -/
def State.smbusBlockIn (s : State) (block : List Byte) : State :=
  match parseBlock block with
  | none => ((s.smbusTakes none).handFail 8 255 0 0).countFrame 0
  | some q =>
    if !blockGood block then (s.handFail 8 255 0 0).blockFails q
    else match s.handover 8 255 0 0 with
      | (.ok, s) => s.smbusRequest q
      | (.storeCe, s) => s.smbusRequest q
      | (_, s) => s.blockFails q

/-- The island's copies (R535): the value of an entry that it answers for. -/
def State.islandValue (s : State) (idx sub : Nat) : Option (List Byte × State) :=
  let x := s.pow.island
  match idx, sub with
  | 0x9000, 1 => some (enc8 3, s)
  | 0x1010, 1 => some (enc32 x.incarnation.toNat, s)
  | 0x9011, 1 => some (encBool x.pinA ++ encBool x.pinALevel, s)
  | 0x9011, 2 => some (encBool x.pinB ++ encBool x.pinBLevel, s)
  | 0x9011, 3 => some (encBool x.smbusWake, s)
  | 0x1000, k => if 1 ≤ k && k ≤ 5 then some (s.readEntry idx k) else none
  | 0x1001, k => if 1 ≤ k && k ≤ 2 then some (s.readEntry idx k) else none
  | 0x9000, k => if k = 3 || k = 5 then some (s.readEntry idx k) else none
  | 0x9012, k => if k = 2 || k = 3 then some (s.readEntry idx k) else none
  | _, _ => none

/-- The island answers a request in STANDBY (R535). -/
def State.islandReply (s : State) (q : Frame) (status : Nat) (v : List Byte) : State :=
  { s with bil := { s.bil with smbusReply := some (smbusBlock (replyTo q status v)) } }

/-- A Block Write in STANDBY (R534, R535, R538): reads are answered from the island's copies, and a write is held and wakes the part. -/
def State.smbusStandby (s : State) (block : List Byte) : State :=
  let s := s.smbusTakes none
  match parseBlock block with
  | none => s
  | some q => if !blockGood block then s.islandReply q 7 [] else match smbusLimit q with
    | some (st, _) => s.islandReply q st []
    | none =>
      if q.op = 4 then ({ s with bil := { s.bil with smbusHeld := some block } } : State).islandWake 4
      else match s.islandValue q.index.toNat q.sub.toNat with
        | some (v, s) => s.islandReply q stOK v
        | none => s.islandReply q stSTATE []

/-- SMBUS_BLOCK_WRITE (R444, R535, R545). With the hub in an earlier boot state the block gets no reply. -/
def execSmbusBlockWrite (block : List Byte) (pecOk : Bool) (s : State) : Host.Outcome State Fault Refusal :=
  .next (settle s (if s.pow.state = .off then s
    else if s.pow.state = .standby then (if pecOk then s.smbusStandby block else s)
    else if !s.hears 19 then s.smbusTakes none
    else if !pecOk then (s.smbusTakes none).countFrame 0
    else s.smbusBlockIn block))

/-- SMBUS_BLOCK_READ (R444, R545): the reply, or one byte of 0 while none is ready. -/
def execSmbusBlockRead (s : State) : Host.Outcome State Fault Refusal :=
  .next (if s.pow.state = .off then s
    else match s.bil.smbusReply with
      | some b => ({ s with bil := { s.bil with smbusReply := none } } : State).emit (.smbus b)
      | none => s.emit (.smbus [0]))

/-- SMBUS_SCL_TIMEOUT (R576): the interface is reset, and a reply not yet read is gone. -/
def execSmbusSclTimeout (s : State) : Host.Outcome State Fault Refusal := .next (if s.pow.state = .off then s else s.smbusTakes none)

end Sys2Proof.Machine
end

