-- ==== Sys2Proof/Machine/Commands.lean ====
section
/-! DEFINITION. The rows of the journaled commands, and the events that end a command which goes on after its record: formations, dissolutions, resets, negotiations and wakes (R377, R379, R381 to R383, R455, R456, R524, R525, R528). -/

namespace Sys2Proof.Machine

/-! ### Clock, cues and tallies -/

/-- STEP_TO (R47). -/
def execStepTo (r : Req) (p : Pos) (s : State) : Host.Outcome State Fault Refusal := s.commandRow r 0x2012 1 (posBytes p)

/-- ARM_DEVICE_CUE (R65, R67). -/
def execArmDeviceCue (r : Req) (index : BitVec 16) (pos addr ctl tgt : W64) (s : State) : Host.Outcome State Fault Refusal :=
  s.commandRow r 0x2041 1 (enc16 index.toNat ++ enc64 pos.toNat ++ enc64 addr.toNat ++ enc64 ctl.toNat ++ enc64 tgt.toNat)

/-- DISARM_DEVICE_CUE (R65). -/
def execDisarmDeviceCue (r : Req) (index : BitVec 16) (s : State) : Host.Outcome State Fault Refusal := s.commandRow r 0x2041 2 (enc16 index.toNat)

/-- TALLY_ADVANCE (R95). -/
def execTallyAdvance (r : Req) (room : BitVec 8) (tally amount : BitVec 16) (s : State) : Host.Outcome State Fault Refusal :=
  s.commandRow r 0x4001 1 (enc8 room.toNat ++ enc16 tally.toNat ++ enc16 amount.toNat)

/-! ### Windows and injection -/

/-- WINDOW_OPEN (R303). -/
def execWindowOpen (r : Req) (window room perm : BitVec 8) (jobId : W32) (base size : W64) (s : State) : Host.Outcome State Fault Refusal :=
  s.commandRow r 0x6200 1 ([window, room, perm] ++ enc32 jobId.toNat ++ enc64 base.toNat ++ enc64 size.toNat)

/-- WINDOW_CLOSE (R305). -/
def execWindowClose (r : Req) (window : BitVec 8) (s : State) : Host.Outcome State Fault Refusal := s.commandRow r 0x6200 2 [window]

/-- INJECT (R372). -/
def execInject (r : Req) (room point kind : BitVec 8) (count : BitVec 16) (s : State) : Host.Outcome State Fault Refusal :=
  s.commandRow r 0xA010 2 ([room, point, kind] ++ enc16 count.toNat)

/-! ### Rooms -/

/-- ROOM_FORM (R376, R377). -/
def execRoomForm (r : Req) (f : FormRec) (s : State) : Host.Outcome State Fault Refusal := s.commandRow r 0x3001 1 (formBytes f)

/-- ROOM_DISSOLVE (R379). -/
def execRoomDissolve (r : Req) (room : BitVec 8) (s : State) : Host.Outcome State Fault Refusal := s.commandRow r 0x3001 2 [room]

/-- ROOM_RESET (R382): through ROOM_CTL.RESET of the room's function, or by the command. -/
def execRoomReset (b : RoomBy) (room : RoomId) (s : State) : Host.Outcome State Fault Refusal :=
  match b with
  | .reg => .next (settle s (s.roomCtlWrite room 1))
  | .cmd r => s.commandRow r 0x3002 1 (enc8 room)

/-- ROOM_DECLARE_FAULT (R387): through ROOM_CTL.DECLARE of the room's function, or by the command with its detail. -/
def execRoomDeclareFault (b : RoomBy) (room : RoomId) (detail : BitVec 16) (s : State) : Host.Outcome State Fault Refusal :=
  match b with
  | .reg => .next (settle s (s.roomCtlWrite room 2))
  | .cmd r => s.commandRow r 0x3003 1 (enc8 room ++ enc16 detail.toNat)

/-- ROOM_QOS (R386). -/
def execRoomQos (r : Req) (room hbmShare meshWeight fabricWeight : BitVec 8) (dmaRate : BitVec 16) (s : State) : Host.Outcome State Fault Refusal :=
  s.commandRow r 0x3004 1 ([room, hbmShare, 0, meshWeight, fabricWeight] ++ enc16 dmaRate.toNat)

/-- The bytes of a plan's formation: its length, then the record (R380). -/
def planPart (f : FormRec) : List Byte := enc16 (formBytes f).length ++ formBytes f

/-- PLAN_WRITE (R380). -/
def execPlanWrite (r : Req) (plan : BitVec 8) (dissolve : BitVec 16) (formations : List FormRec) (s : State) : Host.Outcome State Fault Refusal :=
  s.commandRow r 0x3020 1 ([plan] ++ enc16 dissolve.toNat ++ formations.flatMap planPart)

/-! ### Keys and the Vault -/

/-- KEY_SLOT (R448). -/
def execKeySlot (r : Req) (slot : Fin 32) (len : BitVec 8) (key : List Byte) (perm : BitVec 8) (rooms : BitVec 16) (base : W32) (count : BitVec 16) (s : State) :
    Host.Outcome State Fault Refusal :=
  s.commandRow r 0x6301 (slot + 1) ([len] ++ padTo 64 key ++ [perm] ++ enc16 rooms.toNat ++ enc32 base.toNat ++ enc16 count.toNat)

/-- VAULT_WRITE (R483). -/
def execVaultWrite (r : Req) (room : BitVec 8) (object : BitVec 16) (tag : W32) (source length : W64) (tally amount : BitVec 16) (s : State) :
    Host.Outcome State Fault Refusal :=
  s.commandRow r 0x7101 1 ([room] ++ enc16 object.toNat ++ enc32 tag.toNat ++ enc64 source.toNat ++ enc64 length.toNat ++ enc16 tally.toNat ++ enc16 amount.toNat)

/-- VAULT_READ (R483). -/
def execVaultRead (r : Req) (room : BitVec 8) (object : BitVec 16) (tag : W32) (offset dest length : W64) (tally amount : BitVec 16) (s : State) :
    Host.Outcome State Fault Refusal :=
  s.commandRow r 0x7101 2 ([room] ++ enc16 object.toNat ++ enc32 tag.toNat ++ enc64 offset.toNat ++ enc64 dest.toNat ++ enc64 length.toNat ++ enc16 tally.toNat ++ enc16 amount.toNat)

/-- VAULT_DELETE (R483). -/
def execVaultDelete (r : Req) (room : BitVec 8) (object : BitVec 16) (tag : W32) (s : State) : Host.Outcome State Fault Refusal :=
  s.commandRow r 0x7101 3 ([room] ++ enc16 object.toNat ++ enc32 tag.toNat)

/-- VAULT_STOP (R487). -/
def execVaultStop (r : Req) (room : BitVec 8) (s : State) : Host.Outcome State Fault Refusal := s.commandRow r 0x7101 4 [room]

/-- EXTENT_COMPLETE (R484 to R487, R490). -/
def execExtentComplete (ok : Bool) (s : State) : Host.Outcome State Fault Refusal := .next (settle s (s.extentComplete ok))

/-! ### Glaze -/

/-- PIPE_ASSIGN (R494). -/
def execPipeAssign (r : Req) (room pipe : BitVec 8) (s : State) : Host.Outcome State Fault Refusal := s.commandRow r 0x8002 1 [room, pipe]

/-- PIPE_SHADOW (R502). -/
def execPipeShadow (r : Req) (room pipe : BitVec 8) (shadow coef : W64) (s : State) : Host.Outcome State Fault Refusal :=
  s.commandRow r 0x8003 1 ([room, pipe] ++ enc64 shadow.toNat ++ enc64 coef.toNat)

/-- COMMIT (R507). -/
def execCommit (r : Req) (room mask : BitVec 8) (s : State) : Host.Outcome State Fault Refusal := s.commandRow r 0x8004 1 [room, mask]

/-! ### Power and firmware -/

/-- POWER_REQUEST 0 (R522). -/
def execPowerRequestLeaveIdle (r : Req) (s : State) : Host.Outcome State Fault Refusal := s.commandRow r 0x9001 1 [0]

/-- POWER_REQUEST 1 (R521). -/
def execPowerRequestIdle (r : Req) (s : State) : Host.Outcome State Fault Refusal := s.commandRow r 0x9001 1 [1]

/-- POWER_REQUEST 2 (R531). -/
def execPowerRequestStandby (r : Req) (s : State) : Host.Outcome State Fault Refusal := s.commandRow r 0x9001 1 [2]

/-- QUIRE_GATE (R523). -/
def execQuireGate (r : Req) (room : BitVec 8) (mask : BitVec 80) (s : State) : Host.Outcome State Fault Refusal := s.commandRow r 0x9002 1 ([room] ++ leBytes 10 mask.toNat)

/-- QUIRE_WAKE (R525). -/
def execQuireWake (r : Req) (room : BitVec 8) (mask : BitVec 80) (s : State) : Host.Outcome State Fault Refusal := s.commandRow r 0x9002 2 ([room] ++ leBytes 10 mask.toNat)

/-- DEVICE_RESET (R542). -/
def execDeviceReset (r : Req) (v : BitVec 8) (s : State) : Host.Outcome State Fault Refusal := s.commandRow r 0x9001 2 [v]

/-- FW_CHUNK (R553). -/
def execFwChunk (r : Req) (kind : BitVec 8) (offset : W32) (data : List Byte) (s : State) : Host.Outcome State Fault Refusal :=
  s.commandRow r 0x9031 1 ([kind] ++ enc32 offset.toNat ++ data)

/-- FW_COMMIT (R554). -/
def execFwCommit (r : Req) (kind : BitVec 8) (len : W32) (s : State) : Host.Outcome State Fault Refusal := s.commandRow r 0x9031 2 ([kind] ++ enc32 len.toNat)

/-- FW_SELECT (R555). -/
def execFwSelect (r : Req) (kind : BitVec 8) (s : State) : Host.Outcome State Fault Refusal := s.commandRow r 0x9031 3 [kind]

/-- SECURITY_RAISE (R555). -/
def execSecurityRaise (r : Req) (kind : BitVec 8) (value : BitVec 16) (s : State) : Host.Outcome State Fault Refusal := s.commandRow r 0x9031 4 ([kind] ++ enc16 value.toNat)

/-! ### Events that end a command -/

/-- The command taking effect is a write of entry `idx`.`sub` whose first byte is `r`. -/
def recNames (x : Record) (idx sub r : Nat) : Bool := x.source ≠ 20 && x.index.toNat = idx && x.sub.toNat = sub && fieldAt (recValue x) 0 1 = r

/-- The plan being carried out goes on to its next part (R381). -/
def State.planNext (s : State) (x : Record) : State :=
  let t : State := { s with led := { s.led with todo := s.led.todo.tail } }
  match t.planGoes x.accession (t.plan (fieldAt x.value 26 2)) with
  | .done st res u => u.completeCmd x.accession st res
  | .wait u => u

/-- A formation (`sub` 1) or a dissolution (`sub` 2) of room `r` has ended: its command, or its part of a plan, is done. -/
def State.roomPartDone (s : State) (sub r : Nat) : State :=
  match s.currentRec with
  | none => s
  | some x =>
    if x.source = 20 then (if s.led.todo.any (fun k => if sub = 1 then 16 ≤ k else k = r) then s.planNext x else s)
    else if recNames x 0x3001 sub r then s.completeCmd x.accession stOK []
    else s

/-- The formation of room `r` is what the current command carries out. -/
def State.formingNow (s : State) (r : Nat) : Bool :=
  match s.currentRec with
  | none => false
  | some x =>
    if x.source = 20 then
      match s.led.todo with
      | k :: _ => 16 ≤ k && (parseForm ((s.plan (fieldAt x.value 26 2)).forms.getD (k - 16) [])).room.toNat = r
      | [] => false
    else recNames x 0x3001 1 r

/-- FORMED (R377). A room that took a fault while it formed stays faulted. -/
def execFormed (room : RoomId) (s : State) : Host.Outcome State Fault Refusal :=
  .next (match (s.room room).form with
    | none => s
    | some f =>
      if !s.formingNow room || !s.formReady room || !((s.room room).state = .forming || (s.room room).state = .faulted) then s
      else
        let was := (s.room room).state
        let t := s.endForm room f
        let t := if was = .faulted then t.modRoom room fun x => { x with state := .faulted } else t
        settle s (t.roomPartDone 1 room))

/-- DISSOLUTION_DONE (R379): once the room's channels are quiet, steps 5 to 8. Step 7 stops the room's Vault jobs, and ends only when the extent in progress has; a room whose extent still runs is done at a later one. -/
def execDissolutionDone (room : RoomId) (s : State) : Host.Outcome State Fault Refusal :=
  .next (match (s.room room).form with
    | none => s
    | some f =>
      if (s.room room).state = .dissolving && s.chansQuiet room then
        let t := s.stopJobs room
        settle s (if t.jobsEnded room then (t.endDissolve room f).roomPartDone 2 room else t)
      else s)

/-- The command that reset room `r` is done once the reset has ended (R382). -/
def State.resetPoll (s : State) (r : Nat) : State :=
  match s.currentRec with
  | none => s
  | some x => if recNames x 0x3002 1 r && !(s.room r).resetting then s.completeCmd x.accession stOK [] else s

/-- ABORT_DONE (R301): the requests of an aborting channel have ended. A room reset that waited for it goes on (R382). -/
def execAbortDone (c : ChanRef) (s : State) : Host.Outcome State Fault Refusal :=
  .next (if (s.chan c).state = .aborting && (s.chan c).reqs.isEmpty then
      if !(s.statusAsleep c).isEmpty then s.wakeForStatus c else
      match s.chanRoom c with
      | some r => settle s (((s.abortEnd c r).settleReset r).resetPoll r)
      | none => s
    else s)

/-- FLR_WAIT_EXPIRY (R383): the requests still outstanding count as timed out, and the reset completes. -/
def execFlrWaitExpiry (room : RoomId) (s : State) : Host.Outcome State Fault Refusal :=
  .next (if (s.room room).flr then
      settle s (((forL (s.roomChans room) (fun c s => s.giveUp room c) s).settleReset room).resetPoll room)
    else s)

/-- A negotiation that ended answers its command. -/
def negFinish (e : NegEnd × State) : State :=
  match e.1 with
  | none => e.2
  | some (a, st, res) => e.2.completeCmd a st res

/-- BLOCK_ANSWER (R528 to R531): the block asked answers; `activity` where an event has reached it (R530). -/
def execBlockAnswer (activity : Bool) (s : State) : Host.Outcome State Fault Refusal := .next (settle s (negFinish (s.blockAnswers (bit activity))))

/-- BLOCK_TIMEOUT (R530): the block asked refuses with TIMEOUT. -/
def execBlockTimeout (s : State) : Host.Outcome State Fault Refusal := .next (settle s (negFinish (s.blockAnswers 2)))

/-- QUIRE_GATING_DONE (R524). -/
def execQuireGatingDone (s : State) : Host.Outcome State Fault Refusal := .next (settle s (negFinish s.gatingEnds))

/-- QUIRE_WAKE is done once every quire of its mask runs (R523). -/
def State.wakePoll (s : State) : State :=
  match s.currentRec with
  | none => s
  | some x => if x.source ≠ 20 && x.index = 0x9002 && x.sub = 2 && s.maskAwake x.value then s.completeCmd x.accession stOK [] else s

/-- QUIRE_WAKE_DONE (R525). -/
def execQuireWakeDone (q : QuireId) (s : State) : Host.Outcome State Fault Refusal :=
  .next (if (s.quire q).power = .waking then settle s (((s.wakeDone q).resumeQuire q).wakePoll) else s)

end Sys2Proof.Machine
end

