-- ==== Sys2Proof/Machine/Boot.lean ====
section
/-! DEFINITION. Checkpoints of the Ledger, recovery from it, and verification at boot (R92, R471, R474, R476, R489, R545, R548, R608). -/

namespace Sys2Proof.Machine

/-! ### Rebuilding values from records (R92, R474, R476) -/

/-- An entry that a client may write as a setting, with ledger persistence. -/
def settingEntry (idx sub : Nat) : Bool :=
  match entryRow idx sub with
  | some e => (e.access = 2 || e.access = 3) && e.persist = 1
  | none => false

/-- The device cue entry that a record in the layout of #2041.01 leaves; `arm` as the record says. -/
def restoredCue (arm : Bool) (v : List Byte) : CueEntry := if arm then { cueOfBytes {} (v.drop 2) with arm := true, restored := true } else {}

/-- What a record does to the values that checkpoints hold: settings, armed device cues, and each client's highest CSEQ. -/
def replay (c : Checkpoint) (r : Record) : Checkpoint :=
  let ok := r.done && r.status = 0
  let idx := r.index.toNat
  let sub := r.sub.toNat
  if r.kind ≠ 1 then c
  else if r.source = 20 then { c with cues := Tbl.put {} c.cues r.cue.toNat (restoredCue ((fieldAt r.value 18 1).testBit 0) r.value) }
  else
    let c := { c with clients := Tbl.put none c.clients r.client.toNat (some r.cseq) }
    if !ok then c
    else if idx = 0x2041 && sub = 1 then { c with cues := Tbl.put {} c.cues (fieldAt r.value 0 2) (restoredCue true r.value) }
    else if idx = 0x2041 then { c with cues := Tbl.put {} c.cues (fieldAt r.value 0 2) {} }
    else if settingEntry idx sub then { c with ents := Tbl.put none c.ents (entKey idx sub) (some r.value) }
    else c

/-- The values as they stood after record `a`: the latest complete checkpoint, then the records after it in accession order. -/
def ledValues (l : Ledger) (a : Nat) : Checkpoint :=
  let base := l.last.getD { a := 0, incarnation := 0, slots := [], ents := [], cues := [], clients := [] }
  (l.recs.filter fun r => base.a < r.accession && r.accession.toNat ≤ a).foldl replay base

/-! ### Checkpoints (R476, R608) -/

/-- A of a checkpoint that begins now: the highest accession number at or below which every COMMAND record is DONE. -/
def checkpointA (l : Ledger) : W64 :=
  match l.recs.find? fun r => r.kind = 1 && !r.done with
  | some r => r.accession - 1
  | none => l.nextAcc - 1

/-- The bytes of a key slot in the layout of #6301. -/
def keyBytes (k : KeySlot) : List Byte := [k.len] ++ padTo 64 k.key ++ [k.perm] ++ enc16 k.rooms.toNat ++ enc32 k.base.toNat ++ enc16 k.count.toNat

/-- The value of an entry of ledger persistence, where it holds one. -/
def State.heldValue (s : State) (c : Checkpoint) (idx sub : Nat) (e : EntryDef) : Option (List Byte) :=
  if e.persist ≠ 1 || e.access = 5 then none
  else if e.access = 4 then (if (s.keySlot (sub - 1)).len = 0 then none else some (keyBytes (s.keySlot (sub - 1))))
  else if e.access = 2 || e.access = 3 then some ((Tbl.get none c.ents (entKey idx sub)).getD e.dflt)
  else some (s.entryValue idx sub)

/-- The value items of the stream. -/
def State.valueItems (s : State) (c : Checkpoint) : List Byte :=
  entryTable.flatMap fun e => (List.range (e.hi + 1 - e.lo)).flatMap fun i =>
    match s.heldValue c e.index (e.lo + i) e with
    | some v => [1] ++ enc16 e.index ++ enc8 (e.lo + i) ++ enc32 v.length ++ v
    | none => []

/-- The cue items and the client items of the stream. -/
def cueItems (c : Checkpoint) : List Byte :=
  c.cues.flatMap fun e => [2] ++ enc16 e.1 ++ enc64 e.2.pos.toNat ++ enc64 e.2.addr.toNat ++ enc64 (cueCtl e.2 0).toNat ++ enc64 (cueTgt e.2).toNat
def clientItems (c : Checkpoint) : List Byte :=
  c.clients.flatMap fun e => match e.2 with | some n => [3] ++ enc32 e.1 ++ enc32 n.toNat | none => []

/-- Entries of 488 bytes that a stream fills, at least one. -/
def streamEntries (n : Nat) : Nat := Nat.max 1 ((n + 487) / 488)

/-- The checkpoint that begins now takes its slots in one step (R477). -/
def State.beginCheckpoint (s : State) : State :=
  let a := checkpointA s.led
  let c := ledValues s.led a.toNat
  let n := streamEntries ((s.valueItems c ++ cueItems c ++ clientItems c).length)
  if n ≤ ledFree s.led then
    s.modLed fun l =>
      let k := ledLowest l n
      { ledTake l k with running := some { c with a := a, incarnation := s.pow.incarnation, slots := k }, heads := 0, due := false }
  else s

/-- CHECKPOINT_BEGIN (R476). -/
def execCheckpointBegin (s : State) : Host.Outcome State Fault Refusal :=
  .next (if s.hubOn && s.pow.boot ≠ .rom && s.pow.boot ≠ .ledger && checkpointDue s.led then s.beginCheckpoint else s)

/-- CHECKPOINT_COMPLETE (R476, R477): the last entry is verified. -/
def execCheckpointComplete (s : State) : Host.Outcome State Fault Refusal :=
  .next (if s.led.running.isSome then s.modLed fun l => { l with last := l.running, running := none } else s)

/-! ### Recovery (R474) -/

/-- Some slot of the list is torn. -/
def hit (torn slots : List Nat) : Bool := slots.any fun n => torn.contains n

/-- Step 1: torn entries are discarded, with the records and the checkpoint they belong to. -/
def dropTorn (l : Ledger) (torn : List Nat) : Ledger :=
  { l with recs := l.recs.filter (fun r => !hit torn r.slots), last := match l.last with | some c => if hit torn c.slots then none else some c | none => none }

/-- The torn entries that were discarded: the slots of records and of the checkpoint that are torn. -/
def tornCount (l : Ledger) (torn : List Nat) : Nat :=
  ((l.recs.flatMap (fun r => r.slots) ++ (match l.last with | some c => c.slots | none => [])).filter fun n => torn.contains n).length

/-- A COMMAND record that is not DONE is checked again where it only sets a ledger-persistent value that it holds in full (step 3): its status, whether it is INTERRUPTED, and the state. -/
def State.recoverRec (s : State) (r : Record) : Nat × Bool × State :=
  let idx := r.index.toNat
  let sub := r.sub.toNat
  let again (e : Eff) : Nat × Bool × State := match e with | .done st _ t => (st, false, t) | .wait t => (stSTATE, true, t)
  if r.source = 20 then (stSTATE, true, s)
  else if settingEntry idx sub then (if s.rangeOk idx sub r.value then (stOK, false, s.setCfg idx sub r.value) else (stRANGE, false, s))
  else if idx = 0x3020 then again (s.planEffect r.value)
  else if idx = 0x9031 && sub = 4 then again (s.raiseEffect r.value)
  else (stSTATE, true, s)

/-- Step 3 for one record. -/
def State.completeOne (s : State) (r : Record) : State :=
  match s.recoverRec r with
  | (st, int, t) => { t with led := ledModRec t.led r.accession fun x => { recDone st [] x with interrupted := int } }

/-- The highest incarnation that the Ledger or the island holds. -/
def State.lastIncarnation (s : State) : Nat :=
  let m := s.led.recs.foldl (fun m r => Nat.max m r.incarnation.toNat) s.pow.island.incarnation.toNat
  match s.led.last with | some c => Nat.max m c.incarnation.toNat | none => m

/-- What follows from the settings at power-on: port states and their training (R340), the keeper's number, the island's copies and the operating point. A clock whose configured source is present, as the synthetic source always is, acquires it (R42, R605). -/
def State.settingsFollow (s : State) : State :=
  let s := forN 16 (fun p s => if s.portEnabled p then s.startTraining p else s.modPort p fun x => { x with state := .disabled }) s
  s.ownKeeper.acquire.islandCopies.modPow fun p => { p with opPoint := Fin.ofNat 4 (s.cfgN 0x9020 1) }

/-- Steps 1 to 4 of R474, and the events of power-on (R469, R471, R489). -/
def State.recover (s : State) (torn : List Nat) : State :=
  let nTorn := tornCount s.led torn
  let inc := BitVec.ofNat 32 (s.lastIncarnation + 1)
  let l := dropTorn s.led torn
  let c := ledValues l (l.nextAcc - 1).toNat
  let s : State := { s with led := { l with clients := c.clients }, ent := c.ents, cue := c.cues }
  let open' := s.led.recs.filter fun r => r.kind = 1 && !r.done
  let s := forL open' (fun r s => s.completeOne r) s
  let nInt := (s.led.recs.filter fun r => r.interrupted && (open'.any fun x => x.accession = r.accession)).length
  let jobs := s.vault.jobs
  let s : State := { s with
    vault := { s.vault with jobs := [] },
    pow := { s.pow with boot := .verify, incarnation := inc, lastReset := { cause := s.pow.cause, pos := s.pow.resetPos, incarnation := inc },
                        island := { s.pow.island with incarnation := inc } } }
  let s := s.event 1 (enc32 inc.toNat ++ enc32 nInt ++ enc32 nTorn)
  (forL jobs (fun j s => s.jobEnds j 3) s).settingsFollow

/-- LEDGER_RECOVERY (R474): `torn` are the slots whose ECRC or granules fail. -/
def execLedgerRecovery (torn : List Nat) (s : State) : Host.Outcome State Fault Refusal :=
  .next (if s.hubOn && s.pow.boot = .ledger then settle s (s.recover torn) else s)

/-! ### VERIFY (R545, R548) -/

/-- VERIFY (R548). An SMBus write that the island held is carried out once the hub answers (R538). -/
def execVerify (s : State) : Host.Outcome State Fault Refusal :=
  .next (if s.hubOn && s.pow.boot = .verify then
      let t := s.verifyStage
      settle s (match t.bil.smbusHeld with
        | some b => ({ t with bil := { t.bil with smbusHeld := none } } : State).smbusBlockIn b
        | none => t)
    else s)

end Sys2Proof.Machine
end

