-- ==== Sys2Proof/Machine/Number.lean ====
section
/-! DEFINITION. Number formats: their values, exact arithmetic, one rounding, flags and conversions (R223 to R244). -/

namespace Sys2Proof.Machine

/-! ### Formats (R223 to R226) -/

/-- The special encodings of a floating-point format (R223). -/
inductive Specials where
  /-- Infinities and NaNs with E all ones. -/
  | ieee
  /-- No infinity; one NaN code per sign, all ones (E4M3). -/
  | nanOnly
  /-- Neither infinity nor NaN (FP6, FP4). -/
  | none
  deriving DecidableEq, Repr

/-- A floating-point format (R223). -/
structure Fmt where
  e : Nat
  m : Nat
  bias : Nat
  sp : Specials
  deriving DecidableEq, Repr

def fp64 : Fmt := ⟨11, 52, 1023, .ieee⟩
def fp32 : Fmt := ⟨8, 23, 127, .ieee⟩
def fp16 : Fmt := ⟨5, 10, 15, .ieee⟩
def bf16 : Fmt := ⟨8, 7, 127, .ieee⟩
def e5m2 : Fmt := ⟨5, 2, 15, .ieee⟩
def e4m3 : Fmt := ⟨4, 3, 7, .nanOnly⟩
def e3m2 : Fmt := ⟨3, 2, 3, .none⟩
def e2m3 : Fmt := ⟨2, 3, 1, .none⟩
def e2m1 : Fmt := ⟨2, 1, 1, .none⟩

/-- A number format of a lane or an element: an integer of `w` bits, or a float (R225, R228). -/
inductive Num where
  | int (w : Nat) (signed : Bool)
  | flt (f : Fmt)
  deriving DecidableEq, Repr

/-- Bits of a format. -/
def Num.width : Num → Nat
  | .int w _ => w
  | .flt f => 1 + f.e + f.m

/-- A value: a NaN, an infinity, or (-1)^neg * m * 2^e. -/
inductive Val where
  | nan (signalling : Bool)
  | inf (neg : Bool)
  | fin (neg : Bool) (m : Nat) (e : Int)
  deriving DecidableEq, Repr

/-- XU_STAT flags (R216, R231). -/
def flagNV : W16 := 1
def flagOF : W16 := 2
def flagUF : W16 := 4
def flagNX : W16 := 8
def flagISAT : W16 := 16
def flagIWRAP : W16 := 32

/-- NV for a signalling NaN (R233). -/
def Val.nv : Val → W16
  | .nan true => flagNV
  | _ => 0

/-- The value of an encoding (R223, R224). Every FP8 NaN is quiet. -/
def decodeF (f : Fmt) (v : Nat) : Val :=
  let s := v.testBit (f.e + f.m)
  let ex := bitsOf v f.m f.e
  let m := bitsOf v 0 f.m
  let ones := ex = 2 ^ f.e - 1
  if f.sp = .ieee && ones then (if m = 0 then .inf s else .nan (2 < f.m && !m.testBit (f.m - 1)))
  else if f.sp = .nanOnly && ones && m = 2 ^ f.m - 1 then .nan false
  else if ex = 0 then .fin s m (1 - (f.bias : Int) - f.m)
  else .fin s (2 ^ f.m + m) ((ex : Int) - f.bias - f.m)

/-- The sign bit at its place. -/
def signBits (f : Fmt) (neg : Bool) : Nat := if neg then 2 ^ (f.e + f.m) else 0

/-- The encoding of the largest finite magnitude (R223). -/
def maxFinite (f : Fmt) : Nat :=
  match f.sp with
  | .ieee => (2 ^ f.e - 1) * 2 ^ f.m - 1
  | .nanOnly => 2 ^ (f.e + f.m) - 2
  | .none => 2 ^ (f.e + f.m) - 1

/-- The canonical NaN (R224); +0 for a format without one (R237). -/
def canonNan (f : Fmt) : Nat :=
  match f.sp with
  | .ieee => (2 ^ f.e - 1) * 2 ^ f.m + 2 ^ (f.m - 1)
  | .nanOnly => 2 ^ (f.e + f.m) - 1
  | .none => 0

/-! ### Rounding (R230, R236) -/

/-- `m * 2^-d` rounded to an integer under RM for sign `neg`, and whether that was inexact (R215, R230). -/
def roundTo (rm : Nat) (neg : Bool) (m : Nat) (d : Int) : Nat × Bool :=
  if d ≤ 0 then (m * 2 ^ (-d).toNat, false)
  else
    let p := 2 ^ d.toNat
    let n := m / p
    let r := m % p
    let up : Bool := match rm with
      | 0 => p < 2 * r || (2 * r = p && n % 2 = 1)
      | 1 => false
      | 2 => 0 < r && !neg
      | _ => 0 < r && neg
    (if up then n + 1 else n, r ≠ 0)

/-- What an overflow gives (R236). -/
def overflowBits (f : Fmt) (rm : Nat) (sat neg : Bool) : Nat :=
  let toInf : Bool := match rm with | 0 => true | 1 => false | 2 => !neg | _ => neg
  if sat || !toInf then signBits f neg + maxFinite f
  else match f.sp with
    | .ieee => signBits f neg + (2 ^ f.e - 1) * 2 ^ f.m
    | .nanOnly => canonNan f
    | .none => signBits f neg + maxFinite f

/-- The exact value (-1)^neg * m * 2^e in format `f`, rounded once: the encoding and the flags (R230, R231, R236). Tininess is detected after rounding. -/
def encodeFin (f : Fmt) (rm : Nat) (sat neg : Bool) (m : Nat) (e : Int) : Nat × W16 :=
  if m = 0 then (signBits f neg, 0)
  else
    let top : Int := e + Nat.log2 m
    let emin : Int := 1 - f.bias
    let qmin : Int := emin - f.m
    let qu : Int := top - f.m
    let q := max qu qmin
    let (n, nx) := roundTo rm neg m (q - e)
    let bits := n + (q - qmin).toNat * 2 ^ f.m
    if maxFinite f < bits then (overflowBits f rm sat neg, flagOF ||| flagNX)
    else
      let tiny : Bool := top < emin && !((roundTo rm neg m (qu - e)).1 = 2 ^ (f.m + 1) && top + 1 = emin)
      (signBits f neg + bits, if nx then (if tiny then flagUF ||| flagNX else flagNX) else 0)

/-- A value in format `f` (R230, R233, R236, R237). -/
def encodeF (f : Fmt) (rm : Nat) (sat : Bool) : Val → Nat × W16
  | .nan sg => (canonNan f, (if sg || f.sp = .none then flagNV else 0))
  | .inf neg =>
    match f.sp with
    | .ieee => (signBits f neg + (2 ^ f.e - 1) * 2 ^ f.m, 0)
    | .nanOnly => (if sat then signBits f neg + maxFinite f else canonNan f, flagOF)
    | .none => (signBits f neg + maxFinite f, flagOF)
  | .fin neg m e => encodeFin f rm sat neg m e

/-! ### Exact arithmetic (R234) -/

/-- The signed mantissa of a finite value at exponent `e0`, which is at most its own. -/
def alignTo (neg : Bool) (m : Nat) (e e0 : Int) : Int :=
  let v : Int := (m * 2 ^ (e - e0).toNat : Nat)
  if neg then -v else v

/-- An exact sum as a value; `zneg` is the sign of an exact zero. -/
def ofSum (v : Int) (e : Int) (zneg : Bool) : Val := if v = 0 then .fin zneg 0 0 else .fin (v < 0) v.natAbs e

/-- The exact sum of two values and NV (R233, R234). An exact zero sum of opposite signs is +0, or -0 when RM is 3. -/
def addVal (rm : Nat) (x y : Val) : Val × W16 :=
  match x, y with
  | .nan _, _ => (.nan false, x.nv ||| y.nv)
  | _, .nan _ => (.nan false, y.nv)
  | .inf a, .inf b => if a = b then (.inf a, 0) else (.nan false, flagNV)
  | .inf a, .fin _ _ _ => (.inf a, 0)
  | .fin _ _ _, .inf b => (.inf b, 0)
  | .fin a m e, .fin b n g =>
    let e0 := min e g
    (ofSum (alignTo a m e e0 + alignTo b n g e0) e0 (if a = b then a else rm = 3), 0)

/-- The exact product of two values and NV (R233, R234). -/
def mulVal (x y : Val) : Val × W16 :=
  match x, y with
  | .nan _, _ => (.nan false, x.nv ||| y.nv)
  | _, .nan _ => (.nan false, y.nv)
  | .inf a, .inf b => (.inf (a ≠ b), 0)
  | .inf a, .fin b n _ => if n = 0 then (.nan false, flagNV) else (.inf (a ≠ b), 0)
  | .fin a m _, .inf b => if m = 0 then (.nan false, flagNV) else (.inf (a ≠ b), 0)
  | .fin a m e, .fin b n g => (.fin (a ≠ b) (m * n) (e + g), 0)

/-- The value with its sign flipped. -/
def negVal : Val → Val
  | .nan sg => .nan sg
  | .inf a => .inf (!a)
  | .fin a m e => .fin (!a) m e

/-- An order key of a value that is no NaN: -1, 0, 1 for below, among and above the finite values, then the finite value itself. -/
def cmpVal (x y : Val) : Ordering :=
  match x, y with
  | .inf a, .inf b => compare (bit (!a)) (bit (!b))
  | .inf a, _ => if a then .lt else .gt
  | _, .inf b => if b then .gt else .lt
  | .fin a m e, .fin b n g => let e0 := min e g; compare (alignTo a m e e0) (alignTo b n g e0)
  | _, _ => .eq

/-- The sign of a value. -/
def Val.isNeg : Val → Bool
  | .nan _ => false
  | .inf a => a
  | .fin a _ _ => a

/-- The value is a NaN. -/
def Val.isNan : Val → Bool
  | .nan _ => true
  | _ => false

/-! ### Integers (R225) -/

/-- The integer of an encoding. -/
def intOf (w : Nat) (signed : Bool) (v : Nat) : Int :=
  let u := v % 2 ^ w
  if signed && u.testBit (w - 1) then (u : Int) - 2 ^ w else u

/-- The encoding of an integer, modulo 2^w. -/
def intBits (w : Nat) (v : Int) : Nat := (v % 2 ^ w).toNat

/-- The least and the largest value of an integer format (R225). -/
def intMin (w : Nat) (signed : Bool) : Int := if signed then -(2 ^ (w - 1)) else 0
def intMax (w : Nat) (signed : Bool) : Int := if signed then 2 ^ (w - 1) - 1 else 2 ^ w - 1

/-- A value in an integer format (R238). -/
def toInteger (rm w : Nat) (signed : Bool) : Val → Nat × W16
  | .nan _ => (0, flagNV)
  | .inf neg => (intBits w (if neg then intMin w signed else intMax w signed), flagNV ||| flagISAT)
  | .fin neg m e =>
    let (n, nx) := roundTo rm neg m (-e)
    let v : Int := if neg then -(n : Int) else n
    if v < intMin w signed then (intBits w (intMin w signed), flagNV ||| flagISAT)
    else if intMax w signed < v then (intBits w (intMax w signed), flagNV ||| flagISAT)
    else (intBits w v, if nx then flagNX else 0)

/-- The value that an encoding in any format stands for. -/
def valOf (n : Num) (v : Nat) : Val :=
  match n with
  | .flt f => decodeF f v
  | .int w sg => let i := intOf w sg v; .fin (i < 0) i.natAbs 0

/-- A conversion (R235 to R240): the encoding in the target and the flags. -/
def convert (rm : Nat) (sat : Bool) (src dst : Num) (v : Nat) : Nat × W16 :=
  if src = dst then (v % 2 ^ src.width, 0)
  else match src, dst with
    | .int w sg, .int w' sg' =>
      let i := intOf w sg v
      if w < w' then (intBits w' i, 0)
      else if sat && i < intMin w' sg' then (intBits w' (intMin w' sg'), flagISAT)
      else if sat && intMax w' sg' < i then (intBits w' (intMax w' sg'), flagISAT)
      else (intBits w' i, 0)
    | _, .int w sg => toInteger rm w sg (valOf src v)
    | _, .flt f => encodeF f rm sat (valOf src v)

/-! ### Codes (R200, R205) -/

/-- The lane type TY (R200). -/
def laneType : Nat → Option Num
  | 0 => some (.int 16 true)
  | 1 => some (.flt fp16)
  | 2 => some (.flt bf16)
  | 3 => some (.int 32 true)
  | 4 => some (.flt fp32)
  | 5 => some (.flt fp64)
  | _ => none

/-- The element format of a code (R205). -/
def codeNum : Nat → Option Num
  | 0 => some (.flt bf16)
  | 1 => some (.flt fp16)
  | 2 => some (.int 16 true)
  | 3 => some (.flt e4m3)
  | 4 => some (.flt e5m2)
  | 5 => some (.int 8 true)
  | 6 => some (.int 8 false)
  | 7 => some (.flt e3m2)
  | 8 => some (.flt e2m3)
  | 9 => some (.flt e2m1)
  | 10 => some (.int 4 true)
  | 11 => some (.flt fp32)
  | _ => none

/-- Bits that an element of a code occupies in a row: an FP6 element takes a byte (R205, R229). -/
def codeStep : Nat → Nat
  | 0 | 1 | 2 => 16
  | 9 | 10 => 4
  | 11 => 32
  | _ => 8

/-- The class of a code (R205): 0 16-bit float, 1 16-bit integer, 2 8-bit float, 3 8-bit integer, 4 4-bit float, 5 4-bit integer, 6 FP32. -/
def codeClass : Nat → Nat
  | 0 | 1 => 0
  | 2 => 1
  | 3 | 4 | 7 | 8 => 2
  | 5 | 6 => 3
  | 9 => 4
  | 10 => 5
  | _ => 6

end Sys2Proof.Machine
end

