-- ==== Sys2Proof/Machine/UnitExec.lean ====
section
/-! DEFINITION. How the vector and matrix units run an instruction: checks at issue, rows through the collectors, flags and counters (R192 to R199, R211, R212, R216, R222). -/

namespace Sys2Proof.Machine

/-- Run a unit instruction of `words` words (R196): fetch and every fault check at issue; then the instruction retires into the queue, and the units run it whole (log 9). -/
def State.unitInstr {α : Type} (s : State) (t words : Nat) (check : State → Mem α) (body : α → State → State) : State :=
  if s.tileRuns t then
    let sup := swS (s.tile t).sw
    match ((s.cyclePerf t).fetch t (s.tile t).pc.toNat words).andThen fun _ s => check s with
    | .ok v s' => body v (s'.modTile t fun x => retireAt { x with xu := enqueueUnit x.xu } sup (pcNext x words))
    | .fault c a s' => s'.takeSync t c a
    | .stall => s
  else s

/-- Change the unit state of a tile. -/
def State.modXu (s : State) (t : Nat) (f : Xu → Xu) : State := s.modTile t fun x => { x with xu := f x.xu }

/-- A unit instruction in progress: the state, and the FLT_ADDR values of the uncorrectable errors it has met (R222). -/
structure Run1 where
  s : State
  bad : List Nat
  deriving DecidableEq, Repr

/-- The instruction has written its results; XU_ECC is raised for each error it met (R194, R198). -/
def Run1.close (r : Run1) (t : Nat) : State := forL r.bad (fun a s => s.xuEcc t a) r.s

/-- A collector: A, B or C (R211). -/
inductive Coll where
  | a | b | c
  deriving DecidableEq, Repr

/-- A row read through a collector: from its latch, which XU_LATCH counts, or from the bank (R212). -/
def collect (x : Xu) (c : Coll) (row : Nat) : Xu :=
  let l := match c with | .a => x.latchA | .b => x.latchB | .c => x.latchC
  if l = some row then { x with latchCnt := x.latchCnt + 1 }
  else match c with
    | .a => { x with latchA := some row }
    | .b => { x with latchB := some row }
    | .c => { x with latchC := some row }

/-- The eight bytes of granule `g` of the tile registers. Bytes of an uncorrectable granule are free (R194, log 3). -/
def Run1.gran (r : Run1) (t g : Nat) : List Byte × Run1 :=
  match State.xrGran r.s t g with
  | (some d, s) => (d, { r with s := s })
  | (none, s) => (leBytes 8 (s.freeVal 64).toNat, { s := s.spend, bad := if r.bad.contains (g / 8) then r.bad else r.bad ++ [g / 8] })

/-- The 64 bytes of a tile-register row. -/
def Run1.row (r : Run1) (t row : Nat) : List Byte × Run1 :=
  (List.range 8).foldl (fun (bs, r) i => let (d, r) := Run1.gran r t (8 * row + i); (bs ++ d, r)) (([] : List Byte), r)

/-- A granule on its way through the units: its bytes, and the syndrome that its check bits carry (R194). -/
abbrev Gran := List Byte × Byte

/-- Granule `g` of the tile registers for a move: a corrected error leaves it good; an uncorrectable granule goes on as it is, with its check bits (R194). -/
def Run1.carry (r : Run1) (t g : Nat) : Gran × Run1 :=
  match State.xrGran r.s t g with
  | (some d, s) => ((d, 0), { r with s := s })
  | (none, s) =>
    let x := (s.tile t).xu
    (((List.range 8).map fun i => Tbl.get 0 x.rows (8 * g + i), Tbl.get 0 x.synd g), { s := s, bad := if r.bad.contains (g / 8) then r.bad else r.bad ++ [g / 8] })

/-- The granules of a tile-register row for a move. -/
def Run1.carryRow (r : Run1) (t row : Nat) : List Gran × Run1 :=
  (List.range 8).foldl (fun (l, r) i => let (d, r) := Run1.carry r t (8 * row + i); (l ++ [d], r)) (([] : List Gran), r)

/-- A row read through a collector, as a number whose bit 0 is bit 0 of byte 0 (R192). -/
def Run1.operand (r : Run1) (t : Nat) (c : Coll) (row : Nat) : Nat × Run1 :=
  let (bs, r) := Run1.row { r with s := r.s.modXu t fun x => collect x c row } t row
  (leNat bs, r)

/-- Write a tile-register row (R209, R212). -/
def State.putRow (s : State) (t row : Nat) (bs : List Byte) : State := (s.putXr t (64 * row) bs).modXu t fun x => forgetRow x row

/-- Write the granules of a move into a tile-register row, with the check bits they carry (R194, R209, R212). -/
def State.putGrans (s : State) (t row : Nat) (l : List Gran) : State :=
  (s.putXr t (64 * row) (l.flatMap fun e => e.1)).modXu t fun x =>
    forgetRow { x with synd := forN 8 (fun i y => Tbl.put 0 y (8 * row + i) (l.getD i ([], 0)).2) x.synd } row

/-- Set XU_STAT flags (R216). -/
def State.unitFlags (s : State) (t : Nat) (f : W16) : State := s.modXu t fun x => { x with stat := x.stat ||| f }

/-- XU_BUSY and XU_CONFLICT grow by cycles that the model does not time, and XU_CONFLICT by the `extra` reads that fall in one bank (R211, R214; log 3). -/
def State.unitCycles (s : State) (t extra : Nat) : State :=
  let b := s.freeVal 16
  let c := s.spend.freeVal 16
  s.spend.spend.modXu t fun x => { x with busy := x.busy + b.setWidth 64, conflict := x.conflict + BitVec.ofNat 64 extra + c.setWidth 64 }

/-- XU_CTL.RM (R215). -/
def xuRm (x : Xu) : Nat := bitsOf x.ctl.toNat 0 2
/-- XU_CTL.SATCVT (R215). -/
def xuSat (x : Xu) : Bool := x.ctl.getLsbD 3
/-- XU_CTL.ISAT (R215). -/
def xuIsat (x : Xu) : Bool := x.ctl.getLsbD 2

/-- The T row of an operand field, indexed by XU_RIX modulo 32 where `ix` (R199). -/
def rowAt (x : Xu) (ix : Bool) (v : Nat) : Nat := if ix then v / 32 * 32 + (v % 32 + x.rix.toNat) % 32 else v

/-- Reads of one instruction that the latches do not serve and that fall in a bank already read (R211). -/
def extraReads (x : Xu) (l : List (Coll × Nat)) : Nat :=
  let cold := l.filter fun e => (match e.1 with | .a => x.latchA | .b => x.latchB | .c => x.latchC) ≠ some e.2
  cold.length - (cold.map fun e => xrBank e.2).dedup.length

end Sys2Proof.Machine
end

