-- ==== Sys2Proof/Machine/Matrix.lean ====
section
/-! DEFINITION. The matrix instructions, the moves between tile registers and scratchpad, and the unit registers (R205 to R222, R243, R244). -/

namespace Sys2Proof.Machine

/-! ### Rows -/

/-- The number of half `h` of row `r` of Zd (R192). -/
def zRow (d r h : Nat) : Nat := 256 + 64 * d + 2 * r + h

/-- ZRD and ZWR copy row `src` to row `dst` through collector A (R208, R211). -/
def State.rowCopy (s : State) (t src dst : Nat) : State :=
  let (l, r) := Run1.carryRow { s := s.modXu t fun x => collect x .a src, bad := [] } t src
  Run1.close { r with s := (r.s.putGrans t dst l).unitCycles t 0 } t

/-- The T row of ZRD and ZWR; IX adds XU_RIX to its row part (R199, R208; log 26). -/
def zmoveT (x : Xu) (z : ZMove) : Nat := rowAt x z.ix z.row

/-- ZRD (R208). -/
def execZrd (t : TileId) (z : ZMove) (s : State) : Host.Outcome State Fault Refusal :=
  .next (s.unitInstr t 2 (fun s => .ok () s) fun _ s => s.rowCopy t (zRow z.d z.zrow z.half) (zmoveT (s.tile t).xu z))
/-- ZWR (R208). -/
def execZwr (t : TileId) (z : ZMove) (s : State) : Host.Outcome State Fault Refusal :=
  .next (s.unitInstr t 2 (fun s => .ok () s) fun _ s => s.rowCopy t (zmoveT (s.tile t).xu z) (zRow z.d z.zrow z.half))

/-! ### Scratchpad moves (R197, R208) -/

/-- The first word of `n` rows of `w` words at stride `st` from `a` that is not below `limit` (R208). -/
def firstAbove (limit a st n w : Nat) : Option Nat :=
  ((List.range n).map fun r => a + r * st).findSome? fun b => if b + w ≤ limit then none else some (Nat.max b limit)

/-- The first word of those rows in the quire register region (R247). -/
def firstQreg (a st n w : Nat) : Option Nat :=
  ((List.range n).map fun r => a + r * st).findSome? fun b => if b < 0x408000 && 0x400000 < b + w then some (Nat.max b 0x400000) else none

/-- The checks of a row move at issue, lowest code first (R191, R208, R222): ADDR_RANGE where it meets the quire register region (R247; log 129), PRIV_ADDR, XU_REGION, XU_ALIGN. -/
def State.moveFault (s : State) (t a st n w : Nat) : Option (Nat × Nat) :=
  match firstQreg a st n w with
  | some b => some (3, b)
  | none =>
  if !swS (s.tile t).sw && s.inSup t a then some (4, a)
  else match firstAbove (s.usable t * 768) a st n w with
    | some b => some (17, b)
    | none => if a % 32 ≠ 0 || st % 32 ≠ 0 then some (18, a) else none

/-- A unit access to the rows `a + r * st`: its checks, and the wait for the store-buffer entries that overlap a word it reads (R197). -/
def State.moveCheck (s : State) (t a st n w : Nat) (reads : Bool) : Mem Unit :=
  match s.moveFault t a st n w with
  | some (c, f) => .fault c f s
  | none =>
    if reads then
      let k := youngest (fun e => (List.range n).any fun r => sbOverlaps e (a + r * st) w) (s.tile t).sb
      match s.drainN t k with
      | (true, s) => .ok () s
      | (false, _) => .stall
    else .ok () s

/-- The granule of the scratchpad at word `a`, a multiple of 4: corrected, or as it is with its check bits, and then XU_ECC names the word (R194, R222, R250). -/
def Run1.padGran (r : Run1) (t a : Nat) : Gran × Run1 :=
  let g := (scratchBase t + 2 * a) / 8
  match State.readGran r.s g with
  | (some d, s) => ((d, 0), { r with s := s })
  | (none, s) => ((s.bytesAt (8 * g) 8, s.syndAt g), { s := s, bad := r.bad ++ [2 ^ 31 + a] })

/-- The granules of 64 bytes of the scratchpad at word `a`. -/
def Run1.fromPad (r : Run1) (t a : Nat) : List Gran × Run1 :=
  (List.range 8).foldl (fun (l, (r : Run1)) i => let (d, r) := Run1.padGran r t (a + 4 * i); (l ++ [d], r)) (([] : List Gran), r)

/-- Load tile-register rows from the scratchpad: pairs of row and word address (R208). -/
def State.padLoad (s : State) (t : Nat) (l : List (Nat × Nat)) : State :=
  let r := l.foldl (fun (r : Run1) (row, a) =>
    let (l, r) := Run1.fromPad r t a
    { r with s := r.s.putGrans t row l }) ({ s := s, bad := [] } : Run1)
  Run1.close { r with s := r.s.unitCycles t 0 } t

/-- Whole granules are written to memory from granule `g`, with the check bits they carry (R194, R360). -/
def State.putCarried (s : State) (g : Nat) : List Gran → State
  | [] => s
  | (bs, y) :: l => ((s.putBytes (8 * g) bs).setSynd g y).putCarried (g + 1) l

/-- Store tile-register rows to the scratchpad (R208). A store counts as complete with all before it (log 9). -/
def State.padStore (s : State) (t : Nat) (l : List (Nat × Nat)) : State :=
  let r := l.foldl (fun (r : Run1) (row, a) =>
    let (gs, r) := Run1.carryRow r t row
    { r with s := r.s.putCarried ((scratchBase t + 2 * a) / 8) gs }) ({ s := s, bad := [] } : Run1)
  (Run1.close { r with s := r.s.unitCycles t 0 } t).modXu t drainedUnit

/-- The rows of Tn with their word addresses. -/
def tPairs (n a st : Nat) : List (Nat × Nat) := (List.range 32).map fun r => (32 * n + r, a + r * st)
/-- The half-rows of Zd with their word addresses. -/
def zPairs (d a st : Nat) : List (Nat × Nat) := (List.range 32).flatMap fun r => [(zRow d r 0, a + r * st), (zRow d r 1, a + r * st + 32)]

/-- The address and stride operands of a move, read at issue (R196). -/
def State.moveArgs (s : State) (t : Nat) (y : An) (x : Dn) : Nat × Nat := ((getA (s.tile t) y).toNat, (getD (s.tile t) x).toNat)

/-- TLD (R208). -/
def execTld (t : TileId) (n : Fin 8) (y : An) (x : Dn) (s : State) : Host.Outcome State Fault Refusal :=
  .next (s.unitInstr t 2 (fun s => let (a, st) := s.moveArgs t y x; (s.moveCheck t a st 32 32 true).andThen fun _ s => .ok (a, st) s)
    fun p s => s.padLoad t (tPairs n p.1 p.2))
/-- TST (R208). -/
def execTst (t : TileId) (n : Fin 8) (y : An) (x : Dn) (s : State) : Host.Outcome State Fault Refusal :=
  .next (s.unitInstr t 2 (fun s => let (a, st) := s.moveArgs t y x; (s.moveCheck t a st 32 32 false).andThen fun _ s => .ok (a, st) s)
    fun p s => s.padStore t (tPairs n p.1 p.2))
/-- ZLD (R208). -/
def execZld (t : TileId) (d : Fin 4) (y : An) (x : Dn) (s : State) : Host.Outcome State Fault Refusal :=
  .next (s.unitInstr t 2 (fun s => let (a, st) := s.moveArgs t y x; (s.moveCheck t a st 32 64 true).andThen fun _ s => .ok (a, st) s)
    fun p s => s.padLoad t (zPairs d p.1 p.2))
/-- ZST (R208). -/
def execZst (t : TileId) (d : Fin 4) (y : An) (x : Dn) (s : State) : Host.Outcome State Fault Refusal :=
  .next (s.unitInstr t 2 (fun s => let (a, st) := s.moveArgs t y x; (s.moveCheck t a st 32 64 false).andThen fun _ s => .ok (a, st) s)
    fun p s => s.padStore t (zPairs d p.1 p.2))

/-- The row of RLD and RST: IX adds XU_RIX modulo 32 to the row within its register (R208). -/
def moveRow (x : Xu) (ix : Bool) (row : Nat) : Nat :=
  if !ix then row
  else if row < 256 then rowAt x true row
  else row / 64 * 64 + (row / 2 % 32 + x.rix.toNat) % 32 * 2 + row % 2

/-- RLD (R208). -/
def execRld (t : TileId) (row : Fin 512) (ix : Bool) (y : An) (s : State) : Host.Outcome State Fault Refusal :=
  .next (s.unitInstr t 2 (fun s => let a := (getA (s.tile t) y).toNat; (s.moveCheck t a 0 1 32 true).andThen fun _ s => .ok a s)
    fun a s => s.padLoad t [(moveRow (s.tile t).xu ix row, a)])
/-- RST (R208). -/
def execRst (t : TileId) (row : Fin 512) (ix : Bool) (y : An) (s : State) : Host.Outcome State Fault Refusal :=
  .next (s.unitInstr t 2 (fun s => let a := (getA (s.tile t) y).toNat; (s.moveCheck t a 0 1 32 false).andThen fun _ s => .ok a s)
    fun a s => s.padStore t [(moveRow (s.tile t).xu ix row, a)])

/-! ### Matrix products (R205 to R207, R243, R244) -/

/-- Elements of a row along K, by code (R205). -/
def codeK (code : Nat) : Nat := 512 / codeStep code

/-- Element `k` of a row as a value. An MXINT8 element carries 2^-6 (R227, R244). -/
def elemVal (code row : Nat) (mx : Bool) (k : Nat) : Val :=
  let n := (codeNum code).getD (.int 8 true)
  match valOf n (bitsOf row (codeStep code * k) (codeStep code) % 2 ^ n.width) with
  | .fin a m e => .fin a m (if mx && code = 5 then e - 6 else e)
  | v => v

/-- Element `k` of a row of an integer class. -/
def elemInt (code row k : Nat) : Int :=
  match codeNum code with
  | some (.int w sg) => intOf w sg (bitsOf row (codeStep code * k) (codeStep code))
  | _ => 0

/-- The exact sum of finite terms, rounded once to FP32 (R206, R243). -/
def sumTerms (rm : Nat) (l : List (Bool × Nat × Int)) : Nat × W16 :=
  let e0 := l.foldl (fun m t => min m t.2.2) 0
  let v := l.foldl (fun a t => a + alignTo t.1 t.2.1 t.2.2 e0) (0 : Int)
  if v = 0 then encodeFin fp32 rm false (rm = 3 || l.all fun t => t.1 && t.2.1 = 0) 0 0
  else encodeFin fp32 rm false (v < 0) v.natAbs e0

/-- An element of a float class (R243): `ins` are the inputs, `terms` the products and the prior value with the flag of each product. -/
def floatElem (rm : Nat) (ins : List Val) (nanScale : Bool) (terms : List (Val × W16)) : Nat × W16 :=
  if nanScale || ins.any Val.isNan then (canonNan fp32, ins.foldl (fun f v => f ||| v.nv) 0)
  else if terms.any fun t => t.1.isNan then (canonNan fp32, flagNV)
  else
    let infs := terms.filterMap fun t => match t.1 with | .inf a => some a | _ => none
    match infs with
    | a :: l => if l.all (· = a) then encodeF fp32 rm false (.inf a) else (canonNan fp32, flagNV)
    | [] => sumTerms rm (terms.filterMap fun t => match t.1 with | .fin a m e => some (a, m, e) | _ => none)

/-- An element of an integer class (R206). -/
def intElem (sat : Bool) (v : Int) : Nat × W16 :=
  if v < -(2 ^ 31) then (if sat then (2 ^ 31, flagISAT) else (intBits 32 v, flagIWRAP))
  else if 2 ^ 31 ≤ v then (if sat then (2 ^ 31 - 1, flagISAT) else (intBits 32 v, flagIWRAP))
  else (intBits 32 v, 0)

/-- Multiply a value by a power of two. -/
def scaleVal (e : Int) : Val → Val
  | .fin a m x => .fin a m (x + e)
  | v => v

/-- The codes are of an integer class (R205). -/
def isIntClass (code : Nat) : Bool := codeClass code = 1 || codeClass code = 3 || codeClass code = 5

/-- What an MMA computes with (R205, R207): the formats, ZS, and for MMA.MX the bytes of the scales. -/
structure MmaPlan where
  fa : Nat
  fb : Nat
  zs : Bool
  mx : Bool
  scales : List Byte
  deriving DecidableEq, Repr

/-- Element (i, j) of an MMA from A row `i`, B row `j` and the prior value (R205 to R207). -/
def mmaElem (x : Xu) (p : MmaPlan) (a b i j prior : Nat) : Nat × W16 :=
  let k := codeK p.fa
  if !p.mx && isIntClass p.fa then
    let v := (List.range k).foldl (fun v n => v + elemInt p.fa a n * elemInt p.fb b n) (0 : Int)
    intElem (xuIsat x) (if p.zs then v else v + intOf 32 true prior)
  else
    let nb := k / 32
    let sa := (List.range nb).map fun n => (p.scales.getD (i * nb + n) 127).toNat
    let sb := (List.range nb).map fun n => (p.scales.getD (256 + j * nb + n) 127).toNat
    let av := (List.range k).map (elemVal p.fa a p.mx)
    let bv := (List.range k).map (elemVal p.fb b p.mx)
    let z := if p.zs then [] else [decodeF fp32 prior]
    let prods := (List.range k).map fun n =>
      let (v, f) := mulVal (av.getD n (.nan false)) (bv.getD n (.nan false))
      if p.mx then (scaleVal ((sa.getD (n / 32) 127 : Int) + sb.getD (n / 32) 127 - 254) v, f) else (v, f)
    floatElem (xuRm x) (av ++ bv ++ z) (p.mx && (sa ++ sb).contains 255) (prods ++ z.map fun v => (v, 0))

/-- One row of the compute phase: A row i and Zd row i are read, whatever ZS is, and Zd row i is written (R209, R211). -/
def Run1.mmaRow (r : Run1) (t a d : Nat) (p : MmaPlan) (b : List Nat) (i : Nat) : Run1 :=
  let (av, r) := r.operand t .a (32 * a + i)
  let (lo, r) := r.operand t .c (zRow d i 0)
  let (hi, r) := r.operand t .c (zRow d i 1)
  let z := lo + 2 ^ 512 * hi
  let x := (r.s.tile t).xu
  let l := (List.range 32).map fun j => mmaElem x p av (b.getD j 0) i j (bitsOf z (32 * j) 32)
  let bs := l.flatMap fun e => leBytes 4 e.1
  { r with s := (((r.s.unitFlags t (l.foldl (fun f e => f ||| e.2) 0)).putRow t (zRow d i 0) (bs.take 64)).putRow t (zRow d i 1) (bs.drop 64)) }

/-- The B-load of Tb (R209): skipped, and counted, where a B store holds Tb; else into the store that the MMA before did not use (log 26). The rows of Tb are read through collector B where they are loaded. -/
def Run1.loadB (r : Run1) (t b : Nat) : List Nat × Run1 :=
  let x := (r.s.tile t).xu
  let held := fun (o : Option (Fin 8)) => o = some (Fin.ofNat 8 b)
  let rows : Bool → Run1 → List Nat × Run1 := fun viaB r =>
    (List.range 32).foldl (fun (l, (r : Run1)) i =>
      let (v, r) := if viaB then Run1.operand r t .b (32 * b + i) else (let (bs, r) := Run1.row r t (32 * b + i); (leNat bs, r))
      (l ++ [v], r)) (([] : List Nat), r)
  if held x.bStore0 || held x.bStore1 then
    rows false { r with s := r.s.modXu t fun x => { x with breuse := x.breuse + 1, bNext := held x.bStore0 } }
  else
    let (l, r) := rows true r
    (l, { r with s := r.s.modXu t fun x =>
      if x.bNext then { x with bStore1 := some (Fin.ofNat 8 b), bNext := false } else { x with bStore0 := some (Fin.ofNat 8 b), bNext := true } })

/-- The scale rows of Ts that MMA.MX reads through collector B (R207, R209), as the bytes of Ts. -/
def Run1.loadScales (r : Run1) (t sn nb : Nat) : List Byte × Run1 :=
  let need := if nb = 2 then [0, 4] else [0, 1, 4, 5]
  (List.range 6).foldl (fun (bs, (r : Run1)) i =>
    if need.contains i then
      let (v, r) := Run1.operand r t .b (32 * sn + i)
      (bs ++ leBytes 64 v, r)
    else (bs ++ zeros 64, r)) (([] : List Byte), r)

/-- An MMA or MMA.MX has its effect (R205 to R209). -/
def State.mmaRun (s : State) (t : Nat) (m : MmaOps) (sc : Option (Fin 8)) : State :=
  let (b, r) := Run1.loadB { s := s, bad := [] } t m.b
  let (scales, r) := match sc with | some n => Run1.loadScales r t n (codeK m.fa / 32) | none => ([], r)
  let p : MmaPlan := { fa := m.fa, fb := m.fb, zs := m.zs, mx := sc.isSome, scales := scales }
  let r := (List.range 32).foldl (fun (r : Run1) i => r.mmaRow t m.a m.d p b i) r
  Run1.close { r with s := r.s.unitCycles t 0 } t

/-- MMA (R205, R206, R209). -/
def execMma (t : TileId) (m : MmaOps) (s : State) : Host.Outcome State Fault Refusal :=
  .next (s.unitInstr t 2 (fun s =>
    if 11 < m.fa.val || 11 < m.fb.val then .fault 1 0 s
    else if codeClass m.fa ≠ codeClass m.fb then .fault 16 (m.fa + 256 * m.fb) s
    else .ok () s) fun _ s => s.mmaRun t m none)

/-- A code that MMA.MX accepts beside 9 with 9 (R207). -/
def mxCode (c : Nat) : Bool := c = 3 || c = 4 || c = 5 || c = 7 || c = 8

/-- MMA.MX (R207, R244). -/
def execMmaMx (t : TileId) (m : MmaOps) (sn : Fin 8) (s : State) : Host.Outcome State Fault Refusal :=
  .next (s.unitInstr t 3 (fun s =>
    if (mxCode m.fa && mxCode m.fb) || (m.fa = 9 && m.fb = 9) then .ok () s
    else .fault 16 (m.fa + 256 * m.fb) s) fun _ s => s.mmaRun t m (some sn))

/-- ZCLR (R208). -/
def execZclr (t : TileId) (d : Fin 4) (s : State) : Host.Outcome State Fault Refusal :=
  .next (s.unitInstr t 1 (fun s => .ok () s) fun _ s => (forN 64 (fun i s => s.putRow t (256 + 64 * d + i) (zeros 64)) s).unitCycles t 0)

/-! ### Unit registers (R214 to R218) -/

/-- The lowest number of the counter that unit register `u` belongs to (R214). -/
def counterBase (u : Nat) : Option Nat := if 8 ≤ u && u < 0x18 then some (u / 4 * 4) else none

/-- The present value of the counter at `base`. -/
def counterAt (x : Xu) (base : Nat) : W64 :=
  match base with
  | 8 => x.latchCnt
  | 0xC => x.conflict
  | 0x10 => x.breuse
  | _ => x.busy

/-- A read of unit register `u`: the lowest word of a counter latches the others, which read as latched (R214). -/
def readUnit (x : Xu) (u : Nat) : W16 × Xu :=
  match counterBase u with
  | none => (unitWord x u, x)
  | some b =>
    if u = b then (unitWord x u, { x with hi := Tbl.put 0 x.hi b (counterAt x b) })
    else (word64 (Tbl.get 0 x.hi b) (u - b), x)

/-- XMF (R208, R214): after the queue drains. -/
def execXmf (t : TileId) (x : Dn) (u : Fin 128) (s : State) : Host.Outcome State Fault Refusal :=
  .next (s.regInstr t 2 fun z =>
    let (w, y) := readUnit z.xu u
    setD { z with xu := drainedUnit y } x w)

/-- A write of unit register `u` by XMT (R214 to R216). -/
def xmtUnit (x : Xu) (u : Nat) (v : W16) : Xu :=
  if u = 1 then { x with stat := x.stat &&& ~~~(v &&& 0x3F) }
  else if u = 4 then { x with ctxLow := v }
  else loadUnitWord x u v

/-- Read the save image of tile `t` from an area (R217, R218): a corrected error is written back and logged (R250); an uncorrectable granule raises XU_ECC, goes into the tile registers as it is, and gives free unit-register words (R194, R222; log 3). -/
def State.loadImage (s : State) (t area : Nat) : State :=
  let r := (List.range 512).foldl (fun (r : Run1) row =>
    let (l, r) := Run1.fromPad r t (area + 32 * row)
    { r with s := r.s.putGrans t row l }) ({ s := s, bad := [] } : Run1)
  let (ws, r) := (List.range 32).foldl (fun (ws, (r : Run1)) i =>
    let ((bs, y), r) := Run1.padGran r t (area + 16384 + 4 * i)
    if y = 0 then (ws ++ bytesWords bs, r) else (ws ++ words64 (r.s.freeVal 64), { r with s := r.s.spend })) (([] : List W16), r)
  let s := r.s.modXu t fun x => forN 128 (fun u y => loadUnitWord y u (ws.getD u 0)) { rows := x.rows, synd := x.synd, ctx := x.ctx, ctxLow := x.ctxLow }
  Run1.close { r with s := s } t

/-- The context switch of R217 with the area and bits `c`. -/
def State.switchCtx (s : State) (t : Nat) (c : W32) : State :=
  let s := s.saveUnits t
  let s := if ctxValid c && ctxLoad c then s.loadImage t (ctxArea c)
    else s.modXu t fun x => { ctx := x.ctx, ctxLow := x.ctxLow }
  s.modXu t fun x => { x with ctx := c, latchA := none, latchB := none, latchC := none, bStore0 := none, bStore1 := none, bNext := false }

/-- The checks and waits of an XMT to XU_CTX's high word with value `v` (R217). -/
def State.ctxCheck (s : State) (t : Nat) (v : W16) : Mem W32 :=
  let x := s.tile t
  let c : W32 := (v ++ x.xu.ctxLow) &&& 0xFFFFFFE3
  let last := ctxArea c + 16512
  if ctxValid c && (s.usable t * 768 < last || (x.priv.supBlocks ≠ 0 && supWords x < last)) then .fault 20 (ctxArea c) s
  else match s.drainAll t with
    | (true, s) => .ok c s
    | (false, _) => .stall

/-- An XMT of value Dy to unit register `u` (R208, R214, R217). -/
def State.xmtInstr (s : State) (t u : Nat) (y : Dn) : State :=
  if u = 3 || 0x18 ≤ u then s.faultInstr t 2 1 0
  else if u = 5 then
    s.unitInstr t 2 (fun s => if !swS (s.tile t).sw then .fault 19 u s else s.ctxCheck t (getD (s.tile t) y)) fun c s => s.switchCtx t c
  else
    s.unitInstr t 2 (fun s => if u = 4 && !swS (s.tile t).sw then .fault 19 u s else .ok (getD (s.tile t) y) s)
      fun v s => s.modXu t fun x => xmtUnit x u v

/-- XMT (R208). -/
def execXmt (t : TileId) (u : Fin 128) (y : Dn) (s : State) : Host.Outcome State Fault Refusal := .next (s.xmtInstr t u y)

/-- XU_CTX: the XMT that commits (R217). -/
def execXuCtx (t : TileId) (y : Dn) (s : State) : Host.Outcome State Fault Refusal := .next (s.xmtInstr t 5 y)

/-- XWAIT (R208): the queue drains and the units are idle. -/
def execXwait (t : TileId) (s : State) : Host.Outcome State Fault Refusal := .next (s.regInstr t 1 fun z => { z with xu := drainedUnit z.xu })

end Sys2Proof.Machine
end

