-- ==== Sys2Proof/Machine/TileAcc.lean ====
section
/-! DEFINITION. Accumulators and the dual-fetch MAC (R146 to R148). -/

namespace Sys2Proof.Machine

/-- The accumulator takes an exact sum: a result outside the signed 40-bit range wraps and sets SV (R147). -/
def accWrap (z : Tile) (n : Nat) (v : Int) : Tile :=
  let r := BitVec.ofInt 40 v
  let z := setAcc z n r
  if r.toInt = v then z else { z with sw := putBit z.sw 5 true }

/-- The accumulator takes an exact sum clamped to the signed 40-bit range; SAT is set when it clamps (R147). -/
def accClamp (z : Tile) (n : Nat) (v : Int) : Tile :=
  if v < -(2 ^ 39) then { setAcc z n (BitVec.ofInt 40 (-(2 ^ 39))) with sw := putBit z.sw 4 true }
  else if 2 ^ 39 - 1 < v then { setAcc z n (BitVec.ofInt 40 (2 ^ 39 - 1)) with sw := putBit z.sw 4 true }
  else setAcc z n (BitVec.ofInt 40 v)

/-- The checks of a MAC's operands (R131, R147, R170, R191), the lowest code first: outside every region that such an access reaches (R193, R247), in the supervisor area, outside the scratchpad. -/
def State.macFault (s : State) (t : Nat) (a b : Nat) : Option (Nat × Nat) :=
  let outside : Nat → Bool := fun w => (s.firstOutside t .other w 1).isSome
  let sup : Nat → Bool := fun w => !swS (s.tile t).sw && s.inSup t w
  let far : Nat → Bool := fun w => s.usable t * 768 ≤ w
  let first : Nat → (Nat → Bool) → Option (Nat × Nat) := fun c p => ([a, b].find? p).map fun w => (c, w)
  ((first 3 outside).or (first 4 sup)).or (first 6 far)

/-- The two operands of a MAC lie in one scratchpad bank (R147, R248). -/
def sameBank (a b : Nat) : Bool := a / 32 % 24 = b / 32 % 24

/-- A MAC with post-increment: `f` takes the tile, a and b to the tile with the new accumulator (R147). -/
def State.macInstr (s : State) (t : Nat) (i j : An) (f : Tile → W16 → W16 → Tile) : State :=
  if i = j then s.faultInstr t 1 1 0
  else s.runInstr t 1 fun s =>
    let a := (getA (s.tile t) i).toNat
    let b := (getA (s.tile t) j).toNat
    match s.macFault t a b with
    | some (c, w) => .fault c w s
    | none => (s.loadWords t a 1).andThen fun la s => (s.loadWords t b 1).andThen fun lb s =>
        let s := if sameBank a b then s.modTile t fun z => perfCount 13 (swS z.sw) z else s
        s.finish t 1 fun z => let z := f z (la.getD 0 0) (lb.getD 0 0); setA (setA z i (getA z i + 1)) j (getA z j + 1)

/-- MAC (R146, R147). -/
def execMac (t : TileId) (n : Accn) (i j : An) (s : State) : Host.Outcome State Fault Refusal :=
  .next (s.macInstr t i j fun z a b => accWrap z n ((getAcc z n).toInt + a.toInt * b.toInt))
/-- MACS (R146, R147): saturating. -/
def execMacs (t : TileId) (n : Accn) (i j : An) (s : State) : Host.Outcome State Fault Refusal :=
  .next (s.macInstr t i j fun z a b => accClamp z n ((getAcc z n).toInt + a.toInt * b.toInt))
/-- MSU (R146, R147). -/
def execMsu (t : TileId) (n : Accn) (i j : An) (s : State) : Host.Outcome State Fault Refusal :=
  .next (s.macInstr t i j fun z a b => accWrap z n ((getAcc z n).toInt - a.toInt * b.toInt))
/-- MACU (R146, R147): unsigned operands. -/
def execMacu (t : TileId) (n : Accn) (i j : An) (s : State) : Host.Outcome State Fault Refusal :=
  .next (s.macInstr t i j fun z a b => accWrap z n ((getAcc z n).toInt + (a.toNat * b.toNat : Nat)))

/-- MACR ACCn, Dx, Dy (R146). -/
def execMacr (t : TileId) (n : Accn) (x y : Dn) (s : State) : Host.Outcome State Fault Refusal :=
  .next (s.regInstr t 1 fun z => accWrap z n ((getAcc z n).toInt + (getD z x).toInt * (getD z y).toInt))

/-- CLRA (R146). -/
def execClra (t : TileId) (n : Accn) (s : State) : Host.Outcome State Fault Refusal :=
  .next (s.regInstr t 1 fun z => setAcc z n 0)

/-- The conversion of RDACC (R148): the result and whether it saturated. -/
def rdaccValue (v : Int) (sh : Nat) (sa rn : Bool) : W16 × Bool :=
  let v := if rn && 0 < sh then v + 2 ^ (sh - 1) else v
  let v := v / 2 ^ sh
  if sa && 32767 < v then (0x7FFF, true)
  else if sa && v < -32768 then (0x8000, true)
  else (BitVec.ofInt 16 v, false)

/-- RDACC (R148). -/
def execRdacc (t : TileId) (x : Dn) (n : Accn) (spec : W16) (s : State) : Host.Outcome State Fault Refusal :=
  .next (let sh := bitsOf spec.toNat 0 6
    if 39 < sh || bitsOf spec.toNat 6 2 ≠ 0 || bitsOf spec.toNat 10 6 ≠ 0 then s.faultInstr t 2 1 0
    else s.regInstr t 2 fun z =>
      let (r, sat) := rdaccValue (getAcc z n).toInt sh (spec.getLsbD 8) (spec.getLsbD 9)
      let z := setD z x r
      if sat then { z with sw := putBit z.sw 4 true } else z)

/-- WRACC (R146). -/
def execWracc (t : TileId) (n : Accn) (y : Dn) (s : State) : Host.Outcome State Fault Refusal :=
  .next (s.regInstr t 1 fun z => setAcc z n ((getD z y).signExtend 40))

/-- ADDACC (R146). -/
def execAddacc (t : TileId) (n m : Accn) (s : State) : Host.Outcome State Fault Refusal :=
  .next (s.regInstr t 1 fun z => accWrap z n ((getAcc z n).toInt + (getAcc z m).toInt))

/-- The three words of an accumulator, the last sign-extended (R146). -/
def accWords (v : BitVec 40) : List W16 := [v.setWidth 16, (v >>> 16).setWidth 16, ((v >>> 32).setWidth 8).signExtend 16]

/-- STACC (R146). -/
def execStacc (t : TileId) (n : Accn) (y : An) (s : State) : Host.Outcome State Fault Refusal :=
  .next (s.runInstr t 1 fun s =>
    (s.store t .other (getA (s.tile t) y).toNat (accWords (getAcc (s.tile t) n))).andThen fun _ s => s.finish t 1 id)

/-- LDACC (R146). -/
def execLdacc (t : TileId) (n : Accn) (y : An) (s : State) : Host.Outcome State Fault Refusal :=
  .next (s.runInstr t 1 fun s =>
    (s.load t .other (getA (s.tile t) y).toNat 3).andThen fun l s =>
      s.finish t 1 fun z => setAcc z n ((l.getD 2 0).setWidth 8 ++ l.getD 1 0 ++ l.getD 0 0))

end Sys2Proof.Machine
end

