-- ==== Sys2Proof/Machine/TileArith.lean ====
section
/-! DEFINITION. Arithmetic and bit-field instructions of the tile core (R143 to R145). -/

namespace Sys2Proof.Machine

/-- An instruction Dx ← f(Dx, b) with flags: `f` takes SW, Dx and b to the result and the new SW. -/
def State.aluInstr (s : State) (t : Nat) (x : Dn) (b : Src) (f : W16 → W16 → W16 → W16 × W16) : State :=
  s.regInstr t (srcWords b) fun z => let (r, w) := f z.sw (getD z x) (srcVal z b); { setD z x r with sw := w }

/-- ADD Dx, b (R143). -/
def execAdd (t : TileId) (x : Dn) (b : Src) (s : State) : Host.Outcome State Fault Refusal :=
  .next (s.aluInstr t x b fun w a b => addFlags w a b false)
/-- ADDC Dx, b (R143). -/
def execAddc (t : TileId) (x : Dn) (b : Src) (s : State) : Host.Outcome State Fault Refusal :=
  .next (s.aluInstr t x b fun w a b => addFlags w a b (swC w))
/-- SUB Dx, b (R143). -/
def execSub (t : TileId) (x : Dn) (b : Src) (s : State) : Host.Outcome State Fault Refusal :=
  .next (s.aluInstr t x b fun w a b => subFlags w a b false)
/-- SUBC Dx, b (R140, R143). -/
def execSubc (t : TileId) (x : Dn) (b : Src) (s : State) : Host.Outcome State Fault Refusal :=
  .next (s.aluInstr t x b fun w a b => subFlags w a b (swC w))
/-- CMP Dx, b (R143): the result is discarded. -/
def execCmp (t : TileId) (x : Dn) (b : Src) (s : State) : Host.Outcome State Fault Refusal :=
  .next (s.regInstr t (srcWords b) fun z => { z with sw := (subFlags z.sw (getD z x) (srcVal z b) false).2 })
/-- AND Dx, b (R143). -/
def execAnd (t : TileId) (x : Dn) (b : Src) (s : State) : Host.Outcome State Fault Refusal :=
  .next (s.aluInstr t x b fun w a b => (a &&& b, znOf w (a &&& b)))
/-- OR Dx, b (R143). -/
def execOr (t : TileId) (x : Dn) (b : Src) (s : State) : Host.Outcome State Fault Refusal :=
  .next (s.aluInstr t x b fun w a b => (a ||| b, znOf w (a ||| b)))
/-- XOR Dx, b (R143). -/
def execXor (t : TileId) (x : Dn) (b : Src) (s : State) : Host.Outcome State Fault Refusal :=
  .next (s.aluInstr t x b fun w a b => (a ^^^ b, znOf w (a ^^^ b)))

/-- An instruction of one word that changes Dx and SW by `f` of SW and the value of Dx. -/
def State.oneInstr (s : State) (t : Nat) (x y : Dn) (f : W16 → W16 → W16 × W16) : State :=
  s.regInstr t 1 fun z => let (r, w) := f z.sw (getD z y); { setD z x r with sw := w }

/-- NOT Dx (R143). -/
def execNot (t : TileId) (x : Dn) (s : State) : Host.Outcome State Fault Refusal :=
  .next (s.oneInstr t x x fun w a => (~~~a, znOf w (~~~a)))
/-- NEG Dx (R143). -/
def execNeg (t : TileId) (x : Dn) (s : State) : Host.Outcome State Fault Refusal :=
  .next (s.oneInstr t x x fun w a => subFlags w 0 a false)
/-- ABS Dx (R143): 0x8000 gives 0x7FFF with V and SAT. -/
def execAbs (t : TileId) (x : Dn) (s : State) : Host.Outcome State Fault Refusal :=
  .next (s.oneInstr t x x fun w a =>
    if a = 0x8000 then (0x7FFF, putBit (setZNV w false false true) 4 true)
    else let r := if a.msb then -a else a; (r, setZNV w (r = 0) r.msb false))

/-- The result of a shift or rotate by `k` and the last bit moved out (R144). -/
def shiftBy (op : Nat) (a : W16) (k : Nat) : W16 × Bool :=
  match op with
  | 0 => (a <<< k, a.getLsbD (16 - k))
  | 1 => (a >>> k, a.getLsbD (k - 1))
  | 2 => (a.sshiftRight k, a.getLsbD (k - 1))
  | _ => (a.rotateLeft k, a.getLsbD (16 - k))

/-- A shift or rotate with its flags: Z, N, and C unless the count is 0 (R144). -/
def State.shiftInstr (s : State) (t : Nat) (x : Dn) (k : ShiftBy) (op : Nat) : State :=
  s.regInstr t 1 fun z =>
    let n := shiftVal z k
    let (r, c) := shiftBy op (getD z x) n
    let w := znOf z.sw r
    { setD z x r with sw := if n = 0 then w else putBit w 0 c }

/-- SHL (R144). -/
def execShl (t : TileId) (x : Dn) (k : ShiftBy) (s : State) : Host.Outcome State Fault Refusal := .next (s.shiftInstr t x k 0)
/-- SHR (R144). -/
def execShr (t : TileId) (x : Dn) (k : ShiftBy) (s : State) : Host.Outcome State Fault Refusal := .next (s.shiftInstr t x k 1)
/-- SAR (R144). -/
def execSar (t : TileId) (x : Dn) (k : ShiftBy) (s : State) : Host.Outcome State Fault Refusal := .next (s.shiftInstr t x k 2)
/-- ROL (R144). -/
def execRol (t : TileId) (x : Dn) (k : ShiftBy) (s : State) : Host.Outcome State Fault Refusal := .next (s.shiftInstr t x k 3)

/-- A multiplication: `f` takes Dx and Dy to the result and V. -/
def State.mulInstr (s : State) (t : Nat) (x y : Dn) (f : W16 → W16 → W16 × Bool) : State :=
  s.regInstr t 1 fun z => let (r, v) := f (getD z x) (getD z y); { setD z x r with sw := setZNV z.sw (r = 0) r.msb v }

/-- MUL (R143): V is 1 when the product does not fit in 16 signed bits. -/
def execMul (t : TileId) (x y : Dn) (s : State) : Host.Outcome State Fault Refusal :=
  .next (s.mulInstr t x y fun a b => let r := BitVec.ofInt 16 (a.toInt * b.toInt); (r, r.toInt ≠ a.toInt * b.toInt))
/-- MULU (R143): V is 1 when the product does not fit in 16 unsigned bits. -/
def execMulu (t : TileId) (x y : Dn) (s : State) : Host.Outcome State Fault Refusal :=
  .next (s.mulInstr t x y fun a b => (BitVec.ofNat 16 (a.toNat * b.toNat), 2 ^ 16 ≤ a.toNat * b.toNat))
/-- MULH (R143): V becomes 0. -/
def execMulh (t : TileId) (x y : Dn) (s : State) : Host.Outcome State Fault Refusal :=
  .next (s.mulInstr t x y fun a b => (((BitVec.ofInt 32 (a.toInt * b.toInt)) >>> 16).setWidth 16, false))
/-- MULHU (R143): V becomes 0. -/
def execMulhu (t : TileId) (x y : Dn) (s : State) : Host.Outcome State Fault Refusal :=
  .next (s.mulInstr t x y fun a b => (BitVec.ofNat 16 (a.toNat * b.toNat / 2 ^ 16), false))

/-- ADDA (R143): no flag changes. -/
def execAdda (t : TileId) (x : An) (b : AddaSrc) (s : State) : Host.Outcome State Fault Refusal :=
  .next (match b with
    | .reg y => s.regInstr t 1 fun z => setA z x (getA z x + (getD z y).signExtend 32)
    | .d16 d => s.regInstr t 2 fun z => setA z x (getA z x + d.signExtend 32)
    | .d32 d => s.regInstr t 3 fun z => setA z x (getA z x + d))

/-- CMPA (R140, R143). -/
def execCmpa (t : TileId) (x y : An) (s : State) : Host.Outcome State Fault Refusal :=
  .next (s.regInstr t 1 fun z => { z with sw := cmpaFlags z.sw (getA z x) (getA z y) })

/-- The fields of the specifier of EXT and INS: width and position (R145). -/
def fieldSpec (z : Tile) (spec : W16) : Nat × Nat :=
  let w := bitsOf spec.toNat 4 4 + 1
  let p := if spec.getLsbD 9 then (getD z (bitsOf spec.toNat 12 4)).toNat % 16 else bitsOf spec.toNat 0 4
  (w, p)

/-- EXT's field: bits p + w - 1 to p, sign-extended where S is 1 (R145). -/
def extractField (a : W16) (w p : Nat) (sgn : Bool) : W16 :=
  let f := a.toNat / 2 ^ p % 2 ^ w
  if sgn && f.testBit (w - 1) then BitVec.ofNat 16 (f + (2 ^ 16 - 2 ^ w)) else BitVec.ofNat 16 f

/-- INS's result: the field of `a` is replaced (R145). -/
def insertField (a v : W16) (w p : Nat) : W16 :=
  let m : W16 := BitVec.ofNat 16 ((2 ^ w - 1) * 2 ^ p)
  (a &&& ~~~m) ||| ((v <<< p) &&& m)

/-- A reserved bit of the specifier is set (R134, R145). -/
def fieldSpecBad (spec : W16) : Bool := bitsOf spec.toNat 10 2 ≠ 0

/-- EXT (R145). -/
def execExt (t : TileId) (x y : Dn) (spec : W16) (s : State) : Host.Outcome State Fault Refusal :=
  .next (if fieldSpecBad spec then s.faultInstr t 2 1 0
    else s.regInstr t 2 fun z =>
      let (w, p) := fieldSpec z spec
      let r := extractField (getD z y) w p (spec.getLsbD 8)
      { setD z x r with sw := znOf z.sw r })

/-- INS (R145): S must be 0. -/
def execIns (t : TileId) (x y : Dn) (spec : W16) (s : State) : Host.Outcome State Fault Refusal :=
  .next (if fieldSpecBad spec || spec.getLsbD 8 then s.faultInstr t 2 1 0
    else s.regInstr t 2 fun z =>
      let (w, p) := fieldSpec z spec
      let r := insertField (getD z x) (getD z y) w p
      { setD z x r with sw := znOf z.sw r })

/-- BSWAP (R143). -/
def execBswap (t : TileId) (x y : Dn) (s : State) : Host.Outcome State Fault Refusal :=
  .next (s.oneInstr t x y fun w a => let r := a.rotateLeft 8; (r, znOf w r))

/-- The leading zeros of a word (R143). -/
def leadingZeros (a : W16) : Nat := ((List.range 17).find? fun n => n = 16 || a.getLsbD (15 - n)).getD 16

/-- CLZ (R143): 16 for 0. -/
def execClz (t : TileId) (x y : Dn) (s : State) : Host.Outcome State Fault Refusal :=
  .next (s.oneInstr t x y fun w a => let r : W16 := BitVec.ofNat 16 (leadingZeros a); (r, putBit w 1 (r = 0)))

/-- POPC (R143). -/
def execPopc (t : TileId) (x y : Dn) (s : State) : Host.Outcome State Fault Refusal :=
  .next (s.oneInstr t x y fun w a => let r : W16 := BitVec.ofNat 16 (bitList 16 a.toNat).length; (r, putBit w 1 (r = 0)))

end Sys2Proof.Machine
end

