-- ==== Sys2Proof/Machine/TileMove.lean ====
section
/-! DEFINITION. Moves and memory instructions of the tile core (R141). -/

namespace Sys2Proof.Machine

/-- NOP (R141). -/
def execNop (t : TileId) (s : State) : Host.Outcome State Fault Refusal := .next (s.regInstr t 1 id)

/-- MOV Dx, Dy (R141, R186). -/
def execMov (t : TileId) (x y : Dn) (s : State) : Host.Outcome State Fault Refusal :=
  .next (s.regInstr t 1 fun z => setDX z x (getDX z y))

/-- MOVI Dx, #i16 (R141). -/
def execMovi (t : TileId) (x : Dn) (i : W16) (s : State) : Host.Outcome State Fault Refusal :=
  .next (s.regInstr t 2 fun z => setD z x i)

/-- MOVA Ax, Ay and MOVA Ax, #i32 (R141, R186). -/
def execMova (t : TileId) (x : An) (y : ASrc) (s : State) : Host.Outcome State Fault Refusal :=
  .next (match y with
    | .reg n => s.regInstr t 1 fun z => setAX z x (getAX z n)
    | .imm i => s.regInstr t 3 fun z => setAX z x i)

/-- GETL Dx, Ay (R141). -/
def execGetl (t : TileId) (x : Dn) (y : An) (s : State) : Host.Outcome State Fault Refusal :=
  .next (s.regInstr t 1 fun z => setD z x ((getA z y).setWidth 16))

/-- GETH Dx, Ay (R141). -/
def execGeth (t : TileId) (x : Dn) (y : An) (s : State) : Host.Outcome State Fault Refusal :=
  .next (s.regInstr t 1 fun z => setD z x ((getA z y >>> 16).setWidth 16))

/-- PUTL Ax, Dy (R141). -/
def execPutl (t : TileId) (x : An) (y : Dn) (s : State) : Host.Outcome State Fault Refusal :=
  .next (s.regInstr t 1 fun z => setA z x (BitVec.ofNat 32 (setBits (getA z x).toNat 0 16 (getD z y).toNat)))

/-- PUTH Ax, Dy (R141). -/
def execPuth (t : TileId) (x : An) (y : Dn) (s : State) : Host.Outcome State Fault Refusal :=
  .next (s.regInstr t 1 fun z => setA z x (BitVec.ofNat 32 (setBits (getA z x).toNat 16 16 (getD z y).toNat)))

/-- LD Dx, ea (R135, R141). -/
def execLd (t : TileId) (x : Dn) (y : An) (m : Mode) (s : State) : Host.Outcome State Fault Refusal :=
  .next (s.runInstr t (modeWords m) fun s =>
    (s.load16 t .ldst (effAddr (s.tile t) y 1 m).toNat).andThen fun v s => s.finish t (modeWords m) fun z => setD (modeUpdate z y 1 m) x v)

/-- ST Dx, ea (R135, R141). -/
def execSt (t : TileId) (x : Dn) (y : An) (m : Mode) (s : State) : Host.Outcome State Fault Refusal :=
  .next (s.runInstr t (modeWords m) fun s =>
    (s.store t .ldst (effAddr (s.tile t) y 1 m).toNat [getD (s.tile t) x]).andThen fun _ s => s.finish t (modeWords m) fun z => modeUpdate z y 1 m)

/-- LDA Ax, ea (R135, R136, R141): the loaded value is written last. -/
def execLda (t : TileId) (x : An) (y : An) (m : Mode) (s : State) : Host.Outcome State Fault Refusal :=
  .next (s.runInstr t (modeWords m) fun s =>
    (s.load32 t .ldst (effAddr (s.tile t) y 2 m).toNat).andThen fun v s => s.finish t (modeWords m) fun z => setA (modeUpdate z y 2 m) x v)

/-- The two words of a 32-bit value, low word first (R141, R150). -/
def words32 (v : W32) : List W16 := [v.setWidth 16, (v >>> 16).setWidth 16]

/-- STA Ax, ea (R135, R136, R141): the value stored is the register before the update. -/
def execSta (t : TileId) (x : An) (y : An) (m : Mode) (s : State) : Host.Outcome State Fault Refusal :=
  .next (s.runInstr t (modeWords m) fun s =>
    (s.store t .ldst (effAddr (s.tile t) y 2 m).toNat (words32 (getA (s.tile t) x))).andThen fun _ s => s.finish t (modeWords m) fun z => modeUpdate z y 2 m)

/-- LEA Ax, [Ay + d] (R141). -/
def execLea (t : TileId) (x : An) (y : An) (d : LeaDisp) (s : State) : Host.Outcome State Fault Refusal :=
  .next (match d with
    | .d16 v => s.regInstr t 2 fun z => setA z x (getA z y + v.signExtend 32)
    | .d32 v => s.regInstr t 3 fun z => setA z x (getA z y + v))

/-- Push words below A7 in one store (R141, R150). -/
def State.pushWords (s : State) (t : Nat) (ws : List W16) : Mem Unit :=
  let a := getA (s.tile t) 7 - BitVec.ofNat 32 ws.length
  (s.store t .other a.toNat ws).andThen fun _ s => .ok () (s.modTile t fun z => setA z 7 a)

/-- PUSH Dx (R141). -/
def execPush (t : TileId) (x : Dn) (s : State) : Host.Outcome State Fault Refusal :=
  .next (s.runInstr t 1 fun s => (s.pushWords t [getD (s.tile t) x]).andThen fun _ s => s.finish t 1 id)

/-- POP Dx (R141). -/
def execPop (t : TileId) (x : Dn) (s : State) : Host.Outcome State Fault Refusal :=
  .next (s.runInstr t 1 fun s =>
    (s.load16 t .other (getA (s.tile t) 7).toNat).andThen fun v s => s.finish t 1 fun z => setD (setA z 7 (getA z 7 + 1)) x v)

/-- PUSHA Ax (R136, R141): PUSHA A7 stores A7 before the decrement. -/
def execPusha (t : TileId) (x : An) (s : State) : Host.Outcome State Fault Refusal :=
  .next (s.runInstr t 1 fun s => (s.pushWords t (words32 (getA (s.tile t) x))).andThen fun _ s => s.finish t 1 id)

/-- POPA Ax (R136, R141): POPA A7 leaves A7 equal to the value loaded. -/
def execPopa (t : TileId) (x : An) (s : State) : Host.Outcome State Fault Refusal :=
  .next (s.runInstr t 1 fun s =>
    (s.load32 t .other (getA (s.tile t) 7).toNat).andThen fun v s => s.finish t 1 fun z => setA (setA z 7 (getA z 7 + 2)) x v)

end Sys2Proof.Machine
end

