-- ==== Sys2Proof/Machine/TileFlow.lean ====
section
/-! DEFINITION. Control flow of the tile core (R149, R150, R162, R163). -/

namespace Sys2Proof.Machine

/-- A conditional branch that is predicted taken when its displacement is negative. A misprediction leaves a wrong path behind (R162, R163). -/
def State.branch (s : State) (t words : Nat) (taken neg : Bool) (d : W32) : Mem (Option W32) :=
  let x := s.tile t
  let next := pcNext x words
  let target := next + d
  let s := s.modTile t fun z => perfCount 3 (swS z.sw) z
  let s := if taken = neg then s
    else (s.modTile t fun z => perfCount 4 (swS z.sw) z).wrongPath t (if neg then target.toNat else next.toNat)
  .ok (some (if taken then target else next)) s

/-- BR cc, d16 (R138, R149). -/
def execBr (t : TileId) (cc : Fin 16) (d : W16) (s : State) : Host.Outcome State Fault Refusal :=
  .next (s.runInstr t 2 fun s =>
    match condHolds (s.tile t).sw cc with
    | none => .fault 1 0 s
    | some c => s.branch t 2 c d.msb (d.signExtend 32))

/-- BRL cc, d32 (R138, R149). -/
def execBrl (t : TileId) (cc : Fin 16) (d : W32) (s : State) : Host.Outcome State Fault Refusal :=
  .next (s.runInstr t 3 fun s =>
    match condHolds (s.tile t).sw cc with
    | none => .fault 1 0 s
    | some c => s.branch t 3 c d.msb d)

/-- JMP Ay and JMP #a32 (R149). -/
def execJmp (t : TileId) (a : JumpTo) (s : State) : Host.Outcome State Fault Refusal :=
  .next (match a with
    | .reg y => s.runInstr t 1 fun s => .ok (some (getA (s.tile t) y)) s
    | .imm v => s.runInstr t 3 fun s => .ok (some v) s)

/-- CALL Ay and CALL d32 (R149, R150): the push comes first, as the table orders them, so that CALL A7 goes to A7 less 2. -/
def execCall (t : TileId) (a : JumpTo) (s : State) : Host.Outcome State Fault Refusal :=
  .next (match a with
    | .reg y => s.runInstr t 1 fun s =>
        (s.pushWords t (words32 (pcNext (s.tile t) 1))).andThen fun _ s => .ok (some (getA (s.tile t) y)) s
    | .imm d => s.runInstr t 3 fun s =>
        let next := pcNext (s.tile t) 3
        (s.pushWords t (words32 next)).andThen fun _ s => .ok (some (next + d)) s)

/-- RET (R149, R150). -/
def execRet (t : TileId) (s : State) : Host.Outcome State Fault Refusal :=
  .next (s.runInstr t 1 fun s =>
    (s.load32 t .other (getA (s.tile t) 7).toNat).andThen fun v s => .ok (some v) (s.modTile t fun z => setA z 7 (getA z 7 + 2)))

/-- LOOP Dx, d16 (R149). -/
def execLoop (t : TileId) (x : Dn) (d : W16) (s : State) : Host.Outcome State Fault Refusal :=
  .next (s.runInstr t 2 fun s =>
    let v := getD (s.tile t) x - 1
    (s.modTile t fun z => setD z x v).branch t 2 (v ≠ 0) d.msb (d.signExtend 32))

end Sys2Proof.Machine
end

