-- ==== Sys2Proof/Machine/TilePriv.lean ====
section
/-! DEFINITION. Gates, returns, NOINT windows and HALT (R176 to R179, R187, R188, R190). -/

namespace Sys2Proof.Machine

/-! ### Gates (R177, R178) -/

/-- One argument check of a gate entry (R177). -/
structure GateCheck where
  en : Bool
  p : Nat
  q : Nat
  lo : Nat
  hi : Nat
  deriving DecidableEq, Repr

/-- A 32-bit value from two words of a gate entry. -/
def entry32 (l : List W16) (i : Nat) : Nat := (l.getD i 0).toNat + 65536 * (l.getD (i + 1) 0).toNat

/-- The check that starts at word `i` of a gate entry (R177). -/
def gateCheck (l : List W16) (i : Nat) : GateCheck :=
  let w := l.getD i 0
  { en := w.getLsbD 15, p := bitsOf w.toNat 8 3, q := bitsOf w.toNat 0 4, lo := entry32 l (i + 2), hi := entry32 l (i + 4) }

/-- The entry is malformed (R178): VALID 0, a reserved bit set, or an enabled check that names A7. -/
def gateBad (l : List W16) : Bool :=
  let ctl := l.getD 2 0
  let spec : Nat → Bool := fun i => (l.getD i 0 &&& ~~~0x870F#16) ≠ 0 || ((gateCheck l i).en && (gateCheck l i).p = 7)
  !ctl.getLsbD 15 || (ctl &&& ~~~0xC700#16) ≠ 0 || l.getD 3 0 ≠ 0 || l.getD 5 0 ≠ 0 || l.getD 11 0 ≠ 0 || spec 4 || spec 10

/-- An argument check passes: LO ≤ Ap and Ap + Dq ≤ HI, without wrapping (R178). -/
def checkPasses (x : Tile) (c : GateCheck) : Bool := !c.en || (c.lo ≤ (getA x c.p).toNat && (getA x c.p).toNat + (getD x c.q).toNat ≤ c.hi)

/-- The frame of a gate call, in the order of its pushes: (address, words) (R178). -/
def gateFrame (a7 oldA7 next : W32) (sw : W16) : List (W32 × List W16) :=
  [(a7 - 2, words32 oldA7), (a7 - 4, words32 next), (a7 - 6, [sw, 0])]

/-- Make the stores of a frame; false when one must wait. -/
def State.storeAll (s : State) (t : Nat) : List (W32 × List W16) → Bool × State
  | [] => (true, s)
  | (a, ws) :: l =>
    match s.store t .other a.toNat ws with
    | .ok _ s => s.storeAll t l
    | .fault _ _ s => (false, s)
    | .stall => (false, s)

/-- The core at supervisor level, where a gate checks and makes its pushes (R178). -/
def atSup (z : Tile) : Tile := { z with sw := putBit z.sw 15 true }

/-- SW after a gate call with mask `m` (R178). -/
def gateSw (w : W16) (m : Nat) : W16 := putBit (putMask (putBit w 15 true) (Nat.max (swMask w) m)) 11 false

/-- The gate is entered (R178). -/
def State.gateEnter (s : State) (t : Nat) (l : List W16) : Mem (Option W32) :=
  let x := s.tile t
  let a7 := if swS x.sw then getA x 7 else x.priv.ssp
  let frame := gateFrame a7 (getA x 7) (pcNext x 2) x.sw
  let u := s.modTile t atSup
  match frame.findSome? fun e => u.storeFault t .other e.1.toNat 2 with
  | some (c, w) => .fault c w s
  | none => match u.storeAll t frame with
    | (false, _) => .stall
    | (true, v) =>
      .ok (some (BitVec.ofNat 32 (entry32 l 0))) (v.modTile t fun z =>
        { setA z 7 (a7 - 6) with sw := gateSw x.sw (bitsOf (l.getD 2 0).toNat 8 3), priv := { z.priv with nrem := 0 } })

/-- The lowest failing check of a gate call whose entry has been read (R178, R191). -/
def gateFault (x : Tile) (g : Nat) (l : List W16) : Option (Nat × Nat) :=
  if !swS x.sw && !(l.getD 2 0).getLsbD 14 then some (2, g)
  else if gateBad l then some (10, g)
  else if !checkPasses x (gateCheck l 4) then some (11, g)
  else if !checkPasses x (gateCheck l 10) then some (11, g + 65536)
  else none

/-- GATE #g (R178). -/
def execGate (t : TileId) (g : W16) (s : State) : Host.Outcome State Fault Refusal :=
  .next (s.runInstr t 2 fun s =>
    let x := s.tile t
    let a := x.priv.gateBase.toNat + 16 * g.toNat
    if swSB x.sw then .fault 2 g.toNat s
    else if x.priv.gateCount.toNat ≤ g.toNat || supWords x < a + 16 || s.usable t * 768 < a + 16 then .fault 10 g.toNat s
    else (s.loadWords t a 16).andThen fun l s =>
      match gateFault (s.tile t) g.toNat l with
      | some (c, w) => .fault c w s
      | none => s.gateEnter t l)

/-! ### Returns (R173, R179, R187) -/

/-- RETI with SB 0 (R179). -/
def State.retGate (s : State) (t : Nat) : Mem (Option W32) :=
  let a7 := getA (s.tile t) 7
  (s.load t .other a7.toNat 2).andThen fun l0 s => (s.load32 t .other (a7 + 2).toNat).andThen fun pc s =>
    (s.load32 t .other (a7 + 4).toNat).andThen fun a s =>
      let f := l0.getD 0 0
      .ok (some pc) (s.modTile t fun z =>
        { setA z 7 a with sw := putBit (putMask (putBit z.sw 15 (f.getLsbD 15)) (swMask f)) 11 false,
                          priv := { z.priv with xr := false, xw := false, nrem := 0 } })

/-- RETI with SB 1 (R187): SW takes SSW with NW and SB 0. -/
def State.retInterruption (s : State) (t : Nat) : Mem (Option W32) :=
  .ok (some (s.tile t).priv.spc) (s.modTile t fun z =>
    { z with sw := z.priv.ssw &&& 0xF03F, priv := { z.priv with xr := false, xw := false, nrem := 0 } })

/-- The meaning of RETI at either setting of SB (log 20). -/
def State.retiAny (s : State) (t : Nat) : State :=
  s.runInstr t 1 fun s =>
    if !swS (s.tile t).sw then .fault 2 0 s
    else if swSB (s.tile t).sw then s.retInterruption t
    else s.retGate t

/-- RETI (R179). -/
def execReti (t : TileId) (s : State) : Host.Outcome State Fault Refusal := .next (s.retiAny t)
/-- RETI from interruption (R187). -/
def execRetiInterruption (t : TileId) (s : State) : Host.Outcome State Fault Refusal := .next (s.retiAny t)

/-! ### NOINT and HALT (R188, R190) -/

/-- The window after NOINT #n: opened, shortened, or closed by n = 0 (R188). -/
def nointWindow (z : Tile) (n : Nat) : Tile :=
  let left := if swNW z.sw then Nat.min z.priv.nrem.toNat n else n
  { z with sw := putBit z.sw 11 (n ≠ 0), priv := { z.priv with nrem := BitVec.ofNat 10 left } }

/-- NOINT #n (R188). -/
def execNoint (t : TileId) (n : W16) (s : State) : Host.Outcome State Fault Refusal :=
  .next (s.runInstr t 2 fun s =>
    if 512 < n.toNat then .fault 1 0 s
    else if !swS (s.tile t).sw && !(s.tile t).priv.taskNoint then .fault 2 0 s
    else s.finish t 2 fun z => nointWindow z n.toNat)

/-- NOINT_EXPIRE (R188): the cycles of the window have passed. -/
def execNointExpire (t : TileId) (s : State) : Host.Outcome State Fault Refusal :=
  .next (if swNW (s.tile t).sw then s.modTile t fun z => { z with sw := putBit z.sw 11 false, priv := { z.priv with nrem := 0 } } else s)

/-- HALT (R190): the store buffer drains and the tile halts with SOFT, without a room fault. -/
def execHalt (t : TileId) (s : State) : Host.Outcome State Fault Refusal :=
  .next (s.runInstr t 1 fun s =>
    if !swS (s.tile t).sw then .fault 2 0 s
    else match s.drainAll t with
      | (false, _) => .stall
      | (true, s) => .ok none (s.haltTile t 0x4000))

end Sys2Proof.Machine
end

