-- ==== Sys2Proof/Machine/TileSys.lean ====
section
/-! DEFINITION. Events, time, tallies, core registers and performance counters of the tile core (R151 to R155, R159, R165 to R167, R172 to R175). -/

namespace Sys2Proof.Machine

/-! ### Waits (R152 to R154) -/

/-- The core waits in the instruction at PC, unless the tile has been stopped. -/
def State.holdIn (s : State) (t : Nat) (r : Run) : Mem (Option W32) :=
  .ok none (s.modTile t fun z => if z.run = .running then { z with run := r } else z)

/-- WAITS Dx (R152). -/
def execWaits (t : TileId) (x : Dn) (s : State) : Host.Outcome State Fault Refusal :=
  .next (s.runInstr t 1 fun s =>
    if (s.tile t).sig = 0 then s.holdIn t (.waitS x) else s.finish t 1 fun z => takeSignals z x)

/-- SIG Dx (R152): after the buffers drain, one more signal for a tile of the room. -/
def execSig (t : TileId) (x : Dn) (s : State) : Host.Outcome State Fault Refusal :=
  .next (s.runInstr t 1 fun s =>
    let u := (getD (s.tile t) x).toNat
    if 1280 ≤ u || s.tileRoom u ≠ s.tileRoom t then .fault 9 u s
    else match s.drainFull t with
      | (false, _) => .stall
      | (true, s) => (s.modTile u signalTile).finish t 1 id)

/-- WAITP [Ay] (R153). -/
def execWaitp (t : TileId) (y : An) (s : State) : Host.Outcome State Fault Refusal :=
  .next (s.runInstr t 1 fun s =>
    (s.load t .other (getA (s.tile t) y).toNat 4).andThen fun l s =>
      if posReached s.clk.pos (ofWords64 l) then s.finish t 1 id else s.holdIn t (.waitP (ofWords64 l)))

/-- WAITP_WAKE (R153): the replica reaches the awaited position. -/
def execWaitpWake (t : TileId) (s : State) : Host.Outcome State Fault Refusal :=
  .next (match (s.tile t).run with
    | .waitP p => if posReached s.clk.pos p then s.modTile t endWait else s
    | _ => s)

/-- Tally `n` lies in the ranges of the room of tile `t` (R154, R155). -/
def State.tileOwnsTally (s : State) (t n : Nat) : Bool :=
  match s.tileRoom t with
  | some r => (match (s.room r).form with | some f => formOwns f n | none => false)
  | none => false

/-- The deadline of a WAITT has passed; all ones means none (R154). -/
def State.deadlinePast (s : State) (d : W64) : Bool := d ≠ -1 && posReached s.clk.pos d

/-- WAITT Dx, [Ay] (R106, R107, R154). -/
def execWaitt (t : TileId) (x : Dn) (y : An) (s : State) : Host.Outcome State Fault Refusal :=
  .next (s.runInstr t 1 fun s =>
    (s.load t .other (getA (s.tile t) y).toNat 8).andThen fun l s =>
      let n := (getD (s.tile t) x).toNat
      let e := ofWords64 (l.take 4)
      let d := ofWords64 (l.drop 4)
      if !s.tileOwnsTally t n then .fault 7 n s
      else match s.registerWait (.tile t) n e with
        | (true, s) => s.finish t 1 fun z => { z with sw := putBit z.sw 1 true }
        | (false, s) =>
          if s.deadlinePast d then (s.dropTileWaits t).finish t 1 fun z => { z with sw := putBit z.sw 1 false }
          else if (s.tile t).run = .running then s.holdIn t (.waitT n e d)
          else s.dropTileWaits t |>.holdIn t (.waitT n e d))

/-- WAITT_DEADLINE (R107): the replica reaches the deadline before the condition holds, and the wait ends with Z 0. -/
def execWaittDeadline (t : TileId) (s : State) : Host.Outcome State Fault Refusal :=
  .next (match (s.tile t).run with
    | .waitT _ _ d =>
      if s.deadlinePast d then (s.dropTileWaits t).modTile t fun z => endWait { z with sw := putBit z.sw 1 false } else s
    | _ => s)

/-! ### Tallies, position, DMA (R151, R155, R293) -/

/-- TADV Dx, b (R95, R97, R101, R155). A refused advance is recorded with SOURCE 0. -/
def execTadv (t : TileId) (x : Dn) (b : Src) (s : State) : Host.Outcome State Fault Refusal :=
  .next (s.runInstr t (srcWords b) fun s =>
    let n := (getD (s.tile t) x).toNat
    let a := (srcVal (s.tile t) b).toNat
    match s.tileRoom t with
    | none => .fault 7 n s
    | some r => match s.advanceCheck r n a with
      | 0 => match s.drainFull t with
        | (false, _) => .stall
        | (true, s) => (s.issueAdvance r n a 0).finish t (srcWords b) id
      | c => .fault (if c = 1 then 7 else 8) n (s.refuseAdvance r c 0 n))

/-- TRD Dx, [Ay] (R155). -/
def execTrd (t : TileId) (x : Dn) (y : An) (s : State) : Host.Outcome State Fault Refusal :=
  .next (s.runInstr t 1 fun s =>
    let n := (getD (s.tile t) x).toNat
    let a := (getA (s.tile t) y).toNat
    match s.storeFault t .other a 4 with
    | some (c, w) => .fault c w s
    | none =>
      if !s.tileOwnsTally t n then .fault 7 n (match s.tileRoom t with | some r => s.tallyErrRec r 1 0 n | none => s)
      else (s.store t .other a (words64 (s.tally n))).andThen fun _ s => s.finish t 1 id)

/-- RDPOS [Ay] (R151). -/
def execRdpos (t : TileId) (y : An) (s : State) : Host.Outcome State Fault Refusal :=
  .next (s.runInstr t 1 fun s => (s.store t .other (getA (s.tile t) y).toNat (words64 s.clk.pos)).andThen fun _ s => s.finish t 1 id)

/-- Tile channel `n` of tile `t` (R284). -/
def tileChan (t n : Nat) : ChanRef := .tile (toQuire (tileQuire t)) (Fin.ofNat 32 (2 * tileIndex t + n))

/-- DMAGO Dx, Ay (R285, R290, R293). -/
def execDmago (t : TileId) (x : Dn) (y : An) (s : State) : Host.Outcome State Fault Refusal :=
  .next (s.runInstr t 1 fun s =>
    let n := (getD (s.tile t) x).toNat
    let a := (getA (s.tile t) y).toNat
    let task := !swS (s.tile t).sw
    if 1 < n || !chanIdle (s.chan (tileChan t n)) || !s.descAddrOk (tileChan t n) a task then .fault 12 n s
    else match s.drainFull t with
      | (false, _) => .stall
      | (true, s) => (s.dmaStart (tileChan t n) a task).2.finish t 1 id)

/-- FENCE (R159, R197, R262). -/
def execFence (t : TileId) (s : State) : Host.Outcome State Fault Refusal :=
  .next (s.runInstr t 1 fun s => match s.drainFull t with
    | (false, _) => .stall
    | (true, s) => s.finish t 1 id)

/-- ICINV [Ay] (R151): the line that holds Ay leaves the instruction cache. -/
def execIcinv (t : TileId) (y : An) (s : State) : Host.Outcome State Fault Refusal :=
  .next (s.regInstr t 1 fun z => { z with icLine := z.icLine.filter fun e => e.2 ≠ some ((getA z y).toNat / 32) })

/-- ICINV ALL (R151). -/
def execIcinvAll (t : TileId) (s : State) : Host.Outcome State Fault Refusal :=
  .next (s.regInstr t 1 fun z => { z with icLine := [] })

/-! ### Status word (R128) -/

/-- MFSW Dx (R151). -/
def execMfsw (t : TileId) (x : Dn) (s : State) : Host.Outcome State Fault Refusal :=
  .next (s.regInstr t 1 fun z => setD z x z.sw)

/-- SW as MTSW writes it: bits 5:0, and at supervisor level 14:12 as well (R128). -/
def mtsw (w v : W16) : W16 := let m : W16 := if swS w then 0x703F else 0x003F; (w &&& ~~~m) ||| (v &&& m)

/-- MTSW Dy (R128). -/
def execMtsw (t : TileId) (y : Dn) (s : State) : Host.Outcome State Fault Refusal :=
  .next (s.regInstr t 1 fun z => { z with sw := mtsw z.sw (getD z y) })

/-! ### Core registers (R165 to R167, R172, R173) -/

/-- The core register number exists (R165, R172). -/
def crExists (cr : Nat) : Bool :=
  cr = 0 || cr = 1 || cr = 4 || (8 ≤ cr && cr < 0xC) || (0x10 ≤ cr && cr < 0x31) || (0x32 ≤ cr && cr < 0x3F)

/-- Task level may read the register (R165). -/
def crTaskRead (x : Tile) (cr : Nat) : Bool := cr = 0 || cr = 1 || 0x1C ≤ cr && cr < 0x20 || (x.perf.taskRead && 0x10 ≤ cr && cr < 0x1C)

/-- Half `h` of a 32-bit register. -/
def half32 (v : W32) (h : Nat) : W16 := BitVec.ofNat 16 (v.toNat / 2 ^ (16 * h))
/-- A 32-bit register with half `h` written. -/
def putHalf (v : W32) (h : Nat) (w : W16) : W32 := BitVec.ofNat 32 (setBits v.toNat (16 * h) 16 w.toNat)

/-- PERF_CTL as it reads (R166). -/
def perfCtl (p : Perf) : W16 := BitVec.ofNat 16 (bit p.en + 2 * bit p.taskRead + 16 * bit p.noSup + 256 * p.ovf.toNat)

/-- The content of a core register that is held in the tile (R165, R172, R173). -/
def crValue (x : Tile) (cr : Nat) : W16 :=
  let p := x.priv
  match cr with
  | 0x04 => perfCtl x.perf
  | 0x20 => BitVec.ofNat 16 (bit p.xr + 2 * bit p.xw + 4 * bit p.taskNoint)
  | 0x22 => half32 p.gateBase 0
  | 0x23 => half32 p.gateBase 1
  | 0x24 => p.gateCount
  | 0x25 => p.supBlocks
  | 0x26 => half32 p.ssp 0
  | 0x27 => half32 p.ssp 1
  | 0x28 => half32 p.vecBase 0
  | 0x29 => half32 p.vecBase 1
  | 0x2A => p.irqPend
  | 0x2B => p.irqEn
  | 0x30 => p.fltCode
  | 0x32 => half32 p.fltPc 0
  | 0x33 => half32 p.fltPc 1
  | 0x34 => half32 p.fltAddr 0
  | 0x35 => half32 p.fltAddr 1
  | 0x36 => half32 p.spc 0
  | 0x37 => half32 p.spc 1
  | 0x38 => p.ssw
  | 0x39 => p.haltCause
  | 0x3A => half32 p.launchAddr 0
  | 0x3B => half32 p.launchAddr 1
  | 0x3C => BitVec.ofNat 16 (bit p.launchPend)
  | 0x3D => half32 p.haltPc 0
  | 0x3E => half32 p.haltPc 1
  | _ =>
    if 8 ≤ cr && cr < 0xC then (Tbl.get 0 x.perf.sel (cr - 8)).setWidth 16
    else if 0x2C ≤ cr && cr < 0x30 then Tbl.get 0 p.irqLevel (cr - 0x2C)
    else 0

/-- A read of core register `cr`. Reads of a counter's lowest word latch its higher words (R167); NREM is what is left of an open window, a free value in its bound (R173; log 7). -/
def State.crRead (s : State) (t cr : Nat) : W16 × State :=
  let x := s.tile t
  if cr = 0 then (BitVec.ofNat 16 t, s)
  else if cr = 1 then (BitVec.ofNat 16 ((s.tileRoom t).getD 0), s)
  else if cr = 0x21 then
    let n := x.priv.nrem.toNat
    if n = 0 then (BitVec.ofNat 16 (1024 * bit x.priv.launchPend), s)
    else (BitVec.ofNat 16 (1024 * bit x.priv.launchPend + 1 + (s.freeVal 16).toNat % n), s.spend)
  else if 0x10 ≤ cr && cr < 0x1C then
    let n := (cr - 0x10) / 3
    let k := (cr - 0x10) % 3
    if k = 0 then
      let v := Tbl.get 0 x.perf.cnt n
      (v.setWidth 16, s.modTile t fun z => { z with perf := { z.perf with cntHi := Tbl.put 0 z.perf.cntHi n ((v >>> 16).setWidth 32) } })
    else (half32 (Tbl.get 0 x.perf.cntHi n) (k - 1), s)
  else if cr = 0x1C then
    let v := x.perf.cycles + (s.freeVal 48).setWidth 64
    (v.setWidth 16, (s.modTile t fun z => { z with perf := { z.perf with cycles := v, cyclesHi := (v >>> 16).setWidth 48 } }).spend)
  else if 0x1D ≤ cr && cr < 0x20 then (BitVec.ofNat 16 (x.perf.cyclesHi.toNat / 2 ^ (16 * (cr - 0x1D))), s)
  else (crValue x cr, s)

/-- A write of a privilege register (R172, R173, R175, R181). Read-only registers and bits ignore it. -/
def crWritePriv (p : Priv) (cr : Nat) (v : W16) : Priv :=
  match cr with
  | 0x20 => { p with xr := v.getLsbD 0, xw := v.getLsbD 1, taskNoint := v.getLsbD 2 }
  | 0x22 => { p with gateBase := putHalf p.gateBase 0 v }
  | 0x23 => { p with gateBase := putHalf p.gateBase 1 v }
  | 0x24 => { p with gateCount := v }
  | 0x25 => { p with supBlocks := v }
  | 0x26 => { p with ssp := putHalf p.ssp 0 v }
  | 0x27 => { p with ssp := putHalf p.ssp 1 v }
  | 0x28 => { p with vecBase := putHalf p.vecBase 0 v }
  | 0x29 => { p with vecBase := putHalf p.vecBase 1 v }
  | 0x2A => { p with irqPend := p.irqPend &&& ~~~v }
  | 0x2B => { p with irqEn := v }
  | 0x36 => { p with spc := putHalf p.spc 0 v }
  | 0x37 => { p with spc := putHalf p.spc 1 v }
  | 0x38 => { p with ssw := v }
  | 0x3C => if v.getLsbD 1 then { p with launchPend := false } else p
  | _ => if 0x2C ≤ cr && cr < 0x30 then { p with irqLevel := Tbl.put 0 p.irqLevel (cr - 0x2C) (v &&& 0x7777) } else p

/-- A write of core register `cr` (R165 to R167, R172). -/
def State.crWrite (s : State) (t cr : Nat) (v : W16) : State :=
  if cr = 4 then
    s.modTile t fun z =>
      { z with perf := { z.perf with en := v.getLsbD 0, taskRead := v.getLsbD 1, noSup := v.getLsbD 4, ovf := z.perf.ovf &&& ~~~((v >>> 8).setWidth 4) } }
  else if 8 ≤ cr && cr < 0xC then
    s.modTile t fun z => { z with perf := { z.perf with sel := Tbl.put 0 z.perf.sel (cr - 8) (v.setWidth 5) } }
  else if 0x10 ≤ cr && cr < 0x1C then
    let n := (cr - 0x10) / 3
    s.modTile t fun z =>
      { z with perf := { z.perf with cnt := Tbl.put 0 z.perf.cnt n (BitVec.ofNat 48 (setBits (Tbl.get 0 z.perf.cnt n).toNat (16 * ((cr - 0x10) % 3)) 16 v.toNat)) } }
  else s.modTile t fun z => { z with priv := crWritePriv z.priv cr v }

/-- MFCR Dx, #cr (R165, R172). -/
def execMfcr (t : TileId) (x : Dn) (cr : Fin 64) (s : State) : Host.Outcome State Fault Refusal :=
  .next (s.runInstr t 2 fun s =>
    if !crExists cr then .fault 1 0 s
    else if !swS (s.tile t).sw && !crTaskRead (s.tile t) cr then .fault 2 cr s
    else let (v, s) := s.crRead t cr; s.finish t 2 fun z => setD z x v)

/-- The meaning of MTCR on register `cr` (R165, R172). -/
def State.mtcr (s : State) (t cr : Nat) (y : Dn) : State :=
  s.runInstr t 2 fun s =>
    if !crExists cr then .fault 1 0 s
    else if !swS (s.tile t).sw then .fault 2 cr s
    else (s.crWrite t cr (getD (s.tile t) y)).finish t 2 id

/-- MTCR #cr, Dy (R165). -/
def execMtcr (t : TileId) (cr : Fin 64) (y : Dn) (s : State) : Host.Outcome State Fault Refusal := .next (s.mtcr t cr y)

/-- TAKE (R175): MTCR to LAUNCH_CTL; a 1 in bit 1 takes the pending launch. -/
def execTake (t : TileId) (y : Dn) (s : State) : Host.Outcome State Fault Refusal := .next (s.mtcr t 0x3C y)

/-- PERF (R167): a counter of cycles passes 2^48 - 1, at a level that counts. Counters of instructions wrap with the instruction. -/
def execPerf (t : TileId) (n : Fin 4) (s : State) : Host.Outcome State Fault Refusal :=
  .next (let x := s.tile t
    if x.perf.en && !(swS x.sw && x.perf.noSup) && cycleEvent (Tbl.get 0 x.perf.sel n).toNat then s.setTile t (perfWrap x n 0) else s)

end Sys2Proof.Machine
end

