-- ==== Sys2Proof/Machine/Vector.lean ====
section
/-! DEFINITION. The vector instructions (R199 to R204, R230 to R242). -/

namespace Sys2Proof.Machine

/-! ### Operands -/

/-- How a vector function uses its fields (R199, R201). -/
structure VShape where
  /-- The types it takes: all, integer, or TY 0 to 2. -/
  types : Nat
  useB : Bool
  useC : Bool
  /-- A row is written. -/
  write : Bool
  deriving DecidableEq, Repr

/-- Lanes of TY (R200). -/
def lanesOf (ty : Nat) : Nat := if ty < 3 then 32 else if ty < 5 then 16 else 8
/-- Bits of a lane. -/
def laneBits (ty : Nat) : Nat := 512 / lanesOf ty

/-- The lane type of TY; codes 6 and 7 are refused at issue. -/
def tyNum (ty : Nat) : Num := (laneType ty).getD (.int 16 true)

/-- IXM indexes Va, Vb, Vc and Vd (R199). -/
def ixA (v : VOps) : Bool := v.ixm = 3
def ixBC (v : VOps) : Bool := v.ixm = 2 || v.ixm = 3
def ixD (v : VOps) : Bool := v.ixm ≠ 0

/-- FLT_ADDR of XU_FORMAT for a vector instruction (R222). -/
def vfmtAddr (fn : Nat) (v : VOps) : Nat := fn + 256 * v.ty.val

/-- The lane `k` of a row. -/
def lane (row w k : Nat) : Nat := bitsOf row (w * k) w

/-- The row of lanes, lane 0 lowest. -/
def packLanes (w : Nat) (l : List Nat) : Nat := l.foldr (fun v n => v % 2 ^ w + 2 ^ w * n) 0

/-- A vector instruction has its effect: read the rows its shape uses, compute the new bytes of its row, LMASK and flags, write, count, and step XU_RIX (R199, R211, R215). It writes `n` bytes of the row from byte `o`, whole granules, and leaves the others as they are. -/
def State.vecRunPart (s : State) (t : Nat) (sh : VShape) (v : VOps) (o n : Nat) (f : Xu → Nat → Nat → Nat → Nat × W32 × W16) : State :=
  let x := (s.tile t).xu
  let ra := rowAt x (ixA v) v.va
  let rb := rowAt x (ixBC v && sh.useB) v.vb
  let rc := rowAt x (ixBC v && sh.useC) v.vc
  let rd := rowAt x (ixD v) v.vd
  let reads := [(Coll.a, ra)] ++ (if sh.useB then [(Coll.b, rb)] else []) ++ (if sh.useC then [(Coll.c, rc)] else [])
  let extra := extraReads x reads
  let r : Run1 := { s := s, bad := [] }
  let (a, r) := r.operand t .a ra
  let (b, r) := if sh.useB then r.operand t .b rb else (0, r)
  let (c, r) := if sh.useC then r.operand t .c rc else (0, r)
  let (out, mask, fl) := f x a b c
  let s := r.s.unitFlags t fl
  let s := if sh.write then (s.putXr t (64 * rd + o) (leBytes n out)).modXu t fun x => forgetRow x rd else s.modXu t fun x => { x with lmask := mask }
  let s := s.modXu t fun x => if x.ctl.getLsbD 4 && v.ixm ≠ 0 then { x with rix := x.rix + 1 } else x
  Run1.close { r with s := s.unitCycles t extra } t

/-- A vector instruction that writes whole rows. -/
def State.vecRun (s : State) (t : Nat) (sh : VShape) (v : VOps) (f : Xu → Nat → Nat → Nat → Nat × W32 × W16) : State := s.vecRunPart t sh v 0 64 f

/-- The checks of a vector instruction at issue (R134, R199 to R201): ILLEGAL_OP for a reserved type, an unused field or `bad`, then XU_FORMAT for a type the function does not take or `fmt`. -/
def vecCheck (fn : Nat) (sh : VShape) (v : VOps) (bad fmt : Bool) (s : State) : Mem Unit :=
  if 5 < v.ty.val || bad then .fault 1 0 s
  else if (sh.types = 1 && v.ty ≠ 0 && v.ty ≠ 3) || (sh.types = 2 && 2 < v.ty.val) || fmt then .fault 16 (vfmtAddr fn v) s
  else .ok () s

/-- The unused fields of a function of plain shape are 0 (R134, R201). -/
def vecUnused (sh : VShape) (v : VOps) : Bool := (!sh.useB && v.vb ≠ 0) || (!sh.useC && v.vc ≠ 0) || (!sh.write && v.vd ≠ 0)

/-- A lane-by-lane function: from the lanes of a, b and c to the lane of d and flags. -/
def State.vecLanes (s : State) (t fn : Nat) (sh : VShape) (v : VOps) (g : Xu → Nat → Nat → Nat → Nat → Nat × W16) : State :=
  s.unitInstr t 3 (vecCheck fn sh v (vecUnused sh v) false) fun _ s =>
    s.vecRun t sh v fun x a b c =>
      let w := laneBits v.ty
      let l := (List.range (lanesOf v.ty)).map fun k => g x k (lane a w k) (lane b w k) (lane c w k)
      (packLanes w (l.map fun e => e.1), x.lmask, (l.map fun e => e.2).foldl (fun m f => m ||| f) 0)

def shBin : VShape := ⟨0, true, false, true⟩
def shUn : VShape := ⟨0, false, false, true⟩
def shTri : VShape := ⟨0, true, true, true⟩
def shShift : VShape := ⟨1, true, false, true⟩
def shCmp : VShape := ⟨0, true, false, false⟩

/-! ### Lane arithmetic (R201, R234) -/

/-- Round a float result with the flags met before it. -/
def roundLane (x : Xu) (f : Fmt) (v : Val) (fl : W16) : Nat × W16 :=
  let (b, g) := encodeF f (xuRm x) false v
  (b, fl ||| g)

/-- a + b of a lane type (R201, R234). -/
def laneAdd (x : Xu) (n : Num) (a b : Nat) : Nat × W16 :=
  match n with
  | .int w _ => ((a + b) % 2 ^ w, 0)
  | .flt f => let (v, g) := addVal (xuRm x) (decodeF f a) (decodeF f b); roundLane x f v g

/-- a - b. -/
def laneSub (x : Xu) (n : Num) (a b : Nat) : Nat × W16 :=
  match n with
  | .int w _ => ((a + 2 ^ w - b % 2 ^ w) % 2 ^ w, 0)
  | .flt f => let (v, g) := addVal (xuRm x) (decodeF f a) (negVal (decodeF f b)); roundLane x f v g

/-- a * b; integers keep the low half. -/
def laneMul (x : Xu) (n : Num) (a b : Nat) : Nat × W16 :=
  match n with
  | .int w _ => (a * b % 2 ^ w, 0)
  | .flt f => let (v, g) := mulVal (decodeF f a) (decodeF f b); roundLane x f v g

/-- a * b + c, rounded once. -/
def laneFma (x : Xu) (n : Num) (a b c : Nat) : Nat × W16 :=
  match n with
  | .int w _ => ((a * b + c) % 2 ^ w, 0)
  | .flt f =>
    let (p, g) := mulVal (decodeF f a) (decodeF f b)
    let (v, h) := addVal (xuRm x) p (decodeF f c)
    roundLane x f v (g ||| h)

/-- a < b for floats that are no NaN, -0 below +0 (R234). -/
def fltBelow (x y : Val) : Bool :=
  match cmpVal x y with
  | .lt => true
  | .gt => false
  | .eq => x.isNeg && !y.isNeg

/-- The lesser (`least`) or greater of a and b (R201, R234). -/
def laneMinMax (n : Num) (least : Bool) (a b : Nat) : Nat × W16 :=
  match n with
  | .int w sg => (if decide (intOf w sg b < intOf w sg a) = least then b else a, 0)
  | .flt f =>
    let x := decodeF f a
    let y := decodeF f b
    if x.isNan || y.isNan then (canonNan f, x.nv ||| y.nv)
    else (if fltBelow y x = least then b else a, 0)

/-- |a|; the most negative integer gives the largest positive value and sets ISAT (R201). -/
def laneAbs (n : Num) (a : Nat) : Nat × W16 :=
  match n with
  | .int w sg => if a = 2 ^ (w - 1) then (2 ^ (w - 1) - 1, flagISAT) else ((intOf w sg a).natAbs, 0)
  | .flt f => (a % 2 ^ (f.e + f.m), 0)

/-- -a; a float flips its sign bit. -/
def laneNeg (n : Num) (a : Nat) : Nat × W16 :=
  match n with
  | .int w _ => ((2 ^ w - a) % 2 ^ w, 0)
  | .flt f => (a ^^^ 2 ^ (f.e + f.m), 0)

/-- A comparison: equal, below, or either (R201, R234). -/
def laneCmp (n : Num) (below eq : Bool) (a b : Nat) : Bool × W16 :=
  match n with
  | .int w sg => ((below && intOf w sg a < intOf w sg b) || (eq && a = b), 0)
  | .flt f =>
    let x := decodeF f a
    let y := decodeF f b
    if x.isNan || y.isNan then (false, x.nv ||| y.nv)
    else ((match cmpVal x y with | .lt => below | .eq => eq | .gt => false), 0)

/-- VADD (R201). -/
def execVadd (t : TileId) (v : VOps) (s : State) : Host.Outcome State Fault Refusal :=
  .next (s.vecLanes t 0 shBin v fun x _ a b _ => laneAdd x (tyNum v.ty) a b)
/-- VSUB (R201). -/
def execVsub (t : TileId) (v : VOps) (s : State) : Host.Outcome State Fault Refusal :=
  .next (s.vecLanes t 1 shBin v fun x _ a b _ => laneSub x (tyNum v.ty) a b)
/-- VMUL (R201). -/
def execVmul (t : TileId) (v : VOps) (s : State) : Host.Outcome State Fault Refusal :=
  .next (s.vecLanes t 2 shBin v fun x _ a b _ => laneMul x (tyNum v.ty) a b)
/-- VFMA (R201). -/
def execVfma (t : TileId) (v : VOps) (s : State) : Host.Outcome State Fault Refusal :=
  .next (s.vecLanes t 3 shTri v fun x _ a b c => laneFma x (tyNum v.ty) a b c)
/-- VMIN (R201). -/
def execVmin (t : TileId) (v : VOps) (s : State) : Host.Outcome State Fault Refusal :=
  .next (s.vecLanes t 4 shBin v fun _ _ a b _ => laneMinMax (tyNum v.ty) true a b)
/-- VMAX (R201). -/
def execVmax (t : TileId) (v : VOps) (s : State) : Host.Outcome State Fault Refusal :=
  .next (s.vecLanes t 5 shBin v fun _ _ a b _ => laneMinMax (tyNum v.ty) false a b)
/-- VABS (R201, R233). -/
def execVabs (t : TileId) (v : VOps) (s : State) : Host.Outcome State Fault Refusal :=
  .next (s.vecLanes t 6 shUn v fun _ _ a _ _ => laneAbs (tyNum v.ty) a)
/-- VNEG (R201, R233). -/
def execVneg (t : TileId) (v : VOps) (s : State) : Host.Outcome State Fault Refusal :=
  .next (s.vecLanes t 7 shUn v fun _ _ a _ _ => laneNeg (tyNum v.ty) a)
/-- VAND (R201). -/
def execVand (t : TileId) (v : VOps) (s : State) : Host.Outcome State Fault Refusal :=
  .next (s.vecLanes t 8 shBin v fun _ _ a b _ => (a &&& b, 0))
/-- VOR (R201). -/
def execVor (t : TileId) (v : VOps) (s : State) : Host.Outcome State Fault Refusal :=
  .next (s.vecLanes t 9 shBin v fun _ _ a b _ => (a ||| b, 0))
/-- VXOR (R201). -/
def execVxor (t : TileId) (v : VOps) (s : State) : Host.Outcome State Fault Refusal :=
  .next (s.vecLanes t 10 shBin v fun _ _ a b _ => (a ^^^ b, 0))
/-- VSHL (R201). -/
def execVshl (t : TileId) (v : VOps) (s : State) : Host.Outcome State Fault Refusal :=
  .next (s.vecLanes t 11 shShift v fun _ _ a b _ => (a * 2 ^ (b % laneBits v.ty) % 2 ^ laneBits v.ty, 0))
/-- VSHR (R201). -/
def execVshr (t : TileId) (v : VOps) (s : State) : Host.Outcome State Fault Refusal :=
  .next (s.vecLanes t 12 shShift v fun _ _ a b _ => (a / 2 ^ (b % laneBits v.ty), 0))
/-- VSAR (R201). -/
def execVsar (t : TileId) (v : VOps) (s : State) : Host.Outcome State Fault Refusal :=
  .next (s.vecLanes t 13 shShift v fun _ _ a b _ =>
    (intBits (laneBits v.ty) (intOf (laneBits v.ty) true a / 2 ^ (b % laneBits v.ty)), 0))

/-! ### Lane mask (R201) -/

/-- A comparison writes LMASK and no row (R201). -/
def State.vecCmp (s : State) (t fn : Nat) (v : VOps) (below eq : Bool) : State :=
  s.unitInstr t 3 (vecCheck fn shCmp v (vecUnused shCmp v) false) fun _ s =>
    s.vecRun t shCmp v fun _ a b _ =>
      let w := laneBits v.ty
      let l := (List.range (lanesOf v.ty)).map fun k => laneCmp (tyNum v.ty) below eq (lane a w k) (lane b w k)
      (0, BitVec.ofNat 32 (packLanes 1 (l.map fun e => bit e.1)), (l.map fun e => e.2).foldl (fun m f => m ||| f) 0)

/-- VCMPEQ (R201). -/
def execVcmpeq (t : TileId) (v : VOps) (s : State) : Host.Outcome State Fault Refusal := .next (s.vecCmp t 14 v false true)
/-- VCMPLT (R201). -/
def execVcmplt (t : TileId) (v : VOps) (s : State) : Host.Outcome State Fault Refusal := .next (s.vecCmp t 15 v true false)
/-- VCMPLE (R201). -/
def execVcmple (t : TileId) (v : VOps) (s : State) : Host.Outcome State Fault Refusal := .next (s.vecCmp t 16 v true true)

/-- VSEL (R201). -/
def execVsel (t : TileId) (v : VOps) (s : State) : Host.Outcome State Fault Refusal :=
  .next (s.vecLanes t 17 shBin v fun x k a b _ => (if x.lmask.getLsbD k then a else b, 0))

/-! ### Moves and sums -/

/-- VMOV (R201). -/
def execVmov (t : TileId) (v : VOps) (s : State) : Host.Outcome State Fault Refusal :=
  .next (s.vecLanes t 18 shUn v fun _ _ a _ _ => (a, 0))

/-- VBCAST (R201): Vb[4:0] is the lane. -/
def execVbcast (t : TileId) (v : VOps) (s : State) : Host.Outcome State Fault Refusal :=
  .next (s.unitInstr t 3 (vecCheck 19 shUn v (31 < v.vb.val || v.vc ≠ 0) (lanesOf v.ty ≤ v.vb.val)) fun _ s =>
    s.vecRun t shUn v fun x a _ _ =>
      let w := laneBits v.ty
      (packLanes w (List.replicate (lanesOf v.ty) (lane a w v.vb)), x.lmask, 0))

/-- One level of the VSUM tree: neighbours are added in pairs (R202). -/
def sumLevel (x : Xu) (n : Num) : List Nat → List Nat × W16
  | a :: b :: l =>
    let (v, f) := laneAdd x n a b
    let (r, g) := sumLevel x n l
    (v :: r, f ||| g)
  | l => (l, 0)

/-- The VSUM tree, `k` levels (R202). -/
def sumTree (x : Xu) (n : Num) : Nat → List Nat → W16 → Nat × W16
  | 0, l, f => (l.headD 0, f)
  | k + 1, l, f => let (r, g) := sumLevel x n l; sumTree x n k r (f ||| g)

/-- VSUM (R201, R202). -/
def execVsum (t : TileId) (v : VOps) (s : State) : Host.Outcome State Fault Refusal :=
  .next (s.unitInstr t 3 (vecCheck 20 shUn v (vecUnused shUn v) false) fun _ s =>
    s.vecRun t shUn v fun x a _ _ =>
      let w := laneBits v.ty
      let (r, f) := sumTree x (tyNum v.ty) (Nat.log2 (lanesOf v.ty)) ((List.range (lanesOf v.ty)).map fun k => lane a w k) 0
      (r % 2 ^ w, x.lmask, f))

/-! ### Conversions (R203, R235 to R241) -/

/-- Convert lanes `i` to `i + n - 1` of a row. -/
def convLanes (x : Xu) (src dst : Num) (row i n : Nat) : List (Nat × W16) :=
  (List.range n).map fun k => convert (xuRm x) (xuSat x) src dst (lane row src.width (i + k))

/-- VCVT narrows: rows a and b fill the halves of d. Lanes that the manual does not give a value are free (R203, log 3). -/
def cvtNarrow (x : Xu) (st dt : Nat) (a b free : Nat) : List (Nat × W16) :=
  let half := lanesOf dt / 2
  let part : Nat → Nat → List (Nat × W16) := fun row o =>
    convLanes x (tyNum st) (tyNum dt) row 0 (lanesOf st) ++
      (List.range (half - lanesOf st)).map fun k => (lane free (laneBits dt) (o + lanesOf st + k), 0)
  part a 0 ++ part b half

/-- VCVT (R203, R235): from type Vc[2:0] to TY. -/
def execVcvt (t : TileId) (v : VOps) (s : State) : Host.Outcome State Fault Refusal :=
  .next (let st := v.vc.val % 8
    let hi := v.vc.val / 8 % 2
    let wider := lanesOf v.ty < lanesOf st
    let narrower := lanesOf st < lanesOf v.ty
    let sh : VShape := ⟨0, narrower, false, true⟩
    s.unitInstr t 3 (vecCheck 21 sh v (5 < st || 15 < v.vc.val || (!wider && hi = 1) || (!narrower && v.vb ≠ 0)) false) fun _ s =>
      let free := (s.freeVal 512).toNat
      (if 2 * lanesOf st < lanesOf v.ty then s.spend else s).vecRun t sh v fun x a b _ =>
        let l := if narrower then cvtNarrow x st v.ty a b free
          else convLanes x (tyNum st) (tyNum v.ty) a (if hi = 1 then lanesOf v.ty else 0) (lanesOf v.ty)
        (packLanes (laneBits v.ty) (l.map fun e => e.1), x.lmask, (l.map fun e => e.2).foldl (fun m f => m ||| f) 0))

/-- The checks of VPACK and VUNPK (R203, R241). -/
def packCheck (fn : Nat) (v : VOps) (s : State) : Mem Unit :=
  let code := v.vc.val
  vecCheck fn ⟨2, false, false, true⟩ v (11 < code || 3 < v.vb.val || (codeStep code = 8 && 1 < v.vb.val)) (code < 3 || code = 11) s

/-- VPACK (R201, R203, R241): the bytes of its part alone are written. -/
def execVpack (t : TileId) (v : VOps) (s : State) : Host.Outcome State Fault Refusal :=
  .next (s.unitInstr t 3 (packCheck 22 v) fun _ s =>
    let step := codeStep v.vc
    s.vecRunPart t shUn v (4 * step * v.vb) (4 * step) fun x a _ _ =>
      let l := convLanes x (tyNum v.ty) ((codeNum v.vc).getD (.int 8 true)) a 0 32
      (packLanes step (l.map fun e => e.1), x.lmask, (l.map fun e => e.2).foldl (fun m f => m ||| f) 0))

/-- VUNPK (R201, R203, R241). -/
def execVunpk (t : TileId) (v : VOps) (s : State) : Host.Outcome State Fault Refusal :=
  .next (s.unitInstr t 3 (packCheck 23 v) fun _ s =>
    s.vecRun t shUn v fun x a _ _ =>
      let step := codeStep v.vc
      let src := (codeNum v.vc).getD (.int 8 true)
      let l := (List.range 32).map fun k => convert (xuRm x) (xuSat x) src (tyNum v.ty) (lane a step (32 * v.vb + k) % 2 ^ src.width)
      (packLanes 16 (l.map fun e => e.1), x.lmask, (l.map fun e => e.2).foldl (fun m f => m ||| f) 0))

end Sys2Proof.Machine
end

