-- ==== Sys2Proof/Machine/Dispatch.lean ====
section
/-! DEFINITION. What each command does: one arm per constructor. -/

namespace Sys2Proof.Machine

def exec (i : Instr) (s : State) : Host.Outcome State Fault Refusal :=
  match i with
  | .registerWrite w off size v => Sys2Proof.Machine.execRegisterWrite w off size v s
  | .lowHalfRead f off size => Sys2Proof.Machine.execLowHalfRead f off size s
  | .bar0LowHalfWrite f off v => Sys2Proof.Machine.execBar0LowHalfWrite f off v s
  | .bar0HighHalfWrite f off v => Sys2Proof.Machine.execBar0HighHalfWrite f off v s
  | .positionTick => Sys2Proof.Machine.execPositionTick s
  | .sourcePresent src fmt => Sys2Proof.Machine.execSourcePresent src fmt s
  | .sourceLost src => Sys2Proof.Machine.execSourceLost src s
  | .formatChange fmt => Sys2Proof.Machine.execFormatChange fmt s
  | .lockGained frame line tick sincePtp => Sys2Proof.Machine.execLockGained frame line tick sincePtp s
  | .step p offsetNs => Sys2Proof.Machine.execStep p offsetNs s
  | .stepTo r p => Sys2Proof.Machine.execStepTo r p s
  | .disagree src offsetNs => Sys2Proof.Machine.execDisagree src offsetNs s
  | .disagreeClear src offsetNs => Sys2Proof.Machine.execDisagreeClear src offsetNs s
  | .switchToSecondary offsetNs => Sys2Proof.Machine.execSwitchToSecondary offsetNs s
  | .revertToPrimary offsetNs => Sys2Proof.Machine.execRevertToPrimary offsetNs s
  | .aged => Sys2Proof.Machine.execAged s
  | .ptpSync port m offsetNs => Sys2Proof.Machine.execPtpSync port m offsetNs s
  | .syncWordSend p txTs => Sys2Proof.Machine.execSyncWordSend p txTs s
  | .syncWord p h payload tRx stepTo => Sys2Proof.Machine.execSyncWord p h payload tRx stepTo s
  | .keeperLost => Sys2Proof.Machine.execKeeperLost s
  | .candidacy p dev epoch => Sys2Proof.Machine.execCandidacy p dev epoch s
  | .electionClose => Sys2Proof.Machine.execElectionClose s
  | .cueArm w c ctl => Sys2Proof.Machine.execCueArm w c ctl s
  | .cueDisarm w c ctl => Sys2Proof.Machine.execCueDisarm w c ctl s
  | .armDeviceCue r index pos addr ctl tgt => Sys2Proof.Machine.execArmDeviceCue r index pos addr ctl tgt s
  | .disarmDeviceCue r index => Sys2Proof.Machine.execDisarmDeviceCue r index s
  | .advanceTally c => Sys2Proof.Machine.execAdvanceTally c s
  | .startDma c => Sys2Proof.Machine.execStartDma c s
  | .launchTask c => Sys2Proof.Machine.execLaunchTask c s
  | .glazeCommit c => Sys2Proof.Machine.execGlazeCommit c s
  | .repartition c => Sys2Proof.Machine.execRepartition c s
  | .haltAtCueBoundary room => Sys2Proof.Machine.execHaltAtCueBoundary room s
  | .tallyAdv f tally v => Sys2Proof.Machine.execTallyAdv f tally v s
  | .tallyAdvance r room tally amount => Sys2Proof.Machine.execTallyAdvance r room tally amount s
  | .localAdvanceApply tally => Sys2Proof.Machine.execLocalAdvanceApply tally s
  | .watchArm f n ctl => Sys2Proof.Machine.execWatchArm f n ctl s
  | .advance src tally amount jobId => Sys2Proof.Machine.execAdvance src tally amount jobId s
  | .update tally value jobId => Sys2Proof.Machine.execUpdate tally value jobId s
  | .join src group jobId => Sys2Proof.Machine.execJoin src group jobId s
  | .joinReply group half jobId values => Sys2Proof.Machine.execJoinReply group half jobId values s
  | .nack tally code jobId => Sys2Proof.Machine.execNack tally code jobId s
  | .fabricRetry tally => Sys2Proof.Machine.execFabricRetry tally s
  | .fabricNackTimeout tally => Sys2Proof.Machine.execFabricNackTimeout tally s
  | .faultToHome src jobId cause => Sys2Proof.Machine.execFaultToHome src jobId cause s
  | .faultNotice jobId origin cause => Sys2Proof.Machine.execFaultNotice jobId origin cause s
  | .nop t => Sys2Proof.Machine.execNop t s
  | .mov t x y => Sys2Proof.Machine.execMov t x y s
  | .movi t x imm => Sys2Proof.Machine.execMovi t x imm s
  | .mova t x y => Sys2Proof.Machine.execMova t x y s
  | .getl t x y => Sys2Proof.Machine.execGetl t x y s
  | .geth t x y => Sys2Proof.Machine.execGeth t x y s
  | .putl t x y => Sys2Proof.Machine.execPutl t x y s
  | .puth t x y => Sys2Proof.Machine.execPuth t x y s
  | .ld t x y m => Sys2Proof.Machine.execLd t x y m s
  | .st t x y m => Sys2Proof.Machine.execSt t x y m s
  | .lda t x y m => Sys2Proof.Machine.execLda t x y m s
  | .sta t x y m => Sys2Proof.Machine.execSta t x y m s
  | .lea t x y d => Sys2Proof.Machine.execLea t x y d s
  | .push t x => Sys2Proof.Machine.execPush t x s
  | .pop t x => Sys2Proof.Machine.execPop t x s
  | .pusha t x => Sys2Proof.Machine.execPusha t x s
  | .popa t x => Sys2Proof.Machine.execPopa t x s
  | .add t x b => Sys2Proof.Machine.execAdd t x b s
  | .addc t x b => Sys2Proof.Machine.execAddc t x b s
  | .sub t x b => Sys2Proof.Machine.execSub t x b s
  | .subc t x b => Sys2Proof.Machine.execSubc t x b s
  | .cmp t x b => Sys2Proof.Machine.execCmp t x b s
  | .and t x b => Sys2Proof.Machine.execAnd t x b s
  | .or t x b => Sys2Proof.Machine.execOr t x b s
  | .xor t x b => Sys2Proof.Machine.execXor t x b s
  | .not t x => Sys2Proof.Machine.execNot t x s
  | .neg t x => Sys2Proof.Machine.execNeg t x s
  | .abs t x => Sys2Proof.Machine.execAbs t x s
  | .shl t x k => Sys2Proof.Machine.execShl t x k s
  | .shr t x k => Sys2Proof.Machine.execShr t x k s
  | .sar t x k => Sys2Proof.Machine.execSar t x k s
  | .rol t x k => Sys2Proof.Machine.execRol t x k s
  | .mul t x y => Sys2Proof.Machine.execMul t x y s
  | .mulu t x y => Sys2Proof.Machine.execMulu t x y s
  | .mulh t x y => Sys2Proof.Machine.execMulh t x y s
  | .mulhu t x y => Sys2Proof.Machine.execMulhu t x y s
  | .adda t x b => Sys2Proof.Machine.execAdda t x b s
  | .cmpa t x y => Sys2Proof.Machine.execCmpa t x y s
  | .ext t x y spec => Sys2Proof.Machine.execExt t x y spec s
  | .ins t x y spec => Sys2Proof.Machine.execIns t x y spec s
  | .bswap t x y => Sys2Proof.Machine.execBswap t x y s
  | .clz t x y => Sys2Proof.Machine.execClz t x y s
  | .popc t x y => Sys2Proof.Machine.execPopc t x y s
  | .mac t n imm j => Sys2Proof.Machine.execMac t n imm j s
  | .macs t n imm j => Sys2Proof.Machine.execMacs t n imm j s
  | .msu t n imm j => Sys2Proof.Machine.execMsu t n imm j s
  | .macu t n imm j => Sys2Proof.Machine.execMacu t n imm j s
  | .macr t n x y => Sys2Proof.Machine.execMacr t n x y s
  | .clra t n => Sys2Proof.Machine.execClra t n s
  | .rdacc t x n spec => Sys2Proof.Machine.execRdacc t x n spec s
  | .wracc t n y => Sys2Proof.Machine.execWracc t n y s
  | .addacc t n m => Sys2Proof.Machine.execAddacc t n m s
  | .stacc t n y => Sys2Proof.Machine.execStacc t n y s
  | .ldacc t n y => Sys2Proof.Machine.execLdacc t n y s
  | .br t cc d => Sys2Proof.Machine.execBr t cc d s
  | .brl t cc d => Sys2Proof.Machine.execBrl t cc d s
  | .jmp t a => Sys2Proof.Machine.execJmp t a s
  | .call t a => Sys2Proof.Machine.execCall t a s
  | .ret t => Sys2Proof.Machine.execRet t s
  | .loop t x d => Sys2Proof.Machine.execLoop t x d s
  | .waits t x => Sys2Proof.Machine.execWaits t x s
  | .sig t x => Sys2Proof.Machine.execSig t x s
  | .waitp t y => Sys2Proof.Machine.execWaitp t y s
  | .waitpWake t => Sys2Proof.Machine.execWaitpWake t s
  | .waitt t x y => Sys2Proof.Machine.execWaitt t x y s
  | .waittDeadline t => Sys2Proof.Machine.execWaittDeadline t s
  | .tadv t x b => Sys2Proof.Machine.execTadv t x b s
  | .trd t x y => Sys2Proof.Machine.execTrd t x y s
  | .rdpos t y => Sys2Proof.Machine.execRdpos t y s
  | .dmago t x y => Sys2Proof.Machine.execDmago t x y s
  | .fence t => Sys2Proof.Machine.execFence t s
  | .icinv t y => Sys2Proof.Machine.execIcinv t y s
  | .icinvAll t => Sys2Proof.Machine.execIcinvAll t s
  | .mfsw t x => Sys2Proof.Machine.execMfsw t x s
  | .mtsw t y => Sys2Proof.Machine.execMtsw t y s
  | .mfcr t x cr => Sys2Proof.Machine.execMfcr t x cr s
  | .mtcr t cr y => Sys2Proof.Machine.execMtcr t cr y s
  | .take t y => Sys2Proof.Machine.execTake t y s
  | .gate t g => Sys2Proof.Machine.execGate t g s
  | .reti t => Sys2Proof.Machine.execReti t s
  | .retiInterruption t => Sys2Proof.Machine.execRetiInterruption t s
  | .noint t n => Sys2Proof.Machine.execNoint t n s
  | .nointExpire t => Sys2Proof.Machine.execNointExpire t s
  | .halt t => Sys2Proof.Machine.execHalt t s
  | .storeDrain t => Sys2Proof.Machine.execStoreDrain t s
  | .interruptAccept t => Sys2Proof.Machine.execInterruptAccept t s
  | .asyncFault t => Sys2Proof.Machine.execAsyncFault t s
  | .perf t n => Sys2Proof.Machine.execPerf t n s
  | .vadd t v => Sys2Proof.Machine.execVadd t v s
  | .vsub t v => Sys2Proof.Machine.execVsub t v s
  | .vmul t v => Sys2Proof.Machine.execVmul t v s
  | .vfma t v => Sys2Proof.Machine.execVfma t v s
  | .vmin t v => Sys2Proof.Machine.execVmin t v s
  | .vmax t v => Sys2Proof.Machine.execVmax t v s
  | .vabs t v => Sys2Proof.Machine.execVabs t v s
  | .vneg t v => Sys2Proof.Machine.execVneg t v s
  | .vand t v => Sys2Proof.Machine.execVand t v s
  | .vor t v => Sys2Proof.Machine.execVor t v s
  | .vxor t v => Sys2Proof.Machine.execVxor t v s
  | .vshl t v => Sys2Proof.Machine.execVshl t v s
  | .vshr t v => Sys2Proof.Machine.execVshr t v s
  | .vsar t v => Sys2Proof.Machine.execVsar t v s
  | .vcmpeq t v => Sys2Proof.Machine.execVcmpeq t v s
  | .vcmplt t v => Sys2Proof.Machine.execVcmplt t v s
  | .vcmple t v => Sys2Proof.Machine.execVcmple t v s
  | .vsel t v => Sys2Proof.Machine.execVsel t v s
  | .vmov t v => Sys2Proof.Machine.execVmov t v s
  | .vbcast t v => Sys2Proof.Machine.execVbcast t v s
  | .vsum t v => Sys2Proof.Machine.execVsum t v s
  | .vcvt t v => Sys2Proof.Machine.execVcvt t v s
  | .vpack t v => Sys2Proof.Machine.execVpack t v s
  | .vunpk t v => Sys2Proof.Machine.execVunpk t v s
  | .zrd t z => Sys2Proof.Machine.execZrd t z s
  | .zwr t z => Sys2Proof.Machine.execZwr t z s
  | .tld t n y x => Sys2Proof.Machine.execTld t n y x s
  | .tst t n y x => Sys2Proof.Machine.execTst t n y x s
  | .zld t d y x => Sys2Proof.Machine.execZld t d y x s
  | .zst t d y x => Sys2Proof.Machine.execZst t d y x s
  | .rld t row ix y => Sys2Proof.Machine.execRld t row ix y s
  | .rst t row ix y => Sys2Proof.Machine.execRst t row ix y s
  | .mma t m => Sys2Proof.Machine.execMma t m s
  | .mmaMx t m st => Sys2Proof.Machine.execMmaMx t m st s
  | .zclr t d => Sys2Proof.Machine.execZclr t d s
  | .xmf t x u => Sys2Proof.Machine.execXmf t x u s
  | .xmt t u y => Sys2Proof.Machine.execXmt t u y s
  | .xuCtx t y => Sys2Proof.Machine.execXuCtx t y s
  | .xwait t => Sys2Proof.Machine.execXwait t s
  | .cacheFill q k line => Sys2Proof.Machine.execCacheFill q k line s
  | .zero w q all lines line => Sys2Proof.Machine.execZero w q all lines line s
  | .writeback w q all lines line => Sys2Proof.Machine.execWriteback w q all lines line s
  | .invalidate w q all lines line => Sys2Proof.Machine.execInvalidate w q all lines line s
  | .wbInv w q all lines line => Sys2Proof.Machine.execWbInv w q all lines line s
  | .cmdDone q => Sys2Proof.Machine.execCmdDone q s
  | .waymapChange w q groups => Sys2Proof.Machine.execWaymapChange w q groups s
  | .waymapDone q => Sys2Proof.Machine.execWaymapDone q s
  | .qcHbmwin w q k v => Sys2Proof.Machine.execQcHbmwin w q k v s
  | .hbmwinApply q k => Sys2Proof.Machine.execHbmwinApply q k s
  | .scrub granule => Sys2Proof.Machine.execScrub granule s
  | .go f n ctrl => Sys2Proof.Machine.execGo f n ctrl s
  | .pause f n ctrl => Sys2Proof.Machine.execPause f n ctrl s
  | .resume f n ctrl => Sys2Proof.Machine.execResume f n ctrl s
  | .abort f n ctrl => Sys2Proof.Machine.execAbort f n ctrl s
  | .descriptorFetch c => Sys2Proof.Machine.execDescriptorFetch c s
  | .pieceIssue c => Sys2Proof.Machine.execPieceIssue c s
  | .requestComplete c tag e => Sys2Proof.Machine.execRequestComplete c tag e s
  | .timeout c tag => Sys2Proof.Machine.execTimeout c tag s
  | .descriptorComplete c => Sys2Proof.Machine.execDescriptorComplete c s
  | .drainDone c => Sys2Proof.Machine.execDrainDone c s
  | .abortDone c => Sys2Proof.Machine.execAbortDone c s
  | .fabricRead p => Sys2Proof.Machine.execFabricRead p s
  | .fabricWrite p => Sys2Proof.Machine.execFabricWrite p s
  | .wack p => Sys2Proof.Machine.execWack p s
  | .rdata p => Sys2Proof.Machine.execRdata p s
  | .err p => Sys2Proof.Machine.execErr p s
  | .packetForward p k => Sys2Proof.Machine.execPacketForward p k s
  | .routeUpdate p u => Sys2Proof.Machine.execRouteUpdate p u s
  | .windowOpen r window room perm jobId base size => Sys2Proof.Machine.execWindowOpen r window room perm jobId base size s
  | .windowClose r window => Sys2Proof.Machine.execWindowClose r window s
  | .trainComplete p lanes => Sys2Proof.Machine.execTrainComplete p lanes s
  | .exchSend p => Sys2Proof.Machine.execExchSend p s
  | .exchFlit p lcrcOk payload => Sys2Proof.Machine.execExchFlit p lcrcOk payload s
  | .dataFlit p h packets => Sys2Proof.Machine.execDataFlit p h packets s
  | .idleFlit p h => Sys2Proof.Machine.execIdleFlit p h s
  | .replay p => Sys2Proof.Machine.execReplay p s
  | .linkLost p => Sys2Proof.Machine.execLinkLost p s
  | .holdExpired p => Sys2Proof.Machine.execHoldExpired p s
  | .refusedRetrain p => Sys2Proof.Machine.execRefusedRetrain p s
  | .meshHeader => Sys2Proof.Machine.execMeshHeader s
  | .inject r room point kind count => Sys2Proof.Machine.execInject r room point kind count s
  | .roomForm r f => Sys2Proof.Machine.execRoomForm r f s
  | .formed room => Sys2Proof.Machine.execFormed room s
  | .roomDissolve r room => Sys2Proof.Machine.execRoomDissolve r room s
  | .dissolutionDone room => Sys2Proof.Machine.execDissolutionDone room s
  | .hbmUnitCleared => Sys2Proof.Machine.execHbmUnitCleared s
  | .roomReset b room => Sys2Proof.Machine.execRoomReset b room s
  | .flrWaitExpiry room => Sys2Proof.Machine.execFlrWaitExpiry room s
  | .roomDeclareFault b room detail => Sys2Proof.Machine.execRoomDeclareFault b room detail s
  | .roomQos r room hbmShare meshWeight fabricWeight dmaRate => Sys2Proof.Machine.execRoomQos r room hbmShare meshWeight fabricWeight dmaRate s
  | .planWrite r plan dissolve formations => Sys2Proof.Machine.execPlanWrite r plan dissolve formations s
  | .vectorDelivery owner v => Sys2Proof.Machine.execVectorDelivery owner v s
  | .functionLevelReset f => Sys2Proof.Machine.execFunctionLevelReset f s
  | .vfEnableClear enable numVfs => Sys2Proof.Machine.execVfEnableClear enable numVfs s
  | .linkLoss => Sys2Proof.Machine.execLinkLoss s
  | .perstDeassert => Sys2Proof.Machine.execPerstDeassert s
  | .linkReturn => Sys2Proof.Machine.execLinkReturn s
  | .apertureWrite f off bytes checkOk => Sys2Proof.Machine.execApertureWrite f off bytes checkOk s
  | .apertureRead f off len => Sys2Proof.Machine.execApertureRead f off len s
  | .msixUnmask f entry => Sys2Proof.Machine.execMsixUnmask f entry s
  | .mbxEnable f ctl => Sys2Proof.Machine.execMbxEnable f ctl s
  | .mbxDisable f => Sys2Proof.Machine.execMbxDisable f s
  | .mbxReqTail f v => Sys2Proof.Machine.execMbxReqTail f v s
  | .mbxSlotRead f r => Sys2Proof.Machine.execMbxSlotRead f r s
  | .mbxRspHead f v => Sys2Proof.Machine.execMbxRspHead f v s
  | .hello transport fr => Sys2Proof.Machine.execHello transport fr s
  | .auth transport fr => Sys2Proof.Machine.execAuth transport fr s
  | .authHoldoffEnd slot => Sys2Proof.Machine.execAuthHoldoffEnd slot s
  | .read transport fr => Sys2Proof.Machine.execRead transport fr s
  | .snapshotExpiry session => Sys2Proof.Machine.execSnapshotExpiry session s
  | .write transport fr => Sys2Proof.Machine.execWrite transport fr s
  | .assemblyTimeout client cseq => Sys2Proof.Machine.execAssemblyTimeout client cseq s
  | .keySlot r slot len key perm rooms base count => Sys2Proof.Machine.execKeySlot r slot len key perm rooms base count s
  | .ack transport fr => Sys2Proof.Machine.execAck transport fr s
  | .ledgerRead transport fr => Sys2Proof.Machine.execLedgerRead transport fr s
  | .subscribe transport fr => Sys2Proof.Machine.execSubscribe transport fr s
  | .unsubscribe transport fr => Sys2Proof.Machine.execUnsubscribe transport fr s
  | .notify subId => Sys2Proof.Machine.execNotify subId s
  | .bye transport fr => Sys2Proof.Machine.execBye transport fr s
  | .sessionIdleTimeout session => Sys2Proof.Machine.execSessionIdleTimeout session s
  | .smbusBlockWrite block pecOk => Sys2Proof.Machine.execSmbusBlockWrite block pecOk s
  | .smbusBlockRead => Sys2Proof.Machine.execSmbusBlockRead s
  | .smbusSclTimeout => Sys2Proof.Machine.execSmbusSclTimeout s
  | .checkpointBegin => Sys2Proof.Machine.execCheckpointBegin s
  | .checkpointComplete => Sys2Proof.Machine.execCheckpointComplete s
  | .eventDeferredRecord => Sys2Proof.Machine.execEventDeferredRecord s
  | .vaultWrite r room object tag source length tally amount => Sys2Proof.Machine.execVaultWrite r room object tag source length tally amount s
  | .vaultRead r room object tag offset dest length tally amount => Sys2Proof.Machine.execVaultRead r room object tag offset dest length tally amount s
  | .vaultDelete r room object tag => Sys2Proof.Machine.execVaultDelete r room object tag s
  | .vaultStop r room => Sys2Proof.Machine.execVaultStop r room s
  | .vaultJobStart => Sys2Proof.Machine.execVaultJobStart s
  | .extentComplete ok => Sys2Proof.Machine.execExtentComplete ok s
  | .pipeAssign r room pipe => Sys2Proof.Machine.execPipeAssign r room pipe s
  | .pipeShadow r room pipe shadow coef => Sys2Proof.Machine.execPipeShadow r room pipe shadow coef s
  | .commit r room mask => Sys2Proof.Machine.execCommit r room mask s
  | .shadowCheck p => Sys2Proof.Machine.execShadowCheck p s
  | .decisionPoint p => Sys2Proof.Machine.execDecisionPoint p s
  | .frameBoundary p underrun => Sys2Proof.Machine.execFrameBoundary p underrun s
  | .hotPlugDetect high => Sys2Proof.Machine.execHotPlugDetect high s
  | .dpLinkTraining d => Sys2Proof.Machine.execDpLinkTraining d s
  | .currentLimit o => Sys2Proof.Machine.execCurrentLimit o s
  | .outputFault o => Sys2Proof.Machine.execOutputFault o s
  | .faultRetry o => Sys2Proof.Machine.execFaultRetry o s
  | .retryEnd o => Sys2Proof.Machine.execRetryEnd o s
  | .idleTimer => Sys2Proof.Machine.execIdleTimer s
  | .standbyAfterIdle => Sys2Proof.Machine.execStandbyAfterIdle s
  | .blockAnswer activity => Sys2Proof.Machine.execBlockAnswer activity s
  | .blockTimeout => Sys2Proof.Machine.execBlockTimeout s
  | .powerRequestLeaveIdle r => Sys2Proof.Machine.execPowerRequestLeaveIdle r s
  | .powerRequestIdle r => Sys2Proof.Machine.execPowerRequestIdle r s
  | .powerRequestStandby r => Sys2Proof.Machine.execPowerRequestStandby r s
  | .standbyEntry => Sys2Proof.Machine.execStandbyEntry s
  | .freeQuireGate q => Sys2Proof.Machine.execFreeQuireGate q s
  | .quireGate r room mask => Sys2Proof.Machine.execQuireGate r room mask s
  | .quireGatingDone => Sys2Proof.Machine.execQuireGatingDone s
  | .quireWake r room mask => Sys2Proof.Machine.execQuireWake r room mask s
  | .quireWakeDone q => Sys2Proof.Machine.execQuireWakeDone q s
  | .brownOut => Sys2Proof.Machine.execBrownOut s
  | .wakePin pin level => Sys2Proof.Machine.execWakePin pin level s
  | .smbusWake => Sys2Proof.Machine.execSmbusWake s
  | .powerOn => Sys2Proof.Machine.execPowerOn s
  | .inputLost => Sys2Proof.Machine.execInputLost s
  | .inputReturn => Sys2Proof.Machine.execInputReturn s
  | .auxGood asel => Sys2Proof.Machine.execAuxGood asel s
  | .auxLost => Sys2Proof.Machine.execAuxLost s
  | .throttle tenths watts => Sys2Proof.Machine.execThrottle tenths watts s
  | .throttleRaise tenths watts => Sys2Proof.Machine.execThrottleRaise tenths watts s
  | .thermalShutdown tenths => Sys2Proof.Machine.execThermalShutdown tenths s
  | .thermalRecovery tenths => Sys2Proof.Machine.execThermalRecovery tenths s
  | .sysRstN => Sys2Proof.Machine.execSysRstN s
  | .sysRstNRelease => Sys2Proof.Machine.execSysRstNRelease s
  | .watchdog => Sys2Proof.Machine.execWatchdog s
  | .deviceReset r v => Sys2Proof.Machine.execDeviceReset r v s
  | .rom => Sys2Proof.Machine.execRom s
  | .ledgerRecovery torn => Sys2Proof.Machine.execLedgerRecovery torn s
  | .verify => Sys2Proof.Machine.execVerify s
  | .steward => Sys2Proof.Machine.execSteward s
  | .fwChunk r kind offset data => Sys2Proof.Machine.execFwChunk r kind offset data s
  | .fwCommit r kind len => Sys2Proof.Machine.execFwCommit r kind len s
  | .fwSelect r kind => Sys2Proof.Machine.execFwSelect r kind s
  | .securityRaise r kind value => Sys2Proof.Machine.execSecurityRaise r kind value s
  | .analogReferencePoint fmt offsetNs => Sys2Proof.Machine.execAnalogReferencePoint fmt offsetNs s
  | .hbmWriteAccepted t line => Sys2Proof.Machine.execHbmWriteAccepted t line s
  | .shortRemoved o => Sys2Proof.Machine.execShortRemoved o s
  | .holdupExhausted => Sys2Proof.Machine.execHoldupExhausted s

end Sys2Proof.Machine
end

