-- ==== Sys2Proof/Safety.lean ====
section
/-! DEFINITION. The terms in which claims are stated: what a command changes, when a tile core runs an instruction, and what holds in every state. -/

namespace Sys2Proof

open Sys2Proof.Machine

/-! ### What changes -/

/-- The part goes from `u` to `n` with tile `t` as `x` and nothing else changed. -/
def OnlyTile (u n : State) (t : Nat) (x : Tile) : Prop :=
  n.tile t = x ∧ (∀ k, k ≠ t → n.tile k = u.tile k) ∧ { n with tiles := u.tiles } = u

/-- The part goes from `u` to `n` with quire `q` as `x` and nothing else changed. -/
def OnlyQuire (u n : State) (q : Nat) (x : Quire) : Prop :=
  n.quire q = x ∧ (∀ k, k ≠ q → n.quire k = u.quire k) ∧ { n with quires := u.quires } = u

/-! ### A tile core runs an instruction (R132, R174, R523) -/

/-- Tile `t` runs, and its fetch of an instruction of `w` words at its PC succeeds and leaves the part in state `u`. -/
def Fetches (s : State) (t : TileId) (w : Nat) (u : State) : Prop :=
  s.tileRuns t = true ∧ (s.cyclePerf t).fetch t (s.tile t).pc.toNat w = .ok () u

/-- The instruction `i` of tile `t` completes: from `u` it changes nothing but the tile, which becomes `x` with the instruction retired at the level of its fetch and PC at `pc`. -/
def RetiresTo (s u : State) (t : TileId) (i : Instr) (x : Tile) (pc : W32) : Prop :=
  ∃ n, exec i s = .next n ∧ OnlyTile u n t (retireAt x (swS (s.tile t).sw) pc)

/-- As `RetiresTo`, with the next instruction `w` words on. -/
def Retires (s u : State) (t : TileId) (i : Instr) (w : Nat) (x : Tile) : Prop :=
  RetiresTo s u t i x ((u.tile t).pc + BitVec.ofNat 32 w)

/-- The instruction `i` of tile `t` raises the synchronous fault `code` with FLT_ADDR `addr`, and has no other effect (R137, R185). -/
def Faults (s u : State) (t : TileId) (i : Instr) (code addr : Nat) : Prop :=
  exec i s = .next (u.takeSync t code addr)

/-- The store buffer of tile `t` takes a further entry in state `v`: with fewer than 8 entries held that is `u` itself, else `u` once its oldest entry has drained (R156). -/
def BufferTakes (u : State) (t : Nat) (v : State) : Prop :=
  if (u.tile t).sb.length < 8 then v = u else u.drainOne t = (true, v)

/-- A tile with one store added to its store buffer (R156). -/
def buffered (x : Tile) (a : W32) (ws : List W16) : Tile := { x with sb := x.sb ++ [{ addr := a, words := ws }] }

/-- The conditions of the codes 0 to 14 of BR and BRL, in order, for a status word (R138). -/
def conditions (w : W16) : List Bool :=
  let c := w.getLsbD 0
  let z := w.getLsbD 1
  let n := w.getLsbD 2
  let v := w.getLsbD 3
  [true, z, !z, c, !c, c || z, !c && !z, n != v, n == v, z || n != v, !z && n == v, n, !n, v, !v]

/-- The tile `y` is `x` but for its instruction cache and its event counts, with their overflow bits and line 0 (R161, R167, R168). -/
def SameButCounts (x y : Tile) : Prop :=
  { y with icLine := x.icLine, icPtr := x.icPtr, perf := { y.perf with cnt := x.perf.cnt, ovf := x.perf.ovf }, priv := { y.priv with irqPend := x.priv.irqPend } } = x

/-- The quire cache of quire `x` holds each line once, and every granule of it is good. -/
def CleanLines (x : Quire) : Prop := x.lines.Pairwise (fun l m => l.line ≠ m.line) ∧ ∀ l ∈ x.lines, ∀ g, Tbl.get 0 l.synd g = 0

/-! ### Vector and matrix units (R192 to R213) -/

/-- Row `r` of the tile registers as a number whose bit 0 is bit 0 of byte 0 (R192). -/
def rowOf (x : Xu) (r : Nat) : Nat := leNat ((List.range 64).map fun i => Tbl.get 0 x.rows (64 * r + i))

/-- Every granule of the tile registers is good (R194). -/
def XuClean (x : Xu) : Prop := ∀ g, Tbl.get 0 x.synd g = 0

/-- The unit instruction `i` of `w` words completes from `v` in `m`: the core retires it, and outside the units of tile `t` (and the model's counter of free values) nothing changes. -/
def UnitCompletes (s v m : State) (t : TileId) (i : Instr) (w : Nat) : Prop :=
  exec i s = .next m ∧ { m.tile t with xu := {} } = { retireAt (v.tile t) (swS (s.tile t).sw) ((v.tile t).pc + BitVec.ofNat 32 w) with xu := {} } ∧
  (∀ k, k ≠ t.val → m.tile k = v.tile k) ∧ { m with tiles := v.tiles, free := v.free } = v

/-- Every row of the tile registers but the `n` from `r` on is as before. -/
def RowsKept (x y : Xu) (r n : Nat) : Prop := ∀ j, j < 64 * r ∨ 64 * (r + n) ≤ j → Tbl.get 0 y.rows j = Tbl.get 0 x.rows j

/-- The vector instruction `i` completes: row `rd` takes lane `k` from `g k` where `p k`, XU_STAT gathers `fl`, XU_RIX steps where R199 says so, and no other row changes. -/
def VectorWrites (s u : State) (t : TileId) (i : Instr) (v : VOps) (p : Nat → Prop) (g : Nat → Nat) (fl : W16) : Prop :=
  ∃ m, UnitCompletes s u m t i 3 ∧
    (∀ k, k < lanesOf v.ty → p k → lane (rowOf (m.tile t).xu (rowAt (u.tile t).xu (v.ixm ≠ 0) v.vd)) (laneBits v.ty) k = g k % 2 ^ laneBits v.ty) ∧
    RowsKept (u.tile t).xu (m.tile t).xu (rowAt (u.tile t).xu (v.ixm ≠ 0) v.vd) 1 ∧
    (m.tile t).xu.stat = (u.tile t).xu.stat ||| fl ∧ (m.tile t).xu.lmask = (u.tile t).xu.lmask ∧
    (m.tile t).xu.rix = if (u.tile t).xu.ctl.getLsbD 4 = true ∧ v.ixm ≠ 0 then (u.tile t).xu.rix + 1 else (u.tile t).xu.rix

/-- The union of the flags of `n` lanes. -/
def allFlags (n : Nat) (f : Nat → W16) : W16 := (List.range n).foldl (fun m k => m ||| f k) 0

/-! ### The flags (R128, R140) -/

/-- SW with the four flags set to `z`, `n`, `c` and `v`. -/
def withZNCV (w : W16) (z n c v : Bool) : W16 :=
  (w &&& 0xFFF0) ||| BitVec.ofNat 16 (c.toNat + 2 * z.toNat + 4 * n.toNat + 8 * v.toNat)

/-- SW with Z and N set as the result `r` sets them, and no other bit changed. -/
def withZN (w r : W16) : W16 :=
  (w &&& 0xFFF9) ||| BitVec.ofNat 16 (2 * (decide (r = 0)).toNat + 4 * r.msb.toNat)

/-! ### Commands of the block

Most commands change one numbered part of the state. What an event raises at the interrupt router is kept apart: `n` equals `s` "but for the router" where only events held for vectors differ (R393). -/

/-- Command `c` completes from `s` and leaves `t`, but for the router. -/
def Leaves (s : State) (c : Instr) (t : State) : Prop := ∃ n, exec c s = .next n ∧ { n with irq := t.irq } = t

/-- Command `c` completes from `s`; quire `q` becomes `x`, and nothing else changes but the router. -/
def LeavesQuire (s : State) (c : Instr) (q : Nat) (x : Quire) : Prop :=
  ∃ n, exec c s = .next n ∧ n.quire q = x ∧ (∀ k, k ≠ q → n.quire k = s.quire k) ∧ { n with quires := s.quires, irq := s.irq } = s

/-- Command `c` completes from `s`; room `r` becomes `x`, and nothing else changes but the router. -/
def LeavesRoom (s : State) (c : Instr) (r : Nat) (x : Room) : Prop :=
  ∃ n, exec c s = .next n ∧ n.room r = x ∧ (∀ k, k ≠ r → n.room k = s.room k) ∧ { n with rooms := s.rooms, irq := s.irq } = s

/-- Command `c` completes from `s`; port `p` becomes `x`, the outputs become `out`, and nothing else changes but the router. -/
def LeavesPort (s : State) (c : Instr) (p : Nat) (x : Port) (out : List Out) : Prop :=
  ∃ n, exec c s = .next n ∧ n.port p = x ∧ (∀ k, k ≠ p → n.port k = s.port k) ∧ n.out = out ∧ { n with ports := s.ports, out := s.out, irq := s.irq } = s

/-- Command `c` completes from `s`; function `f` becomes `x`, and nothing else changes but the router. -/
def LeavesFn (s : State) (c : Instr) (f : Nat) (x : Fn) : Prop :=
  ∃ n, exec c s = .next n ∧ n.fn f = x ∧ (∀ k, k ≠ f → n.fn k = s.fn k) ∧ { n with fns := s.fns, irq := s.irq } = s

/-- From `s` to `n` channel `c` becomes `x`, and nothing else changes but the router. -/
def OnlyChan (s n : State) (c : ChanRef) (x : Chan) : Prop :=
  n.chan c = x ∧ (∀ d, d ≠ c → n.chan d = s.chan d) ∧ (∀ k, { n.quire k with chan := (s.quire k).chan } = s.quire k) ∧
  { n with quires := s.quires, sdma := s.sdma, irq := s.irq } = s

/-- Command `c` completes from `s` and changes channel `d` alone, which becomes `x`. -/
def LeavesChan (s : State) (c : Instr) (d : ChanRef) (x : Chan) : Prop := ∃ n, exec c s = .next n ∧ OnlyChan s n d x

/-- From `s` to `n` Glaze pipe `p` becomes `x`, and nothing else changes but the router. -/
def LeavesPipe (s : State) (c : Instr) (p : Nat) (x : Pipe) : Prop :=
  ∃ n, exec c s = .next n ∧ n.pipe p = x ∧ (∀ k, k ≠ p → n.pipe k = s.pipe k) ∧ { n with glz := { n.glz with pipe := s.glz.pipe }, irq := s.irq } = s

/-- From `s` to `n` video output `o` becomes `x`, and nothing else changes but the router. -/
def LeavesOut (s : State) (c : Instr) (o : Nat) (x : VOut) : Prop :=
  ∃ n, exec c s = .next n ∧ n.vout o = x ∧ (∀ k, k ≠ o → n.vout k = s.vout k) ∧ { n with glz := { n.glz with out := s.glz.out }, irq := s.irq } = s

/-! ### The quire cache (R260 to R266) -/

/-- A write of a register of quire `q` reaches it: by the function of its room `r` with no TLP waiting before it, or by a tile of the quire at supervisor level (R247, R407, R420). The quire runs and no sleep negotiation is under way. -/
def WriterReaches (s : State) (w : Writer) (q r : Nat) : Prop :=
  s.pow.neg = none ∧ s.quireRoom q = some r ∧ (s.quire q).power = .on ∧
  match w with
  | .host f => f.val = r + 1 ∧ (s.fn f).held = []
  | .tile t => tileQuire t = q ∧ swS (s.tile t).sw = true

/-- What a register write by `w` may change beside the register: the writer's own staging. -/
def StagingOnly (s n : State) (w : Writer) : Prop :=
  (∀ f, .host f ≠ w → n.fn f = s.fn f) ∧ (∀ f : FnId, { n.fn f with stage := (s.fn f).stage } = s.fn f) ∧
  (∀ t, (∀ u : TileId, w = .tile u → u.val ≠ t) → n.tile t = s.tile t) ∧ (∀ t, { n.tile t with stageReg := (s.tile t).stageReg, stage := (s.tile t).stage } = s.tile t)

/-- The byte at HBM address `a` as quire `q` sees it: that of the cached line, else that of memory. -/
def seenByte (s : State) (q a : Nat) : Byte :=
  match findLine (s.quire q) (BitVec.ofNat 31 (a / 128)) with
  | some l => Tbl.get 0 l.data (a % 128)
  | none => s.byteAt a

/-- Byte address `a` of HBM lies in the range of a cache operation (R265). -/
def inOp (all : Bool) (lines : BitVec 16) (line : BitVec 31) (a : Nat) : Prop :=
  a < 0x3000000000 ∧ (all = true ∨ (line.toNat * 128 ≤ a ∧ a < (line.toNat + lines.toNat + 1) * 128))

/-- The byte at `a` after the dirty line that holds it, if any, has been written back. -/
def writtenBack (s : State) (q a : Nat) : Byte :=
  match findLine (s.quire q) (BitVec.ofNat 31 (a / 128)) with
  | some l => if l.dirty then Tbl.get 0 l.data (a % 128) else s.byteAt a
  | none => s.byteAt a

/-- A cache operation `op` of writer `w` has been started in quire `q`, and changed nothing but the quire's cache and command, HBM, write-back lists and staging. -/
def CacheOpDone (s n : State) (w : Writer) (q op : Nat) (all : Bool) (lines : BitVec 16) (line : BitVec 31) : Prop :=
  (n.quire q).cmd = { busy := true, refused := false, op := BitVec.ofNat 3 op, all := all, lines := lines, line := line } ∧
  (∀ k, { n.quire k with lines := (s.quire k).lines, cmd := (s.quire k).cmd, prefetch := (s.quire k).prefetch } = s.quire k) ∧ (∀ k, k ≠ q → n.quire k = s.quire k) ∧
  (∀ t, { n.tile t with wb := (s.tile t).wb, stageReg := (s.tile t).stageReg, stage := (s.tile t).stage } = s.tile t) ∧
  (∀ f : FnId, { n.fn f with stage := (s.fn f).stage } = s.fn f) ∧
  { n with quires := s.quires, tiles := s.tiles, fns := s.fns, mem := s.mem, synd := s.synd } = s

/-! ### The fabric (R325 to R349) -/

/-- No injection is armed for units of `room` at point `pt` (R372). -/
def Uninjected (s : State) (pt room : Nat) : Prop := armedAt s.integ pt room [1, 2, 3] = none

/-- `s` once the arrived packet `e` has been taken and its credits returned, with good handovers counted at the points `pts` (R327, R371). -/
def taken (s : State) (e : Nat × Packet) (pts : List Nat) : State :=
  let u : State := { s with fab := { s.fab with arrived := dropArrived e s.fab.arrived }, integ := pts.foldl (fun g pt => countHand g pt false) s.integ }
  if e.1 < 16 then u.giveCredits e.1 (packetVc e.2) (packetUnits e.2) else u

/-- The completion of request `k`: class 2, to the requester, with its tag and JOB_ID (R332, R333). -/
def completion (s : State) (k : Packet) (op : BitVec 4) (err : BitVec 8) (bs : List Byte) : Packet :=
  { op := op, cls := 2, v := false, dst := k.src, src := BitVec.ofNat 16 s.devNo, tag := k.tag, jobId := k.jobId, addr := 0,
    err := err, len := BitVec.ofNat 8 bs.length, payload := bs, pchk := 0 }

/-- `u` once packet `k` has taken its PCHK and left by the route for its target (R344, R359). -/
def sent (u : State) (k : Packet) : State := (u.launch { k with pchk := packetCheck k } 255 false).2

/-- `u` with a good handover counted at point `pt` (R371). -/
def counted (u : State) (pt : Nat) : State := { u with integ := countHand u.integ pt false }

/-- `u` once this device has sent control message `ty` with fields `body` to `dst`: it passes point 5, takes its PCHK and leaves by the route (R334, R359). -/
def ctrlSent (u : State) (dst : BitVec 16) (ty : Nat) (body : List Byte) : State := sent (counted u 5) (ctrlPacket (BitVec.ofNat 16 u.devNo) dst ty body)

/-- `u` with the request `p` refused by the windows for cause `k`: counted, and described in #6202.02 (R304). -/
def winRefused (u : State) (p : Packet) (k : Nat) : State :=
  { u with dev := { u.dev with winRefusals := u.dev.winRefusals + 1,
                               winLast := { requester := p.src, jobId := p.jobId, addr := p.addr.setWidth 64, cause := BitVec.ofNat 8 k } } }

/-- An arrived completion `p` of kind `op` finds its channel: it is the arrived packet `e`, its PCHK is right, it passes point 7, and `q` is the request with its tag, which writes where `w` says so (R333, R353). -/
def CompletionFor (s : State) (p : Packet) (op : Nat) (w : Option Bool) (e : Nat × Packet) (r : Nat) (d : Desc) (q : DmaReq) : Prop :=
  s.arrivedHere p op = some e ∧ s.pow.neg = none ∧ p.pchk = packetCheck p ∧ Uninjected s 7 r ∧ s.chanRoom (tagChan p.tag) = some r ∧
  (s.chan (tagChan p.tag)).desc = some d ∧
  (s.chan (tagChan p.tag)).reqs.find? (fun z => z.tag = p.tag && (match w with | some b => z.writing = b | none => true)) = some q

/-- A control message of type `ty` with fields `body` has arrived as `e` and passes point 7 (R334, R353). -/
def ControlPasses (s : State) (ty : Nat) (src : Option (BitVec 16)) (body : List Byte) (e : Nat × Packet) : Prop :=
  s.ctrlArrived ty src body = some e ∧ s.pow.neg = none ∧ e.2.pchk = packetCheck e.2 ∧ Uninjected s 7 255

/-! ### Journaled commands (R455 to R459, R466, R472, R478) -/

/-- A journaled write of entry `idx`.`sub` with value `v` from `r` passes every step up to its record: a client's transport brings it, the part hears it and no sleep negotiation is under way, the value has the entry's type, CSEQ is new and above the client's highest, the Ledger admits it, no command is in progress or waits, and the boot state lets it take effect. No record has the next accession number yet, as in every state that a run reaches. -/
def Admits (s : State) (r : Req) (idx sub : Nat) (v : List Byte) : Prop :=
  r.source.toNat < 20 ∧ (∃ e, entryRow idx sub = some e ∧ typeOk e sub v = true) ∧ s.hears r.source = true ∧ s.pow.neg = none ∧ s.bootAllows idx sub v = true ∧
  r.cseq ≠ 0 ∧ highestCseq s.led r.client < r.cseq.toNat ∧ findPair s.led r.client r.cseq = none ∧
  ledAdmits s.led (recordedValue idx sub v).length = true ∧ s.led.current = none ∧ s.led.queue = [] ∧ ∀ x ∈ s.led.recs, x.accession ≠ s.led.nextAcc

/-- In `n` the Ledger holds the command's record at the accession number that was next in `s`: its pair, entry, source, value and position (R466). -/
def RecordOf (s n : State) (r : Req) (idx sub : Nat) (v : List Byte) (x : Record) : Prop :=
  n.record s.led.nextAcc = some x ∧ x.kind = 1 ∧ x.client = r.client ∧ x.cseq = r.cseq ∧ x.index = BitVec.ofNat 16 idx ∧ x.sub = BitVec.ofNat 8 sub ∧
  x.source = r.source ∧ x.value = recordedValue idx sub v ∧ x.pos = s.posOrZero ∧ x.incarnation = s.pow.incarnation

/-- The command `c` is recorded and done with `status` and result `res`, in a state that satisfies `P`. -/
def Journaled (s : State) (c : Instr) (r : Req) (idx sub : Nat) (v : List Byte) (status : BitVec 8) (res : List Byte) (P : State → Prop) : Prop :=
  ∃ n x, exec c s = .next n ∧ RecordOf s n r idx sub v x ∧ x.done = true ∧ x.status = status ∧ x.result = res ∧ P n

/-- The command `c` is recorded and has begun, not yet done, in a state that satisfies `P`. -/
def Begun (s : State) (c : Instr) (r : Req) (idx sub : Nat) (v : List Byte) (P : State → Prop) : Prop :=
  ∃ n x, exec c s = .next n ∧ RecordOf s n r idx sub v x ∧ x.done = false ∧ n.led.current = some s.led.nextAcc ∧ P n

/-- `n` is `t` but for what recording and replying change: the Ledger, the outputs, Bilbin, the router, Palimpsest's counts and the mailboxes. -/
def ReplyOnly (t n : State) : Prop := { n with led := t.led, out := t.out, bil := t.bil, irq := t.irq, integ := t.integ, fns := t.fns } = t

/-- The command `c` is refused with `status` at step 13: it is recorded, and has no effect. -/
def Refused (s : State) (c : Instr) (r : Req) (idx sub : Nat) (v : List Byte) (status : BitVec 8) : Prop := Journaled s c r idx sub v status [] (ReplyOnly s)

/-! ### Rooms (R374 to R401) -/

/-- Every tile of room `r` has stopped or halted, and no cue of it is armed. -/
def RoomStopped (s n : State) (r : Nat) : Prop :=
  (∀ t ∈ s.roomTiles r, (n.tile t).run = .stopped ∨ (n.tile t).run = .halted) ∧ ∀ c ∈ s.roomCues r, (n.cueAt c).arm = false

/-- The reset of room `r` has ended (R382): its tiles are at their reset state but for their dirty lines, its cues are disarmed, and RESET_DONE is raised. -/
def ResetDone (s n : State) (r : Nat) : Prop :=
  (∀ t ∈ s.roomTiles r, n.tile t = { wb := (s.tile t).wb }) ∧ (∀ c ∈ s.roomCues r, (n.cueAt c).arm = false) ∧
  (n.room r).resetting = false ∧ (n.room r).state = (s.room r).state ∧ (n.room r).evt = (s.room r).evt ||| 16 ∧ n.mem = s.mem

/-- Room `r` has taken a first fault of cause `cause` with detail `detail` on this device (R387, R388): it is FAULTED, its tallies are frozen, its tiles have stopped and its cues are disarmed. -/
def RoomFaulted (s n : State) (r : Nat) (cause : BitVec 8) (detail : BitVec 16) : Prop :=
  (n.room r).state = .faulted ∧ (n.room r).flt.cause = cause ∧ (n.room r).flt.detail = detail ∧ (n.room r).flt.pos = s.posOrZero ∧ (n.room r).flt.secondary = 0 ∧
  (n.room r).frozen = true ∧ (n.room r).evt = (s.room r).evt ||| 2 ∧ RoomStopped s n r

/-! ### Host accesses and tallies -/

/-- An access of function `f` takes effect at once, for room `r` that exists: no TLP waits before it and no sleep negotiation is under way (R407, R420). -/
def HostAt (s : State) (f : FnId) (r : Nat) : Prop := s.pow.neg = none ∧ f.val = r + 1 ∧ (s.fn f).held = [] ∧ (s.room r).exists' = true

/-- Room `x` once a refused advance of tally `t` with `code` from SOURCE `src` is in its TALLY_ERR (R123, R395). The record keeps 13 bits of a larger number (DESIGN CHOICE, log 121). -/
def tallyErred (x : Room) (code src t : Nat) : Room := { x with tallyErr := BitVec.ofNat 32 (65536 * code + 8192 * src + t % 8192), tallyEvt := x.tallyEvt ||| 1 }

/-- From `s` to `n` an advance of tally `t` is refused with `code` and TALLY_ERR.SOURCE `src` (R95, R123): counted, recorded with its event in TALLY_ERR of the unit's room `r` and of the room that holds the tally, and nothing else. -/
def AdvanceRefused (s n : State) (r code src t : Nat) : Prop :=
  n.tal = { s.tal with refused := s.tal.refused + 1 } ∧
  n.room r = tallyErred (s.room r) code src t ∧
  (∀ k, k ≠ r → n.room k = if s.tallyRoom t = some k then tallyErred (s.room k) code src t else s.room k) ∧ (∀ k, n.fn k = s.fn k) ∧ { n with tal := s.tal, rooms := s.rooms, fns := s.fns, irq := s.irq } = s

/-- Room `r` has taken the domain fault notice of a job from `origin` (R87, R119): FAULTED with cause 12, its mirrors frozen, its tiles as they were until the next cue boundary. -/
def Noticed (s n : State) (r : Nat) (origin : BitVec 16) : Prop :=
  (n.room r).state = .faulted ∧ (n.room r).flt.cause = 12 ∧ (n.room r).flt.origin = origin ∧ (n.room r).frozen = true ∧ (n.room r).haltAt = some s.clk.pos ∧
  (n.room r).evt = (s.room r).evt ||| 2 ∧ n.tiles = s.tiles ∧ n.cue = s.cue

/-! ### Cues (R63 to R92) -/

/-- A write by `w` reaches cue entry `c`, which room `r` owns (R63, R64). -/
def CueWriter (s : State) (w : Writer) (c : CueRef) (r : RoomId) : Prop :=
  s.cueOwnerOf c = some r.val ∧ match c with
  | .quire q _ => WriterReaches s w q r
  | .dev _ => ∃ f, w = .host f ∧ HostAt s f r

/-- From `s` to `n` cue entry `c` becomes `x`; nothing else changes but what `w` has staged and the router. -/
def OnlyCue (s n : State) (w : Writer) (c : CueRef) (x : CueEntry) : Prop :=
  n.cueAt c = x ∧ (∀ d, d ≠ c → n.cueAt d = s.cueAt d) ∧ (∀ k, { n.quire k with cue := (s.quire k).cue } = s.quire k) ∧ StagingOnly s n w ∧
  { n with cue := s.cue, quires := s.quires, tiles := s.tiles, fns := s.fns, irq := s.irq } = s

/-- CUE_ERR of the table of entry `c`, or of room `r` for a device entry (R89, R392). -/
def cueErrOf (s : State) (c : CueRef) (r : Nat) : W32 := match c with | .quire q _ => (s.quire q).cueErr | .dev _ => (s.room r).cueErr

/-- The entry as arming leaves it (R67). -/
def armed (e : CueEntry) : CueEntry := { e with arm := true, fires := 0, done := false, missCode := 0, due := none, restored := false }

/-- The fire of cue `c` is issued with action `a`: it is the next of its table, and no sleep negotiation is under way (R77). -/
def Fires (s : State) (c : CueRef) (a : Nat) (e : CueEntry) : Prop := s.cueNext c a = true ∧ s.pow.neg = none ∧ s.cueAt c = e

/-- Cue `c`, which was `e`, has fired: FIRES counts it and it moves on as R81 says; `miss` is the code of a refused action (R71). It is given where its next occurrence is still ahead. -/
def Fired (s n : State) (c : CueRef) (e : CueEntry) (miss : Nat) : Prop :=
  let x := s.cueAfter { e with fires := e.fires + 1, miss := if miss = 0 then e.miss else true, missCode := if miss = 0 then e.missCode else BitVec.ofNat 4 miss } true
  (x.arm = false ∨ s.cueReached x = false → n.cueAt c = x ∧ ∀ d, d ≠ c → n.cueAt d = s.cueAt d) ∧
  n.dev.cueMiss = (if miss = 0 then s.dev.cueMiss else s.dev.cueMiss + 1)

/-! ### The host attachment (R405 to R433) -/

/-- An access of function `f` takes effect at once: no TLP waits before it and no sleep negotiation is under way (R420). -/
def Direct (s : State) (f : FnId) : Prop := s.pow.neg = none ∧ (s.fn f).held = []

/-- The function with HOST_ERR recording an access and its event (R432): BAR number, offset and code. -/
def hostErred (x : Fn) (bar off code : Nat) : Fn := { x with hostErr := BitVec.ofNat 64 (off * 2 ^ 32 + bar * 16 + code), hostEvt := x.hostEvt ||| 1 }

/-- From `s` to `n` entry `k` of the MSI-X table of function `f` becomes `e`, `l` is sent, and nothing else changes. -/
def OnlyMsix (s n : State) (f : FnId) (k : Nat) (e : Msix) (l : List Out) : Prop :=
  Tbl.get {} (n.fn f).msix k = e ∧ (∀ j, j ≠ k → Tbl.get {} (n.fn f).msix j = Tbl.get {} (s.fn f).msix j) ∧ { n.fn f with msix := (s.fn f).msix } = s.fn f ∧
  (∀ j, j ≠ f.val → n.fn j = s.fn j) ∧ n.out = s.out ++ l ∧ { n with fns := s.fns, out := s.out } = s

/-- Function `f` is at the state that R425 and R426 leave: aperture, MSI-X and mailbox at their reset values, HOST_ERR, HOST_EVT and the staging slot kept. -/
def HostSideReset (f : Nat) (x y : Fn) : Prop :=
  y = { hostErr := x.hostErr, hostEvt := x.hostEvt, stage := x.stage, latch := x.latch, held := x.held.filter (heldPosted f) }

/-! ### Bilbin (R442 to R465) -/

/-- Frame `q` reaches the part on an Ethernet or mailbox transport and passes point 8 and the version check (R366, R455 steps 1 and 2). -/
def FrameReaches (s : State) (tr : BitVec 8) (q : Frame) : Prop :=
  tr.toNat < 19 ∧ s.hears tr = true ∧ s.pow.neg = none ∧ frameGood q = true ∧ Uninjected s 8 255 ∧ q.ver = 1

/-- Frame `q` belongs to the open session `x`, its TAG is right, and its client lies in the range of key slot `k` (R450, R455 steps 3 to 5). -/
def InSession (s : State) (tr : BitVec 8) (q : Frame) (x : Session) (k : KeySlot) : Prop :=
  FrameReaches s tr q ∧ s.openSession tr q.session = some x ∧ q.tag = frameTag x.ks q ∧ s.slotOf x.slot = k ∧ k.has q.client = true

/-- Command `c` completes from `s`: it leaves `u` and sends the reply `f` on transport `tr` under session key `ks`, nothing else but the router (R446, R450). -/
def Replies (s : State) (c : Instr) (u : State) (tr : BitVec 8) (f : Frame) (ks : Option (List Byte)) : Prop :=
  ∃ n, exec c s = .next n ∧ { n with irq := (u.sendFrame tr f ks).irq } = u.sendFrame tr f ks

/-- `u` with a refused frame counted as `k` of #6304.01. -/
def refusedAs (u : State) (k : Nat) : State := { u with bil := { u.bil with errors := Tbl.put 0 u.bil.errors k (Tbl.get 0 u.bil.errors k + 1) } }

/-- A setting is written: in `n` entry `idx`.`sub` holds `v`, and every other writable entry what it held in `s`. -/
def OnlySetting (s n : State) (idx sub : Nat) (v : List Byte) : Prop :=
  n.cfg idx sub = v ∧ ∀ i j, i < 0x10000 → j < 256 → (i ≠ idx ∨ j ≠ sub) → n.cfg i j = s.cfg i j

/-- The island's SMBus block answer, and no write awaited, with `b` as the reply (R444, R535). -/
def smbusReplied (s : State) (b : Option (List Byte)) : State := { s with bil := { s.bil with smbusReply := b, smbusWait := none } }

/-! ### The Ledger and the Vault (R466 to R490) -/

/-- The records of a Ledger rise in accession number from 1, below the next one; its checkpoint stands for records made. -/
def Ordered (l : Ledger) : Prop :=
  l.recs.Pairwise (fun a b => a.accession.toNat < b.accession.toNat) ∧ (∀ r ∈ l.recs, r.accession ≠ 0 ∧ r.accession.toNat < l.nextAcc.toNat) ∧
  (∀ c, l.last = some c → c.a.toNat < l.nextAcc.toNat) ∧ l.nextAcc.toNat + 0x10000 < 2 ^ 64

/-- The Ledger takes `k` more event entries at once: none waits, and that many slots are free (R469, R479). -/
def RoomForEvents (l : Ledger) (k : Nat) : Prop := Ordered l ∧ l.deferred = [] ∧ k ≤ ledFree l

/-- The Ledger holds an event record with code `code` and fields `v` (R469). -/
def EventHeld (n : State) (code : BitVec 16) (v : List Byte) : Prop := ∃ y ∈ n.led.recs, y.kind = 3 ∧ y.done = true ∧ y.index = code ∧ y.value = v

/-- VAULT_END is recorded for job `j` with `bytes` done and a code of R485. -/
def JobEnded (n : State) (j : VaultJob) (bytes code : Nat) : Prop :=
  EventHeld n 6 (leBytes 2 j.object.toNat ++ leBytes 8 j.accession.toNat ++ leBytes 8 bytes ++ leBytes 1 code)

/-- The COMMAND record `r` of the Ledger stays open until recovery: not DONE, not acknowledged, and no entry of it torn (R474). -/
def OpenRec (s : State) (torn : List Nat) (r : Record) : Prop := r ∈ s.led.recs ∧ r.kind = 1 ∧ r.done = false ∧ r.acked = false ∧ hit torn r.slots = false

/-- The hold-up check for an extent of `bytes` passes with the free values that it measures next (R488, log 36). -/
def holdPasses (s : State) (bytes : Nat) : Bool := s.pow.inputOk && holdEnough (Config.free 32 s.free).toNat (Config.free 32 (s.free + 1)).toNat bytes

/-! ### Glaze (R493 to R517, R584) -/

/-- From `s` to `n` a command changes pipe `p` alone, which becomes `x`, beside what recording and replying change. -/
def OnlyPipe (s n : State) (p : Nat) (x : Pipe) : Prop :=
  n.pipe p = x ∧ (∀ k, k ≠ p → n.pipe k = s.pipe k) ∧ ReplyOnly { s with glz := { s.glz with pipe := n.glz.pipe } } n

/-- Command `c` completes from `s`; the output `o` becomes `x`, and nothing else changes but the router. -/
def LeavesVid (s : State) (c : Instr) (o : VidOut) (x : VOut) : Prop :=
  ∃ n, exec c s = .next n ∧ n.vid o = x ∧ (∀ k, k ≠ o → n.vid k = s.vid k) ∧ n.vout 2 = s.vout 2 ∧
    { n with glz := { n.glz with out := s.glz.out, refLoop := s.glz.refLoop }, irq := s.irq } = s

/-- The pipe after a commit refused with `code` and `layer` (R508); its read has ended (R507). -/
def commitRefused (x : Pipe) (code layer : Nat) : Pipe :=
  { x with refused := true, refCode := BitVec.ofNat 8 code, refLayer := BitVec.ofNat 8 layer, refusals := x.refusals + 1, reading := false, takenAt := none }

/-- Layer `l` of a pipe holds a state `y` from this boundary on, which shows its previous state still (R511, R512). -/
def Held (x y : Pipe) (l : Nat) (z : Layer) : Prop :=
  imageLayer y.active l = imageLayer x.active l ∧ Tbl.get none y.heldL l = some z ∧ Tbl.get 0 y.heldCnt l = Tbl.get 0 x.heldCnt l + 1

/-- Layer `l` of a pipe shows state `z` from this boundary on (R512). -/
def Flipped (y : Pipe) (l : Nat) (z : Layer) : Prop := imageLayer y.active l = z ∧ Tbl.get none y.heldL l = none ∧ Tbl.get 0 y.heldCnt l = 0

/-! ### Power, resets and boot (R519 to R557, R565 to R577) -/

/-- The hub domain has lost power or been reset, from `s` to `n` (R430, R537, R541): the power state is `st` and the cause of the next power-on `cause`; what MRAM, NAND, fuses and the island hold is kept, and the rest is at its reset value. -/
def HubLost (s n : State) (st : PowerState) (cause : BitVec 8) : Prop :=
  n.pow.state = st ∧ n.pow.boot = .rom ∧ n.pow.cause = cause ∧ n.pow.resetPos = s.posOrZero ∧ n.pow.neg = none ∧ n.pow.onHoldup = false ∧ n.pow.standbyDue = false ∧
  n.pow.island = s.pow.island ∧ n.pow.store = s.pow.store ∧ n.pow.bootLog = s.pow.bootLog ∧ n.pow.refusals = s.pow.refusals ∧ n.pow.lastReset = s.pow.lastReset ∧
  n.mem = [] ∧ n.synd = [] ∧ n.tiles = [] ∧ n.quires = [] ∧ n.sdma = [] ∧ n.wins = [] ∧ n.cue = [] ∧ n.ent = [] ∧ n.fns = [] ∧ n.ports = [] ∧ n.clk = {} ∧ n.tal = {} ∧ n.irq = {} ∧ n.fab = {} ∧ n.dev = {} ∧
  (∀ k, { n.room k with flt := {} } = {}) ∧ (Tbl.wf {} s.rooms = true → ∀ k, (n.room k).flt = (s.room k).flt) ∧
  n.plans = s.plans ∧ n.reb.bank = s.reb.bank ∧ n.reb.marks = s.reb.marks ∧ n.reb.markLog = s.reb.markLog ∧ n.integ.log = s.integ.log ∧
  (∀ k, n.keySlot k = { s.keySlot k with heldOff := false }) ∧ n.bil.sessions = [] ∧
  n.led.recs = s.led.recs.map (fun r => { r with waiting := [], full := [] }) ∧ n.led.nextAcc = s.led.nextAcc ∧ n.led.last = s.led.last ∧ n.led.running = none ∧ n.led.deferred = [] ∧
  n.vault.objects = s.vault.objects ∧ n.vault.jobs = s.vault.jobs.map (fun j => { j with inExtent := false, stop := some 3 }) ∧ n.pending = s.pending ∧ n.out = s.out

/-- Command `c` completes from `s` with the hub domain lost as `HubLost` says, in a state that satisfies `P`. -/
def LosesHub (s : State) (c : Instr) (st : PowerState) (cause : BitVec 8) (P : State → Prop) : Prop := ∃ n, exec c s = .next n ∧ HubLost s n st cause ∧ P n

/-- A sleep negotiation has been refused by block `b` with `reason` (R529): it has ended, and the refusal is logged with the count `k` of its target. -/
def SleepRefused (s n : State) (m : Negotiation) (b reason k : Nat) : Prop :=
  n.pow.neg = none ∧ n.pow.state = s.pow.state ∧ n.pow.standbyDue = s.pow.standbyDue ∧
  n.pow.refusals = lastN 64 (s.pow.refusals ++ [{ target := m.target, block := BitVec.ofNat 8 b, reason := BitVec.ofNat 8 reason, k := BitVec.ofNat 8 k, pos := s.posOrZero }]) ∧
  n.pow.kIdle = (if m.target = 1 then k else s.pow.kIdle) ∧ n.pow.kStandby = (if m.target = 2 then k else s.pow.kStandby)

/-- The command of record `a` is taking effect, and no other waits (R456). Its record is a COMMAND that no ACK has reached, and it is not DEVICE_RESET. -/
def TakingEffect (s : State) (a : W64) (x : Record) : Prop :=
  s.led.current = some a ∧ s.led.queue = [] ∧ s.record a = some x ∧ x.kind = 1 ∧ x.acked = false ∧ ¬ (x.index = 0x9001 ∧ x.sub = 2)

/-- The record `a` is DONE in `n` with `status` and result `res` (R456, R472). -/
def DoneAs (n : State) (a : W64) (status : BitVec 8) (res : List Byte) : Prop := ∃ y, n.record a = some y ∧ y.done = true ∧ y.status = status ∧ y.result = res

/-! ### What holds in every state -/

/-- Memory and its syndromes are in canonical form, so that equal contents are equal data. -/
def CanonicalMemory (s : State) : Prop := Memory.wf s.mem = true ∧ Tbl.wf 0 s.synd = true

/-- The logs and lists that the spec bounds hold no more than their bound (R252, R283, R367, R449, R479, R557). -/
structure LogsBounded (s : State) : Prop where
  errors : s.reb.errLog.length ≤ 256
  marks : s.reb.markLog.length ≤ 1024
  integrity : s.integ.log.length ≤ 256
  refusals : s.pow.refusals.length ≤ 64
  boots : s.pow.bootLog.length ≤ 16
  deferred : s.led.deferred.length ≤ 1024
  sessions : s.bil.sessions.length ≤ 64

end Sys2Proof
end

