-- ==== Sys2Proof/Certificates/Slice0/Obligations.lean ====
section
/-! DEFINITION. The statements for the provers. -/

open Sys2Proof Sys2Proof.Machine

/-- NOP, MOV, MOVI, MOVA, GETL, GETH, PUTL, PUTH and LEA change only their destination register, in the bank that SW.SB, XR and XW choose (R127, R141, R186). -/
def Obligations.RegisterMovesWriteTheirDestination : Prop :=
  (∀ (s u : State) (t : TileId),
      (Fetches s t 1 u →
        Retires s u t (.nop t) 1 (u.tile t) ∧
        (∀ x y : Dn, Retires s u t (.mov t x y) 1 (setDX (u.tile t) x (getDX (u.tile t) y))) ∧
        (∀ x y : An, Retires s u t (.mova t x (.reg y)) 1 (setAX (u.tile t) x (getAX (u.tile t) y))) ∧
        (∀ (x : Dn) (y : An), Retires s u t (.getl t x y) 1 (setD (u.tile t) x ((getA (u.tile t) y).extractLsb' 0 16))) ∧
        (∀ (x : Dn) (y : An), Retires s u t (.geth t x y) 1 (setD (u.tile t) x ((getA (u.tile t) y).extractLsb' 16 16))) ∧
        (∀ (x : An) (y : Dn), Retires s u t (.putl t x y) 1 (setA (u.tile t) x ((getA (u.tile t) x).extractLsb' 16 16 ++ getD (u.tile t) y))) ∧
        (∀ (x : An) (y : Dn), Retires s u t (.puth t x y) 1 (setA (u.tile t) x (getD (u.tile t) y ++ (getA (u.tile t) x).extractLsb' 0 16)))) ∧
      (Fetches s t 2 u →
        (∀ (x : Dn) (i : W16), Retires s u t (.movi t x i) 2 (setD (u.tile t) x i)) ∧
        (∀ (x y : An) (d : W16), Retires s u t (.lea t x y (.d16 d)) 2 (setA (u.tile t) x (getA (u.tile t) y + d.signExtend 32)))) ∧
      (Fetches s t 3 u →
        (∀ (x : An) (i : W32), Retires s u t (.mova t x (.imm i)) 3 (setAX (u.tile t) x i)) ∧
        (∀ (x y : An) (d : W32), Retires s u t (.lea t x y (.d32 d)) 3 (setA (u.tile t) x (getA (u.tile t) y + d))))) ∧
  (∀ (x : Tile) (n m : Nat) (v : W16) (w : W32),
      getD (setD x n v) m = (if m = n then v else getD x m) ∧
      getA (setA x n w) m = (if m = n then w else getA x m) ∧
      (swSB x.sw = true → (setD x n v).d = x.d ∧ (setA x n w).a = x.a) ∧
      (swSB x.sw = false → (setD x n v).sd = x.sd ∧ (setA x n w).sa = x.sa) ∧
      (x.priv.xr = false → getDX x n = getD x n ∧ getAX x n = getA x n) ∧
      (x.priv.xr = true → getDX x n = Tbl.get 0 x.d n ∧ getAX x n = Tbl.get 0 x.a n) ∧
      (x.priv.xw = false → setDX x n v = setD x n v ∧ setAX x n w = setA x n w) ∧
      (x.priv.xw = true → (setDX x n v).sd = x.sd ∧ Tbl.get 0 (setDX x n v).d n = v ∧ (setAX x n w).sa = x.sa ∧ Tbl.get 0 (setAX x n w).a n = w))

/-- ADD, ADDC, SUB, SUBC, CMP and NEG give the 16-bit result and set Z, N, C and V from it (R140). -/
def Obligations.AddAndSubtractSetResultAndFlags : Prop :=
  ∀ (s u : State) (t : TileId) (x : Dn),
    (∀ b : Src, Fetches s t (srcWords b) u →
      let a := getD (u.tile t) x
      let y := srcVal (u.tile t) b
      let c := swC (u.tile t).sw
      let fits : Int → Bool := fun n => -32768 ≤ n && n ≤ 32767
      Retires s u t (.add t x b) (srcWords b) { setD (u.tile t) x (a + y) with
        sw := withZNCV (u.tile t).sw (a + y = 0) (a + y).msb (65536 ≤ a.toNat + y.toNat) (!fits (a.toInt + y.toInt)) } ∧
      Retires s u t (.addc t x b) (srcWords b) { setD (u.tile t) x (a + y + BitVec.ofNat 16 c.toNat) with
        sw := withZNCV (u.tile t).sw (a + y + BitVec.ofNat 16 c.toNat = 0) (a + y + BitVec.ofNat 16 c.toNat).msb
          (65536 ≤ a.toNat + y.toNat + c.toNat) (!fits (a.toInt + y.toInt + c.toNat)) } ∧
      Retires s u t (.sub t x b) (srcWords b) { setD (u.tile t) x (a - y) with
        sw := withZNCV (u.tile t).sw (a - y = 0) (a - y).msb (a.toNat < y.toNat) (!fits (a.toInt - y.toInt)) } ∧
      Retires s u t (.subc t x b) (srcWords b) { setD (u.tile t) x (a - y - BitVec.ofNat 16 c.toNat) with
        sw := withZNCV (u.tile t).sw (a - y - BitVec.ofNat 16 c.toNat = 0) (a - y - BitVec.ofNat 16 c.toNat).msb
          (a.toNat < y.toNat + c.toNat) (!fits (a.toInt - y.toInt - c.toNat)) } ∧
      Retires s u t (.cmp t x b) (srcWords b) { u.tile t with
        sw := withZNCV (u.tile t).sw (a - y = 0) (a - y).msb (a.toNat < y.toNat) (!fits (a.toInt - y.toInt)) }) ∧
    (Fetches s t 1 u →
      let a := getD (u.tile t) x
      Retires s u t (.neg t x) 1 { setD (u.tile t) x (-a) with
        sw := withZNCV (u.tile t).sw (a = 0) (-a).msb (a ≠ 0) (a = 0x8000) })

/-- AND, OR, XOR, NOT, BSWAP, CLZ, POPC, ABS and the four multiplies give the result of their row and set only the flags it names (R140, R143). -/
def Obligations.LogicCountsAndMultipliesSetTheirFlags : Prop :=
  (∀ (s u : State) (t : TileId),
      (∀ (x : Dn) (b : Src), Fetches s t (srcWords b) u →
        let a := getD (u.tile t) x
        let y := srcVal (u.tile t) b
        let res : W16 → Tile := fun r => { setD (u.tile t) x r with sw := withZN (u.tile t).sw r }
        Retires s u t (.and t x b) (srcWords b) (res (a &&& y)) ∧
        Retires s u t (.or t x b) (srcWords b) (res (a ||| y)) ∧
        Retires s u t (.xor t x b) (srcWords b) (res (a ^^^ y))) ∧
      (Fetches s t 1 u → ∀ x y : Dn,
        let a := getD (u.tile t) x
        let b := getD (u.tile t) y
        Retires s u t (.not t x) 1 { setD (u.tile t) x (~~~a) with sw := withZN (u.tile t).sw (~~~a) } ∧
        Retires s u t (.bswap t x y) 1 { setD (u.tile t) x (b.extractLsb' 0 8 ++ b.extractLsb' 8 8) with
          sw := withZN (u.tile t).sw (b.extractLsb' 0 8 ++ b.extractLsb' 8 8) } ∧
        (∀ n : Nat, (b.toNat = 0 ∧ n = 16 ∨ n < 16 ∧ 2 ^ (15 - n) ≤ b.toNat ∧ b.toNat < 2 ^ (16 - n)) →
          Retires s u t (.clz t x y) 1 { setD (u.tile t) x (BitVec.ofNat 16 n) with
            sw := ((u.tile t).sw &&& 0xFFFD) ||| (if n = 0 then 2 else 0) }) ∧
        (Retires s u t (.popc t x y) 1 { setD (u.tile t) x (BitVec.ofNat 16 ((List.range 16).countP fun i => b.getLsbD i)) with
          sw := ((u.tile t).sw &&& 0xFFFD) ||| (if b = 0 then 2 else 0) }) ∧
        (a ≠ 0x8000 → Retires s u t (.abs t x) 1 { setD (u.tile t) x (BitVec.ofNat 16 a.toInt.natAbs) with
          sw := ((u.tile t).sw &&& 0xFFF1) ||| (if a = 0 then 2 else 0) }) ∧
        (a = 0x8000 → Retires s u t (.abs t x) 1 { setD (u.tile t) x 0x7FFF with sw := ((u.tile t).sw &&& 0xFFF1) ||| 0x18 }))) ∧
  (∀ (s u : State) (t : TileId) (x y : Dn), Fetches s t 1 u →
      let a := getD (u.tile t) x
      let b := getD (u.tile t) y
      let w := (u.tile t).sw
      let res : W16 → Bool → Tile := fun r v => { setD (u.tile t) x r with sw := withZNCV w (r = 0) r.msb (swC w) v }
      Retires s u t (.mul t x y) 1 (res (a * b) (!(decide (-32768 ≤ a.toInt * b.toInt) && decide (a.toInt * b.toInt ≤ 32767)))) ∧
      Retires s u t (.mulu t x y) 1 (res (a * b) (decide (65536 ≤ a.toNat * b.toNat))) ∧
      Retires s u t (.mulh t x y) 1 (res (BitVec.ofInt 16 (a.toInt * b.toInt / 65536)) false) ∧
      Retires s u t (.mulhu t x y) 1 (res (BitVec.ofNat 16 (a.toNat * b.toNat / 65536)) false))

/-- SHL, SHR, SAR and ROL shift by the count and set Z, N and C (R144). -/
def Obligations.ShiftsSetCarryToTheLastBitOut : Prop :=
  ∀ (s u : State) (t : TileId) (x : Dn) (n : ShiftBy), Fetches s t 1 u →
    let a := getD (u.tile t) x
    let k := match n with | .reg y => (getD (u.tile t) y).toNat % 16 | .imm i => i.val
    let w := (u.tile t).sw
    let res : W16 → Bool → Tile := fun r c => { setD (u.tile t) x r with
      sw := if k = 0 then withZN w r else (withZN w r &&& 0xFFFE) ||| BitVec.ofNat 16 c.toNat }
    Retires s u t (.shl t x n) 1 (res (BitVec.ofNat 16 (a.toNat * 2 ^ k)) (a.toNat.testBit (16 - k))) ∧
    Retires s u t (.shr t x n) 1 (res (BitVec.ofNat 16 (a.toNat / 2 ^ k)) (a.toNat.testBit (k - 1))) ∧
    Retires s u t (.sar t x n) 1 (res (BitVec.ofInt 16 (a.toInt / 2 ^ k)) (a.toNat.testBit (k - 1))) ∧
    Retires s u t (.rol t x n) 1 (res (BitVec.ofNat 16 (a.toNat * 2 ^ k + a.toNat / 2 ^ (16 - k))) (a.toNat.testBit (16 - k)))

/-- ADDA, CMPA, EXT and INS complete as their rows state, and EXT and INS with a reserved bit raise ILLEGAL_OP (R143, R145, R134). -/
def Obligations.AddressArithmeticAndBitFields : Prop :=
  ∀ (s u : State) (t : TileId),
    (Fetches s t 1 u →
      (∀ (x : An) (y : Dn), Retires s u t (.adda t x (.reg y)) 1 (setA (u.tile t) x (getA (u.tile t) x + (getD (u.tile t) y).signExtend 32))) ∧
      (∀ x y : An, let a := getA (u.tile t) x; let b := getA (u.tile t) y
        Retires s u t (.cmpa t x y) 1 { u.tile t with
          sw := withZNCV (u.tile t).sw (a = b) (a - b).msb (a.toNat < b.toNat)
            (!(decide (-2147483648 ≤ a.toInt - b.toInt) && decide (a.toInt - b.toInt ≤ 2147483647))) })) ∧
    (Fetches s t 2 u →
      (∀ (x : An) (d : W16), Retires s u t (.adda t x (.d16 d)) 2 (setA (u.tile t) x (getA (u.tile t) x + d.signExtend 32))) ∧
      (∀ (x y : Dn) (spec : W16),
        let w := (spec.extractLsb' 4 4).toNat + 1
        let p := if spec.getLsbD 9 then (getD (u.tile t) (spec.extractLsb' 12 4).toNat).toNat % 16 else (spec.extractLsb' 0 4).toNat
        let a := getD (u.tile t) x
        let b := getD (u.tile t) y
        let f := b.toNat / 2 ^ p % 2 ^ w
        let ext : W16 := if spec.getLsbD 8 && f.testBit (w - 1) then BitVec.ofInt 16 ((f : Int) - 2 ^ w) else BitVec.ofNat 16 f
        let m : W16 := BitVec.ofNat 16 ((2 ^ w - 1) * 2 ^ p)
        let ins : W16 := (a &&& ~~~m) ||| ((b <<< p) &&& m)
        (spec.extractLsb' 10 2 = 0 → Retires s u t (.ext t x y spec) 2 { setD (u.tile t) x ext with sw := withZN (u.tile t).sw ext }) ∧
        (spec.extractLsb' 10 2 ≠ 0 → Faults s u t (.ext t x y spec) 1 0) ∧
        (spec.extractLsb' 10 2 = 0 → spec.getLsbD 8 = false → Retires s u t (.ins t x y spec) 2 { setD (u.tile t) x ins with sw := withZN (u.tile t).sw ins }) ∧
        (spec.extractLsb' 10 2 ≠ 0 ∨ spec.getLsbD 8 = true → Faults s u t (.ins t x y spec) 1 0))) ∧
    (Fetches s t 3 u → ∀ (x : An) (d : W32), Retires s u t (.adda t x (.d32 d)) 3 (setA (u.tile t) x (getA (u.tile t) x + d)))

/-- MACR, ADDACC, CLRA, WRACC and RDACC compute as their rows state, with SV on wrap and SAT on saturation (R146, R147, R148). -/
def Obligations.AccumulatorsHoldExactSumsModulo40Bits : Prop :=
  ∀ (s u : State) (t : TileId),
    (Fetches s t 1 u →
      let res : Accn → Int → Tile := fun n v => { setAcc (u.tile t) n (BitVec.ofInt 40 v) with
        sw := if -(2 ^ 39) ≤ v ∧ v < 2 ^ 39 then (u.tile t).sw else (u.tile t).sw ||| 0x20 }
      (∀ (n : Accn) (x y : Dn), Retires s u t (.macr t n x y) 1
        (res n ((getAcc (u.tile t) n).toInt + (getD (u.tile t) x).toInt * (getD (u.tile t) y).toInt))) ∧
      (∀ n m : Accn, Retires s u t (.addacc t n m) 1 (res n ((getAcc (u.tile t) n).toInt + (getAcc (u.tile t) m).toInt))) ∧
      (∀ n : Accn, Retires s u t (.clra t n) 1 (setAcc (u.tile t) n 0)) ∧
      (∀ (n : Accn) (y : Dn), Retires s u t (.wracc t n y) 1 (setAcc (u.tile t) n ((getD (u.tile t) y).signExtend 40)))) ∧
    (Fetches s t 2 u → ∀ (x : Dn) (n : Accn) (spec : W16),
      let sh := (spec.extractLsb' 0 6).toNat
      let v0 := (getAcc (u.tile t) n).toInt
      let v := (if spec.getLsbD 9 = true ∧ 0 < sh then v0 + 2 ^ (sh - 1) else v0) / 2 ^ sh
      (sh ≤ 39 → spec &&& 0xFCC0 = 0 →
        (spec.getLsbD 8 = false ∨ -32768 ≤ v ∧ v ≤ 32767 → Retires s u t (.rdacc t x n spec) 2 (setD (u.tile t) x (BitVec.ofInt 16 v))) ∧
        (spec.getLsbD 8 = true → 32767 < v → Retires s u t (.rdacc t x n spec) 2 { setD (u.tile t) x 0x7FFF with sw := (u.tile t).sw ||| 0x10 }) ∧
        (spec.getLsbD 8 = true → v < -32768 → Retires s u t (.rdacc t x n spec) 2 { setD (u.tile t) x 0x8000 with sw := (u.tile t).sw ||| 0x10 })) ∧
      (39 < sh ∨ spec &&& 0xFCC0 ≠ 0 → Faults s u t (.rdacc t x n spec) 1 0))

/-- LD, LDA, POP, POPA and LDACC write the words they load and update the address register as their mode says (R141, R135, R136, R146, R150). -/
def Obligations.LoadsWriteTheValueRead : Prop :=
  ∀ (s u v : State) (t : TileId) (l : List W16) (y : An),
    let a := getA (u.tile t) y
    let z := v.tile t
    let lo := l.getD 0 0
    let hi := l.getD 1 0
    (Fetches s t 1 u →
      (∀ x : Dn, u.load t .ldst a.toNat 1 = .ok l v →
        Retires s v t (.ld t x y .ind) 1 (setD z x lo) ∧
        Retires s v t (.ld t x y .postInc) 1 (setD (setA z y (getA z y + 1)) x lo)) ∧
      (∀ x : Dn, u.load t .ldst (a - 1).toNat 1 = .ok l v →
        Retires s v t (.ld t x y .preDec) 1 (setD (setA z y (getA z y - 1)) x lo)) ∧
      (∀ x : An, u.load t .ldst a.toNat 2 = .ok l v →
        Retires s v t (.lda t x y .ind) 1 (setA z x (hi ++ lo)) ∧
        Retires s v t (.lda t x y .postInc) 1 (setA (setA z y (getA z y + 2)) x (hi ++ lo))) ∧
      (∀ x : An, u.load t .ldst (a - 2).toNat 2 = .ok l v →
        Retires s v t (.lda t x y .preDec) 1 (setA (setA z y (getA z y - 2)) x (hi ++ lo))) ∧
      (∀ x : Dn, u.load t .other (getA (u.tile t) 7).toNat 1 = .ok l v → Retires s v t (.pop t x) 1 (setD (setA z 7 (getA z 7 + 1)) x lo)) ∧
      (∀ x : An, u.load t .other (getA (u.tile t) 7).toNat 2 = .ok l v → Retires s v t (.popa t x) 1 (setA (setA z 7 (getA z 7 + 2)) x (hi ++ lo))) ∧
      (∀ n : Accn, u.load t .other a.toNat 3 = .ok l v → Retires s v t (.ldacc t n y) 1 (setAcc z n ((l.getD 2 0).extractLsb' 0 8 ++ hi ++ lo))) ∧
      (∀ (x : Dn) (c w : Nat), u.load t .ldst a.toNat 1 = .fault c w v → exec (.ld t x y .ind) s = .next (v.takeSync t c w))) ∧
    (Fetches s t 2 u → ∀ d : W16,
      (∀ x : Dn, u.load t .ldst (a + d.signExtend 32).toNat 1 = .ok l v → Retires s v t (.ld t x y (.disp d)) 2 (setD z x lo)) ∧
      (∀ x : An, u.load t .ldst (a + d.signExtend 32).toNat 2 = .ok l v → Retires s v t (.lda t x y (.disp d)) 2 (setA z x (hi ++ lo))))

/-- ST, STA, PUSH, PUSHA, STACC, TRD and RDPOS complete by placing one entry with their words at their address into the store buffer (R156). -/
def Obligations.StoresPlaceOneEntryInTheStoreBuffer : Prop :=
  ∀ (s u v : State) (t : TileId) (y : An), BufferTakes u t v →
    let x := u.tile t
    let z := v.tile t
    let a := getA x y
    let a7 := getA x 7
    let lo : W32 → W16 := fun w => w.extractLsb' 0 16
    let hi : W32 → W16 := fun w => w.extractLsb' 16 16
    let four : W64 → List W16 := fun p => [p.extractLsb' 0 16, p.extractLsb' 16 16, p.extractLsb' 32 16, p.extractLsb' 48 16]
    (Fetches s t 1 u →
      (∀ d : Dn, u.storeFault t .ldst a.toNat 1 = none →
        Retires s v t (.st t d y .ind) 1 (buffered z a [getD x d]) ∧
        Retires s v t (.st t d y .postInc) 1 (setA (buffered z a [getD x d]) y (getA z y + 1))) ∧
      (∀ d : Dn, u.storeFault t .ldst (a - 1).toNat 1 = none →
        Retires s v t (.st t d y .preDec) 1 (setA (buffered z (a - 1) [getD x d]) y (getA z y - 1))) ∧
      (∀ d : An, u.storeFault t .ldst a.toNat 2 = none →
        Retires s v t (.sta t d y .ind) 1 (buffered z a [lo (getA x d), hi (getA x d)]) ∧
        Retires s v t (.sta t d y .postInc) 1 (setA (buffered z a [lo (getA x d), hi (getA x d)]) y (getA z y + 2))) ∧
      (∀ d : An, u.storeFault t .ldst (a - 2).toNat 2 = none →
        Retires s v t (.sta t d y .preDec) 1 (setA (buffered z (a - 2) [lo (getA x d), hi (getA x d)]) y (getA z y - 2))) ∧
      (∀ d : Dn, u.storeFault t .other (a7 - 1).toNat 1 = none →
        Retires s v t (.push t d) 1 (setA (buffered z (a7 - 1) [getD x d]) 7 (a7 - 1))) ∧
      (∀ d : An, u.storeFault t .other (a7 - 2).toNat 2 = none →
        Retires s v t (.pusha t d) 1 (setA (buffered z (a7 - 2) [lo (getA x d), hi (getA x d)]) 7 (a7 - 2))) ∧
      (∀ n : Accn, u.storeFault t .other a.toNat 3 = none →
        Retires s v t (.stacc t n y) 1 (buffered z a [(getAcc x n).extractLsb' 0 16, (getAcc x n).extractLsb' 16 16, ((getAcc x n).extractLsb' 32 8).signExtend 16])) ∧
      (u.storeFault t .other a.toNat 4 = none → Retires s v t (.rdpos t y) 1 (buffered z a (four u.clk.pos))) ∧
      (∀ d : Dn, u.storeFault t .other a.toNat 4 = none → u.tileOwnsTally t (getD x d).toNat = true →
        Retires s v t (.trd t d y) 1 (buffered z a (four (u.tally (getD x d).toNat))))) ∧
    (Fetches s t 2 u → ∀ e : W16,
      (∀ d : Dn, u.storeFault t .ldst (a + e.signExtend 32).toNat 1 = none →
        Retires s v t (.st t d y (.disp e)) 2 (buffered z (a + e.signExtend 32) [getD x d])) ∧
      (∀ d : An, u.storeFault t .ldst (a + e.signExtend 32).toNat 2 = none →
        Retires s v t (.sta t d y (.disp e)) 2 (buffered z (a + e.signExtend 32) [lo (getA x d), hi (getA x d)])))

/-- A scratchpad load reads memory little-endian or the youngest overlapping store, and a drained store changes exactly its bytes (R130, R131, R157, R158, R248). -/
def Obligations.MemoryAccessesReadAndWriteLittleEndianWords : Prop :=
  ∀ (s : State) (t : TileId), (∀ g, s.syndAt g = 0) →
    (∀ (k : Acc) (a n : Nat), 0 < n → a + n ≤ s.usable t * 768 → s.usable t ≤ 1024 →
      (swS (s.tile t).sw = true ∨ (s.tile t).priv.supBlocks.toNat * 32 ≤ a) →
      ((∀ e ∈ (s.tile t).sb, e.addr.toNat + e.words.length ≤ a ∨ a + n ≤ e.addr.toNat) →
        s.load t k a n = .ok ((List.range n).map fun i =>
          s.byteAt (scratchBase t + 2 * (a + i) + 1) ++ s.byteAt (scratchBase t + 2 * (a + i))) s) ∧
      (∀ e, (s.tile t).sb = [e] → e.addr.toNat ≤ a → a + n ≤ e.addr.toNat + e.words.length →
        ∃ v, s.load t k a n = .ok ((e.words.drop (a - e.addr.toNat)).take n) v ∧ OnlyTile s v t (perfCount 10 (swS (s.tile t).sw) (s.tile t)))) ∧
    (∀ (k : Acc) (a n : Nat), s.tileRegion t a = none → s.load t k a n = .fault 3 (a % 2 ^ 32) s) ∧
    (∀ (e : SbEntry) (rest : List SbEntry) (w : Nat), (s.tile t).sb = e :: rest → s.tileRegion t e.addr.toNat = some (.scratch w) →
      ∃ n, exec (.storeDrain t) s = .next n ∧ (n.tile t).sb = rest ∧
        (∀ i (hi : i < e.words.length),
          n.byteAt (scratchBase t + 2 * w + 2 * i) = (e.words[i]).extractLsb' 0 8 ∧
          n.byteAt (scratchBase t + 2 * w + 2 * i + 1) = (e.words[i]).extractLsb' 8 8) ∧
        (∀ a, a < scratchBase t + 2 * w ∨ scratchBase t + 2 * w + 2 * e.words.length ≤ a → n.byteAt a = s.byteAt a) ∧
        (∀ k : Nat, k ≠ t → n.tile k = s.tile k))

/-- MAC, MSU, MACU and MACS accumulate the product of two words and step both pointers; the same pointer twice is ILLEGAL_OP (R146, R147). -/
def Obligations.MultiplyAccumulateReadsTwoScratchpadWords : Prop :=
  ∀ (s u v w : State) (t : TileId) (n : Accn) (i j : An) (la lb : List W16), Fetches s t 1 u →
    (i ≠ j →
      let p := (getA (u.tile t) i).toNat
      let q := (getA (u.tile t) j).toNat
      (u.macFault t p q = none → u.loadWords t p 1 = .ok la v → v.loadWords t q 1 = .ok lb w →
        let z := if p / 32 % 24 = q / 32 % 24 then perfCount 13 (swS (w.tile t).sw) (w.tile t) else w.tile t
        let a := la.getD 0 0
        let b := lb.getD 0 0
        let step : Tile → Tile := fun y => setA (setA y i (getA y i + 1)) j (getA y j + 1)
        let wrap : Int → Tile := fun r => step { setAcc z n (BitVec.ofInt 40 r) with sw := if -(2 ^ 39) ≤ r ∧ r < 2 ^ 39 then z.sw else z.sw ||| 0x20 }
        let clamp : Int → Tile := fun r => step (if r < -(2 ^ 39) then { setAcc z n 0x8000000000 with sw := z.sw ||| 0x10 }
          else if 2 ^ 39 ≤ r then { setAcc z n 0x7FFFFFFFFF with sw := z.sw ||| 0x10 } else setAcc z n (BitVec.ofInt 40 r))
        Retires s w t (.mac t n i j) 1 (wrap ((getAcc z n).toInt + a.toInt * b.toInt)) ∧
        Retires s w t (.msu t n i j) 1 (wrap ((getAcc z n).toInt - a.toInt * b.toInt)) ∧
        Retires s w t (.macu t n i j) 1 (wrap ((getAcc z n).toInt + (a.toNat : Int) * b.toNat)) ∧
        Retires s w t (.macs t n i j) 1 (clamp ((getAcc z n).toInt + a.toInt * b.toInt))) ∧
      (∀ c x, u.macFault t p q = some (c, x) → Faults s u t (.mac t n i j) c x ∧ Faults s u t (.macs t n i j) c x ∧
        Faults s u t (.msu t n i j) c x ∧ Faults s u t (.macu t n i j) c x)) ∧
    (i = j → Faults s u t (.mac t n i j) 1 0 ∧ Faults s u t (.macs t n i j) 1 0 ∧ Faults s u t (.msu t n i j) 1 0 ∧ Faults s u t (.macu t n i j) 1 0)

/-- BR, BRL, LOOP, JMP, CALL and RET set PC as their rows state and change no flag (R138, R149, R150, R162, R163). -/
def Obligations.BranchesAndCallsSetThePc : Prop :=
  ∀ (s u v : State) (t : TileId),
    let x := u.tile t
    let sup := swS x.sw
    let base : Bool → Bool → Nat → Nat → State := fun hit neg target next =>
      if hit then u.modTile t (perfCount 3 sup)
      else ((u.modTile t (perfCount 3 sup)).modTile t (fun z => perfCount 4 (swS z.sw) z)).wrongPath t (if neg then target else next)
    (Fetches s t 2 u → ∀ (cc : Fin 16) (d : W16),
      let c := (conditions x.sw).getD cc false
      let next := x.pc + 2
      let w := base (c == d.msb) d.msb (next + d.signExtend 32).toNat next.toNat
      (cc ≠ 15 → RetiresTo s w t (.br t cc d) (w.tile t) (if c then next + d.signExtend 32 else next)) ∧
      (cc = 15 → Faults s u t (.br t cc d) 1 0)) ∧
    (Fetches s t 3 u → ∀ (cc : Fin 16) (d : W32),
      let c := (conditions x.sw).getD cc false
      let next := x.pc + 3
      let w := base (c == d.msb) d.msb (next + d).toNat next.toNat
      (cc ≠ 15 → RetiresTo s w t (.brl t cc d) (w.tile t) (if c then next + d else next)) ∧
      (cc = 15 → Faults s u t (.brl t cc d) 1 0)) ∧
    (Fetches s t 2 u → ∀ (r : Dn) (d : W16),
      let next := x.pc + 2
      let taken := getD x r - 1 ≠ 0
      let y := setD x r (getD x r - 1)
      (decide taken = d.msb → RetiresTo s u t (.loop t r d) (perfCount 3 (swS y.sw) y) (if taken then next + d.signExtend 32 else next)) ∧
      (decide taken ≠ d.msb →
        let w := ((u.modTile t fun z => setD z r (getD x r - 1)).modTile t (fun z => perfCount 3 (swS z.sw) z)).modTile t (fun z => perfCount 4 (swS z.sw) z)
        let w' := w.wrongPath t (if d.msb then (next + d.signExtend 32).toNat else next.toNat)
        RetiresTo s w' t (.loop t r d) (w'.tile t) (if taken then next + d.signExtend 32 else next))) ∧
    (Fetches s t 1 u → ∀ y : An, RetiresTo s u t (.jmp t (.reg y)) x (getA x y)) ∧
    (Fetches s t 3 u → ∀ a : W32, RetiresTo s u t (.jmp t (.imm a)) x a) ∧
    (BufferTakes u t v → u.storeFault t .other (getA x 7 - 2).toNat 2 = none →
      let push : W32 → Tile := fun r => setA (buffered (v.tile t) (getA x 7 - 2) [r.extractLsb' 0 16, r.extractLsb' 16 16]) 7 (getA x 7 - 2)
      (Fetches s t 1 u → ∀ y : An, RetiresTo s v t (.call t (.reg y)) (push (x.pc + 1)) (getA (push (x.pc + 1)) y)) ∧
      (Fetches s t 3 u → ∀ d : W32, RetiresTo s v t (.call t (.imm d)) (push (x.pc + 3)) (x.pc + 3 + d))) ∧
    (Fetches s t 1 u → ∀ l : List W16, u.load t .other (getA x 7).toNat 2 = .ok l v →
      RetiresTo s v t (.ret t) (setA (v.tile t) 7 (getA (v.tile t) 7 + 2)) (l.getD 1 0 ++ l.getD 0 0))

/-- A fetch from clean memory, one on the wrong path, and the counting of cycle events leave everything but the instruction cache and the event counts as it was, and a cached word is fetched at once (R132, R161, R163, R167). -/
def Obligations.FetchesChangeOnlyTheInstructionCache : Prop :=
  (∀ (s u : State) (t : TileId) (a n : Nat),
      ((∀ g, s.syndAt g = 0) → CleanLines (s.quire (tileQuire t)) → (hbmWin (s.quire (tileQuire t)) (tileIndex t)).mode = 0 → s.fetch t a n = .ok () u →
        SameButCounts (s.tile t) (u.tile t) ∧ (∀ k : Nat, k ≠ t → u.tile k = s.tile k) ∧ (∀ k, u.quire k = s.quire k) ∧
        { u with tiles := s.tiles, quires := s.quires } = s) ∧
      (s.fetchFault t a = none → icHit (s.tile t) (a / 32) = true → s.fetch t a 1 = .ok () s) ∧
      (∀ c w, s.fetchFault t a = some (c, w) → s.fetch t a (n + 1) = .fault c w s)) ∧
  (∀ (s : State) (t : TileId) (a : Nat),
      (∃ x, OnlyTile { s with free := s.free + 2 } (s.wrongPath t a) t x ∧ SameButCounts (s.tile t) x) ∧
      ∃ x k, k ≤ 4 ∧ OnlyTile { s with free := s.free + k } (s.cyclePerf t) t x ∧ SameButCounts (s.tile t) x)

/-- WAITS, SIG, WAITP, WAITT and their wakes go on when their condition holds and hold the core otherwise (R106, R107, R152, R153, R154). -/
def Obligations.WaitsEndOnSignalPositionOrTally : Prop :=
  ∀ (s u v w : State) (t : TileId) (x : Dn) (y : An) (l : List W16),
    (Fetches s t 1 u →
      ((u.tile t).sig ≠ 0 → Retires s u t (.waits t x) 1 (setD { u.tile t with sig := 0 } x ((u.tile t).sig.setWidth 16))) ∧
      ((u.tile t).sig = 0 → (u.tile t).run = .running → ∃ n, exec (.waits t x) s = .next n ∧ OnlyTile u n t { u.tile t with run := .waitS x }) ∧
      (let k := (getD (u.tile t) x).toNat;
        (k < 1280 → u.tileRoom k = u.tileRoom t → u.drainFull t = (true, v) → (v.tile k).run = .running → (v.tile k).sig ≠ 255 → k ≠ t.val →
          ∃ n, exec (.sig t x) s = .next n ∧ n.tile k = { v.tile k with sig := (v.tile k).sig + 1 } ∧
            n.tile t = retireAt (v.tile t) (swS (s.tile t).sw) ((v.tile t).pc + 1) ∧
            (∀ j, j ≠ k → j ≠ t.val → n.tile j = v.tile j) ∧ { n with tiles := v.tiles } = v) ∧
        (k < 1280 → u.tileRoom k = u.tileRoom t → u.drainFull t = (true, v) → k ≠ t.val → ∀ d, (v.tile k).run = .waitS d → (v.tile k).sig = 0 →
          ∃ n, exec (.sig t x) s = .next n ∧
            n.tile k = retireAt { setD { v.tile k with sig := 0 } d 1 with run := .running } (swS (v.tile k).sw) ((v.tile k).pc + 1)) ∧
        (1280 ≤ k ∨ u.tileRoom k ≠ u.tileRoom t → Faults s u t (.sig t x) 9 k)) ∧
      (u.load t .other (getA (u.tile t) y).toNat 4 = .ok l v → (v.tile t).run = .running →
        (posReached v.clk.pos (ofWords64 l) = true → Retires s v t (.waitp t y) 1 (v.tile t)) ∧
        (posReached v.clk.pos (ofWords64 l) = false → ∃ n, exec (.waitp t y) s = .next n ∧ OnlyTile v n t { v.tile t with run := .waitP (ofWords64 l) })) ∧
      (u.load t .other (getA (u.tile t) y).toNat 8 = .ok l v → (v.tile t).run = .running →
        let k := (getD (v.tile t) x).toNat
        let want := ofWords64 (l.take 4)
        let until' := ofWords64 (l.drop 4)
        (v.tileOwnsTally t k = true → v.registerWait (.tile t) k want = (true, w) →
          Retires s w t (.waitt t x y) 1 { w.tile t with sw := (w.tile t).sw ||| 2 }) ∧
        (v.tileOwnsTally t k = true → v.registerWait (.tile t) k want = (false, w) → until' ≠ -1 → posReached v.clk.pos until' = true →
          Retires s (w.dropTileWaits t) t (.waitt t x y) 1 { w.tile t with sw := (w.tile t).sw &&& 0xFFFD }) ∧
        (v.tileOwnsTally t k = true → v.registerWait (.tile t) k want = (false, w) → (until' = -1 ∨ posReached v.clk.pos until' = false) →
          ∃ n, exec (.waitt t x y) s = .next n ∧ OnlyTile w n t { w.tile t with run := .waitT k want until' }) ∧
        (v.tileOwnsTally t k = false → exec (.waitt t x y) s = .next (v.takeSync t 7 k)))) ∧
    (∀ p, (s.tile t).run = .waitP p → posReached s.clk.pos p = true →
      ∃ n, exec (.waitpWake t) s = .next n ∧ OnlyTile s n t (retireAt { s.tile t with run := .running } (swS (s.tile t).sw) ((s.tile t).pc + 1))) ∧
    (∀ k e d, (s.tile t).run = .waitT k e d → d ≠ -1 → posReached s.clk.pos d = true →
      ∃ n, exec (.waittDeadline t) s = .next n ∧ (∀ m ∈ n.tal.waits, m.who ≠ .tile t) ∧
        n.tile t = retireAt { s.tile t with run := .running, sw := (s.tile t).sw &&& 0xFFFD } (swS (s.tile t).sw) ((s.tile t).pc + 1) ∧
        (∀ j, j ≠ t.val → n.tile j = s.tile j) ∧ n.mem = s.mem)

/-- TADV, DMAGO and FENCE take effect after the buffers drain, and ICINV drops the lines it names (R101, R123, R151, R155, R159, R293). -/
def Obligations.TalliesDmaAndFenceWaitForTheDrain : Prop :=
  ∀ (s u v : State) (t : TileId) (x : Dn) (y : An),
    (∀ b : Src, Fetches s t (srcWords b) u →
      let n := (getD (u.tile t) x).toNat
      let a := srcVal (u.tile t) b
      ∀ r f, u.tileRoom t = some r → (u.room r).form = some f →
        (formOwns f n = true → a ≠ 0 → u.drainFull t = (true, v) →
          Retires s { v with tal := { v.tal with adv := v.tal.adv ++ [{ tally := n, amount := a, room := toRoom r, source := 0 }] } } t
            (.tadv t x b) (srcWords b) (v.tile t)) ∧
        (formOwns f n = false → exec (.tadv t x b) s = .next ((u.refuseAdvance r 1 0 n).takeSync t 7 n)) ∧
        (formOwns f n = true → a = 0 → exec (.tadv t x b) s = .next ((u.refuseAdvance r 2 0 n).takeSync t 8 n)) ∧
        (u.refuseAdvance r 1 0 n).tal.refused = u.tal.refused + 1) ∧
    (Fetches s t 1 u →
      (u.drainFull t = (true, v) → Retires s v t (.fence t) 1 (v.tile t)) ∧
      (Retires s u t (.icinv t y) 1 { u.tile t with icLine := (u.tile t).icLine.filter fun e => e.2 ≠ some ((getA (u.tile t) y).toNat / 32) }) ∧
      (Retires s u t (.icinvAll t) 1 { u.tile t with icLine := [] }) ∧
      (let n := (getD (u.tile t) x).toNat;
       let a := (getA (u.tile t) y).toNat;
       let c := tileChan t n;
       let task := !swS (u.tile t).sw;
        (n ≤ 1 → chanIdle (u.chan c) = true → u.descAddrOk c a task = true → u.drainFull t = (true, v) → chanIdle (v.chan c) = true →
          let w := (v.dmaStart c a task).2
          Retires s w t (.dmago t x y) 1 (w.tile t) ∧ (w.chan c).state = (if (v.chan c).pause = true then .paused else .fetch) ∧ (w.chan c).curDesc = BitVec.ofNat 64 a ∧ (w.chan c).task = task) ∧
        (1 < n ∨ chanIdle (u.chan c) = false ∨ u.descAddrOk c a task = false → Faults s u t (.dmago t x y) 12 n)))

/-- MFSW, MTSW, MFCR, MTCR and TAKE move the status word and core registers at the level that may (R128, R151, R165, R172, R175). -/
def Obligations.StatusAndCoreRegistersReadAndWrite : Prop :=
  ∀ (s u : State) (t : TileId) (x y : Dn),
    (Fetches s t 1 u →
      Retires s u t (.mfsw t x) 1 (setD (u.tile t) x (u.tile t).sw) ∧
      Retires s u t (.mtsw t y) 1 { u.tile t with
        sw := if (u.tile t).sw.getLsbD 15 then ((u.tile t).sw &&& 0x8FC0) ||| (getD (u.tile t) y &&& 0x703F)
              else ((u.tile t).sw &&& 0xFFC0) ||| (getD (u.tile t) y &&& 0x003F) }) ∧
    (Fetches s t 2 u → ∀ cr : Fin 64,
      (crExists cr = true → (swS (u.tile t).sw = true ∨ crTaskRead (u.tile t) cr = true) →
        let w := (u.crRead t cr).2
        Retires s w t (.mfcr t x cr) 2 (setD (w.tile t) x (u.crRead t cr).1)) ∧
      (crExists cr = true → swS (u.tile t).sw = true →
        let w := u.crWrite t cr (getD (u.tile t) y)
        Retires s w t (.mtcr t cr y) 2 (w.tile t)) ∧
      (crExists cr = false → Faults s u t (.mfcr t x cr) 1 0 ∧ Faults s u t (.mtcr t cr y) 1 0) ∧
      (crExists cr = true → swS (u.tile t).sw = false → Faults s u t (.mtcr t cr y) 2 cr ∧
        (crTaskRead (u.tile t) cr = false → Faults s u t (.mfcr t x cr) 2 cr)) ∧
      (swS (u.tile t).sw = true →
        Retires s u t (.take t y) 2 { u.tile t with priv := { (u.tile t).priv with
          launchPend := (u.tile t).priv.launchPend && !(getD (u.tile t) y).getLsbD 1 } }) ∧
      (swS (u.tile t).sw = false → Faults s u t (.take t y) 2 0x3C)) ∧
    (u.crRead t 0).1 = BitVec.ofNat 16 t ∧
    (∀ (p : Priv) (a : W16),
      (crWritePriv p 0x26 a).ssp = p.ssp.extractLsb' 16 16 ++ a ∧ (crWritePriv p 0x27 a).ssp = a ++ p.ssp.extractLsb' 0 16 ∧
      (crWritePriv p 0x36 a).spc = p.spc.extractLsb' 16 16 ++ a ∧ (crWritePriv p 0x37 a).spc = a ++ p.spc.extractLsb' 0 16 ∧
      (crWritePriv p 0x22 a).gateBase = p.gateBase.extractLsb' 16 16 ++ a ∧ (crWritePriv p 0x23 a).gateBase = a ++ p.gateBase.extractLsb' 0 16 ∧
      (crWritePriv p 0x2A a).irqPend = p.irqPend &&& ~~~a)

/-- GATE enters with its frame pushed, RETI restores from the frame or SPC and SSW, and NOINT and HALT act at their level (R178, R179, R187, R188, R190). -/
def Obligations.GatesReturnsAndWindowsChangeLevelAsStated : Prop :=
  ∀ (s u v v0 v1 : State) (t : TileId),
    (Fetches s t 2 u → ∀ (g : W16) (l : List W16),
      let z := u.tile t
      let at' := z.priv.gateBase.toNat + 16 * g.toNat
      (swSB z.sw = false → g.toNat < z.priv.gateCount.toNat → at' + 16 ≤ supWords z → at' + 16 ≤ u.usable t * 768 → u.loadWords t at' 16 = .ok l v →
        let x := v.tile t
        let a7 := if x.sw.getLsbD 15 then getA x 7 else x.priv.ssp
        let next := x.pc + 2
        let lo : W32 → W16 := fun w => w.extractLsb' 0 16
        let hi : W32 → W16 := fun w => w.extractLsb' 16 16
        (gateFault x g.toNat l = none → x.sb.length ≤ 5 →
          (∀ k ∈ ([2, 4, 6] : List W32), (v.modTile t atSup).storeFault t .other (a7 - k).toNat 2 = none) →
          RetiresTo s v t (.gate t g)
            { setA (buffered (buffered (buffered x (a7 - 2) [lo (getA x 7), hi (getA x 7)]) (a7 - 4) [lo next, hi next]) (a7 - 6) [x.sw, 0]) 7 (a7 - 6) with
              sw := (x.sw &&& 0x07FF) ||| 0x8000 ||| BitVec.ofNat 16 (4096 * Nat.max (x.sw.toNat / 4096 % 8) ((l.getD 2 0).toNat / 256 % 8)),
              priv := { x.priv with nrem := 0 } }
            (l.getD 1 0 ++ l.getD 0 0)) ∧
        (∀ c a, gateFault x g.toNat l = some (c, a) → exec (.gate t g) s = .next (v.takeSync t c a))) ∧
      (swSB z.sw = true → Faults s u t (.gate t g) 2 g.toNat) ∧
      (swSB z.sw = false → z.priv.gateCount.toNat ≤ g.toNat → Faults s u t (.gate t g) 10 g.toNat)) ∧
    (Fetches s t 1 u →
      let x := u.tile t
      (swS x.sw = true → swSB x.sw = true → ∀ i ∈ [Instr.reti t, .retiInterruption t],
        RetiresTo s u t i { x with sw := x.priv.ssw &&& 0xF03F, priv := { x.priv with xr := false, xw := false, nrem := 0 } } x.priv.spc) ∧
      (swS x.sw = true → swSB x.sw = false → ∀ l0 l1 l2, u.load t .other (getA x 7).toNat 2 = .ok l0 v0 → v0.load t .other (getA x 7 + 2).toNat 2 = .ok l1 v1 →
        v1.load t .other (getA x 7 + 4).toNat 2 = .ok l2 v → ∀ i ∈ [Instr.reti t, .retiInterruption t],
        let z := v.tile t
        RetiresTo s v t i { setA z 7 (l2.getD 1 0 ++ l2.getD 0 0) with
          sw := (z.sw &&& 0x07FF) ||| (l0.getD 0 0 &&& 0xF000), priv := { z.priv with xr := false, xw := false, nrem := 0 } } (l1.getD 1 0 ++ l1.getD 0 0)) ∧
      (swS x.sw = false → Faults s u t (.reti t) 2 0 ∧ Faults s u t (.retiInterruption t) 2 0 ∧ Faults s u t (.halt t) 2 0) ∧
      (swS x.sw = true → u.drainAll t = (true, v) →
        ∃ n, exec (.halt t) s = .next n ∧ n.mem = v.mem ∧ (∀ k, k ≠ t.val → n.tile k = v.tile k) ∧
          ∃ y ∈ (v.tile t).xu.toXuRegs :: (v.tile t).xu.queue, n.tile t = { v.tile t with run := .halted, xu := { y with queue := [] }, sw := (v.tile t).sw &&& 0xF7FF, priv := { (v.tile t).priv with haltCause := 0x4000, haltPc := (v.tile t).pc, nrem := 0 } })) ∧
    (Fetches s t 2 u → ∀ n : W16,
      let x := u.tile t
      (n.toNat ≤ 512 → (swS x.sw = true ∨ x.priv.taskNoint = true) →
        (n = 0 → Retires s u t (.noint t n) 2 { x with sw := x.sw &&& 0xF7FF, priv := { x.priv with nrem := 0 } }) ∧
        (n ≠ 0 → swNW x.sw = false → Retires s u t (.noint t n) 2 { x with sw := x.sw ||| 0x0800, priv := { x.priv with nrem := n.setWidth 10 } }) ∧
        (n ≠ 0 → swNW x.sw = true → Retires s u t (.noint t n) 2 { x with sw := x.sw ||| 0x0800, priv := { x.priv with nrem := BitVec.ofNat 10 (Nat.min x.priv.nrem.toNat n.toNat) } })) ∧
      (512 < n.toNat → Faults s u t (.noint t n) 1 0) ∧
      (n.toNat ≤ 512 → swS x.sw = false → x.priv.taskNoint = false → Faults s u t (.noint t n) 2 0)) ∧
    (swNW (s.tile t).sw = true → ∃ n, exec (.nointExpire t) s = .next n ∧
      OnlyTile s n t { s.tile t with sw := (s.tile t).sw &&& 0xF7FF, priv := { (s.tile t).priv with nrem := 0 } })

/-- Taking an interrupt, an asynchronous or a synchronous fault saves SW and PC, masks, and goes to its vector; a masked fault halts (R181, R183, R185, R189, R191). -/
def Obligations.InterruptionsEnterTheHandlerInOneStep : Prop :=
  ∀ (s : State) (t : TileId),
    let x := s.tile t
    let inside : Tile → Nat → Tile := fun y slot => { y with
      sw := (x.sw &&& 0x03FF) ||| 0xF400, pc := x.priv.vecBase + BitVec.ofNat 32 (16 * slot), run := .running,
      priv := { y.priv with ssw := x.sw, spc := x.pc, xr := false, xw := false, nrem := 0 } }
    let openMask := x.sw.getLsbD 10 = false ∧ x.sw.toNat / 4096 % 8 ≠ 7
    let counted := (s.dropTileWaits t).cyclePerf t
    let c := counted.tile t
    SameButCounts x c ∧
    (atBoundary x = true → s.quireOn (tileQuire t) = true → x.sw.getLsbD 11 = false → openMask →
      (x.async = [] → ∀ k : Fin 16,
        let level : Nat → Nat := fun j => (Tbl.get 0 x.priv.irqLevel (j / 4)).toNat / 2 ^ (4 * (j % 4)) % 8
        let ready : Nat → Prop := fun j => x.priv.irqPend.getLsbD j = true ∧ x.priv.irqEn.getLsbD j = true ∧ x.sw.toNat / 4096 % 8 < level j
        ready k → (∀ j, j < 16 → ready j → level j < level k ∨ level j = level k ∧ k.val ≤ j) →
        ∃ n, exec (.interruptAccept t) s = .next n ∧
          OnlyTile counted n t (perfCount 15 (x.sw.getLsbD 15)
            (inside { c with priv := { c.priv with irqPend := c.priv.irqPend &&& ~~~(1#16 <<< k.val) } } k))) ∧
      (∀ f rest, x.async = f :: rest → ∃ n, exec (.asyncFault t) s = .next n ∧
        OnlyTile counted n t (let y := inside { c with async := rest } 17;
          { y with priv := { y.priv with fltCode := f.code, fltAddr := f.addr, fltPc := if x.run = .running then x.lastPc else x.pc } }))) ∧
    (∀ code addr, code ≠ 5 → code < 65536 →
      (openMask → x.run = .running → OnlyTile s (s.takeSync t code addr) t (let y := inside x 16;
        { y with priv := { y.priv with fltCode := BitVec.ofNat 16 code, fltAddr := BitVec.ofNat 32 addr, fltPc := x.pc } })) ∧
      (¬ openMask → ((s.takeSync t code addr).tile t).run = .halted ∧ ((s.takeSync t code addr).tile t).priv = { x.priv with
        haltCause := BitVec.ofNat 16 (0x8000 + code), haltPc := x.pc, nrem := 0 }) ∧
      (¬ openMask → s.tileRoom t = none → ∃ y ∈ x.xu.toXuRegs :: x.xu.queue,
        (s.takeSync t code addr).tile t = { x with run := .halted, xu := { y with queue := [] }, sw := x.sw &&& 0xF7FF, priv := { x.priv with haltCause := BitVec.ofNat 16 (0x8000 + code), haltPc := x.pc, nrem := 0 } })) ∧
    (∀ k : Fin 4, x.perf.en = true → (x.sw.getLsbD 15 = false ∨ x.perf.noSup = false) → cycleEvent (Tbl.get 0 x.perf.sel k).toNat = true →
      ∃ n, exec (.perf t k) s = .next n ∧ OnlyTile s n t { x with
        perf := { x.perf with cnt := Tbl.put 0 x.perf.cnt k 0, ovf := x.perf.ovf ||| (1#4 <<< k.val) },
        priv := { x.priv with irqPend := x.priv.irqPend ||| 1 } })

/-- Each vector instruction computes every lane of its destination row and nothing else, by the rules of its integer or float type (R199, R200, R201, R202, R215, R216, R232, R234). -/
def Obligations.VectorInstructionsComputeEveryLane : Prop :=
  (∀ (s u : State) (t : TileId) (v : VOps), Fetches s t 3 u →
      let x := (u.tile t).xu
      let w := laneBits v.ty
      let n := lanesOf v.ty
      let ty := tyNum v.ty
      let a : Nat → Nat := lane (rowOf x (rowAt x (v.ixm = 3) v.va)) w
      let b : Nat → Nat := lane (rowOf x (rowAt x (v.ixm = 2 ∨ v.ixm = 3) v.vb)) w
      let c : Nat → Nat := lane (rowOf x (rowAt x (v.ixm = 2 ∨ v.ixm = 3) v.vc)) w
      let writes : Instr → (Nat → Nat × W16) → Prop := fun i g => VectorWrites s u t i v (fun _ => True) (fun k => (g k).1) (allFlags n fun k => (g k).2)
      (XuClean x → v.ty.val ≤ 5 →
        (writes (.vfma t v) fun k => laneFma x ty (a k) (b k) (c k)) ∧
        (v.vc = 0 →
          (writes (.vadd t v) fun k => laneAdd x ty (a k) (b k)) ∧ (writes (.vsub t v) fun k => laneSub x ty (a k) (b k)) ∧
          (writes (.vmul t v) fun k => laneMul x ty (a k) (b k)) ∧
          (writes (.vmin t v) fun k => laneMinMax ty true (a k) (b k)) ∧ (writes (.vmax t v) fun k => laneMinMax ty false (a k) (b k)) ∧
          (writes (.vand t v) fun k => (a k &&& b k, 0)) ∧ (writes (.vor t v) fun k => (a k ||| b k, 0)) ∧ (writes (.vxor t v) fun k => (a k ^^^ b k, 0)) ∧
          (writes (.vsel t v) fun k => (if x.lmask.getLsbD k then a k else b k, 0)) ∧
          (v.ty = 0 ∨ v.ty = 3 →
            (writes (.vshl t v) fun k => (a k * 2 ^ (b k % w), 0)) ∧ (writes (.vshr t v) fun k => (a k / 2 ^ (b k % w), 0)) ∧
            (writes (.vsar t v) fun k => ((((if a k < 2 ^ (w - 1) then (a k : Int) else (a k : Int) - 2 ^ w) / 2 ^ (b k % w)) % 2 ^ w).toNat, 0))) ∧
          (v.ty ≠ 0 → v.ty ≠ 3 → ∀ f ∈ [(11, Instr.vshl t v), (12, .vshr t v), (13, .vsar t v)], Faults s u t f.2 16 (f.1 + 256 * v.ty.val))) ∧
        (v.vc = 0 → v.vb = 0 →
          (writes (.vabs t v) fun k => laneAbs ty (a k)) ∧ (writes (.vneg t v) fun k => laneNeg ty (a k)) ∧ (writes (.vmov t v) fun k => (a k, 0)) ∧
          (let sum := sumTree x ty (Nat.log2 n) ((List.range n).map a) 0;
            VectorWrites s u t (.vsum t v) v (fun _ => True) (fun k => if k = 0 then sum.1 else 0) sum.2)) ∧
        (v.vc = 0 → v.vb.val < n → writes (.vbcast t v) fun _ => (a v.vb, 0))) ∧
      (v.vc ≠ 0 → ∀ i ∈ [Instr.vadd t v, .vsub t v, .vmul t v, .vmin t v, .vmax t v, .vabs t v, .vneg t v, .vand t v, .vor t v, .vxor t v, .vshl t v, .vshr t v, .vsar t v,
        .vcmpeq t v, .vcmplt t v, .vcmple t v, .vsel t v, .vmov t v, .vbcast t v, .vsum t v], Faults s u t i 1 0) ∧
      (v.vb ≠ 0 → ∀ i ∈ [Instr.vabs t v, .vneg t v, .vmov t v, .vsum t v], Faults s u t i 1 0) ∧
      (v.vd ≠ 0 → ∀ i ∈ [Instr.vcmpeq t v, .vcmplt t v, .vcmple t v], Faults s u t i 1 0) ∧
      (31 < v.vb.val → Faults s u t (.vbcast t v) 1 0) ∧
      (v.ty.val ≤ 5 → v.vc = 0 → n ≤ v.vb.val → v.vb.val ≤ 31 → Faults s u t (.vbcast t v) 16 (19 + 256 * v.ty.val)) ∧
      (5 < v.ty.val → ∀ i ∈ [Instr.vadd t v, .vsub t v, .vmul t v, .vfma t v, .vmin t v, .vmax t v, .vabs t v, .vneg t v, .vand t v, .vor t v, .vxor t v,
        .vshl t v, .vshr t v, .vsar t v, .vcmpeq t v, .vcmplt t v, .vcmple t v, .vsel t v, .vmov t v, .vbcast t v, .vsum t v, .vcvt t v, .vpack t v, .vunpk t v],
        Faults s u t i 1 0)) ∧
  (∀ (x : Xu) (w : Nat) (a b c : Nat), 0 < w → a < 2 ^ w → b < 2 ^ w →
      (laneAdd x (.int w true) a b = ((a + b) % 2 ^ w, 0) ∧ laneSub x (.int w true) a b = ((((a : Int) - b) % 2 ^ w).toNat, 0) ∧
        laneMul x (.int w true) a b = (a * b % 2 ^ w, 0) ∧ laneFma x (.int w true) a b c = ((a * b + c) % 2 ^ w, 0) ∧
        laneNeg (.int w true) a = (((-(a : Int)) % 2 ^ w).toNat, 0) ∧
        laneAbs (.int w true) (2 ^ (w - 1)) = (2 ^ (w - 1) - 1, 16) ∧
        (let sg : Nat → Int := fun v => if v < 2 ^ (w - 1) then v else (v : Int) - 2 ^ w;
          (laneMinMax (.int w true) true a b).1 = (if sg b < sg a then b else a) ∧
          (laneMinMax (.int w true) false a b).1 = (if sg b < sg a then a else if sg a < sg b then b else a) ∧
          (laneCmp (.int w true) true false a b).1 = decide (sg a < sg b) ∧
          (a ≠ 2 ^ (w - 1) → ((laneAbs (.int w true) a).1 : Int) = |sg a|))) ∧
      (∀ f : Fmt, f ∈ [fp64, fp32, fp16, bf16] → ∀ p q : Nat,
        ((decodeF f p).isNan = true ∨ (decodeF f q).isNan = true →
          (laneAdd x (.flt f) p q).1 = canonNan f ∧ (laneMul x (.flt f) p q).1 = canonNan f ∧
          (∀ l, laneMinMax (.flt f) l p q = (canonNan f, (decodeF f p).nv ||| (decodeF f q).nv)) ∧
          (∀ l e, laneCmp (.flt f) l e p q = (false, (decodeF f p).nv ||| (decodeF f q).nv))) ∧
        (laneNeg (.flt f) p).2 = 0 ∧ (laneNeg (.flt f) p).1 = p ^^^ 2 ^ (f.e + f.m) ∧
        laneMinMax (.flt f) true (2 ^ (f.e + f.m)) 0 = (2 ^ (f.e + f.m), 0) ∧ laneMinMax (.flt f) false (2 ^ (f.e + f.m)) 0 = (0, 0)))

/-- VCMPEQ, VCMPLT and VCMPLE write LMASK alone, and VCVT, VPACK and VUNPK write converted lanes (R199, R201, R203, R215, R241). -/
def Obligations.VectorComparesAndConversionsWriteMaskOrLanes : Prop :=
  ∀ (s u : State) (t : TileId) (v : VOps), Fetches s t 3 u → XuClean (u.tile t).xu → v.ty.val ≤ 5 →
    let x := (u.tile t).xu
    let w := laneBits v.ty
    let n := lanesOf v.ty
    let ra := rowOf x (rowAt x (v.ixm = 3) v.va)
    let rb := rowOf x (rowAt x (v.ixm = 2 ∨ v.ixm = 3) v.vb)
    let compares : Instr → Bool → Bool → Prop := fun i below eq => ∃ m, UnitCompletes s u m t i 3 ∧ RowsKept x (m.tile t).xu 0 0 ∧
      (∀ k, (m.tile t).xu.lmask.getLsbD k = (decide (k < n) && (laneCmp (tyNum v.ty) below eq (lane ra w k) (lane rb w k)).1)) ∧
      (m.tile t).xu.stat = x.stat ||| allFlags n fun k => (laneCmp (tyNum v.ty) below eq (lane ra w k) (lane rb w k)).2
    (v.vc = 0 → v.vd = 0 → compares (.vcmpeq t v) false true ∧ compares (.vcmplt t v) true false ∧ compares (.vcmple t v) true true) ∧
    (let st := v.vc.val % 8;
      let sw := laneBits st;
      let cv : Nat → Nat → Nat × W16 := fun row k => convert (xuRm x) (xuSat x) (tyNum st) (tyNum v.ty) (lane row sw k);
      (st ≤ 5 → v.vc.val ≤ 15 →
        (n ≤ lanesOf st → v.vb = 0 → (v.vc.val / 8 = 1 → n < lanesOf st) →
          let o := if v.vc.val / 8 = 1 then n else 0
          VectorWrites s u t (.vcvt t v) v (fun _ => True) (fun k => (cv ra (o + k)).1) (allFlags n fun k => (cv ra (o + k)).2)) ∧
        (lanesOf st < n → v.vc.val / 8 = 0 →
          VectorWrites s u t (.vcvt t v) v (fun k => k % (n / 2) < lanesOf st)
            (fun k => if k < n / 2 then (cv ra k).1 else (cv rb (k - n / 2)).1)
            (allFlags (lanesOf st) (fun k => (cv ra k).2) ||| allFlags (lanesOf st) fun k => (cv rb k).2)))) ∧
    (5 < v.vc.val % 8 ∨ 15 < v.vc.val ∨ (v.vc.val / 8 = 1 ∧ lanesOf (v.vc.val % 8) ≤ n) ∨ (n ≤ lanesOf (v.vc.val % 8) ∧ v.vb ≠ 0) → Faults s u t (.vcvt t v) 1 0) ∧
    (let code := v.vc.val;
      let e := codeStep code;
      let bad := 11 < code ∨ 3 < v.vb.val ∨ e = 8 ∧ 1 < v.vb.val;
      (bad → Faults s u t (.vpack t v) 1 0 ∧ Faults s u t (.vunpk t v) 1 0) ∧
      (¬bad → code < 3 ∨ code = 11 ∨ 2 < v.ty.val → Faults s u t (.vpack t v) 16 (22 + 256 * v.ty.val) ∧ Faults s u t (.vunpk t v) 16 (23 + 256 * v.ty.val))) ∧
    (let code := v.vc.val;
      let e := codeStep code;
      let num := (codeNum code).getD (.int 8 true);
      let rd := rowAt x (v.ixm ≠ 0) v.vd;
      (3 ≤ code → code < 11 → v.ty.val ≤ 2 → v.vb.val ≤ 3 → (e = 8 → v.vb.val ≤ 1) →
        (∃ m, UnitCompletes s u m t (.vpack t v) 3 ∧ RowsKept x (m.tile t).xu rd 1 ∧ (m.tile t).xu.stat = x.stat ||| (allFlags 32 fun k => (convert (xuRm x) (xuSat x) (tyNum v.ty) num (lane ra 16 k)).2) ∧
          (∀ k, k < 32 → rowOf (m.tile t).xu rd / 2 ^ (32 * e * v.vb.val + e * k) % 2 ^ e = (convert (xuRm x) (xuSat x) (tyNum v.ty) num (lane ra 16 k)).1 % 2 ^ e) ∧
          (∀ j, j < 32 * e * v.vb.val ∨ 32 * e * (v.vb.val + 1) ≤ j → (rowOf (m.tile t).xu rd).testBit j = (rowOf x rd).testBit j)) ∧
        (let src : Nat → Nat := fun k => ra / 2 ^ (e * (32 * v.vb.val + k)) % 2 ^ e % 2 ^ num.width;
          VectorWrites s u t (.vunpk t v) v (fun _ => True) (fun k => (convert (xuRm x) (xuSat x) num (tyNum v.ty) (src k)).1)
            (allFlags 32 fun k => (convert (xuRm x) (xuSat x) num (tyNum v.ty) (src k)).2))))

/-- ZRD, ZWR, TLD, TST, ZLD, ZST, RLD, RST, ZCLR and XWAIT move exactly the rows and scratchpad words that they name (R192, R199, R208, R213, R222). -/
def Obligations.TileRegisterMovesCopyRows : Prop :=
  ∀ (s u v : State) (t : TileId),
    (XuClean (u.tile t).xu →
      (Fetches s t 2 u → ∀ z : ZMove,
        let x := (u.tile t).xu
        let tr := if z.ix then z.row.val / 32 * 32 + (z.row.val % 32 + x.rix.toNat) % 32 else z.row.val
        let zr := 256 + 64 * z.d.val + 2 * z.zrow.val + z.half.val
        (∃ m, UnitCompletes s u m t (.zrd t z) 2 ∧ rowOf (m.tile t).xu tr = rowOf x zr ∧ RowsKept x (m.tile t).xu tr 1) ∧
        (∃ m, UnitCompletes s u m t (.zwr t z) 2 ∧ rowOf (m.tile t).xu zr = rowOf x tr ∧ RowsKept x (m.tile t).xu zr 1)) ∧
      (Fetches s t 1 u → Retires s u t (.xwait t) 1 { u.tile t with xu := { (u.tile t).xu with queue := [] } } ∧ ∀ d : Fin 4, ∃ m, UnitCompletes s u m t (.zclr t d) 1 ∧
        (∀ r, r < 64 → rowOf (m.tile t).xu (256 + 64 * d.val + r) = 0) ∧ RowsKept (u.tile t).xu (m.tile t).xu (256 + 64 * d.val) 64)) ∧
    (Fetches s t 2 u → ∀ (y : An) (d : Dn),
      let a := (getA (u.tile t) y).toNat
      let st := (getD (u.tile t) d).toNat
      let rix := (v.tile t).xu.rix.toNat
      let at' : Bool → Nat → Nat := fun ix row => if !ix then row else if row < 256 then row / 32 * 32 + (row % 32 + rix) % 32
        else row / 64 * 64 + (row / 2 % 32 + rix) % 32 * 2 + row % 2
      let pad : Nat → Nat := fun w => leNat (v.bytesAt (scratchBase t + 2 * w) 64)
      let stored : State → Nat → Nat → Prop := fun m w row => ∀ i, i < 64 → m.byteAt (scratchBase t + 2 * w + i) = Tbl.get 0 (v.tile t).xu.rows (64 * row + i)
      let completes : Instr → (Nat → Prop) → (State → Prop) → Prop := fun i hit post => ∃ m, exec i s = .next m ∧ post m ∧ RowsKept (v.tile t).xu (m.tile t).xu 0 0 ∧
        (∀ b, (∀ w, hit w → b < scratchBase t + 2 * w ∨ scratchBase t + 2 * w + 64 ≤ b) → m.byteAt b = v.byteAt b) ∧ (∀ g, m.syndAt g = 0) ∧
        { m.tile t with xu := {} } = { retireAt (v.tile t) (swS (s.tile t).sw) ((v.tile t).pc + 2) with xu := {} } ∧ (∀ k, k ≠ t.val → m.tile k = v.tile k)
      (XuClean (v.tile t).xu → (∀ g, v.syndAt g = 0) →
        (u.moveCheck t a st 32 32 true = .ok () v → ∀ n : Fin 8, ∃ m, UnitCompletes s v m t (.tld t n y d) 2 ∧
          (∀ r, r < 32 → rowOf (m.tile t).xu (32 * n.val + r) = pad (a + r * st)) ∧ RowsKept (v.tile t).xu (m.tile t).xu (32 * n.val) 32) ∧
        (u.moveCheck t a st 32 64 true = .ok () v → ∀ n : Fin 4, ∃ m, UnitCompletes s v m t (.zld t n y d) 2 ∧
          (∀ r h, r < 32 → h < 2 → rowOf (m.tile t).xu (256 + 64 * n.val + 2 * r + h) = pad (a + r * st + 32 * h)) ∧
          RowsKept (v.tile t).xu (m.tile t).xu (256 + 64 * n.val) 64) ∧
        (u.moveCheck t a 0 1 32 true = .ok () v → ∀ (row : Fin 512) (ix : Bool), ∃ m, UnitCompletes s v m t (.rld t row ix y) 2 ∧
          rowOf (m.tile t).xu (at' ix row) = pad a ∧ RowsKept (v.tile t).xu (m.tile t).xu (at' ix row) 1) ∧
        (u.moveCheck t a st 32 32 false = .ok () v → ∀ n : Fin 8,
          completes (.tst t n y d) (fun w => ∃ r, r < 32 ∧ w = a + r * st) fun m =>
            (st ≠ 0 → ∀ r, r < 32 → stored m (a + r * st) (32 * n.val + r)) ∧ (st = 0 → stored m a (32 * n.val + 31))) ∧
        (u.moveCheck t a st 32 64 false = .ok () v → ∀ n : Fin 4,
          completes (.zst t n y d) (fun w => ∃ r h, r < 32 ∧ h < 2 ∧ w = a + r * st + 32 * h)
            fun m => (64 ≤ st → ∀ r h, r < 32 → h < 2 → stored m (a + r * st + 32 * h) (256 + 64 * n.val + 2 * r + h)) ∧
              (st = 32 → (∀ r, r < 32 → stored m (a + 32 * r) (256 + 64 * n.val + 2 * r)) ∧ stored m (a + 1024) (256 + 64 * n.val + 63)) ∧
              (st = 0 → stored m a (256 + 64 * n.val + 62) ∧ stored m (a + 32) (256 + 64 * n.val + 63))) ∧
        (u.moveCheck t a 0 1 32 false = .ok () v → ∀ (row : Fin 512) (ix : Bool),
          completes (.rst t row ix y) (fun w => w = a) fun m => stored m a (at' ix row))) ∧
      (∀ c w, u.moveFault t a st 32 32 = some (c, w) → ∀ n : Fin 8, Faults s u t (.tld t n y d) c w ∧ Faults s u t (.tst t n y d) c w))

/-- MMA and MMA.MX accumulate every element of Zd, and XMF, XMT and XU_CTX read, write and switch the unit registers (R205, R206, R207, R208, R209, R214, R215, R217, R243). -/
def Obligations.MatrixProductsAndUnitRegistersActAsStated : Prop :=
  ((∀ (s u : State) (t : TileId) (m : MmaOps),
      let x := (u.tile t).xu
      let gives : Instr → Nat → MmaPlan → Prop := fun i w p => ∃ n, UnitCompletes s u n t i w ∧
        (let el : Nat → Nat → Nat × W16 := fun i j => mmaElem x p (rowOf x (32 * m.a.val + i)) (rowOf x (32 * m.b.val + j)) i j
          (if m.zs then 0 else lane (rowOf x (256 + 64 * m.d.val + 2 * i + j / 16)) 32 (j % 16));
          (∀ i j, i < 32 → j < 32 → lane (rowOf (n.tile t).xu (256 + 64 * m.d.val + 2 * i + j / 16)) 32 (j % 16) = (el i j).1 % 2 ^ 32) ∧
          (n.tile t).xu.stat = x.stat ||| allFlags 32 fun i => allFlags 32 fun j => (el i j).2) ∧
        RowsKept x (n.tile t).xu (256 + 64 * m.d.val) 64
      (Fetches s t 2 u →
        (XuClean x → m.fa.val ≤ 11 → m.fb.val ≤ 11 → codeClass m.fa = codeClass m.fb → gives (.mma t m) 2 ⟨m.fa, m.fb, m.zs, false, []⟩) ∧
        (11 < m.fa.val ∨ 11 < m.fb.val → Faults s u t (.mma t m) 1 0) ∧
        (m.fa.val ≤ 11 → m.fb.val ≤ 11 → codeClass m.fa ≠ codeClass m.fb → Faults s u t (.mma t m) 16 (m.fa.val + 256 * m.fb.val))) ∧
      (Fetches s t 3 u → ∀ sn : Fin 8,
        let ok := (mxCode m.fa && mxCode m.fb) || (m.fa = 9 && m.fb = 9)
        (XuClean x → ok = true → gives (.mmaMx t m sn) 3 ⟨m.fa, m.fb, m.zs, true, (List.range 384).map fun q => Tbl.get 0 x.rows (2048 * sn.val + q)⟩) ∧
        (ok = false → Faults s u t (.mmaMx t m sn) 16 (m.fa.val + 256 * m.fb.val)))) ∧
    (∀ v : Int,
      (-(2 ^ 31) ≤ v → v < 2 ^ 31 → ∀ b, intElem b v = ((v % 2 ^ 32).toNat, 0)) ∧
      (v < -(2 ^ 31) → intElem true v = (2 ^ 31, 16) ∧ intElem false v = ((v % 2 ^ 32).toNat, 32)) ∧
      (2 ^ 31 ≤ v → intElem true v = (2 ^ 31 - 1, 16) ∧ intElem false v = ((v % 2 ^ 32).toNat, 32)))) ∧
  (∀ (s u v : State) (t : TileId) (d : Dn) (y : Dn),
      let x := (u.tile t).xu
      (Fetches s t 2 u →
        (∀ r : Fin 128, Retires s u t (.xmf t d r) 2 (setD { u.tile t with xu := { (readUnit x r).2 with queue := [] } } d (readUnit x r).1)) ∧
        (∀ r : Fin 128, r.val < 0x18 → r.val ≠ 3 → r.val ≠ 5 → (r.val ≠ 4 ∨ swS (u.tile t).sw = true) →
          ∃ m, exec (.xmt t r y) s = .next m ∧ OnlyTile u m t { retireAt (u.tile t) (swS (s.tile t).sw) ((u.tile t).pc + 2) with xu := xmtUnit (enqueueUnit x) r (getD (u.tile t) y) }) ∧
        ((enqueueUnit x).toXuRegs = x.toXuRegs ∧ (enqueueUnit x).queue = (x.toXuRegs :: x.queue).take 4) ∧
        (∀ r : Fin 128, r.val = 3 ∨ 0x18 ≤ r.val → Faults s u t (.xmt t r y) 1 0) ∧
        (swS (u.tile t).sw = false → Faults s u t (.xuCtx t y) 19 5 ∧ Faults s u t (.xmt t 4 y) 19 4) ∧
        (let c : W32 := (getD (u.tile t) y ++ x.ctxLow) &&& 0xFFFFFFE3;
          swS (u.tile t).sw = true → u.drainAll t = (true, v) → (ctxValid c = false ∨ ctxArea c + 16512 ≤ u.usable t * 768 ∧ ((u.tile t).priv.supBlocks = 0 ∨ ctxArea c + 16512 ≤ supWords (u.tile t))) →
          ∃ m, exec (.xuCtx t y) s = .next m ∧ (m.tile t).xu.ctx = c ∧ (m.tile t).xu.latchA = none ∧ (m.tile t).xu.latchB = none ∧ (m.tile t).xu.latchC = none ∧
            (m.tile t).xu.bStore0 = none ∧ (m.tile t).xu.bStore1 = none ∧
            { m.tile t with xu := {} } = { retireAt (v.tile t) (swS (s.tile t).sw) ((v.tile t).pc + 2) with xu := {} } ∧
            (ctxValid (v.tile t).xu.ctx = false → ctxValid c = false ∨ ctxLoad c = false →
              (m.tile t).xu = { ctx := c, ctxLow := (v.tile t).xu.ctxLow } ∧ m.mem = v.mem))) ∧
      (readUnit x 0 = (x.ctl, x) ∧ readUnit x 2 = (x.rix.setWidth 16, x) ∧
        readUnit x 0x10 = (x.breuse.extractLsb' 0 16, { x with hi := Tbl.put 0 x.hi 0x10 x.breuse }) ∧
        (readUnit { x with hi := Tbl.put 0 x.hi 0x10 x.breuse } 0x12).1 = x.breuse.extractLsb' 32 16) ∧
      (∀ w : W16, xmtUnit x 0 w = { x with ctl := w &&& 0x1F } ∧ xmtUnit x 1 w = { x with stat := x.stat &&& ~~~(w &&& 0x3F) } ∧
        xmtUnit x 2 w = { x with rix := w.extractLsb' 0 5 } ∧ xmtUnit x 6 w = { x with lmask := x.lmask.extractLsb' 16 16 ++ w }))

/-- ZERO, WRITEBACK, INVALIDATE and WB_INV act on every line of an allowed range, and are refused elsewhere (R265, R266, R280, R247, R262). -/
def Obligations.CacheOperationsActOnEveryLineOfTheirRange : Prop :=
  ∀ (s : State) (w : Writer) (q : QuireId) (r : Nat) (all : Bool) (lines : BitVec 16) (line : BitVec 31), WriterReaches s w q r →
    ((s.quire q).cmd.busy = false → (if all then lines = 0 ∧ line = 0 else s.ownsHbm r (line.toNat * 128) ((lines.toNat + 1) * 128) = true) →
      (∃ n, exec (.zero w q all lines line) s = .next n ∧ CacheOpDone s n w q 1 all lines line ∧
        (∀ a, inOp all lines line a → (all = true → (findLine (s.quire q) (BitVec.ofNat 31 (a / 128))).isSome) → seenByte n q a = 0) ∧
        (∀ a, a < 0x3000000000 → ¬inOp all lines line a → n.byteAt a = s.byteAt a ∨ n.byteAt a = seenByte s q a)) ∧
      (∃ n, exec (.writeback w q all lines line) s = .next n ∧ CacheOpDone s n w q 2 all lines line ∧
        (∀ a, inOp all lines line a → n.byteAt a = writtenBack s q a ∧ seenByte n q a = seenByte s q a ∧
          ∀ l, findLine (n.quire q) (BitVec.ofNat 31 (a / 128)) = some l → l.dirty = false) ∧
        (∀ a, a < 0x3000000000 → ¬inOp all lines line a → n.byteAt a = s.byteAt a ∧ (findLine (n.quire q) (BitVec.ofNat 31 (a / 128)) = findLine (s.quire q) (BitVec.ofNat 31 (a / 128))))) ∧
      (∃ n, exec (.invalidate w q all lines line) s = .next n ∧ CacheOpDone s n w q 3 all lines line ∧ n.mem = s.mem ∧ n.synd = s.synd ∧
        ∀ a, a < 0x3000000000 → (inOp all lines line a → findLine (n.quire q) (BitVec.ofNat 31 (a / 128)) = none) ∧
          (¬inOp all lines line a → findLine (n.quire q) (BitVec.ofNat 31 (a / 128)) = findLine (s.quire q) (BitVec.ofNat 31 (a / 128)))) ∧
      (∃ n, exec (.wbInv w q all lines line) s = .next n ∧ CacheOpDone s n w q 4 all lines line ∧
        (∀ a, inOp all lines line a → n.byteAt a = writtenBack s q a ∧ findLine (n.quire q) (BitVec.ofNat 31 (a / 128)) = none) ∧
        (∀ a, a < 0x3000000000 → ¬inOp all lines line a → n.byteAt a = s.byteAt a ∧ (findLine (n.quire q) (BitVec.ofNat 31 (a / 128)) = findLine (s.quire q) (BitVec.ofNat 31 (a / 128)))))) ∧
    (∀ c, c = .zero w q all lines line ∨ c = .writeback w q all lines line ∨ c = .invalidate w q all lines line ∨ c = .wbInv w q all lines line →
      ((s.quire q).cmd.busy = false → ¬(if all then lines = 0 ∧ line = 0 else s.ownsHbm r (line.toNat * 128) ((lines.toNat + 1) * 128) = true) →
        ∃ n, exec c s = .next n ∧ StagingOnly s n w ∧
          n.quire q = { s.quire q with cmd := { busy := false, refused := true, op := 0, all := all, lines := lines, line := line }, memEvt := (s.quire q).memEvt ||| 8 } ∧
          (∀ k, k ≠ q.val → n.quire k = s.quire k) ∧ { n with quires := s.quires, tiles := s.tiles, fns := s.fns, irq := s.irq } = s) ∧
      ((s.quire q).cmd.busy = true → ∃ n, exec c s = .next n ∧ StagingOnly s n w ∧ { n with tiles := s.tiles, fns := s.fns } = s))

/-- Fills, accepted write-backs, completions, way-map changes, HBM windows and the scrubber do what the quire's rules say (R260, R262, R264, R266, R267, R276, R277, R280, R370). -/
def Obligations.QuireRegistersAndLinesFollowTheirEvents : Prop :=
  ∀ (s : State) (w : Writer) (q : QuireId) (r : Nat) (k : Fin 16) (line : BitVec 31) (t : TileId) (v : W64),
    ((s.quire q).power = .on → (s.quire q).wayBusy = false → findLine (s.quire q) line = none → (s.quire q).prefetch.contains line = false → s.lineInWindow q k line = true →
      (∀ i, i < 16 → s.syndAt (line.toNat * 16 + i) = 0) →
      ∃ n l, exec (.cacheFill q k line) s = .next n ∧ findLine (n.quire q) line = some l ∧ l.dirty = false ∧ (∀ i, i < 128 → Tbl.get 0 l.data i = s.byteAt (line.toNat * 128 + i)) ∧
        (∀ a, a < 0x3000000000 → n.byteAt a = s.byteAt a ∨ n.byteAt a = seenByte s q a) ∧ (∀ j, j ≠ q.val → n.quire j = s.quire j) ∧
        { n with quires := s.quires, mem := s.mem, synd := s.synd, tiles := s.tiles } = s) ∧
    ((s.tile t).wb.contains line = true → ∀ l, findLine (s.quire (tileQuire t)) line = some l → l.dirty = true →
      ∃ n, exec (.hbmWriteAccepted t line) s = .next n ∧ (n.tile t).wb = (s.tile t).wb.filter (· ≠ line) ∧ (∀ i, i < 128 → n.byteAt (line.toNat * 128 + i) = Tbl.get 0 l.data i) ∧
        (∀ a, (a < line.toNat * 128 ∨ (line.toNat + 1) * 128 ≤ a) → n.byteAt a = s.byteAt a) ∧ findLine (n.quire (tileQuire t)) line = some { l with dirty := false }) ∧
    ((s.quire q).cmd.busy = true → LeavesQuire s (.cmdDone q) q { s.quire q with cmd := { (s.quire q).cmd with busy := false, op := 0 }, memEvt := (s.quire q).memEvt ||| 16 }) ∧
    (WriterReaches s w q r → (s.quire q).wayBusy = false → ∀ g : Fin 8,
      ∃ n, exec (.waymapChange w q g) s = .next n ∧ StagingOnly s n w ∧ (∀ j, j ≠ q.val → n.quire j = s.quire j) ∧ { n with quires := s.quires, tiles := s.tiles, fns := s.fns, irq := s.irq } = s ∧
        n.quire q = if g = 7 then { s.quire q with memEvt := (s.quire q).memEvt ||| 8 } else { s.quire q with wayBusy := true, wayTo := BitVec.ofNat 3 g }) ∧
    ((s.quire q).wayBusy = true → (s.quire q).wayTo.toNat ≤ 6 →
      ∃ n, exec (.waymapDone q) s = .next n ∧ (n.quire q).groups = (s.quire q).wayTo ∧ (n.quire q).wayBusy = false ∧ (n.quire q).memEvt = (s.quire q).memEvt ||| 32 ∧
        (∀ l ∈ (n.quire q).lines, l.way < 16 - 2 * (s.quire q).wayTo.toNat) ∧
        (∀ a, qscratchBase q + (s.quire q).groups.toNat * 524288 ≤ a → a < qscratchBase q + (s.quire q).wayTo.toNat * 524288 → n.byteAt a = 0) ∧
        (∀ a, qscratchBase q ≤ a → a < qscratchBase q + Nat.min (s.quire q).groups.toNat (s.quire q).wayTo.toNat * 524288 → n.byteAt a = s.byteAt a) ∧
        (∀ j, j ≠ q.val → n.quire j = s.quire j)) ∧
    (WriterReaches s w q r →
      ∃ n, exec (.qcHbmwin w q k v) s = .next n ∧ StagingOnly s n w ∧ (∀ j, j ≠ q.val → n.quire j = s.quire j) ∧ { n with quires := s.quires, tiles := s.tiles, fns := s.fns, irq := s.irq } = s ∧
        n.quire q = if bitsOf v.toNat 56 2 < 2 ∧ bitsOf v.toNat 32 16 ≤ 512 ∧ (∀ i, i < bitsOf v.toNat 32 16 → (s.room r).hbm.contains (bitsOf v.toNat 0 17 + i) = true) then
            { s.quire q with winPend := Tbl.put none (s.quire q).winPend k (some { base := BitVec.ofNat 17 v.toNat, size := BitVec.ofNat 16 (v.toNat / 2 ^ 32), mode := BitVec.ofNat 2 (v.toNat / 2 ^ 56) }) }
          else { s.quire q with memEvt := (s.quire q).memEvt ||| 8 }) ∧
    (∀ x, Tbl.get none (s.quire q).winPend k = some x →
      (s.winReady (quireTile q k) = true → LeavesQuire s (.hbmwinApply q k) q { s.quire q with win := Tbl.put {} (s.quire q).win k x, winPend := Tbl.put none (s.quire q).winPend k none }) ∧
      (s.winReady (quireTile q k) = false → exec (.hbmwinApply q k) s = .next s)) ∧
    (∀ g : Fin 25769803776, s.cfgN 0xA003 1 ≠ 0 →
      (s.syndAt g = 0 → exec (.scrub g) s = .next s) ∧
      (∀ i, readSynd (s.syndAt g) = .dataBit i → ∃ n, exec (.scrub g) s = .next n ∧ n.syndAt g = 0 ∧ n.bytesAt (8 * g) 8 = flipBit (s.bytesAt (8 * g) 8) i ∧ n.reb.hbmCe = s.reb.hbmCe + 1 ∧
        { n with mem := s.mem, synd := s.synd, reb := { n.reb with hbmCe := s.reb.hbmCe } } = s) ∧
      (readSynd (s.syndAt g) = .bad → s.syndAt g ≠ 0xFF → ∃ n, exec (.scrub g) s = .next n ∧ n.syndAt g = 0xFF ∧ n.reb.hbmUe = s.reb.hbmUe + 1 ∧ n.integ.poisoned = s.integ.poisoned + 1 ∧
        (∀ j, j ≠ g.val → n.syndAt j = s.syndAt j) ∧ n.mem = s.mem))

/-- GO starts an idle channel, PAUSE and RESUME stop and continue it, and ABORT wins over both (R285, R299, R301, R302, R307, R522). -/
def Obligations.DmaControlWritesStartPauseResumeAndAbort : Prop :=
  ∀ (s : State) (f : FnId) (r : Nat) (c : Fin 64) (ctrl : W64), f.val = r + 1 → s.chanRoom (.sys c) = some r → (s.fn f).held = [] → s.pow.neg = none →
    let x := s.chan (.sys c)
    let x' : Chan := { x with ctrlDesc := BitVec.ofNat 50 (ctrl.toNat / 64), pause := ctrl.getLsbD 1 }
    let only : State → Chan → Prop := fun n y => n.chan (.sys c) = y ∧ (∀ d, d ≠ .sys c → n.chan d = s.chan d) ∧ StagingOnly s n (.host f) ∧
      { n with sdma := s.sdma, fns := s.fns, irq := s.irq, pow := s.pow, tal := s.tal } = s
    (ctrl.getLsbD 2 = false →
      (chanIdle x = true → ∃ n, exec (.go f c ctrl) s = .next n ∧ n.pow = s.leaveIdle.pow ∧ n.tal = s.tal ∧
        only n { x' with state := if ctrl.getLsbD 1 then .paused else .fetch, after := .fetch, curDesc := BitVec.ofNat 64 (ctrl.toNat / 64 * 64 % 2 ^ 56), task := false,
                         credit := 4096, desc := none, issued := 0, reqs := [], buf := [], failed := [], firstErr := none, check := none, errPoint := 0 }) ∧
      (chanIdle x = false → x.pause = false → ctrl.getLsbD 1 = false →
        ∃ n, exec (.go f c ctrl) s = .next n ∧ n.pow = s.pow ∧ n.tal = s.tal ∧ only n { x' with goRefused := true }) ∧
      (ctrl.getLsbD 0 = false →
        (∃ n, exec (.pause f c ctrl) s = .next n ∧ n.pow = s.pow ∧ n.tal = s.tal ∧ only n { x' with pause := true, state := if x.state = .move then .drain else x.state }) ∧
        ((x.pause = false ∨ (x.state ≠ .drain ∧ x.state ≠ .paused)) →
          ∃ n, exec (.resume f c ctrl) s = .next n ∧ n.pow = s.pow ∧ n.tal = s.tal ∧ only n { x' with pause := false }) ∧
        (x.pause = true → x.state = .drain → ∃ n, exec (.resume f c ctrl) s = .next n ∧ n.pow = s.pow ∧ n.tal = s.tal ∧ only n { x' with pause := false, state := .move }) ∧
        (x.pause = true → x.state = .paused → x.after = .fetch → ∃ n, exec (.resume f c ctrl) s = .next n ∧ n.pow = s.pow ∧ n.tal = s.tal ∧ only n { x' with pause := false, state := .fetch }) ∧
        (∀ d, x.pause = true → x.state = .paused → x.after = .wait → x.desc = some d → d.wval.toNat > (s.tally d.wt.toNat).toNat →
          ∃ n, exec (.resume f c ctrl) s = .next n ∧ n.pow = s.pow ∧ only n { x' with pause := false, state := .wait } ∧
            n.tal = { s.tal with waits := s.tal.waits ++ [{ who := .chan (.sys c), tally := d.wt.toNat, expected := d.wval }] }))) ∧
    (chanIdle x = true → ∃ n, exec (.abort f c ctrl) s = .next n ∧ n.pow = s.pow ∧ n.tal = s.tal ∧ only n x') ∧
    (chanIdle x = false → x.state ≠ .aborting → ∃ n, exec (.abort f c ctrl) s = .next n ∧ n.pow = s.pow ∧
      only n { x' with state := .aborting, after := if x.state = .complete ∧ x.firstErr = none then .complete else .idle } ∧
      n.tal = { s.tal with waits := s.tal.waits.filter fun w => w.who ≠ .chan (.sys c) })

/-- A channel fetches and checks its descriptor, issues pieces, takes their ends, and closes the descriptor as R291 orders (R286, R287, R289, R290, R291, R294, R296, R297, R299, R301, R302). -/
def Obligations.DmaDescriptorsAreFetchedMovedAndEnded : Prop :=
  ∀ (s : State) (c : ChanRef) (r : Nat) (d : Desc) (bs : List Byte) (tag : BitVec 16), s.chanRoom c = some r →
    let x := s.chan c
    let b := descByte c x.curDesc.toNat
    let outside : State → Nat → Nat → Prop := fun n a k => ∀ i, (i < a ∨ a + k ≤ i) → n.byteAt i = s.byteAt i
    (x.state = .fetch →
      (s.descAddrOk c x.curDesc.toNat x.task = false → LeavesChan s (.descriptorFetch c) c { x with state := .error, code := 7, errEvt := true, desc := none }) ∧
      (s.descAddrOk c x.curDesc.toNat x.task = true → (∀ q ∈ rangeQuires b 64, s.quireOn q = true) → s.readMem b 64 = (some bs, s) → d = parseDesc bs →
        (s.descCheck c r x.task bs d = 0 → x.pause = false →
          let y : Chan := { x with desc := some d, issued := 0, reqs := [], buf := [], failed := [], firstErr := none, check := none, errPoint := 0, curSrc := d.src, curDst := d.dst, curLen := d.len }
          (d.wen = false → LeavesChan s (.descriptorFetch c) c { y with state := if d.op = 4 then .complete else .move }) ∧
          (d.wen = true → (s.tally d.wt.toNat).toNat < d.wval.toNat → ∃ n, exec (.descriptorFetch c) s = .next n ∧ OnlyChan s { n with tal := s.tal } c { y with state := .wait } ∧
            n.tal = { s.tal with waits := s.tal.waits ++ [{ who := .chan c, tally := d.wt.toNat, expected := d.wval }] })) ∧
        (∀ k, s.descCheck c r x.task bs d = k → k ≠ 0 → b % 8 = 0 →
          ∃ n, exec (.descriptorFetch c) s = .next n ∧
            OnlyChan s { n with mem := s.mem, synd := s.synd, tal := s.tal, rooms := s.rooms } c { x with state := .error, code := BitVec.ofNat 8 k, errEvt := true } ∧
            n.bytesAt (b + 56) 8 = leBytes 8 (k * 2 ^ 48 + 3 * 2 ^ 56) ∧ outside n (b + 56) 8 ∧
            ((d.aen = false ∨ (k ≠ 5 ∧ k ≠ 6) ∨ s.advanceCheck r d.at'.toNat d.amt.toNat = 0) → n.tal = s.tal ∧ n.rooms = s.rooms) ∧
            (d.aen = true → (k = 5 ∨ k = 6) → s.advanceCheck r d.at'.toNat d.amt.toNat ≠ 0 → n.tal = { s.tal with refused := s.tal.refused + 1 } ∧
              (n.room r).tallyErr = BitVec.ofNat 32 (65536 * s.advanceCheck r d.at'.toNat d.amt.toNat + 8192 * (if isSys c then 2 else 1) + d.at'.toNat) ∧
              (n.room r).tallyEvt = (s.room r).tallyEvt ||| 1)))) ∧
    (x.state = .move → x.firstErr = none → x.desc = some d → isSys c = false → (∀ q ∈ descQuires c d, s.quireOn q = true) →
      (d.op = 1 → d.ssp = 0 → x.issued < d.len.toNat → ∀ k : BitVec 16,
        let m := pieceSize (d.src.toNat + x.issued) (Nat.min (d.len.toNat - x.issued) (64 - (d.src.toNat + x.issued) % 64))
        let v := s.meshRun
        let path := s.readPath c d (d.src.toNat + x.issued)
        { v with quires := s.quires, sdma := s.sdma, free := s.free } = s ∧ { v.chan c with reqs := x.reqs } = x ∧
        (freeTag c (v.chan c) = some k → v.meshFree path = true →
          ∃ n y, exec (.pieceIssue c) s = .next n ∧ OnlyChan v n c y ∧ y.issued = x.issued + m ∧ y.state = .move ∧
            y.reqs = (v.chan c).reqs ++ [{ tag := k, off := x.issued, len := m, writing := false, space := (m + 63) / 64, path := path, hop := Nat.min 1 path.length }]) ∧
        (v.meshFree path = false → exec (.pieceIssue c) s = .next v)) ∧
      (d.op = 2 → d.mc = false → d.dst.toNat % 64 = 0 → d.len.toNat % 64 = 0 → x.issued % 64 = 0 → x.issued < d.len.toNat →
        ∃ n, exec (.pieceIssue c) s = .next n ∧ (n.chan c).issued = x.issued + 64 ∧ outside n (d.dst.toNat + x.issued) 64 ∧
          ∀ i, i < 64 → n.byteAt (d.dst.toNat + x.issued + i) = BitVec.ofNat 8 (d.aux.toNat / 2 ^ (8 * (i % 8))))) ∧
    (∀ q : DmaReq, isSys c = false → x.desc = some d → x.reqs.find? (fun z => z.tag = tag) = some q → q.writing = false → d.ssp = 0 → d.mc = false → q.len ≠ 0 →
      s.readMem (d.src.toNat + q.off) q.len = (some bs, s) → (d.dst.toNat + q.off) % 8 = 0 → q.len % 8 = 0 → bs.length = q.len →
      (q.lost = false → chanIssues x = true →
        ∃ n, exec (.requestComplete c tag (.ok [])) s = .next n ∧ (n.chan c).reqs = x.reqs.filter (fun z => z.tag ≠ tag) ∧
          (∀ i, i < q.len → n.byteAt (d.dst.toNat + q.off + i) = bs.getD i 0) ∧ outside n (d.dst.toNat + q.off) q.len) ∧
      (q.lost = false → chanIssues x = false →
        ∃ n y, exec (.requestComplete c tag (.ok [])) s = .next n ∧ OnlyChan s n c y ∧ y.reqs = x.reqs.filter (fun z => z.tag ≠ tag) ∧ y.failed = x.failed ++ [(q.off, q.len)]) ∧
      (q.lost = true → exec (.requestComplete c tag (.ok [])) s = .next s)) ∧
    (∀ q : DmaReq, x.reqs.find? (fun z => z.tag = tag) = some q →
      ∃ n y, exec (.timeout c tag) s = .next n ∧ OnlyChan s n c y ∧ y.reqs = x.reqs.filter (fun z => z.tag ≠ tag) ∧ y.failed = x.failed ++ [(q.off, q.len)] ∧
        y.firstErr = if x.firstErr = none ∧ x.state ≠ .aborting then some 22 else x.firstErr) ∧
    (x.state = .complete → x.desc = some d → x.firstErr = none → b % 8 = 0 → (∀ q ∈ rangeQuires (b + 56) 8, s.quireOn q = true) →
      ∃ n, exec (.descriptorComplete c) s = .next n ∧ n.bytesAt (b + 56) 8 = leBytes 8 ((if d.op.toNat ≤ 2 then d.len.toNat else 0) + 2 ^ 56) ∧ outside n (b + 56) 8 ∧
        OnlyChan s { n with mem := s.mem, synd := s.synd, tal := s.tal } c { x with
          state := if d.last then .idle else if x.pause then .paused else .fetch, desc := none, doneEvt := x.doneEvt || d.irq,
          after := if d.last then x.after else .fetch, curDesc := if d.last then x.curDesc else d.next } ∧
        n.tal = { s.tal with adv := if d.aen then s.tal.adv ++ [{ tally := d.at'.toNat, amount := d.amt, room := toRoom r, source := if isSys c then 2 else 1 }] else s.tal.adv }) ∧
    (x.state = .drain → x.desc = some d → x.reqs = [] → x.buf = [] → x.firstErr = none → x.issued < (if d.op.toNat ≤ 2 then d.len.toNat else 0) →
      ∃ n y, exec (.drainDone c) s = .next n ∧ OnlyChan s n c y ∧ y.state = .paused ∧ y.after = .move ∧ y.issued = x.issued) ∧
    (x.state = .aborting → x.reqs = [] → x.desc = some d → x.after ≠ .complete → x.check = none → b % 8 = 0 → (∀ q ∈ rangeQuires (b + 56) 8, s.quireOn q = true) → (s.room r).resetting = false → s.led.current = none →
      ∃ n, exec (.abortDone c) s = .next n ∧ (∃ k, k ≤ x.issued ∧ n.bytesAt (b + 56) 8 = leBytes 8 (k % 2 ^ 40 + 32 * 2 ^ 48 + 4 * 2 ^ 56)) ∧ outside n (b + 56) 8 ∧
        OnlyChan s { n with mem := s.mem, synd := s.synd } c { x with state := .idle, desc := none, reqs := [], buf := [], abortedEvt := true, code := 32 })

/-- FABRIC_READ and FABRIC_WRITE answer through their window, completions end their requests, and PACKET_FORWARD sends on (R304, R327, R332, R333, R344, R359, R365, R371). -/
def Obligations.FabricRequestsAndCompletionsAreServed : Prop :=
  ∀ (s : State) (p : Packet) (e : Nat × Packet) (r w : Nat) (d : Desc) (q : DmaReq),
    (s.arrivedHere p 1 = some e → s.pow.neg = none → p.pchk = packetCheck p →
      (s.winJudge false p.jobId p.addr.toNat p.len.toNat = .takeIn w → (s.window w).room.toNat = r → Uninjected s 7 r → Uninjected s 5 r →
        (∀ g ∈ granules p.addr.toNat p.len.toNat, s.syndAt g = 0) →
        exec (.fabricRead p) s = .next (sent (taken s e [7, 5]) (completion s p 4 0 (s.bytesAt p.addr.toNat p.len.toNat)))) ∧
      (∀ k, s.winJudge false p.jobId p.addr.toNat p.len.toNat = .refuse k → Uninjected s 5 255 →
        exec (.fabricRead p) s = .next (sent (winRefused (taken s e [7, 5]) p k) (completion s p 5 1 [])))) ∧
    (s.arrivedHere p 2 = some e → s.pow.neg = none → p.pchk = packetCheck p → Uninjected s 5 255 →
      (s.winJudge true p.jobId p.addr.toNat p.payload.length = .takeIn w → (s.window w).room.toNat = r → Uninjected s 7 r →
        (∀ g ∈ granules p.addr.toNat p.payload.length, s.syndAt g = 0) →
        ∃ m, exec (.fabricWrite p) s = .next (sent m (completion s p 3 0 [])) ∧ { m with mem := s.mem, synd := s.synd } = taken s e [7, 5] ∧
          (∀ i, i < p.payload.length → m.byteAt (p.addr.toNat + i) = p.payload.getD i 0) ∧
          ∀ a, (a < p.addr.toNat ∨ p.addr.toNat + p.payload.length ≤ a) → m.byteAt a = s.byteAt a) ∧
      (∀ k, s.winJudge true p.jobId p.addr.toNat p.payload.length = .refuse k →
        exec (.fabricWrite p) s = .next (sent (winRefused (taken s e [7, 5]) p k) (completion s p 5 1 [])))) ∧
    (let c := tagChan p.tag
     let x := s.chan c
     (CompletionFor s p 3 (some true) e r d q → x.buf = [] →
       ∃ n y, exec (.wack p) s = .next n ∧ OnlyChan (taken s e [7]) n c y ∧ y.reqs = x.reqs.filter (fun z => z.tag ≠ p.tag) ∧ y.failed = x.failed ∧ y.firstErr = x.firstErr) ∧
     (CompletionFor s p 4 (some false) e r d q → d.dsp = 0 → q.len ≠ 0 → x.buf = [] → Uninjected s 3 r → Uninjected s 4 r →
       ∃ n, exec (.rdata p) s = .next n ∧ (n.chan c).reqs = x.reqs.filter (fun z => z.tag ≠ p.tag) ∧
         (x.issued < (blockOf d q.off).2 → x.issued < (blockOf d (q.off + q.len - 1)).2 →
           n.mem = s.mem ∧ ∀ i, i < q.len → Tbl.get none (n.chan c).buf (q.off + i) = some (p.payload.getD i 0)) ∧
         (blockOf d q.off = (q.off, q.off + q.len) → blockOf d (q.off + q.len - 1) = (q.off, q.off + q.len) → chanIssues x = true → blockReady (dropReq x p.tag) q.off (q.off + q.len) = true →
           (∀ g ∈ granules (d.dst.toNat + q.off) q.len, s.syndAt g = 0) →
           (∀ i, i < q.len → n.byteAt (d.dst.toNat + q.off + i) = p.payload.getD i 0) ∧
           ∀ a, (a < d.dst.toNat + q.off ∨ d.dst.toNat + q.off + q.len ≤ a) → n.byteAt a = s.byteAt a)) ∧
     (CompletionFor s p 5 none e r d q →
       ∃ n y, exec (.err p) s = .next n ∧ OnlyChan (taken s e [7]) n c y ∧ y.reqs = x.reqs.filter (fun z => z.tag ≠ p.tag) ∧ y.failed = x.failed ++ [(q.off, q.len)] ∧
         y.firstErr = if x.firstErr = none ∧ x.state ≠ .aborting then some (if p.err = 1 then 18 else if p.err = 2 then 19 else if p.err = 3 then 16 else if p.err = 4 then 17 else 21) else x.firstErr)) ∧
    (∀ (i : PortId) (o : Nat) (v : Bool), s.fab.arrived.find? (fun z => arrivedBy z.1 = i.val && z.2 = p) = some e → p.dst.toNat ≠ s.devNo → isTreeMsg p = false →
      s.route p.dst.toNat i p.v = some (o, v) →
      let u := taken s e []
      let x := u.port o
      let k : Packet := { p with v := v }
      let fs := flitsOf x.txSeq [k]
      (canSend x k = false → x.txq = [] → ∃ n, exec (.packetForward i p) s = .next n ∧ n.port o = { x with txq := [k] } ∧ (∀ j, j ≠ o → n.port j = u.port j) ∧ { n with ports := u.ports } = u) ∧
      (canSend x k = true → x.txq = [] → x.replayBuf.length + fs.length ≤ 512 → armedAt s.integ 6 255 [4] = none →
        ∃ n, exec (.packetForward i p) s = .next n ∧
          n.port o = { servePacket { x with txq := [k] } k with txSeq := x.txSeq + BitVec.ofNat 12 fs.length, replayBuf := x.replayBuf ++ fs } ∧
          (∀ j, j ≠ o → n.port j = u.port j) ∧ n.out = u.out ++ fs.map (fun f => .flit (Fin.ofNat 16 o) f true) ∧
          { n with ports := u.ports, out := u.out } = { taken s e (List.replicate fs.length 6) with ports := u.ports, out := u.out }))

/-- Ports move through TRAIN, EXCH, UP, HOLD and REFUSED on their events as R335 to R343 say (R323, R330, R335, R336, R337, R338, R343, R351). -/
def Obligations.LinksTrainExchangeHoldAndResume : Prop :=
  ∀ (s : State) (p : PortId) (lanes : BitVec 8) (pl : List Byte),
    let x := s.port p
    let e := readExch pl
    let lost : Port := { x with state := .hold, fromHold := true, badRun := 0, evt := x.evt ||| 2 }
    (s.portsRun = true → s.portEnabled p = true → s.inTorus = true → (x.state = .down ∨ x.state = .train ∨ x.state = .hold) →
      ((lanes &&& 0x0F = 0x0F ∨ lanes &&& 0xF0 = 0xF0) →
        LeavesPort s (.trainComplete p lanes) p { x with state := .exch, half := decide (lanes ≠ 0xFF), rate := decide (s.cfgAt 0x6001 (p + 1) 1 1 = 1), cause := 0 } (s.out ++ [.exch p (exchPayload (s.exchOf p))])) ∧
      (¬(lanes &&& 0x0F = 0x0F ∨ lanes &&& 0xF0 = 0xF0) →
        LeavesPort s (.trainComplete p lanes) p { x with state := .refused, cause := 4, evt := x.evt ||| 32 } s.out)) ∧
    (x.state = .exch →
      exec (.exchSend p) s = .next { s with out := s.out ++ [.exch p (exchPayload (s.exchOf p))] } ∧
      LeavesPort s (.exchFlit p false pl) p { x with badRun := x.badRun + 1, cnt := { x.cnt with lcrc := x.cnt.lcrc + 1 } } s.out ∧
      (∀ k, s.peerCheck p e = k → k ≠ 0 → LeavesPort s (.exchFlit p true pl) p { x with state := .refused, cause := BitVec.ofNat 3 k, evt := x.evt ||| 32 } s.out) ∧
      (s.peerCheck p e = 0 → canResume x e = true →
        ∃ n, exec (.exchFlit p true pl) s = .next n ∧ (n.port p).state = .up ∧ (n.port p).fromHold = false ∧ (n.port p).session = x.session ∧ (n.port p).peer = x.peer ∧ (n.port p).rxNext = x.rxNext ∧ n.mem = s.mem) ∧
      (s.peerCheck p e = 0 → canResume x e = false →
        ∃ n, exec (.exchFlit p true pl) s = .next n ∧ (n.port p).state = .up ∧ (n.port p).fromHold = false ∧ (n.port p).session = x.session + 1 ∧ (n.port p).rxNext = 0 ∧
          (n.port p).peer = { known := true, device := e.device, incarnation := e.incarnation, session := e.session + 1, x := e.x, y := e.y, z := e.z })) ∧
    (x.state = .up → s.clk.parentPort.toNat ≠ p → LeavesPort s (.linkLost p) p lost s.out) ∧
    (x.state = .up → s.clk.parentPort.toNat = p → ∃ n, exec (.linkLost p) s = .next n ∧ (n.port p).state = .hold ∧ (n.port p).fromHold = true) ∧
    ((x.state = .exch ∨ x.state = .train) → x.fromHold = false → LeavesPort s (.linkLost p) p { x with state := .down } s.out) ∧
    ((x.state = .exch ∨ x.state = .train) → x.fromHold = true → LeavesPort s (.linkLost p) p lost s.out) ∧
    (x.fromHold = true → ∃ n, exec (.holdExpired p) s = .next n ∧ (n.port p).fromHold = false ∧ (n.port p).state = .down ∧ (n.port p).replayBuf = [] ∧
      (n.port p).cnt.expiries = x.cnt.expiries + 1 ∧ (n.port p).evt = x.evt ||| 4) ∧
    (x.state = .refused → LeavesPort s (.refusedRetrain p) p { x with state := .train } s.out)

/-- DATA, IDLE and replayed flits, ROUTE_UPDATE and a mesh header failure (R325, R326, R327, R329, R334, R345, R353, R364, R367). -/
def Obligations.FlitsAreAcceptedInSequenceAndReplayed : Prop :=
  ∀ (s : State) (p : PortId) (h : FlitHdr) (ks : List Packet),
    let x := s.port p
    (x.state = .up → h.lcrcOk = true → h.seq = x.rxNext →
      ∃ n, exec (.dataFlit p h ks) s = .next n ∧ n.fab.arrived = s.fab.arrived ++ ks.map (fun k => (p.val, k)) ∧ (n.port p).rxNext = x.rxNext + 1 ∧ (n.port p).nakSent = false ∧
        n.out.getLast? = some (.linkAck p h.seq false) ∧ n.mem = s.mem ∧ n.rooms = s.rooms) ∧
    (x.state = .up → h.lcrcOk = false → h.corrected = 0 → h.uncorrectable = 0 → x.badRun < 15 →
      ∃ n, exec (.dataFlit p h ks) s = .next n ∧ n.fab = s.fab ∧ n.out = (if x.nakSent then s.out else s.out ++ [.linkAck p (x.rxNext - 1) true]) ∧
        n.port p = { x with nakSent := true, badRun := x.badRun + 1, cnt := { x.cnt with lcrc := x.cnt.lcrc + 1 } } ∧ n.integ.counts = (countHand s.integ 6 true).counts) ∧
    (x.state = .up → h.lcrcOk = false → 15 ≤ x.badRun → ∀ i ∈ [Instr.dataFlit p h ks, .idleFlit p h],
      ∃ n, exec i s = .next n ∧ (n.port p).state = .hold ∧ (n.port p).fromHold = true) ∧
    (x.state = .up → h.uncorrectable ≠ 0 → h.lcrcOk = true → ∃ n, exec (.idleFlit p h) s = .next n ∧ (n.port p).evt.getLsbD 7 = true ∧
      (n.port p).cnt.uncorrectable = x.cnt.uncorrectable + h.uncorrectable.setWidth 64 ∧ (n.port p).cnt.corrected = x.cnt.corrected + h.corrected.setWidth 64) ∧
    (x.state = .up → h.lcrcOk = true → h.seq ≠ x.rxNext → 512 < (x.rxNext - h.seq).toNat →
      ∃ n, exec (.dataFlit p h ks) s = .next n ∧ n.fab = s.fab ∧ (n.port p).rxNext = x.rxNext ∧ (n.port p).nakSent = true ∧
        (x.nakSent = false → n.out.getLast? = some (.linkAck p (x.rxNext - 1) true))) ∧
    (x.state = .up → h.lcrcOk = true → h.seq ≠ x.rxNext → (x.rxNext - h.seq).toNat ≤ 512 →
      ∃ n, exec (.dataFlit p h ks) s = .next n ∧ n.fab = s.fab ∧ (n.port p).rxNext = x.rxNext ∧ (n.port p).nakSent = x.nakSent) ∧
    (x.state = .up → h.lcrcOk = true → h.corrected = 0 → h.uncorrectable = 0 → h.nak = false → x.txq = [] →
      LeavesPort s (.idleFlit p h) p { x with badRun := 0, replayBuf := if h.ackv then ackThrough h.ack x.replayBuf else x.replayBuf,
                                              credits := creditBack (creditBack x.credits h.cr0vc.val h.cr0cnt.toNat) h.cr1vc.val h.cr1cnt.toNat } s.out) ∧
    (x.state = .up → x.replayBuf ≠ [] → armedAt s.integ 6 255 [4] = none →
      ∃ n, exec (.replay p) s = .next n ∧ n.out = s.out ++ x.replayBuf.map (fun f => .flit p f true) ∧ (∀ j, j ≠ p.val → n.port j = s.port j) ∧
        n.port p = { x with evt := x.evt ||| 64, cnt := { x.cnt with replays := x.cnt.replays + 1, flitsReplayed := x.cnt.flitsReplayed + BitVec.ofNat 64 x.replayBuf.length } } ∧
        { n with ports := s.ports, out := s.out, integ := s.integ, irq := s.irq } = s) ∧
    (∀ (u : RouteUpd) (e : Nat × Packet), ControlPasses s 9 none (leBytes 2 u.device.toNat ++ leBytes 4 u.incarnation.toNat ++ leBytes 2 u.portsUp.toNat ++ leBytes 4 u.epoch.toNat) e →
      arrivedBy e.1 = p.val → u.device.toNat ≠ s.devNo → updNewer s.fab.map u = true →
      ∃ n, exec (.routeUpdate p u) s = .next n ∧ n.fab.map = u :: s.fab.map.filter (fun y => y.device ≠ u.device)) ∧
    (∃ n, exec .meshHeader s = .next n ∧ n.integ.meshFaults = s.integ.meshFaults + 1 ∧
      ∀ r, r < 16 → ((s.room r).state = .formed ∨ (s.room r).state = .forming) → (s.room r).form ≠ none → (n.room r).state = .faulted ∧ (n.room r).flt.cause = 10)

/-- ROOM_FORM and ROOM_DISSOLVE are recorded and begin, and FORMED, DISSOLUTION_DONE and HBM_UNIT_CLEARED carry them out (R375, R376, R377, R378, R379, R403, R455, R466). -/
def Obligations.RoomsFormAndDissolve : Prop :=
  ∀ (s : State) (r : Req) (f : FormRec) (room : BitVec 8) (a : W64) (x : Record),
    (Admits s r 0x3001 1 (formBytes f) → parseForm (formBytes f) = f →
      (s.formCheck (formBytes f) = 0 →
        Begun s (.roomForm r f) r 0x3001 1 (formBytes f) fun n =>
          (n.room f.room.toNat).state = .forming ∧ (n.room f.room.toNat).form = some f ∧ (n.room f.room.toNat).accession = s.led.nextAcc ∧
          (∀ u ∈ (n.room f.room.toNat).hbm, u ∉ s.reb.clearing ∧ ∀ k, k < 16 → u ∉ (s.room k).hbm) ∧
          (∀ d, d < 4 → ((n.room f.room.toNat).hbm.filter (fun u => u / 24576 = d)).length = (f.hbmUnits.getD d 0).toNat) ∧
          (∀ k, k ≠ f.room.toNat → n.room k = s.room k) ∧ n.pow = s.leaveIdle.pow ∧ { n with rooms := s.rooms, pow := s.pow, quires := s.quires, led := s.led, bil := s.bil, irq := s.irq } = s) ∧
      (∀ row, s.formCheck (formBytes f) = row → row ≠ 0 → row ≠ 4 →
        Journaled s (.roomForm r f) r 0x3001 1 (formBytes f) (if row = 1 then 3 else if row = 2 then 2 else 4) [] fun n =>
          ReplyOnly { s with dev := { s.dev with refusal := { status := if row = 1 then 3 else if row = 2 then 2 else 4, room := f.room, plan := 255, formation := 0, order := BitVec.ofNat 8 row } } } n) ∧
      (s.formCheck (formBytes f) = 4 → Journaled s (.roomForm r f) r 0x3001 1 (formBytes f) 5 [] fun n => n.dev.refusal.order = 4 ∧ n.rooms = s.rooms ∧ n.mem = s.mem)) ∧
    (f.room.toNat < 16 → (s.room f.room.toNat).form = some f → (s.room f.room.toNat).state = .forming → TakingEffect s a x →
      recNames x 0x3001 1 f.room.toNat = true → (∀ q ∈ formQuires f, (s.quire q).power = .on) →
      ∃ n y, exec (.formed (toRoom f.room.toNat)) s = .next n ∧ (n.room f.room.toNat).state = .formed ∧ (n.room f.room.toNat).evt = (s.room f.room.toNat).evt ||| 1 ∧
        n.record a = some y ∧ y.done = true ∧ y.status = 0 ∧
        (∀ q ∈ formQuires f, f.perQuire.length = (formQuires f).length → ∀ t ∈ quireTiles q, n.tile t = {} ∧ ∀ i, i < 0x200000 → n.byteAt (scratchBase t + i) = 0) ∧
        (∀ k, f.ltBase.toNat ≤ k → k < f.ltBase.toNat + f.ltCount.toNat → n.tally k = 0) ∧
        (∀ c : Fin 2048, f.cueBase.toNat ≤ c → c < f.cueBase.toNat + f.cueCount.toNat → n.cueAt (.dev c) = {})) ∧
    (Admits s r 0x3001 2 [room] →
      (room.toNat < 16 → (s.room room.toNat).isFormed = true →
        Begun s (.roomDissolve r room) r 0x3001 2 [room] fun n =>
          (n.room room.toNat).state = .dissolving ∧ RoomStopped s n room.toNat ∧ (∀ w, (n.window w).isOpen = true → (n.window w).room ≠ room) ∧
          (∀ c ∈ s.roomChans room.toNat, chanIdle (n.chan c) = true ∨ (n.chan c).state = .aborting) ∧ ∀ k, k ≠ room.toNat → n.room k = s.room k) ∧
      ((16 ≤ room.toNat ∨ (s.room room.toNat).isFormed = false) → Refused s (.roomDissolve r room) r 0x3001 2 [room] 3)) ∧
    (∀ k : RoomId, (s.room k).form = some f → (s.room k).state = .dissolving → s.chansQuiet k = true → (∀ j ∈ s.vault.jobs, j.room ≠ k) → TakingEffect s a x →
      recNames x 0x3001 2 k = true →
      ∃ n y, exec (.dissolutionDone k) s = .next n ∧ (n.room k).state = .free ∧ (n.room k).hbm = [] ∧ (n.room k).form = none ∧ (n.room k).flt = (s.room k).flt ∧
        n.reb.clearing = s.reb.clearing ++ (s.room k).hbm ∧ n.record a = some y ∧ y.done = true ∧ y.status = 0) ∧
    (∀ u rest, s.reb.clearing = u :: rest →
      ∃ n, exec .hbmUnitCleared s = .next n ∧ n.reb = { s.reb with clearing := rest } ∧ (∀ i, u * 0x200000 ≤ i → i < (u + 1) * 0x200000 → n.byteAt i = 0) ∧
        (∀ i, (i < u * 0x200000 ∨ (u + 1) * 0x200000 ≤ i) → n.byteAt i = s.byteAt i) ∧ { n with reb := s.reb, mem := s.mem, synd := s.synd } = s)

/-- Room resets, function-level resets, declared faults and the halt at a cue boundary stop a room as R382 to R389 say (R87, R382, R383, R387, R388, R389, R401, R425). -/
def Obligations.RoomsResetAndFault : Prop :=
  ∀ (s : State) (k : RoomId) (r : Req) (detail : BitVec 16) (f : FormRec), (s.room k).form = some f →
    ((s.room k).isFormed = true → f.ftCount = 0 → (∀ c ∈ s.roomChans k, chanIdle (s.chan c) = true) →
      (∃ n, exec (.roomReset .reg k) s = .next n ∧ ResetDone s n k) ∧
      (∃ n, exec (.functionLevelReset ⟨k + 1, by omega⟩) s = .next n ∧ ResetDone s n k ∧ (n.fn (k + 1)).hostErr = 0 ∧ (n.fn (k + 1)).hostEvt = 0 ∧ (n.fn (k + 1)).apt = [] ∧
        (n.fn (k + 1)).msix = [] ∧ (n.fn (k + 1)).mbx = {} ∧ (n.fn (k + 1)).stage = none ∧ ∀ j, j ≠ k.val + 1 → n.fn j = s.fn j) ∧
      (Admits s r 0x3002 1 [BitVec.ofNat 8 k] → Journaled s (.roomReset (.cmd r) k) r 0x3002 1 [BitVec.ofNat 8 k] 0 [] fun n => ResetDone s n k)) ∧
    ((s.room k).isFormed = true → f.ftCount = 0 → ∀ c ∈ s.roomChans k, chanIdle (s.chan c) = false →
      (∃ n, exec (.roomReset .reg k) s = .next n ∧ (n.room k).resetting = true ∧ (n.room k).evt = (s.room k).evt ∧ (n.chan c).state = .aborting ∧ RoomStopped s n k) ∧
      (Admits s r 0x3002 1 [BitVec.ofNat 8 k] → Begun s (.roomReset (.cmd r) k) r 0x3002 1 [BitVec.ofNat 8 k] fun n => (n.room k).resetting = true ∧ (n.chan c).state = .aborting)) ∧
    ((s.room k).flr = true → (s.room k).resetting = true → s.led.current = none → (∀ c ∈ s.roomChans k, chanIdle (s.chan c) = true ∨ (s.chan c).state = .aborting) →
      (∀ c ∈ s.roomChans k, s.statusAsleep c = []) →
      ∃ n, exec (.flrWaitExpiry k) s = .next n ∧ (n.room k).resetting = false ∧ (n.room k).flr = false ∧ (n.room k).evt &&& 16 = 16 ∧ ∀ c ∈ s.roomChans k, chanIdle (n.chan c) = true) ∧
    ((s.room k).state = .formed → f.ftCount = 0 →
      (∃ n, exec (.roomDeclareFault .reg k detail) s = .next n ∧ RoomFaulted s n k 16 0) ∧
      (Admits s r 0x3003 1 ([BitVec.ofNat 8 k] ++ leBytes 2 detail.toNat) →
        Journaled s (.roomDeclareFault (.cmd r) k detail) r 0x3003 1 ([BitVec.ofNat 8 k] ++ leBytes 2 detail.toNat) 0 [] fun n => RoomFaulted s n k 16 detail)) ∧
    ((s.room k).state = .faulted → (s.room k).flt.secondary ≠ 255 →
      LeavesRoom s (.roomDeclareFault .reg k detail) k { s.room k with flt := { (s.room k).flt with secondary := (s.room k).flt.secondary + 1 } }) ∧
    (s.atCueBoundary k = true → ∃ n, exec (.haltAtCueBoundary k) s = .next n ∧ (n.room k).haltAt = none ∧ RoomStopped s n k) ∧
    (∃ n, exec (.functionLevelReset 0) s = .next n ∧ n.pcie = { s.pcie with vfEnable := false, numVfs := 0 } ∧ (n.fn 0).hostErr = 0 ∧ (n.fn 0).hostEvt = 0 ∧ (n.fn 0).msix = [] ∧ (n.fn 0).mbx = {} ∧ n.rooms = s.rooms)

/-- WINDOW_OPEN, WINDOW_CLOSE, INJECT, KEY_SLOT, ROOM_QOS and PLAN_WRITE are recorded and set exactly what they name (R303, R305, R372, R380, R386, R448, R455, R466, R468). -/
def Obligations.JournaledSettingsTakeEffectOnce : Prop :=
  ∀ (s : State) (r : Req),
    (∀ (w k perm : BitVec 8) (job : W32) (base size : W64),
      let v := [w, k, perm] ++ leBytes 4 job.toNat ++ leBytes 8 base.toNat ++ leBytes 8 size.toNat
      Admits s r 0x6200 1 v →
        (k.toNat < 16 → (s.room k.toNat).isFormed = true → base.toNat % 4096 = 0 → size.toNat % 4096 = 0 → 4096 ≤ size.toNat → size.toNat ≤ 0x3000000000 → perm.toNat < 4 →
          oneRegion base.toNat size.toNat = true → s.ownsBytes k.toNat base.toNat size.toNat = true →
          ((s.window w.toNat).isOpen = false → Journaled s (.windowOpen r w k perm job base size) r 0x6200 1 v 0 [] fun n =>
            ReplyOnly { s with wins := Tbl.put {} s.wins w.toNat { isOpen := true, room := k, perm := perm, jobId := job, base := base, size := size } } n) ∧
          ((s.window w.toNat).isOpen = true → Refused s (.windowOpen r w k perm job base size) r 0x6200 1 v 3)) ∧
        (k.toNat < 16 → (s.room k.toNat).isFormed = true → base.toNat % 4096 ≠ 0 → Refused s (.windowOpen r w k perm job base size) r 0x6200 1 v 2)) ∧
    (∀ w : BitVec 8, Admits s r 0x6200 2 [w] →
      Journaled s (.windowClose r w) r 0x6200 2 [w] 0 [] fun n => ReplyOnly { s with wins := Tbl.put {} s.wins w.toNat { s.window w.toNat with isOpen := false } } n) ∧
    (∀ (k pt kind : BitVec 8) (count : BitVec 16), Admits s r 0xA010 2 ([k, pt, kind] ++ leBytes 2 count.toNat) →
      (s.cfgN 0xA010 1 = 0 → Refused s (.inject r k pt kind count) r 0xA010 2 ([k, pt, kind] ++ leBytes 2 count.toNat) 3) ∧
      (s.cfgN 0xA010 1 ≠ 0 → kindApplies kind.toNat pt.toNat = true → count ≠ 0 → ((pt = 8 ∨ pt = 9) ∨ (k.toNat < 16 ∧ (s.room k.toNat).isFormed = true)) →
        Journaled s (.inject r k pt kind count) r 0xA010 2 ([k, pt, kind] ++ leBytes 2 count.toNat) 0 [] fun n => ReplyOnly s n ∧
          (pt ≠ 9 → Uninjected s 9 255 → n.integ.inject = s.integ.inject ++ [{ room := if pt = 8 then 255 else k, point := pt, kind := kind, left := count }]))) ∧
    (∀ (i : Fin 32) (len : BitVec 8) (key : List Byte) (perm : BitVec 8) (rooms : BitVec 16) (base : W32) (count : BitVec 16),
      let v := [len] ++ padTo 64 key ++ [perm] ++ leBytes 2 rooms.toNat ++ leBytes 4 base.toNat ++ leBytes 2 count.toNat
      Admits s r 0x6301 (i + 1) v → 16 ≤ len.toNat → len.toNat ≤ 64 → key.length = len.toNat → perm.toNat < 32 →
        (count ≠ 0 → base ≠ 0 ∧ base.toNat + count.toNat - 1 < 0xFFFFFF00) → s.clientSum i + count.toNat ≤ 65536 →
        Journaled s (.keySlot r i len key perm rooms base count) r 0x6301 (i + 1) v 0 [] fun n => ReplyOnly s n ∧
          n.keySlot i = { len := len, key := key, perm := perm, rooms := rooms, base := base, count := count, failures := (s.keySlot i).failures, heldOff := (s.keySlot i).heldOff } ∧
          ∀ j, j ≠ i.val → n.keySlot j = s.keySlot j) ∧
    (∀ (k hbm mesh fabric : BitVec 8) (rate : BitVec 16) (f : FormRec), Admits s r 0x3004 1 ([k, hbm, 0, mesh, fabric] ++ leBytes 2 rate.toNat) → s.roomsAllowed = true →
      k.toNat < 16 → (s.room k.toNat).isFormed = true → (s.room k.toNat).form = some f → hbm ≠ 0 → mesh ≠ 0 → fabric ≠ 0 → rate ≠ 0 → rate.toNat ≤ 256 →
      s.shareSum k.toNat (fun g => g.hbmShare.toNat) + hbm.toNat ≤ 255 → s.shareSum k.toNat (fun g => g.dmaRate.toNat) + rate.toNat ≤ 256 →
      Journaled s (.roomQos r k hbm mesh fabric rate) r 0x3004 1 ([k, hbm, 0, mesh, fabric] ++ leBytes 2 rate.toNat) 0 [] fun n =>
        ReplyOnly (s.setRoom k.toNat { s.room k.toNat with form := some { f with hbmShare := hbm, meshWeight := mesh, fabricWeight := fabric, dmaRate := rate } }) n) ∧
    (∀ (p : BitVec 8) (dissolve : BitVec 16) (l : List FormRec),
      let v := [p] ++ leBytes 2 dissolve.toNat ++ l.flatMap fun f => leBytes 2 (formBytes f).length ++ formBytes f
      Admits s r 0x3020 1 v → p.toNat < 16 → l.length ≤ 16 → (∀ f ∈ l, recLengthOk (formBytes f) = true) →
        Journaled s (.planWrite r p dissolve l) r 0x3020 1 v 0 [] fun n => ReplyOnly { s with plans := Tbl.put {} s.plans p.toNat { dissolve := dissolve, forms := l.map formBytes } } n)

/-- TALLY_ADV, TALLY_ADVANCE and LOCAL_ADVANCE_APPLY add to a tally, and WATCH_ARM arms a watch on it (R95, R97, R98, R99, R106, R110, R118, R122, R123). -/
def Obligations.AdvancesReachTheirTallyOrAreRefused : Prop :=
  ∀ (s : State) (f : FnId) (k : RoomId) (g : FormRec) (tally : Fin 5120) (v : W32) (w : Fin 256) (r : Req) (amt : BitVec 16) (a : PendingAdvance) (rest : List PendingAdvance),
    (s.room k).form = some g →
    (HostAt s f k →
      (formOwns g tally = true → v.setWidth 16 ≠ 0#16 →
        ∃ n, exec (.tallyAdv f tally v) s = .next n ∧ n.tal = { s.tal with adv := s.tal.adv ++ [{ tally := tally, amount := v.setWidth 16, room := k, source := 4 }] } ∧
          (∀ j, n.fn j = s.fn j) ∧ { n with tal := s.tal, fns := s.fns } = s) ∧
      (formOwns g tally = false → ∃ n, exec (.tallyAdv f tally v) s = .next n ∧ AdvanceRefused s n k 1 4 tally) ∧
      (formOwns g tally = true → v.setWidth 16 = 0#16 → ∃ n, exec (.tallyAdv f tally v) s = .next n ∧ AdvanceRefused s n k 2 4 tally) ∧
      (s.watchRoom w = some k.val → (s.watch w).arm = false →
        let T : BitVec 13 := v.setWidth 13
        let old := if v.getLsbD 25 = true then false else (s.watch w).hit
        (formOwns g T.toNat = true →
          ∃ n, exec (.watchArm f w v) s = .next n ∧ (∀ j, j ≠ w.val → n.watch j = s.watch j) ∧ { n with tal := s.tal, fns := s.fns, irq := s.irq } = s ∧
            ((s.frozen T.toNat = true ∨ (s.tally T.toNat).toNat < (s.watch w).value.toNat) →
              n.watch w = { value := (s.watch w).value, tally := T, vector := (v >>> 13).setWidth 8, arm := true, hit := old }) ∧
            (s.frozen T.toNat = false → (s.watch w).value.toNat ≤ (s.tally T.toNat).toNat →
              n.watch w = { value := (s.watch w).value, tally := T, vector := (v >>> 13).setWidth 8, arm := false, hit := true })) ∧
        (formOwns g T.toNat = false →
          ∃ n, exec (.watchArm f w v) s = .next n ∧ n.watch w = { value := (s.watch w).value, tally := T, vector := (v >>> 13).setWidth 8, arm := false, hit := old } ∧
            (n.room k).tallyErr = BitVec.ofNat 32 (65536 + 8192 * 4 + T.toNat) ∧ (n.room k).tallyEvt = (s.room k).tallyEvt ||| 1))) ∧
    (∀ t : BitVec 16, let c := [BitVec.ofNat 8 k] ++ leBytes 2 t.toNat ++ leBytes 2 amt.toNat
      Admits s r 0x4001 1 c →
        (formOwns g t.toNat = true → amt ≠ 0 → s.frozen t.toNat = false →
          Journaled s (.tallyAdvance r (BitVec.ofNat 8 k) t amt) r 0x4001 1 c 0 [] fun n =>
            ReplyOnly { s with tal := { s.tal with adv := s.tal.adv ++ [{ tally := t.toNat, amount := amt, room := k, source := 5 }] } } n) ∧
        (formOwns g t.toNat = true → amt ≠ 0 → s.frozen t.toNat = true →
          Journaled s (.tallyAdvance r (BitVec.ofNat 8 k) t amt) r 0x4001 1 c 3 [] fun n => n.tal = { s.tal with discarded := s.tal.discarded + 1 }) ∧
        ((formOwns g t.toNat = false ∨ amt = 0) →
          Journaled s (.tallyAdvance r (BitVec.ofNat 8 k) t amt) r 0x4001 1 c 2 [] fun n => n.tal = { s.tal with refused := s.tal.refused + 1 })) ∧
    (popAdvance tally s.tal.adv = some (a, rest) → tally.val < 4096 →
      (s.tallyRoom a.tally ≠ some a.room.val →
        exec (.localAdvanceApply tally) s = .next { s with tal := { s.tal with adv := rest, discarded := s.tal.discarded + 1 } }) ∧
      (a.room = k → s.tallyRoom a.tally = some k.val → (s.room k).frozen = true →
        ∃ n, exec (.localAdvanceApply tally) s = .next n ∧ n.tal = { s.tal with adv := rest, discarded := s.tal.discarded + 1 } ∧
          (n.room k).tallyErr = BitVec.ofNat 32 (65536 * 3 + 8192 * a.source.toNat + tally) ∧ n.tiles = s.tiles) ∧
      (a.room = k → s.tallyRoom a.tally = some k.val → (s.room k).frozen = false → (s.tally tally).toNat + a.amount.toNat < 2 ^ 64 →
        ∃ n, exec (.localAdvanceApply tally) s = .next n ∧ n.tally tally = s.tally tally + a.amount.setWidth 64 ∧ (∀ j, j ≠ tally.val → n.tally j = s.tally j) ∧ n.tal.adv = rest ∧
          n.tal.waits = s.tal.waits.filter (fun x => !(decide (x.tally = tally.val) && decide (x.expected.toNat ≤ (n.tally tally).toNat))) ∧
          (∀ x ∈ s.tal.waits, x.tally = tally.val → x.expected.toNat ≤ (n.tally tally).toNat → ∀ i e d, ∀ y : TileId, x.who = .tile y → (s.tile y).run = .waitT i e d →
            (n.tile y).run = .running ∧ (n.tile y).pc = (s.tile y).pc + 1 ∧ (n.tile y).sw = (s.tile y).sw ||| 2) ∧
          (∀ e ∈ s.tal.watch, e.2 = s.watch e.1 → e.2.arm = true → e.2.tally.toNat = tally.val → e.2.value.toNat ≤ (n.tally tally).toNat →
            n.watch e.1 = { e.2 with arm := false, hit := true }) ∧
          { n with tal := s.tal, tiles := s.tiles, quires := s.quires, sdma := s.sdma, irq := s.irq } = s) ∧
      (a.room = k → s.tallyRoom a.tally = some k.val → (s.room k).state = .formed → (s.room k).frozen = false → 2 ^ 64 ≤ (s.tally tally).toNat + a.amount.toNat →
        ∃ n, exec (.localAdvanceApply tally) s = .next n ∧ n.tally tally = -1 ∧ (∀ j, j ≠ tally.val → n.tally j = s.tally j) ∧ RoomFaulted s n k 5 (BitVec.ofNat 16 tally)))

/-- ADVANCE, UPDATE, JOIN, JOIN_REPLY, NACK and the fault notices act at the home, at members and at senders as R111 to R119 say (R87, R111, R112, R114, R115, R118, R119, R120, R123, R334). -/
def Obligations.FabricTallyMessagesKeepHomeAndMirrors : Prop :=
  ∀ (s : State) (e : Nat × Packet) (src tally amt : BitVec 16) (v : W64) (job : W32) (grp code cause : BitVec 8) (q : RoomId) (g : FormRec) (h : Fin 2) (vs : List W64) (m : FabricMsg),
    (ControlPasses s 1 (some src) (leBytes 2 tally.toNat ++ leBytes 2 amt.toNat ++ leBytes 4 job.toNat) e →
      let nack := fun c : Byte => ctrlSent (taken s e [7]) src 6 (leBytes 2 tally.toNat ++ [c] ++ leBytes 4 job.toNat)
      let released := 4096 ≤ tally.toNat ∧ tally.toNat < 5120 ∧ job ≠ 0 ∧ Tbl.get 0 s.tal.released (tallyGroup tally.toNat) = job
      (released → (s.binding (tallyGroup tally.toNat)).jobId ≠ job →
        ∃ n, exec (.advance src tally amt job) s = .next n ∧ n.tal = { s.tal with discarded := s.tal.discarded + 1 }) ∧
      (Uninjected s 5 255 → ¬ released →
        ((tally.toNat < 4096 ∨ 5120 ≤ tally.toNat ∨ (s.binding (tallyGroup tally.toNat)).jobId = 0) → exec (.advance src tally amt job) s = .next (nack 4)) ∧
        (4096 ≤ tally.toNat → tally.toNat < 5120 → (s.binding (tallyGroup tally.toNat)).jobId ≠ 0 → s.tallyRoom tally.toNat = none →
          ((s.binding (tallyGroup tally.toNat)).jobId ≠ job → exec (.advance src tally amt job) s = .next (nack 5)))) ∧
      (Uninjected s 5 255 → 4096 ≤ tally.toNat → tally.toNat < 5120 → (s.binding (tallyGroup tally.toNat)).jobId ≠ 0 → s.tallyRoom tally.toNat = none →
        (s.binding (tallyGroup tally.toNat)).jobId = job → s.tal.frozenJobs.contains job = true → exec (.advance src tally amt job) s = .next (nack 3)) ∧
      (4096 ≤ tally.toNat → tally.toNat < 5120 → (s.binding (tallyGroup tally.toNat)).jobId = job → job ≠ 0 → s.tal.frozenJobs.contains job = false →
        s.tallyRoom tally.toNat = some q.val → (s.room q).frozen = false → amt ≠ 0 → (s.tally tally.toNat).toNat + amt.toNat < 2 ^ 64 →
        ∃ n, exec (.advance src tally amt job) s = .next n ∧ n.tally tally.toNat = s.tally tally.toNat + amt.setWidth 64 ∧ ∀ k, k ≠ tally.toNat → n.tally k = s.tally k)) ∧
    (ControlPasses s 4 none (leBytes 2 tally.toNat ++ leBytes 8 v.toNat ++ leBytes 4 job.toNat) e → s.jobRoom job = some q.val → (s.room q).form = some g →
      4096 ≤ tally.toNat → formOwns g tally.toNat = true →
      ∃ n, exec (.update tally v job) s = .next n ∧ (∀ k, k ≠ tally.toNat → n.tally k = s.tally k) ∧
        n.tally tally.toNat = (if s.frozen tally.toNat = true ∨ v.toNat ≤ (s.tally tally.toNat).toNat then s.tally tally.toNat else v) ∧
        n.tal.sent = s.tal.sent.map fun (x : FabricMsg) => if x.tally = tally ∧ x.jobId = job ∧ x.amount ≠ 0 ∧ x.refused = false then { x with old := true } else x) ∧
    (ControlPasses s 2 (some src) (leBytes 1 grp.toNat ++ leBytes 4 job.toNat) e →
      (Uninjected s 5 255 → (64 ≤ grp.toNat ∨ (s.binding grp.toNat).jobId = 0) →
        exec (.join src grp job) s = .next (ctrlSent (taken s e [7]) src 6 (leBytes 2 (4096 + 16 * grp.toNat) ++ [4] ++ leBytes 4 job.toNat))) ∧
      (Uninjected s 5 255 → grp.toNat < 64 → (s.binding grp.toNat).jobId ≠ 0 → (s.binding grp.toNat).jobId ≠ job →
        exec (.join src grp job) s = .next (ctrlSent (taken s e [7]) src 6 (leBytes 2 (4096 + 16 * grp.toNat) ++ [5] ++ leBytes 4 job.toNat))) ∧
      (grp.toNat < 64 → (s.binding grp.toNat).jobId = job → job ≠ 0 → Uninjected s 5 ((s.jobRoom job).getD 255) →
        let half := fun i : Nat => leBytes 1 grp.toNat ++ leBytes 1 i ++ leBytes 4 job.toNat ++ (List.range 8).flatMap fun k => leBytes 8 (s.tally (4096 + 16 * grp.toNat + 8 * i + k)).toNat
        let u := { taken s e [7] with tal := { s.tal with members := if s.tal.members.contains (grp.toNat, src) = true then s.tal.members else s.tal.members ++ [(grp.toNat, src)] } }
        exec (.join src grp job) s = .next (ctrlSent (ctrlSent u src 5 (half 0)) src 5 (half 1)))) ∧
    (ControlPasses s 5 none (leBytes 1 grp.toNat ++ leBytes 1 h ++ leBytes 4 job.toNat ++ vs.flatMap fun x => leBytes 8 x.toNat) e → vs.length = 8 → s.jobRoom job = some q.val →
      (s.room q).form = some g → formOwns g (4096 + 16 * grp.toNat + 8 * h) = true → (∀ i, i < 8 → s.frozen (4096 + 16 * grp.toNat + 8 * h + i) = false) →
      ∃ n, exec (.joinReply grp h job vs) s = .next n ∧
        (∀ i x, i < 8 → vs[i]? = some x → n.tally (4096 + 16 * grp.toNat + 8 * h + i) = if x.toNat ≤ (s.tally (4096 + 16 * grp.toNat + 8 * h + i)).toNat then s.tally (4096 + 16 * grp.toNat + 8 * h + i) else x) ∧
        (∀ k, (k < 4096 + 16 * grp.toNat + 8 * h ∨ 4096 + 16 * grp.toNat + 8 * h + 8 ≤ k) → n.tally k = s.tally k)) ∧
    (ControlPasses s 6 none (leBytes 2 tally.toNat ++ leBytes 1 code.toNat ++ leBytes 4 job.toNat) e →
      (findSent s.tal tally (fun x => decide (x.jobId = job) && !x.refused && !x.old) = some m ∨
        ((∀ x ∈ s.tal.sent, x.tally = tally → x.jobId = job → x.refused = false → x.old = true) ∧ findSent s.tal tally (fun x => decide (x.jobId = job) && !x.refused) = some m)) →
      (code = 4 → ∃ n, exec (.nack tally code job) s = .next n ∧ n.tal = { s.tal with nacks := s.tal.nacks + 1, sent := replaceMsg m [{ m with refused := true }] s.tal.sent } ∧
        (m.amount ≠ 0 → (n.room m.room).tallyErr = BitVec.ofNat 32 (65536 * 4 + 8192 * m.source.toNat + tally.toNat % 8192))) ∧
      (code = 5 → (s.room m.room).state = .formed → (s.room m.room).form = some g →
        ∃ n, exec (.nack tally code job) s = .next n ∧ n.tal.sent = replaceMsg m [] s.tal.sent ∧ n.tal.nacks = s.tal.nacks + 1 ∧ RoomFaulted s n m.room 7 tally) ∧
      (code = 3 → ∃ n, exec (.nack tally code job) s = .next n ∧
        n.tal = { s.tal with nacks := s.tal.nacks + 1, sent := replaceMsg m [] s.tal.sent, discarded := if m.amount = 0 then s.tal.discarded else s.tal.discarded + 1 })) ∧
    (findSent s.tal tally (fun x => x.refused) = some m → (s.room m.room).form = some g →
      (Uninjected s 5 m.room →
        let u : State := { s with tal := { s.tal with sent := replaceMsg m [{ m with refused := false }] s.tal.sent } }
        exec (.fabricRetry tally) s = .next (if m.amount = 0 then ctrlSent u g.home 2 (leBytes 1 (tallyGroup tally.toNat) ++ leBytes 4 m.jobId.toNat)
          else ctrlSent u g.home 1 (leBytes 2 tally.toNat ++ leBytes 2 m.amount.toNat ++ leBytes 4 m.jobId.toNat))) ∧
      ((s.room m.room).state = .formed → ∃ n, exec (.fabricNackTimeout tally) s = .next n ∧ n.tal.sent = replaceMsg m [] s.tal.sent ∧ RoomFaulted s n m.room 6 tally)) ∧
    (ControlPasses s 3 (some src) (leBytes 4 job.toNat ++ leBytes 1 cause.toNat) e → s.jobRoom job = some q.val → (s.room q).form = some g → (s.room q).state = .formed →
      (∃ b ∈ s.tal.bind, b.2.jobId = job) → ∃ n, exec (.faultToHome src job cause) s = .next n ∧ n.tal.frozenJobs.contains job = true ∧ Noticed s n q src) ∧
    (ControlPasses s 7 none (leBytes 4 job.toNat ++ leBytes 2 src.toNat ++ leBytes 1 cause.toNat) e → s.jobRoom job = some q.val → (s.room q).form = some g → (s.room q).state = .formed →
      ∃ n, exec (.faultNotice job src cause) s = .next n ∧ Noticed s n q src)

/-- CUE_ARM, CUE_DISARM, ARM_DEVICE_CUE and DISARM_DEVICE_CUE arm and disarm exactly the entry they name (R63, R64, R65, R66, R67, R71, R72, R75, R79, R81, R89). -/
def Obligations.CuesArmDisarmAndRefuse : Prop :=
  ∀ (s : State) (w : Writer) (c : CueRef) (r : RoomId) (ctl : W64) (q : Req) (ix : BitVec 16) (pos addr tgt : W64),
    (CueWriter s w c r →
      let e := s.cueAt c
      let x := withCtl e (ctl ||| 1).toNat
      let late := { armed x with lateHit := true }
      (e.arm = false → s.cueCheck c x = 0 →
        (s.posValid = false ∨ s.cueReached x = false → ∃ n, exec (.cueArm w c ctl) s = .next n ∧ OnlyCue s n w c (armed x)) ∧
        (s.posValid = true → s.cueReached x = true → s.classOk x = true → x.late = false →
          ∃ n, exec (.cueArm w c ctl) s = .next n ∧ n.cueAt c = { late with due := some s.clk.pos, dueAt := s.clk.pos } ∧ (∀ d, d ≠ c → n.cueAt d = s.cueAt d) ∧ n.dev.cueLate = s.dev.cueLate + 1) ∧
        (s.posValid = true → s.cueReached x = true → s.classOk x = true → x.late = true → x.rpt = 0 →
          ∃ n, exec (.cueArm w c ctl) s = .next n ∧ n.cueAt c = { late with arm := false, done := true } ∧ (∀ d, d ≠ c → n.cueAt d = s.cueAt d) ∧ n.dev.cueLate = s.dev.cueLate + 1)) ∧
      (∀ k, e.arm = false → s.cueCheck c x = k → k ≠ 0 →
        ∃ n, exec (.cueArm w c ctl) s = .next n ∧ n.cueAt c = x ∧ (∀ d, d ≠ c → n.cueAt d = s.cueAt d) ∧ cueErrOf n c r = BitVec.ofNat 32 (65536 * k + cueIndex c)) ∧
      (e.arm = true →
        (x = e → ∃ n, exec (.cueArm w c ctl) s = .next n ∧ OnlyCue s n w c e) ∧
        (x ≠ e → ∃ n, exec (.cueArm w c ctl) s = .next n ∧ (∀ d, n.cueAt d = s.cueAt d) ∧ cueErrOf n c r = BitVec.ofNat 32 (65536 * 4 + cueIndex c)) ∧
        (withCtl e (ctl &&& ~~~1#64).toNat = e → ∃ n, exec (.cueDisarm w c ctl) s = .next n ∧ OnlyCue s n w c { e with arm := false, due := none, restored := false })) ∧
      (e.arm = false → ∃ n, exec (.cueDisarm w c ctl) s = .next n ∧ OnlyCue s n w c (withCtl e (ctl &&& ~~~1#64).toNat))) ∧
    (let v := leBytes 2 ix.toNat ++ leBytes 8 pos.toNat ++ leBytes 8 addr.toNat ++ leBytes 8 ctl.toNat ++ leBytes 8 tgt.toNat
     let d := CueRef.dev (Fin.ofNat 2048 ix.toNat)
     let x := withTgt (withCtl { s.cueAt d with pos := pos, addr := addr.setWidth 56 } ctl.toNat) tgt.toNat
     Admits s q 0x2041 1 v →
      (2032 ≤ ix.toNat → ix.toNat < 2048 → (s.cueAt d).arm = false → s.cueCheck d x = 0 → (s.posValid = false ∨ s.cueReached x = false) →
        Journaled s (.armDeviceCue q ix pos addr ctl tgt) q 0x2041 1 v 0 [] fun n => ReplyOnly (s.setCue d { armed x with lateHit := false, miss := false }) n) ∧
      (2032 ≤ ix.toNat → ix.toNat < 2048 → (s.cueAt d).arm = true → Journaled s (.armDeviceCue q ix pos addr ctl tgt) q 0x2041 1 v 3 [] fun n => n.cue = s.cue) ∧
      (2032 ≤ ix.toNat → ix.toNat < 2048 → (s.cueAt d).arm = false → s.cueCheck d x ≠ 0 → Journaled s (.armDeviceCue q ix pos addr ctl tgt) q 0x2041 1 v 2 [] fun n => n.cue = s.cue) ∧
      ((ix.toNat < 2032 ∨ 2048 ≤ ix.toNat) → Refused s (.armDeviceCue q ix pos addr ctl tgt) q 0x2041 1 v 2)) ∧
    (Admits s q 0x2041 2 (leBytes 2 ix.toNat) →
      (2032 ≤ ix.toNat → ix.toNat < 2048 →
        Journaled s (.disarmDeviceCue q ix) q 0x2041 2 (leBytes 2 ix.toNat) 0 [] fun n =>
          ReplyOnly (s.setCue (.dev (Fin.ofNat 2048 ix.toNat)) { s.cueAt (.dev (Fin.ofNat 2048 ix.toNat)) with arm := false, due := none, restored := false }) n) ∧
      ((ix.toNat < 2032 ∨ 2048 ≤ ix.toNat) → Refused s (.disarmDeviceCue q ix) q 0x2041 2 (leBytes 2 ix.toNat) 2))

/-- ADVANCE_TALLY, START_DMA, LAUNCH_TASK, GLAZE_COMMIT and REPARTITION carry out the fire of the next due cue; that a channel or quire of no room takes no action is the model's choice (log 120) (R68, R70, R71, R76, R77, R81, R85, R174, R175, R285, R507). -/
def Obligations.CuesFireTheirAction : Prop :=
  ∀ (s : State) (c : CueRef) (r : RoomId) (g : FormRec) (e : CueEntry),
    (s.cueOwnerOf c = some r.val → (s.room r).form = some g → Fires s c 1 e → formOwns g e.target.toNat = true → e.amount ≠ 0 →
      ∃ n, exec (.advanceTally c) s = .next n ∧ Fired s n c e 0 ∧
        n.tal = { s.tal with adv := s.tal.adv ++ [{ tally := e.target.toNat, amount := e.amount, room := r, source := 3 }] } ∧ n.tiles = s.tiles ∧ n.mem = s.mem ∧ n.sdma = s.sdma) ∧
    (Fires s c 2 e →
      let d := cueChan c e
      (s.chanRoom d = none → ∃ n, exec (.startDma c) s = .next n ∧ Fired s n c e 0 ∧ (∀ b, n.chan b = s.chan b) ∧ n.tal = s.tal ∧ n.tiles = s.tiles ∧ n.mem = s.mem) ∧
      ((s.chanRoom d).isSome = true → chanIdle (s.chan d) = true → ∃ n, exec (.startDma c) s = .next n ∧ Fired s n c e 0 ∧ n.tal = s.tal ∧ n.tiles = s.tiles ∧ n.mem = s.mem ∧ (∀ b, b ≠ d → n.chan b = s.chan b) ∧
        (n.chan d).state = (if (s.chan d).pause = true then .paused else .fetch) ∧ (n.chan d).curDesc = e.addr.setWidth 64 ∧ (n.chan d).task = false) ∧
      ((s.chanRoom d).isSome = true → chanIdle (s.chan d) = false → ∃ n, exec (.startDma c) s = .next n ∧ Fired s n c e 1 ∧ (∀ b, n.chan b = s.chan b) ∧ n.tal = s.tal ∧ n.tiles = s.tiles ∧ n.mem = s.mem)) ∧
    (Fires s c 3 e →
      let q := launchQuire c e
      (s.quireRoom q = none → ∃ n, exec (.launchTask c) s = .next n ∧ Fired s n c e 0 ∧ n.tiles = s.tiles ∧ (n.quire q).launches = (s.quire q).launches ∧ n.tal = s.tal ∧ n.mem = s.mem) ∧
      ((s.quireRoom q).isSome = true → (s.quire q).power = .on →
        ∃ n, exec (.launchTask c) s = .next n ∧
          Fired s n c e (if ((List.range 16).any fun k => e.amount.getLsbD k && decide ((s.tile (quireTile q k)).run ≠ .stopped) && (s.tile (quireTile q k)).priv.launchPend) = true then 2 else 0) ∧
          (∀ k, k < 16 → e.amount.getLsbD k = true →
            let x := s.tile (quireTile q k)
            let y := n.tile (quireTile q k)
            (x.run = .stopped → y = { x with pc := e.addr.setWidth 32, sw := 0xF000, run := .running }) ∧
            (x.run ≠ .stopped → x.priv.launchPend = false → y.priv.launchAddr = e.addr.setWidth 32 ∧ y.priv.launchPend = true ∧ y.priv.irqPend = x.priv.irqPend ||| 2 ∧
              (x.run = .running → y.run = .running ∧ y.d = x.d ∧ y.sig = if x.sig = 255 then 255 else x.sig + 1) ∧
              (∀ i, x.run = .waitS i → y.run = .running ∧ y.sig = 0)) ∧
            (x.run ≠ .stopped → x.priv.launchPend = true → y = x)) ∧
          (∀ j, (∀ k, k < 16 → e.amount.getLsbD k = true → j ≠ quireTile q k) → n.tile j = s.tile j) ∧ n.tal = s.tal ∧ n.mem = s.mem ∧ n.sdma = s.sdma) ∧
      ((s.quireRoom q).isSome = true → (s.quire q).power = .gated →
        ∃ n, exec (.launchTask c) s = .next n ∧ Fired s n c e 0 ∧ (n.quire q).power = .waking ∧ (n.quire q).launches = (s.quire q).launches ++ [(c, e.amount, e.addr.setWidth 32)] ∧ n.tiles = s.tiles ∧
          n.dev.cueDelayed = s.dev.cueDelayed + 1)) ∧
    (Fires s c 4 e → s.cueOwnerOf c = some r.val →
      ∃ n, exec (.glazeCommit c) s = .next n ∧ Fired s n c e 0 ∧ n.tiles = s.tiles ∧ n.tal = s.tal ∧
        ∀ p, p < 2 → n.pipe p =
          if e.target.getLsbD p = true ∧ (s.pipe p).owner = some r then
            (if (s.pipe p).reading = true then { s.pipe p with waiting := true } else { s.pipe p with reading := true, takenAt := if s.posValid = true then some s.clk.pos else none })
          else s.pipe p) ∧
    (∀ i : Fin 2048, c = .dev i → 2032 ≤ i.val → Fires s c 5 e →
      let x := s.cueAfter { e with fires := e.fires + 1 } true
      let v := cueBytes i x
      (ledAdmits s.led v.length = false → ∃ n, exec (.repartition c) s = .next n ∧ Fired s n c e 3 ∧ n.led = s.led) ∧
      (ledAdmits s.led v.length = true → s.led.current = none → s.led.queue = [] → (∀ y ∈ s.led.recs, y.accession ≠ s.led.nextAcc) → s.pow.boot = .ready →
        (x.arm = false ∨ s.cueReached x = false) →
        ((s.plan (e.target.toNat)).dissolve = 0 → (s.plan e.target.toNat).forms = [] →
          ∃ n y, exec (.repartition c) s = .next n ∧ Fired s n c e 0 ∧ n.record s.led.nextAcc = some y ∧ y.source = 20 ∧ y.cue = BitVec.ofNat 16 i ∧ y.value = v ∧ y.done = true ∧ y.status = 0) ∧
        (∀ b, s.planCheck (s.plan e.target.toNat) = some b →
          ∃ n y, exec (.repartition c) s = .next n ∧ n.cueAt c = { x with miss := true, missCode := 4 } ∧ n.dev.cueMiss = s.dev.cueMiss + 1 ∧
            n.record s.led.nextAcc = some y ∧ y.source = 20 ∧ y.done = true ∧ y.status = 4 ∧ n.rooms = s.rooms)))

/-- POSITION_TICK, SOURCE_PRESENT, SOURCE_LOST, FORMAT_CHANGE and LOCK_GAINED move the position and the clock state (R29, R36, R37, R38, R40, R41, R42, R44, R49, R55, R72, R605). -/
def Obligations.PositionAdvancesLocksAndIsHeld : Prop :=
  ∀ (s : State) (x : ClockSource) (fmt : Fin 17) (m : BitVec 36) (line tick : BitVec 14) (since : Nat),
    let stays := s.isKeeper = false ∨ s.primary = some x ∨ s.here s.primary = false
    (s.posValid = false → exec .positionTick s = .next s) ∧
    (s.posValid = true → ∃ n, exec .positionTick s = .next n ∧ n.tiles = s.tiles ∧ n.tal = s.tal ∧ n.mem = s.mem ∧
      n.clk = { s.clk with pos := if posTick s.clk.pos + 1 < s.tpl then mkPos (posFrame s.clk.pos) (posLine s.clk.pos) (posTick s.clk.pos + 1) else if posLine s.clk.pos + 1 < s.lpf then mkPos (posFrame s.clk.pos) (posLine s.clk.pos + 1) 0 else mkPos (posFrame s.clk.pos + 1) 0 0 } ∧
      (∀ c, (s.cueAt c).arm = false → n.cueAt c = s.cueAt c) ∧
      (∀ c, (s.cueAt c).arm = true → (s.cueAt c).due = none → s.cueE (s.cueAt c) = n.clk.pos → s.classOk (s.cueAt c) = true →
        n.cueAt c = { s.cueAt c with due := some n.clk.pos, dueAt := n.clk.pos })) ∧
    (s.posValid = false → s.isKeeper = true → s.clk.tooFar = false → s.primary = some x →
      (x ≠ .synthetic → (x = .analog → s.formatMatches fmt = true) →
        ∃ n, exec (.sourcePresent x fmt) s = .next n ∧ n.clk.state = .acquire ∧ n.clk.src = some x ∧ n.sourcePresent x = true ∧ n.clk.pos = s.clk.pos ∧ n.clk.evt = s.clk.evt) ∧
      (x = .synthetic → ∃ n, exec (.sourcePresent x fmt) s = .next n ∧ n.clk.state = .locked ∧ n.clk.src = some .synthetic ∧ n.clk.pos = mkPos (s.cfgN 0x2001 5) 0 0 ∧ n.clk.evt = s.clk.evt ||| 1)) ∧
    (s.formatMatches fmt = false → fmt ≠ 0 →
      ∃ n, exec (.sourcePresent .analog fmt) s = .next n ∧ n.clk.format = fmt ∧ n.clk.presentAnalog = false ∧ n.clk.evt &&& 32 = 32 ∧ (s.posValid = true → n.clk.pos = s.clk.pos) ∧
        (s.clk.src ≠ some .analog → s.configured .analog = false → n.clk = { s.clk with format := fmt, presentAnalog := false, evt := s.clk.evt ||| 32 } ∧ { n with clk := s.clk, irq := s.irq } = s)) ∧
    (exec (.sourceLost .synthetic) s = .next s) ∧
    (x ≠ .synthetic → s.clk.src = some x →
      (s.clk.state = .locked → stays → ∃ n, exec (.sourceLost x) s = .next n ∧ n.clk.state = .holdover ∧ n.clk.src = none ∧ n.clk.pos = s.clk.pos ∧ n.clk.evt = s.clk.evt ||| 2 ∧
        { n with clk := s.clk, irq := s.irq } = s) ∧
      (∀ y, s.clk.state = .locked → s.isKeeper = true → s.primary = some y → y ≠ x → s.sourcePresent y = true →
        ∃ n, exec (.sourceLost x) s = .next n ∧ n.clk.src = some y ∧ n.clk.pos = s.clk.pos ∧ n.clk.state = (if y = .synthetic then .locked else .holdover)) ∧
      (s.clk.state = .acquire → s.primary ≠ some .synthetic → s.secondary ≠ some .synthetic →
        ∃ n, exec (.sourceLost x) s = .next n ∧ n.clk.state = .acquire ∧ n.clk.pos = s.clk.pos)) ∧
    (exec (.formatChange s.clk.format) s = .next s) ∧
    (fmt ≠ s.clk.format →
      (s.clk.state = .locked → s.clk.src = some .analog → x = .analog → stays →
        ∃ n, exec (.formatChange fmt) s = .next n ∧ n.clk.state = .holdover ∧ n.clk.src = none ∧ n.clk.format = fmt ∧ n.clk.presentAnalog = false ∧ n.clk.pos = s.clk.pos ∧
          n.clk.evt = s.clk.evt ||| 32 ||| 2) ∧
      (s.clk.src ≠ some .analog → s.formatMatches fmt = true → ∃ n, exec (.formatChange fmt) s = .next n ∧ n.clk = { s.clk with format := fmt } ∧ { n with clk := s.clk } = s)) ∧
    (s.clk.src = none → exec (.lockGained m line tick since) s = .next s) ∧
    (s.clk.src = some x → s.sourcePresent x = true →
      (x ≠ .fabric ∨ s.clk.keeperState = 2 → s.clk.state = .acquire → x ≠ .ptp → line.toNat < s.lpf → tick.toNat < s.tpl →
        ∃ n, exec (.lockGained m line tick since) s = .next n ∧ n.clk.state = .locked ∧ n.clk.src = some x ∧ n.clk.evt = s.clk.evt ||| 1 ∧
          n.clk.pos = mkPos (if x = .analog then s.cfgN 0x2001 5 else m.toNat) line.toNat tick.toNat) ∧
      (s.clk.state = .acquire → x = .ptp →
        let q := s.ptpPos (s.clk.ptpTime.seconds.toNat * 1000000000 + s.clk.ptpTime.nanos.toNat + since)
        posLine q < s.lpf → posTick q < s.tpl →
        ∃ n, exec (.lockGained m line tick since) s = .next n ∧ n.clk.state = .locked ∧ n.clk.src = some x ∧ n.clk.evt = s.clk.evt ||| 1 ∧ n.clk.pos = q) ∧
      (s.clk.state = .acquire → x = .fabric → s.clk.keeperState = 3 → line.toNat < s.lpf → tick.toNat < s.tpl →
        ∃ n, exec (.lockGained m line tick since) s = .next n ∧ n.clk.state = .holdover ∧ n.clk.src = some x ∧ n.clk.pos = mkPos m.toNat line.toNat tick.toNat) ∧
      (x ≠ .fabric ∨ s.clk.keeperState = 2 → s.clk.state = .holdover →
        ∃ n, exec (.lockGained m line tick since) s = .next n ∧ n.clk.state = .locked ∧ n.clk.pos = s.clk.pos ∧ n.clk.src = some x ∧ n.clk.agedBit = false ∧ n.clk.evt = s.clk.evt ||| 1))

/-- STEP, STEP_TO, DISAGREE, source changes, AGED, ANALOG_REFERENCE_POINT and PTP_SYNC act on the clock as R39 and R46 to R50 say (R39, R46, R47, R48, R49, R50, R60, R61). -/
def Obligations.ClockStepsDisagreesAndChangesSource : Prop :=
  ∀ (s : State) (p : Pos) (off : Int) (x : ClockSource) (r : Req) (port : Fin 2) (m : PtpSync),
    let i32 := fun z : Int => BitVec.ofInt 32 (max (-2147483648) (min 2147483647 z))
    let pair1 := s.isKeeper = false ∧ s.primary = some x
    (s.posValid = true → s.clk.src.isSome = true → s.anyFormed = false → s.cfgN 0x2010 7 < off.natAbs → posLine p < s.lpf → posTick p < s.tpl →
      ∃ n, exec (.step p off) s = .next n ∧ n.clk = { s.clk with pos := p, offsetNs := 0, evt := s.clk.evt ||| 16 }) ∧
    ((s.posValid = false ∨ s.clk.src = none ∨ s.anyFormed = true ∨ off.natAbs ≤ s.cfgN 0x2010 7) → exec (.step p off) s = .next s) ∧
    (Admits s r 0x2012 1 (leBytes 8 p.toNat) →
      (s.isKeeper = true → s.clk.src = some .synthetic → s.posValid = true → posLine p < s.lpf → posTick p < s.tpl → posAhead p s.clk.pos = true →
        Journaled s (.stepTo r p) r 0x2012 1 (leBytes 8 p.toNat) 0 [] fun n => n.clk = { s.clk with pos := p, evt := s.clk.evt ||| 16 } ∧ n.tal = s.tal ∧ n.mem = s.mem) ∧
      ((s.isKeeper = false ∨ s.clk.src ≠ some .synthetic ∨ s.posValid = false) → Refused s (.stepTo r p) r 0x2012 1 (leBytes 8 p.toNat) 3) ∧
      (s.isKeeper = true → s.clk.src = some .synthetic → s.posValid = true → (s.lpf ≤ posLine p ∨ s.tpl ≤ posTick p ∨ posAhead p s.clk.pos = false) →
        Refused s (.stepTo r p) r 0x2012 1 (leBytes 8 p.toNat) 2)) ∧
    (s.measures x = true →
      (s.cfgN 0x2010 3 < off.natAbs → ∃ n, exec (.disagree x off) s = .next n ∧ { n with clk := s.clk, irq := s.irq } = s ∧
        n.clk = { s.clk with disagree1 := if pair1 then true else s.clk.disagree1, disagree2 := if pair1 then s.clk.disagree2 else true,
                             disagreeNs := if s.isKeeper = true ∨ s.reported = some x then i32 off else s.clk.disagreeNs,
                             evt := if s.clk.disagree1 = true ∨ s.clk.disagree2 = true then s.clk.evt else s.clk.evt ||| 4 }) ∧
      (off.natAbs ≤ s.cfgN 0x2010 3 → exec (.disagreeClear x off) s =
        .next { s with clk := { s.clk with disagree1 := if pair1 then false else s.clk.disagree1, disagree2 := if pair1 then s.clk.disagree2 else false,
                                           disagreeNs := if s.isKeeper = true ∨ s.reported = some x then i32 off else s.clk.disagreeNs } })) ∧
    (s.measures x = false → exec (.disagree x off) s = .next s ∧ exec (.disagreeClear x off) s = .next s) ∧
    (s.isKeeper = true → s.sourcePresent x = true →
      (s.clk.state = .holdover → s.clk.src = none → s.secondary = some x → s.here s.primary = false →
        ∃ n, exec (.switchToSecondary off) s = .next n ∧ n.clk.src = some x ∧ n.clk.pos = s.clk.pos ∧ n.clk.state = (if x = .synthetic then .locked else .holdover)) ∧
      (s.posValid = true → s.primary = some x → s.clk.src = s.secondary → s.clk.src ≠ some x →
        ∃ n, exec (.revertToPrimary off) s = .next n ∧ n.clk.src = some x ∧ n.clk.pos = s.clk.pos ∧ n.clk.state = (if x = .synthetic then .locked else s.clk.state))) ∧
    (s.clk.state ≠ .holdover → exec (.switchToSecondary off) s = .next s ∧ exec .aged s = .next s) ∧
    (s.clk.state = .holdover → s.clk.agedBit = false →
      ∃ n, exec .aged s = .next n ∧ n.clk = { s.clk with agedBit := true, evt := s.clk.evt ||| 64 } ∧ { n with clk := s.clk, irq := s.irq } = s) ∧
    (s.clk.presentAnalog = true → s.clk.src = some .analog →
      ∃ n, exec (.analogReferencePoint s.clk.format off) s = .next n ∧ n.clk = { s.clk with offsetNs := off } ∧ { n with clk := s.clk } = s) ∧
    (s.clk.presentAnalog = true → s.clk.src ≠ some .analog → s.isKeeper = true → s.secondary = some x → s.measures x = true → s.configured .analog = true →
      ∃ n, exec (.analogReferencePoint s.clk.format off) s = .next n ∧ { n with clk := s.clk } = s ∧
        n.clk = { s.clk with disagreeNs := i32 (if s.primary = some .analog then -off else off) }) ∧
    (s.clk.presentAnalog = true → s.clk.src ≠ some .analog → s.isKeeper = false → s.measures .analog = true → s.reported = some .analog →
      ∃ n, exec (.analogReferencePoint s.clk.format off) s = .next n ∧ { n with clk := s.clk } = s ∧ n.clk = { s.clk with disagreeNs := i32 off }) ∧
    (m.domain.toNat ≠ s.cfgN 0x2020 1 → exec (.ptpSync port m off) s = .next s) ∧
    (m.domain.toNat = s.cfgN 0x2020 1 →
      (s.bestMaster m.master port ≠ (m.master, port) → exec (.ptpSync port m off) s = .next s) ∧
      (s.bestMaster m.master port = (m.master, port) → s.clk.presentPtp = false ∨ s.clk.src = some .ptp →
        exec (.ptpSync port m off) s = .next { s with out := s.out ++ [.ptpDelayReq port], clk := { s.clk with ptpMaster := some (m.master, port), ptpTime := m.followUp.getD m.origin, offsetNs := if s.clk.presentPtp = true then off else s.clk.offsetNs } }))

/-- SYNC_WORD_SEND, SYNC_WORD, KEEPER_LOST, CANDIDACY and ELECTION_CLOSE carry time and elect the keeper (R51, R52, R53, R55, R56, R57, R334, R341). -/
def Obligations.SyncWordsAndElectionsFindTheKeeper : Prop :=
  ∀ (s : State) (p : PortId) (h : FlitHdr) (pl : List Byte) (step : Bool) (ts rx : W64) (dev : BitVec 16) (epoch : W32) (e : Nat × Packet),
    let w := readSync pl
    let sync : SyncWord := { pos := s.clk.pos, txTs := ts, echoTs := if (s.port p).syncGot = true then (s.port p).lastTxTs else 0, echoHold := if (s.port p).syncGot = true then ts - (s.port p).lastRxAt else 0,
                             keeper := s.clk.keeperNo, epoch := s.clk.keeperEpoch, heartbeat := s.clk.heartbeat, hops := if s.clk.parentPort = 255 then 255 else s.clk.hops, state := s.clk.keeperState, valid := s.posValid }
    ((s.port p).state ≠ .up → exec (.syncWordSend p ts) s = .next s ∧ exec (.syncWord p h pl rx step) s = .next s) ∧
    ((s.port p).state = .up → h.lcrcOk = false → h.corrected = 0 → h.uncorrectable = 0 → (s.port p).badRun < 15 →
      LeavesPort s (.syncWord p h pl rx step) p { s.port p with badRun := (s.port p).badRun + 1, cnt := { (s.port p).cnt with lcrc := (s.port p).cnt.lcrc + 1 } } s.out) ∧
    ((s.port p).state = .up →
      (s.isKeeper = true → exec (.syncWordSend p ts) s = .next { s with clk := { s.clk with heartbeat := s.clk.heartbeat + 1 }, out := s.out ++ [.sync p (syncPayload { sync with heartbeat := s.clk.heartbeat + 1, hops := 0, state := BitVec.ofNat 2 (clockCode s.clk.state) })] }) ∧
      (s.isKeeper = false → exec (.syncWordSend p ts) s = .next { s with out := s.out ++ [.sync p (syncPayload sync)] }) ∧
      (h.lcrcOk = true → ∃ n, exec (.syncWord p h pl rx step) s = .next n ∧ (∀ k, k ≠ p.val → n.port k = s.port k) ∧
        (n.port p).state = .up ∧ (n.port p).lastTxTs = w.txTs ∧ (n.port p).lastRxAt = rx ∧ (n.port p).syncGot = true ∧
        (n.port p).linkDelay = (if w.echoTs = 0 then (s.port p).linkDelay else 1000 * (((rx - w.echoTs) - w.echoHold).toNat : Int) + 128 * (BitVec.ofNat 32 (s.cfgN 0x2031 (p + 1))).toInt) ∧
        (s.alone = true → n.clk = s.clk) ∧
        (s.alone = false → w.hops = 255 →
          (s.clk.parentPort.toNat ≠ p.val → n.clk = s.clk) ∧
          (s.clk.parentPort.toNat = p.val → n.clk.parentPort = 255 ∧ n.clk.presentFabric = false ∧ n.clk.heard = s.clk.heard)) ∧
        (s.alone = false → w.hops.toNat < 64 → s.clk.keeper = false → s.clk.heard = true → w.keeper = s.clk.keeperNo → (s.clk.parentPort.toNat = p.val ∨ s.clk.parentPort = 255) →
          n.clk.hops.toNat = w.hops.toNat + 1 ∧ n.clk.heartbeat = w.heartbeat ∧ n.clk.keeperState = w.state ∧ n.clk.keeperEpoch = w.epoch ∧ n.clk.parentPort = BitVec.ofNat 8 p ∧ n.clk.presentFabric = true ∧
          (s.clk.src = some .fabric → s.clk.state = .locked → w.state ≠ 2 → step = false → n.clk.state = .holdover ∧ n.clk.evt = s.clk.evt ||| 2 ∧ n.clk.pos = s.clk.pos) ∧
          (s.clk.src = some .fabric → s.clk.state = .locked → w.state = 2 → w.valid = true → posLine w.pos < s.lpf → posTick w.pos < s.tpl → step = true →
            let q := addTicks s.lpf s.tpl (n.delayTicks p) w.pos
            posAhead q s.clk.pos = true → n.clk.state = .locked ∧ n.clk.pos = q ∧ n.clk.evt = s.clk.evt ||| 16)) ∧
        (s.alone = false → s.clk.keeper = false → s.clk.heard = false → s.clk.keeperEpoch = 0 → w.epoch ≠ 0 →
          (w.hops.toNat < 64 →
            n.clk.keeper = false ∧ n.clk.heard = true ∧ n.clk.keeperNo = w.keeper ∧ n.clk.keeperEpoch = w.epoch ∧ n.clk.parentPort = BitVec.ofNat 8 p ∧ n.clk.hops.toNat = w.hops.toNat + 1 ∧
              n.clk.evt &&& 8 = 8) ∧
          (w.hops.toNat = 64 →
            n.clk.tooFar = true ∧ n.clk.hops = 65 ∧ n.clk.pos = s.clk.pos ∧ (s.clk.state = .free → n.clk.state = .free) ∧ (s.clk.src = some .fabric → s.clk.state = .locked → n.clk.state = .holdover))))) ∧
    (s.isKeeper = true → exec .keeperLost s = .next s) ∧
    (s.isKeeper = false → ∃ n, exec .keeperLost s = .next n ∧ n.clk.parentPort = 255 ∧ n.clk.heard = false ∧ n.clk.presentFabric = false ∧ n.clk.pos = s.clk.pos ∧ n.rooms = s.rooms ∧ n.tal = s.tal ∧
      n.clk.state = (if s.clk.state = .locked ∧ s.clk.src = some .fabric then .holdover else s.clk.state) ∧
      n.clk.election = lowestSeen s.clk.election (if s.cfgN 0x2030 1 = 1 ∧ (s.posValid = true ∨ s.clk.keeperEpoch = 0) then BitVec.ofNat 16 s.devNo else 0xFFFF)) ∧
    (s.arrivedWhere (fun k => decide (k.op = 6) && decide (k.dst.toNat = s.devNo) && decide (k.payload = 8 :: (leBytes 2 dev.toNat ++ leBytes 4 epoch.toNat))) = some e → arrivedBy e.1 = p.val →
      s.pow.neg = none → e.2.pchk = packetCheck e.2 → Uninjected s 7 255 →
      ((∀ y ∈ s.clk.candidacies, y.1 = dev.toNat → y.2 ≤ epoch.toNat) →
        ∃ n, exec (.candidacy p dev epoch) s = .next n ∧ n.clk = { s.clk with election := lowestSeen s.clk.election dev, candidacies := (dev.toNat, epoch.toNat + 1) :: s.clk.candidacies.filter (fun y => decide (y.1 ≠ dev.toNat)) }) ∧
      (∀ k, s.clk.candidacies.find? (fun y => decide (y.1 = dev.toNat)) = some (dev.toNat, k) → epoch.toNat < k → exec (.candidacy p dev epoch) s = .next (taken s e [7]))) ∧
    (s.clk.election = none → exec .electionClose s = .next s) ∧
    (∀ k, s.clk.election = some k →
      (k.toNat = s.devNo → s.cfgN 0x2030 1 = 1 → (s.posValid = true ∨ s.clk.keeperEpoch = 0) → s.clk.keeper = false → s.clk.heard = false →
        ∃ n, exec .electionClose s = .next n ∧ n.clk.keeper = true ∧ n.clk.keeperNo = k ∧ n.clk.keeperEpoch = s.clk.keeperEpoch + 1 ∧ n.clk.hops = 0 ∧ n.clk.election = none ∧
          n.clk.heartbeat = s.clk.heartbeat + 1 ∧ n.clk.evt &&& 8 = 8) ∧
      (k.toNat ≠ s.devNo → ∃ n, exec .electionClose s = .next n ∧ n.clk = { s.clk with election := none } ∧ { n with clk := s.clk } = s))

/-- REGISTER_WRITE, the half accesses, MSIX_UNMASK and VECTOR_DELIVERY follow R413, R414, R421 and R393 to R397 (R33, R393, R395, R396, R397, R413, R414, R421, R432). -/
def Obligations.RegistersAreCheckedStagedAndLatched : Prop :=
  ∀ (s : State) (f : FnId) (t : TileId) (q : QuireId) (off : BitVec 24) (size : Fin 16) (v : W64) (w lo : W32) (k : Fin 128) (o : Fin 17) (vec : Fin 256),
    (Direct s f → (s.fn f).stage = none →
      (accessOk off.toNat size = false → LeavesFn s (.registerWrite (.host f) off size v) f (hostErred (s.fn f) 0 off.toNat 2)) ∧
      (∀ r : RoomId, f.val = r + 1 → (s.room r).exists' = true → s.quireRoom q ≠ some r.val → off.toNat = 0x100808 + 0x10000 * q → size.val = 4 →
        LeavesFn s (.registerWrite (.host f) off size v) f (hostErred (s.fn f) 0 off.toNat 1)) ∧
      (∀ i : Fin 16, f ≠ 0 → off.toNat = 0x100 + 8 * i → size.val = 8 →
        LeavesFn s (.registerWrite (.host f) off size v) f { s.fn f with apt := Tbl.put {} (s.fn f).apt i { en := v.getLsbD 63, base := (v >>> 21).setWidth 35 } })) ∧
    (∀ (r : RoomId) (i : Fin 64) (x : Writer), (x = .host f → off.toNat = 0x100000 + 0x10000 * q + 32 * i) → (x = .tile t → off.toNat = 32 * i) → (x = .host f ∨ x = .tile t) →
      WriterReaches s x q r → (s.cueAt (.quire q i)).arm = false → size.val = 8 →
        ∃ n, exec (.registerWrite x off size v) s = .next n ∧ OnlyCue s n x (.quire q i) { s.cueAt (.quire q i) with pos := v }) ∧
    (∀ x : RegSpan, Direct s f → off.toNat % 4 = 0 → msixArea f off.toNat = false → fnSpan f off.toNat = some x → s.regForeign f x.base = false → x.size = 8 → x.wide = true → x.ro = false →
      (off.toNat = x.base → LeavesFn s (.bar0LowHalfWrite f off w) f { s.fn f with stage := some (off, w) }) ∧
      (off.toNat = x.base + 4 →
        ((s.fn f).stage = some (off - 4, lo) → ∃ n, exec (.bar0HighHalfWrite f off w) s = .next n ∧ exec (.registerWrite (.host f) (off - 4) 8 (w ++ lo)) s = .next n) ∧
        (∀ i : Fin 16, f ≠ 0 → off.toNat = 0x104 + 8 * i → (s.fn f).stage = some (off - 4, lo) →
          LeavesFn s (.bar0HighHalfWrite f off w) f { s.fn f with stage := none, apt := Tbl.put {} (s.fn f).apt i { en := w.getLsbD 31, base := ((w ++ lo) >>> 21).setWidth 35 } }) ∧
        ((∀ l, (s.fn f).stage ≠ some (off - 4, l)) → LeavesFn s (.bar0HighHalfWrite f off w) f (hostErred (s.fn f) 0 off.toNat 2)))) ∧
    (Direct s f → let b := if f = 0 then 0#24 else 0x60#24
      (exec (.lowHalfRead f b 8) s = .next { s with out := s.out ++ [.regRead f b s.clk.pos] }) ∧
      (∃ n, exec (.lowHalfRead f b 4) s = .next n ∧ n.out = s.out ++ [.regRead f b ((s.clk.pos.setWidth 32).setWidth 64)] ∧
        Tbl.get none (n.fn f).latch b.toNat = some ((s.clk.pos >>> 32).setWidth 32) ∧ (∀ j, j ≠ f.val → n.fn j = s.fn j) ∧ { n with fns := s.fns, out := s.out } = s) ∧
      (∀ h, Tbl.get none (s.fn f).latch b.toNat = some h →
        ∃ n, exec (.lowHalfRead f (b + 4) 4) s = .next n ∧ n.out = s.out ++ [.regRead f (b + 4) (h.setWidth 64)] ∧ Tbl.get none (n.fn f).latch b.toNat = none ∧ { n with fns := s.fns, out := s.out } = s)) ∧
    (Direct s f → k.val < msixEntries f →
      let e := Tbl.get {} (s.fn f).msix k
      (e.pending = true → (s.fn f).fnMask = false → (s.fn f).busMaster = true →
        ∃ n, exec (.msixUnmask f (some k)) s = .next n ∧ OnlyMsix s n f k { e with masked := false, pending := false } [.msix f k e.addr e.data]) ∧
      ((e.pending = false ∨ (s.fn f).fnMask = true) → ∃ n, exec (.msixUnmask f (some k)) s = .next n ∧ OnlyMsix s n f k { e with masked := false } []) ∧
      (∃ n, exec (.msixUnmask f none) s = .next n ∧ (n.fn f).msixEn = true ∧ (n.fn f).busMaster = true ∧ (n.fn f).fnMask = false ∧ { n with fns := s.fns, out := s.out } = s ∧
        (e.pending = true → e.masked = false → Tbl.get {} (n.fn f).msix k = { e with pending := false } ∧ Out.msix f k e.addr e.data ∈ n.out))) ∧
    (let x := s.irVec o vec
     ((x.en = false ∨ x.held = 0 ∨ s.chosenSlot o vec = none) → exec (.vectorDelivery o vec) s = .next s) ∧
     (∀ j, x.en = true → x.held ≠ 0 → s.chosenSlot o vec = some j →
       let z := s.irSlot o (8 * vec + j)
       let u : State := { s with irq := { s.irq with vec := Tbl.put {} s.irq.vec (o * 256 + vec) { x with held := 0, last := BitVec.ofNat 3 j } } }
       (z.kind = 3 → exec (.vectorDelivery o vec) s = .next { u with out := s.out ++ [.steward vec] }) ∧
       (z.kind = 2 → ∃ n, exec (.vectorDelivery o vec) s = .next n ∧
         OnlyTile u n z.index.toNat { s.tile z.index.toNat with priv := { (s.tile z.index.toNat).priv with irqPend := (s.tile z.index.toNat).priv.irqPend ||| (1#16 <<< z.line.toNat) } }) ∧
       (z.kind = 1 → let g := s.fn (ownerFn o)
         let e := Tbl.get {} g.msix z.index.toNat
         (g.fnMask = false → e.masked = false → g.busMaster = true →
           ∃ n, exec (.vectorDelivery o vec) s = .next n ∧ n.out = s.out ++ [.msix (Fin.ofNat 17 (ownerFn o)) z.index.toNat e.addr e.data] ∧ { n with out := s.out, fns := s.fns } = u) ∧
         ((g.fnMask = true ∨ e.masked = true ∨ g.busMaster = false) →
           ∃ n, exec (.vectorDelivery o vec) s = .next n ∧ Tbl.get {} (n.fn (ownerFn o)).msix z.index.toNat = { e with pending := true } ∧ { n with fns := s.fns } = u)))) ∧
    (s.clk.state = .holdover → s.clk.agedBit = false → s.asserted 3953 = false → (s.irSrc 3953).en = true → (s.irSrc 3953).mask.getLsbD 6 = true → (s.irVec 16 (s.irSrc 3953).vector.toNat).en = true →
      ∃ n, exec .aged s = .next n ∧ n.irVec 16 (s.irSrc 3953).vector.toNat =
        { s.irVec 16 (s.irSrc 3953).vector.toNat with held := (s.irVec 16 (s.irSrc 3953).vector.toNat).held + 1 })

/-- APERTURE_WRITE and APERTURE_READ reach the room's memory, and the link and VF rows reset the host side of functions (R405, R408, R418, R419, R420, R425, R426, R427, R428, R429, R432). -/
def Obligations.ApertureAndLinkFollowTheHost : Prop :=
  ∀ (s : State) (f : FnId) (off : W32) (bs : List Byte) (len : BitVec 13) (enable : Bool) (m : Fin 17) (a : Nat),
    (Direct s f → f ≠ 0 → s.bar2Addr f off.toNat = some a →
      (off.toNat % 2 ^ 28 + bs.length ≤ 2 ^ 28 → s.bar2Ok f off.toNat bs.length = true → (∀ g, a / 8 ≤ g → 8 * g < a + bs.length → s.syndAt g = 0) →
        (s.partsAsleep [(a, bs.length)] = [] → Uninjected s 1 (f.val - 1) →
          ∃ n, exec (.apertureWrite f off bs true) s = .next n ∧ (∀ i, i < bs.length → n.byteAt (a + i) = bs.getD i 0) ∧ (∀ j, (j < a ∨ a + bs.length ≤ j) → n.byteAt j = s.byteAt j) ∧
            { n with mem := s.mem, synd := s.synd, integ := s.integ } = s) ∧
        (∀ q, s.partsAsleep [(a, bs.length)] = [q] → (s.quire q).power = .gated →
          ∃ n, exec (.apertureWrite f off bs true) s = .next n ∧ (n.fn f).held = [.wr off [(a, bs.length)] bs] ∧ (n.quire q).power = .waking ∧ n.mem = s.mem)) ∧
      (off.toNat % 2 ^ 28 + len.toNat ≤ 2 ^ 28 → s.bar2Ok f off.toNat len.toNat = true → s.partsAsleep [(a, len.toNat)] = [] → Uninjected s 2 (f.val - 1) →
        (∀ g, a / 8 ≤ g → 8 * g < a + len.toNat → s.syndAt g = 0) →
        ∃ n, exec (.apertureRead f off len) s = .next n ∧ n.out = s.out ++ [.cpl f (some (s.bytesAt a len.toNat))] ∧ { n with out := s.out, integ := s.integ } = s)) ∧
    (Direct s f → s.bar2Ok f off.toNat bs.length = false → LeavesFn s (.apertureWrite f off bs true) f (hostErred (s.fn f) 2 off.toNat 3)) ∧
    (∃ n, exec (.apertureWrite f off bs false) s = .next n ∧ Out.aer f ∈ n.out ∧
      (f = 0 → n.integ.counts = (countHand s.integ 1 true).counts ∧ n.mem = s.mem ∧ n.rooms = s.rooms) ∧
      (∀ (r : RoomId) g, f.val = r + 1 → (s.room r).state = .formed → (s.room r).form = some g → g.ftCount = 0 → RoomFaulted s n r 11 1)) ∧
    (Direct s f → s.bar2Ok f off.toNat len.toNat = false →
      ∃ n, exec (.apertureRead f off len) s = .next n ∧ n.out = s.out ++ [.cpl f none] ∧ n.fn f = hostErred (s.fn f) 2 off.toNat 3 ∧ { n with out := s.out, fns := s.fns, irq := s.irq } = s) ∧
    (let old := s.pcie.vfs
     let new := if enable = true then m.val else 0
     ∃ n, exec (.vfEnableClear enable m) s = .next n ∧ n.pcie = { s.pcie with vfEnable := enable, numVfs := m } ∧ n.rooms = s.rooms ∧ n.quires = s.quires ∧ n.sdma = s.sdma ∧
       (∀ g : FnId, new < g.val → g.val ≤ old → HostSideReset g.val (s.fn g) (n.fn g) ∧ ∀ x ∈ n.bil.sessions, x.transport.toNat ≠ 2 + g.val) ∧
       (∀ g : FnId, (g.val ≤ new ∨ old < g.val) → n.fn g = s.fn g)) ∧
    (∃ n, exec .linkLoss s = .next n ∧ n.pcie = { s.pcie with linkUp := false, lost := s.pcie.lost || s.pcie.linkUp, vfEnable := false, numVfs := 0, rate := 0, width := 0 } ∧
      (∀ g : FnId, HostSideReset g.val (s.fn g) (n.fn g) ∧ ∀ x ∈ n.bil.sessions, x.transport.toNat ≠ 2 + g.val) ∧
      (∀ (c : Fin 64) r d, s.chanRoom (.sys c) = some r → (s.chan (.sys c)).desc = some d → d.ssp = 2 → ∀ y ∈ (n.chan (.sys c)).reqs, y.writing = true)) ∧
    ((s.pcie.linkUp = true ∨ s.pcie.lost = true) → exec .perstDeassert s = .next { s with pcie := { s.pcie with perst := false } }) ∧
    (s.pcie.linkUp = false → s.pcie.lost = false → exec .perstDeassert s =
      .next { s with pcie := { s.pcie with perst := false, linkUp := true, rate := Config.free 8 s.free, width := Config.free 8 (s.free + 1) }, free := s.free + 2 }) ∧
    ((s.pcie.lost = false ∨ s.pcie.perst = true) → exec .linkReturn s = .next s) ∧
    (s.pcie.lost = true → s.pcie.perst = false → ∃ n, exec .linkReturn s = .next n ∧ n.free = s.free + 2 ∧
      n.pcie = { s.pcie with lost := false, losses := s.pcie.losses + 1, linkUp := true, rate := Config.free 8 s.free, width := Config.free 8 (s.free + 1) } ∧
      n.fn 0 = { s.fn 0 with hostEvt := (s.fn 0).hostEvt ||| 8 } ∧ ∀ j, j ≠ 0 → n.fn j = s.fn j)

/-- MBX_ENABLE, MBX_DISABLE, MBX_REQ_TAIL, MBX_SLOT_READ and MBX_RSP_HEAD run the rings of R422 to R424 (R422, R423, R424, R432, R433). -/
def Obligations.MailboxRingsMoveFrames : Prop :=
  ∀ (s : State) (f : FnId) (ctl : W32) (v len : W16) (bs : List Byte) (fr : Frame), Direct s f →
    let x := s.fn f
    let m := x.mbx
    let set := { m with irq := ctl.getLsbD 1, log2 := (ctl >>> 4).setWidth 4, vec := (ctl >>> 16).setWidth 12 }
    (m.en = false → m.reqBase.toNat % 4096 = 0 → m.rspBase.toNat % 4096 = 0 → 2 ≤ set.log2.toNat → set.log2.toNat ≤ 8 →
      LeavesFn s (.mbxEnable f ctl) f { x with mbx := { set with en := true, reqTail := 0, reqHead := 0, rspTail := 0, rspHead := 0, stat := 0, waiting := [] } }) ∧
    (m.en = false → (m.reqBase.toNat % 4096 ≠ 0 ∨ m.rspBase.toNat % 4096 ≠ 0 ∨ set.log2.toNat < 2 ∨ 8 < set.log2.toNat) →
      LeavesFn s (.mbxEnable f ctl) f { x with mbx := { set with stat := 1 }, hostEvt := x.hostEvt ||| 2 }) ∧
    (m.en = true → exec (.mbxEnable f ctl) s = .next s) ∧
    (m.en = true → ∃ n, exec (.mbxDisable f) s = .next n ∧ n.fn f = { x with mbx := { m with en := false, waiting := [] } } ∧ (∀ y ∈ n.bil.sessions, y.transport.toNat ≠ 2 + f.val) ∧
      (∀ y ∈ s.bil.sessions, y.transport.toNat ≠ 2 + f.val → y ∈ n.bil.sessions) ∧ (∀ j, j ≠ f.val → n.fn j = s.fn j) ∧ { n with fns := s.fns, bil := s.bil } = s) ∧
    ((m.en = false ∨ (v - m.reqHead).toNat ≤ 2 ^ m.log2.toNat) → LeavesFn s (.mbxReqTail f v) f { x with mbx := { m with reqTail := v } }) ∧
    (m.en = true → 2 ^ m.log2.toNat < (v - m.reqHead).toNat →
      ∃ n, exec (.mbxReqTail f v) s = .next n ∧ n.fn f = { x with mbx := { m with reqTail := v, stat := 4, en := false, waiting := [] }, hostEvt := x.hostEvt ||| 2 }) ∧
    (s.mbxReads f = false → exec (.mbxSlotRead f .failed) s = .next s) ∧
    (s.mbxReads f = true →
      let rd := Out.hostRead f (m.reqBase + BitVec.ofNat 64 (2048 * (m.reqHead.toNat % 2 ^ m.log2.toNat))) 2048
      (∃ n, exec (.mbxSlotRead f .failed) s = .next n ∧ n.out = s.out ++ [rd] ∧ n.fn f = { x with mbx := { m with stat := 2, en := false, waiting := [] }, hostEvt := x.hostEvt ||| 2 }) ∧
      (s.hostReach f = true → (len = 0 ∨ 2044 < len.toNat) → ∃ n, exec (.mbxSlotRead f (.slot len bs)) s = .next n ∧ n.out = s.out ++ [rd] ∧
        n.fn f = { x with mbx := { m with reqHead := m.reqHead + 1, stat := 3 }, hostEvt := x.hostEvt ||| 2 } ∧ n.pcie.mbxLenErrors = s.pcie.mbxLenErrors + 1) ∧
      (s.hostReach f = true → len ≠ 0 → len.toNat ≤ 2044 → parseFrame (padTo len.toNat bs) = some fr → fr.op = 3 → 
        ∃ u n p, u.fn f = { x with mbx := { m with reqHead := m.reqHead + 1 } } ∧ u.out = s.out ++ [rd] ∧ (∀ j, j ≠ f.val → u.fn j = s.fn j) ∧ { u with fns := s.fns, out := s.out } = s ∧
          exec (.read (BitVec.ofNat 8 (2 + f.val)) fr) u = .next p ∧ exec (.mbxSlotRead f (.slot len bs)) s = .next n ∧ { n with irq := p.irq } = p)) ∧
    (m.waiting = [] → LeavesFn s (.mbxRspHead f v) f { x with mbx := { m with rspHead := v } }) ∧
    (m.waiting = [fr] → m.en = true → (m.rspTail - v).toNat < 2 ^ m.log2.toNat → m.irq = false → s.hostReach f = true →
      ∃ n, exec (.mbxRspHead f v) s = .next n ∧ n.fn f = { x with mbx := { m with rspHead := v, waiting := [], rspTail := m.rspTail + 1 }, hostEvt := x.hostEvt ||| 4 } ∧
        n.out = s.out ++ [.hostWrite f (m.rspBase + BitVec.ofNat 64 (2048 * (m.rspTail.toNat % 2 ^ m.log2.toNat))) (leBytes 2 (frameBytes fr).length ++ zeros 2 ++ frameBytes fr)])

/-- HELLO, AUTH, AUTH_HOLDOFF_END, BYE and SESSION_IDLE_TIMEOUT open, prove and end sessions as R449 and R450 say (R446, R449, R450, R451, R463, R464). -/
def Obligations.SessionsOpenProveAndEnd : Prop :=
  ∀ (s : State) (tr : BitVec 8) (q : Frame) (x : Session) (k : KeySlot) (h : Fin 33) (num : W32),
    (FrameReaches s tr q → q.op = 1 → q.payload.length = 20 →
      let slot := fieldAt q.payload 0 1
      (s.slotUsable slot tr = true → s.slotHeldOff slot = false → s.bil.sessions.length < 64 →
        ∃ n np, n ≠ 0 ∧ (∀ y ∈ s.bil.sessions, y.number ≠ n) ∧ np.length = 16 ∧
          Replies s (.hello tr q) { counted s 8 with free := s.free + 2, bil := { s.bil with sessions := s.bil.sessions ++
            [{ number := n, transport := tr, slot := Fin.ofNat 256 slot, nc := slice q.payload 4 16, np := np, isOpen := false }] } } tr
            { replyTo q 0 (np ++ leBytes 4 s.pow.incarnation.toNat) with session := n } none) ∧
      (s.slotUsable slot tr = false → Replies s (.hello tr q) (refusedAs (counted s 8) 3) tr (replyTo q 10 []) none) ∧
      (s.slotUsable slot tr = true → (s.slotHeldOff slot = true ∨ 64 ≤ s.bil.sessions.length) → Replies s (.hello tr q) (refusedAs (counted s 8) 7) tr (replyTo q 6 []) none)) ∧
    (FrameReaches s tr q → q.op = 2 → q.payload.length = 32 → s.bil.sessions.find? (fun y => decide (y.number = q.session) && decide (y.transport = tr) && !y.isOpen) = some x →
      let key := slotKey (s.slotOf x.slot)
      (q.payload = padTo 32 (Config.hmac key (ascii "BILBIN-C" ++ x.nc ++ x.np ++ leBytes 4 x.number.toNat)) →
        Replies s (.auth tr q) { counted s 8 with bil := { s.bil with sessions := s.bil.sessions.map fun y =>
          if y = x then { y with isOpen := true, ks := Config.hmac key (ascii "BILBIN-K" ++ x.nc ++ x.np ++ leBytes 4 x.number.toNat) } else y } } tr
          (replyTo q 0 (padTo 32 (Config.hmac key (ascii "BILBIN-S" ++ x.np ++ x.nc ++ leBytes 4 x.number.toNat)))) none) ∧
      (q.payload ≠ padTo 32 (Config.hmac key (ascii "BILBIN-C" ++ x.nc ++ x.np ++ leBytes 4 x.number.toNat)) →
        ∃ u, Replies s (.auth tr q) u tr (replyTo q 10 []) none ∧ u.bil.sessions = s.bil.sessions.filter (fun y => !decide (y = x)) ∧
          (x.slot.val < 32 → (u.keySlot x.slot).failures = (s.keySlot x.slot).failures + 1 ∧ (u.keySlot x.slot).heldOff = true ∧ ∀ j, j ≠ x.slot.val → u.keySlot j = s.keySlot j) ∧
          (x.slot.val = 255 → u.bil.heldOff255 = true ∧ ∀ j, u.keySlot j = s.keySlot j))) ∧
    (∃ n, exec (.authHoldoffEnd h) s = .next n ∧ { n with bil := { n.bil with keys := s.bil.keys, heldOff255 := s.bil.heldOff255 } } = s ∧
      (h.val < 32 → (n.keySlot h) = { s.keySlot h with heldOff := false } ∧ (∀ j, j ≠ h.val → n.keySlot j = s.keySlot j) ∧ n.bil.heldOff255 = s.bil.heldOff255) ∧
      (h.val = 32 → n.bil.heldOff255 = false ∧ n.bil.keys = s.bil.keys)) ∧
    (InSession s tr q x k → q.op = 9 →
      let u := (counted s 8).sendFrame tr (replyTo q 0 []) (some x.ks)
      ∃ n, exec (.bye tr q) s = .next n ∧ n.out = u.out ∧ n.fns = u.fns ∧ n.led = u.led ∧ n.bil.sessions = u.bil.sessions.filter (fun y => !decide (y = x)) ∧
        (x ∈ u.bil.sessions → (∀ y ∈ n.bil.subs, y.session ≠ x.number) ∧ ∀ y ∈ n.bil.snapshots, y.session ≠ x.number)) ∧
    (∃ n, exec (.sessionIdleTimeout num) s = .next n ∧ n.bil.sessions = s.bil.sessions.filter (fun y => !decide (y.number = num)) ∧ { n with bil := s.bil } = s ∧
      (∀ y ∈ s.bil.sessions, y.number = num → (∀ z ∈ n.bil.subs, z.session ≠ num) ∧ ∀ z ∈ n.bil.snapshots, z.session ≠ num)) ∧
    (∀ (f : Frame) (ks : Option (List Byte)), Uninjected s 9 255 →
      let g := withCrc { f with tag := match ks with | some w => frameTag w f | none => zeros 16 }
      (tr.toNat < 2 → s.sendFrame tr f ks = { counted s 9 with out := s.out ++ [.frame tr g] }) ∧
      (2 ≤ tr.toNat → tr.toNat < 19 → (s.fn (tr.toNat - 2)).mbx.en = false → s.sendFrame tr f ks = counted s 9))

/-- READ, WRITE, ACK, LEDGER_READ, SUBSCRIBE, UNSUBSCRIBE, NOTIFY and the two expiries do what R453 to R480 say (R437, R440, R447, R452, R453, R454, R455, R461, R462, R463, R475, R480). -/
def Obligations.RequestsInASessionAreAnswered : Prop :=
  ∀ (s : State) (tr : BitVec 8) (q : Frame) (x : Session) (k : KeySlot) (num client cseq : W32) (e : EntryDef),
    (InSession s tr q x k →
      let u := (counted s 8).keepSnapshots q
      let idx := q.index.toNat
      let sub := q.sub.toNat
      let drop : State → State := fun v => { v with bil := { v.bil with snapshots := v.bil.snapshots.filter fun y => !isSnapOf q y } }
      (q.op = 3 → k.allows 0 = true →
        (entryExists idx sub = false → Replies s (.read tr q) (counted s 8) tr (replyTo q 12 []) (some x.ks)) ∧
        (entryExists idx sub = true → entryReadable idx sub = true → s.pow.boot ≠ .recovery → q.segment = 0 → (u.valueOf idx sub).1.length ≤ 1024 →
          Replies s (.read tr q) (drop (u.valueOf idx sub).2) tr
            { replyTo q 0 (u.valueOf idx sub).1 with flags := 1, total := BitVec.ofNat 32 (u.valueOf idx sub).1.length, segment := 0 } (some x.ks)) ∧
        (entryRow idx sub = some e → e.access = 2 → idx = 0x2010 → (u.valueOf idx sub).1 = s.cfg idx sub)) ∧
      (q.op = 3 → k.allows 0 = false → Replies s (.read tr q) (refusedAs (counted s 8) 4) tr (replyTo q 11 []) (some x.ks)) ∧
      (q.op = 4 → s.mayWrite k tr idx sub q.payload = true → q.segment = 0 → s.findAssembly q = none → entryRow idx sub = some e →
        (isLast q = true → q.total.toNat = q.payload.length → q.payload.length ≤ 1024 →
          let r : Req := { client := q.client, cseq := q.cseq, source := tr, session := q.session }
          Admits s r idx sub q.payload →
            (e.access = 2 → idx ≠ 0xA010 → s.rangeOk idx sub q.payload = true → Journaled s (.write tr q) r idx sub q.payload 0 [] fun n => OnlySetting s n idx sub q.payload) ∧
            (e.access = 3 → s.anyFormed = true → Journaled s (.write tr q) r idx sub q.payload 3 [] fun n => ReplyOnly s n ∧ n.ent = s.ent)) ∧
        (2 ≤ e.access → isLast q = false → q.payload.length = 1024 → 1024 < q.total.toNat → q.total.toNat ≤ 65536 →
          Replies s (.write tr q) { counted s 8 with bil := { s.bil with assemblies := (s.bil.assemblies.filter fun a => decide (a.client ≠ q.client) || decide (a.cseq ≠ q.cseq)) ++
            [{ client := q.client, cseq := q.cseq, total := q.total, next := 1, bytes := q.payload }] } } tr (replyTo q 1 []) (some x.ks))) ∧
      (q.op = 5 → q.client ≠ 0 → q.payload.length = 8 → leNat q.payload ≤ (ledHighest s.led).toNat →
        ∃ l : Ledger, { l with recs := s.led.recs, due := s.led.due } = s.led ∧ l.recs = (s.led.recs.map fun y => if ackable q.client (leNat q.payload) y = true then { y with acked := true } else y) ∧
          Replies s (.ack tr q) { counted s 8 with led := l } tr
            (replyTo q 0 (leBytes 4 (s.led.recs.filter (ackable q.client (leNat q.payload))).length ++ leBytes 8 (lowestUnacked l q.client))) (some x.ks)) ∧
      (q.op = 6 → k.allows 0 = true → q.segment = 0 → q.payload.length = 11 →
        let n := fieldAt q.payload 8 2
        let v := u.ledgerValue k q.client (fieldAt q.payload 0 8) n (fieldAt q.payload 10 1)
        n ≠ 0 → n ≤ 2047 → fieldAt q.payload 10 1 ≤ 2 → v.length ≤ 1024 →
          Replies s (.ledgerRead tr q) (drop u) tr { replyTo q 0 v with flags := 1, total := BitVec.ofNat 32 v.length, segment := 0 } (some x.ks)) ∧
      (q.op = 7 → k.allows 0 = true → entryExists idx sub = true → entryReadable idx sub = true → q.payload.length = 13 →
        let w := (counted s 8).valueOf idx sub
        let rpt := fieldAt q.payload 8 1
        let stride := fieldAt q.payload 9 2
        w.1.length ≤ 1016 → (rpt = 1 ∨ rpt = 2) → stride ≠ 0 → fieldAt q.payload 11 2 ≠ 0 → w.2.tooFast rpt stride = false → (s.bil.subs.filter fun y => decide (y.session = q.session)).length < 8 → s.bil.subs.length < 64 →
          Replies s (.subscribe tr q) { w.2 with bil := { s.bil with nextSub := if s.bil.nextSub + 1 = 0 then 1 else s.bil.nextSub + 1, subs := s.bil.subs ++
            [{ subId := s.bil.nextSub, session := q.session, transport := tr, client := q.client, index := q.index, sub := q.sub, next := BitVec.ofNat 64 (fieldAt q.payload 0 8),
               rpt := BitVec.ofNat 8 rpt, stride := BitVec.ofNat 16 stride, count := BitVec.ofNat 16 (fieldAt q.payload 11 2), sample := 0, lost := false }] } } tr
            { replyTo q 0 [] with subId := s.bil.nextSub } (some x.ks)) ∧
      (q.op = 8 →
        let mine : Sub → Bool := fun y => decide (y.subId = q.subId) && decide (y.session = q.session)
        (s.bil.subs.any mine = true → Replies s (.unsubscribe tr q) { counted s 8 with bil := { s.bil with subs := s.bil.subs.filter fun y => !mine y } } tr { replyTo q 0 [] with subId := q.subId } (some x.ks)) ∧
        (s.bil.subs.any mine = false → Replies s (.unsubscribe tr q) (counted s 8) tr { replyTo q 2 [] with subId := q.subId } (some x.ks)))) ∧
    (∀ y : Sub, s.bil.subs.find? (fun z => decide (z.subId = num)) = some y → s.posValid = true →
      (posAhead y.next s.clk.pos = true → exec (.notify num) s = .next s) ∧
      (y.next = s.clk.pos → y.rpt.toNat < 4 →
        let w := s.valueOf y.index.toNat y.sub.toNat
        let next := if y.rpt = 1 then addLines s.lpf y.stride.toNat y.next else addFrames y.stride.toNat y.next
        let left := if y.count = 0xFFFF then y.count else y.count - 1
        exec (.notify num) s = .next (({ w.2 with bil := { s.bil with subs := s.bil.subs.flatMap fun z => if z.subId = num then
            (if left = 0 then [] else [{ y with next := next, count := left, sample := y.sample + 1, lost := false }]) else [z] } } : State).sendFrame y.transport (notifyFrame y w.1) (s.sessionKey y.transport y.session)))) ∧
    exec (.snapshotExpiry num) s = .next { s with bil := { s.bil with snapshots := s.bil.snapshots.filter fun y => decide (y.session ≠ num) } } ∧
    exec (.assemblyTimeout client cseq) s = .next { s with bil := { s.bil with assemblies := s.bil.assemblies.filter fun a => decide (a.client ≠ client) || decide (a.cseq ≠ cseq) } }

/-- SMBUS_BLOCK_WRITE, SMBUS_BLOCK_READ, SMBUS_SCL_TIMEOUT and SMBUS_WAKE answer, reset and wake as R444, R534, R535 and R576 say (R444, R534, R535, R538, R545, R576). -/
def Obligations.SmbusBlocksAreAnsweredInEveryPowerState : Prop :=
  ∀ (s : State) (b : List Byte) (pec : Bool) (q : Frame),
    (s.pow.state = .off → exec (.smbusBlockWrite b pec) s = .next s ∧ exec .smbusBlockRead s = .next s ∧ exec .smbusSclTimeout s = .next s) ∧
    (s.pow.state ≠ .off →
      (∀ r, s.bil.smbusReply = some r → exec .smbusBlockRead s = .next { s with bil := { s.bil with smbusReply := none }, out := s.out ++ [.smbus r] }) ∧
      (s.bil.smbusReply = none → exec .smbusBlockRead s = .next { s with out := s.out ++ [.smbus [0]] }) ∧
      exec .smbusSclTimeout s = .next (smbusReplied s none)) ∧
    (s.pow.state ≠ .off → s.pow.state ≠ .standby →
      (s.hears 19 = false → ∃ n, exec (.smbusBlockWrite b pec) s = .next n ∧ { n with irq := s.irq } = smbusReplied s none) ∧
      (s.hears 19 = true → ∃ n, exec (.smbusBlockWrite b false) s = .next n ∧ { n with irq := s.irq } = refusedAs (smbusReplied s none) 0) ∧
      (s.hears 19 = true → s.pow.neg = none → parseBlock b = some q → blockGood b = true → Uninjected s 8 255 → Uninjected s 9 255 → smbusLimit q = none → q.op = 3 → entryExists q.index.toNat q.sub.toNat = true →
        entryReadable q.index.toNat q.sub.toNat = true → s.pow.boot ≠ .recovery →
        let u : State := { counted s 8 with bil := { s.bil with smbusReply := none, smbusWait := some (q.client, q.cseq) } }
        (u.valueOf q.index.toNat q.sub.toNat).1.length ≤ 32 →
          ∃ n, exec (.smbusBlockWrite b true) s = .next n ∧ n.bil.smbusWait = none ∧ n.out = s.out ∧
            n.bil.smbusReply = some (smbusBlock (replyTo q 0 (u.valueOf q.index.toNat q.sub.toNat).1)))) ∧
    (s.pow.state = .standby → (∃ n, exec (.smbusBlockWrite b false) s = .next n ∧ n = s) ∧
      (parseBlock b = some q → blockGood b = true → smbusLimit q = none →
        (q.op = 3 → q.index = 0x9000 → q.sub = 1 →
          ∃ n, exec (.smbusBlockWrite b true) s = .next n ∧ { n with irq := s.irq } = smbusReplied s (some (smbusBlock (replyTo q 0 [3])))) ∧
        (q.op = 4 → s.pow.byRequest = true → s.pow.starting = false → s.pow.inputOk = true →
          ∃ n, exec (.smbusBlockWrite b true) s = .next n ∧ n.bil.smbusHeld = some b ∧ n.pow = { s.pow with starting := true, heldWake := false, island := { s.pow.island with wakeCause := 4 } }))) ∧
    (s.pow.island.smbusWake = false → exec .smbusWake s = .next s) ∧
    (s.pow.island.smbusWake = true → s.pow.state = .standby → s.pow.byRequest = true → s.pow.starting = false →
      (s.pow.inputOk = true → exec .smbusWake s = .next { s with pow := { s.pow with starting := true, heldWake := false, island := { s.pow.island with wakeCause := 3 } } }) ∧
      (s.pow.inputOk = false → exec .smbusWake s = .next { s with pow := { s.pow with heldWake := true, island := { s.pow.island with wakeCause := 3 } } }))

/-- CHECKPOINT_BEGIN, CHECKPOINT_COMPLETE, EVENT_DEFERRED_RECORD and LEDGER_RECOVERY do what R469 to R479 say (R469, R470, R471, R474, R476, R477, R479, R489). -/
def Obligations.LedgerCheckpointsWaitsAndRecovers : Prop :=
  ∀ (s : State) (torn : List Nat) (code : BitVec 16) (v : List Byte) (rest : List (BitVec 16 × List Byte)),
    (s.hubOn = true → s.pow.boot ≠ .rom → s.pow.boot ≠ .ledger → checkpointDue s.led = true → Ordered s.led →
      streamEntries (s.valueItems (ledValues s.led (checkpointA s.led).toNat) ++ cueItems (ledValues s.led (checkpointA s.led).toNat) ++
        clientItems (ledValues s.led (checkpointA s.led).toNat)).length ≤ ledFree s.led →
      ∃ n c, exec .checkpointBegin s = .next n ∧ n.led.running = some c ∧ n.led.heads = 0 ∧ n.led.due = false ∧ n.led.last = s.led.last ∧ n.led.nextAcc = s.led.nextAcc ∧
        (∀ r ∈ s.led.recs, r.kind = 1 → r.done = false → c.a.toNat < r.accession.toNat) ∧
        (c.a = s.led.nextAcc - 1 ∨ ∃ r ∈ s.led.recs, r.kind = 1 ∧ r.done = false ∧ r.accession = c.a + 1) ∧
        c.incarnation = s.pow.incarnation ∧ c.slots.length = streamEntries (s.valueItems c ++ cueItems c ++ clientItems c).length ∧ (∀ k ∈ c.slots, k ∉ ledNeeded s.led) ∧
        (∀ r ∈ s.led.recs, r.kind = 1 → r.acked = false → r ∈ n.led.recs) ∧ { n with led := s.led, irq := s.irq } = s) ∧
    (checkpointDue s.led = false → exec .checkpointBegin s = .next s) ∧
    (∀ c, s.led.running = some c → Leaves s .checkpointComplete { s with led := { s.led with last := some c, running := none } }) ∧
    (s.led.running = none → exec .checkpointComplete s = .next s) ∧
    (s.led.deferred = (code, v) :: rest → Ordered s.led → 1 + recParts v.length ≤ ledFree s.led →
      ∃ n y, exec .eventDeferredRecord s = .next n ∧ n.record s.led.nextAcc = some y ∧ y.kind = 3 ∧ y.done = true ∧ y.index = code ∧ y.value = v ∧ y.pos = s.posOrZero ∧
        y.slots.length = 1 + recParts v.length ∧ (∀ k ∈ y.slots, k ∉ ledNeeded s.led) ∧ n.led.nextAcc = s.led.nextAcc + 1 ∧ n.led.deferred = rest ∧
        (∀ r ∈ s.led.recs, r.kind = 1 → r.acked = false → r ∈ n.led.recs) ∧ { n with led := s.led, irq := s.irq } = s) ∧
    (s.led.deferred = [] → Leaves s .eventDeferredRecord s) ∧
    (s.hubOn = true → s.pow.boot = .ledger → Ordered s.led → s.led.deferred = [] → 1 + s.vault.jobs.length ≤ ledFree (dropTorn s.led torn) →
      ∃ n, exec (.ledgerRecovery torn) s = .next n ∧ n.pow.boot = .verify ∧ n.pow.incarnation = BitVec.ofNat 32 (s.lastIncarnation + 1) ∧ n.pow.island.incarnation = n.pow.incarnation ∧
        n.pow.lastReset = { cause := s.pow.cause, pos := s.pow.resetPos, incarnation := n.pow.incarnation } ∧
        (∃ y k, n.record s.led.nextAcc = some y ∧ y.kind = 3 ∧ y.index = 1 ∧
          y.value = leBytes 4 n.pow.incarnation.toNat ++ leBytes 4 k ++ leBytes 4 (tornCount s.led torn) ∧ ((∀ r ∈ s.led.recs, r.kind = 1 → r.done = false → hit torn r.slots = true) → k = 0)) ∧
        (∀ j ∈ s.vault.jobs, JobEnded n j j.bytesDone 3) ∧ n.vault.jobs = [] ∧
        (∀ y ∈ n.led.recs, y.kind = 1 → y.done = true) ∧
        (∀ r ∈ s.led.recs, hit torn r.slots = true → ∀ y ∈ n.led.recs, y.accession ≠ r.accession) ∧
        (∀ r, OpenRec s torn r → ∃ y, n.record r.accession = some y ∧ y.done = true ∧ y.result = [] ∧
          (r.source = 20 ∨ (settingEntry r.index.toNat r.sub.toNat = false ∧ r.index ≠ 0x3020 ∧ ¬ (r.index = 0x9031 ∧ r.sub = 4)) → y.status = 3 ∧ y.interrupted = true) ∧
          (r.source ≠ 20 → settingEntry r.index.toNat r.sub.toNat = true → y.interrupted = false ∧ (y.status = 0 ∨ y.status = 2))) ∧
        (∀ r, OpenRec s torn r → (∀ x, OpenRec s torn x → x = r) → (∀ x ∈ s.led.recs, x.kind = 1 → x.done = false → x = r ∨ hit torn x.slots = true) →
          r.source ≠ 20 → settingEntry r.index.toNat r.sub.toNat = true → (∀ y, n.record r.accession = some y → y.status = 0) → n.cfg r.index.toNat r.sub.toNat = r.value) ∧
        ((∀ r ∈ s.led.recs, r.kind = 1 → r.done = false → hit torn r.slots = true) → ∀ r ∈ s.led.recs, r.kind = 1 → r.done = true → r.status = 0 → r.source ≠ 20 →
          hit torn r.slots = false → settingEntry r.index.toNat r.sub.toNat = true → (∀ c, (dropTorn s.led torn).last = some c → c.a.toNat < r.accession.toNat) →
          (∀ x ∈ s.led.recs, x.kind = 1 → x.done = true → x.status = 0 → x.source ≠ 20 → hit torn x.slots = false → x.index = r.index → x.sub = r.sub → x.accession.toNat ≤ r.accession.toNat) →
          n.cfg r.index.toNat r.sub.toNat = r.value))

/-- VAULT_WRITE, VAULT_READ, VAULT_DELETE and VAULT_STOP are checked in the order of R483 and do what R484 to R487 say (R95, R482, R483, R484, R485, R486, R487, R488). -/
def Obligations.VaultCommandsQueueStopAndDelete : Prop :=
  ∀ (s : State) (r : Req) (room : BitVec 8) (obj : BitVec 16) (tag : W32) (off a len : W64) (t amt : BitVec 16) (o : VaultObj), s.pow.state ≠ .idle →
    (let v := [room] ++ leBytes 2 obj.toNat ++ leBytes 4 tag.toNat ++ leBytes 8 a.toNat ++ leBytes 8 len.toNat ++ leBytes 2 t.toNat ++ leBytes 2 amt.toNat
      let c := Instr.vaultWrite r room obj tag a len t amt
      Admits s r 0x7101 1 v →
        (room.toNat < 16 → (s.room room.toNat).isFormed = true →
          (obj.toNat < 4096 → tag ≠ 0 → a.toNat % 4096 = 0 → len.toNat % 4096 = 0 → 4096 ≤ len.toNat → len.toNat ≤ 0x1000000000 → s.ownsHbm room.toNat a.toNat len.toNat = true →
            (t = 0xFFFF ∨ s.advanceCheck room.toNat t.toNat amt.toNat = 0) →
            ((∀ x ∈ s.vault.objects, x.number = obj → x.tag = tag) → vaultUnits len.toNat ≤ vaultFree s.vault → jobsWaiting s.vault < 16 →
              Journaled s c r 0x7101 1 v (if holdPasses s (min len.toNat 0x10000000) = true then 0 else 3) (if holdPasses s (min len.toNat 0x10000000) = true then [] else [1]) fun n =>
                ReplyOnly { s with free := s.free + 2, vault := n.vault } n ∧ n.vault.objects = s.vault.objects ∧ n.vault.check.cMicro = Config.free 32 s.free ∧
                n.vault.check.vMilli = Config.free 32 (s.free + 1) ∧ n.vault.check.pos = s.posOrZero ∧ n.vault.check.passed = holdPasses s (min len.toNat 0x10000000) ∧
                (if holdPasses s (min len.toNat 0x10000000) = true then n.vault.failures = s.vault.failures ∧ n.vault.jobs = s.vault.jobs ++
                    [{ accession := s.led.nextAcc, room := toRoom room.toNat, write := true, object := obj, tag := tag, addr := a, offset := 0, length := len, tally := t, amount := amt }]
                  else n.vault.failures = s.vault.failures + 1 ∧ n.vault.jobs = s.vault.jobs)) ∧
            (findObject s.vault.objects obj = some o → o.tag ≠ tag → Refused s c r 0x7101 1 v 3) ∧
            ((∀ x ∈ s.vault.objects, x.number = obj → x.tag = tag) → vaultFree s.vault < vaultUnits len.toNat → Refused s c r 0x7101 1 v 5)) ∧
          ((a.toNat % 4096 ≠ 0 ∨ len.toNat % 4096 ≠ 0 ∨ len.toNat < 4096 ∨ 0x1000000000 < len.toNat ∨ s.ownsHbm room.toNat a.toNat len.toNat = false ∨
            (t ≠ 0xFFFF ∧ s.advanceCheck room.toNat t.toNat amt.toNat ≠ 0)) → Refused s c r 0x7101 1 v 2)) ∧
        ((16 ≤ room.toNat ∨ (s.room room.toNat).isFormed = false) → Refused s c r 0x7101 1 v 3)) ∧
    (let v := [room] ++ leBytes 2 obj.toNat ++ leBytes 4 tag.toNat ++ leBytes 8 off.toNat ++ leBytes 8 a.toNat ++ leBytes 8 len.toNat ++ leBytes 2 t.toNat ++ leBytes 2 amt.toNat
      let c := Instr.vaultRead r room obj tag off a len t amt
      Admits s r 0x7101 2 v →
        (room.toNat < 16 → (s.room room.toNat).isFormed = true → off.toNat % 4096 = 0 → a.toNat % 4096 = 0 → len.toNat % 4096 = 0 → 4096 ≤ len.toNat → len.toNat ≤ 0x1000000000 →
          s.ownsHbm room.toNat a.toNat len.toNat = true → (t = 0xFFFF ∨ s.advanceCheck room.toNat t.toNat amt.toNat = 0) → findObject s.vault.objects obj = some o →
          (o.tag = tag → off.toNat + len.toNat ≤ o.length.toNat → jobsWaiting s.vault < 16 → Journaled s c r 0x7101 2 v 0 [] fun n => ReplyOnly { s with vault := { s.vault with jobs := s.vault.jobs ++ [{ accession := s.led.nextAcc, room := toRoom room.toNat, write := false, object := obj, tag := tag, addr := a, offset := off, length := len, tally := t, amount := amt }] } } n) ∧
          (o.tag ≠ tag → Refused s c r 0x7101 2 v 3) ∧ (o.tag = tag → o.length.toNat < off.toNat + len.toNat → Refused s c r 0x7101 2 v 2)) ∧
        ((16 ≤ room.toNat ∨ (s.room room.toNat).isFormed = false) → Refused s c r 0x7101 2 v 3)) ∧
    (let v := [room] ++ leBytes 2 obj.toNat ++ leBytes 4 tag.toNat;
      Admits s r 0x7101 3 v →
        (findObject s.vault.objects obj = some o → o.tag = tag →
          Journaled s (.vaultDelete r room obj tag) r 0x7101 3 v 0 [] fun n => ReplyOnly { s with vault := { s.vault with objects := s.vault.objects.filter fun x => x.number ≠ obj } } n) ∧
        (findObject s.vault.objects obj = some o → o.tag ≠ tag → Refused s (.vaultDelete r room obj tag) r 0x7101 3 v 3) ∧
        (findObject s.vault.objects obj = none → Refused s (.vaultDelete r room obj tag) r 0x7101 3 v 2)) ∧
    (Admits s r 0x7101 4 [room] →
      Journaled s (.vaultStop r room) r 0x7101 4 [room] 0 [] fun n => ReplyOnly { s with vault := n.vault } n ∧ n.vault.objects = s.vault.objects ∧
        n.vault.jobs = (s.vault.jobs.filter fun j => j.room.val ≠ room.toNat || j.inExtent).map (fun j => if j.room.val = room.toNat then { j with stop := some (j.stop.getD 2) } else j) ∧
        (RoomForEvents s.led (3 + s.vault.jobs.length) → ∀ j ∈ s.vault.jobs, j.room.val = room.toNat → j.inExtent = false → JobEnded n j j.bytesDone 2))

/-- VAULT_JOB_START and EXTENT_COMPLETE run the first job extent by extent, and end it as R484 to R490 say (R469, R483, R484, R485, R486, R487, R489, R490). -/
def Obligations.VaultJobsMoveCommitAndEnd : Prop :=
  ∀ (s : State) (j : VaultJob) (rest : List VaultJob) (o : VaultObj) (ok : Bool), s.vault.jobs = j :: rest →
    (s.hubOn = true → s.led.closed = false → j.inExtent = false → j.stop = none →
      (j.write = false → findObject s.vault.objects j.object = some o →
        Leaves s .vaultJobStart { s with vault := { s.vault with jobs := { j with inExtent := true } :: rest } }) ∧
      (j.write = true → ∃ n, exec .vaultJobStart s = .next n ∧ n.vault.objects = s.vault.objects ∧ n.vault.check.passed = holdPasses s (extentBytes j) ∧
        { n with vault := s.vault, free := s.free, led := s.led, irq := s.irq } = s ∧
        (if holdPasses s (extentBytes j) = true then n.vault.jobs = { j with inExtent := true } :: rest ∧ n.vault.failures = s.vault.failures ∧ n.led = s.led
          else n.vault.jobs = rest ∧ n.vault.failures = s.vault.failures + 1 ∧ n.vault.endedShort = true ∧ (RoomForEvents s.led 1 → JobEnded n j j.bytesDone 1)))) ∧
    ((s.led.closed = true ∨ j.inExtent = true ∨ j.stop ≠ none) → exec .vaultJobStart s = .next s) ∧
    (j.inExtent = false → exec (.extentComplete ok) s = .next s) ∧
    (j.inExtent = true → j.stop = none → j.write = true → s.badGranules (j.addr.toNat + j.bytesDone) (extentBytes j) = [] →
      (j.bytesDone + extentBytes j < j.length.toNat → ∃ n, exec (.extentComplete true) s = .next n ∧ n.vault.objects = s.vault.objects ∧
        { n with vault := s.vault, free := s.free, led := s.led, irq := s.irq } = s ∧
        (if holdPasses s (min 0x10000000 (j.length.toNat - (j.bytesDone + extentBytes j))) = true then
            ∃ x, n.vault.jobs = { j with bytesDone := j.bytesDone + extentBytes j, data := x } :: rest ∧ n.led = s.led
          else n.vault.jobs = rest ∧ (RoomForEvents s.led 1 → JobEnded n j (j.bytesDone + extentBytes j) 1))) ∧
      (j.bytesDone = 0 → j.data = [] → j.length.toNat ≤ 0x10000000 → RoomForEvents s.led 1 →
        ∃ n x, exec (.extentComplete true) s = .next n ∧ n.vault.jobs = rest ∧ n.vault.endedShort = false ∧ findObject n.vault.objects j.object = some x ∧ x.tag = j.tag ∧ x.length = j.length ∧
          x.commit = s.led.nextAcc ∧ (∀ i, i < j.length.toNat → Tbl.get 0 x.data i = s.byteAt (j.addr.toNat + i)) ∧
          EventHeld n 5 (leBytes 2 j.object.toNat ++ leBytes 8 j.length.toNat ++ leBytes 8 j.accession.toNat) ∧
          (∀ y ∈ s.vault.objects, y.number ≠ j.object → y ∈ n.vault.objects) ∧ n.mem = s.mem ∧
          (j.tally = 0xFFFF → n.tal = s.tal) ∧
          (j.tally ≠ 0xFFFF → s.advanceCheck j.room j.tally.toNat j.amount.toNat = 0 →
            n.tal = { s.tal with adv := s.tal.adv ++ [{ tally := j.tally.toNat, amount := j.amount, room := j.room, source := 5 }] }))) ∧
    (j.inExtent = true → j.stop = none → j.write = false → findObject s.vault.objects j.object = some o → Tbl.wf 0 o.data = true → j.bytesDone + extentBytes j = j.length.toNat →
      ∃ n, exec (.extentComplete true) s = .next n ∧ n.vault.jobs = rest ∧ n.vault.objects = s.vault.objects ∧
        (∀ i, i < extentBytes j → n.byteAt (j.addr.toNat + j.bytesDone + i) = Tbl.get 0 o.data (j.offset.toNat + j.bytesDone + i)) ∧
        (∀ i, i < j.addr.toNat + j.bytesDone ∨ j.addr.toNat + j.bytesDone + extentBytes j ≤ i → n.byteAt i = s.byteAt i) ∧
        (j.tally = 0xFFFF → { n with vault := s.vault, mem := s.mem, synd := s.synd, irq := s.irq } = s) ∧
        (j.tally ≠ 0xFFFF → s.advanceCheck j.room j.tally.toNat j.amount.toNat = 0 →
          n.tal = { s.tal with adv := s.tal.adv ++ [{ tally := j.tally.toNat, amount := j.amount, room := j.room, source := 5 }] })) ∧
    (∀ c : BitVec 8, j.inExtent = true → j.stop = some c → j.write = true → s.badGranules (j.addr.toNat + j.bytesDone) (extentBytes j) = [] →
      (c ≠ 3 → ∃ n, exec (.extentComplete true) s = .next n ∧ n.vault.jobs = rest ∧ n.vault.objects = s.vault.objects ∧ n.vault.endedShort = true ∧ n.tal = s.tal ∧
        (RoomForEvents s.led 1 → JobEnded n j (j.bytesDone + extentBytes j) c.toNat)) ∧
      (c = 3 → ∃ n x, exec (.extentComplete true) s = .next n ∧ n.vault.jobs = { j with inExtent := false, bytesDone := j.bytesDone + extentBytes j, data := x } :: rest ∧ n.led = s.led)) ∧
    (j.inExtent = true → j.stop = none → j.write = true → j.addr.toNat + j.bytesDone + extentBytes j ≤ 0x3000000000 → Tbl.wf 0 s.synd = true →
      (∀ e ∈ s.badGranules (j.addr.toNat + j.bytesDone) (extentBytes j), readSynd e.2 ≠ .bad) → j.bytesDone + extentBytes j < j.length.toNat →
      ∃ n, exec (.extentComplete true) s = .next n ∧ (∀ e ∈ s.badGranules (j.addr.toNat + j.bytesDone) (extentBytes j), n.syndAt e.1 = 0) ∧
        (if holdPasses s (min 0x10000000 (j.length.toNat - (j.bytesDone + extentBytes j))) = true then
            ∃ x, n.vault.jobs = { j with bytesDone := j.bytesDone + extentBytes j, data := x } :: rest
          else n.vault.jobs = rest)) ∧
    (j.inExtent = true → j.write = true → j.addr.toNat + j.bytesDone + extentBytes j ≤ 0x3000000000 → (ok = false ∨ ∃ e ∈ s.badGranules (j.addr.toNat + j.bytesDone) (extentBytes j), readSynd e.2 = .bad) →
      ∃ n, exec (.extentComplete ok) s = .next n ∧ n.vault.jobs = rest ∧ n.vault.objects = s.vault.objects ∧ (RoomForEvents s.led 1 → JobEnded n j j.bytesDone 4) ∧
        (Tbl.get {} n.vault.hand 0).failed = (Tbl.get {} s.vault.hand 0).failed + 1 ∧ n.tal = s.tal ∧ (s.badGranules (j.addr.toNat + j.bytesDone) (extentBytes j) = [] → n.mem = s.mem))

/-- PIPE_ASSIGN, PIPE_SHADOW, COMMIT and SHADOW_CHECK act as R494 to R509 say (R494, R495, R502, R507, R508, R509, R511, R518). -/
def Obligations.PipesAreAssignedPlacedAndCommitted : Prop :=
  ∀ (s : State) (r : Req) (room : BitVec 8) (p : Fin 2) (a c : W64) (mask : BitVec 8) (k : RoomId) (sh co : List Byte),
    (Admits s r 0x8002 1 [room, BitVec.ofNat 8 p] → room.toNat < 16 →
      ((s.room room.toNat).isFormed = true → (s.pipe p).owner = none → Journaled s (.pipeAssign r room (BitVec.ofNat 8 p)) r 0x8002 1 [room, BitVec.ofNat 8 p] 0 [] fun n =>
        OnlyPipe s n p { s.pipe p with owner := some (toRoom room.toNat), active := {}, released := false, placed := false, shadow := 0, coefAddr := 0 }) ∧
      (((s.room room.toNat).isFormed = false ∨ (s.pipe p).owner = some (toRoom room.toNat)) → Refused s (.pipeAssign r room (BitVec.ofNat 8 p)) r 0x8002 1 [room, BitVec.ofNat 8 p] 3) ∧
      ((s.room room.toNat).isFormed = true → (s.pipe p).owner ≠ none → (s.pipe p).owner ≠ some (toRoom room.toNat) →
        Refused s (.pipeAssign r room (BitVec.ofNat 8 p)) r 0x8002 1 [room, BitVec.ofNat 8 p] 4)) ∧
    (let v := [room, BitVec.ofNat 8 p] ++ leBytes 8 a.toNat ++ leBytes 8 c.toNat;
      Admits s r 0x8003 1 v → room.toNat < 16 → a.toNat % 64 = 0 → c.toNat % 64 = 0 → s.ownsHbm room.toNat a.toNat 576 = true → s.ownsHbm room.toNat c.toNat 7168 = true →
        ((s.pipe p).owner = some (toRoom room.toNat) → Journaled s (.pipeShadow r room (BitVec.ofNat 8 p) a c) r 0x8003 1 v 0 [] fun n =>
          OnlyPipe s n p { s.pipe p with placed := true, shadow := a, coefAddr := c }) ∧
        ((s.pipe p).owner ≠ some (toRoom room.toNat) → Refused s (.pipeShadow r room (BitVec.ofNat 8 p) a c) r 0x8003 1 v 3)) ∧
    (Admits s r 0x8004 1 [room, mask] → room.toNat < 16 →
      (mask.toNat < 4 → (∀ i : Fin 2, mask.getLsbD i = true → (s.pipe i).owner = some (toRoom room.toNat)) → Journaled s (.commit r room mask) r 0x8004 1 [room, mask] 0 [] fun n =>
        ReplyOnly { s with glz := { s.glz with pipe := n.glz.pipe } } n ∧ ∀ i : Fin 2, n.pipe i = if mask.getLsbD i = false then s.pipe i else
          if (s.pipe i).reading = true then { s.pipe i with waiting := true } else { s.pipe i with reading := true, takenAt := if s.posValid = true then some s.clk.pos else none }) ∧
      (∀ i : Fin 2, mask.getLsbD i = true → (s.pipe i).owner ≠ some (toRoom room.toNat) → Refused s (.commit r room mask) r 0x8004 1 [room, mask] 3)) ∧
    ((s.pipe p).reading = true → (s.pipe p).owner = some k → (s.pipe p).waiting = false →
      ((s.pipe p).placed = false → LeavesPipe s (.shadowCheck p) p (commitRefused (s.pipe p) 1 0)) ∧
      (∀ u, (s.pipe p).placed = true → s.readMem (s.pipe p).shadow.toNat 576 = (none, u) → ∃ n, exec (.shadowCheck p) s = .next n ∧ n.pipe p = commitRefused (s.pipe p) 2 0 ∧
        (∀ i, i ≠ p.val → n.pipe i = s.pipe i) ∧ { n with glz := { n.glz with pipe := u.glz.pipe }, irq := u.irq } = u) ∧
      ((s.pipe p).placed = true → s.readMem (s.pipe p).shadow.toNat 576 = (some sh, s) → s.readMem (s.pipe p).coefAddr.toNat 7168 = (some co, s) →
        ((s.commitCheck p k sh co).1 ≠ 0 → LeavesPipe s (.shadowCheck p) p (commitRefused (s.pipe p) (s.commitCheck p k sh co).1 (s.commitCheck p k sh co).2)) ∧
        ((s.commitCheck p k sh co).1 = 0 →
          ∃ n, exec (.shadowCheck p) s = .next n ∧ n.pipe p = { s.pipe p with pending := some (parseImage sh co), pendAt := (s.pipe p).takenAt, refused := false, met := 0, dropped := (s.pipe p).dropped + BitVec.ofNat 64 (s.pipe p).heldL.length, heldL := [], reading := false, takenAt := none } ∧
            (∀ i, i ≠ p.val → n.pipe i = s.pipe i) ∧
            (∀ l : Fin 8, (∃ w ∈ n.tal.waits, w.who = .layer p l) ↔ (imageEnables (parseImage sh co) l = true ∧ (imageLayer (parseImage sh co) l).fenceT ≠ 0xFFFF ∧
              ¬ (s.frozen (imageLayer (parseImage sh co) l).fenceT.toNat = false ∧
                (imageLayer (parseImage sh co) l).fenceVal.toNat ≤ (s.tally (imageLayer (parseImage sh co) l).fenceT.toNat).toNat))) ∧
            (∀ w, (∀ l, w.who ≠ .layer p l) → (w ∈ n.tal.waits ↔ w ∈ s.tal.waits)) ∧
            { n with glz := { n.glz with pipe := s.glz.pipe }, tal := { n.tal with waits := s.tal.waits }, irq := s.irq } = s)) ∧
      ((s.commitCheck p k sh co).1 = 0 ↔ headerReserved sh = false ∧ (∀ e ∈ (s.pipe p).heldL, ∀ y, e.2 = some y → layerSetsOk (toTbl co) y = true) ∧
        ∀ l, l < 8 → (sh.headD 0).getLsbD l = true → (let y := parseLayer (slice sh (64 + 64 * l) 64)
          layerReserved (slice sh (64 + 64 * l) 64) = false ∧ layerFormatOk y = true ∧ layerSetsOk (toTbl co) y = true ∧
          layerRectOk y (rasterSize (s.pipeFormat p)).1 (rasterSize (s.pipeFormat p)).2 = true ∧ s.layerMemOk k y = true ∧ s.layerFenceOk k y = true)))

/-- DECISION_POINT and FRAME_BOUNDARY apply commits, flip layers whose fence is met and hold the others (R494, R498, R504, R509, R511, R512, R516). -/
def Obligations.FrameBoundariesApplyAndHoldLayers : Prop :=
  ∀ (s : State) (p : Fin 2) (u : Bool),
    (∃ n, exec (.decisionPoint p) s = .next n ∧ (∀ l, l < 8 → ((n.pipe p).met.getLsbD l = true ↔ layerAwaits (s.pipe p) l = true ∧ ∀ w ∈ s.tal.waits, w.who ≠ .layer p (Fin.ofNat 8 l))) ∧
      { n.pipe p with met := (s.pipe p).met } = s.pipe p ∧ (∀ k, k ≠ p.val → n.pipe k = s.pipe k) ∧ { n with glz := { n.glz with pipe := s.glz.pipe } } = s) ∧
    (∃ n, exec (.frameBoundary p u) s = .next n ∧ (∀ k, k ≠ p.val → n.pipe k = s.pipe k) ∧ n.tiles = s.tiles ∧ n.rooms = s.rooms ∧ n.tal = s.tal ∧ n.cue = s.cue ∧
      (s.pixelErrors p = [] → { n with glz := { n.glz with pipe := s.glz.pipe }, free := s.free, irq := s.irq } = s) ∧
      ((∀ e ∈ s.pixelErrors p, 8 * e.1 < 0x3000000000) → { n with glz := { n.glz with pipe := s.glz.pipe }, free := s.free, irq := s.irq, mem := s.mem, synd := s.synd, reb := s.reb } = s ∧
        { n.reb with hbmCe := s.reb.hbmCe, hbmUe := s.reb.hbmUe } = s.reb ∧
        (Tbl.wf 0 s.synd = true → n.reb.hbmUe = s.reb.hbmUe + BitVec.ofNat 64 (s.badPixelGranules p) ∧ ∀ e ∈ s.pixelErrors p, readSynd e.2 ≠ .bad → n.syndAt e.1 = 0)) ∧
      (n.pipe p).met = 0 ∧ ((n.pipe p).underrun = true ↔ u = true ∨ s.badPixelGranules p ≠ 0) ∧ (n.pipe p).underruns = (if u = true then (s.pipe p).underruns + 1 else (s.pipe p).underruns) ∧
      (n.pipe p).owner = (s.pipe p).owner ∧ (n.pipe p).refused = (s.pipe p).refused ∧
      ((s.pipe p).released = true → (n.pipe p).active = {} ∧ (n.pipe p).released = false) ∧
      ((s.pipe p).released = false → (∀ i, (s.pipe p).pending = some i → s.pendingRipe p = true →
        (n.pipe p).pending = none ∧ (n.pipe p).commits = (s.pipe p).commits + 1 ∧ (n.pipe p).lastCommit = s.posOrZero ∧
        (n.pipe p).active.en = i.en ∧ (n.pipe p).active.background = i.background ∧ (n.pipe p).active.coef = i.coef ∧
        ∀ l, l < 8 → (imageEnables i l = true ∧ (imageLayer i l).fenceT ≠ 0xFFFF ∧ (s.pipe p).met.getLsbD l = false → Held (s.pipe p) (n.pipe p) l (imageLayer i l)) ∧
          (imageEnables i l = false ∨ (imageLayer i l).fenceT = 0xFFFF ∨ (s.pipe p).met.getLsbD l = true → Flipped (n.pipe p) l (imageLayer i l)))) ∧
      ((s.pipe p).released = false → ((s.pipe p).pending = none ∨ s.pendingRipe p = false) →
        (n.pipe p).pending = (s.pipe p).pending ∧ (n.pipe p).commits = (s.pipe p).commits ∧ (n.pipe p).active.en = (s.pipe p).active.en ∧
        (n.pipe p).active.background = (s.pipe p).active.background ∧ (n.pipe p).active.coef = (s.pipe p).active.coef ∧ (n.pipe p).heldStates = (s.pipe p).heldStates ∧
        (∀ l, l < 8 → (∀ y, Tbl.get none (s.pipe p).heldL l = some y → (s.pipe p).met.getLsbD l = false → Held (s.pipe p) (n.pipe p) l y) ∧
          (∀ y, Tbl.get none (s.pipe p).heldL l = some y → (s.pipe p).met.getLsbD l = true → Flipped (n.pipe p) l y) ∧
          (Tbl.get none (s.pipe p).heldL l = none → imageLayer (n.pipe p).active l = imageLayer (s.pipe p).active l ∧ Tbl.get none (n.pipe p).heldL l = none)) ∧
        (n.pipe p).lateEvents = (s.pipe p).lateEvents + BitVec.ofNat 64 ((List.range 8).filter fun l =>
          (Tbl.get none (s.pipe p).heldL l).isSome && !(s.pipe p).met.getLsbD l && decide (Tbl.get 0 (s.pipe p).heldCnt l + 1 = s.cfgN 0x8005 1)).length))

/-- HOT_PLUG_DETECT, DP_LINK_TRAINING and the commands of a shorted output change that output alone (R515, R516, R517, R584). -/
def Obligations.OutputsTrainLimitAndFault : Prop :=
  ∀ (s : State) (o : VidOut) (high : Bool) (link : Fin 4) (lanes : Fin 16) (m : Fin 2),
    LeavesOut s (.hotPlugDetect high) 2 { s.vout 2 with noSink := !high, linkFail := false, link := 0, lanes := 0 } ∧
    ((s.vout 2).noSink = false → s.outEnabled 2 = true →
      LeavesOut s (.dpLinkTraining .fail) 2 { s.vout 2 with linkFail := true, link := 0, lanes := 0, trainings := (s.vout 2).trainings + 1 } ∧
      (link ≠ 0 → (lanes = 4 ∨ lanes = 2) → LeavesOut s (.dpLinkTraining (.up link lanes)) 2
        { s.vout 2 with linkFail := false, link := BitVec.ofNat 4 link, lanes := BitVec.ofNat 4 lanes, trainings := (s.vout 2).trainings + 1 })) ∧
    (((s.vout 2).noSink = true ∨ s.outEnabled 2 = false) → exec (.dpLinkTraining .fail) s = .next s) ∧
    ((s.vid o).retrying = false → s.vidDrives o = true → LeavesVid s (.currentLimit o) o { s.vid o with limiting := true }) ∧
    ((s.vid o).retrying = true → LeavesVid s (.currentLimit o) o { s.vid o with retrying := false }) ∧
    ((s.vid o).limiting = true → LeavesVid s (.outputFault o) o { s.vid o with limiting := false, fault := true, faults := if o = .refLoop then (s.vid o).faults else (s.vid o).faults + 1 }) ∧
    ((s.vid o).limiting = false → exec (.outputFault o) s = .next s) ∧
    ((s.vid o).fault = true → LeavesVid s (.faultRetry o) o { s.vid o with retrying := true }) ∧
    ((s.vid o).retrying = true → LeavesVid s (.retryEnd o) o { s.vid o with retrying := false, fault := false }) ∧
    ((s.vid o).limiting = true → LeavesVid s (.shortRemoved o) o { s.vid o with limiting := false }) ∧
    ((s.vout m).fault = true → s.outActive m = false ∧ (s.outStat m).getLsbD 1 = true ∧ (s.outStat m).getLsbD 0 = false)

/-- Timers, POWER_REQUEST, BLOCK_ANSWER, BLOCK_TIMEOUT and STANDBY_ENTRY negotiate IDLE and STANDBY as R521 to R531 say (R521, R522, R528, R529, R530, R531). -/
def Obligations.NegotiationsStopBlocksOrAreRefused : Prop :=
  ∀ (s : State) (r : Req) (m : Negotiation) (b : Nat) (rest : List Nat) (a : W64) (x : Record),
    (s.pow.state = .run → s.booted = true → s.pow.neg = none → s.anyFormed = false → s.vault.jobs = [] → s.blockReason 2 = 0 →
      (s.cfgN 0x9010 1 ≠ 0 → Leaves s .idleTimer { s with pow := { s.pow with neg := some { target := 1, stopped := [], todo := [2, 3, 5, 10], record := none, room := none } } }) ∧
      (s.cfgN 0x9010 1 = 0 → exec .idleTimer s = .next s)) ∧
    (s.anyFormed = true → exec .idleTimer s = .next s) ∧
    (s.pow.state = .idle → s.pow.neg = none →
      (s.cfgN 0x9010 3 ≠ 0 → Leaves s .standbyAfterIdle { s with pow := { s.pow with neg := some { target := 2, stopped := [], todo := [1, 2, 3, 4, 5, 6, 7, 8, 9, 10], record := none, room := none } } }) ∧
      (s.cfgN 0x9010 3 = 0 → exec .standbyAfterIdle s = .next s)) ∧
    (Admits s r 0x9001 1 [0] → Journaled s (.powerRequestLeaveIdle r) r 0x9001 1 [0] 0 [] fun n =>
      ReplyOnly { s with pow := { s.pow with state := .run, kIdle := 0, kStandby := 0, island := { s.pow.island with lastRequest := 0 } } } n) ∧
    (Admits s r 0x9001 1 [1] → s.pow.state = .run → Journaled s (.powerRequestIdle r) r 0x9001 1 [1] 0 [] fun n =>
      ReplyOnly { s with pow := { s.pow with neg := some { target := 1, stopped := [], todo := [2, 3, 5, 10], record := none, room := none }, kIdle := 0, kStandby := 0, island := { s.pow.island with lastRequest := 1 } } } n) ∧
    (Admits s r 0x9001 1 [2] →
      (s.anyFormed = true → Refused s (.powerRequestStandby r) r 0x9001 1 [2] 3) ∧
      (s.anyFormed = false → Begun s (.powerRequestStandby r) r 0x9001 1 [2] fun n => n.pow = { s.pow with kIdle := 0, kStandby := 0, island := { s.pow.island with lastRequest := 2 }, neg := some { target := 2, stopped := [], todo := [1, 2, 3, 4, 5, 6, 7, 8, 9, 10], record := some s.led.nextAcc, room := none } })) ∧
    (s.pow.neg = some m → m.active = none → m.todo = b :: rest → (m.target = 1 ∨ m.target = 2) →
      (let k := min 4 ((if m.target = 1 then s.pow.kIdle else s.pow.kStandby) + 1)
      (s.blockReason b = 0 → rest ≠ [] → Leaves s (.blockAnswer false) { s with pow := { s.pow with neg := some { m with stopped := m.stopped ++ [b], todo := rest } } }) ∧
      (s.blockReason b ≠ 0 → m.record = none → ∃ n, exec (.blockAnswer false) s = .next n ∧ SleepRefused s n m b (s.blockReason b) k ∧ { n with pow := s.pow, irq := s.irq } = s) ∧
      (m.record = none → (∃ n, exec (.blockAnswer true) s = .next n ∧ SleepRefused s n m b 1 k ∧ { n with pow := s.pow, irq := s.irq } = s) ∧
        (∃ n, exec .blockTimeout s = .next n ∧ SleepRefused s n m b 2 k ∧ { n with pow := s.pow, irq := s.irq } = s)) ∧
      (s.blockReason b ≠ 0 → m.record = some a → TakingEffect s a x → ∃ n, exec (.blockAnswer false) s = .next n ∧ SleepRefused s n m b (s.blockReason b) k ∧
        DoneAs n a 3 [BitVec.ofNat 8 b, BitVec.ofNat 8 (s.blockReason b)] ∧ n.led.current = none) ∧
      (s.blockReason b = 0 → rest = [] → m.target = 1 → m.record = none → ∃ n, exec (.blockAnswer false) s = .next n ∧ n.pow = { s.pow with neg := none, kIdle := 0, state := .idle } ∧
        (∀ q, q < 80 → (n.quire q).power = .gated) ∧ n.rooms = s.rooms ∧ n.led = s.led) ∧
      (s.blockReason b = 0 → rest = [] → m.target = 2 → m.record = some a → TakingEffect s a x → ∃ n, exec (.blockAnswer false) s = .next n ∧
        n.pow = { s.pow with neg := none, kStandby := 0, standbyDue := true } ∧ DoneAs n a 0 []))) ∧
    (∀ y, s.pow.neg = some m → m.active = some y → (m.target = 1 ∨ m.target = 2) → m.record = none →
      ∃ n, exec (.blockAnswer false) s = .next n ∧ SleepRefused s n m y 1 (min 4 ((if m.target = 1 then s.pow.kIdle else s.pow.kStandby) + 1))) ∧
    (s.hubOn = true → s.pow.standbyDue = true → LosesHub s .standbyEntry .standby 6 fun n => n.pow.byRequest = true) ∧
    (s.pow.standbyDue = false → exec .standbyEntry s = .next s)

/-- FREE_QUIRE_GATE, QUIRE_GATE, QUIRE_GATING_DONE, QUIRE_WAKE and QUIRE_WAKE_DONE gate and wake quires as R523 to R526 say (R269, R523, R524, R525, R526, R529). -/
def Obligations.QuiresAreGatedAndWoken : Prop :=
  ∀ (s : State) (r : Req) (room : BitVec 8) (mask : BitVec 80) (q : QuireId) (m : Negotiation) (a : W64) (x : Record),
    (s.pow.state = .run → s.pow.neg = none → s.quireRoom q = none → (s.quire q).power = .on →
      (s.cfgN 0x9010 2 ≠ 0 → Leaves s (.freeQuireGate q) { s with pow := { s.pow with neg := some { target := 3, stopped := [], todo := [q.val], record := none, room := none } } }) ∧
      (s.cfgN 0x9010 2 = 0 → exec (.freeQuireGate q) s = .next s)) ∧
    (s.quireRoom q ≠ none → exec (.freeQuireGate q) s = .next s) ∧
    (let v := [room] ++ leBytes 10 mask.toNat
      let named : List Nat := (List.range 80).filter fun i => mask.getLsbD i
      (Admits s r 0x9002 1 v →
        (room.toNat < 16 → (s.room room.toNat).isFormed = true → (∀ i ∈ named, i ∈ s.roomQuires room.toNat) →
          ((∃ i ∈ named, (s.quire i).power = .on) → Begun s (.quireGate r room mask) r 0x9002 1 v fun n => n.pow = { s.pow with neg := some { target := 3, stopped := [], todo := named.filter fun i => decide ((s.quire i).power = .on), record := some s.led.nextAcc, room := some (toRoom room.toNat) } }) ∧
          ((∀ i ∈ named, (s.quire i).power ≠ .on) → Journaled s (.quireGate r room mask) r 0x9002 1 v 0 [255, 0] (ReplyOnly s))) ∧
        (room.toNat < 16 → (s.room room.toNat).isFormed = true → (∃ i ∈ named, i ∉ s.roomQuires room.toNat) → Refused s (.quireGate r room mask) r 0x9002 1 v 2) ∧
        ((16 ≤ room.toNat ∨ (s.room room.toNat).isFormed = false) → Refused s (.quireGate r room mask) r 0x9002 1 v 3)) ∧
      (Admits s r 0x9002 2 v → room.toNat < 16 → (s.room room.toNat).isFormed = true → (∀ i ∈ named, i ∈ s.roomQuires room.toNat) →
        ((∀ i ∈ named, (s.quire i).power = .on) → Journaled s (.quireWake r room mask) r 0x9002 2 v 0 [] (ReplyOnly s)) ∧
        ((∃ i ∈ named, (s.quire i).power = .gated) → Begun s (.quireWake r room mask) r 0x9002 2 v fun n =>
          (∀ i ∈ named, (s.quire i).power = .gated → (n.quire i).power = .waking) ∧ (∀ i, i ∉ named → n.quire i = s.quire i) ∧ n.pow = s.pow))) ∧
    (s.pow.neg = some m → m.target = 3 → m.active = none →
      (∀ b, m.todo = [b] → s.quireReason b = 0 → ∃ n, exec (.blockAnswer false) s = .next n ∧ (∀ i ∈ m.stopped ++ [b], (n.quire i).power = .gating) ∧
        n.pow.neg = some { m with stopped := m.stopped ++ [b], todo := [] } ∧ ∀ i, i ∉ m.stopped ++ [b] → n.quire i = s.quire i) ∧
      (m.todo = [] → (∀ i ∈ m.stopped, i < 80 ∧ (s.quire i).power = .gating ∧ s.quireReason i = 0 ∧ ∀ c ∈ quireChans i, chanIdle (s.chan c) = true) → m.record = some a → TakingEffect s a x →
        ∃ n, exec .quireGatingDone s = .next n ∧ n.pow = { s.pow with neg := none } ∧ DoneAs n a 0 [255, 0] ∧
          (∀ i ∈ m.stopped, (n.quire i).power = .gated ∧ (n.quire i).lines = [] ∧ (n.quire i).cue = [] ∧ (n.quire i).chan = (s.quire i).chan ∧ ∀ t ∈ quireTiles i, n.tile t = {}) ∧
          (∀ i, i ∉ m.stopped → n.quire i = s.quire i)) ∧
      (∀ i, m.todo = [] → (m.stopped.find? (fun j => decide ((s.quire j).power ≠ .gating)) = some i ∨
          ((∀ j ∈ m.stopped, (s.quire j).power = .gating) ∧ m.stopped.find? (fun j => decide (s.quireReason j ≠ 0)) = some i)) → m.record = some a → TakingEffect s a x →
        ∃ n, exec .quireGatingDone s = .next n ∧ n.pow.neg = none ∧ DoneAs n a 3 [BitVec.ofNat 8 i, 1] ∧
          (∀ j ∈ m.stopped, (s.quire j).power = .gating → (n.quire j).power = .on) ∧ n.pow.kIdle = s.pow.kIdle ∧ n.pow.kStandby = s.pow.kStandby)) ∧
    ((s.quire q).power = .waking → (s.quire q).held = [] → (s.quire q).launches = [] → (∀ f, (s.fn f).held = []) → s.led.current = none →
      ∃ n, exec (.quireWakeDone q) s = .next n ∧ (n.quire q).power = .on ∧ (∀ i, i ≠ q.val → n.quire i = s.quire i) ∧
        (∀ t ∈ quireTiles q, ∀ i, i < 0x200000 → n.byteAt (scratchBase t + i) = 0) ∧ n.pow = s.pow ∧ n.rooms = s.rooms ∧ n.tiles = s.tiles) ∧
    ((s.quire q).power ≠ .waking → exec (.quireWakeDone q) s = .next s)

/-- Supply events, wake pins, POWER_ON and BROWN_OUT move the part between OFF, STANDBY and RUN as R532 to R577 say (R489, R532, R534, R536, R537, R538, R565, R567, R568, R570, R576, R577). -/
def Obligations.SuppliesAndWakesMoveThePart : Prop :=
  ∀ (s : State) (asel : BitVec 2) (pin : Fin 2) (level : Bool),
    (s.pow.state = .off → ∃ n, exec (.auxGood asel) s = .next n ∧ n.pow.state = .standby ∧ n.pow.auxOk = true ∧ n.pow.byRequest = false ∧ n.pow.cause = 1 ∧ n.bil = { s.bil with asel := asel } ∧
      (n.pow.starting = true ↔ s.pow.starting = true ∨ (s.pow.inputOk = true ∧ s.pow.thermal = false)) ∧ { n with pow := s.pow, bil := s.bil } = s) ∧
    (s.pow.state ≠ .off → exec (.auxGood asel) s = .next s) ∧
    (s.pow.starting = true → s.pow.inputOk = true → s.pow.auxOk = true →
      exec .powerOn s = .next { s with pow := { s.pow with starting := false, byRequest := false, state := .run, boot := .rom } }) ∧
    (s.pow.starting = false → exec .powerOn s = .next s) ∧
    (s.pow.inputOk = true → s.hubOn = true → ∃ n, exec .inputLost s = .next n ∧ n.pow = { s.pow with inputOk := false, onHoldup := true, neg := none } ∧ n.led = { s.led with closed := true } ∧
      n.vault = { s.vault with jobs := s.vault.jobs.map fun j => { j with stop := some 3 } } ∧ n.tiles = [] ∧ n.quires = [] ∧ n.sdma = [] ∧ n.wins = [] ∧ (∀ k, (n.room k).state = .free) ∧
      { n with pow := s.pow, led := s.led, vault := s.vault, tiles := s.tiles, quires := s.quires, sdma := s.sdma, wins := s.wins, rooms := s.rooms, irq := s.irq } = s) ∧
    (s.pow.inputOk = false → exec .inputLost s = .next s) ∧
    (s.hubOn = true → s.pow.onHoldup = true → LosesHub s .holdupExhausted .standby 7 fun n => n.pow.byRequest = false ∧ n.pow.starting = false) ∧
    (s.pow.onHoldup = false → exec .holdupExhausted s = .next s) ∧
    (s.pow.inputOk = false → s.pow.state = .standby → s.pow.auxOk = true → s.pow.starting = false →
      (s.pow.byRequest = false → s.pow.thermal = false → ∃ n, exec .inputReturn s = .next n ∧ n.pow.inputOk = true ∧ n.pow.starting = true ∧ n.pow.island.wakeCause = (if s.pow.cause = 7 then 5 else 0) ∧ { n with pow := s.pow } = s) ∧
      (s.pow.byRequest = true → s.pow.heldWake = false → exec .inputReturn s = .next { s with pow := { s.pow with inputOk := true } }) ∧
      (s.pow.byRequest = true → s.pow.heldWake = true → exec .inputReturn s = .next { s with pow := { s.pow with inputOk := true, starting := true, heldWake := false } })) ∧
    (s.pow.state ≠ .off → LosesHub s .auxLost .off 1 fun n => n.pow.auxOk = false ∧ n.pow.byRequest = false ∧ n.pow.heldWake = false ∧ n.bil.smbusHeld = none) ∧
    (s.pow.state = .off → exec .auxLost s = .next s) ∧
    (let en := if pin = 0 then s.pow.island.pinA else s.pow.island.pinB
      let lv := if pin = 0 then s.pow.island.pinALevel else s.pow.island.pinBLevel
      (en = true → lv = level → s.pow.state = .standby → s.pow.byRequest = true → s.pow.starting = false →
        (s.pow.inputOk = true → exec (.wakePin pin level) s = .next { s with pow := { s.pow with starting := true, heldWake := false, island := { s.pow.island with wakeCause := BitVec.ofNat 8 (pin.val + 1) } } }) ∧
        (s.pow.inputOk = false → exec (.wakePin pin level) s = .next { s with pow := { s.pow with heldWake := true, island := { s.pow.island with wakeCause := BitVec.ofNat 8 (pin.val + 1) } } })) ∧
      ((en = false ∨ lv ≠ level) → exec (.wakePin pin level) s = .next s)) ∧
    (s.pow.island.smbusWake = true → s.pow.state = .standby → s.pow.byRequest = true → s.pow.starting = false → s.pow.inputOk = true →
      exec .smbusWake s = .next { s with pow := { s.pow with starting := true, heldWake := false, island := { s.pow.island with wakeCause := 3 } } }) ∧
    (s.pow.state ≠ .off → exec .smbusSclTimeout s = .next (smbusReplied s none) ∧
      ∀ b, s.bil.smbusReply = some b → exec .smbusBlockRead s = .next { s with bil := { s.bil with smbusReply := none }, out := s.out ++ [.smbus b] }) ∧
    (s.pow.state = .standby → exec .brownOut s = .next { s with pow := { s.pow with heldWake := false, island := { s.pow.island with brownouts := s.pow.island.brownouts + 1 } }, bil := { s.bil with smbusHeld := none, smbusReply := none, smbusWait := none } }) ∧
    (s.pow.state ≠ .standby → exec .brownOut s = .next s)

/-- THROTTLE, THROTTLE_RAISE, thermal shutdown and the resets act as R539 to R542 and R577 say (R539, R540, R541, R542, R548, R556, R577). -/
def Obligations.ThrottlesAndResetsActAsStated : Prop :=
  ∀ (s : State) (tenths : Int) (watts : BitVec 16) (r : Req) (v : BitVec 8),
    (s.hubOn = true →
      ((950 < tenths ∨ s.powerLimit < watts.toNat) → s.pow.opPoint ≠ 3 →
        Leaves s (.throttle tenths watts) { s with pow := { s.pow with hottest := tenths, watts := watts, opPoint := s.pow.opPoint + 1, throttles := s.pow.throttles + 1 } }) ∧
      (((tenths ≤ 950 ∧ watts.toNat ≤ s.powerLimit) ∨ s.pow.opPoint = 3) → Leaves s (.throttle tenths watts) { s with pow := { s.pow with hottest := tenths, watts := watts } }) ∧
      (tenths ≤ 900 → 100 * watts.toNat ≤ 95 * s.powerLimit → s.cfgN 0x9020 1 < s.pow.opPoint.val →
        Leaves s (.throttleRaise tenths watts) { s with pow := { s.pow with hottest := tenths, watts := watts, opPoint := s.pow.opPoint - 1 } }) ∧
      ((900 < tenths ∨ 95 * s.powerLimit < 100 * watts.toNat ∨ s.pow.opPoint.val ≤ s.cfgN 0x9020 1) →
        Leaves s (.throttleRaise tenths watts) { s with pow := { s.pow with hottest := tenths, watts := watts } }) ∧
      (1100 < tenths → LosesHub s (.thermalShutdown tenths) .standby 5 fun n => n.pow.thermal = true ∧ n.pow.byRequest = false ∧ n.pow.hottest = tenths) ∧
      (tenths ≤ 1100 → Leaves s (.thermalShutdown tenths) { s with pow := { s.pow with hottest := tenths } }) ∧
      (LosesHub s .sysRstN .run 2 fun n => n.pow.inReset = true) ∧
      ((s.pow.boot = .steward ∨ s.booted = true) → ∃ n, exec .watchdog s = .next n ∧ n.pow.state = .run ∧ n.pow.boot = .rom ∧ n.pow.cause = 4 ∧ n.mem = [] ∧ n.tiles = [] ∧ n.pow.store.active1 = s.pow.store.active1 ∧
        n.pow.store.active2 = s.pow.store.active2 ∧ n.pow.store.image = s.pow.store.image ∧
        (s.pow.store.fresh = true → s.pow.boot = .steward → s.pow.store.failed = 2 → n.pow.store.next1 = !s.pow.store.active1 ∧ n.pow.store.fresh = false ∧ n.pow.store.failed = 0) ∧
        (s.pow.store.fresh = true → s.pow.boot = .steward → s.pow.store.failed < 2 → n.pow.store.next1 = s.pow.store.next1 ∧ n.pow.store.failed = s.pow.store.failed + 1) ∧
        (s.booted = true → s.pow.store.failed < 3 → n.pow.store = s.pow.store))) ∧
    (s.hubOn = false → exec .sysRstN s = .next { s with pow := { s.pow with inReset := true } } ∧ exec .watchdog s = .next s ∧ exec (.thermalShutdown tenths) s = .next s) ∧
    exec .sysRstNRelease s = .next { s with pow := { s.pow with inReset := false } } ∧
    (s.pow.thermal = true → tenths < 850 → s.pow.state = .standby → s.pow.byRequest = false → s.pow.auxOk = true → s.pow.starting = false →
      ∃ n, exec (.thermalRecovery tenths) s = .next n ∧ n.pow.thermal = false ∧ n.pow.hottest = tenths ∧ n.pow.starting = s.pow.inputOk ∧ { n with pow := s.pow } = s) ∧
    ((s.pow.thermal = false ∨ 850 ≤ tenths) → exec (.thermalRecovery tenths) s = .next s) ∧
    (Admits s r 0x9001 2 [v] →
      ((v = 2 ∨ (v = 1 ∧ s.anyFormed = false)) → ∃ n x, exec (.deviceReset r v) s = .next n ∧ n.pow.state = .run ∧ n.pow.boot = .rom ∧ n.pow.cause = 3 ∧ n.pow.resetPos = s.posOrZero ∧
        n.mem = [] ∧ n.tiles = [] ∧ n.quires = [] ∧ n.vault.objects = s.vault.objects ∧ n.pow.island = s.pow.island ∧
        n.record s.led.nextAcc = some x ∧ x.done = true ∧ x.status = 0 ∧ x.index = 0x9001 ∧ x.sub = 2 ∧ x.value = [v]) ∧
      (v = 1 → s.anyFormed = true → Refused s (.deviceReset r v) r 0x9001 2 [v] 3) ∧
      (v ≠ 1 → v ≠ 2 → Refused s (.deviceReset r v) r 0x9001 2 [v] 2))

/-- FW_CHUNK, FW_COMMIT, FW_SELECT and SECURITY_RAISE act on the inactive slot, the next slots and the minimum as R553 to R555 say (R546, R547, R548, R550, R553, R554, R555). -/
def Obligations.FirmwareIsStagedCommittedAndSelected : Prop :=
  ∀ (s : State) (r : Req) (kind : BitVec 8) (off len : W32) (data : List Byte) (val : BitVec 16), (kind = 1 ∨ kind = 2) →
    let k := kind.toNat
    let b := !s.pow.store.active k
    let x := s.image k b
    let keep : State → State → Prop := fun t n => ReplyOnly { s with pow := { s.pow with store := t.pow.store } } n
    (let v := [kind] ++ leBytes 4 off.toNat ++ data;
      Admits s r 0x9031 1 v →
        (off.toNat % 4096 = 0 → off.toNat + data.length ≤ 256 + maxBody k → Journaled s (.fwChunk r kind off data) r 0x9031 1 v 0 [] fun n => keep n n ∧
          (∀ i, imageByte k (n.image k b) i = if off.toNat ≤ i ∧ i < off.toNat + data.length then data.getD (i - off.toNat) 0 else imageByte k x i) ∧
          (∀ j c, (j = 1 ∨ j = 2) → (j ≠ k ∨ c ≠ b) → n.image j c = s.image j c) ∧ { n.pow.store with image := s.pow.store.image } = s.pow.store) ∧
        ((off.toNat % 4096 ≠ 0 ∨ 256 + maxBody k < off.toNat + data.length) → Refused s (.fwChunk r kind off data) r 0x9031 1 v 2) ∧
        recordedValue 0x9031 1 v = [kind] ++ leBytes 4 off.toNat ++ leBytes 4 data.length ++ padTo 48 (Config.sha384 data) ∧ (recordedValue 0x9031 1 v).length = 57) ∧
    (let v := [kind] ++ leBytes 4 len.toNat;
      Admits s r 0x9031 2 v →
        (s.imageCode k x = 0 → len.toNat = 256 + imageLength k x → ∃ p : Bool, Journaled s (.fwCommit r kind len) r 0x9031 2 v 0 [0, BitVec.ofNat 8 p.toNat] (fun n => keep n n ∧
            n.pow.store = (if k = 1 then { s.pow.store with next1 := b } else { s.pow.store with next2 := b })) ∧
          p = (if k = 1 then paired x (s.image 2 (s.pow.store.active 2)) else paired (s.image 1 (s.pow.store.active 1)) x)) ∧
        (s.imageCode k x ≠ 0 → len.toNat = 256 + imageLength k x → Journaled s (.fwCommit r kind len) r 0x9031 2 v 3 [BitVec.ofNat 8 (s.imageCode k x), 0] (ReplyOnly s)) ∧
        (s.imageCode k x = 0 → len.toNat ≠ 256 + imageLength k x → Journaled s (.fwCommit r kind len) r 0x9031 2 v 3 [6, 0] (ReplyOnly s))) ∧
    (Admits s r 0x9031 3 [kind] →
      (s.imageValid k b = true → Journaled s (.fwSelect r kind) r 0x9031 3 [kind] 0 [] fun n => keep n n ∧
        n.pow.store = (if k = 1 then { s.pow.store with next1 := b } else { s.pow.store with next2 := b })) ∧
      (s.imageValid k b = false → Refused s (.fwSelect r kind) r 0x9031 3 [kind] 3)) ∧
    (let v := [kind] ++ leBytes 2 val.toNat;
      Admits s r 0x9031 4 v →
        (s.minSec k ≤ val.toNat → val.toNat ≤ imageSecurity k (s.image k (s.pow.store.active k)) → Journaled s (.securityRaise r kind val) r 0x9031 4 v 0 [] fun n => keep n n ∧
          n.pow.store = (if k = 1 then { s.pow.store with minSec1 := val } else { s.pow.store with minSec2 := val })) ∧
        ((val.toNat < s.minSec k ∨ imageSecurity k (s.image k (s.pow.store.active k)) < val.toNat) → Refused s (.securityRaise r kind val) r 0x9031 4 v 2))

/-- ROM, VERIFY and STEWARD boot a verified image, and a HELD part refuses what R552 does not list (R544, R547, R548, R549, R551, R552, R554, R577). -/
def Obligations.ThePartBootsVerifiedAndHeldRefuses : Prop :=
  ∀ (s : State) (c : Bool),
    (s.hubOn = true → s.pow.boot = .rom →
      (s.pow.inReset = false → ∃ n, exec .rom s = .next n ∧ n.pow.boot = .ledger ∧ n.pow.store.active1 = s.pow.store.next1 ∧ n.pow.store.active2 = s.pow.store.next2 ∧
        n.pow.store.image = s.pow.store.image ∧ (n.pow.store.fresh = true ↔ s.pow.store.fresh = true ∨ s.pow.store.next1 ≠ s.pow.store.active1) ∧ { n with pow := s.pow } = s) ∧
      (s.pow.inReset = true → exec .rom s = .next s)) ∧
    (s.pow.boot ≠ .rom → exec .rom s = .next s) ∧
    (s.hubOn = true → s.pow.boot = .verify → s.bil.smbusHeld = none → c = s.pow.store.active1 →
      (s.imageValid 1 c = true → ∃ n, exec .verify s = .next n ∧ n.pow.boot = .steward ∧ n.pow.store.used1 = c ∧ n.pow.store.fallback = false ∧ n.pow.bootLog = s.pow.bootLog ∧
        n.pow.island.steward = BitVec.ofNat 32 (imageVersion 1 (s.image 1 c)) ∧ { n with pow := s.pow, irq := s.irq } = s) ∧
      (s.imageValid 1 c = false → s.imageValid 1 (!c) = true → ∃ n, exec .verify s = .next n ∧ n.pow.boot = .steward ∧ n.pow.store.used1 = (!c) ∧ n.pow.store.fallback = true ∧
        { n with pow := s.pow, irq := s.irq } = s) ∧
      (s.imageValid 1 c = false → s.imageValid 1 (!c) = false → ∃ n, exec .verify s = .next n ∧ n.pow.boot = .recovery ∧
        n.pow.bootLog = lastN 16 (s.pow.bootLog ++ [⟨s.pow.incarnation, BitVec.ofNat 8 c.toNat, BitVec.ofNat 8 s.pow.store.active2.toNat, false, 6⟩]) ∧ { n with pow := s.pow, irq := s.irq } = s)) ∧
    (s.pow.boot ≠ .verify → exec .verify s = .next s) ∧
    (s.hubOn = true → s.pow.boot = .steward → c = s.pow.store.active2 →
      (∀ d, (d = c ∨ (d = !c ∧ s.imageValid 2 c = false)) → s.imageValid 2 d = true →
        ∃ n, exec .steward s = .next n ∧ n.pow.store.used2 = d ∧ n.pow.store.fresh = false ∧ n.pow.store.failed = 0 ∧ (n.pow.store.fallback = true ↔ s.pow.store.fallback = true ∨ d ≠ c) ∧
          (paired (s.image 1 s.pow.store.used1) (s.image 2 d) = true → n.pow.boot = .ready ∧ n.pow.heldReason = 0) ∧
          (paired (s.image 1 s.pow.store.used1) (s.image 2 d) = false → n.pow.boot = .held ∧ n.pow.heldReason = 1) ∧ { n with pow := s.pow, irq := s.irq } = s) ∧
      (s.imageValid 2 c = false → s.imageValid 2 (!c) = false → ∃ n, exec .steward s = .next n ∧ n.pow.boot = .held ∧ n.pow.heldReason = 2 ∧ { n with pow := s.pow, irq := s.irq } = s)) ∧
    (s.pow.boot ≠ .steward → exec .steward s = .next s) ∧
    (∀ (r : Req) (f : FormRec) (room w perm : BitVec 8) (plan : BitVec 8) (mask : BitVec 16) (l : List FormRec) (job tag : W32) (a z : W64) (o t m i : BitVec 16), s.pow.boot = .held →
      let Ready : Nat → Nat → List Byte → Prop := fun idx sub v => Admits { s with pow := { s.pow with boot := .ready } } r idx sub v
      (Ready 0x3001 1 (formBytes f) → Journaled s (.roomForm r f) r 0x3001 1 (formBytes f) 3 [] fun n =>
        ReplyOnly { s with dev := { s.dev with refusal := { status := 3, room := f.room, plan := 255, formation := 0, order := 1 } } } n) ∧
      (Ready 0x3001 2 [room] → Refused s (.roomDissolve r room) r 0x3001 2 [room] 3) ∧
      (let v := [plan] ++ leBytes 2 mask.toNat ++ l.flatMap fun g => leBytes 2 (formBytes g).length ++ formBytes g;
        Ready 0x3020 1 v → Refused s (.planWrite r plan mask l) r 0x3020 1 v 3) ∧
      (let v := [w, room, perm] ++ leBytes 4 job.toNat ++ leBytes 8 a.toNat ++ leBytes 8 z.toNat;
        Ready 0x6200 1 v → Refused s (.windowOpen r w room perm job a z) r 0x6200 1 v 3) ∧
      (let v := [room] ++ leBytes 2 o.toNat ++ leBytes 4 tag.toNat ++ leBytes 8 a.toNat ++ leBytes 8 z.toNat ++ leBytes 2 t.toNat ++ leBytes 2 m.toNat;
        Ready 0x7101 1 v → Refused s (.vaultWrite r room o tag a z t m) r 0x7101 1 v 3) ∧
      (let v := leBytes 2 i.toNat ++ leBytes 8 a.toNat ++ leBytes 8 z.toNat ++ leBytes 8 a.toNat ++ leBytes 8 z.toNat;
        Ready 0x2041 1 v → Refused s (.armDeviceCue r i a z a z) r 0x2041 1 v 3))

/-- A step runs the command at the front of the queue on the queue's rest, an empty queue idles, and no command stops the machine (R2). -/
def Obligations.StepRunsTheCommandInFront : Prop :=
  (∀ (s : State) (c : Instr) (rest : List Instr), step { s with pending := c :: rest } = exec c { s with pending := rest }) ∧
  (∀ s : State, s.pending = [] → step s = .next s) ∧
  (∀ (s : State) (c : Instr), ∃ n, exec c s = .next n) ∧
  Sys2Proof.core.step = step ∧ Sys2Proof.core.reset = State.reset

/-- After reset the part is in boot state ROM with everything stopped, closed, free and disarmed, and its memory and logs are well formed (R42, R67, R128, R174, R308, R350, R375, R403, R470, R495, R520, R544). -/
def Obligations.ResetIsThePowerOnState : Prop :=
  let s := State.reset
  s.clk.state = .free ∧ s.clk.pos = 0 ∧ (∀ t, (s.tile t).run = .stopped ∧ (s.tile t).sw = 0xF000 ∧ (s.tile t).sb = []) ∧ (∀ c, (s.cueAt c).arm = false) ∧ (∀ t, s.tally t = 0) ∧
  (∀ c, (s.chan c).state = .idle) ∧ (∀ w, (s.window w).isOpen = false) ∧ (∀ p, (s.port p).state = .down) ∧ (∀ k, (s.room k).state = .free) ∧ (∀ o v, (s.irVec o v).last = 7) ∧
  (∀ p, (s.pipe p).owner = none) ∧ s.led.recs = [] ∧ s.led.nextAcc = 1 ∧ s.pow.state = .run ∧ s.pow.boot = .rom ∧ s.pending = [] ∧ CanonicalMemory s ∧ LogsBounded s

/-- Every step keeps memory and its syndromes in canonical form (R245, R270, R357). -/
def Obligations.MemoryStaysCanonical : Prop :=
  ∀ s n : State, CanonicalMemory s → step s = .next n → CanonicalMemory n

/-- Every step keeps the logs, waiting events and sessions within the bounds that the spec gives them (R252, R283, R367, R449, R479, R557). -/
def Obligations.LogsStayBounded : Prop :=
  ∀ s n : State, LogsBounded s → step s = .next n → LogsBounded n
end

