-- ==== Sys2Proof/Laws/Table.lean ====
section
/-! SUPPORT. Tables: reads after writes, and the canonical form. -/

namespace Sys2Proof.Machine

section
variable {α : Type} [DecidableEq α] {d : α}

omit [DecidableEq α] in
theorem Tbl.get_ins_same (t : Tbl α) (n : Nat) (v : α) : Tbl.get d (Tbl.ins n v t) n = v := by
  induction t with
  | nil => simp [Tbl.ins, Tbl.get]
  | cons e t ih =>
    obtain ⟨k, w⟩ := e
    by_cases h : n < k
    · simp [Tbl.ins, Tbl.get, h]
    · by_cases h' : n = k <;> simp [Tbl.ins, Tbl.get, h, h', ih]

omit [DecidableEq α] in
theorem Tbl.get_ins_ne (t : Tbl α) {n m : Nat} (v : α) (hm : m ≠ n) : Tbl.get d (Tbl.ins n v t) m = Tbl.get d t m := by
  induction t with
  | nil => simp [Tbl.ins, Tbl.get, hm]
  | cons e t ih =>
    obtain ⟨k, w⟩ := e
    by_cases h : n < k
    · simp [Tbl.ins, Tbl.get, h, hm]
    · by_cases h' : n = k
      · subst h'; simp [Tbl.ins, Tbl.get, hm]
      · simp [Tbl.ins, Tbl.get, h, h', ih]

omit [DecidableEq α] in
theorem Tbl.get_remove_same (t : Tbl α) (n : Nat) : Tbl.get d (t.filter fun e => e.1 ≠ n) n = d := by
  induction t with
  | nil => rfl
  | cons e t ih =>
    obtain ⟨k, w⟩ := e
    by_cases h : k = n
    · simpa [h] using ih
    · simpa [Tbl.get, h, Ne.symm h] using ih

omit [DecidableEq α] in
theorem Tbl.get_remove_ne (t : Tbl α) {n m : Nat} (hm : m ≠ n) : Tbl.get d (t.filter fun e => e.1 ≠ n) m = Tbl.get d t m := by
  induction t with
  | nil => rfl
  | cons e t ih =>
    obtain ⟨k, w⟩ := e
    by_cases h : k = n
    · subst h; simpa [Tbl.get, hm] using ih
    · by_cases h' : m = k
      · subst h'; simp [Tbl.get, h]
      · simpa [Tbl.get, h, h'] using ih

/-- A read after a write of the same number gives the value written. -/
@[simp] theorem Tbl.get_put_same (t : Tbl α) (n : Nat) (v : α) : Tbl.get d (Tbl.put d t n v) n = v := by
  unfold Tbl.put
  split
  · rename_i h; subst h; exact Tbl.get_remove_same t n
  · exact Tbl.get_ins_same t n v

/-- A write leaves every other number alone. -/
theorem Tbl.get_put_ne (t : Tbl α) {n m : Nat} (v : α) (hm : m ≠ n) : Tbl.get d (Tbl.put d t n v) m = Tbl.get d t m := by
  unfold Tbl.put
  split
  · exact Tbl.get_remove_ne t hm
  · exact Tbl.get_ins_ne t v hm

/-- A read after a write, by cases. -/
theorem Tbl.get_put (t : Tbl α) (n m : Nat) (v : α) : Tbl.get d (Tbl.put d t n v) m = if m = n then v else Tbl.get d t m := by
  split
  · rename_i h; subst h; exact Tbl.get_put_same t m v
  · rename_i h; exact Tbl.get_put_ne t v h

omit [DecidableEq α] in
@[simp] theorem Tbl.get_nil (n : Nat) : Tbl.get d [] n = d := rfl

/-! ### The canonical form -/

theorem Tbl.wfFrom_weaken {b c : Option Nat} {t : Tbl α} (hbc : ∀ n, b = some n → ∃ m, c = some m ∧ n ≤ m) (h : Tbl.wfFrom d c t = true) :
    Tbl.wfFrom d b t = true := by
  cases t with
  | nil => rfl
  | cons e t =>
    obtain ⟨k, w⟩ := e
    simp only [Tbl.wfFrom, Bool.and_eq_true] at h ⊢
    refine ⟨⟨?_, h.1.2⟩, h.2⟩
    cases b with
    | none => rfl
    | some n =>
      obtain ⟨m, rfl, hm⟩ := hbc n rfl
      simp only [decide_eq_true_eq] at h ⊢
      omega

theorem Tbl.wfFrom_ins {b : Option Nat} {t : Tbl α} {n : Nat} {v : α} (hv : v ≠ d) (hb : ∀ k, b = some k → k < n) (h : Tbl.wfFrom d b t = true) :
    Tbl.wfFrom d b (Tbl.ins n v t) = true := by
  induction t generalizing b with
  | nil => cases b with
    | none => simp [Tbl.ins, Tbl.wfFrom, hv]
    | some k => simp [Tbl.ins, Tbl.wfFrom, hv, hb k rfl]
  | cons e t ih =>
    obtain ⟨k, w⟩ := e
    simp only [Tbl.wfFrom, Bool.and_eq_true, decide_eq_true_eq] at h
    by_cases h1 : n < k
    · simp only [Tbl.ins, h1, if_true, Tbl.wfFrom, Bool.and_eq_true, decide_eq_true_eq]
      exact ⟨⟨by cases b with | none => rfl | some m => simpa using hb m rfl, by simpa using hv⟩, ⟨by simpa using h1, h.1.2⟩, h.2⟩
    · by_cases h2 : n = k
      · subst h2
        simp only [Tbl.ins, h1, if_false, if_true, Tbl.wfFrom, Bool.and_eq_true]
        exact ⟨⟨by cases b with | none => rfl | some m => simpa using hb m rfl, by simpa using hv⟩, h.2⟩
      · simp only [Tbl.ins, h1, h2, if_false, Tbl.wfFrom, Bool.and_eq_true]
        exact ⟨⟨h.1.1, by simpa using h.1.2⟩, ih (fun m hm => by cases hm; omega) h.2⟩

theorem Tbl.wfFrom_filter {b : Option Nat} {t : Tbl α} (p : Nat × α → Bool) (h : Tbl.wfFrom d b t = true) : Tbl.wfFrom d b (t.filter p) = true := by
  induction t generalizing b with
  | nil => rfl
  | cons e t ih =>
    obtain ⟨k, w⟩ := e
    simp only [Tbl.wfFrom, Bool.and_eq_true] at h
    by_cases hp : p (k, w) = true
    · simp only [List.filter_cons_of_pos hp, Tbl.wfFrom, Bool.and_eq_true]
      exact ⟨h.1, ih h.2⟩
    · rw [List.filter_cons_of_neg hp]
      refine Tbl.wfFrom_weaken (c := some k) (fun n hn => ⟨k, rfl, ?_⟩) (ih h.2)
      subst hn
      have := h.1.1
      simp only [decide_eq_true_eq] at this
      omega

/-- A write keeps the canonical form. -/
theorem Tbl.wf_put {t : Tbl α} (n : Nat) (v : α) (h : Tbl.wf d t = true) : Tbl.wf d (Tbl.put d t n v) = true := by
  unfold Tbl.put
  split
  · exact Tbl.wfFrom_filter _ h
  · rename_i hv
    exact Tbl.wfFrom_ins hv (fun k hk => by cases hk) h

/-- Clearing a range keeps the canonical form. -/
theorem Tbl.wf_clear {t : Tbl α} (lo hi : Nat) (h : Tbl.wf d t = true) : Tbl.wf d (Tbl.clear t lo hi) = true := Tbl.wfFrom_filter _ h

omit [DecidableEq α] in
/-- A cleared range reads the default, and every other number as before. -/
theorem Tbl.get_clear (t : Tbl α) (lo hi n : Nat) : Tbl.get d (Tbl.clear t lo hi) n = if lo ≤ n ∧ n < hi then d else Tbl.get d t n := by
  induction t with
  | nil => simp [Tbl.clear]
  | cons e t ih =>
    obtain ⟨k, w⟩ := e
    unfold Tbl.clear at ih ⊢
    by_cases h : k < lo ∨ hi ≤ k
    · rw [List.filter_cons_of_pos (by simpa using h)]
      by_cases hn : n = k
      · subst hn; rw [if_neg (by omega)]; simp [Tbl.get]
      · simp [Tbl.get, hn, ih]
    · rw [List.filter_cons_of_neg (by simpa using h), ih]
      by_cases hn : n = k
      · subst hn; rw [if_pos (by omega), if_pos (by omega)]
      · simp [Tbl.get, hn]

end

end Sys2Proof.Machine
end

