-- ==== Sys2Proof/Laws/State.lean ====
section
/-! SUPPORT. What each update of the state leaves alone, and reads after updates. -/

namespace Sys2Proof.Machine

/-! ### setTile -/

@[simp] theorem State.setTile_pending (s : State) (t : Nat) (x : Tile) : (s.setTile t x).pending = s.pending := rfl
@[simp] theorem State.setTile_out (s : State) (t : Nat) (x : Tile) : (s.setTile t x).out = s.out := rfl
@[simp] theorem State.setTile_free (s : State) (t : Nat) (x : Tile) : (s.setTile t x).free = s.free := rfl
@[simp] theorem State.setTile_clk (s : State) (t : Nat) (x : Tile) : (s.setTile t x).clk = s.clk := rfl
@[simp] theorem State.setTile_dev (s : State) (t : Nat) (x : Tile) : (s.setTile t x).dev = s.dev := rfl
@[simp] theorem State.setTile_cue (s : State) (t : Nat) (x : Tile) : (s.setTile t x).cue = s.cue := rfl
@[simp] theorem State.setTile_tal (s : State) (t : Nat) (x : Tile) : (s.setTile t x).tal = s.tal := rfl
@[simp] theorem State.setTile_quires (s : State) (t : Nat) (x : Tile) : (s.setTile t x).quires = s.quires := rfl
@[simp] theorem State.setTile_mem (s : State) (t : Nat) (x : Tile) : (s.setTile t x).mem = s.mem := rfl
@[simp] theorem State.setTile_synd (s : State) (t : Nat) (x : Tile) : (s.setTile t x).synd = s.synd := rfl
@[simp] theorem State.setTile_reb (s : State) (t : Nat) (x : Tile) : (s.setTile t x).reb = s.reb := rfl
@[simp] theorem State.setTile_sdma (s : State) (t : Nat) (x : Tile) : (s.setTile t x).sdma = s.sdma := rfl
@[simp] theorem State.setTile_wins (s : State) (t : Nat) (x : Tile) : (s.setTile t x).wins = s.wins := rfl
@[simp] theorem State.setTile_ports (s : State) (t : Nat) (x : Tile) : (s.setTile t x).ports = s.ports := rfl
@[simp] theorem State.setTile_fab (s : State) (t : Nat) (x : Tile) : (s.setTile t x).fab = s.fab := rfl
@[simp] theorem State.setTile_integ (s : State) (t : Nat) (x : Tile) : (s.setTile t x).integ = s.integ := rfl
@[simp] theorem State.setTile_rooms (s : State) (t : Nat) (x : Tile) : (s.setTile t x).rooms = s.rooms := rfl
@[simp] theorem State.setTile_plans (s : State) (t : Nat) (x : Tile) : (s.setTile t x).plans = s.plans := rfl
@[simp] theorem State.setTile_irq (s : State) (t : Nat) (x : Tile) : (s.setTile t x).irq = s.irq := rfl
@[simp] theorem State.setTile_fns (s : State) (t : Nat) (x : Tile) : (s.setTile t x).fns = s.fns := rfl
@[simp] theorem State.setTile_pcie (s : State) (t : Nat) (x : Tile) : (s.setTile t x).pcie = s.pcie := rfl
@[simp] theorem State.setTile_ent (s : State) (t : Nat) (x : Tile) : (s.setTile t x).ent = s.ent := rfl
@[simp] theorem State.setTile_bil (s : State) (t : Nat) (x : Tile) : (s.setTile t x).bil = s.bil := rfl
@[simp] theorem State.setTile_led (s : State) (t : Nat) (x : Tile) : (s.setTile t x).led = s.led := rfl
@[simp] theorem State.setTile_vault (s : State) (t : Nat) (x : Tile) : (s.setTile t x).vault = s.vault := rfl
@[simp] theorem State.setTile_glz (s : State) (t : Nat) (x : Tile) : (s.setTile t x).glz = s.glz := rfl
@[simp] theorem State.setTile_pow (s : State) (t : Nat) (x : Tile) : (s.setTile t x).pow = s.pow := rfl

/-! ### modTile -/

@[simp] theorem State.modTile_pending (s : State) (t : Nat) (f : Tile → Tile) : (s.modTile t f).pending = s.pending := rfl
@[simp] theorem State.modTile_out (s : State) (t : Nat) (f : Tile → Tile) : (s.modTile t f).out = s.out := rfl
@[simp] theorem State.modTile_free (s : State) (t : Nat) (f : Tile → Tile) : (s.modTile t f).free = s.free := rfl
@[simp] theorem State.modTile_clk (s : State) (t : Nat) (f : Tile → Tile) : (s.modTile t f).clk = s.clk := rfl
@[simp] theorem State.modTile_dev (s : State) (t : Nat) (f : Tile → Tile) : (s.modTile t f).dev = s.dev := rfl
@[simp] theorem State.modTile_cue (s : State) (t : Nat) (f : Tile → Tile) : (s.modTile t f).cue = s.cue := rfl
@[simp] theorem State.modTile_tal (s : State) (t : Nat) (f : Tile → Tile) : (s.modTile t f).tal = s.tal := rfl
@[simp] theorem State.modTile_quires (s : State) (t : Nat) (f : Tile → Tile) : (s.modTile t f).quires = s.quires := rfl
@[simp] theorem State.modTile_mem (s : State) (t : Nat) (f : Tile → Tile) : (s.modTile t f).mem = s.mem := rfl
@[simp] theorem State.modTile_synd (s : State) (t : Nat) (f : Tile → Tile) : (s.modTile t f).synd = s.synd := rfl
@[simp] theorem State.modTile_reb (s : State) (t : Nat) (f : Tile → Tile) : (s.modTile t f).reb = s.reb := rfl
@[simp] theorem State.modTile_sdma (s : State) (t : Nat) (f : Tile → Tile) : (s.modTile t f).sdma = s.sdma := rfl
@[simp] theorem State.modTile_wins (s : State) (t : Nat) (f : Tile → Tile) : (s.modTile t f).wins = s.wins := rfl
@[simp] theorem State.modTile_ports (s : State) (t : Nat) (f : Tile → Tile) : (s.modTile t f).ports = s.ports := rfl
@[simp] theorem State.modTile_fab (s : State) (t : Nat) (f : Tile → Tile) : (s.modTile t f).fab = s.fab := rfl
@[simp] theorem State.modTile_integ (s : State) (t : Nat) (f : Tile → Tile) : (s.modTile t f).integ = s.integ := rfl
@[simp] theorem State.modTile_rooms (s : State) (t : Nat) (f : Tile → Tile) : (s.modTile t f).rooms = s.rooms := rfl
@[simp] theorem State.modTile_plans (s : State) (t : Nat) (f : Tile → Tile) : (s.modTile t f).plans = s.plans := rfl
@[simp] theorem State.modTile_irq (s : State) (t : Nat) (f : Tile → Tile) : (s.modTile t f).irq = s.irq := rfl
@[simp] theorem State.modTile_fns (s : State) (t : Nat) (f : Tile → Tile) : (s.modTile t f).fns = s.fns := rfl
@[simp] theorem State.modTile_pcie (s : State) (t : Nat) (f : Tile → Tile) : (s.modTile t f).pcie = s.pcie := rfl
@[simp] theorem State.modTile_ent (s : State) (t : Nat) (f : Tile → Tile) : (s.modTile t f).ent = s.ent := rfl
@[simp] theorem State.modTile_bil (s : State) (t : Nat) (f : Tile → Tile) : (s.modTile t f).bil = s.bil := rfl
@[simp] theorem State.modTile_led (s : State) (t : Nat) (f : Tile → Tile) : (s.modTile t f).led = s.led := rfl
@[simp] theorem State.modTile_vault (s : State) (t : Nat) (f : Tile → Tile) : (s.modTile t f).vault = s.vault := rfl
@[simp] theorem State.modTile_glz (s : State) (t : Nat) (f : Tile → Tile) : (s.modTile t f).glz = s.glz := rfl
@[simp] theorem State.modTile_pow (s : State) (t : Nat) (f : Tile → Tile) : (s.modTile t f).pow = s.pow := rfl

/-! ### setQuire -/

@[simp] theorem State.setQuire_pending (s : State) (q : Nat) (x : Quire) : (s.setQuire q x).pending = s.pending := rfl
@[simp] theorem State.setQuire_out (s : State) (q : Nat) (x : Quire) : (s.setQuire q x).out = s.out := rfl
@[simp] theorem State.setQuire_free (s : State) (q : Nat) (x : Quire) : (s.setQuire q x).free = s.free := rfl
@[simp] theorem State.setQuire_clk (s : State) (q : Nat) (x : Quire) : (s.setQuire q x).clk = s.clk := rfl
@[simp] theorem State.setQuire_dev (s : State) (q : Nat) (x : Quire) : (s.setQuire q x).dev = s.dev := rfl
@[simp] theorem State.setQuire_cue (s : State) (q : Nat) (x : Quire) : (s.setQuire q x).cue = s.cue := rfl
@[simp] theorem State.setQuire_tal (s : State) (q : Nat) (x : Quire) : (s.setQuire q x).tal = s.tal := rfl
@[simp] theorem State.setQuire_tiles (s : State) (q : Nat) (x : Quire) : (s.setQuire q x).tiles = s.tiles := rfl
@[simp] theorem State.setQuire_mem (s : State) (q : Nat) (x : Quire) : (s.setQuire q x).mem = s.mem := rfl
@[simp] theorem State.setQuire_synd (s : State) (q : Nat) (x : Quire) : (s.setQuire q x).synd = s.synd := rfl
@[simp] theorem State.setQuire_reb (s : State) (q : Nat) (x : Quire) : (s.setQuire q x).reb = s.reb := rfl
@[simp] theorem State.setQuire_sdma (s : State) (q : Nat) (x : Quire) : (s.setQuire q x).sdma = s.sdma := rfl
@[simp] theorem State.setQuire_wins (s : State) (q : Nat) (x : Quire) : (s.setQuire q x).wins = s.wins := rfl
@[simp] theorem State.setQuire_ports (s : State) (q : Nat) (x : Quire) : (s.setQuire q x).ports = s.ports := rfl
@[simp] theorem State.setQuire_fab (s : State) (q : Nat) (x : Quire) : (s.setQuire q x).fab = s.fab := rfl
@[simp] theorem State.setQuire_integ (s : State) (q : Nat) (x : Quire) : (s.setQuire q x).integ = s.integ := rfl
@[simp] theorem State.setQuire_rooms (s : State) (q : Nat) (x : Quire) : (s.setQuire q x).rooms = s.rooms := rfl
@[simp] theorem State.setQuire_plans (s : State) (q : Nat) (x : Quire) : (s.setQuire q x).plans = s.plans := rfl
@[simp] theorem State.setQuire_irq (s : State) (q : Nat) (x : Quire) : (s.setQuire q x).irq = s.irq := rfl
@[simp] theorem State.setQuire_fns (s : State) (q : Nat) (x : Quire) : (s.setQuire q x).fns = s.fns := rfl
@[simp] theorem State.setQuire_pcie (s : State) (q : Nat) (x : Quire) : (s.setQuire q x).pcie = s.pcie := rfl
@[simp] theorem State.setQuire_ent (s : State) (q : Nat) (x : Quire) : (s.setQuire q x).ent = s.ent := rfl
@[simp] theorem State.setQuire_bil (s : State) (q : Nat) (x : Quire) : (s.setQuire q x).bil = s.bil := rfl
@[simp] theorem State.setQuire_led (s : State) (q : Nat) (x : Quire) : (s.setQuire q x).led = s.led := rfl
@[simp] theorem State.setQuire_vault (s : State) (q : Nat) (x : Quire) : (s.setQuire q x).vault = s.vault := rfl
@[simp] theorem State.setQuire_glz (s : State) (q : Nat) (x : Quire) : (s.setQuire q x).glz = s.glz := rfl
@[simp] theorem State.setQuire_pow (s : State) (q : Nat) (x : Quire) : (s.setQuire q x).pow = s.pow := rfl

/-! ### modQuire -/

@[simp] theorem State.modQuire_pending (s : State) (q : Nat) (f : Quire → Quire) : (s.modQuire q f).pending = s.pending := rfl
@[simp] theorem State.modQuire_out (s : State) (q : Nat) (f : Quire → Quire) : (s.modQuire q f).out = s.out := rfl
@[simp] theorem State.modQuire_free (s : State) (q : Nat) (f : Quire → Quire) : (s.modQuire q f).free = s.free := rfl
@[simp] theorem State.modQuire_clk (s : State) (q : Nat) (f : Quire → Quire) : (s.modQuire q f).clk = s.clk := rfl
@[simp] theorem State.modQuire_dev (s : State) (q : Nat) (f : Quire → Quire) : (s.modQuire q f).dev = s.dev := rfl
@[simp] theorem State.modQuire_cue (s : State) (q : Nat) (f : Quire → Quire) : (s.modQuire q f).cue = s.cue := rfl
@[simp] theorem State.modQuire_tal (s : State) (q : Nat) (f : Quire → Quire) : (s.modQuire q f).tal = s.tal := rfl
@[simp] theorem State.modQuire_tiles (s : State) (q : Nat) (f : Quire → Quire) : (s.modQuire q f).tiles = s.tiles := rfl
@[simp] theorem State.modQuire_mem (s : State) (q : Nat) (f : Quire → Quire) : (s.modQuire q f).mem = s.mem := rfl
@[simp] theorem State.modQuire_synd (s : State) (q : Nat) (f : Quire → Quire) : (s.modQuire q f).synd = s.synd := rfl
@[simp] theorem State.modQuire_reb (s : State) (q : Nat) (f : Quire → Quire) : (s.modQuire q f).reb = s.reb := rfl
@[simp] theorem State.modQuire_sdma (s : State) (q : Nat) (f : Quire → Quire) : (s.modQuire q f).sdma = s.sdma := rfl
@[simp] theorem State.modQuire_wins (s : State) (q : Nat) (f : Quire → Quire) : (s.modQuire q f).wins = s.wins := rfl
@[simp] theorem State.modQuire_ports (s : State) (q : Nat) (f : Quire → Quire) : (s.modQuire q f).ports = s.ports := rfl
@[simp] theorem State.modQuire_fab (s : State) (q : Nat) (f : Quire → Quire) : (s.modQuire q f).fab = s.fab := rfl
@[simp] theorem State.modQuire_integ (s : State) (q : Nat) (f : Quire → Quire) : (s.modQuire q f).integ = s.integ := rfl
@[simp] theorem State.modQuire_rooms (s : State) (q : Nat) (f : Quire → Quire) : (s.modQuire q f).rooms = s.rooms := rfl
@[simp] theorem State.modQuire_plans (s : State) (q : Nat) (f : Quire → Quire) : (s.modQuire q f).plans = s.plans := rfl
@[simp] theorem State.modQuire_irq (s : State) (q : Nat) (f : Quire → Quire) : (s.modQuire q f).irq = s.irq := rfl
@[simp] theorem State.modQuire_fns (s : State) (q : Nat) (f : Quire → Quire) : (s.modQuire q f).fns = s.fns := rfl
@[simp] theorem State.modQuire_pcie (s : State) (q : Nat) (f : Quire → Quire) : (s.modQuire q f).pcie = s.pcie := rfl
@[simp] theorem State.modQuire_ent (s : State) (q : Nat) (f : Quire → Quire) : (s.modQuire q f).ent = s.ent := rfl
@[simp] theorem State.modQuire_bil (s : State) (q : Nat) (f : Quire → Quire) : (s.modQuire q f).bil = s.bil := rfl
@[simp] theorem State.modQuire_led (s : State) (q : Nat) (f : Quire → Quire) : (s.modQuire q f).led = s.led := rfl
@[simp] theorem State.modQuire_vault (s : State) (q : Nat) (f : Quire → Quire) : (s.modQuire q f).vault = s.vault := rfl
@[simp] theorem State.modQuire_glz (s : State) (q : Nat) (f : Quire → Quire) : (s.modQuire q f).glz = s.glz := rfl
@[simp] theorem State.modQuire_pow (s : State) (q : Nat) (f : Quire → Quire) : (s.modQuire q f).pow = s.pow := rfl

/-! ### setRoom -/

@[simp] theorem State.setRoom_pending (s : State) (r : Nat) (x : Room) : (s.setRoom r x).pending = s.pending := rfl
@[simp] theorem State.setRoom_out (s : State) (r : Nat) (x : Room) : (s.setRoom r x).out = s.out := rfl
@[simp] theorem State.setRoom_free (s : State) (r : Nat) (x : Room) : (s.setRoom r x).free = s.free := rfl
@[simp] theorem State.setRoom_clk (s : State) (r : Nat) (x : Room) : (s.setRoom r x).clk = s.clk := rfl
@[simp] theorem State.setRoom_dev (s : State) (r : Nat) (x : Room) : (s.setRoom r x).dev = s.dev := rfl
@[simp] theorem State.setRoom_cue (s : State) (r : Nat) (x : Room) : (s.setRoom r x).cue = s.cue := rfl
@[simp] theorem State.setRoom_tal (s : State) (r : Nat) (x : Room) : (s.setRoom r x).tal = s.tal := rfl
@[simp] theorem State.setRoom_tiles (s : State) (r : Nat) (x : Room) : (s.setRoom r x).tiles = s.tiles := rfl
@[simp] theorem State.setRoom_quires (s : State) (r : Nat) (x : Room) : (s.setRoom r x).quires = s.quires := rfl
@[simp] theorem State.setRoom_mem (s : State) (r : Nat) (x : Room) : (s.setRoom r x).mem = s.mem := rfl
@[simp] theorem State.setRoom_synd (s : State) (r : Nat) (x : Room) : (s.setRoom r x).synd = s.synd := rfl
@[simp] theorem State.setRoom_reb (s : State) (r : Nat) (x : Room) : (s.setRoom r x).reb = s.reb := rfl
@[simp] theorem State.setRoom_sdma (s : State) (r : Nat) (x : Room) : (s.setRoom r x).sdma = s.sdma := rfl
@[simp] theorem State.setRoom_wins (s : State) (r : Nat) (x : Room) : (s.setRoom r x).wins = s.wins := rfl
@[simp] theorem State.setRoom_ports (s : State) (r : Nat) (x : Room) : (s.setRoom r x).ports = s.ports := rfl
@[simp] theorem State.setRoom_fab (s : State) (r : Nat) (x : Room) : (s.setRoom r x).fab = s.fab := rfl
@[simp] theorem State.setRoom_integ (s : State) (r : Nat) (x : Room) : (s.setRoom r x).integ = s.integ := rfl
@[simp] theorem State.setRoom_plans (s : State) (r : Nat) (x : Room) : (s.setRoom r x).plans = s.plans := rfl
@[simp] theorem State.setRoom_irq (s : State) (r : Nat) (x : Room) : (s.setRoom r x).irq = s.irq := rfl
@[simp] theorem State.setRoom_fns (s : State) (r : Nat) (x : Room) : (s.setRoom r x).fns = s.fns := rfl
@[simp] theorem State.setRoom_pcie (s : State) (r : Nat) (x : Room) : (s.setRoom r x).pcie = s.pcie := rfl
@[simp] theorem State.setRoom_ent (s : State) (r : Nat) (x : Room) : (s.setRoom r x).ent = s.ent := rfl
@[simp] theorem State.setRoom_bil (s : State) (r : Nat) (x : Room) : (s.setRoom r x).bil = s.bil := rfl
@[simp] theorem State.setRoom_led (s : State) (r : Nat) (x : Room) : (s.setRoom r x).led = s.led := rfl
@[simp] theorem State.setRoom_vault (s : State) (r : Nat) (x : Room) : (s.setRoom r x).vault = s.vault := rfl
@[simp] theorem State.setRoom_glz (s : State) (r : Nat) (x : Room) : (s.setRoom r x).glz = s.glz := rfl
@[simp] theorem State.setRoom_pow (s : State) (r : Nat) (x : Room) : (s.setRoom r x).pow = s.pow := rfl

/-! ### modRoom -/

@[simp] theorem State.modRoom_pending (s : State) (r : Nat) (f : Room → Room) : (s.modRoom r f).pending = s.pending := rfl
@[simp] theorem State.modRoom_out (s : State) (r : Nat) (f : Room → Room) : (s.modRoom r f).out = s.out := rfl
@[simp] theorem State.modRoom_free (s : State) (r : Nat) (f : Room → Room) : (s.modRoom r f).free = s.free := rfl
@[simp] theorem State.modRoom_clk (s : State) (r : Nat) (f : Room → Room) : (s.modRoom r f).clk = s.clk := rfl
@[simp] theorem State.modRoom_dev (s : State) (r : Nat) (f : Room → Room) : (s.modRoom r f).dev = s.dev := rfl
@[simp] theorem State.modRoom_cue (s : State) (r : Nat) (f : Room → Room) : (s.modRoom r f).cue = s.cue := rfl
@[simp] theorem State.modRoom_tal (s : State) (r : Nat) (f : Room → Room) : (s.modRoom r f).tal = s.tal := rfl
@[simp] theorem State.modRoom_tiles (s : State) (r : Nat) (f : Room → Room) : (s.modRoom r f).tiles = s.tiles := rfl
@[simp] theorem State.modRoom_quires (s : State) (r : Nat) (f : Room → Room) : (s.modRoom r f).quires = s.quires := rfl
@[simp] theorem State.modRoom_mem (s : State) (r : Nat) (f : Room → Room) : (s.modRoom r f).mem = s.mem := rfl
@[simp] theorem State.modRoom_synd (s : State) (r : Nat) (f : Room → Room) : (s.modRoom r f).synd = s.synd := rfl
@[simp] theorem State.modRoom_reb (s : State) (r : Nat) (f : Room → Room) : (s.modRoom r f).reb = s.reb := rfl
@[simp] theorem State.modRoom_sdma (s : State) (r : Nat) (f : Room → Room) : (s.modRoom r f).sdma = s.sdma := rfl
@[simp] theorem State.modRoom_wins (s : State) (r : Nat) (f : Room → Room) : (s.modRoom r f).wins = s.wins := rfl
@[simp] theorem State.modRoom_ports (s : State) (r : Nat) (f : Room → Room) : (s.modRoom r f).ports = s.ports := rfl
@[simp] theorem State.modRoom_fab (s : State) (r : Nat) (f : Room → Room) : (s.modRoom r f).fab = s.fab := rfl
@[simp] theorem State.modRoom_integ (s : State) (r : Nat) (f : Room → Room) : (s.modRoom r f).integ = s.integ := rfl
@[simp] theorem State.modRoom_plans (s : State) (r : Nat) (f : Room → Room) : (s.modRoom r f).plans = s.plans := rfl
@[simp] theorem State.modRoom_irq (s : State) (r : Nat) (f : Room → Room) : (s.modRoom r f).irq = s.irq := rfl
@[simp] theorem State.modRoom_fns (s : State) (r : Nat) (f : Room → Room) : (s.modRoom r f).fns = s.fns := rfl
@[simp] theorem State.modRoom_pcie (s : State) (r : Nat) (f : Room → Room) : (s.modRoom r f).pcie = s.pcie := rfl
@[simp] theorem State.modRoom_ent (s : State) (r : Nat) (f : Room → Room) : (s.modRoom r f).ent = s.ent := rfl
@[simp] theorem State.modRoom_bil (s : State) (r : Nat) (f : Room → Room) : (s.modRoom r f).bil = s.bil := rfl
@[simp] theorem State.modRoom_led (s : State) (r : Nat) (f : Room → Room) : (s.modRoom r f).led = s.led := rfl
@[simp] theorem State.modRoom_vault (s : State) (r : Nat) (f : Room → Room) : (s.modRoom r f).vault = s.vault := rfl
@[simp] theorem State.modRoom_glz (s : State) (r : Nat) (f : Room → Room) : (s.modRoom r f).glz = s.glz := rfl
@[simp] theorem State.modRoom_pow (s : State) (r : Nat) (f : Room → Room) : (s.modRoom r f).pow = s.pow := rfl

/-! ### setFn -/

@[simp] theorem State.setFn_pending (s : State) (n : Nat) (x : Fn) : (s.setFn n x).pending = s.pending := rfl
@[simp] theorem State.setFn_out (s : State) (n : Nat) (x : Fn) : (s.setFn n x).out = s.out := rfl
@[simp] theorem State.setFn_free (s : State) (n : Nat) (x : Fn) : (s.setFn n x).free = s.free := rfl
@[simp] theorem State.setFn_clk (s : State) (n : Nat) (x : Fn) : (s.setFn n x).clk = s.clk := rfl
@[simp] theorem State.setFn_dev (s : State) (n : Nat) (x : Fn) : (s.setFn n x).dev = s.dev := rfl
@[simp] theorem State.setFn_cue (s : State) (n : Nat) (x : Fn) : (s.setFn n x).cue = s.cue := rfl
@[simp] theorem State.setFn_tal (s : State) (n : Nat) (x : Fn) : (s.setFn n x).tal = s.tal := rfl
@[simp] theorem State.setFn_tiles (s : State) (n : Nat) (x : Fn) : (s.setFn n x).tiles = s.tiles := rfl
@[simp] theorem State.setFn_quires (s : State) (n : Nat) (x : Fn) : (s.setFn n x).quires = s.quires := rfl
@[simp] theorem State.setFn_mem (s : State) (n : Nat) (x : Fn) : (s.setFn n x).mem = s.mem := rfl
@[simp] theorem State.setFn_synd (s : State) (n : Nat) (x : Fn) : (s.setFn n x).synd = s.synd := rfl
@[simp] theorem State.setFn_reb (s : State) (n : Nat) (x : Fn) : (s.setFn n x).reb = s.reb := rfl
@[simp] theorem State.setFn_sdma (s : State) (n : Nat) (x : Fn) : (s.setFn n x).sdma = s.sdma := rfl
@[simp] theorem State.setFn_wins (s : State) (n : Nat) (x : Fn) : (s.setFn n x).wins = s.wins := rfl
@[simp] theorem State.setFn_ports (s : State) (n : Nat) (x : Fn) : (s.setFn n x).ports = s.ports := rfl
@[simp] theorem State.setFn_fab (s : State) (n : Nat) (x : Fn) : (s.setFn n x).fab = s.fab := rfl
@[simp] theorem State.setFn_integ (s : State) (n : Nat) (x : Fn) : (s.setFn n x).integ = s.integ := rfl
@[simp] theorem State.setFn_rooms (s : State) (n : Nat) (x : Fn) : (s.setFn n x).rooms = s.rooms := rfl
@[simp] theorem State.setFn_plans (s : State) (n : Nat) (x : Fn) : (s.setFn n x).plans = s.plans := rfl
@[simp] theorem State.setFn_irq (s : State) (n : Nat) (x : Fn) : (s.setFn n x).irq = s.irq := rfl
@[simp] theorem State.setFn_pcie (s : State) (n : Nat) (x : Fn) : (s.setFn n x).pcie = s.pcie := rfl
@[simp] theorem State.setFn_ent (s : State) (n : Nat) (x : Fn) : (s.setFn n x).ent = s.ent := rfl
@[simp] theorem State.setFn_bil (s : State) (n : Nat) (x : Fn) : (s.setFn n x).bil = s.bil := rfl
@[simp] theorem State.setFn_led (s : State) (n : Nat) (x : Fn) : (s.setFn n x).led = s.led := rfl
@[simp] theorem State.setFn_vault (s : State) (n : Nat) (x : Fn) : (s.setFn n x).vault = s.vault := rfl
@[simp] theorem State.setFn_glz (s : State) (n : Nat) (x : Fn) : (s.setFn n x).glz = s.glz := rfl
@[simp] theorem State.setFn_pow (s : State) (n : Nat) (x : Fn) : (s.setFn n x).pow = s.pow := rfl

/-! ### modFn -/

@[simp] theorem State.modFn_pending (s : State) (n : Nat) (f : Fn → Fn) : (s.modFn n f).pending = s.pending := rfl
@[simp] theorem State.modFn_out (s : State) (n : Nat) (f : Fn → Fn) : (s.modFn n f).out = s.out := rfl
@[simp] theorem State.modFn_free (s : State) (n : Nat) (f : Fn → Fn) : (s.modFn n f).free = s.free := rfl
@[simp] theorem State.modFn_clk (s : State) (n : Nat) (f : Fn → Fn) : (s.modFn n f).clk = s.clk := rfl
@[simp] theorem State.modFn_dev (s : State) (n : Nat) (f : Fn → Fn) : (s.modFn n f).dev = s.dev := rfl
@[simp] theorem State.modFn_cue (s : State) (n : Nat) (f : Fn → Fn) : (s.modFn n f).cue = s.cue := rfl
@[simp] theorem State.modFn_tal (s : State) (n : Nat) (f : Fn → Fn) : (s.modFn n f).tal = s.tal := rfl
@[simp] theorem State.modFn_tiles (s : State) (n : Nat) (f : Fn → Fn) : (s.modFn n f).tiles = s.tiles := rfl
@[simp] theorem State.modFn_quires (s : State) (n : Nat) (f : Fn → Fn) : (s.modFn n f).quires = s.quires := rfl
@[simp] theorem State.modFn_mem (s : State) (n : Nat) (f : Fn → Fn) : (s.modFn n f).mem = s.mem := rfl
@[simp] theorem State.modFn_synd (s : State) (n : Nat) (f : Fn → Fn) : (s.modFn n f).synd = s.synd := rfl
@[simp] theorem State.modFn_reb (s : State) (n : Nat) (f : Fn → Fn) : (s.modFn n f).reb = s.reb := rfl
@[simp] theorem State.modFn_sdma (s : State) (n : Nat) (f : Fn → Fn) : (s.modFn n f).sdma = s.sdma := rfl
@[simp] theorem State.modFn_wins (s : State) (n : Nat) (f : Fn → Fn) : (s.modFn n f).wins = s.wins := rfl
@[simp] theorem State.modFn_ports (s : State) (n : Nat) (f : Fn → Fn) : (s.modFn n f).ports = s.ports := rfl
@[simp] theorem State.modFn_fab (s : State) (n : Nat) (f : Fn → Fn) : (s.modFn n f).fab = s.fab := rfl
@[simp] theorem State.modFn_integ (s : State) (n : Nat) (f : Fn → Fn) : (s.modFn n f).integ = s.integ := rfl
@[simp] theorem State.modFn_rooms (s : State) (n : Nat) (f : Fn → Fn) : (s.modFn n f).rooms = s.rooms := rfl
@[simp] theorem State.modFn_plans (s : State) (n : Nat) (f : Fn → Fn) : (s.modFn n f).plans = s.plans := rfl
@[simp] theorem State.modFn_irq (s : State) (n : Nat) (f : Fn → Fn) : (s.modFn n f).irq = s.irq := rfl
@[simp] theorem State.modFn_pcie (s : State) (n : Nat) (f : Fn → Fn) : (s.modFn n f).pcie = s.pcie := rfl
@[simp] theorem State.modFn_ent (s : State) (n : Nat) (f : Fn → Fn) : (s.modFn n f).ent = s.ent := rfl
@[simp] theorem State.modFn_bil (s : State) (n : Nat) (f : Fn → Fn) : (s.modFn n f).bil = s.bil := rfl
@[simp] theorem State.modFn_led (s : State) (n : Nat) (f : Fn → Fn) : (s.modFn n f).led = s.led := rfl
@[simp] theorem State.modFn_vault (s : State) (n : Nat) (f : Fn → Fn) : (s.modFn n f).vault = s.vault := rfl
@[simp] theorem State.modFn_glz (s : State) (n : Nat) (f : Fn → Fn) : (s.modFn n f).glz = s.glz := rfl
@[simp] theorem State.modFn_pow (s : State) (n : Nat) (f : Fn → Fn) : (s.modFn n f).pow = s.pow := rfl

/-! ### setPort -/

@[simp] theorem State.setPort_pending (s : State) (p : Nat) (x : Port) : (s.setPort p x).pending = s.pending := rfl
@[simp] theorem State.setPort_out (s : State) (p : Nat) (x : Port) : (s.setPort p x).out = s.out := rfl
@[simp] theorem State.setPort_free (s : State) (p : Nat) (x : Port) : (s.setPort p x).free = s.free := rfl
@[simp] theorem State.setPort_clk (s : State) (p : Nat) (x : Port) : (s.setPort p x).clk = s.clk := rfl
@[simp] theorem State.setPort_dev (s : State) (p : Nat) (x : Port) : (s.setPort p x).dev = s.dev := rfl
@[simp] theorem State.setPort_cue (s : State) (p : Nat) (x : Port) : (s.setPort p x).cue = s.cue := rfl
@[simp] theorem State.setPort_tal (s : State) (p : Nat) (x : Port) : (s.setPort p x).tal = s.tal := rfl
@[simp] theorem State.setPort_tiles (s : State) (p : Nat) (x : Port) : (s.setPort p x).tiles = s.tiles := rfl
@[simp] theorem State.setPort_quires (s : State) (p : Nat) (x : Port) : (s.setPort p x).quires = s.quires := rfl
@[simp] theorem State.setPort_mem (s : State) (p : Nat) (x : Port) : (s.setPort p x).mem = s.mem := rfl
@[simp] theorem State.setPort_synd (s : State) (p : Nat) (x : Port) : (s.setPort p x).synd = s.synd := rfl
@[simp] theorem State.setPort_reb (s : State) (p : Nat) (x : Port) : (s.setPort p x).reb = s.reb := rfl
@[simp] theorem State.setPort_sdma (s : State) (p : Nat) (x : Port) : (s.setPort p x).sdma = s.sdma := rfl
@[simp] theorem State.setPort_wins (s : State) (p : Nat) (x : Port) : (s.setPort p x).wins = s.wins := rfl
@[simp] theorem State.setPort_fab (s : State) (p : Nat) (x : Port) : (s.setPort p x).fab = s.fab := rfl
@[simp] theorem State.setPort_integ (s : State) (p : Nat) (x : Port) : (s.setPort p x).integ = s.integ := rfl
@[simp] theorem State.setPort_rooms (s : State) (p : Nat) (x : Port) : (s.setPort p x).rooms = s.rooms := rfl
@[simp] theorem State.setPort_plans (s : State) (p : Nat) (x : Port) : (s.setPort p x).plans = s.plans := rfl
@[simp] theorem State.setPort_irq (s : State) (p : Nat) (x : Port) : (s.setPort p x).irq = s.irq := rfl
@[simp] theorem State.setPort_fns (s : State) (p : Nat) (x : Port) : (s.setPort p x).fns = s.fns := rfl
@[simp] theorem State.setPort_pcie (s : State) (p : Nat) (x : Port) : (s.setPort p x).pcie = s.pcie := rfl
@[simp] theorem State.setPort_ent (s : State) (p : Nat) (x : Port) : (s.setPort p x).ent = s.ent := rfl
@[simp] theorem State.setPort_bil (s : State) (p : Nat) (x : Port) : (s.setPort p x).bil = s.bil := rfl
@[simp] theorem State.setPort_led (s : State) (p : Nat) (x : Port) : (s.setPort p x).led = s.led := rfl
@[simp] theorem State.setPort_vault (s : State) (p : Nat) (x : Port) : (s.setPort p x).vault = s.vault := rfl
@[simp] theorem State.setPort_glz (s : State) (p : Nat) (x : Port) : (s.setPort p x).glz = s.glz := rfl
@[simp] theorem State.setPort_pow (s : State) (p : Nat) (x : Port) : (s.setPort p x).pow = s.pow := rfl

/-! ### modPort -/

@[simp] theorem State.modPort_pending (s : State) (p : Nat) (f : Port → Port) : (s.modPort p f).pending = s.pending := rfl
@[simp] theorem State.modPort_out (s : State) (p : Nat) (f : Port → Port) : (s.modPort p f).out = s.out := rfl
@[simp] theorem State.modPort_free (s : State) (p : Nat) (f : Port → Port) : (s.modPort p f).free = s.free := rfl
@[simp] theorem State.modPort_clk (s : State) (p : Nat) (f : Port → Port) : (s.modPort p f).clk = s.clk := rfl
@[simp] theorem State.modPort_dev (s : State) (p : Nat) (f : Port → Port) : (s.modPort p f).dev = s.dev := rfl
@[simp] theorem State.modPort_cue (s : State) (p : Nat) (f : Port → Port) : (s.modPort p f).cue = s.cue := rfl
@[simp] theorem State.modPort_tal (s : State) (p : Nat) (f : Port → Port) : (s.modPort p f).tal = s.tal := rfl
@[simp] theorem State.modPort_tiles (s : State) (p : Nat) (f : Port → Port) : (s.modPort p f).tiles = s.tiles := rfl
@[simp] theorem State.modPort_quires (s : State) (p : Nat) (f : Port → Port) : (s.modPort p f).quires = s.quires := rfl
@[simp] theorem State.modPort_mem (s : State) (p : Nat) (f : Port → Port) : (s.modPort p f).mem = s.mem := rfl
@[simp] theorem State.modPort_synd (s : State) (p : Nat) (f : Port → Port) : (s.modPort p f).synd = s.synd := rfl
@[simp] theorem State.modPort_reb (s : State) (p : Nat) (f : Port → Port) : (s.modPort p f).reb = s.reb := rfl
@[simp] theorem State.modPort_sdma (s : State) (p : Nat) (f : Port → Port) : (s.modPort p f).sdma = s.sdma := rfl
@[simp] theorem State.modPort_wins (s : State) (p : Nat) (f : Port → Port) : (s.modPort p f).wins = s.wins := rfl
@[simp] theorem State.modPort_fab (s : State) (p : Nat) (f : Port → Port) : (s.modPort p f).fab = s.fab := rfl
@[simp] theorem State.modPort_integ (s : State) (p : Nat) (f : Port → Port) : (s.modPort p f).integ = s.integ := rfl
@[simp] theorem State.modPort_rooms (s : State) (p : Nat) (f : Port → Port) : (s.modPort p f).rooms = s.rooms := rfl
@[simp] theorem State.modPort_plans (s : State) (p : Nat) (f : Port → Port) : (s.modPort p f).plans = s.plans := rfl
@[simp] theorem State.modPort_irq (s : State) (p : Nat) (f : Port → Port) : (s.modPort p f).irq = s.irq := rfl
@[simp] theorem State.modPort_fns (s : State) (p : Nat) (f : Port → Port) : (s.modPort p f).fns = s.fns := rfl
@[simp] theorem State.modPort_pcie (s : State) (p : Nat) (f : Port → Port) : (s.modPort p f).pcie = s.pcie := rfl
@[simp] theorem State.modPort_ent (s : State) (p : Nat) (f : Port → Port) : (s.modPort p f).ent = s.ent := rfl
@[simp] theorem State.modPort_bil (s : State) (p : Nat) (f : Port → Port) : (s.modPort p f).bil = s.bil := rfl
@[simp] theorem State.modPort_led (s : State) (p : Nat) (f : Port → Port) : (s.modPort p f).led = s.led := rfl
@[simp] theorem State.modPort_vault (s : State) (p : Nat) (f : Port → Port) : (s.modPort p f).vault = s.vault := rfl
@[simp] theorem State.modPort_glz (s : State) (p : Nat) (f : Port → Port) : (s.modPort p f).glz = s.glz := rfl
@[simp] theorem State.modPort_pow (s : State) (p : Nat) (f : Port → Port) : (s.modPort p f).pow = s.pow := rfl

/-! ### emit -/

@[simp] theorem State.emit_pending (s : State) (o : Out) : (s.emit o).pending = s.pending := rfl
@[simp] theorem State.emit_free (s : State) (o : Out) : (s.emit o).free = s.free := rfl
@[simp] theorem State.emit_clk (s : State) (o : Out) : (s.emit o).clk = s.clk := rfl
@[simp] theorem State.emit_dev (s : State) (o : Out) : (s.emit o).dev = s.dev := rfl
@[simp] theorem State.emit_cue (s : State) (o : Out) : (s.emit o).cue = s.cue := rfl
@[simp] theorem State.emit_tal (s : State) (o : Out) : (s.emit o).tal = s.tal := rfl
@[simp] theorem State.emit_tiles (s : State) (o : Out) : (s.emit o).tiles = s.tiles := rfl
@[simp] theorem State.emit_quires (s : State) (o : Out) : (s.emit o).quires = s.quires := rfl
@[simp] theorem State.emit_mem (s : State) (o : Out) : (s.emit o).mem = s.mem := rfl
@[simp] theorem State.emit_synd (s : State) (o : Out) : (s.emit o).synd = s.synd := rfl
@[simp] theorem State.emit_reb (s : State) (o : Out) : (s.emit o).reb = s.reb := rfl
@[simp] theorem State.emit_sdma (s : State) (o : Out) : (s.emit o).sdma = s.sdma := rfl
@[simp] theorem State.emit_wins (s : State) (o : Out) : (s.emit o).wins = s.wins := rfl
@[simp] theorem State.emit_ports (s : State) (o : Out) : (s.emit o).ports = s.ports := rfl
@[simp] theorem State.emit_fab (s : State) (o : Out) : (s.emit o).fab = s.fab := rfl
@[simp] theorem State.emit_integ (s : State) (o : Out) : (s.emit o).integ = s.integ := rfl
@[simp] theorem State.emit_rooms (s : State) (o : Out) : (s.emit o).rooms = s.rooms := rfl
@[simp] theorem State.emit_plans (s : State) (o : Out) : (s.emit o).plans = s.plans := rfl
@[simp] theorem State.emit_irq (s : State) (o : Out) : (s.emit o).irq = s.irq := rfl
@[simp] theorem State.emit_fns (s : State) (o : Out) : (s.emit o).fns = s.fns := rfl
@[simp] theorem State.emit_pcie (s : State) (o : Out) : (s.emit o).pcie = s.pcie := rfl
@[simp] theorem State.emit_ent (s : State) (o : Out) : (s.emit o).ent = s.ent := rfl
@[simp] theorem State.emit_bil (s : State) (o : Out) : (s.emit o).bil = s.bil := rfl
@[simp] theorem State.emit_led (s : State) (o : Out) : (s.emit o).led = s.led := rfl
@[simp] theorem State.emit_vault (s : State) (o : Out) : (s.emit o).vault = s.vault := rfl
@[simp] theorem State.emit_glz (s : State) (o : Out) : (s.emit o).glz = s.glz := rfl
@[simp] theorem State.emit_pow (s : State) (o : Out) : (s.emit o).pow = s.pow := rfl

/-! ### spend -/

@[simp] theorem State.spend_pending (s : State) : (s.spend).pending = s.pending := rfl
@[simp] theorem State.spend_out (s : State) : (s.spend).out = s.out := rfl
@[simp] theorem State.spend_clk (s : State) : (s.spend).clk = s.clk := rfl
@[simp] theorem State.spend_dev (s : State) : (s.spend).dev = s.dev := rfl
@[simp] theorem State.spend_cue (s : State) : (s.spend).cue = s.cue := rfl
@[simp] theorem State.spend_tal (s : State) : (s.spend).tal = s.tal := rfl
@[simp] theorem State.spend_tiles (s : State) : (s.spend).tiles = s.tiles := rfl
@[simp] theorem State.spend_quires (s : State) : (s.spend).quires = s.quires := rfl
@[simp] theorem State.spend_mem (s : State) : (s.spend).mem = s.mem := rfl
@[simp] theorem State.spend_synd (s : State) : (s.spend).synd = s.synd := rfl
@[simp] theorem State.spend_reb (s : State) : (s.spend).reb = s.reb := rfl
@[simp] theorem State.spend_sdma (s : State) : (s.spend).sdma = s.sdma := rfl
@[simp] theorem State.spend_wins (s : State) : (s.spend).wins = s.wins := rfl
@[simp] theorem State.spend_ports (s : State) : (s.spend).ports = s.ports := rfl
@[simp] theorem State.spend_fab (s : State) : (s.spend).fab = s.fab := rfl
@[simp] theorem State.spend_integ (s : State) : (s.spend).integ = s.integ := rfl
@[simp] theorem State.spend_rooms (s : State) : (s.spend).rooms = s.rooms := rfl
@[simp] theorem State.spend_plans (s : State) : (s.spend).plans = s.plans := rfl
@[simp] theorem State.spend_irq (s : State) : (s.spend).irq = s.irq := rfl
@[simp] theorem State.spend_fns (s : State) : (s.spend).fns = s.fns := rfl
@[simp] theorem State.spend_pcie (s : State) : (s.spend).pcie = s.pcie := rfl
@[simp] theorem State.spend_ent (s : State) : (s.spend).ent = s.ent := rfl
@[simp] theorem State.spend_bil (s : State) : (s.spend).bil = s.bil := rfl
@[simp] theorem State.spend_led (s : State) : (s.spend).led = s.led := rfl
@[simp] theorem State.spend_vault (s : State) : (s.spend).vault = s.vault := rfl
@[simp] theorem State.spend_glz (s : State) : (s.spend).glz = s.glz := rfl
@[simp] theorem State.spend_pow (s : State) : (s.spend).pow = s.pow := rfl

/-! ### modClk -/

@[simp] theorem State.modClk_pending (s : State) (f : Clock → Clock) : (s.modClk f).pending = s.pending := rfl
@[simp] theorem State.modClk_out (s : State) (f : Clock → Clock) : (s.modClk f).out = s.out := rfl
@[simp] theorem State.modClk_free (s : State) (f : Clock → Clock) : (s.modClk f).free = s.free := rfl
@[simp] theorem State.modClk_dev (s : State) (f : Clock → Clock) : (s.modClk f).dev = s.dev := rfl
@[simp] theorem State.modClk_cue (s : State) (f : Clock → Clock) : (s.modClk f).cue = s.cue := rfl
@[simp] theorem State.modClk_tal (s : State) (f : Clock → Clock) : (s.modClk f).tal = s.tal := rfl
@[simp] theorem State.modClk_tiles (s : State) (f : Clock → Clock) : (s.modClk f).tiles = s.tiles := rfl
@[simp] theorem State.modClk_quires (s : State) (f : Clock → Clock) : (s.modClk f).quires = s.quires := rfl
@[simp] theorem State.modClk_mem (s : State) (f : Clock → Clock) : (s.modClk f).mem = s.mem := rfl
@[simp] theorem State.modClk_synd (s : State) (f : Clock → Clock) : (s.modClk f).synd = s.synd := rfl
@[simp] theorem State.modClk_reb (s : State) (f : Clock → Clock) : (s.modClk f).reb = s.reb := rfl
@[simp] theorem State.modClk_sdma (s : State) (f : Clock → Clock) : (s.modClk f).sdma = s.sdma := rfl
@[simp] theorem State.modClk_wins (s : State) (f : Clock → Clock) : (s.modClk f).wins = s.wins := rfl
@[simp] theorem State.modClk_ports (s : State) (f : Clock → Clock) : (s.modClk f).ports = s.ports := rfl
@[simp] theorem State.modClk_fab (s : State) (f : Clock → Clock) : (s.modClk f).fab = s.fab := rfl
@[simp] theorem State.modClk_integ (s : State) (f : Clock → Clock) : (s.modClk f).integ = s.integ := rfl
@[simp] theorem State.modClk_rooms (s : State) (f : Clock → Clock) : (s.modClk f).rooms = s.rooms := rfl
@[simp] theorem State.modClk_plans (s : State) (f : Clock → Clock) : (s.modClk f).plans = s.plans := rfl
@[simp] theorem State.modClk_irq (s : State) (f : Clock → Clock) : (s.modClk f).irq = s.irq := rfl
@[simp] theorem State.modClk_fns (s : State) (f : Clock → Clock) : (s.modClk f).fns = s.fns := rfl
@[simp] theorem State.modClk_pcie (s : State) (f : Clock → Clock) : (s.modClk f).pcie = s.pcie := rfl
@[simp] theorem State.modClk_ent (s : State) (f : Clock → Clock) : (s.modClk f).ent = s.ent := rfl
@[simp] theorem State.modClk_bil (s : State) (f : Clock → Clock) : (s.modClk f).bil = s.bil := rfl
@[simp] theorem State.modClk_led (s : State) (f : Clock → Clock) : (s.modClk f).led = s.led := rfl
@[simp] theorem State.modClk_vault (s : State) (f : Clock → Clock) : (s.modClk f).vault = s.vault := rfl
@[simp] theorem State.modClk_glz (s : State) (f : Clock → Clock) : (s.modClk f).glz = s.glz := rfl
@[simp] theorem State.modClk_pow (s : State) (f : Clock → Clock) : (s.modClk f).pow = s.pow := rfl

/-! ### modPow -/

@[simp] theorem State.modPow_pending (s : State) (f : Power → Power) : (s.modPow f).pending = s.pending := rfl
@[simp] theorem State.modPow_out (s : State) (f : Power → Power) : (s.modPow f).out = s.out := rfl
@[simp] theorem State.modPow_free (s : State) (f : Power → Power) : (s.modPow f).free = s.free := rfl
@[simp] theorem State.modPow_clk (s : State) (f : Power → Power) : (s.modPow f).clk = s.clk := rfl
@[simp] theorem State.modPow_dev (s : State) (f : Power → Power) : (s.modPow f).dev = s.dev := rfl
@[simp] theorem State.modPow_cue (s : State) (f : Power → Power) : (s.modPow f).cue = s.cue := rfl
@[simp] theorem State.modPow_tal (s : State) (f : Power → Power) : (s.modPow f).tal = s.tal := rfl
@[simp] theorem State.modPow_tiles (s : State) (f : Power → Power) : (s.modPow f).tiles = s.tiles := rfl
@[simp] theorem State.modPow_quires (s : State) (f : Power → Power) : (s.modPow f).quires = s.quires := rfl
@[simp] theorem State.modPow_mem (s : State) (f : Power → Power) : (s.modPow f).mem = s.mem := rfl
@[simp] theorem State.modPow_synd (s : State) (f : Power → Power) : (s.modPow f).synd = s.synd := rfl
@[simp] theorem State.modPow_reb (s : State) (f : Power → Power) : (s.modPow f).reb = s.reb := rfl
@[simp] theorem State.modPow_sdma (s : State) (f : Power → Power) : (s.modPow f).sdma = s.sdma := rfl
@[simp] theorem State.modPow_wins (s : State) (f : Power → Power) : (s.modPow f).wins = s.wins := rfl
@[simp] theorem State.modPow_ports (s : State) (f : Power → Power) : (s.modPow f).ports = s.ports := rfl
@[simp] theorem State.modPow_fab (s : State) (f : Power → Power) : (s.modPow f).fab = s.fab := rfl
@[simp] theorem State.modPow_integ (s : State) (f : Power → Power) : (s.modPow f).integ = s.integ := rfl
@[simp] theorem State.modPow_rooms (s : State) (f : Power → Power) : (s.modPow f).rooms = s.rooms := rfl
@[simp] theorem State.modPow_plans (s : State) (f : Power → Power) : (s.modPow f).plans = s.plans := rfl
@[simp] theorem State.modPow_irq (s : State) (f : Power → Power) : (s.modPow f).irq = s.irq := rfl
@[simp] theorem State.modPow_fns (s : State) (f : Power → Power) : (s.modPow f).fns = s.fns := rfl
@[simp] theorem State.modPow_pcie (s : State) (f : Power → Power) : (s.modPow f).pcie = s.pcie := rfl
@[simp] theorem State.modPow_ent (s : State) (f : Power → Power) : (s.modPow f).ent = s.ent := rfl
@[simp] theorem State.modPow_bil (s : State) (f : Power → Power) : (s.modPow f).bil = s.bil := rfl
@[simp] theorem State.modPow_led (s : State) (f : Power → Power) : (s.modPow f).led = s.led := rfl
@[simp] theorem State.modPow_vault (s : State) (f : Power → Power) : (s.modPow f).vault = s.vault := rfl
@[simp] theorem State.modPow_glz (s : State) (f : Power → Power) : (s.modPow f).glz = s.glz := rfl

/-! ### setIrVec -/

@[simp] theorem State.setIrVec_pending (s : State) (o v : Nat) (x : IrVec) : (s.setIrVec o v x).pending = s.pending := rfl
@[simp] theorem State.setIrVec_out (s : State) (o v : Nat) (x : IrVec) : (s.setIrVec o v x).out = s.out := rfl
@[simp] theorem State.setIrVec_free (s : State) (o v : Nat) (x : IrVec) : (s.setIrVec o v x).free = s.free := rfl
@[simp] theorem State.setIrVec_clk (s : State) (o v : Nat) (x : IrVec) : (s.setIrVec o v x).clk = s.clk := rfl
@[simp] theorem State.setIrVec_dev (s : State) (o v : Nat) (x : IrVec) : (s.setIrVec o v x).dev = s.dev := rfl
@[simp] theorem State.setIrVec_cue (s : State) (o v : Nat) (x : IrVec) : (s.setIrVec o v x).cue = s.cue := rfl
@[simp] theorem State.setIrVec_tal (s : State) (o v : Nat) (x : IrVec) : (s.setIrVec o v x).tal = s.tal := rfl
@[simp] theorem State.setIrVec_tiles (s : State) (o v : Nat) (x : IrVec) : (s.setIrVec o v x).tiles = s.tiles := rfl
@[simp] theorem State.setIrVec_quires (s : State) (o v : Nat) (x : IrVec) : (s.setIrVec o v x).quires = s.quires := rfl
@[simp] theorem State.setIrVec_mem (s : State) (o v : Nat) (x : IrVec) : (s.setIrVec o v x).mem = s.mem := rfl
@[simp] theorem State.setIrVec_synd (s : State) (o v : Nat) (x : IrVec) : (s.setIrVec o v x).synd = s.synd := rfl
@[simp] theorem State.setIrVec_reb (s : State) (o v : Nat) (x : IrVec) : (s.setIrVec o v x).reb = s.reb := rfl
@[simp] theorem State.setIrVec_sdma (s : State) (o v : Nat) (x : IrVec) : (s.setIrVec o v x).sdma = s.sdma := rfl
@[simp] theorem State.setIrVec_wins (s : State) (o v : Nat) (x : IrVec) : (s.setIrVec o v x).wins = s.wins := rfl
@[simp] theorem State.setIrVec_ports (s : State) (o v : Nat) (x : IrVec) : (s.setIrVec o v x).ports = s.ports := rfl
@[simp] theorem State.setIrVec_fab (s : State) (o v : Nat) (x : IrVec) : (s.setIrVec o v x).fab = s.fab := rfl
@[simp] theorem State.setIrVec_integ (s : State) (o v : Nat) (x : IrVec) : (s.setIrVec o v x).integ = s.integ := rfl
@[simp] theorem State.setIrVec_rooms (s : State) (o v : Nat) (x : IrVec) : (s.setIrVec o v x).rooms = s.rooms := rfl
@[simp] theorem State.setIrVec_plans (s : State) (o v : Nat) (x : IrVec) : (s.setIrVec o v x).plans = s.plans := rfl
@[simp] theorem State.setIrVec_fns (s : State) (o v : Nat) (x : IrVec) : (s.setIrVec o v x).fns = s.fns := rfl
@[simp] theorem State.setIrVec_pcie (s : State) (o v : Nat) (x : IrVec) : (s.setIrVec o v x).pcie = s.pcie := rfl
@[simp] theorem State.setIrVec_ent (s : State) (o v : Nat) (x : IrVec) : (s.setIrVec o v x).ent = s.ent := rfl
@[simp] theorem State.setIrVec_bil (s : State) (o v : Nat) (x : IrVec) : (s.setIrVec o v x).bil = s.bil := rfl
@[simp] theorem State.setIrVec_led (s : State) (o v : Nat) (x : IrVec) : (s.setIrVec o v x).led = s.led := rfl
@[simp] theorem State.setIrVec_vault (s : State) (o v : Nat) (x : IrVec) : (s.setIrVec o v x).vault = s.vault := rfl
@[simp] theorem State.setIrVec_glz (s : State) (o v : Nat) (x : IrVec) : (s.setIrVec o v x).glz = s.glz := rfl
@[simp] theorem State.setIrVec_pow (s : State) (o v : Nat) (x : IrVec) : (s.setIrVec o v x).pow = s.pow := rfl

/-! ### putByte -/

@[simp] theorem State.putByte_pending (s : State) (a : Nat) (v : Byte) : (s.putByte a v).pending = s.pending := rfl
@[simp] theorem State.putByte_out (s : State) (a : Nat) (v : Byte) : (s.putByte a v).out = s.out := rfl
@[simp] theorem State.putByte_free (s : State) (a : Nat) (v : Byte) : (s.putByte a v).free = s.free := rfl
@[simp] theorem State.putByte_clk (s : State) (a : Nat) (v : Byte) : (s.putByte a v).clk = s.clk := rfl
@[simp] theorem State.putByte_dev (s : State) (a : Nat) (v : Byte) : (s.putByte a v).dev = s.dev := rfl
@[simp] theorem State.putByte_cue (s : State) (a : Nat) (v : Byte) : (s.putByte a v).cue = s.cue := rfl
@[simp] theorem State.putByte_tal (s : State) (a : Nat) (v : Byte) : (s.putByte a v).tal = s.tal := rfl
@[simp] theorem State.putByte_tiles (s : State) (a : Nat) (v : Byte) : (s.putByte a v).tiles = s.tiles := rfl
@[simp] theorem State.putByte_quires (s : State) (a : Nat) (v : Byte) : (s.putByte a v).quires = s.quires := rfl
@[simp] theorem State.putByte_synd (s : State) (a : Nat) (v : Byte) : (s.putByte a v).synd = s.synd := rfl
@[simp] theorem State.putByte_reb (s : State) (a : Nat) (v : Byte) : (s.putByte a v).reb = s.reb := rfl
@[simp] theorem State.putByte_sdma (s : State) (a : Nat) (v : Byte) : (s.putByte a v).sdma = s.sdma := rfl
@[simp] theorem State.putByte_wins (s : State) (a : Nat) (v : Byte) : (s.putByte a v).wins = s.wins := rfl
@[simp] theorem State.putByte_ports (s : State) (a : Nat) (v : Byte) : (s.putByte a v).ports = s.ports := rfl
@[simp] theorem State.putByte_fab (s : State) (a : Nat) (v : Byte) : (s.putByte a v).fab = s.fab := rfl
@[simp] theorem State.putByte_integ (s : State) (a : Nat) (v : Byte) : (s.putByte a v).integ = s.integ := rfl
@[simp] theorem State.putByte_rooms (s : State) (a : Nat) (v : Byte) : (s.putByte a v).rooms = s.rooms := rfl
@[simp] theorem State.putByte_plans (s : State) (a : Nat) (v : Byte) : (s.putByte a v).plans = s.plans := rfl
@[simp] theorem State.putByte_irq (s : State) (a : Nat) (v : Byte) : (s.putByte a v).irq = s.irq := rfl
@[simp] theorem State.putByte_fns (s : State) (a : Nat) (v : Byte) : (s.putByte a v).fns = s.fns := rfl
@[simp] theorem State.putByte_pcie (s : State) (a : Nat) (v : Byte) : (s.putByte a v).pcie = s.pcie := rfl
@[simp] theorem State.putByte_ent (s : State) (a : Nat) (v : Byte) : (s.putByte a v).ent = s.ent := rfl
@[simp] theorem State.putByte_bil (s : State) (a : Nat) (v : Byte) : (s.putByte a v).bil = s.bil := rfl
@[simp] theorem State.putByte_led (s : State) (a : Nat) (v : Byte) : (s.putByte a v).led = s.led := rfl
@[simp] theorem State.putByte_vault (s : State) (a : Nat) (v : Byte) : (s.putByte a v).vault = s.vault := rfl
@[simp] theorem State.putByte_glz (s : State) (a : Nat) (v : Byte) : (s.putByte a v).glz = s.glz := rfl
@[simp] theorem State.putByte_pow (s : State) (a : Nat) (v : Byte) : (s.putByte a v).pow = s.pow := rfl

/-! ### setSynd -/

@[simp] theorem State.setSynd_pending (s : State) (g : Nat) (y : Byte) : (s.setSynd g y).pending = s.pending := rfl
@[simp] theorem State.setSynd_out (s : State) (g : Nat) (y : Byte) : (s.setSynd g y).out = s.out := rfl
@[simp] theorem State.setSynd_free (s : State) (g : Nat) (y : Byte) : (s.setSynd g y).free = s.free := rfl
@[simp] theorem State.setSynd_clk (s : State) (g : Nat) (y : Byte) : (s.setSynd g y).clk = s.clk := rfl
@[simp] theorem State.setSynd_dev (s : State) (g : Nat) (y : Byte) : (s.setSynd g y).dev = s.dev := rfl
@[simp] theorem State.setSynd_cue (s : State) (g : Nat) (y : Byte) : (s.setSynd g y).cue = s.cue := rfl
@[simp] theorem State.setSynd_tal (s : State) (g : Nat) (y : Byte) : (s.setSynd g y).tal = s.tal := rfl
@[simp] theorem State.setSynd_tiles (s : State) (g : Nat) (y : Byte) : (s.setSynd g y).tiles = s.tiles := rfl
@[simp] theorem State.setSynd_quires (s : State) (g : Nat) (y : Byte) : (s.setSynd g y).quires = s.quires := rfl
@[simp] theorem State.setSynd_mem (s : State) (g : Nat) (y : Byte) : (s.setSynd g y).mem = s.mem := rfl
@[simp] theorem State.setSynd_reb (s : State) (g : Nat) (y : Byte) : (s.setSynd g y).reb = s.reb := rfl
@[simp] theorem State.setSynd_sdma (s : State) (g : Nat) (y : Byte) : (s.setSynd g y).sdma = s.sdma := rfl
@[simp] theorem State.setSynd_wins (s : State) (g : Nat) (y : Byte) : (s.setSynd g y).wins = s.wins := rfl
@[simp] theorem State.setSynd_ports (s : State) (g : Nat) (y : Byte) : (s.setSynd g y).ports = s.ports := rfl
@[simp] theorem State.setSynd_fab (s : State) (g : Nat) (y : Byte) : (s.setSynd g y).fab = s.fab := rfl
@[simp] theorem State.setSynd_integ (s : State) (g : Nat) (y : Byte) : (s.setSynd g y).integ = s.integ := rfl
@[simp] theorem State.setSynd_rooms (s : State) (g : Nat) (y : Byte) : (s.setSynd g y).rooms = s.rooms := rfl
@[simp] theorem State.setSynd_plans (s : State) (g : Nat) (y : Byte) : (s.setSynd g y).plans = s.plans := rfl
@[simp] theorem State.setSynd_irq (s : State) (g : Nat) (y : Byte) : (s.setSynd g y).irq = s.irq := rfl
@[simp] theorem State.setSynd_fns (s : State) (g : Nat) (y : Byte) : (s.setSynd g y).fns = s.fns := rfl
@[simp] theorem State.setSynd_pcie (s : State) (g : Nat) (y : Byte) : (s.setSynd g y).pcie = s.pcie := rfl
@[simp] theorem State.setSynd_ent (s : State) (g : Nat) (y : Byte) : (s.setSynd g y).ent = s.ent := rfl
@[simp] theorem State.setSynd_bil (s : State) (g : Nat) (y : Byte) : (s.setSynd g y).bil = s.bil := rfl
@[simp] theorem State.setSynd_led (s : State) (g : Nat) (y : Byte) : (s.setSynd g y).led = s.led := rfl
@[simp] theorem State.setSynd_vault (s : State) (g : Nat) (y : Byte) : (s.setSynd g y).vault = s.vault := rfl
@[simp] theorem State.setSynd_glz (s : State) (g : Nat) (y : Byte) : (s.setSynd g y).glz = s.glz := rfl
@[simp] theorem State.setSynd_pow (s : State) (g : Nat) (y : Byte) : (s.setSynd g y).pow = s.pow := rfl

/-! ### setCfg -/

@[simp] theorem State.setCfg_pending (s : State) (i j : Nat) (v : List Byte) : (s.setCfg i j v).pending = s.pending := rfl
@[simp] theorem State.setCfg_out (s : State) (i j : Nat) (v : List Byte) : (s.setCfg i j v).out = s.out := rfl
@[simp] theorem State.setCfg_free (s : State) (i j : Nat) (v : List Byte) : (s.setCfg i j v).free = s.free := rfl
@[simp] theorem State.setCfg_clk (s : State) (i j : Nat) (v : List Byte) : (s.setCfg i j v).clk = s.clk := rfl
@[simp] theorem State.setCfg_dev (s : State) (i j : Nat) (v : List Byte) : (s.setCfg i j v).dev = s.dev := rfl
@[simp] theorem State.setCfg_cue (s : State) (i j : Nat) (v : List Byte) : (s.setCfg i j v).cue = s.cue := rfl
@[simp] theorem State.setCfg_tal (s : State) (i j : Nat) (v : List Byte) : (s.setCfg i j v).tal = s.tal := rfl
@[simp] theorem State.setCfg_tiles (s : State) (i j : Nat) (v : List Byte) : (s.setCfg i j v).tiles = s.tiles := rfl
@[simp] theorem State.setCfg_quires (s : State) (i j : Nat) (v : List Byte) : (s.setCfg i j v).quires = s.quires := rfl
@[simp] theorem State.setCfg_mem (s : State) (i j : Nat) (v : List Byte) : (s.setCfg i j v).mem = s.mem := rfl
@[simp] theorem State.setCfg_synd (s : State) (i j : Nat) (v : List Byte) : (s.setCfg i j v).synd = s.synd := rfl
@[simp] theorem State.setCfg_reb (s : State) (i j : Nat) (v : List Byte) : (s.setCfg i j v).reb = s.reb := rfl
@[simp] theorem State.setCfg_sdma (s : State) (i j : Nat) (v : List Byte) : (s.setCfg i j v).sdma = s.sdma := rfl
@[simp] theorem State.setCfg_wins (s : State) (i j : Nat) (v : List Byte) : (s.setCfg i j v).wins = s.wins := rfl
@[simp] theorem State.setCfg_ports (s : State) (i j : Nat) (v : List Byte) : (s.setCfg i j v).ports = s.ports := rfl
@[simp] theorem State.setCfg_fab (s : State) (i j : Nat) (v : List Byte) : (s.setCfg i j v).fab = s.fab := rfl
@[simp] theorem State.setCfg_integ (s : State) (i j : Nat) (v : List Byte) : (s.setCfg i j v).integ = s.integ := rfl
@[simp] theorem State.setCfg_rooms (s : State) (i j : Nat) (v : List Byte) : (s.setCfg i j v).rooms = s.rooms := rfl
@[simp] theorem State.setCfg_plans (s : State) (i j : Nat) (v : List Byte) : (s.setCfg i j v).plans = s.plans := rfl
@[simp] theorem State.setCfg_irq (s : State) (i j : Nat) (v : List Byte) : (s.setCfg i j v).irq = s.irq := rfl
@[simp] theorem State.setCfg_fns (s : State) (i j : Nat) (v : List Byte) : (s.setCfg i j v).fns = s.fns := rfl
@[simp] theorem State.setCfg_pcie (s : State) (i j : Nat) (v : List Byte) : (s.setCfg i j v).pcie = s.pcie := rfl
@[simp] theorem State.setCfg_bil (s : State) (i j : Nat) (v : List Byte) : (s.setCfg i j v).bil = s.bil := rfl
@[simp] theorem State.setCfg_led (s : State) (i j : Nat) (v : List Byte) : (s.setCfg i j v).led = s.led := rfl
@[simp] theorem State.setCfg_vault (s : State) (i j : Nat) (v : List Byte) : (s.setCfg i j v).vault = s.vault := rfl
@[simp] theorem State.setCfg_glz (s : State) (i j : Nat) (v : List Byte) : (s.setCfg i j v).glz = s.glz := rfl
@[simp] theorem State.setCfg_pow (s : State) (i j : Nat) (v : List Byte) : (s.setCfg i j v).pow = s.pow := rfl

/-! ### setWatch -/

@[simp] theorem State.setWatch_pending (s : State) (n : Nat) (x : Watch) : (s.setWatch n x).pending = s.pending := rfl
@[simp] theorem State.setWatch_out (s : State) (n : Nat) (x : Watch) : (s.setWatch n x).out = s.out := rfl
@[simp] theorem State.setWatch_free (s : State) (n : Nat) (x : Watch) : (s.setWatch n x).free = s.free := rfl
@[simp] theorem State.setWatch_clk (s : State) (n : Nat) (x : Watch) : (s.setWatch n x).clk = s.clk := rfl
@[simp] theorem State.setWatch_dev (s : State) (n : Nat) (x : Watch) : (s.setWatch n x).dev = s.dev := rfl
@[simp] theorem State.setWatch_cue (s : State) (n : Nat) (x : Watch) : (s.setWatch n x).cue = s.cue := rfl
@[simp] theorem State.setWatch_tiles (s : State) (n : Nat) (x : Watch) : (s.setWatch n x).tiles = s.tiles := rfl
@[simp] theorem State.setWatch_quires (s : State) (n : Nat) (x : Watch) : (s.setWatch n x).quires = s.quires := rfl
@[simp] theorem State.setWatch_mem (s : State) (n : Nat) (x : Watch) : (s.setWatch n x).mem = s.mem := rfl
@[simp] theorem State.setWatch_synd (s : State) (n : Nat) (x : Watch) : (s.setWatch n x).synd = s.synd := rfl
@[simp] theorem State.setWatch_reb (s : State) (n : Nat) (x : Watch) : (s.setWatch n x).reb = s.reb := rfl
@[simp] theorem State.setWatch_sdma (s : State) (n : Nat) (x : Watch) : (s.setWatch n x).sdma = s.sdma := rfl
@[simp] theorem State.setWatch_wins (s : State) (n : Nat) (x : Watch) : (s.setWatch n x).wins = s.wins := rfl
@[simp] theorem State.setWatch_ports (s : State) (n : Nat) (x : Watch) : (s.setWatch n x).ports = s.ports := rfl
@[simp] theorem State.setWatch_fab (s : State) (n : Nat) (x : Watch) : (s.setWatch n x).fab = s.fab := rfl
@[simp] theorem State.setWatch_integ (s : State) (n : Nat) (x : Watch) : (s.setWatch n x).integ = s.integ := rfl
@[simp] theorem State.setWatch_rooms (s : State) (n : Nat) (x : Watch) : (s.setWatch n x).rooms = s.rooms := rfl
@[simp] theorem State.setWatch_plans (s : State) (n : Nat) (x : Watch) : (s.setWatch n x).plans = s.plans := rfl
@[simp] theorem State.setWatch_irq (s : State) (n : Nat) (x : Watch) : (s.setWatch n x).irq = s.irq := rfl
@[simp] theorem State.setWatch_fns (s : State) (n : Nat) (x : Watch) : (s.setWatch n x).fns = s.fns := rfl
@[simp] theorem State.setWatch_pcie (s : State) (n : Nat) (x : Watch) : (s.setWatch n x).pcie = s.pcie := rfl
@[simp] theorem State.setWatch_ent (s : State) (n : Nat) (x : Watch) : (s.setWatch n x).ent = s.ent := rfl
@[simp] theorem State.setWatch_bil (s : State) (n : Nat) (x : Watch) : (s.setWatch n x).bil = s.bil := rfl
@[simp] theorem State.setWatch_led (s : State) (n : Nat) (x : Watch) : (s.setWatch n x).led = s.led := rfl
@[simp] theorem State.setWatch_vault (s : State) (n : Nat) (x : Watch) : (s.setWatch n x).vault = s.vault := rfl
@[simp] theorem State.setWatch_glz (s : State) (n : Nat) (x : Watch) : (s.setWatch n x).glz = s.glz := rfl
@[simp] theorem State.setWatch_pow (s : State) (n : Nat) (x : Watch) : (s.setWatch n x).pow = s.pow := rfl

/-! ### Reads after updates -/

@[simp] theorem State.tile_setTile (s : State) (n : Nat) (x : Tile) : (s.setTile n x).tile n = x := Tbl.get_put_same _ _ _
theorem State.tile_setTile_ne (s : State) {n m : Nat} (x : Tile) (h : m ≠ n) : (s.setTile n x).tile m = s.tile m := Tbl.get_put_ne _ _ h
@[simp] theorem State.tile_modTile (s : State) (n : Nat) (f : Tile → Tile) : (s.modTile n f).tile n = f (s.tile n) := Tbl.get_put_same _ _ _
theorem State.tile_modTile_ne (s : State) {n m : Nat} (f : Tile → Tile) (h : m ≠ n) : (s.modTile n f).tile m = s.tile m := Tbl.get_put_ne _ _ h
@[simp] theorem State.quire_setQuire (s : State) (n : Nat) (x : Quire) : (s.setQuire n x).quire n = x := Tbl.get_put_same _ _ _
theorem State.quire_setQuire_ne (s : State) {n m : Nat} (x : Quire) (h : m ≠ n) : (s.setQuire n x).quire m = s.quire m := Tbl.get_put_ne _ _ h
@[simp] theorem State.quire_modQuire (s : State) (n : Nat) (f : Quire → Quire) : (s.modQuire n f).quire n = f (s.quire n) := Tbl.get_put_same _ _ _
theorem State.quire_modQuire_ne (s : State) {n m : Nat} (f : Quire → Quire) (h : m ≠ n) : (s.modQuire n f).quire m = s.quire m := Tbl.get_put_ne _ _ h
@[simp] theorem State.room_setRoom (s : State) (n : Nat) (x : Room) : (s.setRoom n x).room n = x := Tbl.get_put_same _ _ _
theorem State.room_setRoom_ne (s : State) {n m : Nat} (x : Room) (h : m ≠ n) : (s.setRoom n x).room m = s.room m := Tbl.get_put_ne _ _ h
@[simp] theorem State.room_modRoom (s : State) (n : Nat) (f : Room → Room) : (s.modRoom n f).room n = f (s.room n) := Tbl.get_put_same _ _ _
theorem State.room_modRoom_ne (s : State) {n m : Nat} (f : Room → Room) (h : m ≠ n) : (s.modRoom n f).room m = s.room m := Tbl.get_put_ne _ _ h
@[simp] theorem State.fn_setFn (s : State) (n : Nat) (x : Fn) : (s.setFn n x).fn n = x := Tbl.get_put_same _ _ _
theorem State.fn_setFn_ne (s : State) {n m : Nat} (x : Fn) (h : m ≠ n) : (s.setFn n x).fn m = s.fn m := Tbl.get_put_ne _ _ h
@[simp] theorem State.fn_modFn (s : State) (n : Nat) (f : Fn → Fn) : (s.modFn n f).fn n = f (s.fn n) := Tbl.get_put_same _ _ _
theorem State.fn_modFn_ne (s : State) {n m : Nat} (f : Fn → Fn) (h : m ≠ n) : (s.modFn n f).fn m = s.fn m := Tbl.get_put_ne _ _ h
@[simp] theorem State.port_setPort (s : State) (n : Nat) (x : Port) : (s.setPort n x).port n = x := Tbl.get_put_same _ _ _
theorem State.port_setPort_ne (s : State) {n m : Nat} (x : Port) (h : m ≠ n) : (s.setPort n x).port m = s.port m := Tbl.get_put_ne _ _ h
@[simp] theorem State.port_modPort (s : State) (n : Nat) (f : Port → Port) : (s.modPort n f).port n = f (s.port n) := Tbl.get_put_same _ _ _
theorem State.port_modPort_ne (s : State) {n m : Nat} (f : Port → Port) (h : m ≠ n) : (s.modPort n f).port m = s.port m := Tbl.get_put_ne _ _ h
@[simp] theorem State.byteAt_putByte (s : State) (a : Nat) (v : Byte) : (s.putByte a v).byteAt a = v := Tbl.get_put_same _ _ _
theorem State.byteAt_putByte_ne (s : State) {a b : Nat} (v : Byte) (h : b ≠ a) : (s.putByte a v).byteAt b = s.byteAt b := Tbl.get_put_ne _ _ h
@[simp] theorem State.syndAt_setSynd (s : State) (g : Nat) (y : Byte) : (s.setSynd g y).syndAt g = y := Tbl.get_put_same _ _ _
theorem State.syndAt_setSynd_ne (s : State) {g k : Nat} (y : Byte) (h : k ≠ g) : (s.setSynd g y).syndAt k = s.syndAt k := Tbl.get_put_ne _ _ h
@[simp] theorem State.watch_setWatch (s : State) (n : Nat) (x : Watch) : (s.setWatch n x).watch n = x := Tbl.get_put_same _ _ _
@[simp] theorem State.modClk_clk (s : State) (f : Clock → Clock) : (s.modClk f).clk = f s.clk := rfl
@[simp] theorem State.modPow_pow (s : State) (f : Power → Power) : (s.modPow f).pow = f s.pow := rfl
@[simp] theorem State.emit_out (s : State) (o : Out) : (s.emit o).out = s.out ++ [o] := rfl
@[simp] theorem State.spend_free (s : State) : s.spend.free = s.free + 1 := rfl

/-! ### Reads of one part after an update of another -/

@[simp] theorem State.setTile_quire (s : State) (t : Nat) (x : Tile) (k : Nat) : (s.setTile t x).quire k = s.quire k := rfl
@[simp] theorem State.setTile_room (s : State) (t : Nat) (x : Tile) (k : Nat) : (s.setTile t x).room k = s.room k := rfl
@[simp] theorem State.setTile_fn (s : State) (t : Nat) (x : Tile) (k : Nat) : (s.setTile t x).fn k = s.fn k := rfl
@[simp] theorem State.setTile_port (s : State) (t : Nat) (x : Tile) (k : Nat) : (s.setTile t x).port k = s.port k := rfl
@[simp] theorem State.modTile_quire (s : State) (t : Nat) (f : Tile → Tile) (k : Nat) : (s.modTile t f).quire k = s.quire k := rfl
@[simp] theorem State.modTile_room (s : State) (t : Nat) (f : Tile → Tile) (k : Nat) : (s.modTile t f).room k = s.room k := rfl
@[simp] theorem State.modTile_fn (s : State) (t : Nat) (f : Tile → Tile) (k : Nat) : (s.modTile t f).fn k = s.fn k := rfl
@[simp] theorem State.modTile_port (s : State) (t : Nat) (f : Tile → Tile) (k : Nat) : (s.modTile t f).port k = s.port k := rfl
@[simp] theorem State.setQuire_tile (s : State) (q : Nat) (x : Quire) (k : Nat) : (s.setQuire q x).tile k = s.tile k := rfl
@[simp] theorem State.setQuire_room (s : State) (q : Nat) (x : Quire) (k : Nat) : (s.setQuire q x).room k = s.room k := rfl
@[simp] theorem State.setQuire_fn (s : State) (q : Nat) (x : Quire) (k : Nat) : (s.setQuire q x).fn k = s.fn k := rfl
@[simp] theorem State.setQuire_port (s : State) (q : Nat) (x : Quire) (k : Nat) : (s.setQuire q x).port k = s.port k := rfl
@[simp] theorem State.modQuire_tile (s : State) (q : Nat) (f : Quire → Quire) (k : Nat) : (s.modQuire q f).tile k = s.tile k := rfl
@[simp] theorem State.modQuire_room (s : State) (q : Nat) (f : Quire → Quire) (k : Nat) : (s.modQuire q f).room k = s.room k := rfl
@[simp] theorem State.modQuire_fn (s : State) (q : Nat) (f : Quire → Quire) (k : Nat) : (s.modQuire q f).fn k = s.fn k := rfl
@[simp] theorem State.modQuire_port (s : State) (q : Nat) (f : Quire → Quire) (k : Nat) : (s.modQuire q f).port k = s.port k := rfl
@[simp] theorem State.setRoom_tile (s : State) (r : Nat) (x : Room) (k : Nat) : (s.setRoom r x).tile k = s.tile k := rfl
@[simp] theorem State.setRoom_quire (s : State) (r : Nat) (x : Room) (k : Nat) : (s.setRoom r x).quire k = s.quire k := rfl
@[simp] theorem State.setRoom_fn (s : State) (r : Nat) (x : Room) (k : Nat) : (s.setRoom r x).fn k = s.fn k := rfl
@[simp] theorem State.setRoom_port (s : State) (r : Nat) (x : Room) (k : Nat) : (s.setRoom r x).port k = s.port k := rfl
@[simp] theorem State.modRoom_tile (s : State) (r : Nat) (f : Room → Room) (k : Nat) : (s.modRoom r f).tile k = s.tile k := rfl
@[simp] theorem State.modRoom_quire (s : State) (r : Nat) (f : Room → Room) (k : Nat) : (s.modRoom r f).quire k = s.quire k := rfl
@[simp] theorem State.modRoom_fn (s : State) (r : Nat) (f : Room → Room) (k : Nat) : (s.modRoom r f).fn k = s.fn k := rfl
@[simp] theorem State.modRoom_port (s : State) (r : Nat) (f : Room → Room) (k : Nat) : (s.modRoom r f).port k = s.port k := rfl
@[simp] theorem State.setFn_tile (s : State) (n : Nat) (x : Fn) (k : Nat) : (s.setFn n x).tile k = s.tile k := rfl
@[simp] theorem State.setFn_quire (s : State) (n : Nat) (x : Fn) (k : Nat) : (s.setFn n x).quire k = s.quire k := rfl
@[simp] theorem State.setFn_room (s : State) (n : Nat) (x : Fn) (k : Nat) : (s.setFn n x).room k = s.room k := rfl
@[simp] theorem State.setFn_port (s : State) (n : Nat) (x : Fn) (k : Nat) : (s.setFn n x).port k = s.port k := rfl
@[simp] theorem State.modFn_tile (s : State) (n : Nat) (f : Fn → Fn) (k : Nat) : (s.modFn n f).tile k = s.tile k := rfl
@[simp] theorem State.modFn_quire (s : State) (n : Nat) (f : Fn → Fn) (k : Nat) : (s.modFn n f).quire k = s.quire k := rfl
@[simp] theorem State.modFn_room (s : State) (n : Nat) (f : Fn → Fn) (k : Nat) : (s.modFn n f).room k = s.room k := rfl
@[simp] theorem State.modFn_port (s : State) (n : Nat) (f : Fn → Fn) (k : Nat) : (s.modFn n f).port k = s.port k := rfl
@[simp] theorem State.setPort_tile (s : State) (p : Nat) (x : Port) (k : Nat) : (s.setPort p x).tile k = s.tile k := rfl
@[simp] theorem State.setPort_quire (s : State) (p : Nat) (x : Port) (k : Nat) : (s.setPort p x).quire k = s.quire k := rfl
@[simp] theorem State.setPort_room (s : State) (p : Nat) (x : Port) (k : Nat) : (s.setPort p x).room k = s.room k := rfl
@[simp] theorem State.setPort_fn (s : State) (p : Nat) (x : Port) (k : Nat) : (s.setPort p x).fn k = s.fn k := rfl
@[simp] theorem State.modPort_tile (s : State) (p : Nat) (f : Port → Port) (k : Nat) : (s.modPort p f).tile k = s.tile k := rfl
@[simp] theorem State.modPort_quire (s : State) (p : Nat) (f : Port → Port) (k : Nat) : (s.modPort p f).quire k = s.quire k := rfl
@[simp] theorem State.modPort_room (s : State) (p : Nat) (f : Port → Port) (k : Nat) : (s.modPort p f).room k = s.room k := rfl
@[simp] theorem State.modPort_fn (s : State) (p : Nat) (f : Port → Port) (k : Nat) : (s.modPort p f).fn k = s.fn k := rfl
@[simp] theorem State.emit_tile (s : State) (o : Out) (k : Nat) : (s.emit o).tile k = s.tile k := rfl
@[simp] theorem State.emit_quire (s : State) (o : Out) (k : Nat) : (s.emit o).quire k = s.quire k := rfl
@[simp] theorem State.emit_room (s : State) (o : Out) (k : Nat) : (s.emit o).room k = s.room k := rfl
@[simp] theorem State.emit_fn (s : State) (o : Out) (k : Nat) : (s.emit o).fn k = s.fn k := rfl
@[simp] theorem State.emit_port (s : State) (o : Out) (k : Nat) : (s.emit o).port k = s.port k := rfl
@[simp] theorem State.spend_tile (s : State) (k : Nat) : (s.spend).tile k = s.tile k := rfl
@[simp] theorem State.spend_quire (s : State) (k : Nat) : (s.spend).quire k = s.quire k := rfl
@[simp] theorem State.spend_room (s : State) (k : Nat) : (s.spend).room k = s.room k := rfl
@[simp] theorem State.spend_fn (s : State) (k : Nat) : (s.spend).fn k = s.fn k := rfl
@[simp] theorem State.spend_port (s : State) (k : Nat) : (s.spend).port k = s.port k := rfl
@[simp] theorem State.modClk_tile (s : State) (f : Clock → Clock) (k : Nat) : (s.modClk f).tile k = s.tile k := rfl
@[simp] theorem State.modClk_quire (s : State) (f : Clock → Clock) (k : Nat) : (s.modClk f).quire k = s.quire k := rfl
@[simp] theorem State.modClk_room (s : State) (f : Clock → Clock) (k : Nat) : (s.modClk f).room k = s.room k := rfl
@[simp] theorem State.modClk_fn (s : State) (f : Clock → Clock) (k : Nat) : (s.modClk f).fn k = s.fn k := rfl
@[simp] theorem State.modClk_port (s : State) (f : Clock → Clock) (k : Nat) : (s.modClk f).port k = s.port k := rfl
@[simp] theorem State.modPow_tile (s : State) (f : Power → Power) (k : Nat) : (s.modPow f).tile k = s.tile k := rfl
@[simp] theorem State.modPow_quire (s : State) (f : Power → Power) (k : Nat) : (s.modPow f).quire k = s.quire k := rfl
@[simp] theorem State.modPow_room (s : State) (f : Power → Power) (k : Nat) : (s.modPow f).room k = s.room k := rfl
@[simp] theorem State.modPow_fn (s : State) (f : Power → Power) (k : Nat) : (s.modPow f).fn k = s.fn k := rfl
@[simp] theorem State.modPow_port (s : State) (f : Power → Power) (k : Nat) : (s.modPow f).port k = s.port k := rfl
@[simp] theorem State.setIrVec_tile (s : State) (o v : Nat) (x : IrVec) (k : Nat) : (s.setIrVec o v x).tile k = s.tile k := rfl
@[simp] theorem State.setIrVec_quire (s : State) (o v : Nat) (x : IrVec) (k : Nat) : (s.setIrVec o v x).quire k = s.quire k := rfl
@[simp] theorem State.setIrVec_room (s : State) (o v : Nat) (x : IrVec) (k : Nat) : (s.setIrVec o v x).room k = s.room k := rfl
@[simp] theorem State.setIrVec_fn (s : State) (o v : Nat) (x : IrVec) (k : Nat) : (s.setIrVec o v x).fn k = s.fn k := rfl
@[simp] theorem State.setIrVec_port (s : State) (o v : Nat) (x : IrVec) (k : Nat) : (s.setIrVec o v x).port k = s.port k := rfl
@[simp] theorem State.putByte_tile (s : State) (a : Nat) (v : Byte) (k : Nat) : (s.putByte a v).tile k = s.tile k := rfl
@[simp] theorem State.putByte_quire (s : State) (a : Nat) (v : Byte) (k : Nat) : (s.putByte a v).quire k = s.quire k := rfl
@[simp] theorem State.putByte_room (s : State) (a : Nat) (v : Byte) (k : Nat) : (s.putByte a v).room k = s.room k := rfl
@[simp] theorem State.putByte_fn (s : State) (a : Nat) (v : Byte) (k : Nat) : (s.putByte a v).fn k = s.fn k := rfl
@[simp] theorem State.putByte_port (s : State) (a : Nat) (v : Byte) (k : Nat) : (s.putByte a v).port k = s.port k := rfl
@[simp] theorem State.setSynd_tile (s : State) (g : Nat) (y : Byte) (k : Nat) : (s.setSynd g y).tile k = s.tile k := rfl
@[simp] theorem State.setSynd_quire (s : State) (g : Nat) (y : Byte) (k : Nat) : (s.setSynd g y).quire k = s.quire k := rfl
@[simp] theorem State.setSynd_room (s : State) (g : Nat) (y : Byte) (k : Nat) : (s.setSynd g y).room k = s.room k := rfl
@[simp] theorem State.setSynd_fn (s : State) (g : Nat) (y : Byte) (k : Nat) : (s.setSynd g y).fn k = s.fn k := rfl
@[simp] theorem State.setSynd_port (s : State) (g : Nat) (y : Byte) (k : Nat) : (s.setSynd g y).port k = s.port k := rfl
@[simp] theorem State.setCfg_tile (s : State) (i j : Nat) (v : List Byte) (k : Nat) : (s.setCfg i j v).tile k = s.tile k := rfl
@[simp] theorem State.setCfg_quire (s : State) (i j : Nat) (v : List Byte) (k : Nat) : (s.setCfg i j v).quire k = s.quire k := rfl
@[simp] theorem State.setCfg_room (s : State) (i j : Nat) (v : List Byte) (k : Nat) : (s.setCfg i j v).room k = s.room k := rfl
@[simp] theorem State.setCfg_fn (s : State) (i j : Nat) (v : List Byte) (k : Nat) : (s.setCfg i j v).fn k = s.fn k := rfl
@[simp] theorem State.setCfg_port (s : State) (i j : Nat) (v : List Byte) (k : Nat) : (s.setCfg i j v).port k = s.port k := rfl
@[simp] theorem State.setWatch_tile (s : State) (n : Nat) (x : Watch) (k : Nat) : (s.setWatch n x).tile k = s.tile k := rfl
@[simp] theorem State.setWatch_quire (s : State) (n : Nat) (x : Watch) (k : Nat) : (s.setWatch n x).quire k = s.quire k := rfl
@[simp] theorem State.setWatch_room (s : State) (n : Nat) (x : Watch) (k : Nat) : (s.setWatch n x).room k = s.room k := rfl
@[simp] theorem State.setWatch_fn (s : State) (n : Nat) (x : Watch) (k : Nat) : (s.setWatch n x).fn k = s.fn k := rfl
@[simp] theorem State.setWatch_port (s : State) (n : Nat) (x : Watch) (k : Nat) : (s.setWatch n x).port k = s.port k := rfl

/-! ### The interrupt router changes nothing but itself -/

/-- An event for a vector changes the router alone. -/
theorem State.vecEvent_eq (s : State) (o v : Nat) : ∃ i, s.vecEvent o v = { s with irq := i } := by
  unfold State.vecEvent; dsimp only; split
  · exact ⟨_, rfl⟩
  · exact ⟨s.irq, rfl⟩

/-- An event of a source changes the router alone. -/
theorem State.srcEvent_eq (s : State) (n : Nat) : ∃ i, s.srcEvent n = { s with irq := i } := by
  unfold State.srcEvent; dsimp only; split
  · exact ⟨s.irq, rfl⟩
  · exact State.vecEvent_eq _ _ _

/-- A source that may have become asserted changes the router alone. -/
theorem State.srcRose_eq (s t : State) (n : Nat) : ∃ i, s.srcRose t n = { t with irq := i } := by
  unfold State.srcRose; split
  · exact State.srcEvent_eq _ _
  · exact ⟨t.irq, rfl⟩

theorem State.srcWritten_eq (t : State) (n : Nat) : ∃ i, t.srcWritten n = { t with irq := i } := by
  unfold State.srcWritten; split
  · exact State.srcEvent_eq _ _
  · exact ⟨t.irq, rfl⟩

theorem settle_go (s : State) (l : List Nat) (t : State) :
    ∃ i, forL l (fun n u => if t.asserted n && !s.asserted n then u.srcEvent n else u) t = { t with irq := i } := by
  suffices h : ∀ u : State, (∃ i, u = { t with irq := i }) → ∃ i, forL l (fun n u => if t.asserted n && !s.asserted n then u.srcEvent n else u) u = { t with irq := i } from
    h t ⟨t.irq, rfl⟩
  unfold forL
  induction l with
  | nil => exact fun u h => h
  | cons n l ih =>
    intro u h
    refine ih _ ?_
    obtain ⟨i, rfl⟩ := h
    dsimp only
    split
    · exact State.srcEvent_eq _ _
    · exact ⟨i, rfl⟩

/-- What a command ends with, the events of present conditions, changes the router alone. -/
theorem settle_eq (s t : State) : ∃ i, settle s t = { t with irq := i } := settle_go s condSources t

/-! ### Their fields -/

@[simp] theorem State.srcRose_pending (s t : State) (n : Nat) : (s.srcRose t n).pending = t.pending := by obtain ⟨i, h⟩ := State.srcRose_eq s t n; rw [h]
@[simp] theorem State.srcWritten_pending (t : State) (n : Nat) : (t.srcWritten n).pending = t.pending := by obtain ⟨i, h⟩ := State.srcWritten_eq t n; rw [h]
@[simp] theorem State.srcEvent_pending (t : State) (n : Nat) : (t.srcEvent n).pending = t.pending := by obtain ⟨i, h⟩ := State.srcEvent_eq t n; rw [h]
@[simp] theorem settle_pending (s t : State) : (settle s t).pending = t.pending := by obtain ⟨i, h⟩ := settle_eq s t; rw [h]
@[simp] theorem State.srcRose_out (s t : State) (n : Nat) : (s.srcRose t n).out = t.out := by obtain ⟨i, h⟩ := State.srcRose_eq s t n; rw [h]
@[simp] theorem State.srcWritten_out (t : State) (n : Nat) : (t.srcWritten n).out = t.out := by obtain ⟨i, h⟩ := State.srcWritten_eq t n; rw [h]
@[simp] theorem State.srcEvent_out (t : State) (n : Nat) : (t.srcEvent n).out = t.out := by obtain ⟨i, h⟩ := State.srcEvent_eq t n; rw [h]
@[simp] theorem settle_out (s t : State) : (settle s t).out = t.out := by obtain ⟨i, h⟩ := settle_eq s t; rw [h]
@[simp] theorem State.srcRose_free (s t : State) (n : Nat) : (s.srcRose t n).free = t.free := by obtain ⟨i, h⟩ := State.srcRose_eq s t n; rw [h]
@[simp] theorem State.srcWritten_free (t : State) (n : Nat) : (t.srcWritten n).free = t.free := by obtain ⟨i, h⟩ := State.srcWritten_eq t n; rw [h]
@[simp] theorem State.srcEvent_free (t : State) (n : Nat) : (t.srcEvent n).free = t.free := by obtain ⟨i, h⟩ := State.srcEvent_eq t n; rw [h]
@[simp] theorem settle_free (s t : State) : (settle s t).free = t.free := by obtain ⟨i, h⟩ := settle_eq s t; rw [h]
@[simp] theorem State.srcRose_clk (s t : State) (n : Nat) : (s.srcRose t n).clk = t.clk := by obtain ⟨i, h⟩ := State.srcRose_eq s t n; rw [h]
@[simp] theorem State.srcWritten_clk (t : State) (n : Nat) : (t.srcWritten n).clk = t.clk := by obtain ⟨i, h⟩ := State.srcWritten_eq t n; rw [h]
@[simp] theorem State.srcEvent_clk (t : State) (n : Nat) : (t.srcEvent n).clk = t.clk := by obtain ⟨i, h⟩ := State.srcEvent_eq t n; rw [h]
@[simp] theorem settle_clk (s t : State) : (settle s t).clk = t.clk := by obtain ⟨i, h⟩ := settle_eq s t; rw [h]
@[simp] theorem State.srcRose_dev (s t : State) (n : Nat) : (s.srcRose t n).dev = t.dev := by obtain ⟨i, h⟩ := State.srcRose_eq s t n; rw [h]
@[simp] theorem State.srcWritten_dev (t : State) (n : Nat) : (t.srcWritten n).dev = t.dev := by obtain ⟨i, h⟩ := State.srcWritten_eq t n; rw [h]
@[simp] theorem State.srcEvent_dev (t : State) (n : Nat) : (t.srcEvent n).dev = t.dev := by obtain ⟨i, h⟩ := State.srcEvent_eq t n; rw [h]
@[simp] theorem settle_dev (s t : State) : (settle s t).dev = t.dev := by obtain ⟨i, h⟩ := settle_eq s t; rw [h]
@[simp] theorem State.srcRose_cue (s t : State) (n : Nat) : (s.srcRose t n).cue = t.cue := by obtain ⟨i, h⟩ := State.srcRose_eq s t n; rw [h]
@[simp] theorem State.srcWritten_cue (t : State) (n : Nat) : (t.srcWritten n).cue = t.cue := by obtain ⟨i, h⟩ := State.srcWritten_eq t n; rw [h]
@[simp] theorem State.srcEvent_cue (t : State) (n : Nat) : (t.srcEvent n).cue = t.cue := by obtain ⟨i, h⟩ := State.srcEvent_eq t n; rw [h]
@[simp] theorem settle_cue (s t : State) : (settle s t).cue = t.cue := by obtain ⟨i, h⟩ := settle_eq s t; rw [h]
@[simp] theorem State.srcRose_tal (s t : State) (n : Nat) : (s.srcRose t n).tal = t.tal := by obtain ⟨i, h⟩ := State.srcRose_eq s t n; rw [h]
@[simp] theorem State.srcWritten_tal (t : State) (n : Nat) : (t.srcWritten n).tal = t.tal := by obtain ⟨i, h⟩ := State.srcWritten_eq t n; rw [h]
@[simp] theorem State.srcEvent_tal (t : State) (n : Nat) : (t.srcEvent n).tal = t.tal := by obtain ⟨i, h⟩ := State.srcEvent_eq t n; rw [h]
@[simp] theorem settle_tal (s t : State) : (settle s t).tal = t.tal := by obtain ⟨i, h⟩ := settle_eq s t; rw [h]
@[simp] theorem State.srcRose_tiles (s t : State) (n : Nat) : (s.srcRose t n).tiles = t.tiles := by obtain ⟨i, h⟩ := State.srcRose_eq s t n; rw [h]
@[simp] theorem State.srcWritten_tiles (t : State) (n : Nat) : (t.srcWritten n).tiles = t.tiles := by obtain ⟨i, h⟩ := State.srcWritten_eq t n; rw [h]
@[simp] theorem State.srcEvent_tiles (t : State) (n : Nat) : (t.srcEvent n).tiles = t.tiles := by obtain ⟨i, h⟩ := State.srcEvent_eq t n; rw [h]
@[simp] theorem settle_tiles (s t : State) : (settle s t).tiles = t.tiles := by obtain ⟨i, h⟩ := settle_eq s t; rw [h]
@[simp] theorem State.srcRose_quires (s t : State) (n : Nat) : (s.srcRose t n).quires = t.quires := by obtain ⟨i, h⟩ := State.srcRose_eq s t n; rw [h]
@[simp] theorem State.srcWritten_quires (t : State) (n : Nat) : (t.srcWritten n).quires = t.quires := by obtain ⟨i, h⟩ := State.srcWritten_eq t n; rw [h]
@[simp] theorem State.srcEvent_quires (t : State) (n : Nat) : (t.srcEvent n).quires = t.quires := by obtain ⟨i, h⟩ := State.srcEvent_eq t n; rw [h]
@[simp] theorem settle_quires (s t : State) : (settle s t).quires = t.quires := by obtain ⟨i, h⟩ := settle_eq s t; rw [h]
@[simp] theorem State.srcRose_mem (s t : State) (n : Nat) : (s.srcRose t n).mem = t.mem := by obtain ⟨i, h⟩ := State.srcRose_eq s t n; rw [h]
@[simp] theorem State.srcWritten_mem (t : State) (n : Nat) : (t.srcWritten n).mem = t.mem := by obtain ⟨i, h⟩ := State.srcWritten_eq t n; rw [h]
@[simp] theorem State.srcEvent_mem (t : State) (n : Nat) : (t.srcEvent n).mem = t.mem := by obtain ⟨i, h⟩ := State.srcEvent_eq t n; rw [h]
@[simp] theorem settle_mem (s t : State) : (settle s t).mem = t.mem := by obtain ⟨i, h⟩ := settle_eq s t; rw [h]
@[simp] theorem State.srcRose_synd (s t : State) (n : Nat) : (s.srcRose t n).synd = t.synd := by obtain ⟨i, h⟩ := State.srcRose_eq s t n; rw [h]
@[simp] theorem State.srcWritten_synd (t : State) (n : Nat) : (t.srcWritten n).synd = t.synd := by obtain ⟨i, h⟩ := State.srcWritten_eq t n; rw [h]
@[simp] theorem State.srcEvent_synd (t : State) (n : Nat) : (t.srcEvent n).synd = t.synd := by obtain ⟨i, h⟩ := State.srcEvent_eq t n; rw [h]
@[simp] theorem settle_synd (s t : State) : (settle s t).synd = t.synd := by obtain ⟨i, h⟩ := settle_eq s t; rw [h]
@[simp] theorem State.srcRose_reb (s t : State) (n : Nat) : (s.srcRose t n).reb = t.reb := by obtain ⟨i, h⟩ := State.srcRose_eq s t n; rw [h]
@[simp] theorem State.srcWritten_reb (t : State) (n : Nat) : (t.srcWritten n).reb = t.reb := by obtain ⟨i, h⟩ := State.srcWritten_eq t n; rw [h]
@[simp] theorem State.srcEvent_reb (t : State) (n : Nat) : (t.srcEvent n).reb = t.reb := by obtain ⟨i, h⟩ := State.srcEvent_eq t n; rw [h]
@[simp] theorem settle_reb (s t : State) : (settle s t).reb = t.reb := by obtain ⟨i, h⟩ := settle_eq s t; rw [h]
@[simp] theorem State.srcRose_sdma (s t : State) (n : Nat) : (s.srcRose t n).sdma = t.sdma := by obtain ⟨i, h⟩ := State.srcRose_eq s t n; rw [h]
@[simp] theorem State.srcWritten_sdma (t : State) (n : Nat) : (t.srcWritten n).sdma = t.sdma := by obtain ⟨i, h⟩ := State.srcWritten_eq t n; rw [h]
@[simp] theorem State.srcEvent_sdma (t : State) (n : Nat) : (t.srcEvent n).sdma = t.sdma := by obtain ⟨i, h⟩ := State.srcEvent_eq t n; rw [h]
@[simp] theorem settle_sdma (s t : State) : (settle s t).sdma = t.sdma := by obtain ⟨i, h⟩ := settle_eq s t; rw [h]
@[simp] theorem State.srcRose_wins (s t : State) (n : Nat) : (s.srcRose t n).wins = t.wins := by obtain ⟨i, h⟩ := State.srcRose_eq s t n; rw [h]
@[simp] theorem State.srcWritten_wins (t : State) (n : Nat) : (t.srcWritten n).wins = t.wins := by obtain ⟨i, h⟩ := State.srcWritten_eq t n; rw [h]
@[simp] theorem State.srcEvent_wins (t : State) (n : Nat) : (t.srcEvent n).wins = t.wins := by obtain ⟨i, h⟩ := State.srcEvent_eq t n; rw [h]
@[simp] theorem settle_wins (s t : State) : (settle s t).wins = t.wins := by obtain ⟨i, h⟩ := settle_eq s t; rw [h]
@[simp] theorem State.srcRose_ports (s t : State) (n : Nat) : (s.srcRose t n).ports = t.ports := by obtain ⟨i, h⟩ := State.srcRose_eq s t n; rw [h]
@[simp] theorem State.srcWritten_ports (t : State) (n : Nat) : (t.srcWritten n).ports = t.ports := by obtain ⟨i, h⟩ := State.srcWritten_eq t n; rw [h]
@[simp] theorem State.srcEvent_ports (t : State) (n : Nat) : (t.srcEvent n).ports = t.ports := by obtain ⟨i, h⟩ := State.srcEvent_eq t n; rw [h]
@[simp] theorem settle_ports (s t : State) : (settle s t).ports = t.ports := by obtain ⟨i, h⟩ := settle_eq s t; rw [h]
@[simp] theorem State.srcRose_fab (s t : State) (n : Nat) : (s.srcRose t n).fab = t.fab := by obtain ⟨i, h⟩ := State.srcRose_eq s t n; rw [h]
@[simp] theorem State.srcWritten_fab (t : State) (n : Nat) : (t.srcWritten n).fab = t.fab := by obtain ⟨i, h⟩ := State.srcWritten_eq t n; rw [h]
@[simp] theorem State.srcEvent_fab (t : State) (n : Nat) : (t.srcEvent n).fab = t.fab := by obtain ⟨i, h⟩ := State.srcEvent_eq t n; rw [h]
@[simp] theorem settle_fab (s t : State) : (settle s t).fab = t.fab := by obtain ⟨i, h⟩ := settle_eq s t; rw [h]
@[simp] theorem State.srcRose_integ (s t : State) (n : Nat) : (s.srcRose t n).integ = t.integ := by obtain ⟨i, h⟩ := State.srcRose_eq s t n; rw [h]
@[simp] theorem State.srcWritten_integ (t : State) (n : Nat) : (t.srcWritten n).integ = t.integ := by obtain ⟨i, h⟩ := State.srcWritten_eq t n; rw [h]
@[simp] theorem State.srcEvent_integ (t : State) (n : Nat) : (t.srcEvent n).integ = t.integ := by obtain ⟨i, h⟩ := State.srcEvent_eq t n; rw [h]
@[simp] theorem settle_integ (s t : State) : (settle s t).integ = t.integ := by obtain ⟨i, h⟩ := settle_eq s t; rw [h]
@[simp] theorem State.srcRose_rooms (s t : State) (n : Nat) : (s.srcRose t n).rooms = t.rooms := by obtain ⟨i, h⟩ := State.srcRose_eq s t n; rw [h]
@[simp] theorem State.srcWritten_rooms (t : State) (n : Nat) : (t.srcWritten n).rooms = t.rooms := by obtain ⟨i, h⟩ := State.srcWritten_eq t n; rw [h]
@[simp] theorem State.srcEvent_rooms (t : State) (n : Nat) : (t.srcEvent n).rooms = t.rooms := by obtain ⟨i, h⟩ := State.srcEvent_eq t n; rw [h]
@[simp] theorem settle_rooms (s t : State) : (settle s t).rooms = t.rooms := by obtain ⟨i, h⟩ := settle_eq s t; rw [h]
@[simp] theorem State.srcRose_plans (s t : State) (n : Nat) : (s.srcRose t n).plans = t.plans := by obtain ⟨i, h⟩ := State.srcRose_eq s t n; rw [h]
@[simp] theorem State.srcWritten_plans (t : State) (n : Nat) : (t.srcWritten n).plans = t.plans := by obtain ⟨i, h⟩ := State.srcWritten_eq t n; rw [h]
@[simp] theorem State.srcEvent_plans (t : State) (n : Nat) : (t.srcEvent n).plans = t.plans := by obtain ⟨i, h⟩ := State.srcEvent_eq t n; rw [h]
@[simp] theorem settle_plans (s t : State) : (settle s t).plans = t.plans := by obtain ⟨i, h⟩ := settle_eq s t; rw [h]
@[simp] theorem State.srcRose_fns (s t : State) (n : Nat) : (s.srcRose t n).fns = t.fns := by obtain ⟨i, h⟩ := State.srcRose_eq s t n; rw [h]
@[simp] theorem State.srcWritten_fns (t : State) (n : Nat) : (t.srcWritten n).fns = t.fns := by obtain ⟨i, h⟩ := State.srcWritten_eq t n; rw [h]
@[simp] theorem State.srcEvent_fns (t : State) (n : Nat) : (t.srcEvent n).fns = t.fns := by obtain ⟨i, h⟩ := State.srcEvent_eq t n; rw [h]
@[simp] theorem settle_fns (s t : State) : (settle s t).fns = t.fns := by obtain ⟨i, h⟩ := settle_eq s t; rw [h]
@[simp] theorem State.srcRose_pcie (s t : State) (n : Nat) : (s.srcRose t n).pcie = t.pcie := by obtain ⟨i, h⟩ := State.srcRose_eq s t n; rw [h]
@[simp] theorem State.srcWritten_pcie (t : State) (n : Nat) : (t.srcWritten n).pcie = t.pcie := by obtain ⟨i, h⟩ := State.srcWritten_eq t n; rw [h]
@[simp] theorem State.srcEvent_pcie (t : State) (n : Nat) : (t.srcEvent n).pcie = t.pcie := by obtain ⟨i, h⟩ := State.srcEvent_eq t n; rw [h]
@[simp] theorem settle_pcie (s t : State) : (settle s t).pcie = t.pcie := by obtain ⟨i, h⟩ := settle_eq s t; rw [h]
@[simp] theorem State.srcRose_ent (s t : State) (n : Nat) : (s.srcRose t n).ent = t.ent := by obtain ⟨i, h⟩ := State.srcRose_eq s t n; rw [h]
@[simp] theorem State.srcWritten_ent (t : State) (n : Nat) : (t.srcWritten n).ent = t.ent := by obtain ⟨i, h⟩ := State.srcWritten_eq t n; rw [h]
@[simp] theorem State.srcEvent_ent (t : State) (n : Nat) : (t.srcEvent n).ent = t.ent := by obtain ⟨i, h⟩ := State.srcEvent_eq t n; rw [h]
@[simp] theorem settle_ent (s t : State) : (settle s t).ent = t.ent := by obtain ⟨i, h⟩ := settle_eq s t; rw [h]
@[simp] theorem State.srcRose_bil (s t : State) (n : Nat) : (s.srcRose t n).bil = t.bil := by obtain ⟨i, h⟩ := State.srcRose_eq s t n; rw [h]
@[simp] theorem State.srcWritten_bil (t : State) (n : Nat) : (t.srcWritten n).bil = t.bil := by obtain ⟨i, h⟩ := State.srcWritten_eq t n; rw [h]
@[simp] theorem State.srcEvent_bil (t : State) (n : Nat) : (t.srcEvent n).bil = t.bil := by obtain ⟨i, h⟩ := State.srcEvent_eq t n; rw [h]
@[simp] theorem settle_bil (s t : State) : (settle s t).bil = t.bil := by obtain ⟨i, h⟩ := settle_eq s t; rw [h]
@[simp] theorem State.srcRose_led (s t : State) (n : Nat) : (s.srcRose t n).led = t.led := by obtain ⟨i, h⟩ := State.srcRose_eq s t n; rw [h]
@[simp] theorem State.srcWritten_led (t : State) (n : Nat) : (t.srcWritten n).led = t.led := by obtain ⟨i, h⟩ := State.srcWritten_eq t n; rw [h]
@[simp] theorem State.srcEvent_led (t : State) (n : Nat) : (t.srcEvent n).led = t.led := by obtain ⟨i, h⟩ := State.srcEvent_eq t n; rw [h]
@[simp] theorem settle_led (s t : State) : (settle s t).led = t.led := by obtain ⟨i, h⟩ := settle_eq s t; rw [h]
@[simp] theorem State.srcRose_vault (s t : State) (n : Nat) : (s.srcRose t n).vault = t.vault := by obtain ⟨i, h⟩ := State.srcRose_eq s t n; rw [h]
@[simp] theorem State.srcWritten_vault (t : State) (n : Nat) : (t.srcWritten n).vault = t.vault := by obtain ⟨i, h⟩ := State.srcWritten_eq t n; rw [h]
@[simp] theorem State.srcEvent_vault (t : State) (n : Nat) : (t.srcEvent n).vault = t.vault := by obtain ⟨i, h⟩ := State.srcEvent_eq t n; rw [h]
@[simp] theorem settle_vault (s t : State) : (settle s t).vault = t.vault := by obtain ⟨i, h⟩ := settle_eq s t; rw [h]
@[simp] theorem State.srcRose_glz (s t : State) (n : Nat) : (s.srcRose t n).glz = t.glz := by obtain ⟨i, h⟩ := State.srcRose_eq s t n; rw [h]
@[simp] theorem State.srcWritten_glz (t : State) (n : Nat) : (t.srcWritten n).glz = t.glz := by obtain ⟨i, h⟩ := State.srcWritten_eq t n; rw [h]
@[simp] theorem State.srcEvent_glz (t : State) (n : Nat) : (t.srcEvent n).glz = t.glz := by obtain ⟨i, h⟩ := State.srcEvent_eq t n; rw [h]
@[simp] theorem settle_glz (s t : State) : (settle s t).glz = t.glz := by obtain ⟨i, h⟩ := settle_eq s t; rw [h]
@[simp] theorem State.srcRose_pow (s t : State) (n : Nat) : (s.srcRose t n).pow = t.pow := by obtain ⟨i, h⟩ := State.srcRose_eq s t n; rw [h]
@[simp] theorem State.srcWritten_pow (t : State) (n : Nat) : (t.srcWritten n).pow = t.pow := by obtain ⟨i, h⟩ := State.srcWritten_eq t n; rw [h]
@[simp] theorem State.srcEvent_pow (t : State) (n : Nat) : (t.srcEvent n).pow = t.pow := by obtain ⟨i, h⟩ := State.srcEvent_eq t n; rw [h]
@[simp] theorem settle_pow (s t : State) : (settle s t).pow = t.pow := by obtain ⟨i, h⟩ := settle_eq s t; rw [h]

end Sys2Proof.Machine
end

