-- ==== Sys2Proof/Laws/Exec.lean ====
section
/-! SUPPORT. What running one tile instruction does, once for every instruction. -/

namespace Sys2Proof

open Sys2Proof.Machine

/-! ### Changing one tile -/

theorem OnlyTile.modTile (u : State) (t : Nat) (f : Tile → Tile) : OnlyTile u (u.modTile t f) t (f (u.tile t)) := by
  refine ⟨?_, ?_, rfl⟩
  · simp [State.tile, State.modTile, State.setTile]
  · intro k hk; simp [State.tile, State.modTile, State.setTile, Tbl.get_put_ne _ _ hk]

theorem OnlyTile.refl (u : State) (t : Nat) : OnlyTile u u t (u.tile t) := ⟨rfl, fun _ _ => rfl, rfl⟩

theorem OnlyTile.andThen {u v : State} {t : Nat} {x : Tile} (h : OnlyTile u v t x) (f : Tile → Tile) : OnlyTile u (v.modTile t f) t (f x) := by
  obtain ⟨h1, h2, h3⟩ := h
  refine ⟨?_, ?_, ?_⟩
  · simp [State.tile, State.modTile, State.setTile] at *; rw [h1]
  · intro k hk; have := h2 k hk; simp [State.tile, State.modTile, State.setTile, Tbl.get_put_ne _ _ hk] at *; exact this
  · exact h3

/-! ### One instruction -/

/-- An instruction whose words are fetched and whose body retires. -/
theorem runInstr_retires {s u v : State} {t : TileId} {w : Nat} {body : State → Mem (Option W32)} {pc : W32} (h : Fetches s t w u) (hb : body u = .ok (some pc) v) :
    s.runInstr t w body = v.modTile t fun x => retireAt x (swS (s.tile t).sw) pc := by
  simp [State.runInstr, h.1, h.2, Mem.andThen, hb]

/-- An instruction whose words are fetched and in which the core waits. -/
theorem runInstr_waits {s u v : State} {t : TileId} {w : Nat} {body : State → Mem (Option W32)} (h : Fetches s t w u) (hb : body u = .ok none v) :
    s.runInstr t w body = v := by
  simp [State.runInstr, h.1, h.2, Mem.andThen, hb]

/-- An instruction whose words are fetched and whose body faults. -/
theorem runInstr_faults {s u v : State} {t : TileId} {w c a : Nat} {body : State → Mem (Option W32)} (h : Fetches s t w u) (hb : body u = .fault c a v) :
    s.runInstr t w body = v.takeSync t c a := by
  simp [State.runInstr, h.1, h.2, Mem.andThen, hb]

/-- A register-only instruction changes the registers as its function says. -/
theorem retires_reg {s u : State} {t : TileId} {w : Nat} {i : Instr} {f : Tile → Tile} (h : Fetches s t w u) (hi : exec i s = .next (s.regInstr t w f)) :
    Retires s u t i w (f (u.tile t)) := by
  refine ⟨_, hi, ?_⟩
  rw [State.regInstr, runInstr_retires (v := u.modTile t f) (pc := pcNext (u.tile t) w) h rfl]
  exact (OnlyTile.modTile u t f).andThen fun x => retireAt x (swS (s.tile t).sw) (pcNext (u.tile t) w)

/-- As `retires_reg`, up to an equal tile. -/
theorem retires_reg_eq {s u : State} {t : TileId} {w : Nat} {i : Instr} {f : Tile → Tile} {x : Tile} (h : Fetches s t w u) (hi : exec i s = .next (s.regInstr t w f))
    (hx : f (u.tile t) = x) : Retires s u t i w x := hx ▸ retires_reg h hi

/-- An instruction whose body retires at `pc` from a state that differs from `v` in the tile alone. -/
theorem retires_body {s u v n : State} {t : TileId} {w : Nat} {i : Instr} {body : State → Mem (Option W32)} {x : Tile} {pc : W32} (h : Fetches s t w u)
    (hi : exec i s = .next (s.runInstr t w body)) (hb : body u = .ok (some pc) n) (hn : OnlyTile v n t x) : RetiresTo s v t i x pc :=
  ⟨_, hi, by rw [runInstr_retires h hb]; exact hn.andThen fun x => retireAt x (swS (s.tile t).sw) pc⟩

/-! ### Loads and stores -/

theorem Mem.andThen_assoc {α β γ : Type} (m : Mem α) (f : α → State → Mem β) (g : β → State → Mem γ) :
    (m.andThen f).andThen g = m.andThen fun a s => (f a s).andThen g := by cases m <;> rfl

/-- An instruction that loads and then changes registers. -/
theorem retires_load {s u v : State} {t : TileId} {w : Nat} {i : Instr} {l : List W16} {k : Acc} {a : State → Nat} {m : Nat} {f : List W16 → Tile → Tile} {x : Tile}
    (h : Fetches s t w u) (hi : exec i s = .next (s.runInstr t w fun s => (s.load t k (a s) m).andThen fun l s => s.finish t w (f l)))
    (hl : u.load t k (a u) m = .ok l v) (hx : f l (v.tile t) = x) : Retires s v t i w x := by
  subst hx
  refine retires_body h hi ?_ (OnlyTile.modTile v t (f l))
  simp [hl, Mem.andThen, State.finish, pcNext]

/-- A store whose checks pass places one entry. -/
theorem store_ok {u v : State} {t : Nat} (hb : BufferTakes u t v) {k : Acc} {a : W32} {ws : List W16} (hf : u.storeFault t k a.toNat ws.length = none) :
    u.store t k a.toNat ws = .ok () (v.modTile t fun x => buffered x a ws) := by
  unfold BufferTakes at hb
  unfold State.store
  simp only [hf]
  split at hb
  · subst hb; simp [show ¬ 8 ≤ (v.tile t).sb.length by omega, buffered]
  · simp [show 8 ≤ (u.tile t).sb.length by omega, hb, buffered]

/-- An instruction that stores and then changes registers. -/
theorem retires_store {s u v : State} {t : TileId} {w : Nat} {i : Instr} {k : Acc} {a : State → W32} {ws : State → List W16} {f : Tile → Tile} {x : Tile}
    (h : Fetches s t w u) (hb : BufferTakes u t v)
    (hi : exec i s = .next (s.runInstr t w fun s => (s.store t k (a s).toNat (ws s)).andThen fun _ s => s.finish t w f))
    (hl : u.storeFault t k (a u).toNat (ws u).length = none) (hx : f (buffered (v.tile t) (a u) (ws u)) = x) : Retires s v t i w x := by
  subst hx
  refine retires_body (n := (v.modTile t fun x => buffered x (a u) (ws u)).modTile t f) h hi ?_ ((OnlyTile.modTile v t _).andThen f)
  simp [store_ok hb hl, Mem.andThen, State.finish, pcNext, State.tile, State.modTile, State.setTile, buffered]

/-! ### The flags -/

theorem setZNCV_eq (w : W16) (z n c v : Bool) : setZNCV w z n c v = withZNCV w z n c v := by
  apply BitVec.eq_of_getLsbD_eq
  intro i hi
  cases z <;> cases n <;> cases c <;> cases v <;> simp [setZNCV, putBit, withZNCV] <;> interval_cases i <;> simp

theorem znOf_eq (w r : W16) : znOf w r = withZN w r := by
  apply BitVec.eq_of_getLsbD_eq
  intro i hi
  unfold znOf withZN
  generalize decide (r = 0) = z
  generalize r.msb = n
  cases z <;> cases n <;> simp [setZN, putBit] <;> interval_cases i <;> simp

end Sys2Proof
end

