-- ==== Sys2Proof/Laws/Journal.lean ====
section
/-! SUPPORT. What recording and replying do, said once: a journaled command that is admitted is recorded, its effect runs, and its record is completed and answered. -/

namespace Sys2Proof

open Machine

/-! ### What replying changes -/

/-- `n` is `s` but for what recording and replying change, and no record of a command that is not acknowledged has changed. -/
structure Answering (s n : State) : Prop where
  only : ReplyOnly s n
  keeps : ∀ a x, s.record a = some x → x.kind = 1 → x.acked = false → n.record a = some x
  current : n.led.current = s.led.current
  queue : n.led.queue = s.led.queue

theorem ReplyOnly.refl (s : State) : ReplyOnly s s := rfl
theorem ReplyOnly.trans {s t n : State} (h : ReplyOnly s t) (k : ReplyOnly t n) : ReplyOnly s n := by
  have e := congrArg (fun u : State => ({ u with led := s.led, out := s.out, bil := s.bil, irq := s.irq, integ := s.integ, fns := s.fns } : State)) k
  exact e.trans h
/-- The same, with the state written out. -/
theorem ReplyOnly.eq {s n : State} (h : ReplyOnly s n) : n = { s with led := n.led, out := n.out, bil := n.bil, irq := n.irq, integ := n.integ, fns := n.fns } :=
  (congrArg (fun u : State => ({ u with led := n.led, out := n.out, bil := n.bil, irq := n.irq, integ := n.integ, fns := n.fns } : State)) h : _)
theorem ReplyOnly.exists {s n : State} (h : ReplyOnly s n) : ∃ led out bil irq integ fns, n = { s with led := led, out := out, bil := bil, irq := irq, integ := integ, fns := fns } :=
  ⟨_, _, _, _, _, _, h.eq⟩
theorem Answering.refl (s : State) : Answering s s := ⟨rfl, fun _ _ h _ _ => h, rfl, rfl⟩
theorem Answering.trans {s t n : State} (h : Answering s t) (k : Answering t n) : Answering s n :=
  ⟨h.only.trans k.only, fun a x e hk hn => k.keeps a x (h.keeps a x e hk hn) hk hn, k.current.trans h.current, k.queue.trans h.queue⟩
/-- A change that leaves the Ledger alone keeps every record. -/
theorem Answering.of_led {s n : State} (h : ReplyOnly s n) (e : n.led = s.led) : Answering s n := by
  refine ⟨h, fun a x hx _ _ => ?_, by rw [e], by rw [e]⟩
  unfold State.record at *; rw [e]; exact hx
theorem Answering.of_irq (s : State) {n : State} (h : ∃ i, n = { s with irq := i }) : Answering s n := by
  obtain ⟨i, rfl⟩ := h; exact .of_led rfl rfl

/-- The first match of a list is the first match of what a filter leaves of it, where the filter leaves it. -/
theorem find_filter {α : Type} (p q : α → Bool) (l : List α) (x : α) (h : l.find? p = some x) (hq : q x = true) : (l.filter q).find? p = some x := by
  induction l with
  | nil => cases h
  | cons y l ih =>
    rw [List.find?_cons] at h
    split at h
    · rename_i hp; cases h; rw [List.filter_cons_of_pos hq, List.find?_cons, hp]
    · rename_i hp
      by_cases hy : q y = true
      · rw [List.filter_cons_of_pos hy, List.find?_cons, hp]; exact ih h
      · rw [List.filter_cons_of_neg hy]; exact ih h

/-- Taking slots keeps each record of a command that is not acknowledged. -/
theorem ledTake_keeps (l : Ledger) (k : List Nat) (a : W64) (x : Record) (h : l.recs.find? (fun r => r.accession = a) = some x) (hk : x.kind = 1) (hn : x.acked = false) :
    (ledTake l k).recs.find? (fun r => r.accession = a) = some x :=
  find_filter _ _ _ _ h (by simp [recNeeded, hk, hn])

theorem Answering.modLed (s : State) (f : Ledger → Ledger) (hr : ∀ a x, s.led.recs.find? (fun r => r.accession = a) = some x → x.kind = 1 → x.acked = false → (f s.led).recs.find? (fun r => r.accession = a) = some x)
    (hc : (f s.led).current = s.led.current) (hq : (f s.led).queue = s.led.queue) : Answering s (s.modLed f) := by
  obtain ⟨i, e⟩ := State.srcRose_eq s { s with led := f s.led } 3970
  unfold State.modLed; rw [e]
  exact ⟨rfl, hr, hc, hq⟩

/-- An event keeps each record of a command. -/
theorem Answering.event (s : State) (c : BitVec 16) (v : List Byte) : Answering s (s.event c v) := by
  refine Answering.modLed s _ (fun a x h hk hn => ?_) ?_ ?_
  · split
    · simp only [ledRecordEvent, List.find?_append]
      rw [ledTake_keeps _ _ _ _ h hk hn]; rfl
    · split <;> exact h
  · split
    · rfl
    · split <;> rfl
  · split
    · rfl
    · split <;> rfl

theorem Answering.integ (s : State) (g : Integ) : Answering s { s with integ := g } := .of_led rfl rfl
theorem Answering.integRecord (s : State) (pt room code : Nat) (b : Bool) (addr : Nat) : Answering s (s.integRecord pt room code b addr) := by
  unfold State.integRecord; exact (Answering.integ s _).trans (Answering.event _ _ _)
theorem Answering.handover (s : State) (pt room code addr : Nat) : Answering s (s.handover pt room code addr).2 := by
  unfold State.handover
  split
  · exact .of_led rfl rfl
  · dsimp only
    split
    · exact (Answering.integ s _).trans (Answering.integRecord _ _ _ _ _ _)
    · exact .of_led rfl rfl

theorem Answering.modFn (s : State) (f : Nat) (g : Fn → Fn) : Answering s (s.modFn f g) := .of_led rfl rfl
theorem Answering.emit (s : State) (o : Out) : Answering s (s.emit o) := .of_led rfl rfl
theorem Answering.raiseHost (s : State) (f : Nat) (m : W32) : Answering s (s.raiseHost f m) :=
  (Answering.modFn s f _).trans (.of_irq _ (State.srcRose_eq _ _ _))
theorem Answering.endSessions (s : State) (p : Session → Bool) : Answering s (s.endSessions p) := .of_led rfl rfl


theorem Answering.sendMsix (s : State) (f e : Nat) : Answering s (s.sendMsix f e) := by
  unfold State.sendMsix; dsimp only; split <;> exact .of_led rfl rfl
theorem Answering.mbxStop (s : State) (f : Nat) : Answering s (s.mbxStop f) := .of_led rfl rfl
theorem Answering.mbxError (s : State) (f c : Nat) : Answering s (s.mbxError f c) := by
  have h : Answering s ((s.modMbx f fun m => { m with stat := BitVec.ofNat 4 c }).raiseHost f 2) := (Answering.modFn s f _).trans (Answering.raiseHost _ f 2)
  unfold State.mbxError; dsimp only; split
  · exact h.trans (Answering.mbxStop _ f)
  · exact h
theorem Answering.mbxPump (s : State) (f n : Nat) : Answering s (s.mbxPump f n) := by
  induction n generalizing s with
  | zero => exact .refl s
  | succ n ih =>
    unfold State.mbxPump; dsimp only
    split
    · exact .refl s
    · split
      · exact .refl s
      · split
        · exact Answering.mbxError s f 2
        · refine Answering.trans ?_ (ih _)
          have h : ∀ o g, Answering s (((s.emit o).modMbx f g).raiseHost f 4) := fun o g => ((Answering.emit s o).trans (Answering.modFn _ f _)).trans (Answering.raiseHost _ f 4)
          split
          · exact (h _ _).trans (Answering.sendMsix _ f _)
          · exact h _ _
theorem Answering.mbxSend (s : State) (f : Nat) (q : Frame) : Answering s (s.mbxSend f q) := by
  unfold State.mbxSend; dsimp only; split
  · exact (Answering.modFn s f _).trans (Answering.mbxPump _ f _)
  · exact .refl s
theorem Answering.putFrame (s : State) (t : BitVec 8) (q : Frame) : Answering s (s.putFrame t q) := by
  unfold State.putFrame; split
  · exact Answering.emit s _
  · split
    · exact Answering.mbxSend s _ q
    · exact .of_led rfl rfl
theorem Answering.sendTries (s : State) (t : BitVec 8) (q : Frame) (n : Nat) : Answering s (s.sendTries t q n) := by
  induction n generalizing s with
  | zero => exact Answering.endSessions s _
  | succ n ih =>
    have h := Answering.handover s 9 255 0 0
    unfold State.sendTries
    split <;> rename_i e <;> rw [e] at h
    · exact h.trans (ih _)
    · exact h.trans (Answering.putFrame _ t q)
/-- The reply to a write changes no record. -/
theorem Answering.replyWrite (s : State) (w : Waiting) (st : Nat) (a : W64) (res : List Byte) : Answering s (s.replyWrite w st a res) := by
  unfold State.replyWrite; split
  · exact .refl s
  · exact Answering.sendTries s _ _ 3
theorem Answering.replies (l : List Waiting) (s : State) (st : Nat) (a : W64) (res : List Byte) : Answering s (forL l (fun w s => s.replyWrite w st a res) s) := by
  unfold forL
  induction l generalizing s with
  | nil => exact .refl s
  | cons w l ih => exact (Answering.replyWrite s w st a res).trans (ih _)

/-! ### A record becomes DONE -/

/-- Changing the record with number `a` by a function that keeps its number changes what is found at `a`. -/
theorem find_modRec (l : Ledger) (a : W64) (f : Record → Record) (hf : ∀ r, (f r).accession = r.accession) (x : Record) (h : l.recs.find? (fun r => r.accession = a) = some x) :
    (ledModRec l a f).recs.find? (fun r => r.accession = a) = some (f x) := by
  unfold ledModRec; dsimp only
  generalize l.recs = rs at h
  induction rs with
  | nil => cases h
  | cons y rs ih =>
    rw [List.find?_cons] at h
    rw [List.map_cons, List.find?_cons]
    by_cases hy : y.accession = a
    · rw [decide_eq_true hy] at h; cases h
      rw [if_pos hy, decide_eq_true ((hf x).trans hy)]
    · rw [decide_eq_false hy] at h
      rw [if_neg hy, decide_eq_false hy]; exact ih h

/-- What finishing a command leaves: its record is DONE, it is not in progress any more, and beside recording and replying nothing changes. -/
structure Finishes (s n : State) (a : W64) (st : Nat) (res : List Byte) (x : Record) : Prop where
  only : ReplyOnly s n
  record : n.record a = some (recDone st res x)
  current : n.led.current = if s.led.current = some a then none else s.led.current
  queue : n.led.queue = s.led.queue

/-- A command that is not DEVICE_RESET is finished. -/
theorem finishRec_finishes {s : State} {a : W64} {x : Record} (st : Nat) (res : List Byte) (h : s.record a = some x) (hk : x.kind = 1) (hn : x.acked = false) (hr : ¬ (x.index = 0x9001 ∧ x.sub = 2)) :
    Finishes s (s.finishRec a st res) a st res x := by
  unfold State.finishRec
  rw [h]; dsimp only
  have c : (x.index = 0x9001 && x.sub = 2 && x.source ≠ 20 && st = 0 : Bool) = false := by
    by_cases h1 : x.index = 0x9001
    · have h2 : x.sub ≠ 2 := fun e => hr ⟨h1, e⟩
      rw [decide_eq_false h2, Bool.and_false, Bool.false_and, Bool.false_and]
    · rw [decide_eq_false h1, Bool.false_and, Bool.false_and, Bool.false_and]
  rw [c, if_neg Bool.false_ne_true]
  obtain ⟨i, e⟩ := State.srcRose_eq s { s with led := { ledModRec s.led a (recDone st res) with current := if s.led.current = some a then none else s.led.current } } 3970
  have m : (s.modLed fun l => { ledModRec l a (recDone st res) with current := if l.current = some a then none else l.current }) =
      { s with led := { ledModRec s.led a (recDone st res) with current := if s.led.current = some a then none else s.led.current }, irq := i } := e
  rw [m]
  have q := Answering.replies x.waiting { s with led := { ledModRec s.led a (recDone st res) with current := if s.led.current = some a then none else s.led.current }, irq := i } st a res
  refine ⟨ReplyOnly.trans ?_ q.only, q.keeps a _ (find_modRec _ _ (recDone st res) (fun _ => rfl) _ h) hk hn, q.current, q.queue⟩
  rfl

/-! ### A command is recorded, and its effect runs -/

/-- `t` is the state in which the effect of a command admitted in `s` runs: its record `x` is made and in progress, and nothing beside what recording and replying change differs. -/
structure Recorded (s t : State) (r : Req) (idx sub : Nat) (v : List Byte) (x : Record) : Prop where
  only : ReplyOnly s t
  record : RecordOf s t r idx sub v x
  index : x.index.toNat = idx
  sub : x.sub.toNat = sub
  value : recValue x = v
  accession : x.accession = s.led.nextAcc
  open' : x.done = false ∧ x.acked = false ∧ x.status = 0 ∧ x.result = []
  current : t.led.current = some s.led.nextAcc
  queue : t.led.queue = []
  next : t.led.nextAcc = s.led.nextAcc + 1

/-- What follows the effect of a command. -/
def afterEffect (s : State) : Eff → State
  | .done st res u => (u.finishRec s.led.nextAcc st res).runQueue 1
  | .wait u => u

/-- A record appended under a number that no record has is found under it. -/
theorem find_append_new (l : List Record) (x : Record) (h : ∀ y ∈ l, y.accession ≠ x.accession) : (l ++ [x]).find? (fun r => r.accession = x.accession) = some x := by
  rw [List.find?_append, List.find?_eq_none.2 (fun y hy => by simpa using h y hy)]
  simp

theorem command_runs {s : State} {r : Req} {idx sub : Nat} {v : List Byte} (h : Admits s r idx sub v) (hi : idx < 65536) (hs : sub < 256) (hv : recordedValue idx sub v = v ∨ v ≠ []) :
    ∃ t x, Recorded s t r idx sub v x ∧ s.command r idx sub v = settle s (afterEffect s (t.commandEffect x)) := by
  obtain ⟨hsrc, ⟨e, he, ht⟩, hh, hn, hb, hc, hh', hp, hl, hcur, hq, hu⟩ := h
  have ei : (BitVec.ofNat 16 idx).toNat = idx := by rw [BitVec.toNat_ofNat]; exact Nat.mod_eq_of_lt hi
  have es : (BitVec.ofNat 8 sub).toNat = sub := by rw [BitVec.toNat_ofNat]; exact Nat.mod_eq_of_lt hs
  generalize hu' : (if r.source = 19 then s.smbusTakes (some (r.client, r.cseq)) else s) = u
  have eu : u = { s with bil := u.bil } := by
    rw [← hu']; split <;> rfl
  have un : u.pow = s.pow := by rw [eu]
  have ul : u.led = s.led := by rw [eu]
  have ua : u.activity 7 false = u := by unfold State.activity; rw [un, hn]
  generalize hw : ({ transport := r.source, session := r.session, client := r.client, cseq := r.cseq, index := BitVec.ofNat 16 idx, sub := BitVec.ofNat 8 sub, segment := 0, ks := s.sessionKey r.source r.session, value := v } : WriteReq) = w
  have w1 : w.client = r.client ∧ w.cseq = r.cseq ∧ w.index = BitVec.ofNat 16 idx ∧ w.sub = BitVec.ofNat 8 sub ∧ w.value = v ∧ w.transport = r.source := by subst hw; exact ⟨rfl, rfl, rfl, rfl, rfl, rfl⟩
  obtain ⟨wc, wq, wi, ws, wv, wt⟩ := w1
  have s1 : s.command r idx sub v = settle s (u.recordWrite w) := by
    unfold State.command
    rw [he]; dsimp only
    rw [if_pos hh, hu', ua, hw]
    unfold State.journalWrite
    rw [ws, es, wv, ht, wq, wc, ul, hp, wi, ei]
    dsimp only
    rw [if_neg (by decide), if_neg hc, if_neg (by omega), hl, if_neg (by decide)]
  have ri : recordedValue w.index.toNat w.sub.toNat w.value = recordedValue idx sub v := by rw [wi, ws, wv, ei, es]
  generalize hr : recordedValue idx sub v = rv at *
  generalize hx0 : ({ accession := 0, incarnation := 0, kind := 1, client := w.client, cseq := w.cseq, index := w.index, sub := w.sub, source := w.transport, value := rv,
                      full := if rv = w.value then [] else w.value, waiting := [w.waiting false false] } : Record) = x0
  generalize hk : ledLowest s.led (1 + admitParts x0.value.length) = k
  generalize hx : ({ x0 with accession := s.led.nextAcc, incarnation := u.pow.incarnation, kind := 1, pos := u.posOrZero, slots := k.take (1 + recParts x0.value.length), held := k.drop (1 + recParts x0.value.length) } : Record) = x
  generalize hL : ({ ledTake s.led k with recs := (ledTake s.led k).recs ++ [x], nextAcc := s.led.nextAcc + 1, heads := s.led.heads + 1, queue := [s.led.nextAcc], clients := Tbl.put none s.led.clients w.client.toNat (some w.cseq) } : Ledger) = L
  have s2 : ∃ i, u.recordWrite w = ({ u with led := L, irq := i } : State).runLedger := by
    obtain ⟨i, ei⟩ := State.srcRose_eq u { u with led := L } 3970
    refine ⟨i, ?_⟩
    unfold State.recordWrite; dsimp only
    rw [ri, hx0]
    refine congrArg State.runLedger (Eq.trans ?_ ei)
    unfold State.modLed
    rw [← hL, ← hx, ← hk]
    unfold ledRecordCmd
    rw [ul]
    dsimp only [ledTake]
    rw [hq]; rfl
  obtain ⟨i, s2⟩ := s2
  have fresh : ∀ y ∈ (ledTake s.led k).recs, y.accession ≠ x.accession := by
    intro y hy; rw [← hx]; exact hu y (List.mem_of_mem_filter hy)
  have xa : x.accession = s.led.nextAcc := by rw [← hx]
  generalize htt : ({ u with led := { L with queue := [], current := some s.led.nextAcc }, irq := i } : State) = t
  have trec : t.record s.led.nextAcc = some x := by
    rw [← htt, ← hL, ← xa]; exact find_append_new _ _ fresh
  have tp : t.pow = s.pow := by rw [← htt]; exact un
  have xv : recValue x = v := by
    rw [← hx, ← hx0]; unfold recValue; dsimp only
    rw [wv]
    by_cases hc : rv = v
    · rw [if_pos hc]; exact hc
    · rw [if_neg hc]
      rcases hv with hv | hv
      · exact absurd hv hc
      · cases v with
        | nil => exact absurd rfl hv
        | cons b l => rfl
  have xi : x.index = BitVec.ofNat 16 idx := by rw [← hx, ← hx0]; exact wi
  have xs : x.sub = BitVec.ofNat 8 sub := by rw [← hx, ← hx0]; exact ws
  have xo : x.source = r.source := by rw [← hx, ← hx0]; exact wt
  refine ⟨t, x, ⟨?_, ⟨trec, ?_, ?_, ?_, xi, xs, xo, ?_, ?_, ?_⟩, ?_, ?_, xv, xa, ?_, ?_, ?_, ?_⟩, ?_⟩
  · rw [← htt]; unfold ReplyOnly; dsimp only; rw [eu]
  · rw [← hx]
  · rw [← hx, ← hx0]; exact wc
  · rw [← hx, ← hx0]; exact wq
  · rw [← hx, ← hx0]; exact hr.symm
  · rw [← hx, eu]; rfl
  · rw [← hx]; exact congrArg Power.incarnation un
  · rw [xi, ei]
  · rw [xs, es]
  · rw [← hx, ← hx0]; exact ⟨rfl, rfl, rfl, rfl⟩
  · rw [← htt]
  · rw [← htt]
  · rw [← htt, ← hL]
  · rw [s1, s2]
    congr 1
    have ns : x.source ≠ 20 := by rw [xo]; intro e; rw [e] at hsrc; exact absurd hsrc (by decide)
    have be : t.beginEffect x = t.commandEffect x := by
      unfold State.beginEffect
      rw [if_neg ns, xi, xs, ei, es, xv, if_pos]
      unfold State.bootAllows at hb ⊢; rw [tp]; exact hb
    have lc : L.current = none := by rw [← hL]; exact hcur
    have lq : L.queue = [s.led.nextAcc] := by rw [← hL]
    unfold State.runLedger
    dsimp only
    rw [lq]
    show State.runQueue _ 2 = _
    unfold State.runQueue
    dsimp only
    rw [lc, lq]
    dsimp only
    rw [htt, trec]
    dsimp only
    rw [be]
    cases t.commandEffect x <;> rfl

theorem runQueue_empty (s : State) (n : Nat) (h : s.led.queue = []) : s.runQueue n = s := by
  cases n with
  | zero => rfl
  | succ n => unfold State.runQueue; rw [h]; cases s.led.current <;> rfl

/-- A command whose effect is done at once is recorded and done. -/
theorem journaled_of {s : State} {c : Instr} {r : Req} {idx sub st : Nat} {v res : List Byte} {P : State → Prop} (h : Admits s r idx sub v) (hi : idx < 65536) (hs : sub < 256)
    (hv : recordedValue idx sub v = v ∨ v ≠ []) (hx : exec c s = s.commandRow r idx sub v) (hr : ¬ (idx = 0x9001 ∧ sub = 2))
    (he : ∀ t x, Recorded s t r idx sub v x → ∃ u, t.commandEffect x = .done st res u ∧ u.record s.led.nextAcc = some x ∧ u.led.queue = [] ∧ ∀ n, ReplyOnly u n → P n) :
    Journaled s c r idx sub v (BitVec.ofNat 8 st) res P := by
  obtain ⟨t, x, ht, hc⟩ := command_runs h hi hs hv
  obtain ⟨u, hu, hrec, hq, hP⟩ := he t x ht
  obtain ⟨_, hk, h1, h2, h3, h4, h5, h6, h7, h8⟩ := ht.record
  have nr : ¬ (x.index = 0x9001 ∧ x.sub = 2) := by
    rintro ⟨e1, e2⟩
    refine hr ⟨?_, ?_⟩
    · rw [← ht.index, e1]; rfl
    · rw [← ht.sub, e2]; rfl
  have f := finishRec_finishes st res hrec hk ht.open'.2.1 nr
  have g : afterEffect s (t.commandEffect x) = u.finishRec s.led.nextAcc st res := by
    rw [hu]; exact runQueue_empty _ _ (f.queue.trans hq)
  obtain ⟨i, e⟩ := settle_eq s (u.finishRec s.led.nextAcc st res)
  refine ⟨{ u.finishRec s.led.nextAcc st res with irq := i }, recDone st res x, ?_, ⟨f.record, hk, h1, h2, h3, h4, h5, h6, h7, h8⟩, rfl, rfl, rfl, hP _ (f.only.trans ?_)⟩
  · rw [hx, State.commandRow, hc, g, e]
  · rfl

/-- A command that is refused at step 13 is recorded, and nothing else changes. -/
theorem refused_of {s : State} {c : Instr} {r : Req} {idx sub st : Nat} {v : List Byte} (h : Admits s r idx sub v) (hi : idx < 65536) (hs : sub < 256) (hv : recordedValue idx sub v = v ∨ v ≠ [])
    (hx : exec c s = s.commandRow r idx sub v) (hr : ¬ (idx = 0x9001 ∧ sub = 2)) (he : ∀ t x, Recorded s t r idx sub v x → t.commandEffect x = .refuse st t) : Refused s c r idx sub v (BitVec.ofNat 8 st) :=
  journaled_of h hi hs hv hx hr fun t x ht => ⟨t, he t x ht, ht.record.1, ht.queue, fun _ k => ht.only.trans k⟩

/-- A command whose effect goes on after its record has begun. -/
theorem begun_of {s : State} {c : Instr} {r : Req} {idx sub : Nat} {v : List Byte} {P : State → Prop} (h : Admits s r idx sub v) (hi : idx < 65536) (hs : sub < 256) (hv : recordedValue idx sub v = v ∨ v ≠ [])
    (hx : exec c s = s.commandRow r idx sub v)
    (he : ∀ t x, Recorded s t r idx sub v x → ∃ u, t.commandEffect x = .wait u ∧ u.record s.led.nextAcc = some x ∧ u.led.current = some s.led.nextAcc ∧ ∀ i, P { u with irq := i }) :
    Begun s c r idx sub v P := by
  obtain ⟨t, x, ht, hc⟩ := command_runs h hi hs hv
  obtain ⟨u, hu, hrec, hcur, hP⟩ := he t x ht
  obtain ⟨i, e⟩ := settle_eq s u
  refine ⟨{ u with irq := i }, x, ?_, ⟨hrec, ht.record.2⟩, ht.open'.1, hcur, hP i⟩
  rw [hx, State.commandRow, hc, hu]
  exact congrArg _ e

/-! ### The effect of each command -/

variable {s t : State} {r : Req} {v : List Byte} {x : Record}

theorem Recorded.stepTo (h : Recorded s t r 0x2012 1 v x) : t.commandEffect x = t.stepToEffect (BitVec.ofNat 64 (leNat v)) := by unfold State.commandEffect; rw [h.index, h.sub, h.value]; rfl
theorem Recorded.armDeviceCue (h : Recorded s t r 0x2041 1 v x) : t.commandEffect x = t.armEffect v := by unfold State.commandEffect; rw [h.index, h.sub, h.value]; rfl
theorem Recorded.disarmDeviceCue (h : Recorded s t r 0x2041 2 v x) : t.commandEffect x = t.disarmEffect (leNat v) := by unfold State.commandEffect; rw [h.index, h.sub, h.value]; rfl
theorem Recorded.roomForm (h : Recorded s t r 0x3001 1 v x) : t.commandEffect x = t.formEffect x.accession v := by unfold State.commandEffect; rw [h.index, h.sub, h.value]; rfl
theorem Recorded.roomDissolve (h : Recorded s t r 0x3001 2 v x) : t.commandEffect x = t.dissolveEffect (leNat v) := by unfold State.commandEffect; rw [h.index, h.sub, h.value]; rfl
theorem Recorded.roomReset (h : Recorded s t r 0x3002 1 v x) : t.commandEffect x = t.resetEffect (leNat v) := by unfold State.commandEffect; rw [h.index, h.sub, h.value]; rfl
theorem Recorded.roomFault (h : Recorded s t r 0x3003 1 v x) : t.commandEffect x = t.declareEffect v := by unfold State.commandEffect; rw [h.index, h.sub, h.value]; rfl
theorem Recorded.roomQos (h : Recorded s t r 0x3004 1 v x) : t.commandEffect x = t.qosEffect v := by unfold State.commandEffect; rw [h.index, h.sub, h.value]; rfl
theorem Recorded.planWrite (h : Recorded s t r 0x3020 1 v x) : t.commandEffect x = t.planEffect v := by unfold State.commandEffect; rw [h.index, h.sub, h.value]; rfl
theorem Recorded.tallyAdvance (h : Recorded s t r 0x4001 1 v x) : t.commandEffect x = t.advanceEffect v := by unfold State.commandEffect; rw [h.index, h.sub, h.value]; rfl
theorem Recorded.windowOpen (h : Recorded s t r 0x6200 1 v x) : t.commandEffect x = t.windowOpenEffect v := by unfold State.commandEffect; rw [h.index, h.sub, h.value]; rfl
theorem Recorded.windowClose (h : Recorded s t r 0x6200 2 v x) : t.commandEffect x = t.windowCloseEffect v := by unfold State.commandEffect; rw [h.index, h.sub, h.value]; rfl
theorem Recorded.vaultWrite (h : Recorded s t r 0x7101 1 v x) : t.commandEffect x = (t.activity 3 false).vaultWriteEffect x.accession v := by unfold State.commandEffect; rw [h.index, h.sub, h.value]; rfl
theorem Recorded.vaultRead (h : Recorded s t r 0x7101 2 v x) : t.commandEffect x = (t.activity 3 false).vaultReadEffect x.accession v := by unfold State.commandEffect; rw [h.index, h.sub, h.value]; rfl
theorem Recorded.vaultDelete (h : Recorded s t r 0x7101 3 v x) : t.commandEffect x = (t.activity 3 false).vaultDeleteEffect v := by unfold State.commandEffect; rw [h.index, h.sub, h.value]; rfl
theorem Recorded.vaultStop (h : Recorded s t r 0x7101 4 v x) : t.commandEffect x = (t.activity 3 false).vaultStopEffect (leNat v) := by unfold State.commandEffect; rw [h.index, h.sub, h.value]; rfl
theorem Recorded.pipeAssign (h : Recorded s t r 0x8002 1 v x) : t.commandEffect x = t.assignEffect (fieldAt v 0 1) (fieldAt v 1 1) := by unfold State.commandEffect; rw [h.index, h.sub, h.value]; rfl
theorem Recorded.pipeShadow (h : Recorded s t r 0x8003 1 v x) : t.commandEffect x = t.shadowEffect (fieldAt v 0 1) (fieldAt v 1 1) (fieldAt v 2 8) (fieldAt v 10 8) := by unfold State.commandEffect; rw [h.index, h.sub, h.value]; rfl
theorem Recorded.commit (h : Recorded s t r 0x8004 1 v x) : t.commandEffect x = t.commitEffect (fieldAt v 0 1) (fieldAt v 1 1) := by unfold State.commandEffect; rw [h.index, h.sub, h.value]; rfl
theorem Recorded.powerRequest (h : Recorded s t r 0x9001 1 v x) : t.commandEffect x = t.powerRequestEffect x.accession (leNat v) := by unfold State.commandEffect; rw [h.index, h.sub, h.value]; rfl
theorem Recorded.deviceReset (h : Recorded s t r 0x9001 2 v x) : t.commandEffect x = t.resetDeviceEffect (leNat v) := by unfold State.commandEffect; rw [h.index, h.sub, h.value]; rfl
theorem Recorded.quireGate (h : Recorded s t r 0x9002 1 v x) : t.commandEffect x = t.quireGateEffect x.accession v := by unfold State.commandEffect; rw [h.index, h.sub, h.value]; rfl
theorem Recorded.quireWake (h : Recorded s t r 0x9002 2 v x) : t.commandEffect x = t.quireWakeEffect v := by unfold State.commandEffect; rw [h.index, h.sub, h.value]; rfl
theorem Recorded.fwChunk (h : Recorded s t r 0x9031 1 v x) : t.commandEffect x = t.chunkEffect v := by unfold State.commandEffect; rw [h.index, h.sub, h.value]; rfl
theorem Recorded.fwCommit (h : Recorded s t r 0x9031 2 v x) : t.commandEffect x = t.fwCommitEffect v := by unfold State.commandEffect; rw [h.index, h.sub, h.value]; rfl
theorem Recorded.fwSelect (h : Recorded s t r 0x9031 3 v x) : t.commandEffect x = t.fwSelectEffect (leNat v) := by unfold State.commandEffect; rw [h.index, h.sub, h.value]; rfl
theorem Recorded.securityRaise (h : Recorded s t r 0x9031 4 v x) : t.commandEffect x = t.raiseEffect v := by unfold State.commandEffect; rw [h.index, h.sub, h.value]; rfl
theorem Recorded.inject (h : Recorded s t r 0xA010 2 v x) : t.commandEffect x = t.injectEffect v := by unfold State.commandEffect; rw [h.index, h.sub, h.value]; rfl
theorem Recorded.keySlot {k : Nat} (h : Recorded s t r 0x6301 k v x) : t.commandEffect x = t.keyEffect (k - 1) v := by unfold State.commandEffect; rw [h.index, h.sub, h.value]; rfl

end Sys2Proof
end

