-- ==== Sys2Proof/Laws/Memory.lean ====
section
/-! SUPPORT. What the operations on memory do: reads after writes, what they leave alone, and that each keeps the canonical form. -/

namespace Sys2Proof.Machine

/-! ### Bytes -/

@[simp] theorem State.byteAt_putByte_same (s : State) (a : Nat) (v : Byte) : (s.putByte a v).byteAt a = v := Tbl.get_put_same _ _ _

/-- Bytes stored from `a` read back, and every other byte reads as before. -/
theorem State.byteAt_putBytes (l : List Byte) (s : State) (a b : Nat) :
    (s.putBytes a l).byteAt b = if a ≤ b ∧ b < a + l.length then l.getD (b - a) 0 else s.byteAt b := by
  induction l generalizing s a with
  | nil => rw [if_neg (by rintro ⟨h, h'⟩; rw [List.length_nil] at h'; omega)]; rfl
  | cons x l ih =>
    rw [State.putBytes, ih]
    rcases Nat.lt_trichotomy b a with h | rfl | h
    · rw [if_neg (by omega), if_neg (by omega), State.byteAt_putByte_ne _ _ (by omega)]
    · rw [if_neg (by omega), if_pos (by simp)]; simp
    · by_cases hb : b < a + 1 + l.length
      · rw [if_pos ⟨h, hb⟩, if_pos (by simp; omega)]
        have : b - a = (b - (a + 1)) + 1 := by omega
        rw [this, List.getD_cons_succ]
      · rw [if_neg (by omega), if_neg (by simp; omega), State.byteAt_putByte_ne _ _ (by omega)]

/-- Storing bytes changes nothing but memory. -/
theorem State.putBytes_eq (l : List Byte) (s : State) (a : Nat) : s.putBytes a l = { s with mem := (s.putBytes a l).mem } := by
  induction l generalizing s a with
  | nil => rfl
  | cons x l ih => exact ih (s.putByte a x) (a + 1)

@[simp] theorem State.putBytes_synd (s : State) (a : Nat) (l : List Byte) : (s.putBytes a l).synd = s.synd := by rw [State.putBytes_eq]

/-! ### Errors are logged, and leave memory alone -/

@[simp] theorem State.memLog_mem (s : State) (q : Nat) (v : W64) (e : W32) : (s.memLog q v e).mem = s.mem := by simp [State.memLog, State.raiseMem, State.errLogAdd]
@[simp] theorem State.memLog_synd (s : State) (q : Nat) (v : W64) (e : W32) : (s.memLog q v e).synd = s.synd := by simp [State.memLog, State.raiseMem, State.errLogAdd]
@[simp] theorem State.event_mem (s : State) (c : BitVec 16) (v : List Byte) : (s.event c v).mem = s.mem := by simp [State.event, State.modLed]
@[simp] theorem State.event_synd (s : State) (c : BitVec 16) (v : List Byte) : (s.event c v).synd = s.synd := by simp [State.event, State.modLed]
@[simp] theorem State.markRow_mem (s : State) (t b row c g : Nat) (y : Byte) : (s.markRow t b row c g y).mem = s.mem := by
  unfold State.markRow; split <;> simp
@[simp] theorem State.markRow_synd (s : State) (t b row c g : Nat) (y : Byte) : (s.markRow t b row c g y).synd = s.synd := by
  unfold State.markRow; split <;> simp
theorem State.scratchError_memory (s : State) (t off : Nat) (y : Byte) (ue : Bool) : (s.scratchError t off y ue).mem = s.mem ∧ (s.scratchError t off y ue).synd = s.synd := by
  unfold State.scratchError; dsimp only; split
  · simp
  · split <;> simp
theorem State.qscratchError_memory (s : State) (q off : Nat) (y : Byte) (ue : Bool) : (s.qscratchError q off y ue).mem = s.mem ∧ (s.qscratchError q off y ue).synd = s.synd := by
  unfold State.qscratchError; dsimp only; split <;> simp
/-- An error in memory is logged and counted; no byte and no syndrome changes. -/
theorem State.memError_memory (s : State) (a : Nat) (y : Byte) (ue : Bool) : (s.memError a y ue).mem = s.mem ∧ (s.memError a y ue).synd = s.synd := by
  unfold State.memError
  split
  · exact State.scratchError_memory ..
  · exact State.qscratchError_memory ..
  · split <;> exact ⟨rfl, rfl⟩

end Sys2Proof.Machine

namespace Sys2Proof

open Machine

/-! ### The canonical form -/

theorem CanonicalMemory.putByte {s : State} (h : CanonicalMemory s) (a : Nat) (v : Byte) : CanonicalMemory (s.putByte a v) := ⟨Tbl.wf_put a v h.1, h.2⟩
theorem CanonicalMemory.setSynd {s : State} (h : CanonicalMemory s) (g : Nat) (y : Byte) : CanonicalMemory (s.setSynd g y) := ⟨h.1, Tbl.wf_put g y h.2⟩
theorem CanonicalMemory.putBytes {s : State} (h : CanonicalMemory s) (a : Nat) (l : List Byte) : CanonicalMemory (s.putBytes a l) := by
  induction l generalizing s a with
  | nil => exact h
  | cons x l ih => exact ih (h.putByte a x) (a + 1)
theorem CanonicalMemory.clearMem {s : State} (h : CanonicalMemory s) (lo hi : Nat) : CanonicalMemory (s.clearMem lo hi) := ⟨Tbl.wf_clear lo hi h.1, Tbl.wf_clear (lo / 8) (hi / 8) h.2⟩
/-- A state with the memory and syndromes of a canonical one is canonical. -/
theorem CanonicalMemory.of_same {s t : State} (h : CanonicalMemory s) (e : t.mem = s.mem ∧ t.synd = s.synd) : CanonicalMemory t := by
  unfold CanonicalMemory; rw [e.1, e.2]; exact h
theorem CanonicalMemory.memError {s : State} (h : CanonicalMemory s) (a : Nat) (y : Byte) (ue : Bool) : CanonicalMemory (s.memError a y ue) := h.of_same (s.memError_memory a y ue)
theorem CanonicalMemory.readGran {s : State} (h : CanonicalMemory s) (g : Nat) : CanonicalMemory (s.readGran g).2 := by
  unfold State.readGran; dsimp only
  split
  · exact h
  · exact (h.setSynd _ _).memError _ _ _
  · exact ((h.putBytes _ _).setSynd _ _).memError _ _ _
  · exact h.memError _ _ _
theorem CanonicalMemory.writeGran {s : State} (h : CanonicalMemory s) (g o : Nat) (l : List Byte) : CanonicalMemory (s.writeGran g o l).2 := by
  unfold State.writeGran
  split
  · exact (h.putBytes _ _).setSynd _ _
  · have hr := h.readGran g
    split <;> rename_i e <;> rw [e] at hr
    · exact hr
    · exact (hr.putBytes _ _).setSynd _ _
/-- A property of the state that each element's step keeps is kept by a fold. -/
theorem foldl_keeps {α β : Type} (P : β → Prop) {f : β → α → β} (hf : ∀ b a, P b → P (f b a)) (l : List α) (b : β) (h : P b) : P (l.foldl f b) := by
  induction l generalizing b with
  | nil => exact h
  | cons a l ih => exact ih _ (hf b a h)
theorem CanonicalMemory.readMem {s : State} (h : CanonicalMemory s) (a n : Nat) : CanonicalMemory (s.readMem a n).2 := by
  unfold Machine.State.readMem
  refine foldl_keeps (f := fun (r : Option (List Byte) × State) g => ((match r.1, (r.2.readGran g).1 with | some l, some d => some (l ++ d) | _, _ => none), (r.2.readGran g).2)) (fun r => CanonicalMemory r.2) ?_ _ (some [], s) h
  exact fun _ g hb => hb.readGran g
theorem CanonicalMemory.writeMem {s : State} (h : CanonicalMemory s) (a : Nat) (l : List Byte) : CanonicalMemory (s.writeMem a l).2 :=
  foldl_keeps (fun r : Bool × State => CanonicalMemory r.2) (fun _ g hb => hb.writeGran g.1 g.2.1 g.2.2) _ _ h
theorem CanonicalMemory.copyIn {s : State} (h : CanonicalMemory s) (a n : Nat) (t : Tbl Byte) : CanonicalMemory (s.copyIn a n t) :=
  foldl_keeps CanonicalMemory (fun _ e hb => hb.putByte e.1 e.2) _ _ ⟨Tbl.wf_clear _ _ h.1, Tbl.wf_clear _ _ h.2⟩
theorem State.reset_canonical : CanonicalMemory State.reset := ⟨rfl, rfl⟩

end Sys2Proof

namespace Sys2Proof.Machine

/-! ### Reads of good granules -/

/-- A good granule reads as stored, and nothing changes. -/
theorem State.readGran_good (s : State) (g : Nat) (h : readSynd (s.syndAt g) = .good) : s.readGran g = (some (s.bytesAt (8 * g) 8), s) := by
  unfold State.readGran; dsimp only; rw [h]

theorem readGrans_good (s : State) (gs : List Nat) (l : List Byte) (h : ∀ g ∈ gs, readSynd (s.syndAt g) = .good) :
    gs.foldl (fun (r : Option (List Byte) × State) g => ((match r.1, (r.2.readGran g).1 with | some l, some d => some (l ++ d) | _, _ => none), (r.2.readGran g).2)) (some l, s) =
      (some (l ++ gs.flatMap fun g => s.bytesAt (8 * g) 8), s) := by
  induction gs generalizing l with
  | nil => simp
  | cons g gs ih =>
    rw [List.foldl_cons, s.readGran_good g (h g (by simp))]
    dsimp only
    rw [ih _ (fun k hk => h k (by simp [hk])), List.flatMap_cons, List.append_assoc]

theorem bytesAt_append (s : State) (a m n : Nat) : s.bytesAt a m ++ s.bytesAt (a + m) n = s.bytesAt a (m + n) := by
  unfold State.bytesAt
  rw [List.range_add, List.map_append, List.map_map]
  congr 1
  apply List.map_congr_left
  intro i _
  simp [Nat.add_assoc]

theorem bytesAt_flatMap (s : State) (g k : Nat) : ((List.range k).map (g + ·)).flatMap (fun g => s.bytesAt (8 * g) 8) = s.bytesAt (8 * g) (8 * k) := by
  induction k with
  | zero => rfl
  | succ k ih =>
    rw [List.range_succ, List.map_append, List.flatMap_append, ih]
    simp only [List.map_cons, List.map_nil, List.flatMap_cons, List.flatMap_nil, List.append_nil]
    rw [show 8 * (g + k) = 8 * g + 8 * k by omega, bytesAt_append, show 8 * k + 8 = 8 * (k + 1) by omega]

/-- A part of the bytes from `a` are the bytes from further on. -/
theorem bytesAt_drop_take (s : State) (a o n m : Nat) (h : o + n ≤ m) : ((s.bytesAt a m).drop o).take n = s.bytesAt (a + o) n := by
  obtain ⟨k, rfl⟩ := Nat.exists_eq_add_of_le h
  rw [← bytesAt_append, ← bytesAt_append]
  have h1 : (s.bytesAt a o).length = o := by simp [State.bytesAt]
  have h2 : (s.bytesAt (a + o) n).length = n := by simp [State.bytesAt]
  rw [List.append_assoc, List.drop_append_of_le_length (by omega), List.drop_of_length_le (by omega), List.nil_append, List.take_append_of_le_length (by omega), List.take_of_length_le (by omega)]

/-- A read of good granules gives the bytes stored there, and nothing changes. -/
theorem State.readMem_good (s : State) (a n : Nat) (h : ∀ g, a / 8 ≤ g → g ≤ (a + n - 1) / 8 → readSynd (s.syndAt g) = .good) : s.readMem a n = (some (s.bytesAt a n), s) := by
  unfold State.readMem
  by_cases hn : n = 0
  · subst hn; simp [State.bytesAt]
  rw [if_neg hn]
  have e := readGrans_good s ((List.range ((a + n - 1) / 8 + 1 - a / 8)).map (a / 8 + ·)) [] (by
    intro g hg
    obtain ⟨i, hi, rfl⟩ := List.mem_map.1 hg
    have := List.mem_range.1 hi
    exact h _ (by omega) (by omega))
  rw [List.nil_append, bytesAt_flatMap] at e
  change ((List.foldl _ (some [], s) _).1.map _, (List.foldl _ (some [], s) _).2) = _
  erw [e]
  dsimp only [Option.map_some]
  rw [bytesAt_drop_take _ _ _ _ _ (by omega), show 8 * (a / 8) + a % 8 = a by omega]

end Sys2Proof.Machine
end

