-- ==== Sys2Proof/Laws/Mesh.lean ====
section
/-! SUPPORT. The two meshes: what a flit's move changes, who holds a buffer, and what the control mesh never does. -/

namespace Sys2Proof.Machine

/-- A flit's move changes its place and its waiting time alone. -/
theorem carry_frame (s : State) (n : Nat) : ∀ (q : DmaReq) (cyc : Nat), { s.carry q cyc n with hop := q.hop, waited := q.waited } = q := by
  induction n with
  | zero => intro q cyc; rfl
  | succ n ih =>
    intro q cyc
    simp only [State.carry]
    split
    · split
      · rfl
      · have h := ih { q with hop := q.hop + 1, waited := 0 } (cyc - 1)
        generalize s.carry { q with hop := q.hop + 1, waited := 0 } (cyc - 1) n = y at h ⊢
        cases y; cases q; simp_all
    · split <;> rfl

/-- No cycle moves a flit whose next link holds no credit for it (R319). -/
theorem carry_blocked (s : State) (q : DmaReq) (cyc n : Nat) (l : MeshLink) (h : q.path[q.hop]? = some l) (hc : s.meshCredit l (classAt q.path q.hop) = false) :
    s.carry q cyc n = q := by
  cases n <;> simp [State.carry, h, hc]

@[simp] theorem meshFree_nil (s : State) : s.meshFree [] = true := rfl
/-- A packet dropped by a router holds no buffer (R364). -/
@[simp] theorem heldAt_lost (q : DmaReq) : heldAt { q with lost := true } = none := rfl

/-- CRSP is served before CREQ (R318). -/
theorem ctlNext_crsp (l : List CtlMsg) (m : CtlMsg) (hm : m ∈ l) (hc : ctlClassOf m.kind = .crsp) : ∃ x ∈ l, ctlNext l = some x ∧ ctlClassOf x.kind = .crsp := by
  unfold ctlNext
  cases h : l.find? fun m => ctlClassOf m.kind = .crsp with
  | none => exact absurd hc (by simpa using List.find?_eq_none.mp h m hm)
  | some x => exact ⟨x, List.mem_of_find?_eq_some h, rfl, by simpa using List.find?_some h⟩

/-- The places of a way on one die lie on that die. -/
theorem dieWay_die {d c r c' r' : Nat} {n : MeshNode} (h : n ∈ dieWay d c r c' r') : ∃ x y, n = .router d x y := by
  simp only [dieWay, List.mem_append, List.mem_map] at h
  obtain ⟨x, -, rfl⟩ | ⟨y, -, rfl⟩ := h
  · exact ⟨x, r, rfl⟩
  · exact ⟨c', y, rfl⟩

end Sys2Proof.Machine
end

