-- ==== Sys2Proof/Machine/Encoding.lean ====
section
/-! DEFINITION. The words of the tile instructions: how the manual encodes them and what a core reads from them (R133 to R135, R141 to R151, R199, R201, R205, R208). The rows of the opcode table carry decoded operands; these functions say which words at PC spell which row. -/

namespace Sys2Proof.Machine

/-- Bits `lo + w - 1 : lo` of a word. -/
def wbits (w : W16) (lo n : Nat) : Nat := bitsOf w.toNat lo n
/-- D register number `v`. -/
def regD (v : Nat) : Dn := Fin.ofNat 16 v
/-- A register number `v`. -/
def regA (v : Nat) : An := Fin.ofNat 8 v
/-- Accumulator number `v`. -/
def regAcc (v : Nat) : Accn := Fin.ofNat 4 v

/-- A first word: OP in bits 15:10, X in 9:6, Y in 5:2, M in 1:0 (R133). -/
def firstWord (op x y m : Nat) : W16 := BitVec.ofNat 16 (1024 * op + 64 * x + 4 * y + m)

/-- The words of vector function `fn` (R199). -/
def vecWords (fn : Nat) (v : VOps) : List W16 :=
  [BitVec.ofNat 16 (1024 * 0x30 + 32 * fn + 4 * v.ty.val + v.ixm.val), BitVec.ofNat 16 (256 * v.va.val + v.vb.val), BitVec.ofNat 16 (256 * v.vd.val + v.vc.val)]

/-- The words of ZRD and ZWR (R208). -/
def moveWords (m : Nat) (z : ZMove) : List W16 :=
  [BitVec.ofNat 16 (1024 * 0x31 + 512 * bit z.ix + m), BitVec.ofNat 16 (32768 * z.half.val + 1024 * z.zrow.val + 256 * z.d.val + z.row.val)]

/-- The first two words of MMA and MMA.MX (R208). -/
def mmaWords (m : Nat) (o : MmaOps) : List W16 :=
  [BitVec.ofNat 16 (1024 * 0x3A + 512 * bit o.zs + m), BitVec.ofNat 16 (4096 * o.fb.val + 256 * o.fa.val + 32 * o.b.val + 4 * o.a.val + o.d.val)]

/-- The words of a tile instruction, in order; none for a row that is no instruction. TAKE and XU_CTX are writes of core register 0x3C and unit register 0x05. -/
def codeWords : Instr → Option (List W16)
  | .nop _ => some [firstWord 0x01 0 0 0]
  | .mov _ x y => some [firstWord 0x02 x.val y.val 0]
  | .movi _ x i => some [firstWord 0x03 x.val 0 0, i]
  | .mova _ x (.reg y) => some [firstWord 0x04 x.val y.val 0]
  | .mova _ x (.imm i) => some [firstWord 0x04 x.val 0 1, i.extractLsb' 0 16, i.extractLsb' 16 16]
  | .getl _ x y => some [firstWord 0x05 x.val y.val 0]
  | .geth _ x y => some [firstWord 0x05 x.val y.val 1]
  | .putl _ x y => some [firstWord 0x05 x.val y.val 2]
  | .puth _ x y => some [firstWord 0x05 x.val y.val 3]
  | .ld _ x y .ind => some [firstWord 0x06 x.val y.val 0]
  | .ld _ x y .postInc => some [firstWord 0x06 x.val y.val 1]
  | .ld _ x y .preDec => some [firstWord 0x06 x.val y.val 2]
  | .ld _ x y (.disp d) => some [firstWord 0x06 x.val y.val 3, d]
  | .st _ x y .ind => some [firstWord 0x07 x.val y.val 0]
  | .st _ x y .postInc => some [firstWord 0x07 x.val y.val 1]
  | .st _ x y .preDec => some [firstWord 0x07 x.val y.val 2]
  | .st _ x y (.disp d) => some [firstWord 0x07 x.val y.val 3, d]
  | .lda _ x y .ind => some [firstWord 0x08 x.val y.val 0]
  | .lda _ x y .postInc => some [firstWord 0x08 x.val y.val 1]
  | .lda _ x y .preDec => some [firstWord 0x08 x.val y.val 2]
  | .lda _ x y (.disp d) => some [firstWord 0x08 x.val y.val 3, d]
  | .sta _ x y .ind => some [firstWord 0x09 x.val y.val 0]
  | .sta _ x y .postInc => some [firstWord 0x09 x.val y.val 1]
  | .sta _ x y .preDec => some [firstWord 0x09 x.val y.val 2]
  | .sta _ x y (.disp d) => some [firstWord 0x09 x.val y.val 3, d]
  | .lea _ x y (.d16 d) => some [firstWord 0x0a x.val y.val 0, d]
  | .lea _ x y (.d32 d) => some [firstWord 0x0a x.val y.val 1, d.extractLsb' 0 16, d.extractLsb' 16 16]
  | .push _ x => some [firstWord 0x0b x.val 0 0]
  | .pop _ x => some [firstWord 0x0b x.val 0 1]
  | .pusha _ x => some [firstWord 0x0b x.val 0 2]
  | .popa _ x => some [firstWord 0x0b x.val 0 3]
  | .add _ x (.reg y) => some [firstWord 0x0c x.val y.val 0]
  | .add _ x (.imm i) => some [firstWord 0x0c x.val 0 1, i]
  | .addc _ x (.reg y) => some [firstWord 0x0d x.val y.val 0]
  | .addc _ x (.imm i) => some [firstWord 0x0d x.val 0 1, i]
  | .sub _ x (.reg y) => some [firstWord 0x0e x.val y.val 0]
  | .sub _ x (.imm i) => some [firstWord 0x0e x.val 0 1, i]
  | .subc _ x (.reg y) => some [firstWord 0x0f x.val y.val 0]
  | .subc _ x (.imm i) => some [firstWord 0x0f x.val 0 1, i]
  | .cmp _ x (.reg y) => some [firstWord 0x10 x.val y.val 0]
  | .cmp _ x (.imm i) => some [firstWord 0x10 x.val 0 1, i]
  | .and _ x (.reg y) => some [firstWord 0x11 x.val y.val 0]
  | .and _ x (.imm i) => some [firstWord 0x11 x.val 0 1, i]
  | .or _ x (.reg y) => some [firstWord 0x12 x.val y.val 0]
  | .or _ x (.imm i) => some [firstWord 0x12 x.val 0 1, i]
  | .xor _ x (.reg y) => some [firstWord 0x13 x.val y.val 0]
  | .xor _ x (.imm i) => some [firstWord 0x13 x.val 0 1, i]
  | .not _ x => some [firstWord 0x14 x.val 0 0]
  | .neg _ x => some [firstWord 0x14 x.val 0 1]
  | .abs _ x => some [firstWord 0x14 x.val 0 2]
  | .shl _ x (.reg y) => some [firstWord 0x15 x.val y.val 0]
  | .shr _ x (.reg y) => some [firstWord 0x15 x.val y.val 1]
  | .sar _ x (.reg y) => some [firstWord 0x15 x.val y.val 2]
  | .rol _ x (.reg y) => some [firstWord 0x15 x.val y.val 3]
  | .shl _ x (.imm k) => some [firstWord 0x16 x.val k.val 0]
  | .shr _ x (.imm k) => some [firstWord 0x16 x.val k.val 1]
  | .sar _ x (.imm k) => some [firstWord 0x16 x.val k.val 2]
  | .rol _ x (.imm k) => some [firstWord 0x16 x.val k.val 3]
  | .mul _ x y => some [firstWord 0x17 x.val y.val 0]
  | .mulu _ x y => some [firstWord 0x17 x.val y.val 1]
  | .mulh _ x y => some [firstWord 0x17 x.val y.val 2]
  | .mulhu _ x y => some [firstWord 0x17 x.val y.val 3]
  | .adda _ x (.reg y) => some [firstWord 0x18 x.val y.val 0]
  | .adda _ x (.d16 d) => some [firstWord 0x18 x.val 0 1, d]
  | .cmpa _ x y => some [firstWord 0x18 x.val y.val 2]
  | .adda _ x (.d32 d) => some [firstWord 0x18 x.val 0 3, d.extractLsb' 0 16, d.extractLsb' 16 16]
  | .ext _ x y spec => some [firstWord 0x19 x.val y.val 0, spec]
  | .ins _ x y spec => some [firstWord 0x1a x.val y.val 0, spec]
  | .bswap _ x y => some [firstWord 0x1b x.val y.val 0]
  | .clz _ x y => some [firstWord 0x1b x.val y.val 1]
  | .popc _ x y => some [firstWord 0x1b x.val y.val 2]
  | .mac _ n i j => some [BitVec.ofNat 16 (0x7000 + 256 * n.val + 32 * i.val + 4 * j.val + 0)]
  | .macs _ n i j => some [BitVec.ofNat 16 (0x7000 + 256 * n.val + 32 * i.val + 4 * j.val + 1)]
  | .msu _ n i j => some [BitVec.ofNat 16 (0x7000 + 256 * n.val + 32 * i.val + 4 * j.val + 2)]
  | .macu _ n i j => some [BitVec.ofNat 16 (0x7000 + 256 * n.val + 32 * i.val + 4 * j.val + 3)]
  | .macr _ n x y => some [firstWord 0x1d x.val y.val n.val]
  | .clra _ n => some [firstWord 0x1e n.val 0 0]
  | .rdacc _ x n spec => some [firstWord 0x1e x.val n.val 1, spec]
  | .wracc _ n y => some [firstWord 0x1e n.val y.val 2]
  | .addacc _ n m => some [firstWord 0x1e n.val m.val 3]
  | .stacc _ n y => some [firstWord 0x1f n.val y.val 0]
  | .ldacc _ n y => some [firstWord 0x1f n.val y.val 1]
  | .br _ cc d => some [firstWord 0x20 cc.val 0 0, d]
  | .brl _ cc d => some [firstWord 0x21 cc.val 0 0, d.extractLsb' 0 16, d.extractLsb' 16 16]
  | .jmp _ (.reg y) => some [firstWord 0x22 0 y.val 0]
  | .jmp _ (.imm a) => some [firstWord 0x22 0 0 1, a.extractLsb' 0 16, a.extractLsb' 16 16]
  | .call _ (.reg y) => some [firstWord 0x22 0 y.val 2]
  | .call _ (.imm a) => some [firstWord 0x22 0 0 3, a.extractLsb' 0 16, a.extractLsb' 16 16]
  | .ret _ => some [firstWord 0x23 0 0 0]
  | .loop _ x d => some [firstWord 0x24 x.val 0 0, d]
  | .waits _ x => some [firstWord 0x25 x.val 0 0]
  | .sig _ x => some [firstWord 0x25 x.val 0 1]
  | .waitp _ y => some [firstWord 0x26 0 y.val 0]
  | .waitt _ x y => some [firstWord 0x27 x.val y.val 0]
  | .tadv _ x (.imm i) => some [firstWord 0x28 x.val 0 0, i]
  | .tadv _ x (.reg y) => some [firstWord 0x28 x.val y.val 1]
  | .trd _ x y => some [firstWord 0x29 x.val y.val 0]
  | .rdpos _ y => some [firstWord 0x29 0 y.val 1]
  | .dmago _ x y => some [firstWord 0x2a x.val y.val 0]
  | .fence _ => some [firstWord 0x2b 0 0 0]
  | .icinv _ y => some [firstWord 0x2b 0 y.val 1]
  | .icinvAll _ => some [firstWord 0x2b 0 0 2]
  | .mfsw _ x => some [firstWord 0x2c x.val 0 0]
  | .mtsw _ y => some [firstWord 0x2c 0 y.val 1]
  | .mfcr _ x cr => some [firstWord 0x2c x.val 0 2, BitVec.ofNat 16 cr.val]
  | .mtcr _ cr y => some [firstWord 0x2c 0 y.val 3, BitVec.ofNat 16 cr.val]
  | .take _ y => some [firstWord 0x2c 0 y.val 3, 0x3C]
  | .gate _ g => some [firstWord 0x2d 0 0 0, g]
  | .reti _ => some [firstWord 0x2d 0 0 1]
  | .retiInterruption _ => some [firstWord 0x2d 0 0 1]
  | .noint _ n => some [firstWord 0x2d 0 0 2, n]
  | .halt _ => some [firstWord 0x2d 0 0 3]
  | .vadd _ v => some (vecWords 0 v)
  | .vsub _ v => some (vecWords 1 v)
  | .vmul _ v => some (vecWords 2 v)
  | .vfma _ v => some (vecWords 3 v)
  | .vmin _ v => some (vecWords 4 v)
  | .vmax _ v => some (vecWords 5 v)
  | .vabs _ v => some (vecWords 6 v)
  | .vneg _ v => some (vecWords 7 v)
  | .vand _ v => some (vecWords 8 v)
  | .vor _ v => some (vecWords 9 v)
  | .vxor _ v => some (vecWords 10 v)
  | .vshl _ v => some (vecWords 11 v)
  | .vshr _ v => some (vecWords 12 v)
  | .vsar _ v => some (vecWords 13 v)
  | .vcmpeq _ v => some (vecWords 14 v)
  | .vcmplt _ v => some (vecWords 15 v)
  | .vcmple _ v => some (vecWords 16 v)
  | .vsel _ v => some (vecWords 17 v)
  | .vmov _ v => some (vecWords 18 v)
  | .vbcast _ v => some (vecWords 19 v)
  | .vsum _ v => some (vecWords 20 v)
  | .vcvt _ v => some (vecWords 21 v)
  | .vpack _ v => some (vecWords 22 v)
  | .vunpk _ v => some (vecWords 23 v)
  | .zrd _ z => some (moveWords 0 z)
  | .zwr _ z => some (moveWords 1 z)
  | .tld _ n y x => some [firstWord 0x38 x.val y.val 0, BitVec.ofNat 16 n.val]
  | .tst _ n y x => some [firstWord 0x38 x.val y.val 1, BitVec.ofNat 16 n.val]
  | .zld _ n y x => some [firstWord 0x38 x.val y.val 2, BitVec.ofNat 16 n.val]
  | .zst _ n y x => some [firstWord 0x38 x.val y.val 3, BitVec.ofNat 16 n.val]
  | .rld _ row ix y => some [firstWord 0x39 0 y.val 0, BitVec.ofNat 16 (row.val + 512 * bit ix)]
  | .rst _ row ix y => some [firstWord 0x39 0 y.val 1, BitVec.ofNat 16 (row.val + 512 * bit ix)]
  | .mma _ m => some (mmaWords 0 m)
  | .mmaMx _ m s => some (mmaWords 1 m ++ [BitVec.ofNat 16 s.val])
  | .zclr _ d => some [firstWord 0x3b d.val 0 0]
  | .xmf _ x u => some [firstWord 0x3e x.val 0 0, BitVec.ofNat 16 u.val]
  | .xmt _ u y => some [firstWord 0x3e 0 y.val 1, BitVec.ofNat 16 u.val]
  | .xuCtx _ y => some [firstWord 0x3e 0 y.val 1, 5]
  | .xwait _ => some [firstWord 0x3e 0 0 2]
  | _ => none

/-- The fields of a vector instruction (R199). -/
def vops (w0 w1 w2 : W16) : VOps :=
  { ty := Fin.ofNat 8 (wbits w0 2 3), ixm := regAcc (wbits w0 0 2), va := Fin.ofNat 256 (wbits w1 8 8), vb := Fin.ofNat 256 (wbits w1 0 8), vd := Fin.ofNat 256 (wbits w2 8 8), vc := Fin.ofNat 256 (wbits w2 0 8) }

/-- The fields of ZRD and ZWR (R208). -/
def zmove (w0 w1 : W16) : ZMove :=
  { ix := w0.getLsbD 9, row := Fin.ofNat 256 (wbits w1 0 8), d := regAcc (wbits w1 8 2), zrow := Fin.ofNat 32 (wbits w1 10 5), half := Fin.ofNat 2 (wbits w1 15 1) }

/-- The fields of MMA (R208). -/
def mmaOps (w0 w1 : W16) : MmaOps := { zs := w0.getLsbD 9, d := regAcc (wbits w1 0 2), a := regA (wbits w1 2 3), b := regA (wbits w1 5 3), fa := regD (wbits w1 8 4), fb := regD (wbits w1 12 4) }

/-- The vector function of FN (R201). FN 24 to 31 raise ILLEGAL_OP. -/
def vecOf (t : TileId) (v : VOps) : Nat → Option Instr
  | 0 => some (.vadd t v)
  | 1 => some (.vsub t v)
  | 2 => some (.vmul t v)
  | 3 => some (.vfma t v)
  | 4 => some (.vmin t v)
  | 5 => some (.vmax t v)
  | 6 => some (.vabs t v)
  | 7 => some (.vneg t v)
  | 8 => some (.vand t v)
  | 9 => some (.vor t v)
  | 10 => some (.vxor t v)
  | 11 => some (.vshl t v)
  | 12 => some (.vshr t v)
  | 13 => some (.vsar t v)
  | 14 => some (.vcmpeq t v)
  | 15 => some (.vcmplt t v)
  | 16 => some (.vcmple t v)
  | 17 => some (.vsel t v)
  | 18 => some (.vmov t v)
  | 19 => some (.vbcast t v)
  | 20 => some (.vsum t v)
  | 21 => some (.vcvt t v)
  | 22 => some (.vpack t v)
  | 23 => some (.vunpk t v)
  | _ => none

/-- `i` where the unused and reserved fields are 0; otherwise ILLEGAL_OP (R134). -/
def fieldsZero (p : Bool) (i : Instr) : Option Instr := if p then some i else none

/-- The instruction that tile `t` reads from the word at PC and the two words after it. None: a reserved opcode or M value, or a field that must be 0 and is not, so that the core raises ILLEGAL_OP (R134). Operands that an instruction checks itself are passed on as they stand. -/
def readWords (t : TileId) (w0 w1 w2 : W16) : Option Instr :=
  let x := wbits w0 6 4
  let y := wbits w0 2 4
  let m := wbits w0 0 2
  match wbits w0 10 6 with
  | 0x01 => match m with
    | 0 => fieldsZero (x = 0 && y = 0) (.nop t)
    | _ => none
  | 0x02 => match m with
    | 0 => some (.mov t (regD x) (regD y))
    | _ => none
  | 0x03 => match m with
    | 0 => fieldsZero (y = 0) (.movi t (regD x) w1)
    | _ => none
  | 0x04 => match m with
    | 0 => fieldsZero (x < 8 && y < 8) (.mova t (regA x) (.reg (regA y)))
    | 1 => fieldsZero (x < 8 && y = 0) (.mova t (regA x) (.imm (w2 ++ w1)))
    | _ => none
  | 0x05 => match m with
    | 0 => fieldsZero (y < 8) (.getl t (regD x) (regA y))
    | 1 => fieldsZero (y < 8) (.geth t (regD x) (regA y))
    | 2 => fieldsZero (x < 8) (.putl t (regA x) (regD y))
    | _ => fieldsZero (x < 8) (.puth t (regA x) (regD y))
  | 0x06 => match m with
    | 0 => fieldsZero (y < 8) (.ld t (regD x) (regA y) .ind)
    | 1 => fieldsZero (y < 8) (.ld t (regD x) (regA y) .postInc)
    | 2 => fieldsZero (y < 8) (.ld t (regD x) (regA y) .preDec)
    | _ => fieldsZero (y < 8) (.ld t (regD x) (regA y) (.disp w1))
  | 0x07 => match m with
    | 0 => fieldsZero (y < 8) (.st t (regD x) (regA y) .ind)
    | 1 => fieldsZero (y < 8) (.st t (regD x) (regA y) .postInc)
    | 2 => fieldsZero (y < 8) (.st t (regD x) (regA y) .preDec)
    | _ => fieldsZero (y < 8) (.st t (regD x) (regA y) (.disp w1))
  | 0x08 => match m with
    | 0 => fieldsZero (x < 8 && y < 8) (.lda t (regA x) (regA y) .ind)
    | 1 => fieldsZero (x < 8 && y < 8) (.lda t (regA x) (regA y) .postInc)
    | 2 => fieldsZero (x < 8 && y < 8) (.lda t (regA x) (regA y) .preDec)
    | _ => fieldsZero (x < 8 && y < 8) (.lda t (regA x) (regA y) (.disp w1))
  | 0x09 => match m with
    | 0 => fieldsZero (x < 8 && y < 8) (.sta t (regA x) (regA y) .ind)
    | 1 => fieldsZero (x < 8 && y < 8) (.sta t (regA x) (regA y) .postInc)
    | 2 => fieldsZero (x < 8 && y < 8) (.sta t (regA x) (regA y) .preDec)
    | _ => fieldsZero (x < 8 && y < 8) (.sta t (regA x) (regA y) (.disp w1))
  | 0x0a => match m with
    | 0 => fieldsZero (x < 8 && y < 8) (.lea t (regA x) (regA y) (.d16 w1))
    | 1 => fieldsZero (x < 8 && y < 8) (.lea t (regA x) (regA y) (.d32 (w2 ++ w1)))
    | _ => none
  | 0x0b => match m with
    | 0 => fieldsZero (y = 0) (.push t (regD x))
    | 1 => fieldsZero (y = 0) (.pop t (regD x))
    | 2 => fieldsZero (x < 8 && y = 0) (.pusha t (regA x))
    | _ => fieldsZero (x < 8 && y = 0) (.popa t (regA x))
  | 0x0c => match m with
    | 0 => some (.add t (regD x) (.reg (regD y)))
    | 1 => fieldsZero (y = 0) (.add t (regD x) (.imm w1))
    | _ => none
  | 0x0d => match m with
    | 0 => some (.addc t (regD x) (.reg (regD y)))
    | 1 => fieldsZero (y = 0) (.addc t (regD x) (.imm w1))
    | _ => none
  | 0x0e => match m with
    | 0 => some (.sub t (regD x) (.reg (regD y)))
    | 1 => fieldsZero (y = 0) (.sub t (regD x) (.imm w1))
    | _ => none
  | 0x0f => match m with
    | 0 => some (.subc t (regD x) (.reg (regD y)))
    | 1 => fieldsZero (y = 0) (.subc t (regD x) (.imm w1))
    | _ => none
  | 0x10 => match m with
    | 0 => some (.cmp t (regD x) (.reg (regD y)))
    | 1 => fieldsZero (y = 0) (.cmp t (regD x) (.imm w1))
    | _ => none
  | 0x11 => match m with
    | 0 => some (.and t (regD x) (.reg (regD y)))
    | 1 => fieldsZero (y = 0) (.and t (regD x) (.imm w1))
    | _ => none
  | 0x12 => match m with
    | 0 => some (.or t (regD x) (.reg (regD y)))
    | 1 => fieldsZero (y = 0) (.or t (regD x) (.imm w1))
    | _ => none
  | 0x13 => match m with
    | 0 => some (.xor t (regD x) (.reg (regD y)))
    | 1 => fieldsZero (y = 0) (.xor t (regD x) (.imm w1))
    | _ => none
  | 0x14 => match m with
    | 0 => fieldsZero (y = 0) (.not t (regD x))
    | 1 => fieldsZero (y = 0) (.neg t (regD x))
    | 2 => fieldsZero (y = 0) (.abs t (regD x))
    | _ => none
  | 0x15 => match m with
    | 0 => some (.shl t (regD x) (.reg (regD y)))
    | 1 => some (.shr t (regD x) (.reg (regD y)))
    | 2 => some (.sar t (regD x) (.reg (regD y)))
    | _ => some (.rol t (regD x) (.reg (regD y)))
  | 0x16 => match m with
    | 0 => some (.shl t (regD x) (.imm (regD y)))
    | 1 => some (.shr t (regD x) (.imm (regD y)))
    | 2 => some (.sar t (regD x) (.imm (regD y)))
    | _ => some (.rol t (regD x) (.imm (regD y)))
  | 0x17 => match m with
    | 0 => some (.mul t (regD x) (regD y))
    | 1 => some (.mulu t (regD x) (regD y))
    | 2 => some (.mulh t (regD x) (regD y))
    | _ => some (.mulhu t (regD x) (regD y))
  | 0x18 => match m with
    | 0 => fieldsZero (x < 8) (.adda t (regA x) (.reg (regD y)))
    | 1 => fieldsZero (x < 8 && y = 0) (.adda t (regA x) (.d16 w1))
    | 2 => fieldsZero (x < 8 && y < 8) (.cmpa t (regA x) (regA y))
    | _ => fieldsZero (x < 8 && y = 0) (.adda t (regA x) (.d32 (w2 ++ w1)))
  | 0x19 => match m with
    | 0 => some (.ext t (regD x) (regD y) w1)
    | _ => none
  | 0x1a => match m with
    | 0 => some (.ins t (regD x) (regD y) w1)
    | _ => none
  | 0x1b => match m with
    | 0 => some (.bswap t (regD x) (regD y))
    | 1 => some (.clz t (regD x) (regD y))
    | 2 => some (.popc t (regD x) (regD y))
    | _ => none
  | 0x1c => match m with
    | 0 => some (.mac t (regAcc (wbits w0 8 2)) (regA (wbits w0 5 3)) (regA (wbits w0 2 3)))
    | 1 => some (.macs t (regAcc (wbits w0 8 2)) (regA (wbits w0 5 3)) (regA (wbits w0 2 3)))
    | 2 => some (.msu t (regAcc (wbits w0 8 2)) (regA (wbits w0 5 3)) (regA (wbits w0 2 3)))
    | _ => some (.macu t (regAcc (wbits w0 8 2)) (regA (wbits w0 5 3)) (regA (wbits w0 2 3)))
  | 0x1d => some (.macr t (regAcc m) (regD x) (regD y))
  | 0x1e => match m with
    | 0 => fieldsZero (x < 4 && y = 0) (.clra t (regAcc x))
    | 1 => fieldsZero (y < 4) (.rdacc t (regD x) (regAcc y) w1)
    | 2 => fieldsZero (x < 4) (.wracc t (regAcc x) (regD y))
    | _ => fieldsZero (x < 4 && y < 4) (.addacc t (regAcc x) (regAcc y))
  | 0x1f => match m with
    | 0 => fieldsZero (x < 4 && y < 8) (.stacc t (regAcc x) (regA y))
    | 1 => fieldsZero (x < 4 && y < 8) (.ldacc t (regAcc x) (regA y))
    | _ => none
  | 0x20 => match m with
    | 0 => fieldsZero (y = 0) (.br t (regD x) w1)
    | _ => none
  | 0x21 => match m with
    | 0 => fieldsZero (y = 0) (.brl t (regD x) (w2 ++ w1))
    | _ => none
  | 0x22 => match m with
    | 0 => fieldsZero (y < 8 && x = 0) (.jmp t (.reg (regA y)))
    | 1 => fieldsZero (x = 0 && y = 0) (.jmp t (.imm (w2 ++ w1)))
    | 2 => fieldsZero (y < 8 && x = 0) (.call t (.reg (regA y)))
    | _ => fieldsZero (x = 0 && y = 0) (.call t (.imm (w2 ++ w1)))
  | 0x23 => match m with
    | 0 => fieldsZero (x = 0 && y = 0) (.ret t)
    | _ => none
  | 0x24 => match m with
    | 0 => fieldsZero (y = 0) (.loop t (regD x) w1)
    | _ => none
  | 0x25 => match m with
    | 0 => fieldsZero (y = 0) (.waits t (regD x))
    | 1 => fieldsZero (y = 0) (.sig t (regD x))
    | _ => none
  | 0x26 => match m with
    | 0 => fieldsZero (y < 8 && x = 0) (.waitp t (regA y))
    | _ => none
  | 0x27 => match m with
    | 0 => fieldsZero (y < 8) (.waitt t (regD x) (regA y))
    | _ => none
  | 0x28 => match m with
    | 0 => fieldsZero (y = 0) (.tadv t (regD x) (.imm w1))
    | 1 => some (.tadv t (regD x) (.reg (regD y)))
    | _ => none
  | 0x29 => match m with
    | 0 => fieldsZero (y < 8) (.trd t (regD x) (regA y))
    | 1 => fieldsZero (y < 8 && x = 0) (.rdpos t (regA y))
    | _ => none
  | 0x2a => match m with
    | 0 => fieldsZero (y < 8) (.dmago t (regD x) (regA y))
    | _ => none
  | 0x2b => match m with
    | 0 => fieldsZero (x = 0 && y = 0) (.fence t)
    | 1 => fieldsZero (y < 8 && x = 0) (.icinv t (regA y))
    | 2 => fieldsZero (x = 0 && y = 0) (.icinvAll t)
    | _ => none
  | 0x2c => match m with
    | 0 => fieldsZero (y = 0) (.mfsw t (regD x))
    | 1 => fieldsZero (x = 0) (.mtsw t (regD y))
    | 2 => fieldsZero (w1.toNat < 64 && y = 0) (.mfcr t (regD x) (Fin.ofNat 64 w1.toNat))
    | _ => fieldsZero (w1.toNat < 64 && x = 0) (.mtcr t (Fin.ofNat 64 w1.toNat) (regD y))
  | 0x2d => match m with
    | 0 => fieldsZero (x = 0 && y = 0) (.gate t w1)
    | 1 => fieldsZero (x = 0 && y = 0) (.reti t)
    | 2 => fieldsZero (x = 0 && y = 0) (.noint t w1)
    | _ => fieldsZero (x = 0 && y = 0) (.halt t)
  | 0x30 => vecOf t (vops w0 w1 w2) (wbits w0 5 5)
  | 0x31 => match m with
    | 0 => fieldsZero (wbits w0 2 7 = 0) (.zrd t (zmove w0 w1))
    | 1 => fieldsZero (wbits w0 2 7 = 0) (.zwr t (zmove w0 w1))
    | _ => none
  | 0x38 => match m with
    | 0 => fieldsZero (y < 8 && w1.toNat < 8) (.tld t (Fin.ofNat 8 w1.toNat) (regA y) (regD x))
    | 1 => fieldsZero (y < 8 && w1.toNat < 8) (.tst t (Fin.ofNat 8 w1.toNat) (regA y) (regD x))
    | 2 => fieldsZero (y < 8 && w1.toNat < 4) (.zld t (Fin.ofNat 4 w1.toNat) (regA y) (regD x))
    | _ => fieldsZero (y < 8 && w1.toNat < 4) (.zst t (Fin.ofNat 4 w1.toNat) (regA y) (regD x))
  | 0x39 => match m with
    | 0 => fieldsZero (x = 0 && y < 8 && w1.toNat < 1024) (.rld t (Fin.ofNat 512 w1.toNat) (w1.getLsbD 9) (regA y))
    | 1 => fieldsZero (x = 0 && y < 8 && w1.toNat < 1024) (.rst t (Fin.ofNat 512 w1.toNat) (w1.getLsbD 9) (regA y))
    | _ => none
  | 0x3a => match m with
    | 0 => fieldsZero (wbits w0 2 7 = 0) (.mma t (mmaOps w0 w1))
    | 1 => fieldsZero (wbits w0 2 7 = 0 && w2.toNat < 8) (.mmaMx t (mmaOps w0 w1) (regA w2.toNat))
    | _ => none
  | 0x3b => match m with
    | 0 => fieldsZero (x < 4 && y = 0) (.zclr t (regAcc x))
    | _ => none
  | 0x3e => match m with
    | 0 => fieldsZero (w1.toNat < 128 && y = 0) (.xmf t (regD x) (Fin.ofNat 128 w1.toNat))
    | 1 => fieldsZero (w1.toNat < 128 && x = 0) (.xmt t (Fin.ofNat 128 w1.toNat) (regD y))
    | 2 => fieldsZero (x = 0 && y = 0) (.xwait t)
    | _ => none
  | _ => none

end Sys2Proof.Machine
end

