-- ==== Sys2Proof/Machine/Package.lean ====
section
/-! DEFINITION. The lands of the package: their names and places, the signal or supply of each, its direction, its rail and its state in reset (R558 to R564). No command changes them. -/

namespace Sys2Proof.Machine

/-! ### Lands (R558, R559) -/

/-- The letters of row names, in order (R559). -/
def rowLetters : List Char := ['A', 'B', 'C', 'D', 'E', 'F', 'G', 'H', 'J', 'K', 'L', 'M', 'N', 'P', 'T', 'U', 'V', 'W', 'Y', 'Z']

/-- The name of row index `n`, from 1: one letter up to 20, then two (R559). -/
def rowName (n : Nat) : List Char :=
  let y := (n - 1) % 20 + 1
  let last := rowLetters.getD (y - 1) 'A'
  if n ≤ 20 then [last] else [rowLetters.getD ((n - y) / 20 - 1) 'A', last]

/-- The position in row index `n` and column `c` bears a land: 104 by 104, but for the middle (R558). -/
def hasLand (n c : Nat) : Bool := 1 ≤ n && n ≤ 104 && 1 ≤ c && c ≤ 104 && !(41 ≤ n && n ≤ 64 && 41 ≤ c && c ≤ 64)

/-- The centre of a land in micrometres from the body centre: x by its column, y by its row (R558). -/
def landCentre (n c : Nat) : Int × Int := (1100 * (c : Int) - 57750, 1100 * (n : Int) - 57750)

/-! ### Signals (R560 to R563) -/

/-- A signal of the part. A pair's `neg` is its N line (R562, R563). -/
inductive Signal where
  | fabTx (port lane : Nat) (neg : Bool)
  | fabRx (port lane : Nat) (neg : Bool)
  | pcieTx (lane : Nat) (neg : Bool)
  | pcieRx (lane : Nat) (neg : Bool)
  | ethTx (port : Nat) (neg : Bool)
  | ethRx (port : Nat) (neg : Bool)
  | dpMl (lane : Nat) (neg : Bool)
  | dpAux (neg : Bool)
  | sdi (out : Nat) (neg : Bool)
  | refIn
  | refLoop
  | sysclk (neg : Bool)
  | pcieRefclk (neg : Bool)
  | pciePerstN
  | sysRstN
  | pwrWake (b : Bool)
  | smbScl
  | smbSda
  | smbAsel (bit : Nat)
  | sysPwrgd
  | sysThermN
  | vidFaultN
  | ethMdc
  | ethMdio
  | ethPhyRstN (port : Nat)
  | ethPhyIntN (port : Nat)
  | dpHpd
  deriving DecidableEq, Repr

/-- What a land carries (R561 to R564). -/
inductive Land where
  | signal (x : Signal)
  | test (k : Nat)
  | v48
  | holdup
  | aux3v3
  | gnd
  deriving DecidableEq, Repr

/-- The supply of a land's buffer (R560). -/
inductive Rail where
  | aux | io | hs | hub
  deriving DecidableEq, Repr

/-- The direction of a signal (R562, R563). -/
inductive PinDir where
  | input | output | both | openDrainBoth | openDrainOut
  deriving DecidableEq, Repr

/-- The state of a land during a power-on or device reset with AUX present (R560). -/
inductive PinState where
  | noDifferential | terminated | electricalIdle | idle | noSignal | highImpedance | input75 | driving | input | inputPullUp | low
  deriving DecidableEq, Repr

/-- A land of a block six columns wide by its place `k` in it: P and N of the first pair, then of the second; the others are ground (R561). -/
def pairLand (k : Nat) (first second : Bool → Signal) : Land :=
  match k with
  | 1 => .signal (first false)
  | 2 => .signal (first true)
  | 4 => .signal (second false)
  | 5 => .signal (second true)
  | _ => .gnd

/-- The high-speed and analog lands of the rows DV to ED, columns 5 to 40 (R562). -/
def lowerBlock (n c : Nat) : Land :=
  let k := (c - 5) % 6
  match (c - 5) / 6, n - 97 with
  | 0, l => pairLand k (.pcieTx l) (.pcieRx l)
  | 1, l => pairLand k (.pcieTx (8 + l)) (.pcieRx (8 + l))
  | 2, 0 => pairLand k (.ethTx 0) (.ethRx 0)
  | 2, 1 => pairLand k (.ethTx 1) (.ethRx 1)
  | 3, 0 => pairLand k (.dpMl 0) (.dpMl 1)
  | 3, 1 => pairLand k (.dpMl 2) (.dpMl 3)
  | 3, 2 => if k = 1 then .signal (.dpAux false) else if k = 2 then .signal (.dpAux true) else .gnd
  | 4, 0 => pairLand k (.sdi 0) (.sdi 1)
  | 5, 0 => if k = 1 then .signal .refIn else if k = 4 then .signal .refLoop else .gnd
  | 5, 1 => pairLand k .sysclk .pcieRefclk
  | _, _ => .gnd

/-- The low-speed and TEST lands of row DV by column (R563). -/
def lowSpeed (c : Nat) : Land :=
  match c with
  | 41 => .signal .pciePerstN
  | 42 => .signal .sysRstN
  | 43 => .signal (.pwrWake false)
  | 44 => .signal (.pwrWake true)
  | 45 => .signal .smbScl
  | 46 => .signal .smbSda
  | 47 => .signal (.smbAsel 0)
  | 48 => .signal (.smbAsel 1)
  | 49 => .signal .sysPwrgd
  | 50 => .signal .sysThermN
  | 51 => .signal .vidFaultN
  | 52 => .signal .ethMdc
  | 53 => .signal .ethMdio
  | 54 => .signal (.ethPhyRstN 0)
  | 55 => .signal (.ethPhyRstN 1)
  | 56 => .signal (.ethPhyIntN 0)
  | 57 => .signal (.ethPhyIntN 1)
  | 58 => .signal .dpHpd
  | _ => if 59 ≤ c && c ≤ 76 then .test (c - 59) else .gnd

/-- What the land in row index `n` and column `c` carries (R561 to R564); none where there is no land. -/
def landAt (n c : Nat) : Option Land :=
  if !hasLand n c then none
  else some (
    if n ≤ 8 && 5 ≤ c && c ≤ 100 then pairLand ((c - 5) % 6) (.fabTx ((c - 5) / 6) (n - 1)) (.fabRx ((c - 5) / 6) (n - 1))
    else if 97 ≤ n && 5 ≤ c && c ≤ 40 then lowerBlock n c
    else if n = 97 && 41 ≤ c && c ≤ 76 then lowSpeed c
    else if c ≤ 2 && 21 ≤ n && n ≤ 100 then .v48
    else if 103 ≤ c && 41 ≤ n && n ≤ 48 then .holdup
    else if 103 ≤ c && 21 ≤ n && n ≤ 24 then .aux3v3
    else .gnd)

/-- Direction, rail and state in reset of a signal (R562, R563). -/
def signalPin : Signal → PinDir × Rail × PinState
  | .fabTx .. => (.output, .hs, .noDifferential)
  | .fabRx .. => (.input, .hs, .terminated)
  | .pcieTx .. => (.output, .hs, .electricalIdle)
  | .pcieRx .. => (.input, .hs, .terminated)
  | .ethTx .. => (.output, .hs, .idle)
  | .ethRx .. => (.input, .hs, .terminated)
  | .dpMl .. => (.output, .hs, .noSignal)
  | .dpAux _ => (.both, .hs, .highImpedance)
  | .sdi .. => (.output, .hs, .noSignal)
  | .refIn => (.input, .aux, .input75)
  | .refLoop => (.output, .aux, .driving)
  | .sysclk _ => (.input, .hub, .input)
  | .pcieRefclk _ => (.input, .hs, .input)
  | .pciePerstN => (.input, .aux, .input)
  | .sysRstN => (.input, .aux, .inputPullUp)
  | .pwrWake _ => (.input, .aux, .input)
  | .smbScl => (.openDrainBoth, .aux, .highImpedance)
  | .smbSda => (.openDrainBoth, .aux, .highImpedance)
  | .smbAsel _ => (.input, .aux, .input)
  | .sysPwrgd => (.openDrainOut, .aux, .low)
  | .sysThermN => (.openDrainOut, .aux, .highImpedance)
  | .vidFaultN => (.openDrainOut, .aux, .highImpedance)
  | .ethMdc => (.output, .io, .low)
  | .ethMdio => (.both, .io, .highImpedance)
  | .ethPhyRstN _ => (.output, .aux, .low)
  | .ethPhyIntN _ => (.input, .io, .input)
  | .dpHpd => (.input, .io, .input)

end Sys2Proof.Machine
end

