-- ==== Sys2Proof/Machine/Picture.lean ====
section
/-! DEFINITION. What a pipe shows and what the status pins say, as functions of the state: pixel formats, scaling, compositing (R495, R499 to R506, R513) and the open-drain pins (R540, R567, R586). No command stores them. -/

namespace Sys2Proof.Machine

/-! ### Rounding and samples (R500) -/

/-- The nearest integer; a tie goes where `Config.tieUp` says (log 40). -/
def nearest (q : Rat) : Int :=
  let n := q.floor
  if q - n < 1 / 2 then n else if 1 / 2 < q - n then n + 1 else if Config.tieUp n then n + 1 else n

/-- A channel of 12 bits: the nearest integer, from 0 to 4,095. -/
def channel (q : Rat) : Nat := (max 0 (min 4095 (nearest q))).toNat

/-- A 12-bit value from `v` of a scale that ends at `top`. -/
def widen (v top : Nat) : Nat := channel (v * 4095 / top : Rat)

/-- An FP16 sample: clamped to 0.0 to 1.0, a NaN taken as 0. -/
def fp16Sample (v : Nat) : Nat :=
  match decodeF fp16 v with
  | .nan _ => 0
  | .inf neg => if neg then 0 else 4095
  | .fin neg m e => if neg then 0 else channel (min 1 (m * (2 : Rat) ^ e) * 4095)

/-- A pixel in 12 bits with its alpha. -/
structure Pixel where
  r : Nat
  g : Nat
  b : Nat
  a : Nat
  deriving DecidableEq, Repr

/-- The luma weights of red and blue of a matrix code: BT.709 for 1 and 2, BT.2020 for 3 and 4 (R501; log 41). -/
def lumaWeights (m : Nat) : Rat × Rat := if m ≤ 2 then (2126 / 10000, 722 / 10000) else (2627 / 10000, 593 / 10000)

/-- A pixel of 10-bit Y, Cb and Cr under a matrix code (R501). -/
def fromYCbCr (m y cb cr : Nat) : Pixel :=
  let limited := m = 1 || m = 3
  let k := lumaWeights m
  let yy : Rat := if limited then ((y : Rat) - 64) / 876 else y / 1023
  let u : Rat := if limited then ((cb : Rat) - 512) / 896 else ((cb : Rat) - 512) / 1023
  let v : Rat := if limited then ((cr : Rat) - 512) / 896 else ((cr : Rat) - 512) / 1023
  let r := yy + 2 * (1 - k.1) * v
  let b := yy + 2 * (1 - k.2) * u
  let g := (yy - k.1 * r - k.2 * b) / (1 - k.1 - k.2)
  ⟨channel (r * 4095), channel (g * 4095), channel (b * 4095), 4095⟩

/-- The pixel with index `i` of a line, from the bytes that hold it: its own, or those of its pair (R499, R501). -/
def samplePixel (fmt matrix i : Nat) (bs : List Byte) : Pixel :=
  let at1 (k : Nat) : Nat := fieldAt bs k 1
  let at2 (k : Nat) : Nat := fieldAt bs (2 * k) 2
  let odd := i % 2
  match fmt with
  | 0 => ⟨widen (at1 0) 255, widen (at1 1) 255, widen (at1 2) 255, widen (at1 3) 255⟩
  | 1 => let v := fieldAt bs 0 4
    ⟨widen (bitsOf v 0 10) 1023, widen (bitsOf v 10 10) 1023, widen (bitsOf v 20 10) 1023, bitsOf v 30 2 * 1365⟩
  | 2 => ⟨fp16Sample (at2 0), fp16Sample (at2 1), fp16Sample (at2 2), fp16Sample (at2 3)⟩
  | 3 => fromYCbCr matrix (4 * at1 (2 * odd)) (4 * at1 1) (4 * at1 3)
  | 4 => fromYCbCr matrix (at2 (2 * odd) / 64) (at2 1 / 64) (at2 3 / 64)
  | _ => let v := at2 0 / 16
    ⟨v, v, v, 4095⟩

/-! ### Reading a layer (R499, R504) -/

/-- The bytes of a range, or none where a granule of it is uncorrectable (R504). -/
def State.pixelRead (s : State) (a n : Nat) : Option (List Byte) :=
  (List.range ((a + n + 7) / 8 - a / 8)).foldr (fun i acc => match granData (s.bytesAt (8 * (a / 8 + i)) 8) (s.syndAt (a / 8 + i)), acc with
    | some d, some l => some (d ++ l)
    | _, _ => none) (some []) |>.map fun l => (l.drop (a % 8)).take n

/-- Bytes that a pixel, or a pair of YCbCr pixels, takes. -/
def pixelUnit (fmt : Nat) : Nat := if fmt = 3 then 4 else if fmt = 4 then 8 else pixelBytes fmt 1

/-- The source pixel of a layer in column `c` of line `l`; `bg` where its granule is uncorrectable (R504; log 42). -/
def State.sourcePixel (s : State) (y : Layer) (bg : Pixel) (c l : Nat) : Pixel :=
  let fmt := y.format.toNat
  let u := if fmt = 3 || fmt = 4 then c / 2 else c
  match s.pixelRead (y.base.toNat + l * y.pitch.toNat + u * pixelUnit fmt) (pixelUnit fmt) with
  | some bs => samplePixel fmt y.matrix.toNat c bs
  | none => bg

/-! ### Scaling (R505, R506) -/

/-- Where output number `x` of a scaler falls: the source number i and the phase. -/
def scaleAt (src n out x : Nat) : Int × Nat :=
  let st : Int := n * 65536 / out
  let p : Int := src * 65536 + x * st + (st - 65536) / 2
  (p / 65536, (p / 1024 % 64).toNat)

/-- One channel through a scaler: `taps` coefficients from i less `back`, rounded and clamped. -/
def scaleSum (coef : Nat → Int) (taps back src n : Nat) (i : Int) (v : Nat → Nat) : Nat :=
  let acc : Int := ((List.range taps).map fun k => coef k * v (max (src : Int) (min ((src : Int) + n - 1) (i - back + k))).toNat).sum
  (max 0 (min 4095 ((acc + 512) / 1024))).toNat

/-- A pixel from a function that gives each channel. -/
def eachChannel (f : (Pixel → Nat) → Nat) : Pixel := ⟨f Pixel.r, f Pixel.g, f Pixel.b, f Pixel.a⟩

/-- Column `x` of the destination rectangle, from source line `l`: the horizontal pass. -/
def State.columnPixel (s : State) (co : Tbl Byte) (y : Layer) (bg : Pixel) (x l : Nat) : Pixel :=
  if y.hset = 255 then s.sourcePixel y bg (y.sx.toNat + x) l
  else
    let (i, ph) := scaleAt y.sx.toNat y.sw.toNat y.dw.toNat x
    eachChannel fun f => scaleSum (hCoef co y.hset.toNat ph) 8 3 y.sx.toNat y.sw.toNat i fun c => f (s.sourcePixel y bg c l)

/-- The layer's pixel in column `x` and row `r` of its destination rectangle: the vertical pass over the horizontal one. -/
def State.layerPixel (s : State) (co : Tbl Byte) (y : Layer) (bg : Pixel) (x r : Nat) : Pixel :=
  if y.vset = 255 then s.columnPixel co y bg x (y.sy.toNat + r)
  else
    let (i, ph) := scaleAt y.sy.toNat y.sh.toNat y.dh.toNat r
    eachChannel fun f => scaleSum (vCoef co y.vset.toNat ph) 6 2 y.sy.toNat y.sh.toNat i fun l => f (s.columnPixel co y bg x l)

/-! ### Compositing (R495, R502, R503) -/

/-- The background of a pipe image as a pixel. -/
def backgroundPixel (v : W32) : Pixel := ⟨widen (bitsOf v.toNat 20 10) 1023, widen (bitsOf v.toNat 10 10) 1023, widen (bitsOf v.toNat 0 10) 1023, 4095⟩

/-- One layer's pixel over what lies beneath it (R503). -/
def blendOver (y : Layer) (c d : Pixel) : Pixel :=
  let s := if y.blend.getLsbD 1 then c.a else 4095
  let a := channel (s * y.alpha.toNat / 255 : Rat)
  let mix (c d : Nat) : Nat :=
    if y.blend.getLsbD 0 then min 4095 (c + channel (d * (4095 - a) / 4095 : Rat)) else channel ((c * a + d * (4095 - a)) / 4095 : Rat)
  ⟨mix c.r d.r, mix c.g d.g, mix c.b d.b, 4095⟩

/-- A raster pixel lies in the layer's destination rectangle. -/
def inLayer (y : Layer) (x r : Nat) : Bool := inRange x y.dx.toNat y.dw.toNat && inRange r y.dy.toNat y.dh.toNat

/-- The pixel that pipe `p` shows in column `x` of line `r`, every line read in time (R495, R503). A pipe that its room released shows its background (R494). -/
def State.shownPixel (s : State) (p x r : Nat) : Pixel :=
  let z := s.pipe p
  let bg := backgroundPixel z.active.background
  if z.owner.isNone && !z.released then ⟨0, 0, 0, 4095⟩
  else if z.released then bg
  else (List.range 8).foldl (fun d l =>
    let y := imageLayer z.active l
    if imageEnables z.active l && inLayer y x r then blendOver y (s.layerPixel z.active.coef y bg (x - y.dx.toNat) (r - y.dy.toNat)) d else d) bg

/-- The 10-bit RGB that the DP output carries for a pixel (R513). -/
def outputRgb (c : Pixel) : Nat × Nat × Nat :=
  let f (v : Nat) : Nat := (nearest (v * 1023 / 4095 : Rat)).toNat
  (f c.r, f c.g, f c.b)

/-- Y, Cb and Cr of a pixel in limited range at 10 bits under BT.709 or BT.2020, before the chroma filter; what the manual does not round stays exact (R513; log 41). -/
def outputYCbCr (bt2020 : Bool) (c : Pixel) : Rat × Rat × Rat :=
  let k := lumaWeights (if bt2020 then 3 else 1)
  let (r, g, b) := outputRgb c
  let y : Rat := (k.1 * r + (1 - k.1 - k.2) * g + k.2 * b) / 1023
  (64 + 876 * y, 512 + 896 * (b / 1023 - y) / (2 * (1 - k.2)), 512 + 896 * (r / 1023 - y) / (2 * (1 - k.1)))

/-- Cb and Cr that a YCbCr 4:2:2 output carries with the even column `x` of a line of `n` pixels: taps 1, 2, 1 over 4 about it (R513). A tap beyond an end of the line takes the pixel at that end (DESIGN CHOICE, log 41). -/
def outputChroma (bt2020 : Bool) (line : Nat → Pixel) (n x : Nat) : Rat × Rat :=
  let v (i : Nat) : Rat × Rat := (outputYCbCr bt2020 (line (min i (n - 1)))).2
  let w (f : Rat × Rat → Rat) : Rat := (f (v (x - 1)) + 2 * f (v x) + f (v (x + 1))) / 4
  (w Prod.fst, w Prod.snd)

/-- Cb and Cr that an output carries beside the pixels of the even column `x` of raster line `r` of pipe `p` (R513). -/
def State.signalChroma (s : State) (p x r : Nat) : Rat × Rat :=
  outputChroma (s.cfgAt 0x8001 (p + 1) 1 1 = 1) (fun i => s.shownPixel p i r) (rasterSize (s.pipeFormat p)).1 x

/-! ### Status pins (R540, R567, R586) -/

/-- SYS_PWRGD is released: the hub domain is powered and its rails are good. -/
def State.sysPwrgd (s : State) : Bool := s.pow.state = .run || s.pow.state = .idle
/-- SYS_THERM_N is high: not between a thermal shutdown and the power-on after it. -/
def State.sysThermN (s : State) : Bool := !(s.pow.state = .standby && s.pow.cause = 5)
/-- VID_FAULT_N is high: neither REF_LOOP nor an SDI output is in fault. -/
def State.vidFaultN (s : State) : Bool := !(s.glz.refLoop.fault || (s.vout 0).fault || (s.vout 1).fault)

end Sys2Proof.Machine
end

