-- ==== Sys2Proof/Machine/Wire.lean ====
section
/-! DEFINITION. Check codes and flits as they stand on the wire: CRC-32, CRC-8, the check bits of a granule, and the 256 bytes of a flit (R325, R326, R332, R356, R357). No command carries these bytes: rows say whether a check holds. -/

namespace Sys2Proof.Machine

/-! ### Check codes (R356, R357) -/

/-- One bit step of the reflected CRC-32 division (R356). -/
def lcrcStep (c : BitVec 32) : BitVec 32 := if c.getLsbD 0 then (c >>> 1) ^^^ 0xEDB88320#32 else c >>> 1

/-- The CRC-32 of bytes in order, the LCRC of a flit (R356). -/
def crc32 (bs : List Byte) : BitVec 32 := ~~~ (bs.foldl (fun c b => (List.range 8).foldl (fun c _ => lcrcStep c) (c ^^^ b.setWidth 32)) 0xFFFFFFFF#32)

/-- The CRC-8 of bytes in order, the code of a control message (R356). -/
def crc8 (bs : List Byte) : BitVec 8 :=
  bs.foldl (fun c b => (List.range 8).foldl (fun (c : BitVec 8) _ => if c.getLsbD 7 then (c <<< 1) ^^^ 0x07#8 else c <<< 1) (c ^^^ b)) 0#8

/-- The check bits of the eight bytes of a granule (R357): bit j is the XOR of the data bits whose column has bit j. -/
def checkBits (bs : List Byte) : Byte :=
  (granCols.zipIdx).foldl (fun c x => if (bs.getD (x.2 / 8) 0).getLsbD (x.2 % 8) then c ^^^ BitVec.ofNat 8 x.1 else c) 0

/-- The syndrome of a granule: its stored check bits XOR those computed over the data read (R357). -/
def syndrome (stored : Byte) (bs : List Byte) : Byte := stored ^^^ checkBits bs

/-! ### Flits (R325, R326) -/

/-- The kinds of flit (R325). -/
inductive FlitKind where
  | idle | data | sync | exch
  deriving DecidableEq, Repr

/-- The code of KIND (R325). -/
def FlitKind.code : FlitKind → Nat
  | .idle => 0
  | .data => 1
  | .sync => 2
  | .exch => 3

/-- The fields of a flit's header (R325). SEQ is 0 but in a DATA flit. -/
structure FlitHead where
  kind : FlitKind
  seq : BitVec 12 := 0
  ack : Option (BitVec 12) := none
  nak : Bool := false
  /-- The payload offset of the first packet that starts in this flit. -/
  first : Option (Fin 242) := none
  cr0Vc : BitVec 4 := 0
  cr0Cnt : BitVec 12 := 0
  cr1Vc : BitVec 4 := 0
  cr1Cnt : BitVec 12 := 0
  deriving DecidableEq, Repr

/-- The 80-bit header value (R325). -/
def FlitHead.value (h : FlitHead) : Nat :=
  h.kind.code * 2 ^ 76 + (if h.kind = .data then h.seq.toNat else 0) * 2 ^ 64 + (match h.ack with | some a => a.toNat * 2 ^ 52 + 2 ^ 51 | none => 0) + bit h.nak * 2 ^ 50 +
  (match h.first with | some n => n.val | none => 255) * 2 ^ 40 + h.cr0Vc.toNat * 2 ^ 36 + h.cr0Cnt.toNat * 2 ^ 24 + h.cr1Vc.toNat * 2 ^ 20 + h.cr1Cnt.toNat * 2 ^ 8

/-- The 256 bytes of a flit: header, payload with padding, and LCRC over both (R325, R326). -/
def flitBytes (h : FlitHead) (payload : List Byte) : List Byte :=
  let body := leBytes 10 h.value ++ padTo 242 payload
  body ++ leBytes 4 (crc32 body).toNat

/-- A flit's LCRC is good; a flit whose LCRC fails is discarded whole (R326). -/
def flitGood (bs : List Byte) : Bool := bs.length = 256 && fieldAt bs 252 4 = (crc32 (bs.take 252)).toNat

end Sys2Proof.Machine
end

