-- ==== Sys2Proof/WellFormed.lean ====
section
/-! DEFINITION. Well-formed commands: no operand is reserved or longer than the manual lets it be. An ill-formed command has a meaning too: the part refuses it as the manual says. -/

namespace Sys2Proof

/-- The transports that clients use: 0 and 1 Ethernet, 2 to 18 the mailboxes, 19 SMBus (#6300.04, R466). -/
def Req.wf (r : Req) : Bool := r.source.toNat < 20

/-- The lists of a formation record have the lengths of R375. -/
def FormRec.wf (f : FormRec) : Bool :=
  f.hbmUnits.length = 4 && f.perQuire.length = ((List.range 80).filter fun i => f.quires.getLsbD i).length && f.perQuire.all fun q => q.need.length = 16

/-- The payload of a packet has the length of LEN, but for a READ, which has none (R332). -/
def Packet.wf (k : Packet) : Bool := k.payload.length = if k.op = 1 then 0 else k.len.toNat

/-- Who asks for a room reset or declares a fault is well-formed. -/
def RoomBy.wf : RoomBy → Bool
  | .reg => true
  | .cmd r => r.wf

/-- No operand of the command is reserved or out of range. -/
def Instr.wf (i : Instr) : Bool :=
  match i with
  | .registerWrite _ off size _ => (size.val = 4 || size.val = 8) && off.toNat % size.val = 0
  | .lowHalfRead _ off size => (size.val = 4 || size.val = 8) && off.toNat % size.val = 0
  | .bar0LowHalfWrite _ off _ => off.toNat % 8 = 0
  | .bar0HighHalfWrite _ off _ => off.toNat % 8 = 4
  | .positionTick => true
  | .sourcePresent _ _ => true
  | .sourceLost _ => true
  | .formatChange _ => true
  | .lockGained _ _ _ _ => true
  | .step _ _ => true
  | .stepTo r _ => r.wf
  | .disagree _ _ => true
  | .disagreeClear _ _ => true
  | .switchToSecondary _ => true
  | .revertToPrimary _ => true
  | .aged => true
  | .ptpSync _ _ _ => true
  | .syncWordSend _ _ => true
  | .syncWord _ _ payload _ _ => payload.length = 242
  | .keeperLost => true
  | .candidacy _ _ _ => true
  | .electionClose => true
  | .cueArm _ _ _ => true
  | .cueDisarm _ _ _ => true
  | .armDeviceCue r _ _ _ _ _ => r.wf
  | .disarmDeviceCue r _ => r.wf
  | .advanceTally _ => true
  | .startDma _ => true
  | .launchTask _ => true
  | .glazeCommit _ => true
  | .repartition _ => true
  | .haltAtCueBoundary _ => true
  | .tallyAdv _ _ _ => true
  | .tallyAdvance r _ _ _ => r.wf
  | .localAdvanceApply _ => true
  | .watchArm _ _ _ => true
  | .advance _ _ _ _ => true
  | .update _ _ _ => true
  | .join _ _ _ => true
  | .joinReply _ _ _ values => values.length = 8
  | .nack _ _ _ => true
  | .fabricRetry _ => true
  | .fabricNackTimeout _ => true
  | .faultToHome _ _ _ => true
  | .faultNotice _ _ _ => true
  | .nop _ => true
  | .mov _ _ _ => true
  | .movi _ _ _ => true
  | .mova _ _ _ => true
  | .getl _ _ _ => true
  | .geth _ _ _ => true
  | .putl _ _ _ => true
  | .puth _ _ _ => true
  | .ld _ _ _ _ => true
  | .st _ _ _ _ => true
  | .lda _ _ _ _ => true
  | .sta _ _ _ _ => true
  | .lea _ _ _ _ => true
  | .push _ _ => true
  | .pop _ _ => true
  | .pusha _ _ => true
  | .popa _ _ => true
  | .add _ _ _ => true
  | .addc _ _ _ => true
  | .sub _ _ _ => true
  | .subc _ _ _ => true
  | .cmp _ _ _ => true
  | .and _ _ _ => true
  | .or _ _ _ => true
  | .xor _ _ _ => true
  | .not _ _ => true
  | .neg _ _ => true
  | .abs _ _ => true
  | .shl _ _ _ => true
  | .shr _ _ _ => true
  | .sar _ _ _ => true
  | .rol _ _ _ => true
  | .mul _ _ _ => true
  | .mulu _ _ _ => true
  | .mulh _ _ _ => true
  | .mulhu _ _ _ => true
  | .adda _ _ _ => true
  | .cmpa _ _ _ => true
  | .ext _ _ _ spec => spec &&& 0x0C00 = 0
  | .ins _ _ _ spec => spec &&& 0x0D00 = 0
  | .bswap _ _ _ => true
  | .clz _ _ _ => true
  | .popc _ _ _ => true
  | .mac _ _ i j => i ≠ j
  | .macs _ _ i j => i ≠ j
  | .msu _ _ i j => i ≠ j
  | .macu _ _ i j => i ≠ j
  | .macr _ _ _ _ => true
  | .clra _ _ => true
  | .rdacc _ _ _ spec => spec &&& 0xFCC0 = 0 && (spec &&& 0x3F).toNat ≤ 39
  | .wracc _ _ _ => true
  | .addacc _ _ _ => true
  | .stacc _ _ _ => true
  | .ldacc _ _ _ => true
  | .br _ cc _ => cc.val ≠ 15
  | .brl _ cc _ => cc.val ≠ 15
  | .jmp _ _ => true
  | .call _ _ => true
  | .ret _ => true
  | .loop _ _ _ => true
  | .waits _ _ => true
  | .sig _ _ => true
  | .waitp _ _ => true
  | .waitpWake _ => true
  | .waitt _ _ _ => true
  | .waittDeadline _ => true
  | .tadv _ _ _ => true
  | .trd _ _ _ => true
  | .rdpos _ _ => true
  | .dmago _ _ _ => true
  | .fence _ => true
  | .icinv _ _ => true
  | .icinvAll _ => true
  | .mfsw _ _ => true
  | .mtsw _ _ => true
  | .mfcr _ _ _ => true
  | .mtcr _ _ _ => true
  | .take _ _ => true
  | .gate _ _ => true
  | .reti _ => true
  | .retiInterruption _ => true
  | .noint _ n => n.toNat ≤ 512
  | .nointExpire _ => true
  | .halt _ => true
  | .storeDrain _ => true
  | .interruptAccept _ => true
  | .asyncFault _ => true
  | .perf _ _ => true
  | .vadd _ v => v.ty.val ≤ 5
  | .vsub _ v => v.ty.val ≤ 5
  | .vmul _ v => v.ty.val ≤ 5
  | .vfma _ v => v.ty.val ≤ 5
  | .vmin _ v => v.ty.val ≤ 5
  | .vmax _ v => v.ty.val ≤ 5
  | .vabs _ v => v.ty.val ≤ 5
  | .vneg _ v => v.ty.val ≤ 5
  | .vand _ v => v.ty.val ≤ 5
  | .vor _ v => v.ty.val ≤ 5
  | .vxor _ v => v.ty.val ≤ 5
  | .vshl _ v => v.ty.val ≤ 5
  | .vshr _ v => v.ty.val ≤ 5
  | .vsar _ v => v.ty.val ≤ 5
  | .vcmpeq _ v => v.ty.val ≤ 5
  | .vcmplt _ v => v.ty.val ≤ 5
  | .vcmple _ v => v.ty.val ≤ 5
  | .vsel _ v => v.ty.val ≤ 5
  | .vmov _ v => v.ty.val ≤ 5
  | .vbcast _ v => v.ty.val ≤ 5
  | .vsum _ v => v.ty.val ≤ 5
  | .vcvt _ v => v.ty.val ≤ 5
  | .vpack _ v => v.ty.val ≤ 5
  | .vunpk _ v => v.ty.val ≤ 5
  | .zrd _ _ => true
  | .zwr _ _ => true
  | .tld _ _ _ _ => true
  | .tst _ _ _ _ => true
  | .zld _ _ _ _ => true
  | .zst _ _ _ _ => true
  | .rld _ _ _ _ => true
  | .rst _ _ _ _ => true
  | .mma _ m => m.fa.val < 12 && m.fb.val < 12
  | .mmaMx _ m _ => m.fa.val < 12 && m.fb.val < 12
  | .zclr _ _ => true
  | .xmf _ _ _ => true
  | .xmt _ u _ => u.val < 0x18 && u.val ≠ 3
  | .xuCtx _ _ => true
  | .xwait _ => true
  | .cacheFill _ _ _ => true
  | .zero _ _ _ _ _ => true
  | .writeback _ _ _ _ _ => true
  | .invalidate _ _ _ _ _ => true
  | .wbInv _ _ _ _ _ => true
  | .cmdDone _ => true
  | .waymapChange _ _ _ => true
  | .waymapDone _ => true
  | .qcHbmwin _ _ _ _ => true
  | .hbmwinApply _ _ => true
  | .scrub _ => true
  | .go _ _ _ => true
  | .pause _ _ _ => true
  | .resume _ _ _ => true
  | .abort _ _ _ => true
  | .descriptorFetch _ => true
  | .pieceIssue _ => true
  | .requestComplete _ _ _ => true
  | .timeout _ _ => true
  | .descriptorComplete _ => true
  | .drainDone _ => true
  | .abortDone _ => true
  | .fabricRead p => p.wf && p.op = 1
  | .fabricWrite p => p.wf && p.op = 2
  | .wack p => p.wf && p.op = 3
  | .rdata p => p.wf && p.op = 4
  | .err p => p.wf && p.op = 5
  | .packetForward _ k => k.wf
  | .routeUpdate _ _ => true
  | .windowOpen r _ _ _ _ _ _ => r.wf
  | .windowClose r _ => r.wf
  | .trainComplete _ _ => true
  | .exchSend _ => true
  | .exchFlit _ _ payload => payload.length = 242
  | .dataFlit _ _ packets => packets.all Packet.wf
  | .idleFlit _ _ => true
  | .replay _ => true
  | .linkLost _ => true
  | .holdExpired _ => true
  | .refusedRetrain _ => true
  | .meshHeader => true
  | .inject r _ _ _ _ => r.wf
  | .roomForm r f => r.wf && f.wf
  | .formed _ => true
  | .roomDissolve r _ => r.wf
  | .dissolutionDone _ => true
  | .hbmUnitCleared => true
  | .roomReset b _ => b.wf
  | .flrWaitExpiry _ => true
  | .roomDeclareFault b _ _ => b.wf
  | .roomQos r _ _ _ _ _ => r.wf
  | .planWrite r _ _ formations => r.wf && formations.length ≤ 16 && formations.all FormRec.wf
  | .vectorDelivery _ _ => true
  | .functionLevelReset _ => true
  | .vfEnableClear _ _ => true
  | .linkLoss => true
  | .perstDeassert => true
  | .linkReturn => true
  | .apertureWrite _ _ bytes _ => 1 ≤ bytes.length
  | .apertureRead _ _ len => len ≠ 0
  | .msixUnmask _ _ => true
  | .mbxEnable _ _ => true
  | .mbxDisable _ => true
  | .mbxReqTail _ _ => true
  | .mbxSlotRead _ r => match r with | .slot _ bytes => bytes.length = 2044 | .failed => true
  | .mbxRspHead _ _ => true
  | .hello transport fr => transport.toNat < 19 && fr.op = 1
  | .auth transport fr => transport.toNat < 19 && fr.op = 2
  | .authHoldoffEnd _ => true
  | .read transport fr => transport.toNat < 19 && fr.op = 3
  | .snapshotExpiry _ => true
  | .write transport fr => transport.toNat < 19 && fr.op = 4
  | .assemblyTimeout _ _ => true
  | .keySlot r _ _ key _ _ _ _ => r.wf && key.length ≤ 64
  | .ack transport fr => transport.toNat < 19 && fr.op = 5
  | .ledgerRead transport fr => transport.toNat < 19 && fr.op = 6
  | .subscribe transport fr => transport.toNat < 19 && fr.op = 7
  | .unsubscribe transport fr => transport.toNat < 19 && fr.op = 8
  | .notify _ => true
  | .bye transport fr => transport.toNat < 19 && fr.op = 9
  | .sessionIdleTimeout _ => true
  | .smbusBlockWrite block _ => block.length ≤ 255
  | .smbusBlockRead => true
  | .smbusSclTimeout => true
  | .checkpointBegin => true
  | .checkpointComplete => true
  | .eventDeferredRecord => true
  | .vaultWrite r _ _ _ _ _ _ _ => r.wf
  | .vaultRead r _ _ _ _ _ _ _ _ => r.wf
  | .vaultDelete r _ _ _ => r.wf
  | .vaultStop r _ => r.wf
  | .vaultJobStart => true
  | .extentComplete _ => true
  | .pipeAssign r _ _ => r.wf
  | .pipeShadow r _ _ _ _ => r.wf
  | .commit r _ _ => r.wf
  | .shadowCheck _ => true
  | .decisionPoint _ => true
  | .frameBoundary _ _ => true
  | .hotPlugDetect _ => true
  | .dpLinkTraining _ => true
  | .currentLimit _ => true
  | .outputFault _ => true
  | .faultRetry _ => true
  | .retryEnd _ => true
  | .idleTimer => true
  | .standbyAfterIdle => true
  | .blockAnswer _ => true
  | .blockTimeout => true
  | .powerRequestLeaveIdle r => r.wf
  | .powerRequestIdle r => r.wf
  | .powerRequestStandby r => r.wf
  | .standbyEntry => true
  | .freeQuireGate _ => true
  | .quireGate r _ _ => r.wf
  | .quireGatingDone => true
  | .quireWake r _ _ => r.wf
  | .quireWakeDone _ => true
  | .brownOut => true
  | .wakePin _ _ => true
  | .smbusWake => true
  | .powerOn => true
  | .inputLost => true
  | .inputReturn => true
  | .auxGood _ => true
  | .auxLost => true
  | .throttle _ _ => true
  | .throttleRaise _ _ => true
  | .thermalShutdown _ => true
  | .thermalRecovery _ => true
  | .sysRstN => true
  | .sysRstNRelease => true
  | .watchdog => true
  | .deviceReset r _ => r.wf
  | .rom => true
  | .ledgerRecovery _ => true
  | .verify => true
  | .steward => true
  | .fwChunk r _ _ data => r.wf && 1 ≤ data.length && data.length ≤ 61440
  | .fwCommit r _ _ => r.wf
  | .fwSelect r _ => r.wf
  | .securityRaise r _ _ => r.wf
  | .analogReferencePoint _ _ => true
  | .hbmWriteAccepted _ _ => true
  | .shortRemoved _ => true
  | .holdupExhausted => true

end Sys2Proof
end

