-- ==== Sys2Proof/Tests/Slice0.lean ====
section
/-! SUPPORT. Tests: ill-formed terms refused, worked cases of the manual, and a witness for the hypotheses of each statement. The expected values of a case are the manual's. -/

namespace Sys2Proof.Tests

open Sys2Proof Sys2Proof.Machine

set_option Elab.async false

/-- The state that a command leaves. -/
def after (c : Instr) (s : State) : State := match exec c s with | .next n => n | _ => s

/-! ### Ill-formed commands are refused (WellFormed) -/

/-- A client that names no transport. -/
def strayReq : Req := { client := 1, cseq := 1, source := 21, session := 1 }
/-- A packet whose payload is shorter than LEN. -/
def shortPacket : Packet := { op := 2, cls := 3, v := false, dst := 1, src := 2, tag := 0, jobId := 0, addr := 0, err := 0, len := 2, payload := [1], pchk := 0 }
/-- A frame of operation `op`. -/
def frame (op : BitVec 8) : Frame :=
  { ver := 1, op := op, flags := 1, session := 0xA11, client := 0x107, cseq := 0x42, index := 0x4001, sub := 1, status := 0, length := 5, segment := 0, total := 5, accession := 0, subId := 0,
    payload := [3, 0x36, 1, 1, 0], tag := [], crc := 0 }
/-- A formation record with no quires and no list. -/
def emptyForm : FormRec :=
  { room := 0, policy := 0, hbmShare := 0, meshWeight := 0, fabricWeight := 0, dmaRate := 0, quires := 0, sdma := 0, hbmUnits := [], ltBase := 0, ltCount := 0, ftBase := 0, ftCount := 0,
    jobId := 0, home := 0, cueBase := 0, cueCount := 0, twBase := 0, twCount := 0, perQuire := [] }
/-- The fields of a vector instruction of a reserved type. -/
def reservedTy : VOps := { ty := 6, ixm := 0, va := 0, vb := 0, vd := 0, vc := 0 }

theorem test_wf_access_size : (Instr.registerWrite (.host 0) 8 2 0).wf = false ∧ (Instr.registerWrite (.host 0) 4 8 0).wf = false ∧ (Instr.lowHalfRead 0 4 8).wf = false ∧ (Instr.lowHalfRead 0 0 2).wf = false ∧
    (Instr.bar0LowHalfWrite 0 4 0).wf = false ∧ (Instr.bar0HighHalfWrite 0 8 0).wf = false := by decide +kernel
theorem test_wf_transport : (Instr.stepTo strayReq 0).wf = false ∧ (Instr.roomReset (.cmd strayReq) 0).wf = false ∧ (Instr.hello 19 (frame 1)).wf = false := by decide +kernel
theorem test_wf_operation : (Instr.hello 0 (frame 2)).wf = false ∧ (Instr.write 0 (frame 3)).wf = false ∧ (Instr.bye 0 (frame 1)).wf = false := by decide +kernel
theorem test_wf_packet : (Instr.fabricWrite shortPacket).wf = false ∧ (Instr.fabricRead { shortPacket with payload := [1, 2] }).wf = false ∧
    (Instr.packetForward 0 shortPacket).wf = false := by decide +kernel
theorem test_wf_join_reply : (Instr.joinReply 0 0 0 [1, 2, 3]).wf = false := by decide +kernel
theorem test_wf_spec_word : (Instr.ext 0 0 0 0x0400).wf = false ∧ (Instr.ins 0 0 0 0x0100).wf = false ∧ (Instr.rdacc 0 0 0 0x0028).wf = false ∧ (Instr.rdacc 0 0 0 0x0040).wf = false := by decide +kernel
theorem test_wf_pointers : (Instr.mac 0 0 3 3).wf = false ∧ (Instr.macs 0 0 0 0).wf = false ∧ (Instr.msu 0 0 7 7).wf = false ∧ (Instr.macu 0 0 1 1).wf = false := by decide +kernel
theorem test_wf_condition : (Instr.br 0 15 0).wf = false ∧ (Instr.brl 0 15 0).wf = false ∧ (Instr.noint 0 513).wf = false := by decide +kernel
theorem test_wf_units : (Instr.vadd 0 reservedTy).wf = false ∧ (Instr.mma 0 { zs := false, d := 0, a := 0, b := 0, fa := 12, fb := 0 }).wf = false ∧ (Instr.xmt 0 3 0).wf = false ∧
    (Instr.xmt 0 0x18 0).wf = false := by decide +kernel
theorem test_wf_form : emptyForm.wf = false ∧ ({ emptyForm with hbmUnits := [0, 0, 0, 0], quires := 1 } : FormRec).wf = false := by decide +kernel
theorem test_wf_lengths : (Instr.apertureWrite 0 0 [] true).wf = false ∧ (Instr.syncWord 0 { seq := 0, ack := 0, ackv := false, nak := false, cr0vc := 0, cr0cnt := 0, cr1vc := 0, cr1cnt := 0, lcrcOk := true } [] 0 false).wf = false ∧
    (Instr.exchFlit 0 true (zeros 241)).wf = false ∧ (Instr.apertureRead 0 0 0).wf = false ∧ (Instr.mbxSlotRead 0 (.slot 0 [])).wf = false ∧
    (Instr.fwChunk { strayReq with source := 0 } 1 0 []).wf = false ∧ (Instr.keySlot { strayReq with source := 0 } 0 0 (zeros 65) 0 0 0 0).wf = false := by decide +kernel

/-! ### Worked cases of the manual -/

/-- A tile that runs at PC 0 with the line of PC in its instruction cache. -/
def core : Tile := { run := .running, icLine := [(0, some 0)] }
/-- The part after reset with tile 0 as `x`. -/
def one (x : Tile) : State := { State.reset with tiles := [(0, x)] }

/-- Encodings: the two of chapter 05 ("encoding two instructions"), GATE of chapter 06, and the reserved opcode 0 (R134). -/
theorem test_encoding : readWords 0 0x7274 0 0 = some (.mac 0 2 3 5) ∧ codeWords (.mac 0 2 3 5) = some [0x7274] ∧ readWords 0 0x81C0 0xFFFA 0 = some (.br 0 7 0xFFFA) ∧
    codeWords (.br 0 7 0xFFFA) = some [0x81C0, 0xFFFA] ∧ readWords 0 0xB400 5 0 = some (.gate 0 5) ∧ readWords 0 0 0 0 = none ∧ readWords 0 0x0401 0 0 = none := by decide +kernel
/-- R143, R140: the sum of 0x7FFF and 1 sets N and V. -/
theorem test_add_sets_overflow : ((after (.add 0 0 (.reg 1)) (one { core with d := [(0, 0x7FFF), (1, 1)] })).tile 0).sw = 0xF00C := by decide +kernel
/-- Chapter 05: byte 13 of an array is bits 15:8 of its word. -/
theorem test_ext_reads_byte_13 : getD ((after (.ext 0 2 2 0x0078) (one { core with d := [(2, 0xAB12)] })).tile 0) 2 = 0xAB := by decide +kernel
/-- Chapter 05: RDACC with SH 15, SA 1, RN 1 rounds a half up. -/
theorem test_rdacc_rounds : getD ((after (.rdacc 0 1 0 0x030F) (one { core with acc := [(0, 0x4000)] })).tile 0) 1 = 1 := by decide +kernel

/-- Chapter 06: the task that calls gate 5. -/
def gateTask : Tile :=
  { core with pc := 0x40100, icLine := [(0x40100 / 32 % 128 * 4, some (0x40100 / 32))], sw := 0, d := [(2, 256)], a := [(1, 0x10400), (7, 0x9000)],
              priv := { gateBase := 0x400, gateCount := 6, supBlocks := 0x100, ssp := 0x2000 } }
/-- Its gate entry in memory; TARGET is 0x1000. -/
def gateState : State := (one gateTask).putBytes (0x40000000000000 + 2 * 0x450) [0, 0x10, 0, 0, 0, 0xC0, 0, 0, 2, 0x81, 0, 0, 0, 0x80, 0, 0, 0, 0, 2, 0]
theorem test_gate_case : let x := (after (.gate 0 5) gateState).tile 0
    x.sw = 0x8000 ∧ getA x 7 = 0x1FFA ∧ x.pc = 0x1000 ∧
    x.sb = [{ addr := 0x1FFE, words := [0x9000, 0] }, { addr := 0x1FFC, words := [0x0102, 4] }, { addr := 0x1FFA, words := [0, 0] }] := by decide +kernel
/-- The first instruction of the gate returns: RETI restores the task. -/
theorem test_reti_case : let n := after (.gate 0 5) gateState
    let x := (after (.reti 0) (n.modTile 0 fun x => { x with icLine := [(0, some 0x80)] })).tile 0
    x.sw = 0 ∧ x.pc = 0x40102 ∧ getA x 7 = 0x9000 := by decide +kernel

/-- Chapter 08: one rounding of 2^24 + 1 + 1 in FP32. -/
theorem test_mma_rounds_once : mmaElem {} ⟨0, 0, false, false, []⟩ 0x3F803F80 0x3F803F80 0 0 0x4B800000 = (0x4B800001, 0) := by decide +kernel
/-- Chapter 08: the MXFP4 element 18.5. -/
theorem test_mxfp4_element : mmaElem {} ⟨9, 9, true, true, (List.range 384).map fun q => if q = 0 then 0x7D else if q = 256 then 0x81 else 0x7F⟩ (5 + 2 * 2 ^ 128) (7 + 2 ^ 128) 0 0 0 =
    (0x41940000, 0) := by decide +kernel
/-- Chapter 09: the word 0x0001_2345 of tile 1000 lies in quire 62, bank 2, stripe 97, granule 1. -/
theorem test_scratchpad_place : scratchBase 1000 + 2 * 0x12345 = 0x4000007D02468A ∧ tileQuire 1000 = 62 ∧ scratchPlace (2 * 0x12345) = (2, 97, 1) := by decide +kernel
/-- Chapter 10: the pieces of a COPY of 200 bytes. -/
theorem test_copy_pieces : pieces 200 19 200 = [(19, 1), (20, 4), (24, 8), (32, 32), (64, 64), (128, 64), (192, 16), (208, 8), (216, 2), (218, 1)] ∧
    pieces 200 43 200 = [(43, 1), (44, 4), (48, 16), (64, 64), (128, 64), (192, 32), (224, 16), (240, 2), (242, 1)] := by decide +kernel
/-- R356: the check values of the three CRCs. -/
theorem test_crc_check_values : crc32 (ascii "123456789") = 0xCBF43926 ∧ crc32c (ascii "123456789") = 0xE3069283 ∧ crc8 (ascii "123456789") = 0xF4 := by decide +kernel
/-- R357: the columns, and a single data bit in error is found at every place. -/
theorem test_granule_code : granCols.getD 0 0 = 7 ∧ granCols.getD 55 0 = 0xE0 ∧
    ∀ i ∈ List.range 64, readSynd (syndrome (checkBits [1, 2, 3, 4, 5, 6, 7, 8]) (flipBit [1, 2, 3, 4, 5, 6, 7, 8] i)) = .dataBit i := by decide +kernel
/-- Chapter 15: the header of the tally advance whose reply is lost. -/
theorem test_frame_header : frameHead (frame 4) = [1, 4, 1, 0, 0x11, 0x0A, 0, 0, 7, 1, 0, 0, 0x42, 0, 0, 0, 1, 0x40, 1, 0, 5, 0, 0, 0, 5, 0, 0, 0] ++ zeros 12 := by decide +kernel
/-- Chapter 16: the hold-up check of full extents at 8,000 µF and 6,000 µF, and of 64 MiB at 6,000 µF. -/
theorem test_holdup_case : holdEnough 8000 54000 268435456 = true ∧ holdEnough 6000 54000 268435456 = false ∧ holdEnough 6000 54000 67108864 = true ∧ holdAvailMilli 8000 54000 = 5299 ∧
    holdReqMilli 268435456 = 4201 := by decide +kernel
/-- Chapter 19: PCIE_RX_P[11] is land DZ15, FAB_TX_N[9][2] is C61, and the rows that R559 names. -/
theorem test_land_case : rowName 100 = ['D', 'Z'] ∧ landAt 100 15 = some (.signal (.pcieRx 11 false)) ∧ rowName 3 = ['C'] ∧ landAt 3 61 = some (.signal (.fabTx 9 2 true)) ∧ rowName 21 = ['A', 'A'] ∧ rowName 41 = ['B', 'A'] ∧ rowName 104 = ['E', 'D'] := by decide +kernel
/-- Chapter 17: the horizontal scaler at x = 0 and x = 1 with SX 0, SW 1,920, DW 3,840. -/
theorem test_scaler_case : scaleAt 0 1920 3840 0 = (-1, 48) ∧ scaleAt 0 1920 3840 1 = (0, 16) := by decide +kernel

/-! ### A part at work -/

/-- The formation of room 0: quire 0, channel 0, 4 units of HBM, tallies 64 to 127, fabric tallies none, cue entries 16 to 31. -/
def formA : FormRec :=
  { emptyForm with hbmShare := 10, meshWeight := 1, fabricWeight := 1, dmaRate := 16, quires := 1, sdma := 1, hbmUnits := [4, 0, 0, 0], ltBase := 64, ltCount := 64, cueBase := 16, cueCount := 16,
                   twCount := 4, perQuire := [{ groups := 0, need := List.replicate 16 0 }] }
/-- Room 0 as formed. -/
def roomA : Room := { state := .formed, accession := 1, form := some formA, hbm := [0, 1, 2, 3] }
/-- The part in boot state READY with a locked clock, room 0 formed and tile 0 running. -/
def up : State := { one core with rooms := [(0, roomA)], pow := { State.reset.pow with boot := .ready }, clk := { state := .locked, src := some .ptp } }

/-! ### The hypotheses of the statements can be met

One theorem for each statement that has hypotheses: concrete states and operands that meet those of every clause, at the ends of a range where a clause has one. -/

/-- Tile 0 runs with the registers of `x`; its instruction is in its cache. -/
abbrev s0 : State := one core
theorem fetches1 : Fetches s0 0 1 s0 := ⟨rfl, rfl⟩
theorem fetches2 : Fetches s0 0 2 s0 := ⟨rfl, rfl⟩
theorem fetches3 : Fetches s0 0 3 s0 := ⟨rfl, rfl⟩
/-- Tile 0 of the part when it runs at task level. -/
abbrev task : Tile := { core with sw := 0 }
/-- The part with tile 0 at task level. -/
abbrev s1 : State := one task

/-- The part at work with tile 0 as `x`. -/
def upT (x : Tile) : State := { up with tiles := [(0, x)] }
theorem admits_of {s : State} {r : Req} {idx sub : Nat} {v : List Byte}
    (h : r.source.toNat < 20 ∧ ((entryRow idx sub).any fun e => typeOk e sub v) = true ∧ s.hears r.source = true ∧ s.pow.neg = none ∧ s.bootAllows idx sub v = true ∧ r.cseq ≠ 0 ∧
      highestCseq s.led r.client < r.cseq.toNat ∧ findPair s.led r.client r.cseq = none ∧ ledAdmits s.led (recordedValue idx sub v).length = true ∧ s.led.current = none ∧ s.led.queue = [] ∧
      ∀ x ∈ s.led.recs, x.accession ≠ s.led.nextAcc) : Admits s r idx sub v := by
  obtain ⟨h1, h2, h3⟩ := h
  refine ⟨h1, ?_, h3⟩
  cases he : entryRow idx sub with
  | none => rw [he] at h2; cases h2
  | some e => rw [he] at h2; exact ⟨e, rfl, h2⟩
/-- A client's command by Ethernet. -/
def req : Req := { client := 0x107, cseq := 1, source := 0, session := 1 }
/-- An open record of entry `i`.`j` with value `v`. -/
def openRec (i j : Nat) (v : List Byte) : Record := { accession := 1, incarnation := 0, kind := 1, client := 0x107, cseq := 1, index := BitVec.ofNat 16 i, sub := BitVec.ofNat 8 j, source := 0, value := v }
/-- A Ledger whose record `x` is the command in progress. -/
def busyWith (x : Record) : Ledger := { recs := [x], nextAcc := 2, current := some 1 }

theorem test_met_RegisterMovesWriteTheirDestination : Fetches s0 0 1 s0 ∧ Fetches s0 0 2 s0 ∧ Fetches s0 0 3 s0 ∧ swSB core.sw = false ∧ core.priv.xr = false ∧ core.priv.xw = false ∧
    swSB { core with sw := 0xF400 }.sw = true ∧ { core with priv := { xr := true, xw := true } }.priv.xr = true ∧ { core with priv := { xr := true, xw := true } }.priv.xw = true :=
  ⟨fetches1, fetches2, fetches3, rfl, rfl, rfl, rfl, rfl, rfl⟩

theorem test_met_AddAndSubtractSetResultAndFlags : Fetches s0 0 (srcWords (.reg 1)) s0 ∧ Fetches s0 0 (srcWords (.imm 0x8000)) s0 ∧ Fetches s0 0 1 s0 := ⟨fetches1, fetches2, fetches1⟩

/-- CLZ at both ends of its count, ABS at its corner. -/
theorem test_met_LogicCountsAndMultipliesSetTheirFlags : Fetches s0 0 (srcWords (.reg 1)) s0 ∧ Fetches s0 0 (srcWords (.imm 0)) s0 ∧ Fetches s0 0 1 s0 ∧
    (∀ p ∈ [((0 : W16), 16), (1, 15), (0x7FFF, 1), (0x8000, 0), (0xFFFF, 0)], p.1.toNat = 0 ∧ p.2 = 16 ∨ p.2 < 16 ∧ 2 ^ (15 - p.2) ≤ p.1.toNat ∧ p.1.toNat < 2 ^ (16 - p.2)) ∧
    getD core 0 ≠ 0x8000 ∧ Fetches (one { core with d := [(0, 0x8000)] }) 0 1 (one { core with d := [(0, 0x8000)] }) ∧ getD { core with d := [(0, 0x8000)] } 0 = 0x8000 :=
  ⟨fetches1, fetches2, fetches1, by decide, by decide, ⟨rfl, rfl⟩, rfl⟩

theorem test_met_ShiftsSetCarryToTheLastBitOut : Fetches s0 0 1 s0 := fetches1

theorem test_met_AddressArithmeticAndBitFields : Fetches s0 0 1 s0 ∧ Fetches s0 0 2 s0 ∧ Fetches s0 0 3 s0 ∧
    (([0x02FF, 0xF2FF, 0] : List W16).all fun x => x.extractLsb' 10 2 = 0 ∧ x.getLsbD 8 = false) = true ∧
    (0xF3FF : W16).extractLsb' 10 2 = 0 ∧ (([0x0400, 0x0800, 0x0C00] : List W16).all fun x => x.extractLsb' 10 2 ≠ 0) = true ∧ (0x0100 : W16).getLsbD 8 = true :=
  ⟨fetches1, fetches2, fetches3, by decide +kernel⟩

/-- RDACC with SH at its ends, saturating either way. -/
theorem test_met_AccumulatorsHoldExactSumsModulo40Bits : Fetches s0 0 1 s0 ∧ Fetches s0 0 2 s0 ∧
    (([0, 0x0227, 0x0327, 0x0127, 0x0100] : List W16).all fun p => (p.extractLsb' 0 6).toNat ≤ 39 ∧ p &&& 0xFCC0 = 0) = true ∧
    (([32768, 0x7FFFFFFFFF] : List (BitVec 40)).all fun v => 32767 < v.toInt) = true ∧ (([0xFFFFFF7FFF, 0x8000000000] : List (BitVec 40)).all fun v => v.toInt < -32768) = true ∧
    (([40, 63, 0x0040, 0x0080, 0x0400] : List W16).all fun p => 39 < (p.extractLsb' 0 6).toNat ∨ p &&& 0xFCC0 ≠ 0) = true :=
  ⟨fetches1, fetches2, by decide +kernel⟩

/-- Loads at the ends of the scratchpad, and one from outside every region. -/
theorem test_met_LoadsWriteTheValueRead : Fetches s0 0 1 s0 ∧ Fetches s0 0 2 s0 ∧ (∀ a ∈ [0, 16, 786431], s0.load 0 .ldst a 1 = .ok [0] s0) ∧
    (∀ a ∈ [0, 16, 786430], s0.load 0 .ldst a 2 = .ok [0, 0] s0) ∧ s0.load 0 .other 0 1 = .ok [0] s0 ∧ s0.load 0 .other 0 2 = .ok [0, 0] s0 ∧
    s0.load 0 .other 0 3 = .ok [0, 0, 0] s0 ∧ s0.load 0 .ldst 0xFFFFFFFF 1 = .fault 3 0xFFFFFFFF s0 :=
  ⟨fetches1, fetches2, by decide +kernel⟩

/-- The part with 8 stores in the buffer of tile 0. -/
abbrev full : State := one { core with sb := (List.range 8).map fun i => { addr := BitVec.ofNat 32 (100 + i), words := [7] } }
theorem test_met_StoresPlaceOneEntryInTheStoreBuffer : Fetches s0 0 1 s0 ∧ Fetches s0 0 2 s0 ∧ BufferTakes s0 0 s0 ∧
    (Fetches full 0 1 full ∧ BufferTakes full 0 (full.drainOne 0).2) ∧
    (∀ k ∈ [1, 2, 3, 4], s0.storeFault 0 .other 16 k = none) ∧ s0.storeFault 0 .ldst 0 1 = none ∧ s0.storeFault 0 .ldst 786430 2 = none ∧ s0.storeFault 0 .other 786431 1 = none ∧
    up.tileOwnsTally 0 64 = true ∧ up.tileOwnsTally 0 127 = true := by
  refine ⟨fetches1, fetches2, rfl, ⟨⟨by decide +kernel, by decide +kernel⟩, ?_⟩, by decide +kernel⟩
  show (if _ then _ else _)
  rw [if_neg (by decide +kernel)]
  decide +kernel

/-- Tile 0 holds one store of two words at 64. -/
abbrev storing : State := one { core with sb := [{ addr := 64, words := [1, 2] }] }
theorem test_met_MemoryAccessesReadAndWriteLittleEndianWords : (∀ g, s0.syndAt g = 0) ∧ (∀ g, storing.syndAt g = 0) ∧ s0.usable 0 ≤ 1024 ∧ 786431 + 1 ≤ s0.usable 0 * 768 ∧
    swS (s0.tile 0).sw = true ∧ (s1.tile 0).priv.supBlocks.toNat * 32 ≤ 0 ∧ (s0.tile 0).sb = [] ∧ (storing.tile 0).sb = [{ addr := 64, words := [1, 2] }] ∧
    s0.tileRegion 0 0xFFFFFFFF = none ∧ storing.tileRegion 0 64 = some (.scratch 64) := ⟨fun _ => rfl, fun _ => rfl, by decide +kernel⟩

/-- Tile 0 with its pointer A3 at 0x20. -/
abbrev ptr : State := one { core with a := [(3, 0x20)] }
theorem test_met_MultiplyAccumulateReadsTwoScratchpadWords : Fetches ptr 0 1 ptr ∧ (0 : An) ≠ 3 ∧ ptr.macFault 0 0 0x20 = none ∧ ptr.loadWords 0 0 1 = .ok [0] ptr ∧ ptr.loadWords 0 0x20 1 = .ok [0] ptr ∧
    ptr.macFault 0 0xFFFFFFFF 0x20 ≠ none ∧ (3 : An) = 3 := ⟨⟨by decide +kernel, by decide +kernel⟩, by decide +kernel⟩

theorem bufferTakes_of (u : State) (t : Nat) (h : (u.tile t).sb.length < 8) : BufferTakes u t u := by unfold BufferTakes; rw [if_pos h]
/-- Tile 0 with its stack pointer at 2. -/
def low : State := one { core with a := [(7, 2)] }
theorem test_met_BranchesAndCallsSetThePc : Fetches s0 0 1 s0 ∧ Fetches s0 0 2 s0 ∧ Fetches s0 0 3 s0 ∧ (14 : Fin 16) ≠ 15 ∧ decide (getD core 0 - 1 ≠ 0) = (0x8000 : W16).msb ∧
    decide (getD core 0 - 1 ≠ 0) ≠ (2 : W16).msb ∧ Fetches low 0 1 low ∧ Fetches low 0 3 low ∧ BufferTakes low 0 low ∧ low.storeFault 0 .other (getA (low.tile 0) 7 - 2).toNat 2 = none ∧
    low.load 0 .other (getA (low.tile 0) 7).toNat 2 = .ok [0, 0] low :=
  ⟨fetches1, fetches2, fetches3, by decide, by decide +kernel, by decide +kernel, ⟨by decide +kernel, by decide +kernel⟩, ⟨by decide +kernel, by decide +kernel⟩, bufferTakes_of low 0 (by decide +kernel), by decide +kernel⟩

theorem test_met_FetchesChangeOnlyTheInstructionCache : (∀ g, s0.syndAt g = 0) ∧ CleanLines (s0.quire (tileQuire 0)) ∧ (hbmWin (s0.quire (tileQuire 0)) (tileIndex 0)).mode = 0 ∧ s0.fetch 0 0 3 = .ok () s0 ∧ s0.fetchFault 0 0 = none ∧ icHit (s0.tile 0) (0 / 32) = true ∧
    s0.fetchFault 0 0xFFFFFFFF ≠ none := ⟨fun _ => rfl, ⟨List.Pairwise.nil, fun l h => by cases h⟩, rfl, by decide +kernel⟩

/-- Tile 0 has D2 at 1 and tile 1 is `x`. -/
def pair (x : Tile) : State := { s0 with tiles := [(0, { core with d := [(2, 1)] }), (1, x)] }
/-- The words that tile 0 loads from 0: the position 0x0001_0000, with room 0's tally in D2. -/
abbrev ahead : State := (upT { core with d := [(2, 64)] }).putBytes 0x40000000000000 [0, 0, 1, 0, 0, 0, 0, 0]
/-- As `ahead`, with no deadline. -/
abbrev forever : State := ahead.putBytes 0x40000000000008 (List.replicate 8 255)
theorem test_met_WaitsEndOnSignalPositionOrTally :
    (Fetches (one { core with sig := 255 }) 0 1 (one { core with sig := 255 }) ∧ ((one { core with sig := 255 }).tile 0).sig ≠ 0) ∧ (Fetches s0 0 1 s0 ∧ (s0.tile 0).sig = 0 ∧ (s0.tile 0).run = .running) ∧
    (Fetches (pair { core with sig := 254 }) 0 1 (pair { core with sig := 254 }) ∧ (pair { core with sig := 254 }).tileRoom 1 = (pair { core with sig := 254 }).tileRoom 0 ∧
      (pair { core with sig := 254 }).drainFull 0 = (true, pair { core with sig := 254 }) ∧ ((pair { core with sig := 254 }).tile 1).sig ≠ 255 ∧ getD ((pair {}).tile 0) 2 = 1) ∧
    (Fetches (pair { run := .waitS 3 }) 0 1 (pair { run := .waitS 3 }) ∧ (pair { run := .waitS 3 }).drainFull 0 = (true, pair { run := .waitS 3 }) ∧ ((pair { run := .waitS 3 }).tile 1).sig = 0) ∧
    up.tileRoom 15 ≠ up.tileRoom 0 ∧ up.tileRoom 51 = up.tileRoom 0 ∧
    (Fetches up 0 1 up ∧ up.load 0 .other 0 4 = .ok [0, 0, 0, 0] up ∧ posReached up.clk.pos (ofWords64 [0, 0, 0, 0]) = true) ∧
    (Fetches ahead 0 1 ahead ∧ ahead.load 0 .other 0 4 = .ok [0, 1, 0, 0] ahead ∧ posReached ahead.clk.pos (ofWords64 [0, 1, 0, 0]) = false ∧ (ahead.tile 0).run = .running) ∧
    (upT { core with d := [(2, 64)] }).load 0 .other 0 8 = .ok (List.replicate 8 0) (upT { core with d := [(2, 64)] }) ∧
    (upT { core with d := [(2, 64)] }).registerWait (.tile 0) 64 0 = (true, upT { core with d := [(2, 64)] }) ∧ (upT { core with d := [(2, 64)] }).tileOwnsTally 0 64 = true ∧
    (ahead.load 0 .other 0 8 = .ok [0, 1, 0, 0, 0, 0, 0, 0] ahead ∧ (ahead.registerWait (.tile 0) 64 0x10000).1 = false ∧ ahead.tileOwnsTally 0 64 = true ∧ posReached ahead.clk.pos 0 = true) ∧
    (Fetches forever 0 1 forever ∧ forever.load 0 .other 0 8 = .ok [0, 1, 0, 0, 0xFFFF, 0xFFFF, 0xFFFF, 0xFFFF] forever ∧ (forever.registerWait (.tile 0) 64 0x10000).1 = false ∧
      ofWords64 [0xFFFF, 0xFFFF, 0xFFFF, 0xFFFF] = -1) ∧ s0.tileOwnsTally 0 64 = false ∧
    (((one { run := .waitP 0 }).tile 0).run = .waitP 0 ∧ posReached (one { run := .waitP 0 }).clk.pos 0 = true) ∧ ((one { run := .waitT 64 5 0 }).tile 0).run = .waitT 64 5 0 := by
  refine ⟨⟨⟨by decide +kernel, by decide +kernel⟩, by decide +kernel⟩, ⟨fetches1, rfl, rfl⟩, ⟨⟨by decide +kernel, by decide +kernel⟩, by decide +kernel⟩, ⟨⟨by decide +kernel, by decide +kernel⟩, by decide +kernel⟩, by decide +kernel, by decide +kernel,
    ⟨⟨by decide +kernel, by decide +kernel⟩, by decide +kernel⟩, ⟨⟨by decide +kernel, by decide +kernel⟩, by decide +kernel⟩, by decide +kernel, by decide +kernel, by decide +kernel, by decide +kernel,
    ⟨⟨by decide +kernel, by decide +kernel⟩, by decide +kernel⟩, by decide +kernel⟩

/-- Tile 0 of room 0 with `n` in D2 and address `a` in A3. -/
def upD (n a : Nat) : State := upT { core with d := [(2, BitVec.ofNat 16 n)], a := [(3, BitVec.ofNat 32 a)] }
/-- As `upD 1 0`, the channel 1 of tile 0 busy. -/
def busyChan : State := (upD 1 0).modChan (tileChan 0 1) fun x => { x with state := .move }
theorem test_met_TalliesDmaAndFenceWaitForTheDrain : (∀ n ∈ [64, 127, 63, 128], (upD n 0).tileRuns 0 = true ∧ (upD n 0).fetch 0 0 2 = .ok () (upD n 0)) ∧
    Fetches (upD 64 0) 0 (srcWords (.imm 1)) (upD 64 0) ∧ (upD 64 0).tileRoom 0 = some 0 ∧ ((upD 64 0).room 0).form = some formA ∧
    formOwns formA 64 = true ∧ formOwns formA 127 = true ∧ formOwns formA 63 = false ∧ formOwns formA 128 = false ∧ (upD 64 0).drainFull 0 = (true, upD 64 0) ∧
    (∀ a ∈ [0, 0x20, 0xBFFE0], ∀ n ∈ [0, 1], Fetches (upD n a) 0 1 (upD n a) ∧ chanIdle ((upD n a).chan (tileChan 0 n)) = true ∧
      (upD n a).descAddrOk (tileChan 0 n) a false = true ∧ (upD n a).drainFull 0 = (true, upD n a)) ∧
    (Fetches (upD 2 0) 0 1 (upD 2 0) ∧ getD ((upD 2 0).tile 0) 2 = 2) ∧ (Fetches busyChan 0 1 busyChan ∧ chanIdle (busyChan.chan (tileChan 0 1)) = false) ∧
    (Fetches (upD 1 1) 0 1 (upD 1 1) ∧ (upD 1 1).descAddrOk (tileChan 0 1) 1 false = false) := by
  unfold Fetches; decide +kernel

theorem test_met_StatusAndCoreRegistersReadAndWrite : Fetches s0 0 1 s0 ∧ Fetches s0 0 2 s0 ∧ Fetches s1 0 2 s1 ∧ crExists 0 = true ∧ crExists 0x3F = false ∧ crExists 0x3C = true ∧
    swS (s0.tile 0).sw = true ∧ swS (s1.tile 0).sw = false ∧ crTaskRead (s1.tile 0) 0 = true ∧ crTaskRead (s1.tile 0) 0x22 = false := by
  unfold Fetches; decide +kernel

/-- As `gateState` with `n` stores held and entry 4 of the table asking nothing. -/
def gateHeld (n : Nat) : State := gateState.modTile 0 fun x => { x with sb := (List.range n).map fun i => { addr := BitVec.ofNat 32 (0x20000 + i), words := [0] } }
/-- Tile 0 in the supervisor bank, in an interruption. -/
abbrev inside : State := one { core with sw := 0xF400 }
/-- Tile 0 in a window with `n` instructions left. -/
abbrev windowed (n : BitVec 10) : State := one { core with sw := 0xF800, priv := { nrem := n } }
/-- The words of the gate entry of the case. -/
def gateWords : List W16 := [0x1000, 0, 0xC000, 0, 0x8102, 0, 0x8000, 0, 0, 2, 0, 0, 0, 0, 0, 0]
theorem test_met_GatesReturnsAndWindowsChangeLevelAsStated :
    (∀ n ∈ [0, 5], Fetches (gateHeld n) 0 2 (gateHeld n) ∧ swSB ((gateHeld n).tile 0).sw = false ∧ ((gateHeld n).tile 0).sb.length ≤ 5 ∧
      0x450 + 16 ≤ supWords ((gateHeld n).tile 0) ∧ 0x450 + 16 ≤ (gateHeld n).usable 0 * 768 ∧ (gateHeld n).loadWords 0 0x450 16 = .ok gateWords (gateHeld n) ∧
      gateFault ((gateHeld n).tile 0) 5 gateWords = none ∧ ∀ k ∈ [2, 4, 6], ((gateHeld n).modTile 0 atSup).storeFault 0 .other (0x2000 - k) 2 = none) ∧
    (gateState.loadWords 0 0x440 16 = .ok (List.replicate 16 0) gateState ∧ gateFault (gateState.tile 0) 4 (List.replicate 16 0) ≠ none) ∧
    (gateState.tile 0).priv.gateCount.toNat ≤ 6 ∧ (Fetches inside 0 2 inside ∧ swSB (inside.tile 0).sw = true) ∧
    (Fetches inside 0 1 inside ∧ swS (inside.tile 0).sw = true) ∧
    (Fetches s0 0 1 s0 ∧ swS (s0.tile 0).sw = true ∧ swSB (s0.tile 0).sw = false ∧ s0.load 0 .other 0 2 = .ok [0, 0] s0 ∧ s0.load 0 .other 2 2 = .ok [0, 0] s0 ∧ s0.load 0 .other 4 2 = .ok [0, 0] s0) ∧
    (Fetches s1 0 1 s1 ∧ swS (s1.tile 0).sw = false) ∧ s0.drainAll 0 = (true, s0) ∧
    (Fetches s0 0 2 s0 ∧ swNW (s0.tile 0).sw = false) ∧ (Fetches (windowed 512) 0 2 (windowed 512) ∧ swNW ((windowed 512).tile 0).sw = true ∧ swS ((windowed 512).tile 0).sw = true) ∧
    (Fetches (one { task with priv := { taskNoint := true } }) 0 2 (one { task with priv := { taskNoint := true } })) ∧ (Fetches s1 0 2 s1 ∧ (s1.tile 0).priv.taskNoint = false) ∧
    (512 : W16).toNat ≤ 512 ∧ 512 < (513 : W16).toNat := by
  unfold Fetches; decide +kernel

/-- A tile with lines 0 and 15 pending, at levels 3 and 7. -/
def lined : Tile := { core with sw := 0x8000, priv := { irqPend := 0x8001, irqEn := 0xFFFF, irqLevel := [(0, 0x3333), (3, 0x7777)] } }
/-- A tile whose counter 3 counts event 17. -/
def counting : Tile := { core with perf := { en := true, sel := [(3, 17)] } }
/-- A tile with an asynchronous fault pending. -/
def upset : Tile := { core with sw := 0x8000, async := [{ code := 20, addr := 5 }] }
theorem test_met_InterruptionsEnterTheHandlerInOneStep :
    (let x := lined; atBoundary x = true ∧ (one x).quireOn (tileQuire 0) = true ∧ x.sw.getLsbD 11 = false ∧ x.sw.getLsbD 10 = false ∧ x.sw.toNat / 4096 % 8 ≠ 7 ∧ x.async = []) ∧
    (let x := lined
     let level : Nat → Nat := fun j => (Tbl.get 0 x.priv.irqLevel (j / 4)).toNat / 2 ^ (4 * (j % 4)) % 8
     x.priv.irqPend.getLsbD 15 = true ∧ x.priv.irqEn.getLsbD 15 = true ∧ x.sw.toNat / 4096 % 8 < level 15 ∧
      ∀ j, j < 16 → (x.priv.irqPend.getLsbD j = true ∧ x.priv.irqEn.getLsbD j = true ∧ x.sw.toNat / 4096 % 8 < level j) → level j < level 15 ∨ level j = level 15 ∧ 15 ≤ j) ∧
    (atBoundary upset = true ∧ upset.async = { code := 20, addr := 5 } :: [] ∧ upset.sw.getLsbD 11 = false ∧ upset.sw.getLsbD 10 = false ∧ upset.sw.toNat / 4096 % 8 ≠ 7 ∧ upset.run = .running) ∧
    (core.sw.toNat / 4096 % 8 = 7 ∧ s0.tileRoom 0 = none) ∧ counting.perf.en = true ∧ (counting.sw.getLsbD 15 = false ∨ counting.perf.noSup = false) ∧ cycleEvent (Tbl.get 0 counting.perf.sel 3).toNat = true := by
  decide +kernel

/-- The fields of a vector instruction: type, b, c and d. -/
def vec (ty vb vc vd : Nat) : VOps := { ty := Fin.ofNat 8 ty, ixm := 0, va := 0, vb := Fin.ofNat 256 vb, vd := Fin.ofNat 256 vd, vc := Fin.ofNat 256 vc }
theorem test_met_VectorInstructionsComputeEveryLane : Fetches s0 0 3 s0 ∧ XuClean (s0.tile 0).xu ∧
    ((vec 5 7 0 0).ty.val ≤ 5 ∧ (vec 5 7 0 0).vc = 0 ∧ (vec 5 7 0 0).vb.val < lanesOf 5 ∧ (vec 5 7 0 0).ty ≠ 0 ∧ (vec 5 7 0 0).ty ≠ 3 ∧ (vec 5 31 0 0).vb.val ≤ 31 ∧ lanesOf 5 ≤ (vec 5 31 0 0).vb.val) ∧
    ((vec 0 0 0 0).ty = 0 ∧ (vec 3 0 0 0).ty = 3 ∧ (vec 0 0 0 0).vb = 0) ∧ (vec 6 0 0 0).ty.val > 5 ∧ (vec 0 0 1 0).vc ≠ 0 ∧ (vec 0 1 0 0).vb ≠ 0 ∧ (vec 0 0 0 1).vd ≠ 0 ∧ 31 < (vec 0 32 0 0).vb.val ∧
    (0 < 16 ∧ 0x7FFF < 2 ^ 16 ∧ 0x8001 ≠ 2 ^ (16 - 1)) ∧ (∀ p ∈ [(fp64, 0x7FF0000000000001), (fp32, 0xFF800001), (fp16, 0x7E00), (bf16, 0xFFFF)], p.1 ∈ [fp64, fp32, fp16, bf16] ∧ (decodeF p.1 p.2).isNan = true) :=
  ⟨fetches3, fun _ => rfl, by decide +kernel⟩

theorem test_met_VectorComparesAndConversionsWriteMaskOrLanes : Fetches s0 0 3 s0 ∧ XuClean (s0.tile 0).xu ∧ (vec 5 0 0 0).ty.val ≤ 5 ∧ (vec 5 0 0 0).vc = 0 ∧ (vec 5 0 0 0).vd = 0 ∧
    (let v := vec 3 0 8 0; v.vc.val % 8 ≤ 5 ∧ v.vc.val ≤ 15 ∧ lanesOf v.ty ≤ lanesOf (v.vc.val % 8) ∧ v.vb = 0 ∧ v.vc.val / 8 = 1 ∧ lanesOf v.ty < lanesOf (v.vc.val % 8)) ∧
    (let v := vec 0 9 5 0; v.vc.val % 8 ≤ 5 ∧ lanesOf (v.vc.val % 8) < lanesOf v.ty ∧ v.vc.val / 8 = 0) ∧
    (5 < (vec 0 0 6 0).vc.val % 8 ∧ 15 < (vec 0 0 16 0).vc.val ∧ ((vec 0 0 8 0).vc.val / 8 = 1 ∧ lanesOf 0 ≤ lanesOf 0) ∧ (vec 0 1 0 0).vb ≠ 0) ∧
    (∀ c ∈ [3, 10], ∀ b ∈ [0, 1], let v := vec 2 b c 0; 3 ≤ v.vc.val ∧ v.vc.val < 11 ∧ v.ty.val ≤ 2 ∧ v.vb.val ≤ 3 ∧ (codeStep v.vc.val = 8 → v.vb.val ≤ 1)) ∧
    (11 < (vec 0 0 12 0).vc.val ∧ 3 < (vec 0 4 3 0).vb.val) ∧ ((vec 0 0 2 0).vc.val < 3 ∧ (vec 0 0 11 0).vc.val = 11 ∧ 2 < (vec 3 0 4 0).ty.val) :=
  ⟨fetches3, fun _ => rfl, by decide +kernel⟩

/-- Tile 0 with address `a` in A3 and stride `n` in D2. -/
def stride (a n : Nat) : State := one { core with a := [(3, BitVec.ofNat 32 a)], d := [(2, BitVec.ofNat 16 n)] }
theorem test_met_TileRegisterMovesCopyRows : (∀ (a n : Nat) g, (stride a n).syndAt g = 0) ∧ XuClean ((stride 32 64).tile 0).xu ∧ Fetches s0 0 2 s0 ∧ Fetches s0 0 1 s0 ∧ XuClean (s0.tile 0).xu ∧
    (∀ n ∈ [0, 32, 64], Fetches (stride 32 n) 0 2 (stride 32 n) ∧ (stride 32 n).moveCheck 0 32 n 32 32 true = .ok () (stride 32 n) ∧ (stride 32 n).moveCheck 0 32 n 32 64 true = .ok () (stride 32 n) ∧
      (stride 32 n).moveCheck 0 32 0 1 32 true = .ok () (stride 32 n) ∧ (stride 32 n).moveCheck 0 32 n 32 32 false = .ok () (stride 32 n) ∧
      (stride 32 n).moveCheck 0 32 n 32 64 false = .ok () (stride 32 n) ∧ (stride 32 n).moveCheck 0 32 0 1 32 false = .ok () (stride 32 n)) ∧
    (Fetches (stride 1 64) 0 2 (stride 1 64) ∧ (stride 1 64).moveFault 0 1 64 32 32 ≠ none) :=
  ⟨fun _ _ _ => rfl, fun _ => rfl, fetches2, fetches1, fun _ => rfl, by unfold Fetches; decide +kernel⟩

/-- The fields of a matrix instruction with formats `a` and `b`. -/
def mat (a b : Nat) : MmaOps := { zs := false, d := 0, a := 0, b := 0, fa := Fin.ofNat 16 a, fb := Fin.ofNat 16 b }
theorem test_met_MatrixProductsAndUnitRegistersActAsStated : (Fetches s0 0 2 s0 ∧ Fetches s0 0 3 s0 ∧ XuClean (s0.tile 0).xu) ∧
    (codeClass (mat 0 0).fa = codeClass (mat 0 0).fb ∧ (mat 11 11).fa.val ≤ 11) ∧ 11 < (mat 12 0).fa.val ∧ codeClass (mat 0 11).fa ≠ codeClass (mat 0 11).fb ∧
    ((mxCode (mat 9 9).fa && mxCode (mat 9 9).fb) || ((mat 9 9).fa = 9 && (mat 9 9).fb = 9)) = true ∧ ((mxCode (mat 0 9).fa && mxCode (mat 0 9).fb) || ((mat 0 9).fa = 9 && (mat 0 9).fb = 9)) = false ∧
    (swS (s0.tile 0).sw = true ∧ s0.drainAll 0 = (true, s0)) ∧ (Fetches s1 0 2 s1 ∧ swS (s1.tile 0).sw = false) ∧
    (let c : W32 := (getD (s0.tile 0) 1 ++ (s0.tile 0).xu.ctxLow) &&& 0xFFFFFFE3; ctxValid c = false ∧ ctxValid (s0.tile 0).xu.ctx = false) ∧
    (let x : Tile := { core with d := [(1, 1)], xu := { ctxLow := 2 } }
     let c : W32 := (getD x 1 ++ x.xu.ctxLow) &&& 0xFFFFFFE3; ctxValid c = true ∧ ctxLoad c = false ∧ ctxArea c + 16512 ≤ (one x).usable 0 * 768 ∧ x.priv.supBlocks = 0) :=
  ⟨⟨fetches2, fetches3, fun _ => rfl⟩, by decide +kernel, by decide +kernel, by decide +kernel, by decide +kernel, by decide +kernel, by decide +kernel, by unfold Fetches; decide +kernel, by decide +kernel⟩

/-- The part at work with quire 0 as `x`. -/
def upQ (x : Quire) : State := { up with quires := [(0, x)] }
/-- A dirty line at `n`. -/
def dirtyLine (n : BitVec 31) : CLine := { line := n, way := 3, dirty := true, data := [(0, 7)], synd := [] }
theorem reaches_host : WriterReaches up (.host 1) 0 0 := by unfold WriterReaches; decide +kernel
theorem reaches_tile : WriterReaches up (.tile 51) 0 0 := by unfold WriterReaches; decide +kernel
theorem test_met_CacheOperationsActOnEveryLineOfTheirRange : WriterReaches up (.host 1) 0 0 ∧ WriterReaches up (.tile 51) 0 0 ∧
    (up.quire 0).cmd.busy = false ∧ up.ownsHbm 0 0 128 = true ∧ up.ownsHbm 0 (65535 * 128) 128 = true ∧ up.ownsHbm 0 0 (65536 * 128) = true ∧ up.ownsHbm 0 (65535 * 128) 256 = false ∧
    (WriterReaches (upQ { lines := [dirtyLine 65535] }) (.host 1) 0 0 ∧ findLine ((upQ { lines := [dirtyLine 65535] }).quire 0) 65535 ≠ none) ∧
    (WriterReaches (upQ { cmd := { busy := true } }) (.tile 0) 0 0 ∧ ((upQ { cmd := { busy := true } }).quire 0).cmd.busy = true) :=
  ⟨reaches_host, reaches_tile, by unfold WriterReaches; decide +kernel⟩

/-- Quire 0 with a window of four units, and a new one of two units waiting. -/
def windows : Quire := { win := [(0, { base := 0, size := 4, mode := 0 })], winPend := [(0, some { base := 1, size := 2, mode := 1 })] }
theorem test_met_QuireRegistersAndLinesFollowTheirEvents :
    ((upQ windows).lineInWindow 0 0 65535 = true ∧ ((upQ windows).quire 0).power = .on ∧ ((upQ windows).quire 0).wayBusy = false ∧ findLine ((upQ windows).quire 0) 65535 = none ∧
      ((upQ windows).quire 0).prefetch.contains 65535 = false ∧ ∀ i, (upQ windows).syndAt i = 0) ∧
    (let s : State := { upQ { lines := [dirtyLine 9] } with tiles := [(0, { wb := [9] })] }; (s.tile 0).wb.contains 9 = true ∧ findLine (s.quire (tileQuire 0)) 9 = some (dirtyLine 9)) ∧
    ((upQ { cmd := { busy := true } }).quire 0).cmd.busy = true ∧ (WriterReaches up (.host 1) 0 0 ∧ (up.quire 0).wayBusy = false) ∧
    (∀ k ∈ [0, 6], let s := upQ { wayBusy := true, wayTo := BitVec.ofNat 3 k }; (s.quire 0).wayBusy = true ∧ (s.quire 0).wayTo.toNat ≤ 6) ∧
    (Tbl.get none ((upQ windows).quire 0).winPend 0 = some { base := 1, size := 2, mode := 1 } ∧ (upQ windows).winReady (quireTile 0 0) = false ∧
      ({ upQ windows with tiles := [] } : State).winReady (quireTile 0 0) = true) ∧
    (up.cfgN 0xA003 1 ≠ 0 ∧ up.syndAt 25769803775 = 0) ∧ (readSynd ((up.setSynd 5 7).syndAt 5) = .dataBit 0 ∧ readSynd ((up.setSynd 5 0xFE).syndAt 5) = .bad ∧ (up.setSynd 5 0xFE).syndAt 5 ≠ 0xFF) :=
  ⟨⟨by decide +kernel, by decide +kernel, by decide +kernel, by decide +kernel, by decide +kernel, fun _ => rfl⟩, by decide +kernel, by decide +kernel, ⟨reaches_host, by decide +kernel⟩, by decide +kernel⟩

/-- The part at work with channel `c` as `x`. -/
def upC (c : ChanRef) (x : Chan) : State := up.setChan c x
/-- A descriptor: its first word, source, destination, length and awaited value. -/
def descOf (w src dst len wval : Nat) : List Byte := leBytes 8 w ++ leBytes 8 src ++ leBytes 8 dst ++ leBytes 8 len ++ leBytes 8 wval ++ zeros 24
/-- COPY of 200 bytes, and FILL of 128. -/
def copyDesc : Desc := parseDesc (descOf 0x101 0x1000 0x2000 200 0)
/-- COPY of 200 bytes from the scratchpad of tile 1. -/
def nextDesc : Desc := parseDesc (descOf 0x101 0x40000000201000 0x2000 200 0)
def fillDesc : Desc := parseDesc (descOf 0x102 0 0x40000000001000 128 0)
theorem test_met_DmaControlWritesStartPauseResumeAndAbort : (1 : FnId).val = 0 + 1 ∧
    (∀ x ∈ ([{}, { state := .move }, { state := .move, pause := true }, { state := .drain, pause := true }, { state := .paused, after := .fetch, pause := true },
        { state := .paused, after := .wait, pause := true, desc := some { copyDesc with wt := 64, wval := 1 } }] : List Chan),
      let s := upC (.sys 0) x; s.chanRoom (.sys 0) = some 0 ∧ (s.fn 1).held = [] ∧ s.pow.neg = none ∧ s.chan (.sys 0) = x) ∧
    chanIdle {} = true ∧ chanIdle { state := .error } = true ∧ chanIdle { state := .move } = false ∧ ({ copyDesc with wval := 1 } : Desc).wval.toNat > (up.tally 64).toNat ∧
    ((1 : W64).getLsbD 2 = false ∧ (1 : W64).getLsbD 1 = false ∧ (2 : W64).getLsbD 0 = false ∧ (2 : W64).getLsbD 2 = false) := by decide +kernel

/-- Channel 0 of system DMA fetches the descriptor `bs` at 0x40. -/
def fetching (bs : List Byte) : State := (upC (.sys 0) { state := .fetch, curDesc := 0x40 }).putBytes 0x40 bs
/-- Channel 0 of tile 0 as `x`. -/
def tileChan0 (x : Chan) : State := upC (.tile 0 0) x
/-- Requests that hold the 8 buffers of link `l` and 8 of another, each half waiting for the other: no cycle moves any of them. -/
def jam (l : MeshLink) : List DmaReq :=
  (List.range 16).map fun i => { tag := BitVec.ofNat 16 i, off := 0, len := 0, writing := false, path := if i < 8 then [l, (.hub, .hub)] else [(.hub, .hub), l], hop := 1 }
theorem test_met_DmaDescriptorsAreFetchedMovedAndEnded :
    (let s := upC (.sys 0) { state := .fetch, curDesc := 0x800000 }; s.chanRoom (.sys 0) = some 0 ∧ (s.chan (.sys 0)).state = .fetch ∧ s.descAddrOk (.sys 0) 0x800000 false = false) ∧
    (∀ b ∈ [descOf 0x101 0x1000 0x2000 200 0, descOf 0x4000000501 0x1000 0x2000 200 1, descOf 4 0 0 0 0, descOf 0x4000000101 0x1000 0x2000 200 1], let s := fetching b
      s.descAddrOk (.sys 0) 0x40 false = true ∧ (∀ q ∈ rangeQuires 0x40 64, s.quireOn q = true) ∧ s.readMem 0x40 64 = (some b, s) ∧ s.descCheck (.sys 0) 0 false b (parseDesc b) = 0) ∧
    ((parseDesc (descOf 0x4000000501 0x1000 0x2000 200 1)).wen = true ∧ (up.tally 64).toNat < 1 ∧ copyDesc.wen = false) ∧
    (let b := descOf 0x101 0x1000 0x800000 200 0; let s := fetching b; s.readMem 0x40 64 = (some b, s) ∧ s.descCheck (.sys 0) 0 false b (parseDesc b) = 3 ∧ (parseDesc b).aen = false) ∧
    (∀ p ∈ [(63, 1, 5), (64, 0, 6)], let b := descOf (0x901 + p.1 * 2 ^ 48) 0x1000 0x2000 (200 + p.2.1 * 2 ^ 40) 0; let s := fetching b; s.readMem 0x40 64 = (some b, s) ∧
      s.descCheck (.sys 0) 0 false b (parseDesc b) = p.2.2 ∧ (parseDesc b).aen = true ∧ s.advanceCheck 0 (parseDesc b).at'.toNat (parseDesc b).amt.toNat ≠ 0) ∧
    (let s := tileChan0 { state := .move, desc := some nextDesc, issued := 192 }; (s.chan (.tile 0 0)).state = .move ∧ s.chanRoom (.tile 0 0) = some 0 ∧ (∀ q ∈ descQuires (.tile 0 0) nextDesc, s.quireOn q = true) ∧
      nextDesc.op = 1 ∧ nextDesc.ssp = 0 ∧ 192 < nextDesc.len.toNat ∧ (s.chan (.tile 0 0)).firstErr = none ∧
      freeTag (.tile 0 0) (s.meshRun.chan (.tile 0 0)) = some 0 ∧ s.meshRun.meshFree (s.readPath (.tile 0 0) nextDesc (nextDesc.src.toNat + 192)) = true) ∧
    (∀ l ∈ ((tileChan0 {}).readPath (.tile 0 0) nextDesc (nextDesc.src.toNat + 192)).take 1, let s := tileChan0 { state := .move, desc := some nextDesc, issued := 192, reqs := jam l }
      (s.chan (.tile 0 0)).firstErr = none ∧ s.meshRun.meshFree (s.readPath (.tile 0 0) nextDesc (nextDesc.src.toNat + 192)) = false) ∧ (tileChan0 {}).readPath (.tile 0 0) nextDesc (nextDesc.src.toNat + 192) ≠ [] ∧
    (let s := tileChan0 { state := .move, desc := some fillDesc, issued := 64 }; (s.chan (.tile 0 0)).desc = some fillDesc ∧ (∀ q ∈ descQuires (.tile 0 0) fillDesc, s.quireOn q = true) ∧ fillDesc.op = 2 ∧
      fillDesc.mc = false ∧ fillDesc.dst.toNat % 64 = 0 ∧ fillDesc.len.toNat % 64 = 0 ∧ 64 % 64 = 0 ∧ 64 < fillDesc.len.toNat) ∧
    (let q : DmaReq := { tag := 5, off := 64, len := 64, writing := false }
     ∀ st ∈ [ChanState.move, .aborting], ∀ z ∈ [q, { q with lost := true }], let s := tileChan0 { state := st, desc := some copyDesc, issued := 128, reqs := [z] }; chanIssues (s.chan (.tile 0 0)) = decide (st = .move) ∧ (s.chan (.tile 0 0)).reqs.find? (fun y => y.tag = 5) = some z ∧ copyDesc.mc = false ∧
      s.readMem (copyDesc.src.toNat + 64) 64 = (some (zeros 64), s) ∧ (copyDesc.dst.toNat + 64) % 8 = 0 ∧ (zeros 64).length = q.len) ∧
    (let s := upC (.sys 0) { state := .complete, desc := some copyDesc, curDesc := 0x40 }; (s.chan (.sys 0)).state = .complete ∧ (s.chan (.sys 0)).firstErr = none ∧ descByte (.sys 0) 0x40 % 8 = 0) ∧
    (let s := upC (.sys 0) { state := .drain, desc := some copyDesc, issued := 199 }; (s.chan (.sys 0)).state = .drain ∧ (s.chan (.sys 0)).reqs = [] ∧ (s.chan (.sys 0)).buf = [] ∧
      199 < (if copyDesc.op.toNat ≤ 2 then copyDesc.len.toNat else 0)) ∧
    (let s := upC (.sys 0) { state := .aborting, desc := some copyDesc, curDesc := 0x40, after := .idle }; (s.chan (.sys 0)).state = .aborting ∧ (s.chan (.sys 0)).after ≠ .complete ∧
      (s.chan (.sys 0)).check = none ∧ rangeQuires (0x40 + 56) 8 = [] ∧ (s.room 0).resetting = false ∧ s.led.current = none) := by
  and_intros <;> decide +kernel

/-- The part at work as device 0 of a ring of two, port 0 as `x`, with the packets `l` arrived through it and a window of room 0 on its HBM. -/
def ring (x : Port) (l : List Packet) : State :=
  { (up.setCfg 0x6000 2 [2, 1, 1]).setCfg 0x6001 1 [1, 0, 255, 255] with
    ports := [(0, x)], fab := { arrived := l.map fun k => (0, k) }, wins := [(3, { isOpen := true, room := 0, perm := 3, jobId := 0, base := 0, size := 0x800000 })] }
/-- A packet from device 1 to this one, with its PCHK. -/
def packet (op cls addr err len : Nat) (bs : List Byte) : Packet :=
  let k : Packet := { op := BitVec.ofNat 4 op, cls := BitVec.ofNat 2 cls, v := false, dst := 0, src := 1, tag := 2, jobId := 0, addr := BitVec.ofNat 56 addr, err := BitVec.ofNat 8 err, len := BitVec.ofNat 8 len, payload := bs, pchk := 0 }
  { k with pchk := packetCheck k }
/-- The ring with channel 0 as `x` and `k` arrived. -/
def ringC (x : Chan) (k : Packet) : State := (ring {} [k]).setChan (.sys 0) x
/-- Request 2 of a channel, for `n` bytes at offset `o`. -/
def wire (o n : Nat) (w : Bool) : DmaReq := { tag := 2, off := o, len := n, writing := w }
theorem completionFor_of {s : State} {p : Packet} {op r : Nat} (w : Option Bool) {e : Nat × Packet} {d : Desc} {q : DmaReq}
    (h : s.arrivedHere p op = some e ∧ s.pow.neg = none ∧ p.pchk = packetCheck p ∧ armedAt s.integ 7 r [1, 2, 3] = none ∧ s.chanRoom (tagChan p.tag) = some r ∧
      (s.chan (tagChan p.tag)).desc = some d ∧ (s.chan (tagChan p.tag)).reqs.find? (fun z => z.tag = p.tag && w.all fun b => z.writing = b) = some q) :
    CompletionFor s p op w e r d q := by cases w <;> exact h
set_option maxRecDepth 20000 in
theorem test_met_FabricRequestsAndCompletionsAreServed :
    (∀ a ∈ [0, 0x7FFFF0], let p := packet 1 3 a 0 16 []; let s := ring {} [p]; s.arrivedHere p 1 = some (0, p) ∧ s.pow.neg = none ∧ p.pchk = packetCheck p ∧
      s.winJudge false p.jobId p.addr.toNat p.len.toNat = .takeIn 3 ∧ (s.window 3).room.toNat = 0 ∧ armedAt s.integ 7 0 [1, 2, 3] = none ∧ armedAt s.integ 5 0 [1, 2, 3] = none ∧
      ∀ g ∈ granules p.addr.toNat p.len.toNat, s.syndAt g = 0) ∧
    (let p := packet 1 3 0x7FFFF1 0 16 []; let s := ring {} [p]; s.arrivedHere p 1 = some (0, p) ∧ s.winJudge false p.jobId p.addr.toNat p.len.toNat = .refuse 1 ∧ armedAt s.integ 5 255 [1, 2, 3] = none) ∧
    (let p := packet 2 3 0 0 8 [1, 2, 3, 4, 5, 6, 7, 8]; let s := ring {} [p]; s.arrivedHere p 2 = some (0, p) ∧ p.pchk = packetCheck p ∧ s.winJudge true p.jobId p.addr.toNat p.payload.length = .takeIn 3) ∧
    (let p := packet 2 3 0x800000 0 8 [1, 2, 3, 4, 5, 6, 7, 8]; let s := ring {} [p]; s.arrivedHere p 2 = some (0, p) ∧ s.winJudge true p.jobId p.addr.toNat p.payload.length = .refuse 1) ∧
    (let p := packet 3 2 0 0 0 []; CompletionFor (ringC { state := .move, desc := some copyDesc, reqs := [wire 0 8 true] } p) p 3 (some true) (0, p) 0 copyDesc (wire 0 8 true)) ∧
    (let p := packet 4 2 0 0 8 [1, 2, 3, 4, 5, 6, 7, 8]
     let x : Chan := { state := .move, desc := some copyDesc, issued := 8, reqs := [wire 0 8 false] }
     x.buf = [] ∧ CompletionFor (ringC x p) p 4 (some false) (0, p) 0 copyDesc (wire 0 8 false) ∧ copyDesc.dsp = 0 ∧ armedAt (ringC x p).integ 3 0 [1, 2, 3] = none ∧ armedAt (ringC x p).integ 4 0 [1, 2, 3] = none ∧
      x.issued < (blockOf copyDesc 0).2 ∧ x.issued < (blockOf copyDesc (0 + 8 - 1)).2) ∧
    (let p := packet 4 2 0 0 64 (List.replicate 64 9)
     let x : Chan := { state := .move, desc := some copyDesc, issued := 128, reqs := [wire 64 64 false] }
     CompletionFor (ringC x p) p 4 (some false) (0, p) 0 copyDesc (wire 64 64 false) ∧ blockOf copyDesc 64 = (64, 64 + 64) ∧ blockOf copyDesc (64 + 64 - 1) = (64, 64 + 64) ∧ x.buf = [] ∧ chanIssues x = true ∧
      blockReady (dropReq x 2) 64 128 = true ∧ ∀ g ∈ granules (0x2000 + 64) 64, (ringC x p).syndAt g = 0) ∧
    (let p := packet 5 2 0 4 0 []; CompletionFor (ringC { state := .move, desc := some copyDesc, reqs := [wire 0 8 true] } p) p 5 none (0, p) 0 copyDesc (wire 0 8 true)) ∧
    (let p : Packet := { packet 1 3 0 0 16 [] with dst := 1 }; ∀ x ∈ ([{ state := .up }, { state := .hold, fromHold := true }] : List Port), let s := ring x [p]
      s.fab.arrived.find? (fun z => arrivedBy z.1 = 0 && z.2 = p) = some (0, p) ∧ p.dst.toNat ≠ s.devNo ∧ isTreeMsg p = false ∧ s.route p.dst.toNat 0 p.v = some (0, false) ∧ x.txq = [] ∧ armedAt s.integ 6 255 [4] = none ∧
      canSend ((taken s (0, p) []).port 0) p = decide (x.state = .up) ∧ ((taken s (0, p) []).port 0).txq = [] ∧ ((taken s (0, p) []).port 0).replayBuf.length + (flitsOf ((taken s (0, p) []).port 0).txSeq [p]).length ≤ 512) :=
  ⟨by decide +kernel, by decide +kernel, by decide +kernel, by decide +kernel, completionFor_of _ (by decide +kernel), ⟨rfl, completionFor_of _ (by decide +kernel), by decide +kernel⟩,
    ⟨completionFor_of _ (by decide +kernel), by decide +kernel⟩, completionFor_of _ (by decide +kernel), by decide +kernel⟩

/-- What device 1 says of itself through its port 1, resuming at `n` or not. -/
def exchFrom (n : BitVec 16) (r : Bool) : Exch := { incarnation := 4, domainId := 0, device := 1, x := 1, y := 0, z := 0, port := 1, session := 6, rxNext := n, resume := r }
/-- A port in EXCH that holds its link for device 1. -/
def holding : Port := { state := .exch, fromHold := true, txSeq := 9, peer := { known := true, device := 1, incarnation := 4, session := 6, x := 1 } }
theorem test_met_LinksTrainExchangeHoldAndResume :
    (∀ st ∈ [PortState.down, .train, .hold], let s := ring { state := st } []; s.portsRun = true ∧ s.portEnabled 0 = true ∧ s.inTorus = true ∧ (s.port 0).state = st) ∧
    ((0x0F : BitVec 8) &&& 0x0F = 0x0F ∧ (0xFF : BitVec 8) &&& 0xF0 = 0xF0 ∧ ¬((0x7E : BitVec 8) &&& 0x0F = 0x0F ∨ (0x7E : BitVec 8) &&& 0xF0 = 0xF0)) ∧
    ((ring { state := .exch } []).peerCheck 0 (readExch (exchPayload { exchFrom 0 false with domainId := 7 })) = 1 ∧ ((ring { state := .exch } []).port 0).state = .exch) ∧
    ((ring holding []).peerCheck 0 (readExch (exchPayload (exchFrom 9 true))) = 0 ∧ canResume holding (readExch (exchPayload (exchFrom 9 true))) = true ∧ ((ring holding []).port 0) = holding) ∧
    ((ring holding []).peerCheck 0 (readExch (exchPayload (exchFrom 10 true))) = 0 ∧ canResume holding (readExch (exchPayload (exchFrom 10 true))) = false) ∧
    (((ring { state := .up } []).port 0).state = .up ∧ (ring { state := .up } []).clk.parentPort.toNat ≠ 0 ∧ ({ ring { state := .up } [] with clk := { parentPort := 0 } } : State).clk.parentPort.toNat = 0) ∧
    (((ring holding []).port 0).state = .exch ∧ ((ring holding []).port 0).fromHold = true) ∧
    (((ring { state := .train } []).port 0).fromHold = false) ∧ (((ring { state := .hold, fromHold := true } []).port 0).fromHold = true) ∧ ((ring { state := .refused } []).port 0).state = .refused := by
  decide +kernel

/-- A flit header. -/
def hdr (q : BitVec 12) (ok : Bool) : FlitHdr := { seq := q, ack := 3, ackv := true, nak := false, cr0vc := 0, cr0cnt := 0, cr1vc := 0, cr1cnt := 0, lcrcOk := ok }
/-- The fields of a ROUTE_UPDATE of device 1. -/
def update : RouteUpd := { device := 1, incarnation := 1, portsUp := 2, epoch := 1 }
theorem test_met_FlitsAreAcceptedInSequenceAndReplayed :
    (let s := ring { state := .up, rxNext := 600 } []; (s.port 0).state = .up ∧ (hdr 600 true).lcrcOk = true ∧ (hdr 600 true).seq = (s.port 0).rxNext ∧ (hdr 600 false).lcrcOk = false ∧
      (hdr 88 true).seq ≠ (s.port 0).rxNext ∧ ((s.port 0).rxNext - (hdr 88 true).seq).toNat ≤ 512 ∧ 512 < ((s.port 0).rxNext - (hdr 87 true).seq).toNat ∧ 512 < ((s.port 0).rxNext - (hdr 601 true).seq).toNat ∧
      (hdr 0 true).nak = false ∧ (s.port 0).txq = [] ∧ (hdr 0 true).corrected = 0 ∧ (hdr 0 true).uncorrectable = 0 ∧ ({ hdr 0 true with uncorrectable := 1 } : FlitHdr).uncorrectable ≠ 0) ∧
    (∀ n ∈ [0, 14, 15], let s := ring { state := .up, badRun := n } []; (s.port 0).state = .up ∧ (hdr 0 false).lcrcOk = false ∧ (hdr 0 false).corrected = 0 ∧ (hdr 0 false).uncorrectable = 0 ∧ (s.port 0).badRun = n) ∧
    (let s := ring { state := .up, replayBuf := flitsOf 3 [packet 1 3 0 0 16 []] } []; (s.port 0).state = .up ∧ (s.port 0).replayBuf ≠ [] ∧ armedAt s.integ 6 255 [4] = none) ∧
    (let u := update
     let k := packet 6 0 0 0 13 (9 :: (leBytes 2 u.device.toNat ++ leBytes 4 u.incarnation.toNat ++ leBytes 2 u.portsUp.toNat ++ leBytes 4 u.epoch.toNat))
     let s := ring { state := .up } [k]; ControlPasses s 9 none (leBytes 2 u.device.toNat ++ leBytes 4 u.incarnation.toNat ++ leBytes 2 u.portsUp.toNat ++ leBytes 4 u.epoch.toNat) (0, k) ∧ arrivedBy 0 = 0 ∧
      u.device.toNat ≠ s.devNo ∧ updNewer s.fab.map u = true) ∧
    ((up.room 0).state = .formed ∧ (up.room 0).form ≠ none) := by
  unfold ControlPasses Uninjected; decide +kernel

/-- A record for room 1. -/
def formB : FormRec := { formA with room := 1, quires := 2, ltBase := 128, sdma := 2, cueBase := 40, twBase := 8 }
/-- Room 0 in state `x`. -/
def upR (x : Room) : State := { up with rooms := [(0, x)] }
theorem admits_up (s : State) (v : List Byte) (i j : Nat) (h : ((entryRow i j).any fun e => typeOk e j v) = true ∧ s.hears 0 = true ∧ s.pow.neg = none ∧ s.bootAllows i j v = true ∧
    ledAdmits s.led (recordedValue i j v).length = true) (hl : s.led = {}) : Admits s req i j v := by
  obtain ⟨h1, h2, h3, h4, h5⟩ := h
  rw [hl] at h5
  exact admits_of (by rw [hl]; exact ⟨by decide, h1, h2, h3, h4, by decide, by decide, by decide, h5, rfl, rfl, by decide⟩)

theorem test_met_RoomsFormAndDissolve :
    (Admits up req 0x3001 1 (formBytes formB) ∧ parseForm (formBytes formB) = formB ∧ up.formCheck (formBytes formB) = 0) ∧
    (Admits up req 0x3001 1 (formBytes formA) ∧ parseForm (formBytes formA) = formA ∧ up.formCheck (formBytes formA) = 1) ∧
    (let f : FormRec := { formB with hbmUnits := [24573, 0, 0, 0] }; Admits up req 0x3001 1 (formBytes f) ∧ parseForm (formBytes f) = f ∧ up.formCheck (formBytes f) = 4) ∧
    (let s : State := { upR { roomA with state := .forming } with led := busyWith (openRec 0x3001 1 (formBytes formA)) }
     (s.room 0).form = some formA ∧ (s.room 0).state = .forming ∧ s.led.current = some 1 ∧ s.led.queue = [] ∧ s.record 1 = some (openRec 0x3001 1 (formBytes formA)) ∧ (openRec 0x3001 1 (formBytes formA)).kind = 1 ∧ (openRec 0x3001 1 (formBytes formA)).acked = false ∧ recNames (openRec 0x3001 1 (formBytes formA)) 0x3001 1 0 = true ∧
      ∀ q ∈ formQuires formA, (s.quire q).power = .on) ∧
    (Admits up req 0x3001 2 [0] ∧ (up.room 0).isFormed = true ∧ (up.room 1).isFormed = false ∧ Admits up req 0x3001 2 [16]) ∧
    (let s : State := { upR { roomA with state := .dissolving } with tiles := [], led := busyWith (openRec 0x3001 2 [0]) }
     (s.room 0).form = some formA ∧ (s.room 0).state = .dissolving ∧ s.chansQuiet 0 = true ∧ (∀ j ∈ s.vault.jobs, j.room ≠ 0) ∧ s.led.current = some 1 ∧ s.led.queue = [] ∧ s.record 1 = some (openRec 0x3001 2 [0]) ∧ (openRec 0x3001 2 [0]).kind = 1 ∧ (openRec 0x3001 2 [0]).acked = false ∧ recNames (openRec 0x3001 2 [0]) 0x3001 2 0 = true) ∧
    ({ up with reb := { clearing := [98303] } } : State).reb.clearing = 98303 :: [] :=
  ⟨⟨admits_up _ _ _ _ (by decide +kernel) rfl, by decide +kernel⟩, ⟨admits_up _ _ _ _ (by decide +kernel) rfl, by decide +kernel⟩, ⟨admits_up _ _ _ _ (by decide +kernel) rfl, by decide +kernel⟩,
    by decide +kernel, ⟨admits_up _ _ _ _ (by decide +kernel) rfl, by decide +kernel, by decide +kernel, admits_up _ _ _ _ (by decide +kernel) rfl⟩, by decide +kernel⟩

theorem test_met_RoomsResetAndFault :
    ((up.room 0).form = some formA ∧ (up.room 0).isFormed = true ∧ formA.ftCount = 0 ∧ (∀ c ∈ up.roomChans 0, chanIdle (up.chan c) = true) ∧ (∀ c ∈ up.roomChans 0, up.statusAsleep c = []) ∧ Admits up req 0x3002 1 [BitVec.ofNat 8 0]) ∧
    (let s := upC (.sys 0) { state := .move }; (.sys 0) ∈ s.roomChans 0 ∧ chanIdle (s.chan (.sys 0)) = false ∧ Admits s req 0x3002 1 [BitVec.ofNat 8 0]) ∧
    (let s : State := (upR { roomA with flr := true, resetting := true }).setChan (.sys 0) { state := .aborting }; (s.room 0).flr = true ∧ s.led.current = none ∧
      ∀ c ∈ s.roomChans 0, s.statusAsleep c = [] ∧ (chanIdle (s.chan c) = true ∨ (s.chan c).state = .aborting)) ∧
    ((up.room 0).state = .formed ∧ Admits up req 0x3003 1 ([BitVec.ofNat 8 0] ++ leBytes 2 0xFFFF)) ∧
    (let s := upR { roomA with state := .faulted, flt := { cause := 1, secondary := 254 } }; (s.room 0).state = .faulted ∧ (s.room 0).flt.secondary ≠ 255) ∧
    (upR { roomA with state := .faulted, haltAt := some (mkPos 5 0 0) }).atCueBoundary 0 = true :=
  ⟨⟨by decide +kernel, by decide +kernel, by decide +kernel, by decide +kernel, by decide +kernel, admits_up _ _ _ _ (by decide +kernel) rfl⟩, ⟨by decide +kernel, by decide +kernel, admits_up _ _ _ _ (by decide +kernel) rfl⟩,
    by decide +kernel, ⟨by decide +kernel, admits_up _ _ _ _ (by decide +kernel) rfl⟩, by decide +kernel⟩

/-- The value of a WINDOW_OPEN. -/
def winVal (w k perm : BitVec 8) (job : W32) (base size : W64) : List Byte := [w, k, perm] ++ leBytes 4 job.toNat ++ leBytes 8 base.toNat ++ leBytes 8 size.toNat
/-- The part at work with INJECT allowed. -/
def injecting : State := up.setCfg 0xA010 1 [1]
/-- The value of a KEY_SLOT for a key of `n` bytes. -/
def keyVal (n : Nat) (count : BitVec 16) : List Byte := [BitVec.ofNat 8 n] ++ padTo 64 (List.replicate n 5) ++ [31] ++ leBytes 2 1 ++ leBytes 4 0x100 ++ leBytes 2 count.toNat
theorem padTo_len (n : Nat) (l : List Byte) : (padTo n l).length = n := by simp [padTo, slice]; omega
/-- A KEY_SLOT is admitted: the recorded value has the length of the value, whatever the digest. -/
theorem admits_key (i : Nat) (v : List Byte) (hv : v.length = 74) (h : ((entryRow 0x6301 i).any fun e => typeOk e i v) = true) (hb : up.bootAllows 0x6301 i v = true) : Admits up req 0x6301 i v :=
  admits_up up v 0x6301 i ⟨h, by decide +kernel, by decide +kernel, hb, by
    have : (recordedValue 0x6301 i v).length = 74 := by simp [recordedValue, keyRecorded, padTo_len, hv]
    rw [this]; decide +kernel⟩ rfl

theorem test_met_JournaledSettingsTakeEffectOnce :
    (Admits up req 0x6200 1 (winVal 3 0 3 0 0 0x800000) ∧ (up.room 0).isFormed = true ∧ oneRegion 0 0x800000 = true ∧ up.ownsBytes 0 0 0x800000 = true ∧ (up.window 3).isOpen = false) ∧
    (let s : State := { up with wins := [(3, { isOpen := true })] }; Admits s req 0x6200 1 (winVal 3 0 3 0 0x7FF000 4096) ∧ s.ownsBytes 0 0x7FF000 4096 = true ∧ oneRegion 0x7FF000 4096 = true ∧ (s.window 3).isOpen = true) ∧
    (Admits up req 0x6200 1 (winVal 3 0 3 0 1 4096) ∧ (1 : W64).toNat % 4096 ≠ 0) ∧ Admits up req 0x6200 2 [255] ∧
    (Admits up req 0xA010 2 ([0, 1, 1] ++ leBytes 2 1) ∧ up.cfgN 0xA010 1 = 0) ∧
    (Admits injecting req 0xA010 2 ([0, 1, 1] ++ leBytes 2 0xFFFF) ∧ injecting.cfgN 0xA010 1 ≠ 0 ∧ kindApplies 1 1 = true ∧ (injecting.room 0).isFormed = true ∧ armedAt injecting.integ 9 255 [1, 2, 3] = none) ∧
    (Admits injecting req 0xA010 2 ([0, 8, 1] ++ leBytes 2 1) ∧ kindApplies 1 8 = true) ∧
    (∀ n ∈ [16, 64], ((entryRow 0x6301 32).any fun e => typeOk e 32 (keyVal n 1)) = true) ∧ Admits up req 0x6301 (0 + 1) (keyVal 64 0xFFFF) ∧ Admits up req 0x6301 (31 + 1) (keyVal 16 0) ∧
    ((0x100 : W32) ≠ 0 ∧ (0x100 : W32).toNat + (0xFFFF : BitVec 16).toNat - 1 < 0xFFFFFF00 ∧ up.clientSum 0 + 0xFFFF ≤ 65536) ∧
    (Admits up req 0x3004 1 ([0, 255, 0, 1, 1] ++ leBytes 2 256) ∧ up.roomsAllowed = true ∧ (up.room 0).form = some formA ∧ up.shareSum 0 (fun g => g.hbmShare.toNat) + 255 ≤ 255 ∧
      up.shareSum 0 (fun g => g.dmaRate.toNat) + 256 ≤ 256) ∧
    (Admits up req 0x3020 1 ([15] ++ leBytes 2 1 ++ [formB].flatMap fun f => leBytes 2 (formBytes f).length ++ formBytes f) ∧ recLengthOk (formBytes formB) = true) ∧
    Admits up req 0x3020 1 ([0] ++ leBytes 2 0 ++ ([] : List FormRec).flatMap fun f => leBytes 2 (formBytes f).length ++ formBytes f) :=
  ⟨⟨admits_up _ _ _ _ (by decide +kernel) rfl, by decide +kernel⟩, ⟨admits_up _ _ _ _ (by decide +kernel) rfl, by decide +kernel⟩, ⟨admits_up _ _ _ _ (by decide +kernel) rfl, by decide +kernel⟩,
    admits_up _ _ _ _ (by decide +kernel) rfl, ⟨admits_up _ _ _ _ (by decide +kernel) rfl, by decide +kernel⟩, ⟨admits_up _ _ _ _ (by decide +kernel) rfl, by decide +kernel⟩,
    ⟨admits_up _ _ _ _ (by decide +kernel) rfl, by decide +kernel⟩, by decide +kernel, admits_key _ _ (by decide +kernel) (by decide +kernel) (by decide +kernel), admits_key _ _ (by decide +kernel) (by decide +kernel) (by decide +kernel), by decide +kernel,
    ⟨admits_up _ _ _ _ (by decide +kernel) rfl, by decide +kernel⟩, ⟨admits_up _ _ _ _ (by decide +kernel) rfl, by decide +kernel⟩, admits_up _ _ _ _ (by decide +kernel) rfl⟩

/-- The part at work with tallies `x`. -/
def upY (x : Tallies) : State := { up with tal := x }
/-- An advance of tally `t` for room 0. -/
def adv (t : Nat) (n : BitVec 16) : PendingAdvance := { tally := t, amount := n, room := 0, source := 4 }
theorem test_met_AdvancesReachTheirTallyOrAreRefused :
    ((up.room 0).form = some formA ∧ HostAt up 1 0 ∧ formOwns formA 64 = true ∧ formOwns formA 127 = true ∧ formOwns formA 63 = false ∧ formOwns formA 128 = false ∧ (1 : W32).setWidth 16 ≠ 0#16 ∧
      (0x10000 : W32).setWidth 16 = 0#16) ∧
    (up.watchRoom 0 = some 0 ∧ up.watchRoom 3 = some 0 ∧ (up.watch 3).arm = false) ∧
    (let s := upY { watch := [(3, { value := 1 })] }; HostAt s 1 0 ∧ (s.tally ((64 : W32).setWidth 13).toNat).toNat < (s.watch 3).value.toNat ∧ s.frozen 64 = false) ∧
    (let s := upY { watch := [(3, { value := 1 })], val := [(64, 1)] }; (s.watch 3).value.toNat ≤ (s.tally 64).toNat) ∧
    (∀ t ∈ [64, 127, 63, 128], Admits up req 0x4001 1 ([BitVec.ofNat 8 0] ++ leBytes 2 t ++ leBytes 2 1)) ∧ Admits up req 0x4001 1 ([BitVec.ofNat 8 0] ++ leBytes 2 64 ++ leBytes 2 0) ∧
    (let s := upR { roomA with state := .faulted, frozen := true }; Admits s req 0x4001 1 ([BitVec.ofNat 8 0] ++ leBytes 2 64 ++ leBytes 2 1) ∧ s.frozen 64 = true) ∧
    (popAdvance 64 (upY { adv := [adv 65 1, adv 64 7] }).tal.adv = some (adv 64 7, [adv 65 1]) ∧ up.tallyRoom 64 = some 0 ∧ up.tallyRoom 128 ≠ some (adv 128 1).room.val ∧ (up.room 0).frozen = false) ∧
    (upR { roomA with frozen := true }).tallyRoom 64 = some 0 ∧
    (let s := upY { adv := [adv 64 7], val := [(64, BitVec.ofNat 64 (2 ^ 64 - 8))] }; (s.tally 64).toNat + 7 < 2 ^ 64) ∧
    (let s := upY { adv := [adv 64 7], val := [(64, BitVec.ofNat 64 (2 ^ 64 - 7))] }; 2 ^ 64 ≤ (s.tally 64).toNat + 7) :=
  ⟨by unfold HostAt; decide +kernel, by decide +kernel, by unfold HostAt; decide +kernel, by decide +kernel, by
    intro t ht; simp only [List.mem_cons, List.mem_nil_iff, or_false] at ht; rcases ht with rfl | rfl | rfl | rfl <;> exact admits_up _ _ _ _ (by decide +kernel) rfl,
    admits_up _ _ _ _ (by decide +kernel) rfl, ⟨admits_up _ _ _ _ (by decide +kernel) rfl, by decide +kernel⟩, by decide +kernel⟩

/-- Room 0 with the fabric tallies 4096 to 4111 of job 9, whose home is device 1; `st` is its state. -/
def formJ : FormRec := { formA with ftBase := 4096, ftCount := 16, jobId := 9, home := 1 }
/-- The ring with room 0 of job 9, tallies `x`, and control message `l` arrived. -/
def job (x : Tallies) (l : List Byte) : State :=
  { ring { state := .up } [packet 6 0 0 0 l.length l] with rooms := [(0, { roomA with form := some formJ })], tal := x }
/-- That message. -/
def msg (l : List Byte) : Nat × Packet := (0, packet 6 0 0 0 l.length l)
/-- Group 0 bound to job 9. -/
def bound : Tallies := { bind := [(0, { jobId := 9, home := 0 })] }
/-- A message of room 0 for tally 4096 to its home. -/
def sentMsg (n : BitVec 16) (ref : Bool) : FabricMsg := { tally := 4096, amount := n, jobId := 9, room := 0, source := 4, refused := ref }
set_option maxRecDepth 20000 in
theorem test_met_FabricTallyMessagesKeepHomeAndMirrors :
    (∀ t ∈ [4095, 4096, 5119, 5120], let l := leBytes 2 t ++ leBytes 2 1 ++ leBytes 4 9; ControlPasses (job {} (1 :: l)) 1 (some 1) l (msg (1 :: l)) ∧ ((job {} (1 :: l)).binding (tallyGroup t)).jobId = 0 ∧ Tbl.get 0 (job {} (1 :: l)).tal.released (tallyGroup t) ≠ 9 ∧
      armedAt (job {} (1 :: l)).integ 5 255 [1, 2, 3] = none) ∧
    (∀ t ∈ [4096, 4111], let l := leBytes 2 t ++ leBytes 2 1 ++ leBytes 4 9; let s := job { released := [(0, 9)] } (1 :: l); ControlPasses s 1 (some 1) l (msg (1 :: l)) ∧ Tbl.get 0 s.tal.released (tallyGroup t) = 9 ∧
      (s.binding (tallyGroup t)).jobId ≠ 9) ∧
    (let l := leBytes 2 4096 ++ leBytes 2 1 ++ leBytes 4 9; let s := job bound (1 :: l); ControlPasses s 1 (some 1) l (msg (1 :: l)) ∧ (s.binding (tallyGroup 4096)).jobId = 9 ∧ s.tallyRoom 4096 = some 0 ∧
      (s.room 0).frozen = false ∧ s.tal.frozenJobs.contains 9 = false ∧ (s.tally 4096).toNat + 1 < 2 ^ 64) ∧
    (let l := leBytes 2 4111 ++ leBytes 2 1 ++ leBytes 4 9; let s : State := { job bound (1 :: l) with rooms := [] }; ControlPasses s 1 (some 1) l (msg (1 :: l)) ∧ s.tallyRoom 4111 = none ∧
      (s.binding (tallyGroup 4111)).jobId ≠ 8 ∧ (s.binding (tallyGroup 4111)).jobId = 9) ∧
    (let l := leBytes 2 4111 ++ leBytes 2 1 ++ leBytes 4 9; let s : State := { job { bound with frozenJobs := [9] } (1 :: l) with rooms := [] }; ControlPasses s 1 (some 1) l (msg (1 :: l)) ∧ s.tallyRoom 4111 = none ∧
      (s.binding (tallyGroup 4111)).jobId = 9 ∧ s.tal.frozenJobs.contains 9 = true) ∧
    (let l := leBytes 2 4111 ++ leBytes 8 5 ++ leBytes 4 9; let s := job { bound with val := [(4111, 4)], sent := [sentMsg 1 false] } (4 :: l); ControlPasses s 4 none l (msg (4 :: l)) ∧ s.jobRoom 9 = some 0 ∧
      (s.room 0).form = some formJ ∧ formOwns formJ 4111 = true) ∧
    (∀ g ∈ [0, 63, 64, 255], let l := leBytes 1 g ++ leBytes 4 9; ControlPasses (job {} (2 :: l)) 2 (some 1) l (msg (2 :: l)) ∧ ((job {} (2 :: l)).binding g).jobId = 0) ∧
    (let l := leBytes 1 0 ++ leBytes 4 9; let s := job bound (2 :: l); ControlPasses s 2 (some 1) l (msg (2 :: l)) ∧ (s.binding 0).jobId = 9 ∧ armedAt s.integ 5 ((s.jobRoom 9).getD 255) [1, 2, 3] = none) ∧
    (let l := leBytes 1 0 ++ leBytes 4 8; let s := job bound (2 :: l); ControlPasses s 2 (some 1) l (msg (2 :: l)) ∧ (s.binding 0).jobId ≠ 8) ∧
    (let l := leBytes 1 0 ++ leBytes 1 1 ++ leBytes 4 9 ++ (List.replicate 8 (3 : W64)).flatMap fun x => leBytes 8 x.toNat; let s := job {} (5 :: l); ControlPasses s 5 none l (msg (5 :: l)) ∧
      formOwns formJ (4096 + 16 * 0 + 8 * 1) = true ∧ ∀ i, i < 8 → s.frozen (4096 + 16 * 0 + 8 * 1 + i) = false) ∧
    (∀ c ∈ [3, 4, 5], let l := leBytes 2 4096 ++ leBytes 1 c ++ leBytes 4 9; let s := job { sent := [{ sentMsg 2 false with old := true }, sentMsg 1 false] } (6 :: l); ControlPasses s 6 none l (msg (6 :: l)) ∧
      findSent s.tal 4096 (fun x => decide (x.jobId = 9) && !x.refused && !x.old) = some (sentMsg 1 false) ∧ (s.room 0).state = .formed) ∧
    (let l := leBytes 2 4096 ++ leBytes 1 3 ++ leBytes 4 9; let m := { sentMsg 2 false with old := true }; let s := job { sent := [m] } (6 :: l); ControlPasses s 6 none l (msg (6 :: l)) ∧
      (∀ x ∈ s.tal.sent, x.tally = 4096 → x.jobId = 9 → x.refused = false → x.old = true) ∧ findSent s.tal 4096 (fun x => decide (x.jobId = 9) && !x.refused) = some m) ∧
    (∀ n ∈ [0, 1], let s := job { sent := [sentMsg (BitVec.ofNat 16 n) true] } []; findSent s.tal 4096 (fun x => x.refused) = some (sentMsg (BitVec.ofNat 16 n) true) ∧ armedAt s.integ 5 0 [1, 2, 3] = none) ∧
    (let l := leBytes 4 9 ++ leBytes 1 5; ControlPasses (job bound (3 :: l)) 3 (some 1) l (msg (3 :: l)) ∧ (job bound (3 :: l)).jobRoom 9 = some 0 ∧ ((job bound (3 :: l)).room 0).state = .formed ∧
      ∃ b ∈ (job bound (3 :: l)).tal.bind, b.2.jobId = 9) ∧
    (let l := leBytes 4 9 ++ leBytes 2 1 ++ leBytes 1 5; ControlPasses (job {} (7 :: l)) 7 none l (msg (7 :: l))) := by
  unfold ControlPasses Uninjected
  and_intros <;> decide +kernel

/-- The part at work with cue entry `c` as `e`. -/
def upE (c : CueRef) (e : CueEntry) : State := up.setCue c e
/-- An entry that advances tally 64 by 1 at frame `f`. -/
def cueOf (f : Nat) : CueEntry := { pos := mkPos f 0 0, action := 1, target := 64, amount := 1 }
/-- The value of an ARM_DEVICE_CUE of entry `n` for a plan at frame 5. -/
def armVal (n a : Nat) : List Byte := leBytes 2 n ++ leBytes 8 (mkPos 5 0 0).toNat ++ leBytes 8 0 ++ leBytes 8 (0xFFFF0000 + 2 * a) ++ leBytes 8 0
theorem test_met_CuesArmDisarmAndRefuse :
    (∀ c ∈ [CueRef.dev 16, .dev 31, .quire 0 0, .quire 0 63], let s := upE c (cueOf 5); s.cueOwnerOf c = some 0 ∧ s.cueCheck c (withCtl (s.cueAt c) (0xFFFF0002 ||| 1)) = 0 ∧ (s.cueAt c).arm = false ∧
      s.cueReached (withCtl (s.cueAt c) 0xFFFF0003) = false) ∧
    (CueWriter (upE (.dev 16) (cueOf 5)) (.host 1) (.dev 16) 0 ∧ CueWriter (upE (.quire 0 63) (cueOf 5)) (.host 1) (.quire 0 63) 0 ∧ CueWriter (upE (.quire 0 63) (cueOf 5)) (.tile 0) (.quire 0 63) 0) ∧
    (∀ c ∈ [CueRef.dev 16, .quire 0 0], ∀ l ∈ [0xFFFF0003, 0xFFFF0023], let s := upE c (cueOf 0); let x := withCtl (s.cueAt c) l; s.posValid = true ∧ s.cueCheck c x = 0 ∧ s.cueReached x = true ∧ s.classOk x = true ∧
      x.rpt = 0 ∧ x.late = decide (l = 0xFFFF0023)) ∧
    ((upE (.dev 16) (cueOf 5)).cueCheck (.dev 16) (withCtl (cueOf 5) 0xFFFF000B) ≠ 0 ∧ (upE (.dev 16) {}).cueCheck (.dev 16) (withCtl {} 0xFFFF0003) ≠ 0) ∧
    (let s := upE (.dev 16) { cueOf 5 with arm := true }; (s.cueAt (.dev 16)).arm = true ∧ withCtl (s.cueAt (.dev 16)) 0xFFFF0003 = s.cueAt (.dev 16) ∧ withCtl (s.cueAt (.dev 16)) 0xFFFF0023 ≠ s.cueAt (.dev 16) ∧
      withCtl (s.cueAt (.dev 16)) 0xFFFF0002 = s.cueAt (.dev 16)) ∧
    (∀ n ∈ [2032, 2047], let d := CueRef.dev (Fin.ofNat 2048 n); Admits up req 0x2041 1 (armVal n 5) ∧ (up.cueAt d).arm = false ∧
      (let x := withTgt (withCtl { up.cueAt d with pos := mkPos 5 0 0, addr := 0 } 0xFFFF000A) 0; up.cueCheck d x = 0 ∧ up.cueReached x = false) ∧
      up.cueCheck d (withTgt (withCtl { up.cueAt d with pos := mkPos 5 0 0, addr := 0 } 0xFFFF0002) 0) ≠ 0 ∧ Admits up req 0x2041 1 (armVal n 1)) ∧
    (let s := upE (.dev 2032) { arm := true, action := 5 }; Admits s req 0x2041 1 (armVal 2032 5) ∧ (s.cueAt (.dev 2032)).arm = true) ∧
    (∀ n ∈ [0, 2031, 2048, 65535], Admits up req 0x2041 1 (armVal n 5)) ∧ (∀ n ∈ [2031, 2032, 2047, 2048], Admits up req 0x2041 2 (leBytes 2 n)) := by
  refine ⟨by decide +kernel, ⟨⟨by decide +kernel, ⟨1, rfl, ?_⟩⟩, ⟨by decide +kernel, ?_⟩, ⟨by decide +kernel, ?_⟩⟩, by decide +kernel, by decide +kernel, by decide +kernel, ?_,
    ⟨admits_up _ _ _ _ (by decide +kernel) (by decide +kernel), by decide +kernel⟩, ?_, ?_⟩
  · unfold HostAt; decide +kernel
  · show WriterReaches _ _ _ _
    unfold WriterReaches; decide +kernel
  · show WriterReaches _ _ _ _
    unfold WriterReaches; decide +kernel
  · intro n hn; simp only [List.mem_cons, List.mem_nil_iff, or_false] at hn
    rcases hn with rfl | rfl <;> exact ⟨admits_up _ _ _ _ (by decide +kernel) rfl, by decide +kernel, by decide +kernel, by decide +kernel, admits_up _ _ _ _ (by decide +kernel) rfl⟩
  · intro n hn; simp only [List.mem_cons, List.mem_nil_iff, or_false] at hn
    rcases hn with rfl | rfl | rfl | rfl <;> exact admits_up _ _ _ _ (by decide +kernel) rfl
  · intro n hn; simp only [List.mem_cons, List.mem_nil_iff, or_false] at hn
    rcases hn with rfl | rfl | rfl | rfl <;> exact admits_up _ _ _ _ (by decide +kernel) rfl

/-- An armed entry of action `a` for target `g` whose fire is due. -/
def dueCue (a : BitVec 3) (g amt : BitVec 16) : CueEntry := { action := a, target := g, amount := amt, addr := 0x40, arm := true, due := some 0 }
theorem test_met_CuesFireTheirAction :
    (let e := dueCue 1 127 1; let s := upE (.dev 16) e; s.cueOwnerOf (.dev 16) = some 0 ∧ (s.room 0).form = some formA ∧ Fires s (.dev 16) 1 e ∧ formOwns formA e.target.toNat = true ∧ e.amount ≠ 0) ∧
    (let e := dueCue 2 0 0; let s := upE (.dev 31) e; Fires s (.dev 31) 2 e ∧ (s.chanRoom (cueChan (.dev 31) e)).isSome = true ∧ chanIdle (s.chan (cueChan (.dev 31) e)) = true) ∧
    (let e := dueCue 2 63 0; let s := upE (.dev 31) e; Fires s (.dev 31) 2 e ∧ s.chanRoom (cueChan (.dev 31) e) = none) ∧
    (let e := dueCue 2 0 0; let s := (upE (.quire 0 0) e).setChan (.tile 0 0) { state := .move }; Fires s (.quire 0 0) 2 e ∧ (s.chanRoom (cueChan (.quire 0 0) e)).isSome = true ∧ chanIdle (s.chan (cueChan (.quire 0 0) e)) = false) ∧
    (let e := dueCue 3 0 0xFFFF; let s := upE (.dev 16) e; Fires s (.dev 16) 3 e ∧ (s.quireRoom (launchQuire (.dev 16) e)).isSome = true ∧ (s.quire (launchQuire (.dev 16) e)).power = .on ∧ (s.tile 0).run ≠ .stopped ∧ (s.tile 0).priv.launchPend = false ∧ (s.tile 1).run = .stopped) ∧
    (let e := dueCue 3 79 1; let s := upE (.dev 16) e; Fires s (.dev 16) 3 e ∧ s.quireRoom (launchQuire (.dev 16) e) = none) ∧
    (let e := dueCue 3 0 1; let s := upE (.dev 16) e; let t : State := { s with quires := [(0, { power := .gated })] }; Fires t (.dev 16) 3 e ∧ (t.quireRoom (launchQuire (.dev 16) e)).isSome = true ∧ (t.quire (launchQuire (.dev 16) e)).power = .gated) ∧
    (let e := dueCue 4 3 0; let s := upE (.dev 16) e; Fires s (.dev 16) 4 e ∧ s.cueOwnerOf (.dev 16) = some 0) ∧
    (let e := dueCue 5 0 0; let s := upE (.dev 2047) e; let x := s.cueAfter { e with fires := e.fires + 1 } true; Fires s (.dev 2047) 5 e ∧ ledAdmits s.led (cueBytes 2047 x).length = true ∧ s.led.current = none ∧
      s.pow.boot = .ready ∧ x.arm = false ∧ (s.plan 0).dissolve = 0 ∧ (s.plan 0).forms = []) ∧
    (let e := dueCue 5 0 0; let s : State := { upE (.dev 2032) e with led := { closed := true } }; Fires s (.dev 2032) 5 e ∧ ledAdmits s.led (cueBytes 2032 (s.cueAfter { e with fires := e.fires + 1 } true)).length = false) ∧
    (let e := dueCue 5 0 0; let s : State := { upE (.dev 2032) e with plans := [(0, { forms := [formBytes formA] })] }; Fires s (.dev 2032) 5 e ∧ (s.planCheck (s.plan 0)).isSome = true ∧
      ledAdmits s.led (cueBytes 2032 (s.cueAfter { e with fires := e.fires + 1 } true)).length = true) := by
  unfold Fires
  and_intros <;> decide +kernel

/-- The part at work with clock `x` and the sources `p` and `q` (0 none, 1 analog, 2 PTP, 3 fabric, 4 synthetic). -/
def upK (p q : Byte) (x : Clock) : State := { (up.setCfg 0x2010 1 [p]).setCfg 0x2010 2 [q] with clk := x }
theorem test_met_PositionAdvancesLocksAndIsHeld :
    (upK 4 0 {}).posValid = false ∧ (∀ p ∈ [(1124, 2639), (0, 2639), (1124, 0)], (upK 4 0 { state := .locked, pos := mkPos 7 p.1 p.2 }).posValid = true ∧ 2639 + 1 = up.tpl ∧ 1124 + 1 = up.lpf) ∧
    (let s := upE (.dev 16) { pos := mkPos 0 0 1, arm := true }; (s.cueAt (.dev 16)).arm = true ∧ (s.cueAt (.dev 16)).due = none ∧ s.cueE (s.cueAt (.dev 16)) = nextTick s.lpf s.tpl s.clk.pos ∧ s.classOk (s.cueAt (.dev 16)) = true) ∧
    (∀ p ∈ [1, 2, 4], let s := upK (BitVec.ofNat 8 p) 0 { keeper := true }; s.posValid = false ∧ s.isKeeper = true ∧ s.clk.tooFar = false ∧ s.primary = (if p = 1 then some .analog else if p = 2 then some .ptp else some .synthetic)) ∧
    (up.formatMatches 6 = true ∧ up.formatMatches 1 = false ∧ (let s := upK 2 0 { src := some .ptp }; s.formatMatches 1 = false ∧ s.clk.src ≠ some .analog ∧ s.configured .analog = false)) ∧
    (let s := upK 2 1 { state := .locked, src := some .ptp }; s.clk.src = some .ptp ∧ s.clk.state = .locked ∧ s.primary = some .ptp) ∧
    (∀ p ∈ [(1, ClockSource.analog), (4, .synthetic)], let s := upK (BitVec.ofNat 8 p.1) 2 { keeper := true, state := .locked, src := some .ptp, presentAnalog := true }
      s.clk.src = some .ptp ∧ s.clk.state = .locked ∧ s.isKeeper = true ∧ s.primary = some p.2 ∧ p.2 ≠ .ptp ∧ s.sourcePresent p.2 = true) ∧
    (let s := upK 2 1 { state := .acquire, src := some .ptp }; s.clk.src = some .ptp ∧ s.clk.state = .acquire ∧ s.primary ≠ some .synthetic ∧ s.secondary ≠ some .synthetic) ∧
    (let s := upK 1 0 { state := .locked, src := some .analog, format := 6 }; (1 : Fin 17) ≠ s.clk.format ∧ s.clk.state = .locked ∧ s.clk.src = some .analog ∧ s.primary = some .analog) ∧
    ((6 : Fin 17) ≠ up.clk.format ∧ up.clk.src ≠ some .analog) ∧ (upK 4 0 {}).clk.src = none ∧
    (let s := upK 1 0 { state := .acquire, src := some .analog, presentAnalog := true }; s.sourcePresent .analog = true ∧ (1124 : BitVec 14).toNat < s.lpf ∧ (2639 : BitVec 14).toNat < s.tpl) ∧
    (∀ n ∈ [0, 999999999], let s := upK 2 0 { state := .acquire, src := some .ptp, presentPtp := true, ptpTime := { seconds := 1700000000, nanos := BitVec.ofNat 32 n } }
      let q := s.ptpPos (s.clk.ptpTime.seconds.toNat * 1000000000 + s.clk.ptpTime.nanos.toNat + 500); s.sourcePresent .ptp = true ∧ posLine q < s.lpf ∧ posTick q < s.tpl) ∧
    (∀ k ∈ [2, 3], ∀ st ∈ [ClockState.acquire, .holdover], let s := upK 3 0 { state := st, src := some .fabric, presentFabric := true, keeperState := BitVec.ofNat 2 k }
      s.sourcePresent .fabric = true ∧ s.clk.keeperState = BitVec.ofNat 2 k ∧ s.clk.state = st) := by
  and_intros <;> decide +kernel

/-- The keeper on the synthetic source. -/
def onSynth : State := upK 4 0 { keeper := true, state := .locked, src := some .synthetic }
/-- The keeper with both sources present, on PTP. -/
def measuring : State := upK 1 2 { keeper := true, state := .locked, src := some .ptp, presentAnalog := true, presentPtp := true }
/-- A device of the ring that follows the fabric, both local inputs present; it is not the keeper. -/
def following : State :=
  { ((ring { state := .up } []).setCfg 0x2010 1 [1]).setCfg 0x2010 2 [2] with
    clk := { state := .locked, src := some .fabric, presentFabric := true, presentAnalog := true, presentPtp := true, heard := true, parentPort := 0 } }
/-- A master of the least priorities. -/
def masterA : PtpMaster := { priority1 := 0, clockClass := 0, accuracy := 0, variance := 0, priority2 := 0, grandmaster := 5, steps := 0, sender := 7 }
/-- Its Sync message in domain `d`. -/
def syncOf (d : BitVec 8) : PtpSync := { domain := d, master := masterA, origin := { seconds := 5, nanos := 0 }, followUp := none }
theorem test_met_ClockStepsDisagreesAndChangesSource :
    (let s : State := { measuring with rooms := [] }; s.posValid = true ∧ s.clk.src.isSome = true ∧ s.anyFormed = false ∧ s.cfgN 0x2010 7 < (100001 : Int).natAbs ∧ s.cfgN 0x2010 7 < (-100001 : Int).natAbs ∧
      (100000 : Int).natAbs ≤ s.cfgN 0x2010 7 ∧ posLine (mkPos 9 1124 2639) < s.lpf ∧ posTick (mkPos 9 1124 2639) < s.tpl) ∧ up.anyFormed = true ∧
    (Admits onSynth req 0x2012 1 (leBytes 8 (mkPos 9 1124 2639).toNat) ∧ onSynth.isKeeper = true ∧ onSynth.clk.src = some .synthetic ∧ onSynth.posValid = true ∧ posAhead (mkPos 9 1124 2639) onSynth.clk.pos = true) ∧
    (Admits up req 0x2012 1 (leBytes 8 (mkPos 9 0 0).toNat) ∧ up.clk.src ≠ some .synthetic) ∧ (∀ q ∈ [(9, 1125, 0), (9, 0, 2640), (0, 0, 0)], let p := mkPos q.1 q.2.1 q.2.2; ((entryRow 0x2012 1).any fun e => typeOk e 1 (leBytes 8 p.toNat)) = true ∧
      (onSynth.lpf ≤ posLine p ∨ onSynth.tpl ≤ posTick p ∨ posAhead p onSynth.clk.pos = false)) ∧
    (measuring.measures .ptp = true ∧ measuring.isKeeper = true ∧ measuring.cfgN 0x2010 3 < (-1001 : Int).natAbs ∧ (-1000 : Int).natAbs ≤ measuring.cfgN 0x2010 3) ∧
    (∀ x ∈ [ClockSource.analog, .ptp], following.measures x = true ∧ following.isKeeper = false ∧ following.cfgN 0x2010 3 < (1001 : Int).natAbs ∧ (1000 : Int).natAbs ≤ following.cfgN 0x2010 3) ∧
    (∀ x ∈ [ClockSource.analog, .ptp, .fabric, .synthetic], onSynth.measures x = false) ∧
    (let s := upK 1 2 { keeper := true, state := .holdover, presentPtp := true }; s.isKeeper = true ∧ s.sourcePresent .ptp = true ∧ s.clk.src = none ∧ s.secondary = some .ptp ∧ s.here s.primary = false ∧ s.clk.agedBit = false) ∧
    (measuring.isKeeper = true ∧ measuring.sourcePresent .analog = true ∧ measuring.posValid = true ∧ measuring.primary = some .analog ∧ measuring.clk.src = measuring.secondary ∧ measuring.clk.src ≠ some .analog) ∧
    measuring.clk.state ≠ .holdover ∧ (let s := upK 1 2 { state := .locked, src := some .analog, presentAnalog := true }; s.clk.presentAnalog = true ∧ s.clk.src = some .analog) ∧
    (measuring.clk.presentAnalog = true ∧ measuring.clk.src ≠ some .analog ∧ measuring.secondary = some .ptp ∧ measuring.configured .analog = true) ∧
    (following.clk.presentAnalog = true ∧ following.clk.src ≠ some .analog ∧ following.reported = some .analog) ∧
    ((syncOf 1).domain.toNat ≠ up.cfgN 0x2020 1 ∧ (syncOf 127).domain.toNat = up.cfgN 0x2020 1 ∧ up.bestMaster masterA 1 = (masterA, 1) ∧ up.clk.src = some .ptp ∧
      (upK 2 0 { ptpMaster := some (masterA, 0) }).bestMaster { masterA with priority1 := 1, sender := 8 } 1 ≠ ({ masterA with priority1 := 1, sender := 8 }, 1)) := by
  refine ⟨?_, ?_, ⟨admits_up _ _ _ _ (by decide +kernel) rfl, by decide +kernel⟩, ⟨admits_up _ _ _ _ (by decide +kernel) rfl, by decide +kernel⟩, ?_⟩
  all_goals and_intros <;> decide +kernel

/-- The ring with clock `c`, port 0 UP, and the CANDIDACY `l` arrived. -/
def ringK (c : Clock) (l : List Byte) : State := { ring { state := .up } [packet 6 0 0 0 l.length l] with clk := c }
/-- The payload of a SYNC flit of keeper 1 at position `q`, with `h` hops and the keeper's state. -/
def word (q : Pos) (h : BitVec 8) (st : BitVec 2) : List Byte :=
  syncPayload { pos := q, txTs := 5, echoTs := 0, echoHold := 0, keeper := 1, epoch := 3, heartbeat := 9, hops := h, state := st, valid := true }
/-- A device with every port off, but for a port 0 that is UP. -/
def solo : State := { (List.range 16).foldl (fun s p => s.setCfg 0x6001 (p + 1) [0, 0, 255, 255]) up with ports := [(0, { state := .up })] }
theorem test_met_SyncWordsAndElectionsFindTheKeeper :
    ((ring {} []).port 0).state ≠ .up ∧ (((ringK { keeper := true } []).port 0).state = .up ∧ (ringK { keeper := true } []).isKeeper = true) ∧ (ringK {} []).isKeeper = false ∧
    (∀ n ∈ [0, 14], let s := ring { state := .up, badRun := n } []; (s.port 0).state = .up ∧ (s.port 0).badRun < 15 ∧ (hdr 0 false).lcrcOk = false ∧ (hdr 0 false).corrected = 0 ∧ (hdr 0 false).uncorrectable = 0) ∧
    ((hdr 0 true).lcrcOk = true ∧ solo.alone = true ∧ (solo.port 0).state = .up ∧ (readSync (word 0 255 2)).hops = 255) ∧
    (∀ k ∈ [0, 255], let s := ringK { keeperNo := 1, heard := true, parentPort := BitVec.ofNat 8 k, src := some .fabric, state := .locked } []; s.alone = false ∧ (s.clk.parentPort.toNat = 0 ∨ s.clk.parentPort = 255) ∧ s.clk.keeper = false ∧
      ∀ st ∈ [0, 3], let w := readSync (word 0 63 (BitVec.ofNat 2 st)); w.hops.toNat < 64 ∧ w.keeper = s.clk.keeperNo ∧ w.state ≠ 2) ∧
    (let s := ringK { keeperNo := 1, heard := true, parentPort := 0, src := some .fabric, state := .locked } []; let w := readSync (word (mkPos 4 1124 2639) 0 2)
      s.clk.heard = true ∧ w.hops.toNat < 64 ∧ w.state = 2 ∧ w.valid = true ∧ posLine w.pos < s.lpf ∧ posTick w.pos < s.tpl ∧ posAhead (addTicks s.lpf s.tpl (s.delayTicks 0) w.pos) s.clk.pos = true) ∧
    (let s := ringK {} []; s.alone = false ∧ s.clk.heard = false ∧ s.clk.keeperEpoch = 0 ∧ (readSync (word 0 63 2)).epoch ≠ 0 ∧ (readSync (word 0 63 2)).hops.toNat < 64 ∧ (readSync (word 0 64 2)).hops.toNat = 64 ∧ s.clk.state = .free) ∧
    (let s := ringK { src := some .fabric, state := .locked } []; s.clk.heard = false ∧ s.clk.src = some .fabric ∧ s.clk.state = .locked) ∧
    (let l := leBytes 2 1 ++ leBytes 4 3; let s := ringK { candidacies := [(1, 3)] } (8 :: l); let e := msg (8 :: l)
     s.arrivedWhere (fun k => decide (k.op = 6) && decide (k.dst.toNat = s.devNo) && decide (k.payload = 8 :: l)) = some e ∧ arrivedBy e.1 = 0 ∧ s.pow.neg = none ∧ e.2.pchk = packetCheck e.2 ∧
      armedAt s.integ 7 255 [1, 2, 3] = none ∧ ∀ y ∈ s.clk.candidacies, y.1 = 1 → y.2 ≤ 3) ∧
    (let s := ringK { candidacies := [(1, 4)] } []; s.clk.candidacies.find? (fun y => decide (y.1 = 1)) = some (1, 4) ∧ 3 < 4) ∧ (ringK {} []).clk.election = none ∧
    (let s := ringK { election := some 0 } []; s.clk.election = some 0 ∧ (0 : BitVec 16).toNat = s.devNo ∧ s.cfgN 0x2030 1 = 1 ∧ s.clk.keeperEpoch = 0 ∧ s.clk.keeper = false ∧ s.clk.heard = false) ∧
    (1 : BitVec 16).toNat ≠ (ringK { election := some 1 } []).devNo := by
  and_intros <;> decide +kernel

/-- The part at work with its link up and function `f` as `x`. -/
def upF (f : Nat) (x : Fn) : State := { up with fns := [(f, x)], pcie := { linkUp := true, vfEnable := true, numVfs := 2 } }
theorem direct1 : Direct up 1 := by unfold Direct; decide +kernel
theorem direct0 : Direct up 0 := by unfold Direct; decide +kernel
/-- Vector 7 of owner `o`, holding 2 events, with slot 3 of kind `k` for index 0; the MSI-X entry is masked as `m` says. -/
def router (o k : Nat) (m : Bool) : State :=
  { upF (ownerFn o) { busMaster := true, msixEn := true, msix := [(0, { masked := m })] } with
    irq := { vec := [(256 * o + 7, { en := true, held := 2 })], slot := [(2048 * o + 8 * 7 + 3, { en := true, kind := BitVec.ofNat 2 k, line := 15, index := 0 })] } }
theorem reaches_tile0 : WriterReaches up (.tile 0) 0 0 := by unfold WriterReaches; decide +kernel
theorem test_met_RegistersAreCheckedStagedAndLatched :
    (Direct up 1 ∧ (up.fn 1).stage = none ∧ accessOk 2 4 = false ∧ accessOk 4 8 = false ∧ accessOk 0 2 = false) ∧
    ((1 : FnId).val = 0 + 1 ∧ (up.room 0).exists' = true ∧ up.quireRoom 1 ≠ some 0 ∧ (0x110808 : BitVec 24).toNat = 0x100808 + 0x10000 * 1) ∧
    ((0x178 : BitVec 24).toNat = 0x100 + 8 * 15 ∧ (1 : FnId) ≠ 0) ∧
    (WriterReaches up (.host 1) 0 0 ∧ (0x1007E0 : BitVec 24).toNat = 0x100000 + 0x10000 * 0 + 32 * 63 ∧ WriterReaches up (.tile 0) 0 0 ∧ (0x7E0 : BitVec 24).toNat = 32 * 63 ∧ (up.cueAt (.quire 0 63)).arm = false) ∧
    (∃ x, Direct up 1 ∧ fnSpan 1 0x100 = some x ∧ fnSpan 1 0x104 = some x ∧ (0x104 : BitVec 24).toNat = 0x104 + 8 * 0 ∧ x.base = 0x100 ∧ msixArea 1 0x100 = false ∧ up.regForeign 1 x.base = false ∧ x.size = 8 ∧ x.wide = true ∧ x.ro = false) ∧
    ((upF 1 { stage := some (0x100, 5) }).fn 1).stage = some (0x104 - 4, 5) ∧ Direct up 0 ∧ (Tbl.get none ((upF 1 { latch := [(0x60, some 9)] }).fn 1).latch 0x60 = some 9) ∧
    (119 < msixEntries 1 ∧ 127 < msixEntries 0) ∧
    (let s := upF 1 { busMaster := true, msix := [(119, { masked := true, pending := true })] }; (s.fn 1).held = [] ∧ (Tbl.get {} (s.fn 1).msix 119).pending = true ∧ (s.fn 1).fnMask = false ∧ (s.fn 1).busMaster = true) ∧
    (let s := upF 1 { busMaster := true, msix := [(119, { masked := false, pending := true })] }; (Tbl.get {} (s.fn 1).msix 119).pending = true ∧ (Tbl.get {} (s.fn 1).msix 119).masked = false) ∧
    ((up.irVec 0 7).en = false) ∧
    (∀ p ∈ [(0, 1, true), (0, 1, false), (0, 2, true), (16, 3, true)], let s := router p.1 p.2.1 p.2.2; (s.irVec p.1 7).en = true ∧ (s.irVec p.1 7).held ≠ 0 ∧ s.chosenSlot p.1 7 = some 3 ∧
      (s.irSlot p.1 (8 * 7 + 3)).kind = BitVec.ofNat 2 p.2.1 ∧ (s.fn (ownerFn p.1)).fnMask = false ∧ (Tbl.get {} (s.fn (ownerFn p.1)).msix 0).masked = p.2.2 ∧ (s.fn (ownerFn p.1)).busMaster = true) ∧
    (let s : State := { up with clk := { state := .holdover }, irq := { src := [(3953, { mask := 64, en := true, vector := 9 })], vec := [(16 * 256 + 9, { en := true })] } }
     s.clk.state = .holdover ∧ s.clk.agedBit = false ∧ s.asserted 3953 = false ∧ (s.irSrc 3953).en = true ∧ (s.irSrc 3953).mask.getLsbD 6 = true ∧ (s.irVec 16 (s.irSrc 3953).vector.toNat).en = true) := by
  exact ⟨⟨direct1, by decide +kernel⟩, by decide +kernel, by decide +kernel, ⟨reaches_host, by decide +kernel, reaches_tile0, by decide +kernel⟩, ⟨_, direct1, rfl, by decide +kernel⟩, by decide +kernel, direct0, by and_intros <;> decide +kernel⟩

/-- Function 1 with aperture 15 on unit `u`. -/
def mapped (u : Nat) : State := upF 1 { apt := [(15, { en := true, base := BitVec.ofNat 35 u })], busMaster := true }
/-- Aperture 15 on the scratchpads of quire 0, which is gated. -/
def asleep : State := { mapped (0x40000000000000 / 0x200000) with quires := [(0, { power := .gated })] }
theorem test_met_ApertureAndLinkFollowTheHost :
    (let s := mapped 0; (s.pow.neg = none ∧ (s.fn 1).held = []) ∧ s.bar2Addr 1 (15 * 2 ^ 28) = some 0 ∧ s.bar2Ok 1 (15 * 2 ^ 28) 0x1000 = true ∧ s.partsAsleep [(0, 0x1000)] = [] ∧ armedAt s.integ 1 (1 - 1) [1, 2, 3] = none ∧
      armedAt s.integ 2 (1 - 1) [1, 2, 3] = none ∧ 15 * 2 ^ 28 % 2 ^ 28 + 0x1000 ≤ 2 ^ 28) ∧ (∀ g, (mapped 0).syndAt g = 0) ∧
    (let s := asleep; s.bar2Addr 1 (15 * 2 ^ 28) = some 0x40000000000000 ∧ s.bar2Ok 1 (15 * 2 ^ 28) 8 = true ∧ s.partsAsleep [(0x40000000000000, 8)] = [0] ∧ (s.quire 0).power = .gated) ∧
    (let s := mapped 4; s.bar2Ok 1 (15 * 2 ^ 28) 8 = false ∧ s.bar2Ok 1 0 8 = false) ∧ ((1 : FnId).val = (0 : RoomId).val + 1 ∧ (up.room 0).state = .formed ∧ (up.room 0).form = some formA ∧ formA.ftCount = 0) ∧ ((upF 1 {}).pcie.vfs = 2 ∧ (upF 1 {}).pcie.linkUp = true ∧ (upF 1 {}).pcie.lost = false) ∧ up.pcie.linkUp = false ∧
    (let s : State := { up with pcie := { lost := true, perst := false } }; s.pcie.lost = true ∧ s.pcie.perst = false) ∧ ({ up with pcie := { lost := true } } : State).pcie.perst = true ∧
    (let d := { copyDesc with ssp := 2 }; let s := (upF 1 {}).setChan (.sys 0) { state := .move, desc := some d, reqs := [wire 0 8 false] }; s.chanRoom (.sys 0) = some 0 ∧ (s.chan (.sys 0)).desc = some d ∧ d.ssp = 2) := by
  exact ⟨by decide +kernel, fun _ => rfl, by and_intros <;> decide +kernel⟩

/-- Function 1 with mailbox `x`. -/
def boxed (x : Mbx) : State := upF 1 { mbx := x, busMaster := true }
/-- A READ frame of 65 bytes in a slot. -/
def slotBytes : List Byte := frameBytes (frame 3)
theorem test_met_MailboxRingsMoveFrames :
    Direct (boxed {}) 1 ∧ Direct (boxed { en := true }) 1 ∧ (∀ n ∈ [2, 8], let m : Mbx := { reqBase := 4096, log2 := BitVec.ofNat 4 n }; m.en = false ∧ m.reqBase.toNat % 4096 = 0 ∧ m.rspBase.toNat % 4096 = 0 ∧ 2 ≤ m.log2.toNat ∧ m.log2.toNat ≤ 8) ∧
    (∀ c ∈ [1, 9], let g := ((BitVec.ofNat 32 (16 * c) : W32) >>> 4).setWidth 4; g.toNat < 2 ∨ 8 < g.toNat) ∧ ((1 : W64).toNat % 4096 ≠ 0) ∧
    (let m : Mbx := { en := true, log2 := 3, reqHead := 0xFFFF }; ((7 : W16) - m.reqHead).toNat ≤ 2 ^ m.log2.toNat ∧ 2 ^ m.log2.toNat < ((8 : W16) - m.reqHead).toNat) ∧ (boxed {}).mbxReads 1 = false ∧
    (let s := boxed { en := true, log2 := 3, reqTail := 1 }; s.mbxReads 1 = true ∧ s.hostReach 1 = true ∧ 2044 < (2045 : W16).toNat ∧ slotBytes.length = 49 ∧ ((parseFrame (padTo 49 slotBytes)).map fun f => f.op) = some 3) ∧
    (let s := boxed { en := true, log2 := 3, waiting := [frame 3], rspTail := 8 }; (s.fn 1).mbx.waiting = [frame 3] ∧ ((8 : W16) - 1).toNat < 2 ^ (s.fn 1).mbx.log2.toNat ∧ (s.fn 1).mbx.irq = false ∧ s.hostReach 1 = true) ∧
    (boxed {} |>.fn 1).mbx.waiting = [] := by
  unfold Direct; and_intros <;> decide +kernel

/-- Key slot 3 holds a key of 16 bytes, with every permission. -/
def keyA : KeySlot := { len := 16, key := List.replicate 64 7, perm := 31, rooms := 0xFFFF, base := 0x100, count := 16 }
/-- An open session on Ethernet. -/
def sess : Session := { number := 0xA11, transport := 0, slot := 3, nc := zeros 16, np := zeros 16, isOpen := true, ks := [1] }
/-- The part at work with session `x` and Ledger `l`. -/
def talkL (x : Session) (l : Ledger) : State := { up with bil := { keys := [(3, keyA)], sessions := [x] }, led := l }
abbrev talk : State := talkL sess {}
/-- A frame of operation `op` on `i`.`j` with payload `v`. -/
def ask (op : BitVec 8) (i : BitVec 16) (j : BitVec 8) (v : List Byte) : Frame :=
  { frame op with index := i, sub := j, length := BitVec.ofNat 16 v.length, total := BitVec.ofNat 32 v.length, payload := v }
/-- The frame under the key of the session. -/
def signed (q : Frame) : Frame := withCrc { q with tag := frameTag sess.ks q }
/-- The frame with no TAG. -/
def bare (q : Frame) : Frame := withCrc { q with tag := zeros 16 }
theorem signed_good (q : Frame) (h : q.length.toNat = q.payload.length) : frameGood (signed q) = true := by
  have t : (signed q).tag.length = 16 := padTo_len 16 _
  have c : (signed q).crc = crc32c (frameHead (signed q) ++ (signed q).payload ++ (signed q).tag) := rfl
  simp only [frameGood, Bool.and_eq_true, decide_eq_true_eq]
  exact ⟨⟨h, t⟩, c⟩
theorem inSession_of (l : Ledger) (q : Frame) (h : q.length.toNat = q.payload.length) (hv : q.ver = 1) (hs : q.session = 0xA11) (hc : q.client = 0x107) : InSession (talkL sess l) 0 (signed q) sess keyA := by
  refine ⟨⟨by decide, rfl, rfl, signed_good q h, rfl, hv⟩, ?_, rfl, rfl, ?_⟩
  · show (talkL sess l).openSession 0 q.session = some sess
    rw [hs]; rfl
  · show keyA.has q.client = true
    rw [hc]; rfl
theorem reaches_of (s : State) (q : Frame) (hh : s.hears 0 = true) (hn : s.pow.neg = none) (hg : frameGood q = true) (hi : armedAt s.integ 8 255 [1, 2, 3] = none) (hv : q.ver = 1) : FrameReaches s 0 q :=
  ⟨by decide, hh, hn, hg, hi, hv⟩

/-- A HELLO for slot `k`. -/
def helloFor (k : Byte) : Frame := bare (ask 1 0 0 (k :: List.replicate 19 4))
/-- The AUTH of an open handshake, right or not. -/
def proofOf (x : Session) : Frame := bare (ask 2 0 0 (padTo 32 (Config.hmac (slotKey (talk.slotOf x.slot)) (ascii "BILBIN-C" ++ x.nc ++ x.np ++ leBytes 4 x.number.toNat))))
/-- A proof of 32 bytes that is not the one expected. -/
def wrongProof (x : Session) : Frame := bare (ask 2 0 0 (if (proofOf x).payload = zeros 32 then List.replicate 32 1 else zeros 32))
theorem wrongProof_good (x : Session) : frameGood (wrongProof x) = true ∧ (wrongProof x).payload.length = 32 ∧ (wrongProof x).payload ≠ (proofOf x).payload := by
  have e : (wrongProof x).payload = if (proofOf x).payload = zeros 32 then List.replicate 32 1 else zeros 32 := rfl
  have t : (wrongProof x).payload.length = 32 := by rw [e]; split <;> rfl
  have l : (wrongProof x).length = BitVec.ofNat 16 (wrongProof x).payload.length := rfl
  have c : (wrongProof x).crc = crc32c (frameHead (wrongProof x) ++ (wrongProof x).payload ++ (wrongProof x).tag) := rfl
  refine ⟨?_, t, ?_⟩
  · simp only [frameGood, Bool.and_eq_true, decide_eq_true_eq]
    refine ⟨⟨?_, rfl⟩, c⟩
    rw [l, t]; rfl
  · rw [e]
    split
    · rename_i h; rw [h]; decide
    · rename_i h; exact fun k => h k.symm
theorem proofOf_good (x : Session) : frameGood (proofOf x) = true := by
  have t : (proofOf x).payload.length = 32 := padTo_len 32 _
  have l : (proofOf x).length = BitVec.ofNat 16 (proofOf x).payload.length := rfl
  have c : (proofOf x).crc = crc32c (frameHead (proofOf x) ++ (proofOf x).payload ++ (proofOf x).tag) := rfl
  simp only [frameGood, Bool.and_eq_true, decide_eq_true_eq]
  refine ⟨⟨?_, rfl⟩, c⟩
  rw [l, t]; rfl
set_option maxRecDepth 20000 in
theorem test_met_SessionsOpenProveAndEnd :
    (FrameReaches talk 0 (helloFor 3) ∧ (helloFor 3).op = 1 ∧ (helloFor 3).payload.length = 20 ∧ talk.slotUsable 3 0 = true ∧ talk.slotHeldOff 3 = false ∧ talk.bil.sessions.length < 64) ∧
    (FrameReaches talk 0 (helloFor 32) ∧ talk.slotUsable 32 0 = false ∧ talk.slotUsable 31 0 = false) ∧
    (let s : State := { talk with bil := { keys := [(3, { keyA with heldOff := true })] } }; FrameReaches s 0 (helloFor 3) ∧ s.slotUsable 3 0 = true ∧ s.slotHeldOff 3 = true) ∧
    (let x := { sess with isOpen := false }; let s := talkL x {}; FrameReaches s 0 (proofOf x) ∧ (proofOf x).op = 2 ∧ (proofOf x).payload.length = 32 ∧
      s.bil.sessions.find? (fun y => decide (y.number = (proofOf x).session) && decide (y.transport = 0) && !y.isOpen) = some x ∧ FrameReaches s 0 (wrongProof x) ∧ (wrongProof x).payload.length = 32 ∧
      (wrongProof x).payload ≠ padTo 32 (Config.hmac (slotKey (s.slotOf x.slot)) (ascii "BILBIN-C" ++ x.nc ++ x.np ++ leBytes 4 x.number.toNat))) ∧
    InSession talk 0 (signed (ask 9 0 0 [])) sess keyA ∧ (armedAt talk.integ 9 255 [1, 2, 3] = none ∧ (talk.fn 0).mbx.en = false) := by
  refine ⟨⟨reaches_of _ _ rfl rfl (by decide +kernel) rfl rfl, by decide +kernel⟩, ⟨reaches_of _ _ rfl rfl (by decide +kernel) rfl rfl, by decide +kernel⟩,
    ⟨reaches_of _ _ rfl rfl (by decide +kernel) rfl rfl, by decide +kernel⟩, ⟨reaches_of _ _ rfl rfl (proofOf_good _) rfl rfl, rfl, padTo_len 32 _, rfl, reaches_of _ _ rfl rfl (wrongProof_good _).1 rfl rfl, (wrongProof_good _).2.1, (wrongProof_good _).2.2⟩,
    inSession_of _ _ (by decide +kernel) rfl rfl rfl, by decide +kernel⟩

/-- As `talk`, the key of slot 3 without permissions. -/
def mute : State := { talk with bil := { talk.bil with keys := [(3, { keyA with perm := 0 })] } }
/-- A SUBSCRIBE to #2000.01 with interval `r` of `n`. -/
def subFor (r n : Byte) : Frame := signed (ask 7 0x9000 1 (zeros 8 ++ [r, n, 0, 1, 0]))
/-- A subscription, and the part with it. -/
def subA (p : Pos) : Sub := { subId := 4, session := 0xA11, transport := 0, client := 0x107, index := 0x9000, sub := 1, next := p, rpt := 2, stride := 1, count := 2, sample := 0, lost := false }
def subbed (p : Pos) : State := { talk with bil := { talk.bil with subs := [subA p] } }
/-- The request of a written frame. -/
def reqOf (q : Frame) : Req := { client := q.client, cseq := q.cseq, source := 0, session := q.session }
theorem admits_ask (q : Frame) (v : List Byte) (i j : Nat) (hc : q.cseq = 0x42) (h : ((entryRow i j).any fun e => typeOk e j v) = true ∧ up.bootAllows i j v = true ∧ ledAdmits {} (recordedValue i j v).length = true) :
    Admits talk (reqOf q) i j v := by
  obtain ⟨h1, h2, h3⟩ := h
  have : (reqOf q).cseq = 0x42 := hc
  exact admits_of ⟨(by decide : (0 : BitVec 8).toNat < 20), h1, rfl, rfl, h2, by rw [this]; decide, by rw [this]; exact (by decide : 0 < 0x42), rfl, h3, rfl, rfl, by intro x hx; cases hx⟩
set_option maxRecDepth 20000 in
theorem test_met_RequestsInASessionAreAnswered :
    (let q := signed (ask 3 0x9000 1 []); InSession talk 0 q sess keyA ∧ q.op = 3 ∧ keyA.allows 0 = true ∧ entryExists 0x9000 1 = true ∧ entryReadable 0x9000 1 = true ∧ talk.pow.boot ≠ .recovery ∧ q.segment = 0 ∧
      (((counted talk 8).keepSnapshots q).valueOf 0x9000 1).1.length ≤ 1024) ∧
    (InSession talk 0 (signed (ask 3 0x9000 255 [])) sess keyA ∧ entryExists 0x9000 255 = false) ∧
    (∃ e, InSession talk 0 (signed (ask 3 0x2010 3 [])) sess keyA ∧ entryRow 0x2010 3 = some e ∧ e.access = 2) ∧
    (∃ k, InSession mute 0 (signed (ask 3 0x9000 1 [])) sess k ∧ k.allows 0 = false) ∧
    (∃ e, let q := signed (ask 4 0x2010 3 (leBytes 4 500)); InSession talk 0 q sess keyA ∧ q.op = 4 ∧ talk.mayWrite keyA 0 0x2010 3 q.payload = true ∧ talk.findAssembly q = none ∧ entryRow 0x2010 3 = some e ∧
      isLast q = true ∧ q.total.toNat = q.payload.length ∧ q.payload.length ≤ 1024 ∧ Admits talk (reqOf q) 0x2010 3 q.payload ∧ e.access = 2 ∧ talk.rangeOk 0x2010 3 q.payload = true) ∧
    (∃ e, let q := signed (ask 4 0x2001 1 (leBytes 2 1080)); InSession talk 0 q sess keyA ∧ talk.mayWrite keyA 0 0x2001 1 q.payload = true ∧ entryRow 0x2001 1 = some e ∧ Admits talk (reqOf q) 0x2001 1 q.payload ∧
      e.access = 3 ∧ talk.anyFormed = true) ∧
    (∃ e, let q := signed { ask 4 0x3020 1 (List.replicate 1024 0) with flags := 0, total := 1025 }; InSession talk 0 q sess keyA ∧ talk.mayWrite keyA 0 0x3020 1 q.payload = true ∧ entryRow 0x3020 1 = some e ∧ 2 ≤ e.access ∧
      isLast q = false ∧ q.payload.length = 1024 ∧ 1024 < q.total.toNat ∧ q.total.toNat ≤ 65536) ∧
    (let q := signed (ask 5 0 0 (zeros 8)); InSession talk 0 q sess keyA ∧ q.op = 5 ∧ q.client ≠ 0 ∧ q.payload.length = 8 ∧ leNat q.payload ≤ (ledHighest talk.led).toNat) ∧
    (∀ n ∈ [1, 2047], let q := signed (ask 6 0 0 (zeros 8 ++ leBytes 2 n ++ [2])); InSession talk 0 q sess keyA ∧ q.payload.length = 11 ∧ fieldAt q.payload 8 2 = n ∧ fieldAt q.payload 10 1 ≤ 2 ∧
      (((counted talk 8).keepSnapshots q).ledgerValue keyA q.client (fieldAt q.payload 0 8) n (fieldAt q.payload 10 1)).length ≤ 1024) ∧
    (let q := subFor 2 1; InSession talk 0 q sess keyA ∧ q.op = 7 ∧ q.payload.length = 13 ∧ ((counted talk 8).valueOf 0x9000 1).1.length ≤ 1016 ∧ ((counted talk 8).valueOf 0x9000 1).2.tooFast 2 1 = false ∧
      (talk.bil.subs.filter fun y => decide (y.session = q.session)).length < 8 ∧ talk.bil.subs.length < 64) ∧
    (InSession talk 0 (signed { ask 8 0 0 [] with subId := 4 }) sess keyA ∧ (subbed 0).bil.subs.any (fun y => decide (y.subId = 4) && decide (y.session = 0xA11)) = true ∧
      talk.bil.subs.any (fun y => decide (y.subId = 4) && decide (y.session = 0xA11)) = false) ∧
    (∀ n ∈ [0, 1], (subbed (BitVec.ofNat 64 n)).bil.subs.find? (fun z => decide (z.subId = 4)) = some (subA (BitVec.ofNat 64 n)) ∧ (subbed 0).posValid = true ∧ (subA 0).rpt.toNat < 4 ∧
      posAhead (subA 1).next (subbed 1).clk.pos = true ∧ (subA 0).next = (subbed 0).clk.pos) := by
  refine ⟨⟨inSession_of _ _ rfl rfl rfl rfl, by decide +kernel⟩, ⟨inSession_of _ _ rfl rfl rfl rfl, by decide +kernel⟩, ⟨_, inSession_of _ _ rfl rfl rfl rfl, rfl, rfl⟩,
    ⟨{ keyA with perm := 0 }, ⟨⟨by decide, rfl, rfl, signed_good _ rfl, rfl, rfl⟩, rfl, rfl, rfl, rfl⟩, rfl⟩,
    ⟨_, inSession_of _ _ rfl rfl rfl rfl, rfl, by decide +kernel, rfl, rfl, rfl, rfl, by decide +kernel, admits_ask _ _ _ _ rfl (by decide +kernel), rfl, by decide +kernel⟩,
    ⟨_, inSession_of _ _ rfl rfl rfl rfl, by decide +kernel, rfl, admits_ask _ _ _ _ rfl (by decide +kernel), rfl, by decide +kernel⟩,
    ⟨_, inSession_of _ _ (by decide +kernel) rfl rfl rfl, by decide +kernel, rfl, by decide +kernel⟩, ⟨inSession_of _ _ rfl rfl rfl rfl, by decide +kernel⟩, ?_, ⟨inSession_of _ _ rfl rfl rfl rfl, by decide +kernel⟩,
    ⟨inSession_of _ _ rfl rfl rfl rfl, by decide +kernel⟩, by decide +kernel⟩
  intro n hn; simp only [List.mem_cons, List.mem_nil_iff, or_false] at hn
  rcases hn with rfl | rfl <;> exact ⟨inSession_of _ _ rfl rfl rfl rfl, by decide +kernel⟩

/-- An SMBus block of operation `op` on `i`.`j` with payload `v`. -/
def smbusOf (op : Byte) (i : Nat) (j : Byte) (v : List Byte) : List Byte :=
  let h := [op] ++ leBytes 4 0xFFFFFF00 ++ leBytes 4 1 ++ leBytes 2 i ++ [j, BitVec.ofNat 8 v.length] ++ v
  h ++ leBytes 4 (crc32c h).toNat
/-- The part in power state `x`. -/
def upP (x : PowerState) : State := { up with pow := { up.pow with state := x } }
/-- The part in STANDBY, asked to sleep by a request, with input `ok`. -/
def sleeping (ok : Bool) : State := { up with pow := { up.pow with state := .standby, byRequest := true, inputOk := ok } }
set_option maxRecDepth 20000 in
theorem test_met_SmbusBlocksAreAnsweredInEveryPowerState :
    (upP .off).pow.state = .off ∧ (up.pow.state ≠ .off ∧ up.pow.state ≠ .standby ∧ up.bil.smbusReply = none) ∧ ({ up with bil := { smbusReply := some [1] } } : State).bil.smbusReply = some [1] ∧
    State.reset.hears 19 = false ∧ up.hears 19 = true ∧
    (∃ q, parseBlock (smbusOf 3 0x9000 1 []) = some q ∧ blockGood (smbusOf 3 0x9000 1 []) = true ∧ smbusLimit q = none ∧ q.op = 3 ∧ q.index.toNat = 0x9000 ∧ q.sub.toNat = 1 ∧ entryExists 0x9000 1 = true ∧ entryReadable 0x9000 1 = true ∧ up.pow.boot ≠ .recovery ∧
      up.pow.neg = none ∧ armedAt up.integ 8 255 [1, 2, 3] = none ∧ armedAt up.integ 9 255 [1, 2, 3] = none ∧
      (({ counted up 8 with bil := { up.bil with smbusReply := none, smbusWait := some (q.client, q.cseq) } } : State).valueOf 0x9000 1).1.length ≤ 32) ∧
    (∃ q, parseBlock (smbusOf 4 0x9011 1 [1]) = some q ∧ blockGood (smbusOf 4 0x9011 1 [1]) = true ∧ smbusLimit q = none ∧ q.op = 4) ∧
    ((sleeping true).pow.state = .standby ∧ (sleeping true).pow.byRequest = true ∧ (sleeping true).pow.starting = false ∧ (sleeping true).pow.inputOk = true ∧ (sleeping true).pow.island.smbusWake = true) ∧
    (sleeping false).pow.inputOk = false ∧ ({ smbusWake := false } : Island).smbusWake = false := by
  exact ⟨by decide +kernel, by decide +kernel, by decide +kernel, by decide +kernel, by decide +kernel, ⟨_, rfl, by decide +kernel⟩, ⟨_, rfl, by decide +kernel⟩, by and_intros <;> decide +kernel⟩

/-- A setting's record of accession `a`, done or not. -/
def recOf (a : Nat) (d : Bool) : Record := { openRec 0x2010 3 (leBytes 4 500) with accession := BitVec.ofNat 64 a, done := d, slots := [a] }
/-- A checkpoint. -/
def pointA : Checkpoint := { a := 1, incarnation := 1, slots := [5], ents := [], cues := [], clients := [] }
/-- The part at work with Ledger `l`. -/
def upG (l : Ledger) : State := { up with led := l }
set_option maxRecDepth 20000 in
theorem test_met_LedgerCheckpointsWaitsAndRecovers :
    (let s := upG { recs := [recOf 1 true, recOf 2 false], nextAcc := 3, due := true }; s.hubOn = true ∧ s.pow.boot ≠ .rom ∧ s.pow.boot ≠ .ledger ∧ checkpointDue s.led = true ∧ Ordered s.led ∧
      streamEntries (s.valueItems (ledValues s.led (checkpointA s.led).toNat) ++ cueItems (ledValues s.led (checkpointA s.led).toNat) ++ clientItems (ledValues s.led (checkpointA s.led).toNat)).length ≤ ledFree s.led) ∧
    checkpointDue up.led = false ∧
    (upG { running := some pointA }).led.running = some pointA ∧ up.led.running = none ∧
    (let s := upG { deferred := [(6, [1, 2]), (7, [])] }; s.led.deferred = (6, [1, 2]) :: [(7, [])] ∧ Ordered s.led ∧ 1 + recParts 2 ≤ ledFree s.led) ∧ up.led.deferred = [] ∧
    (let s : State := { upG { recs := [recOf 1 true, recOf 2 false, recOf 3 false], nextAcc := 4 } with pow := { up.pow with boot := .ledger } }; s.hubOn = true ∧ s.pow.boot = .ledger ∧ Ordered s.led ∧ s.led.deferred = [] ∧
      1 + s.vault.jobs.length ≤ ledFree (dropTorn s.led [3]) ∧ hit [3] (recOf 3 false).slots = true ∧ OpenRec s [3] (recOf 2 false) ∧ settingEntry 0x2010 3 = true ∧ (recOf 1 true).source ≠ 20) := by
  refine ⟨⟨by decide +kernel, by decide +kernel, by decide +kernel, by decide +kernel, ?_, by decide +kernel⟩, by decide +kernel, by decide +kernel, by decide +kernel, ⟨by decide +kernel, ?_, by decide +kernel⟩, by decide +kernel,
    ⟨by decide +kernel, by decide +kernel, ?_, by decide +kernel, by decide +kernel, by decide +kernel, ?_, by decide +kernel⟩⟩
  all_goals first
    | (unfold Ordered; exact ⟨by decide +kernel, by decide +kernel, (fun c h => by cases h), by decide +kernel⟩)
    | (unfold OpenRec; decide +kernel)

/-- Object 5 with tag 9, of 4096 bytes in `u` units. -/
def objA (u : Nat) : VaultObj := { number := 5, tag := 9, length := 4096, commit := 1, units := u, data := [(3, 8)] }
/-- A job of room 0 on object 5. -/
def jobA (w inx : Bool) (len : W64) : VaultJob := { accession := 1, room := 0, write := w, object := 5, tag := 9, addr := 0, offset := 0, length := len, tally := 64, amount := 1, inExtent := inx }
/-- The part at work with that Vault. -/
def upV (o : List VaultObj) (j : List VaultJob) : State := { up with vault := { objects := o, jobs := j } }
/-- The values of VAULT_WRITE and VAULT_READ. -/
def vaultVal (room : Byte) (off : List Byte) (a len t : Nat) : List Byte :=
  [room] ++ leBytes 2 5 ++ leBytes 4 9 ++ off ++ leBytes 8 a ++ leBytes 8 len ++ leBytes 2 t ++ leBytes 2 1
set_option maxRecDepth 20000 in
theorem test_met_VaultCommandsQueueStopAndDelete :
    up.pow.state ≠ .idle ∧ (∀ p ∈ [(0, 0x800000, 0xFFFF), (0x7FF000, 4096, 64)], Admits up req 0x7101 1 (vaultVal 0 [] p.1 p.2.1 p.2.2) ∧ p.1 % 4096 = 0 ∧ p.2.1 % 4096 = 0 ∧ 4096 ≤ p.2.1 ∧ p.2.1 ≤ 0x1000000000 ∧
      up.ownsHbm 0 p.1 p.2.1 = true ∧ (p.2.2 = 0xFFFF ∨ up.advanceCheck 0 p.2.2 1 = 0) ∧ vaultUnits p.2.1 ≤ vaultFree up.vault) ∧ (up.room 0).isFormed = true ∧ up.vault.objects = [] ∧ jobsWaiting up.vault < 16 ∧
    (Admits (upV [{ objA 1 with tag := 8 }] []) req 0x7101 1 (vaultVal 0 [] 0 4096 64) ∧ findObject (upV [{ objA 1 with tag := 8 }] []).vault.objects 5 = some { objA 1 with tag := 8 } ∧ (8 : W32) ≠ 9) ∧
    (let s := upV [objA 1000000000] []; Admits s req 0x7101 1 (vaultVal 0 [] 0 4096 64) ∧ vaultFree s.vault < vaultUnits 4096 ∧ ∀ x ∈ s.vault.objects, x.number = 5 → x.tag = 9) ∧
    (∀ p ∈ [(1, 4096, 64), (0, 1, 64), (0, 0, 64), (0x800000, 4096, 64), (0, 4096, 63)], Admits up req 0x7101 1 (vaultVal 0 [] p.1 p.2.1 p.2.2) ∧
      (p.1 % 4096 ≠ 0 ∨ p.2.1 % 4096 ≠ 0 ∨ p.2.1 < 4096 ∨ up.ownsHbm 0 p.1 p.2.1 = false ∨ (p.2.2 ≠ 0xFFFF ∧ up.advanceCheck 0 p.2.2 1 ≠ 0))) ∧
    (Admits up req 0x7101 1 (vaultVal 16 [] 0 4096 64) ∧ Admits up req 0x7101 1 (vaultVal 15 [] 0 4096 64) ∧ (up.room 15).isFormed = false) ∧
    (let s := upV [objA 1] []; Admits s req 0x7101 2 (vaultVal 0 (leBytes 8 0) 0 4096 64) ∧ findObject s.vault.objects 5 = some (objA 1) ∧ (objA 1).tag = 9 ∧ 0 + 4096 ≤ (objA 1).length.toNat ∧
      Admits s req 0x7101 2 (vaultVal 0 (leBytes 8 4096) 0 4096 64) ∧ (objA 1).length.toNat < 4096 + 4096 ∧ jobsWaiting s.vault < 16) ∧
    Admits (upV [{ objA 1 with tag := 8 }] []) req 0x7101 2 (vaultVal 0 (leBytes 8 0) 0 4096 64) ∧ Admits up req 0x7101 2 (vaultVal 16 (leBytes 8 0) 0 4096 64) ∧
    (Admits (upV [objA 1] []) req 0x7101 3 ([0] ++ leBytes 2 5 ++ leBytes 4 9) ∧ Admits (upV [{ objA 1 with tag := 8 }] []) req 0x7101 3 ([0] ++ leBytes 2 5 ++ leBytes 4 9) ∧
      Admits up req 0x7101 3 ([0] ++ leBytes 2 5 ++ leBytes 4 9) ∧ findObject up.vault.objects 5 = none) ∧
    (Admits (upV [] [jobA true true 4096, jobA false false 4096]) req 0x7101 4 [0] ∧ RoomForEvents (upV [] [jobA true true 4096, jobA false false 4096]).led (3 + 2)) := by
  refine ⟨by decide +kernel, ?_, by decide +kernel, by decide +kernel, by decide +kernel, ⟨admits_up _ _ _ _ (by decide +kernel) rfl, by decide +kernel⟩, ⟨admits_up _ _ _ _ (by decide +kernel) rfl, by decide +kernel⟩, ?_,
    ⟨admits_up _ _ _ _ (by decide +kernel) rfl, admits_up _ _ _ _ (by decide +kernel) rfl, by decide +kernel⟩,
    ⟨admits_up _ _ _ _ (by decide +kernel) rfl, by decide +kernel, by decide +kernel, by decide +kernel, admits_up _ _ _ _ (by decide +kernel) rfl, by decide +kernel⟩, admits_up _ _ _ _ (by decide +kernel) rfl,
    admits_up _ _ _ _ (by decide +kernel) rfl, ⟨admits_up _ _ _ _ (by decide +kernel) rfl, admits_up _ _ _ _ (by decide +kernel) rfl, admits_up _ _ _ _ (by decide +kernel) rfl, by decide +kernel⟩,
    ⟨admits_up _ _ _ _ (by decide +kernel) rfl, ⟨⟨by decide +kernel, by decide +kernel, (fun c h => by cases h), by decide +kernel⟩, by decide +kernel⟩⟩⟩
  · intro p hp; simp only [List.mem_cons, List.mem_nil_iff, or_false] at hp
    rcases hp with rfl | rfl <;> exact ⟨admits_up _ _ _ _ (by decide +kernel) rfl, by decide +kernel⟩
  · intro p hp; simp only [List.mem_cons, List.mem_nil_iff, or_false] at hp
    rcases hp with rfl | rfl | rfl | rfl | rfl <;> exact ⟨admits_up _ _ _ _ (by decide +kernel) rfl, by decide +kernel⟩

theorem test_met_VaultJobsMoveCommitAndEnd :
    (∀ w ∈ [true, false], let j := jobA w false 4096; let s := upV [objA 1] [j]; s.vault.jobs = j :: [] ∧ s.hubOn = true ∧ s.led.closed = false ∧ j.inExtent = false ∧ j.stop = none ∧ findObject s.vault.objects j.object = some (objA 1)) ∧
    (∀ n ∈ [4096, 0x10000000, 0x10001000], let j := jobA true true (BitVec.ofNat 64 n); let s := upV [] [j]; j.inExtent = true ∧ s.badGranules (j.addr.toNat + j.bytesDone) (extentBytes j) = [] ∧
      (j.bytesDone + extentBytes j < j.length.toNat ∨ j.length.toNat ≤ 0x10000000) ∧ j.addr.toNat + j.bytesDone + extentBytes j ≤ 0x3000000000 ∧ j.data = [] ∧ j.bytesDone = 0 ∧ s.advanceCheck j.room j.tally.toNat j.amount.toNat = 0) ∧ RoomForEvents ({} : Ledger) 1 ∧
    (let j := jobA false true 4096; let s := upV [objA 1] [j]; findObject s.vault.objects j.object = some (objA 1) ∧ Tbl.wf 0 (objA 1).data = true ∧ j.bytesDone + extentBytes j = j.length.toNat) ∧
    (∀ c ∈ [2, 3], let j := { jobA true true 4096 with stop := some (BitVec.ofNat 8 c) }; let s := upV [] [j]; j.inExtent = true ∧ j.write = true ∧ s.badGranules (j.addr.toNat + j.bytesDone) (extentBytes j) = []) ∧
    (let j := jobA true true 0x10001000; let s := (upV [] [j]).setSynd 511 7; j.addr.toNat + j.bytesDone + extentBytes j ≤ 0x3000000000 ∧ Tbl.wf 0 s.synd = true ∧ s.badGranules (j.addr.toNat + j.bytesDone) (extentBytes j) ≠ [] ∧
      (∀ e ∈ s.badGranules (j.addr.toNat + j.bytesDone) (extentBytes j), readSynd e.2 ≠ .bad) ∧ j.bytesDone + extentBytes j < j.length.toNat) ∧
    (let j := jobA true true 4096; let s := (upV [] [j]).setSynd 511 0xFF; j.addr.toNat + j.bytesDone + extentBytes j ≤ 0x3000000000 ∧ ∃ e ∈ s.badGranules (j.addr.toNat + j.bytesDone) (extentBytes j), readSynd e.2 = .bad) := by
  refine ⟨by decide +kernel, by decide +kernel, ⟨⟨by decide +kernel, by decide +kernel, (fun c h => by cases h), by decide +kernel⟩, by decide +kernel⟩, by and_intros <;> decide +kernel⟩

/-- The part at work with pipe 0 as `x`. -/
def upZ (x : Pipe) : State := { up with glz := { pipe := [(0, x)] } }
/-- Pipe 0 of room 0 with a request being read. -/
def pipeA : Pipe := { owner := some 0, reading := true, placed := true, shadow := 0x1000, coefAddr := 0x2000 }
theorem reads_of {s : State} {a n : Nat} {l : List Byte} (h : s.synd = []) (e : s.bytesAt a n = l) : s.readMem a n = (some l, s) := by
  rw [State.readMem_good s a n fun g _ _ => by rw [State.syndAt, h]; rfl, e]
set_option maxRecDepth 100000 in
theorem test_met_PipesAreAssignedPlacedAndCommitted :
    (Admits up req 0x8002 1 [0, 0] ∧ (up.room 0).isFormed = true ∧ (up.pipe 0).owner = none) ∧
    (Admits up req 0x8002 1 [15, 1] ∧ (up.room 15).isFormed = false ∧ Admits (upZ pipeA) req 0x8002 1 [0, 0] ∧ ((upZ pipeA).pipe 0).owner = some (toRoom 0)) ∧
    (Admits (upZ { owner := some 1 }) req 0x8002 1 [0, 0] ∧ ((upZ { owner := some 1 }).room 0).isFormed = true ∧ ((upZ { owner := some 1 }).pipe 0).owner = some 1) ∧
    (∀ s ∈ [upZ pipeA, up], let v := [0, 0] ++ leBytes 8 0x1000 ++ leBytes 8 0x7FE400; Admits s req 0x8003 1 v ∧ s.ownsHbm 0 0x1000 576 = true ∧ s.ownsHbm 0 0x7FE400 7168 = true) ∧ (up.pipe 0).owner = none ∧
    (Admits (upZ pipeA) req 0x8004 1 [0, 1] ∧ ∀ i : Fin 2, (1 : BitVec 8).getLsbD i = true → ((upZ pipeA).pipe i).owner = some (toRoom 0)) ∧
    (Admits (upZ pipeA) req 0x8004 1 [0, 3] ∧ (3 : BitVec 8).getLsbD 1 = true ∧ ((upZ pipeA).pipe 1).owner ≠ some (toRoom 0)) ∧
    (let s := upZ { pipeA with placed := false }; (s.pipe 0).reading = true ∧ (s.pipe 0).waiting = false ∧ (s.pipe 0).placed = false) ∧
    (let s := (upZ pipeA).setSynd 512 0xFF; ((s.pipe 0).placed = true ∧ (s.readMem (s.pipe 0).shadow.toNat 576).1 = none)) ∧
    (∀ b ∈ [0, 1], let s : State := (upZ pipeA).putBytes 0x1001 [BitVec.ofNat 8 b]; let sh := BitVec.ofNat 8 0 :: BitVec.ofNat 8 b :: List.replicate 574 0; let co := List.replicate 7168 0
      s.readMem (s.pipe 0).shadow.toNat 576 = (some sh, s) ∧ s.readMem (s.pipe 0).coefAddr.toNat 7168 = (some co, s) ∧ ((s.commitCheck 0 0 sh co).1 = 0 ↔ b = 0)) := by
  refine ⟨⟨admits_up _ _ _ _ (by decide +kernel) rfl, by decide +kernel, by decide +kernel⟩, ⟨admits_up _ _ _ _ (by decide +kernel) rfl, by decide +kernel, admits_up _ _ _ _ (by decide +kernel) rfl, by decide +kernel⟩,
    ⟨admits_up _ _ _ _ (by decide +kernel) rfl, by decide +kernel⟩, ?_, by decide +kernel, ⟨admits_up _ _ _ _ (by decide +kernel) rfl, by decide +kernel⟩, ⟨admits_up _ _ _ _ (by decide +kernel) rfl, by decide +kernel⟩, by decide +kernel, by decide +kernel, ?_⟩
  rotate_left
  · intro b hb; simp only [List.mem_cons, List.mem_nil_iff, or_false] at hb
    rcases hb with rfl | rfl <;>
      exact ⟨reads_of (by decide +kernel) (by decide +kernel), reads_of (by decide +kernel) (by decide +kernel), by decide +kernel⟩
  intro s hs; simp only [List.mem_cons, List.mem_nil_iff, or_false] at hs
  rcases hs with rfl | rfl <;> exact ⟨admits_up _ _ _ _ (by decide +kernel) rfl, by decide +kernel⟩

/-- An image with layers 0 and 7 enabled; layer 7 waits for tally 64. -/
def imageA : PipeImage := { en := 0x81, layers := [(0, { fenceT := 0xFFFF }), (7, { fenceT := 64, fenceVal := 5 })] }
theorem test_met_FrameBoundariesApplyAndHoldLayers :
    (let s : State := { upZ { pendAt := some (mkPos 1 0 0), pending := some imageA } with clk := { up.clk with pos := mkPos 2 0 0 } }; (s.pipe 0).released = false ∧ (s.pipe 0).pending = some imageA ∧ s.pendingRipe 0 = true ∧
      imageEnables imageA 7 = true ∧ (imageLayer imageA 7).fenceT ≠ 0xFFFF ∧ (s.pipe 0).met.getLsbD 7 = false ∧ imageEnables imageA 6 = false ∧ (imageLayer imageA 0).fenceT = 0xFFFF) ∧
    (let s : State := { upZ { pendAt := some (mkPos 1 0 0), pending := some imageA, heldL := [(0, some {}), (7, some {})], met := 0x80 } with clk := { up.clk with pos := mkPos 1 0 1 } }; (s.pipe 0).released = false ∧ s.pendingRipe 0 = false ∧
      Tbl.get none (s.pipe 0).heldL 0 = some {} ∧ (s.pipe 0).met.getLsbD 0 = false ∧ Tbl.get none (s.pipe 0).heldL 7 = some {} ∧ (s.pipe 0).met.getLsbD 7 = true ∧ Tbl.get none (s.pipe 0).heldL 1 = none) ∧
    ((upZ { released := true }).pipe 0).released = true ∧ ((upZ {}).pipe 0).pending = none ∧ (upZ {}).pixelErrors 0 = [] ∧
    (let s := ((upZ { owner := some 0, active := { en := 1, layers := [(0, { base := 0x1000, pitch := 64, sw := 8, sh := 1 })] } }).setSynd 512 0xFF).setSynd 513 7;
      s.pixelErrors 0 = [(512, 0xFF), (513, 7)] ∧ (∀ e ∈ s.pixelErrors 0, 8 * e.1 < 0x3000000000) ∧ Tbl.wf 0 s.synd = true) := by decide +kernel

/-- The part at work with output `o` as `x` and configured to show pipe 0. -/
def upV2 (x : VOut) : State := ({ up with glz := { out := [(2, x)] } } : State).setCfg 0x8010 3 [1, 0, 0, 0]
theorem test_met_OutputsTrainLimitAndFault :
    (((upV2 {}).vout 2).noSink = false ∧ (upV2 {}).outEnabled 2 = true ∧ ((upV2 { noSink := true }).vout 2).noSink = true ∧ up.outEnabled 2 = false) ∧
    (∀ o ∈ [.refLoop, .sdi 0, .sdi 1], let s : State := { (up.setCfg 0x8010 1 [1, 0, 0, 0]).setCfg 0x8010 2 [1, 1, 0, 0] with pow := { up.pow with auxOk := true } }; (s.vid o).retrying = false ∧ s.vidDrives o = true ∧ (s.vid o).limiting = false) ∧
    (∀ o ∈ [.refLoop, .sdi 0, .sdi 1], let s := up.setVid o { retrying := true, fault := true }; (s.vid o).retrying = true ∧ (s.vid o).fault = true ∧ ((up.setVid o { limiting := true }).vid o).limiting = true) ∧
    ((up.setVid (.sdi 1) { fault := true }).vout 1).fault = true := by decide +kernel

/-- The part at work with no room formed. -/
def lone : State := { up with rooms := [], tiles := [] }
/-- A negotiation for `t` that block `b` is to answer, then `l`. -/
def neg (t : BitVec 8) (b : Nat) (l : List Nat) (a : Option W64) : Negotiation := { target := t, stopped := [], todo := b :: l, record := a, room := none }
/-- The part with that negotiation. -/
def negS (s : State) (m : Negotiation) (l : Ledger) : State := { s with pow := { s.pow with neg := some m }, led := l }
theorem test_met_NegotiationsStopBlocksOrAreRefused :
    (∀ c ∈ [0, 1], let s := lone.setCfg 0x9010 1 (leBytes 4 c); s.pow.state = .run ∧ s.booted = true ∧ s.pow.neg = none ∧ s.anyFormed = false ∧ s.vault.jobs = [] ∧ s.blockReason 2 = 0 ∧ s.cfgN 0x9010 1 = c) ∧ up.anyFormed = true ∧
    (∀ c ∈ [0, 1], let s := ({ lone with pow := { lone.pow with state := .idle } } : State).setCfg 0x9010 3 (leBytes 4 c); s.pow.state = .idle ∧ s.pow.neg = none ∧ s.cfgN 0x9010 3 = c) ∧
    (Admits lone req 0x9001 1 [0] ∧ Admits lone req 0x9001 1 [1] ∧ lone.pow.state = .run ∧ Admits lone req 0x9001 1 [2] ∧ lone.anyFormed = false ∧ Admits up req 0x9001 1 [2] ∧ up.anyFormed = true) ∧
    (∀ t ∈ [1, 2], let s := negS lone (neg (BitVec.ofNat 8 t) 3 [10] none) {}; s.pow.neg = some (neg (BitVec.ofNat 8 t) 3 [10] none) ∧ s.blockReason 3 = 0 ∧ (neg (BitVec.ofNat 8 t) 3 [10] none).record = none) ∧
    (let s := negS { lone with vault := { jobs := [jobA true true 4096] } } (neg 1 3 [10] none) {}; s.blockReason 3 ≠ 0) ∧
    (let s := negS { lone with vault := { jobs := [jobA true true 4096] } } (neg 2 3 [10] (some 1)) (busyWith (openRec 0x9001 1 [2])); s.blockReason 3 ≠ 0 ∧ TakingEffect s 1 (openRec 0x9001 1 [2])) ∧
    ((negS lone (neg 1 10 [] none) {}).blockReason 10 = 0) ∧
    (let s := negS lone (neg 2 10 [] (some 1)) (busyWith (openRec 0x9001 1 [2])); s.blockReason 10 = 0 ∧ TakingEffect s 1 (openRec 0x9001 1 [2])) ∧
    ((negS lone { neg 1 10 [] none with active := some 3 } {}).pow.neg = some { neg 1 10 [] none with active := some 3 }) ∧
    (let s : State := { lone with pow := { lone.pow with standbyDue := true } }; s.hubOn = true ∧ s.pow.standbyDue = true) ∧ lone.pow.standbyDue = false := by
  refine ⟨by decide +kernel, by decide +kernel, by decide +kernel, ⟨admits_up _ _ _ _ (by decide +kernel) rfl, admits_up _ _ _ _ (by decide +kernel) rfl, by decide +kernel, admits_up _ _ _ _ (by decide +kernel) rfl, by decide +kernel, admits_up _ _ _ _ (by decide +kernel) rfl, by decide +kernel⟩,
    by decide +kernel, by decide +kernel, ?_, by decide +kernel, ?_, by and_intros <;> decide +kernel⟩ <;> unfold TakingEffect <;> decide +kernel

/-- The part at work with quire 0 as `x` and no tile running. -/
def upQ0 (x : Quire) : State := { up with tiles := [], quires := [(0, x)] }
/-- The value of QUIRE_GATE and QUIRE_WAKE for room `r` and quires `m`. -/
def gateVal (r : Byte) (m : Nat) : List Byte := [r] ++ leBytes 10 m
theorem test_met_QuiresAreGatedAndWoken :
    (∀ c ∈ [0, 1], let s := lone.setCfg 0x9010 2 (leBytes 4 c); s.pow.state = .run ∧ s.pow.neg = none ∧ s.quireRoom 79 = none ∧ (s.quire 79).power = .on ∧ s.cfgN 0x9010 2 = c) ∧ up.quireRoom 0 ≠ none ∧
    (∀ x ∈ [.on, .gated, .gating, .waking], let s := upQ0 { power := x }; Admits s req 0x9002 1 (gateVal 0 1) ∧ Admits s req 0x9002 2 (gateVal 0 1) ∧ (s.room 0).isFormed = true ∧ (∀ i, i < 80 → (BitVec.ofNat 80 1).getLsbD i = true → i ∈ s.roomQuires 0) ∧
      (s.quire 0).power = x) ∧
    (Admits up req 0x9002 1 (gateVal 0 2) ∧ (up.room 0).isFormed = true ∧ (BitVec.ofNat 80 2).getLsbD 1 = true ∧ 1 ∉ up.roomQuires 0) ∧
    (Admits up req 0x9002 1 (gateVal 16 1) ∧ Admits up req 0x9002 1 (gateVal 15 1) ∧ (up.room 15).isFormed = false) ∧
    (let s := negS (upQ0 {}) (neg 3 0 [] none) {}; s.quireReason 0 = 0 ∧ s.pow.neg = some (neg 3 0 [] none)) ∧
    (let m : Negotiation := { target := 3, stopped := [0], todo := [], record := some 1, room := some 0 }; let s := negS (upQ0 { power := .gating }) m (busyWith (openRec 0x9002 1 (gateVal 0 1)));
      (∀ i ∈ m.stopped, i < 80 ∧ (s.quire i).power = .gating ∧ s.quireReason i = 0 ∧ ∀ c ∈ quireChans i, chanIdle (s.chan c) = true) ∧ TakingEffect s 1 (openRec 0x9002 1 (gateVal 0 1))) ∧
    (let m : Negotiation := { target := 3, stopped := [1, 0], todo := [], record := some 1, room := some 0 }; let s := negS (upQ0 { power := .gating }) m (busyWith (openRec 0x9002 1 (gateVal 0 1)));
      m.stopped.find? (fun j => decide ((s.quire j).power ≠ .gating)) = some 1 ∧ TakingEffect s 1 (openRec 0x9002 1 (gateVal 0 1))) ∧
    (let m : Negotiation := { target := 3, stopped := [0], todo := [], record := some 1, room := some 0 }; let s := negS (upQ0 { power := .gating, chan := [(0, { state := .move, desc := some { copyDesc with src := 0x40000000000000 } })] }) m (busyWith (openRec 0x9002 1 (gateVal 0 1))); (∀ j ∈ m.stopped, (s.quire j).power = .gating) ∧ m.stopped.find? (fun j => decide (s.quireReason j ≠ 0)) = some 0 ∧ TakingEffect s 1 (openRec 0x9002 1 (gateVal 0 1))) ∧
    ((((upQ0 { power := .waking }).quire 0).power = .waking ∧ ((upQ0 { power := .waking }).quire 0).held = [] ∧ ((upQ0 { power := .waking }).quire 0).launches = [] ∧ (upQ0 { power := .waking }).led.current = none) ∧
      ∀ f, ((upQ0 { power := .waking }).fn f).held = []) ∧ ((upQ0 {}).quire 0).power ≠ .waking := by
  refine ⟨by decide +kernel, by decide +kernel, ?_, ⟨admits_up _ _ _ _ (by decide +kernel) rfl, by decide +kernel⟩, ⟨admits_up _ _ _ _ (by decide +kernel) rfl, admits_up _ _ _ _ (by decide +kernel) rfl, by decide +kernel⟩, by decide +kernel,
    ⟨by decide +kernel, ?_⟩, ⟨by decide +kernel, ?_⟩, ⟨by decide +kernel, by decide +kernel, ?_⟩, ⟨by decide +kernel, fun f => rfl⟩, by decide +kernel⟩
  · intro x hx; simp only [List.mem_cons, List.mem_nil_iff, or_false] at hx
    rcases hx with rfl | rfl | rfl | rfl <;> exact ⟨admits_up _ _ _ _ (by decide +kernel) rfl, admits_up _ _ _ _ (by decide +kernel) rfl, by decide +kernel⟩
  all_goals unfold TakingEffect; decide +kernel

/-- The part at work with power block `p`. -/
def upW (p : Power) : State := { up with pow := p }
theorem test_met_SuppliesAndWakesMoveThePart :
    ((upW { up.pow with state := .off }).pow.state = .off ∧ up.pow.state ≠ .off) ∧
    (let s := upW { up.pow with starting := true, inputOk := true, auxOk := true }; s.pow.starting = true ∧ s.pow.inputOk = true ∧ s.pow.auxOk = true) ∧ up.pow.starting = false ∧
    (let s := upW { up.pow with inputOk := true }; s.pow.inputOk = true ∧ s.hubOn = true) ∧ (upW { up.pow with inputOk := false }).pow.inputOk = false ∧
    (let s := upW { up.pow with onHoldup := true }; s.hubOn = true ∧ s.pow.onHoldup = true) ∧ up.pow.onHoldup = false ∧
    (∀ b ∈ [false, true], ∀ h ∈ [false, true], let s := upW { up.pow with inputOk := false, state := .standby, auxOk := true, byRequest := b, heldWake := h };
      s.pow.inputOk = false ∧ s.pow.state = .standby ∧ s.pow.auxOk = true ∧ s.pow.starting = false ∧ s.pow.byRequest = b ∧ s.pow.heldWake = h ∧ s.pow.thermal = false) ∧
    (∀ i ∈ [false, true], let s := upW { up.pow with state := .standby, byRequest := true, inputOk := i, island := { up.pow.island with pinB := true, pinBLevel := true } };
      s.pow.island.pinB = true ∧ s.pow.island.pinBLevel = true ∧ s.pow.state = .standby ∧ s.pow.byRequest = true ∧ s.pow.starting = false ∧ s.pow.inputOk = i ∧ s.pow.island.pinA = false) ∧
    ((sleeping true).pow.island.smbusWake = true ∧ (sleeping true).pow.state = .standby ∧ (sleeping true).pow.byRequest = true ∧ (sleeping true).pow.starting = false ∧ (sleeping true).pow.inputOk = true) ∧
    ({ up with bil := { smbusReply := some [1] } } : State).bil.smbusReply = some [1] := by
  and_intros <;> decide +kernel

theorem test_met_ThrottlesAndResetsActAsStated :
    (let s := upW { up.pow with opPoint := 2 }; s.hubOn = true ∧ s.pow.opPoint ≠ 3 ∧ s.powerLimit < s.powerLimit + 1 ∧ s.powerLimit < 2 ^ 16 - 1 ∧ s.cfgN 0x9020 1 < s.pow.opPoint.val ∧ 100 * (BitVec.ofNat 16 0).toNat ≤ 95 * s.powerLimit) ∧ (upW { up.pow with opPoint := 3 }).pow.opPoint = 3 ∧
    (∀ n ∈ [0, 1, 2], let s := upW { up.pow with boot := .steward, store := { up.pow.store with fresh := true, failed := n } }; s.hubOn = true ∧ s.pow.boot = .steward ∧ s.pow.store.fresh = true ∧ s.pow.store.failed = n) ∧
    (up.booted = true ∧ up.pow.store.failed < 3) ∧ (upW { up.pow with state := .standby }).hubOn = false ∧
    (let s := upW { up.pow with state := .standby, thermal := true, auxOk := true }; s.pow.thermal = true ∧ (849 : Int) < 850 ∧ s.pow.state = .standby ∧ s.pow.byRequest = false ∧ s.pow.auxOk = true ∧ s.pow.starting = false) ∧ up.pow.thermal = false ∧
    ((∀ v ∈ [0, 1, 2, 255], Admits up req 0x9001 2 [BitVec.ofNat 8 v]) ∧ up.anyFormed = true ∧ Admits lone req 0x9001 2 [1] ∧ lone.anyFormed = false) := by
  refine ⟨by decide +kernel, by decide +kernel, by decide +kernel, by decide +kernel, by decide +kernel, by decide +kernel, by decide +kernel, ?_, by decide +kernel, admits_up _ _ _ _ (by decide +kernel) rfl, by decide +kernel⟩
  intro v hv; simp only [List.mem_cons, List.mem_nil_iff, or_false] at hv
  rcases hv with rfl | rfl | rfl | rfl <;> exact admits_up _ _ _ _ (by decide +kernel) rfl

/-- The image set at manufacture. -/
def made : Image := { factory := true }
/-- A state whose image store holds images `l`. -/
def upI (l : Tbl Image) (b : BootState) : State := { up with pow := { up.pow with boot := b, store := { up.pow.store with image := l } } }
/-- The image set at manufacture is valid while the minimum is 0. -/
theorem made_valid (s : State) (k : Nat) (h : s.minSec k = 0) : s.imageCode k made = 0 := by
  have o : ¬ imageSecurity k made < s.minSec k := by omega
  unfold State.imageCode; dsimp only
  have m : made.pristine = true := rfl
  rw [if_pos m, if_neg o]
theorem valid_of (s : State) (k : Nat) (b : Bool) (h : s.minSec k = 0) (hi : s.image k b = made) : s.imageValid k b = true := by
  unfold State.imageValid; rw [hi, made_valid s k h]; rfl
/-- An empty slot is not valid. -/
theorem empty_invalid (s : State) (k : Nat) (b : Bool) (h : s.image k b = {}) : s.imageCode k (s.image k b) = 1 := by
  have m : imageBytes k {} 0 4 ≠ ascii "AFW1" := by show [0, 0, 0, 0] ≠ _; decide
  rw [h]; simp [State.imageCode, Image.pristine, m]
theorem invalid_of (s : State) (k : Nat) (b : Bool) (h : s.image k b = {}) : s.imageValid k b = false := by
  unfold State.imageValid; rw [empty_invalid s k b h]; rfl
/-- The length of the image set at manufacture fits. -/
theorem made_length (k : Nat) : 256 + imageLength k made < 2 ^ 32 := by
  have e : imageLength k made = leNat [imageByte k made 16, imageByte k made 17, imageByte k made 18, imageByte k made 19] := rfl
  have b : imageByte k made 19 = BitVec.ofNat 8 (min (leNat ((List.range 4).map fun j => (Config.factoryImage k).getD (16 + j) 0)) (maxBody k) / 256 ^ 3) := by
    simp [imageByte, made, factoryByte]
  have m : maxBody k ≤ 16777216 := by unfold maxBody; split <;> omega
  have h3 : (imageByte k made 19).toNat ≤ 1 := by
    rw [b, BitVec.toNat_ofNat]
    refine Nat.le_trans (Nat.mod_le _ _) ?_
    omega
  have h0 := (imageByte k made 16).isLt
  have h1 := (imageByte k made 17).isLt
  have h2 := (imageByte k made 18).isLt
  rw [e]; simp only [leNat]; omega
/-- A chunk is admitted: 57 bytes are recorded of it, whatever the digest. -/
theorem admits_chunk (s : State) (v : List Byte) (h : ((entryRow 0x9031 1).any fun e => typeOk e 1 v) = true ∧ s.hears 0 = true ∧ s.pow.neg = none ∧ s.bootAllows 0x9031 1 v = true) (hl : s.led = {}) (hv : 5 ≤ v.length) : Admits s req 0x9031 1 v :=
  admits_up s v 0x9031 1 ⟨h.1, h.2.1, h.2.2.1, h.2.2.2, by
    have : (recordedValue 0x9031 1 v).length = 57 := by simp [recordedValue, chunkRecorded, padTo_len, leBytes]; omega
    rw [this, hl]; decide +kernel⟩ hl
/-- The value of FW_CHUNK. -/
def chunkVal (k off n : Nat) : List Byte := [BitVec.ofNat 8 k] ++ leBytes 4 off ++ List.replicate n 7
set_option maxRecDepth 20000 in
theorem test_met_FirmwareIsStagedCommittedAndSelected :
    (∀ p ∈ [(1, 0, 1024), (1, 0x1000000, 256), (2, 0xFF000, 1024), (1, 1, 4), (1, 0x1000000, 257)], Admits up req 0x9031 1 (chunkVal p.1 p.2.1 p.2.2)) ∧
    (let x := (upI [(1, made), (2, made)] .ready).image 1 true; x = made ∧ (upI [(1, made), (2, made)] .ready).imageCode 1 x = 0 ∧ (BitVec.ofNat 32 (256 + imageLength 1 x)).toNat = 256 + imageLength 1 x ∧ (0 : W32).toNat ≠ 256 + imageLength 1 x ∧
      ∀ n : Nat, Admits (upI [(1, made), (2, made)] .ready) req 0x9031 2 ([1] ++ leBytes 4 n)) ∧
    (up.imageCode 2 (up.image 2 true) ≠ 0 ∧ (256 : W32).toNat = 256 + imageLength 2 (up.image 2 true) ∧ Admits up req 0x9031 2 ([2] ++ leBytes 4 256)) ∧
    (Admits up req 0x9031 3 [1] ∧ up.imageValid 1 true = false ∧ Admits (upI [(1, made)] .ready) req 0x9031 3 [1] ∧ (upI [(1, made)] .ready).imageValid 1 true = true) ∧
    (Admits up req 0x9031 4 ([2] ++ leBytes 2 0) ∧ up.minSec 2 ≤ 0 ∧ 0 ≤ imageSecurity 2 (up.image 2 (up.pow.store.active 2)) ∧
      Admits (upW { up.pow with store := { up.pow.store with minSec1 := 5 } }) req 0x9031 4 ([1] ++ leBytes 2 4) ∧ 4 < (upW { up.pow with store := { up.pow.store with minSec1 := 5 } }).minSec 1) := by
  refine ⟨?_, ⟨rfl, made_valid _ 1 rfl, ?_, ?_, fun n => admits_up _ _ _ _ ⟨?_, rfl, rfl, rfl, ?_⟩ rfl⟩, ⟨?_, by decide +kernel, admits_up _ _ _ _ (by decide +kernel) rfl⟩,
    ⟨admits_up _ _ _ _ (by decide +kernel) rfl, invalid_of _ _ _ rfl, admits_up _ _ _ _ (by decide +kernel) rfl, valid_of _ _ _ rfl rfl⟩,
    ⟨admits_up _ _ _ _ (by decide +kernel) rfl, by decide +kernel, Nat.zero_le _, admits_up _ _ _ _ (by decide +kernel) rfl, by decide +kernel⟩⟩
  · intro p hp; simp only [List.mem_cons, List.mem_nil_iff, or_false] at hp
    rcases hp with rfl | rfl | rfl | rfl | rfl <;> exact admits_chunk _ _ (by decide +kernel) rfl (by decide +kernel)
  · rw [BitVec.toNat_ofNat]; exact Nat.mod_eq_of_lt (made_length 1)
  · show 0 ≠ 256 + _; omega
  · rfl
  · show ledAdmits {} 5 = true; decide +kernel
  · rw [empty_invalid up 2 true rfl]; decide

theorem test_met_ThePartBootsVerifiedAndHeldRefuses :
    (∀ b ∈ [false, true], let s := upW { up.pow with boot := .rom, inReset := b }; s.hubOn = true ∧ s.pow.boot = .rom ∧ s.pow.inReset = b) ∧ up.pow.boot ≠ .rom ∧
    (∀ l ∈ [[(0, made)], [(1, made)], []], let s := upI l .verify; s.hubOn = true ∧ s.pow.boot = .verify ∧ s.bil.smbusHeld = none ∧ s.pow.store.active1 = false) ∧
    ((upI [(0, made)] .verify).imageValid 1 false = true ∧ (upI [(1, made)] .verify).imageValid 1 false = false ∧ (upI [(1, made)] .verify).imageValid 1 true = true ∧
      (upI [] .verify).imageValid 1 false = false ∧ (upI [] .verify).imageValid 1 true = false) ∧
    (∀ l ∈ [[(0, made), (2, made)], [(2, made)], [(3, made)], []], let s := upI l .steward; s.hubOn = true ∧ s.pow.boot = .steward ∧ s.pow.store.active2 = false) ∧
    ((upI [(0, made), (2, made)] .steward).imageValid 2 false = true ∧ paired ((upI [(0, made), (2, made)] .steward).image 1 false) ((upI [(0, made), (2, made)] .steward).image 2 false) = true ∧
      (upI [(2, made)] .steward).imageValid 2 false = true ∧ paired ((upI [(2, made)] .steward).image 1 false) ((upI [(2, made)] .steward).image 2 false) = false ∧
      (upI [(3, made)] .steward).imageValid 2 false = false ∧ (upI [(3, made)] .steward).imageValid 2 true = true ∧ (upI [] .steward).imageValid 2 false = false ∧ (upI [] .steward).imageValid 2 true = false) ∧
    (let s := upW { up.pow with boot := .held }; s.pow.boot = .held ∧ ({ s with pow := { s.pow with boot := .ready } } : State) = up) ∧
    (Admits up req 0x3001 1 (formBytes formA) ∧ Admits up req 0x3001 2 [0] ∧ (Admits up req 0x3020 1 ([15] ++ leBytes 2 1 ++ [formB].flatMap fun f => leBytes 2 (formBytes f).length ++ formBytes f)) ∧
      Admits up req 0x6200 1 (winVal 3 0 3 0 0 0x800000) ∧ Admits up req 0x7101 1 (vaultVal 0 [] 0 4096 64) ∧ Admits up req 0x2041 1 (armVal 2032 5)) := by
  refine ⟨by decide +kernel, by decide +kernel, by decide +kernel, ⟨valid_of _ _ _ rfl rfl, invalid_of _ _ _ rfl, valid_of _ _ _ rfl rfl, invalid_of _ _ _ rfl, invalid_of _ _ _ rfl⟩, by decide +kernel,
    ⟨valid_of _ _ _ rfl rfl, rfl, valid_of _ _ _ rfl rfl, ?_, invalid_of _ _ _ rfl, valid_of _ _ _ rfl rfl, invalid_of _ _ _ rfl, invalid_of _ _ _ rfl⟩, ⟨rfl, rfl⟩,
    admits_up _ _ _ _ (by decide +kernel) rfl, admits_up _ _ _ _ (by decide +kernel) rfl, admits_up _ _ _ _ (by decide +kernel) rfl, admits_up _ _ _ _ (by decide +kernel) rfl, admits_up _ _ _ _ (by decide +kernel) rfl, admits_up _ _ _ _ (by decide +kernel) rfl⟩
  have r : pairingRows ((upI [(2, made)] .steward).image 1 false) = [] := by decide
  unfold paired; rw [r]; rfl

theorem test_met_StepRunsTheCommandInFront : State.reset.pending = [] := rfl
theorem test_met_MemoryStaysCanonical : CanonicalMemory up ∧ step { up with pending := [.inputLost] } = exec .inputLost up := ⟨⟨rfl, rfl⟩, rfl⟩
theorem test_met_LogsStayBounded : LogsBounded up ∧ step { up with pending := [.inputLost] } = exec .inputLost up := ⟨⟨by decide, by decide, by decide, by decide, by decide, by decide, by decide⟩, rfl⟩
/-- The seam case of chapter 03: with 45 lines, entries 20 and 21 fire at 1000:1080:0 and, moved on one frame, at 1001:1110:0. -/
theorem test_seam : let s := (up.setCfg 0x2040 1 (leBytes 2 45)); s.cueE { pos := mkPos 1001 0 0, seam := true } = mkPos 1000 1080 0 ∧ s.cueE { pos := mkPos 1002 30 0, seam := true } = mkPos 1001 1110 0 := by decide +kernel

end Sys2Proof.Tests
end

section
/-! The rules of one step: what it runs, and that it always goes on. -/

namespace Sys2Proof.Machine

/-- An empty queue idles (log 1). -/
theorem step_of_pending_nil {s : State} (h : s.pending = []) : step s = .next s := by
  unfold step
  rw [h]

theorem step_of_pending_cons {s : State} {c : Instr} {rest : List Instr} (h : s.pending = c :: rest) :
    step s = exec c { s with pending := rest } := by
  unfold step
  rw [h]

theorem exists_execRoomReset_eq_next (b : RoomBy) (room : RoomId) (s : State) : ∃ n, execRoomReset b room s = .next n := by
  cases b with
  | reg => exact ⟨_, rfl⟩
  | cmd r => exact ⟨_, rfl⟩

theorem exists_execRoomDeclareFault_eq_next (b : RoomBy) (room : RoomId) (detail : BitVec 16) (s : State) :
    ∃ n, execRoomDeclareFault b room detail s = .next n := by
  cases b with
  | reg => exact ⟨_, rfl⟩
  | cmd r => exact ⟨_, rfl⟩

/-- No command stops the machine. By its definition the row of every command is `.next` of a state, except that the two
room commands which come from a register or from a request choose between two such rows (R382, R387). -/
theorem exists_exec_eq_next (c : Instr) (s : State) : ∃ n, exec c s = .next n := by
  cases c with
  | roomReset b room => exact exists_execRoomReset_eq_next b room s
  | roomDeclareFault b room detail => exact exists_execRoomDeclareFault_eq_next b room detail s
  | _ => exact ⟨_, rfl⟩

/-- Settles O57, by the step's two equations and the rows of the commands; the host's machine is made of this step and this reset. -/
theorem stepRunsTheCommandInFront : Obligations.StepRunsTheCommandInFront := by
  unfold Obligations.StepRunsTheCommandInFront
  refine ⟨fun s c rest => ?_, fun s hs => ?_, fun s c => ?_, rfl, rfl⟩
  · exact step_of_pending_cons rfl
  · exact step_of_pending_nil hs
  · exact exists_exec_eq_next c s

end Sys2Proof.Machine
end

section
/-! The state after reset (R42, R67, R128, R174, R308, R350, R375, R403, R470, R495, R520, R544). -/

namespace Sys2Proof.Machine

/-- Settles O58. The tables of the reset state list nothing, so that each part reads its own reset value, and its memory and logs are empty (R42, R470, R520). -/
theorem resetIsThePowerOnState : Obligations.ResetIsThePowerOnState := by
  unfold Obligations.ResetIsThePowerOnState
  refine ⟨rfl, rfl, fun _ => ⟨rfl, rfl, rfl⟩, fun c => ?_, fun _ => rfl, fun c => ?_, fun _ => rfl, fun _ => rfl, fun _ => rfl, fun _ _ => rfl, fun _ => rfl, rfl, rfl, rfl, rfl, rfl,
    State.reset_canonical, ?_⟩
  · cases c <;> rfl
  · cases c <;> rfl
  · constructor <;> exact Nat.zero_le _

end Sys2Proof.Machine
end

section
/-! SUPPORT. The Position Clock: what each of its operations changes, and what the clock holds after it (R29 to R57). -/

namespace Sys2Proof.Machine

/-! ### What a clock operation may change -/

/-- From `s` to `n` nothing changes but the Position Clock and the interrupt router. -/
def ClockOnly (s n : State) : Prop := { n with clk := s.clk, irq := s.irq } = s

/-- From `s` to `n` nothing changes but what follows the Position Clock: cues and their event registers (R72), and Glaze's count of retimed frames (R498), with the router and the counter of free values. -/
def FollowersOnly (s n : State) : Prop :=
  { n with irq := s.irq, cue := s.cue, quires := s.quires, rooms := s.rooms, dev := s.dev, glz := s.glz, free := s.free } = s

/-- From `s` to `n` nothing changes but the Position Clock, what follows it, and the router. -/
def ClockAndFollowers (s n : State) : Prop := FollowersOnly s { n with clk := s.clk }

variable {s t n : State}

theorem ClockOnly.refl (s : State) : ClockOnly s s := rfl
theorem ClockOnly.trans (h : ClockOnly s t) (k : ClockOnly t n) : ClockOnly s n :=
  (congrArg (fun u : State => ({ u with clk := s.clk, irq := s.irq } : State)) k).trans h
theorem ClockOnly.modClk (s : State) (f : Clock → Clock) : ClockOnly s (s.modClk f) := rfl
theorem ClockOnly.of_irq (h : ∃ i, n = { s with irq := i }) : ClockOnly s n := by obtain ⟨i, rfl⟩ := h; rfl

theorem FollowersOnly.refl (s : State) : FollowersOnly s s := rfl
theorem FollowersOnly.trans (h : FollowersOnly s t) (k : FollowersOnly t n) : FollowersOnly s n :=
  (congrArg (fun u : State => ({ u with irq := s.irq, cue := s.cue, quires := s.quires, rooms := s.rooms, dev := s.dev, glz := s.glz, free := s.free } : State)) k).trans h
theorem FollowersOnly.of_irq (h : ∃ i, n = { s with irq := i }) : FollowersOnly s n := by obtain ⟨i, rfl⟩ := h; rfl

theorem ClockAndFollowers.refl (s : State) : ClockAndFollowers s s := rfl
theorem ClockAndFollowers.trans (h : ClockAndFollowers s t) (k : ClockAndFollowers t n) : ClockAndFollowers s n :=
  FollowersOnly.trans h (congrArg (fun u : State => ({ u with clk := s.clk } : State)) k :)
theorem ClockOnly.andFollowers (h : ClockOnly s n) : ClockAndFollowers s n :=
  (congrArg (fun u : State => ({ u with cue := s.cue, quires := s.quires, rooms := s.rooms, dev := s.dev, glz := s.glz, free := s.free } : State)) h :)
theorem FollowersOnly.andClock (h : FollowersOnly s n) : ClockAndFollowers s n :=
  (congrArg (fun u : State => ({ u with clk := s.clk } : State)) h :)

theorem ClockOnly.rooms (h : ClockOnly s n) : n.rooms = s.rooms := (congrArg State.rooms h :)
theorem FollowersOnly.clk (h : FollowersOnly s n) : n.clk = s.clk := (congrArg State.clk h :)
theorem ClockAndFollowers.ent (h : ClockAndFollowers s n) : n.ent = s.ent := (congrArg State.ent h :)
theorem ClockAndFollowers.tiles (h : ClockAndFollowers s n) : n.tiles = s.tiles := (congrArg State.tiles h :)
theorem ClockAndFollowers.tal (h : ClockAndFollowers s n) : n.tal = s.tal := (congrArg State.tal h :)
theorem ClockAndFollowers.mem (h : ClockAndFollowers s n) : n.mem = s.mem := (congrArg State.mem h :)
theorem ClockAndFollowers.led (h : ClockAndFollowers s n) : n.led = s.led := (congrArg State.led h :)
theorem ClockAndFollowers.ports (h : ClockAndFollowers s n) : n.ports = s.ports := (congrArg State.ports h :)

/-! ### Settings are read from the Catalogue alone -/

theorem State.cfgN_of_ent (h : n.ent = s.ent) (i j : Nat) : n.cfgN i j = s.cfgN i j := by unfold State.cfgN State.cfg; rw [h]
theorem State.lpf_of_ent (h : n.ent = s.ent) : n.lpf = s.lpf := State.cfgN_of_ent h _ _
theorem State.tpl_of_ent (h : n.ent = s.ent) : n.tpl = s.tpl := State.cfgN_of_ent h _ _
theorem State.primary_of_ent (h : n.ent = s.ent) : n.primary = s.primary := congrArg sourceOf (State.cfgN_of_ent h _ _)
theorem State.secondary_of_ent (h : n.ent = s.ent) : n.secondary = s.secondary := congrArg sourceOf (State.cfgN_of_ent h _ _)
theorem State.alone_of_ent (h : n.ent = s.ent) : n.alone = s.alone := by unfold State.alone State.portEnabled State.cfgAt State.cfg; rw [h]
theorem State.devNo_of_ent (h : n.ent = s.ent) : n.devNo = s.devNo := by unfold State.devNo State.numberAt State.dim State.coord State.cfgAt State.cfg; rw [h]

@[simp] theorem State.modClk_alone (s : State) (f : Clock → Clock) : (s.modClk f).alone = s.alone := rfl

/-! ### Events of the clock -/

@[simp] theorem State.raisePos_clk (s : State) (m : W32) : (s.raisePos m).clk = { s.clk with evt := s.clk.evt ||| m } := by simp [State.raisePos]
theorem State.raisePos_clockOnly (s : State) (m : W32) : ClockOnly s (s.raisePos m) := by
  obtain ⟨i, h⟩ := State.srcRose_eq s { s with clk := { s.clk with evt := s.clk.evt ||| m } } 3953
  unfold State.raisePos; rw [h]; rfl
theorem State.raisePos_ent (s : State) (m : W32) : (s.raisePos m).ent = s.ent := (s.raisePos_clockOnly m).andFollowers.ent
theorem State.raisePos_configured (s : State) (m : W32) (x : ClockSource) : (s.raisePos m).configured x = s.configured x := by
  unfold State.configured
  rw [State.primary_of_ent (s.raisePos_ent m), State.secondary_of_ent (s.raisePos_ent m)]

/-! ### Cues and pipes follow the clock, and do not change it -/

theorem State.raiseCue_followers (s : State) (c : CueRef) (m : W32) : FollowersOnly s (s.raiseCue c m) := by
  cases c with
  | quire q k => exact FollowersOnly.trans (t := s.modQuire q _) rfl (.of_irq (State.srcRose_eq _ _ _))
  | dev k =>
    unfold State.raiseCue
    dsimp only
    split
    · exact FollowersOnly.trans (t := s.modRoom _ _) rfl (.of_irq (State.srcRose_eq _ _ _))
    · exact FollowersOnly.trans (t := { s with dev := { s.dev with cueEvt := s.dev.cueEvt ||| m } }) rfl (.of_irq (State.srcRose_eq _ _ _))

theorem State.setCue_followers (s : State) (c : CueRef) (e : CueEntry) : FollowersOnly s (s.setCue c e) := by cases c <;> rfl

theorem State.countLate_followers (s : State) (c : CueRef) (k : Nat) : FollowersOnly s (s.countLate c k) :=
  FollowersOnly.trans (t := { s with dev := { s.dev with cueLate := s.dev.cueLate + BitVec.ofNat 64 k } }) rfl (State.raiseCue_followers _ c 1)

theorem State.cueBulk_followers (s : State) (c : CueRef) (e : CueEntry) : FollowersOnly s (s.cueBulk c e) :=
  (State.setCue_followers s c _).trans (State.countLate_followers _ c _)

theorem State.cueSettle_followers (c : CueRef) (fuel : Nat) : ∀ (s : State) (late : Bool) (key : Pos), FollowersOnly s (s.cueSettle c late key fuel) := by
  induction fuel with
  | zero => exact fun s _ _ => .refl s
  | succ fuel ih =>
    intro s late key
    have set := fun e => State.setCue_followers s c e
    unfold State.cueSettle
    dsimp only
    split
    · exact .refl s
    · split
      · split
        · exact (set _).trans (State.cueBulk_followers _ c _)
        · exact (set _).trans (ih _ _ _)
      · split
        · split
          · exact ((set _).trans (State.countLate_followers _ c 1)).trans (State.cueBulk_followers _ c _)
          · exact (set _).trans (State.countLate_followers _ c 1)
        · split
          · exact (set _).trans (State.countLate_followers _ c 1)
          · exact set _

theorem State.cueDue_followers (s : State) (c : CueRef) (late : Bool) (key : Pos) : FollowersOnly s (s.cueDue c late key) := State.cueSettle_followers c _ s late key

theorem State.cueRestored_followers (s : State) (c : CueRef) : FollowersOnly s (s.cueRestored c) := by
  unfold State.cueRestored
  dsimp only
  split
  · exact .refl s
  · split
    · exact State.setCue_followers s c _
    · exact (State.setCue_followers s c _).trans rfl

/-- A pass over cue entries, each step of which changes what follows the clock alone. -/
theorem forL_followers {α : Type} (l : List α) (f : α → State → State) (hf : ∀ a u, FollowersOnly u (f a u)) (s : State) : FollowersOnly s (forL l f s) :=
  foldl_keeps (FollowersOnly s) (fun u a h => h.trans (hf a u)) l s (.refl s)

theorem State.cuesReached_followers (s : State) : FollowersOnly s s.cuesReached := by
  unfold State.cuesReached
  split
  · exact forL_followers _ _ (fun c u => State.cueDue_followers u c _ _) s
  · exact .refl s

theorem State.cuesPassed_followers (s : State) : FollowersOnly s s.cuesPassed := by
  unfold State.cuesPassed
  split
  · exact forL_followers _ _ (fun c u => State.cueDue_followers u c _ _) s
  · exact .refl s

theorem State.cuesValid_followers (s : State) : FollowersOnly s s.cuesValid :=
  forL_followers _ _ (fun c u => ((State.setCue_followers u c _).trans (State.cueRestored_followers _ c)).trans (State.cueDue_followers _ c _ _)) s

theorem State.pipesLock_followers (s t : State) : FollowersOnly t (s.pipesLock t) := by
  refine forL_followers (List.range 2) _ (fun p u => ?_) t
  split
  · refine FollowersOnly.trans (t := u.spend) rfl (forL_followers (List.range 3) _ (fun o v => ?_) _)
    split <;> rfl
  · rfl

end Sys2Proof.Machine
end

section
/-! SUPPORT. The Position Clock: what it holds after each of its operations (R35 to R49). -/

namespace Sys2Proof.Machine

/-! ### Events of present conditions -/

theorem forL_self {α σ : Type} {l : List α} {f : α → σ → σ} {s : σ} (h : ∀ a ∈ l, f a s = s) : forL l f s = s := by
  unfold forL
  induction l with
  | nil => rfl
  | cons a l ih =>
    rw [List.foldl_cons, h a List.mem_cons_self]
    exact ih fun b hb => h b (List.mem_cons_of_mem a hb)

/-- Where no present condition has become asserted, a command ends without an event. -/
theorem settle_of_asserted {s t : State} (h : ∀ k ∈ condSources, t.asserted k = s.asserted k) : settle s t = t := by
  refine forL_self fun k hk => if_neg ?_
  rw [h k hk]
  cases s.asserted k <;> decide

theorem settle_self (s : State) : settle s s = s := settle_of_asserted fun _ _ => rfl

variable {s t : State} {x y : ClockSource}

theorem State.posValid_iff : s.posValid = true ↔ s.clk.state = .locked ∨ s.clk.state = .holdover := by simp [State.posValid]
theorem State.posValid_of_locked (h : s.clk.state = .locked) : s.posValid = true := State.posValid_iff.2 (.inl h)
theorem State.posValid_of_holdover (h : s.clk.state = .holdover) : s.posValid = true := State.posValid_iff.2 (.inr h)
theorem State.posValid_of_acquire (h : s.clk.state = .acquire) : s.posValid = false := by simp [State.posValid, h]
theorem State.posValid_congr (h : t.clk.state = s.clk.state) : t.posValid = s.posValid := by unfold State.posValid; rw [h]

theorem State.pipeStat_modClk {f : Clock → Clock} (h : (f s.clk).state = s.clk.state) (p : Nat) : (s.modClk f).pipeStat p = s.pipeStat p := by
  have e : (s.modClk f).pipeLocked p = s.pipeLocked p := by
    unfold State.pipeLocked
    rw [State.posValid_congr (s := s) (t := s.modClk f) h]
    rfl
  unfold State.pipeStat
  rw [e]
  rfl

/-- A change of the clock that keeps its state raises no present condition. -/
theorem settle_modClk {f : Clock → Clock} (h : (f s.clk).state = s.clk.state) : settle s (s.modClk f) = s.modClk f := by
  refine settle_of_asserted fun k hk => ?_
  have e : (s.modClk f).srcWord k = s.srcWord k := by
    simp only [condSources, List.mem_cons, List.not_mem_nil, or_false] at hk
    rcases hk with rfl | rfl | rfl | rfl | rfl | rfl | rfl
    case inr.inl => exact State.pipeStat_modClk h 0
    case inr.inr.inl => exact State.pipeStat_modClk h 1
    all_goals rfl
  unfold State.asserted
  rw [e]
  rfl

/-! ### Who is keeper, and which sources are present -/

theorem State.isKeeper_eq (s : State) : s.isKeeper = (s.alone || s.clk.keeper) := rfl

theorem State.configured_of_primary (h : s.primary = some x) : s.configured x = true := by simp [State.configured, h]
theorem State.not_configured (h : s.configured x = false) : s.primary ≠ some x ∧ s.secondary ≠ some x := by simpa [State.configured] using h
@[simp] theorem State.here_some (s : State) (x : ClockSource) : s.here (some x) = s.sourcePresent x := rfl

/-- What is present once `x` has been marked present or not. The synthetic source has no mark. -/
theorem State.sourcePresent_putPresent (s : State) (x y : ClockSource) (b : Bool) :
    (s.modClk fun c => putPresent c x b).sourcePresent y = if y = x ∧ x ≠ .synthetic then b else s.sourcePresent y := by
  cases x <;> cases y <;> rfl

/-! ### Locking and holding over -/

/-- LOCKED keeps a position that was valid, and takes `p` where none was (R42). -/
@[simp] theorem State.lock_clk (s : State) (p : Pos) :
    (s.lock p).clk = { s.clk with state := .locked, pos := if s.posValid then s.clk.pos else p, agedBit := false, evt := s.clk.evt ||| 1 } := by
  unfold State.lock
  dsimp only
  rw [(State.pipesLock_followers s _).clk]
  split
  · exact State.raisePos_clk ..
  · rw [(State.cuesValid_followers _).clk]; exact State.raisePos_clk ..

theorem State.lock_andFollowers (s : State) (p : Pos) : ClockAndFollowers s (s.lock p) := by
  have h : ∀ f : Clock → Clock, ClockAndFollowers s ((s.modClk f).raisePos 1) := fun f => ((ClockOnly.modClk s f).trans (State.raisePos_clockOnly _ 1)).andFollowers
  unfold State.lock
  dsimp only
  refine ClockAndFollowers.trans ?_ (State.pipesLock_followers s _).andClock
  split
  · exact h _
  · exact (h _).trans (State.cuesValid_followers _).andClock

theorem State.holdover_of_locked (h : s.clk.state = .locked) : s.holdover = (s.modClk fun c => { c with state := .holdover, src := none }).raisePos 2 := if_pos h

theorem State.holdover_clockOnly (s : State) : ClockOnly s s.holdover := by
  unfold State.holdover
  split
  · exact (ClockOnly.modClk s _).trans (State.raisePos_clockOnly _ 2)
  · exact ClockOnly.modClk s _

/-! ### The clock turns to a source -/

/-- From clock `c` to `d` the source followed and what it gives change alone; event bits are only set. -/
def SourceMoves (c d : Clock) : Prop :=
  { d with state := c.state, pos := c.pos, src := c.src, offsetNs := c.offsetNs, agedBit := c.agedBit, evt := c.evt } = c ∧ ∃ m, d.evt = c.evt ||| m

theorem SourceMoves.keeper {c d : Clock} (h : SourceMoves c d) : d.keeper = c.keeper := (congrArg Clock.keeper h.1 :)
theorem SourceMoves.tooFar {c d : Clock} (h : SourceMoves c d) : d.tooFar = c.tooFar := (congrArg Clock.tooFar h.1 :)
theorem SourceMoves.hops {c d : Clock} (h : SourceMoves c d) : d.hops = c.hops := (congrArg Clock.hops h.1 :)
theorem SourceMoves.presentAnalog {c d : Clock} (h : SourceMoves c d) : d.presentAnalog = c.presentAnalog := (congrArg Clock.presentAnalog h.1 :)
theorem SourceMoves.presentPtp {c d : Clock} (h : SourceMoves c d) : d.presentPtp = c.presentPtp := (congrArg Clock.presentPtp h.1 :)
theorem SourceMoves.presentFabric {c d : Clock} (h : SourceMoves c d) : d.presentFabric = c.presentFabric := (congrArg Clock.presentFabric h.1 :)
theorem SourceMoves.format {c d : Clock} (h : SourceMoves c d) : d.format = c.format := (congrArg Clock.format h.1 :)
theorem SourceMoves.keeperNo {c d : Clock} (h : SourceMoves c d) : d.keeperNo = c.keeperNo := (congrArg Clock.keeperNo h.1 :)
theorem SourceMoves.keeperEpoch {c d : Clock} (h : SourceMoves c d) : d.keeperEpoch = c.keeperEpoch := (congrArg Clock.keeperEpoch h.1 :)
theorem SourceMoves.parentPort {c d : Clock} (h : SourceMoves c d) : d.parentPort = c.parentPort := (congrArg Clock.parentPort h.1 :)
theorem SourceMoves.heard {c d : Clock} (h : SourceMoves c d) : d.heard = c.heard := (congrArg Clock.heard h.1 :)
theorem SourceMoves.heartbeat {c d : Clock} (h : SourceMoves c d) : d.heartbeat = c.heartbeat := (congrArg Clock.heartbeat h.1 :)
theorem SourceMoves.keeperState {c d : Clock} (h : SourceMoves c d) : d.keeperState = c.keeperState := (congrArg Clock.keeperState h.1 :)
theorem SourceMoves.election {c d : Clock} (h : SourceMoves c d) : d.election = c.election := (congrArg Clock.election h.1 :)
theorem SourceMoves.refl (c : Clock) : SourceMoves c c := ⟨rfl, 0, by simp⟩
theorem SourceMoves.trans {c d e : Clock} (h : SourceMoves c d) (k : SourceMoves d e) : SourceMoves c e := by
  obtain ⟨h, m, hm⟩ := h
  obtain ⟨k, l, hl⟩ := k
  refine ⟨(congrArg (fun z : Clock => ({ z with state := c.state, pos := c.pos, src := c.src, offsetNs := c.offsetNs, agedBit := c.agedBit, evt := c.evt } : Clock)) k).trans h, m ||| l, ?_⟩
  rw [hl, hm, BitVec.or_assoc]
/-- Bits that are set are set. -/
theorem or_and_mask (v m : W32) : (v ||| m) &&& m = m := by
  apply BitVec.eq_of_getLsbD_eq
  intro i _
  rw [BitVec.getLsbD_and, BitVec.getLsbD_or]
  cases m.getLsbD i <;> simp
/-- Event bits that are set stay set. -/
theorem SourceMoves.evt_kept {c d : Clock} {m : W32} (h : SourceMoves c d) (hm : c.evt &&& m = m) : d.evt &&& m = m := by
  obtain ⟨-, k, hk⟩ := h
  rw [hk]
  apply BitVec.eq_of_getLsbD_eq
  intro i hi
  have := congrArg (fun v : W32 => v.getLsbD i) hm
  simp only [BitVec.getLsbD_and, BitVec.getLsbD_or] at this ⊢
  cases h1 : m.getLsbD i <;> simp_all

theorem State.lock_moves (s : State) (p : Pos) : SourceMoves s.clk (s.lock p).clk := by rw [State.lock_clk]; exact ⟨rfl, 1, rfl⟩

theorem State.holdover_moves (s : State) : SourceMoves s.clk s.holdover.clk := by
  unfold State.holdover
  split
  · rw [State.raisePos_clk]; exact ⟨rfl, 2, rfl⟩
  · exact ⟨rfl, 0, by simp⟩

theorem State.acquire_of_valid (h : s.posValid = true) : s.acquire = s := if_pos h
theorem State.acquire_of_none (h : s.posValid = false) (ha : s.toAcquire = none) : s.acquire = s.modClk fun c => { c with src := none } := by
  unfold State.acquire; rw [h, ha]; rfl
theorem State.acquire_of_synthetic (h : s.posValid = false) (ha : s.toAcquire = some .synthetic) :
    s.acquire = (s.modClk fun c => { c with src := some .synthetic }).lock s.presetPos := by unfold State.acquire; rw [h, ha]; rfl
theorem State.acquire_of_source (h : s.posValid = false) (ha : s.toAcquire = some x) (hx : x ≠ .synthetic) :
    s.acquire = s.modClk fun c => { c with state := .acquire, src := some x } := by
  unfold State.acquire; rw [h, ha]
  cases x with
  | synthetic => exact absurd rfl hx
  | _ => rfl

theorem State.acquire_cases (s : State) : s.acquire = s ∨ (∃ x, s.acquire = s.modClk fun c => { c with src := x }) ∨
    (∃ x, s.acquire = s.modClk fun c => { c with state := .acquire, src := x }) ∨ s.acquire = (s.modClk fun c => { c with src := some .synthetic }).lock s.presetPos := by
  by_cases hv : s.posValid = true
  · exact .inl (State.acquire_of_valid hv)
  rw [Bool.not_eq_true] at hv
  cases ha : s.toAcquire with
  | none => exact .inr (.inl ⟨_, State.acquire_of_none hv ha⟩)
  | some x =>
    by_cases hx : x = .synthetic
    · subst hx; exact .inr (.inr (.inr (State.acquire_of_synthetic hv ha)))
    · exact .inr (.inr (.inl ⟨_, State.acquire_of_source hv ha hx⟩))

theorem State.acquire_andFollowers (s : State) : ClockAndFollowers s s.acquire := by
  obtain h | ⟨x, h⟩ | ⟨x, h⟩ | h := s.acquire_cases <;> rw [h]
  · exact .refl s
  · rfl
  · rfl
  · exact (ClockOnly.modClk s _).andFollowers.trans (State.lock_andFollowers _ _)

theorem State.acquire_moves (s : State) : SourceMoves s.clk s.acquire.clk := by
  obtain h | ⟨x, h⟩ | ⟨x, h⟩ | h := s.acquire_cases <;> rw [h]
  · exact .refl _
  · exact ⟨rfl, 0, by simp⟩
  · exact ⟨rfl, 0, by simp⟩
  · exact SourceMoves.trans (d := (s.modClk fun c => { c with src := some .synthetic }).clk) ⟨rfl, 0, by simp⟩ (State.lock_moves _ _)

/-- The keeper acquires its primary where that is present (R605). -/
theorem State.toAcquire_primary (hf : s.clk.tooFar = false) (hk : s.isKeeper = true) (hp : s.primary = some x) (hx : s.sourcePresent x = true) : s.toAcquire = some x := by
  simp [State.toAcquire, hf, hk, hp, hx]

/-- Where neither source configured is the synthetic one, none is acquired. -/
theorem State.toAcquire_ne_synthetic (h1 : s.primary ≠ some .synthetic) (h2 : s.secondary ≠ some .synthetic) : s.toAcquire ≠ some .synthetic := by
  unfold State.toAcquire
  split
  · simp
  · split
    · split
      · exact h1
      · split
        · exact h2
        · simp
    · split <;> simp

theorem State.moveTo_of_ne (s : State) (off : Int) (hx : x ≠ .synthetic) : s.moveTo x off = s.modClk fun c => { c with src := some x, offsetNs := off } := by
  simp [State.moveTo, hx]
theorem State.moveTo_synthetic_of_locked (off : Int) (h : s.clk.state = .locked) : s.moveTo .synthetic off = s.modClk fun c => { c with src := some .synthetic, offsetNs := 0 } := by
  simp [State.moveTo, h]
theorem State.moveTo_synthetic (off : Int) (h : s.clk.state ≠ .locked) :
    s.moveTo .synthetic off = (s.modClk fun c => { c with src := some .synthetic, offsetNs := 0 }).lock s.clk.pos := by
  simp [State.moveTo, h]

/-- Moving to a source slews to it, or locks to the synthetic one at once (R41, R49). -/
theorem State.moveTo_cases (s : State) (x : ClockSource) (off : Int) :
    (∃ o, s.moveTo x off = (s.modClk fun c => { c with src := some x, offsetNs := o }) ∧ (x = .synthetic → s.clk.state = .locked)) ∨
    x = .synthetic ∧ s.moveTo x off = (s.modClk fun c => { c with src := some x, offsetNs := 0 }).lock s.clk.pos := by
  by_cases hx : x = .synthetic
  · subst hx
    by_cases h : s.clk.state = .locked
    · exact .inl ⟨0, State.moveTo_synthetic_of_locked off h, fun _ => h⟩
    · exact .inr ⟨rfl, State.moveTo_synthetic off h⟩
  · exact .inl ⟨off, State.moveTo_of_ne s off hx, fun h => absurd h hx⟩

theorem State.moveTo_andFollowers (s : State) (x : ClockSource) (off : Int) : ClockAndFollowers s (s.moveTo x off) := by
  obtain ⟨o, h, -⟩ | ⟨-, h⟩ := s.moveTo_cases x off <;> rw [h]
  · rfl
  · exact (ClockOnly.modClk s _).andFollowers.trans (State.lock_andFollowers _ _)

theorem State.moveTo_moves (s : State) (x : ClockSource) (off : Int) : SourceMoves s.clk (s.moveTo x off).clk := by
  obtain ⟨o, h, -⟩ | ⟨-, h⟩ := s.moveTo_cases x off <;> rw [h]
  · exact ⟨rfl, 0, by simp⟩
  · rw [State.lock_clk]; exact ⟨rfl, 1, rfl⟩

@[simp] theorem State.moveTo_src (s : State) (x : ClockSource) (off : Int) : (s.moveTo x off).clk.src = some x := by
  obtain ⟨o, h, -⟩ | ⟨-, h⟩ := s.moveTo_cases x off <;> rw [h]
  · rfl
  · rw [State.lock_clk]; rfl
@[simp] theorem State.moveTo_pos (s : State) (x : ClockSource) (off : Int) : (s.moveTo x off).clk.pos = s.clk.pos := by
  obtain ⟨o, h, -⟩ | ⟨-, h⟩ := s.moveTo_cases x off <;> rw [h]
  · rfl
  · rw [State.lock_clk]; exact ite_self _
@[simp] theorem State.moveTo_state (s : State) (x : ClockSource) (off : Int) : (s.moveTo x off).clk.state = if x = .synthetic then .locked else s.clk.state := by
  obtain ⟨o, h, hl⟩ | ⟨hx, h⟩ := s.moveTo_cases x off <;> rw [h]
  · split
    · rename_i hx; exact hl hx
    · rfl
  · rw [State.lock_clk, if_pos hx]

/-! ### Sources come and go -/

/-- Becoming its own keeper changes what the device knows of its keeper alone (R35, R51). -/
theorem State.ownKeeper_eq (s : State) : ∃ k e h p, s.ownKeeper = s.modClk fun c => { c with keeperNo := k, keeperEpoch := e, hops := h, parentPort := p } := by
  unfold State.ownKeeper
  split
  · exact ⟨_, _, _, _, rfl⟩
  · exact ⟨_, _, _, _, rfl⟩
theorem State.ownKeeper_of_not_alone (h : s.alone = false) : s.ownKeeper = s := if_neg (by simp [h])


/-- A source that is not configured, and is not the fabric, is measured against none (R48). -/
theorem State.endMeasure_of_not_configured (h : s.configured x = false) (hx : x ≠ .fabric) : s.endMeasure x = s := by
  obtain ⟨h1, h2⟩ := State.not_configured h
  have h3 : s.reported ≠ some x := by
    unfold State.reported
    split
    · exact h1
    · split
      · exact h2
      · simp
  unfold State.endMeasure
  simp [h, h1, h2, h3, hx, State.modClk]

/-- The clock follows no source any more: LOCKED becomes HOLDOVER (R42, R49). -/
def State.dropSource (s : State) : State := if s.clk.state = .locked then s.holdover else s.modClk fun c => { c with src := none }

theorem State.dropSource_clockOnly (s : State) : ClockOnly s s.dropSource := by
  unfold State.dropSource
  split
  · exact s.holdover_clockOnly
  · rfl
theorem State.dropSource_moves (s : State) : SourceMoves s.clk s.dropSource.clk := by
  unfold State.dropSource
  split
  · exact s.holdover_moves
  · exact ⟨rfl, 0, by simp⟩
theorem State.dropSource_of_locked (h : s.clk.state = .locked) : s.dropSource.clk = { s.clk with state := .holdover, src := none, evt := s.clk.evt ||| 2 } := by
  rw [State.dropSource, if_pos h, State.holdover_of_locked h, State.raisePos_clk]; rfl
theorem State.dropSource_of_holdover (h : s.clk.state = .holdover) : s.dropSource.clk = { s.clk with src := none } := by
  rw [State.dropSource, if_neg (by simp [h])]; rfl
/-- Where the position is valid, a clock that drops its source is in HOLDOVER with its position kept. -/
theorem State.dropSource_of_valid (h : s.posValid = true) : s.dropSource.clk.state = .holdover ∧ s.dropSource.clk.src = none ∧ s.dropSource.clk.pos = s.clk.pos := by
  obtain h | h := State.posValid_iff.1 h
  · rw [State.dropSource_of_locked h]; exact ⟨rfl, rfl, rfl⟩
  · rw [State.dropSource_of_holdover h]; exact ⟨h, rfl, rfl⟩


/-- Following another source changes neither who is keeper nor which sources are present. -/
theorem SourceMoves.isKeeper (h : SourceMoves s.clk t.clk) (e : t.ent = s.ent) : t.isKeeper = s.isKeeper := by
  rw [State.isKeeper_eq, State.isKeeper_eq, State.alone_of_ent e, h.keeper]
theorem SourceMoves.sourcePresent (h : SourceMoves s.clk t.clk) (e : t.ent = s.ent) (x : ClockSource) : t.sourcePresent x = s.sourcePresent x := by
  cases x with
  | analog => exact h.presentAnalog
  | ptp => exact h.presentPtp
  | fabric => exact h.presentFabric
  | synthetic => unfold State.sourcePresent State.configured; dsimp only; rw [State.primary_of_ent e, State.secondary_of_ent e]

theorem State.leaveSource_of_ne (h : s.clk.src ≠ some x) : s.leaveSource x = s := if_neg h
theorem State.leaveSource_acquires (hs : s.clk.src = some x) (hv : s.posValid = false) : s.leaveSource x = s.acquire := by
  unfold State.leaveSource
  rw [if_pos hs]
  cases h : s.clk.state with
  | locked => rw [State.posValid_of_locked h] at hv; cases hv
  | holdover => rw [State.posValid_of_holdover h] at hv; cases hv
  | _ => rfl

/-- The keeper's clock turns to its primary, where that is present and is not `x` (R49). -/
def State.turnToPrimary (s : State) (x : ClockSource) : State :=
  match s.primary with
  | some y => if s.isKeeper && y ≠ x && s.sourcePresent y then s.moveTo y s.clk.offsetNs else s
  | none => s

theorem State.turnToPrimary_cases (s : State) (x : ClockSource) : s.turnToPrimary x = s ∨ ∃ y o, s.turnToPrimary x = s.moveTo y o := by
  unfold State.turnToPrimary
  split
  · split
    · exact .inr ⟨_, _, rfl⟩
    · exact .inl rfl
  · exact .inl rfl
theorem State.turnToPrimary_moves (hk : s.isKeeper = true) (hp : s.primary = some y) (hy : y ≠ x) (hyp : s.sourcePresent y = true) : s.turnToPrimary x = s.moveTo y s.clk.offsetNs := by
  unfold State.turnToPrimary
  rw [hp]
  exact if_pos (by simp [hk, hy, hyp])

theorem State.leaveSource_of_valid (hs : s.clk.src = some x) (hv : s.posValid = true) : s.leaveSource x = s.dropSource.turnToPrimary x := by
  unfold State.leaveSource
  rw [if_pos hs]
  cases h : s.clk.state with
  | free => simp [State.posValid, h] at hv
  | acquire => simp [State.posValid, h] at hv
  | _ => unfold State.dropSource; rw [h]; rfl

/-- This device is keeper of no primary, other than `x`, that is present. -/
def State.NoPrimaryBut (s : State) (x : ClockSource) : Prop := s.isKeeper = false ∨ s.primary = some x ∨ s.here s.primary = false

theorem State.turnToPrimary_stays (hp : s.NoPrimaryBut x) : s.turnToPrimary x = s := by
  unfold State.NoPrimaryBut at hp
  unfold State.turnToPrimary
  split
  · rename_i y hy
    rw [hy] at hp
    refine if_neg ?_
    obtain h | h | h := hp
    · simp [h]
    · simp [Option.some.inj h]
    · simp [show s.sourcePresent y = false from h]
  · rfl

/-- Dropping its source changes neither who is keeper nor which primary is present. -/
theorem State.dropSource_noPrimaryBut (hp : s.NoPrimaryBut x) : s.dropSource.NoPrimaryBut x := by
  have e := s.dropSource_clockOnly.andFollowers.ent
  unfold State.NoPrimaryBut at hp ⊢
  rw [State.primary_of_ent e, s.dropSource_moves.isKeeper e]
  refine hp.imp_right (Or.imp_right fun h => ?_)
  cases hy : s.primary with
  | none => rfl
  | some y => rw [hy] at h; exact (s.dropSource_moves.sourcePresent e y).trans h

theorem State.leaveSource_stays (hs : s.clk.src = some x) (hv : s.posValid = true) (hp : s.NoPrimaryBut x) : s.leaveSource x = s.dropSource := by
  rw [State.leaveSource_of_valid hs hv, State.turnToPrimary_stays (State.dropSource_noPrimaryBut hp)]

theorem State.leaveSource_moves_to_primary (hs : s.clk.src = some x) (hv : s.posValid = true) (hk : s.isKeeper = true) (hp : s.primary = some y) (hy : y ≠ x)
    (hyp : s.sourcePresent y = true) : s.leaveSource x = s.dropSource.moveTo y s.dropSource.clk.offsetNs := by
  have e := s.dropSource_clockOnly.andFollowers.ent
  rw [State.leaveSource_of_valid hs hv, State.turnToPrimary_moves (by rw [s.dropSource_moves.isKeeper e, hk]) (by rw [State.primary_of_ent e, hp]) hy (by rw [s.dropSource_moves.sourcePresent e, hyp])]

/-- What a clock that leaves a source does: nothing, hold over, move to its primary, or acquire again where its position was not valid. -/
theorem State.leaveSource_cases (s : State) (x : ClockSource) :
    s.leaveSource x = s ∨ s.leaveSource x = s.dropSource ∧ s.posValid = true ∨ (∃ y o, s.leaveSource x = s.dropSource.moveTo y o) ∧ s.posValid = true ∨ s.leaveSource x = s.acquire ∧ s.posValid = false := by
  by_cases hs : s.clk.src = some x
  · cases hv : s.posValid with
    | false => exact .inr (.inr (.inr ⟨State.leaveSource_acquires hs hv, rfl⟩))
    | true =>
      rw [State.leaveSource_of_valid hs hv]
      obtain h | ⟨y, o, h⟩ := s.dropSource.turnToPrimary_cases x
      · exact .inr (.inl ⟨h, rfl⟩)
      · exact .inr (.inr (.inl ⟨⟨y, o, h⟩, rfl⟩))
  · exact .inl (State.leaveSource_of_ne hs)

theorem State.leaveSource_andFollowers (s : State) (x : ClockSource) : ClockAndFollowers s (s.leaveSource x) := by
  obtain h | ⟨h, -⟩ | ⟨⟨y, o, h⟩, -⟩ | ⟨h, -⟩ := s.leaveSource_cases x <;> rw [h]
  · exact .refl s
  · exact s.dropSource_clockOnly.andFollowers
  · exact s.dropSource_clockOnly.andFollowers.trans (State.moveTo_andFollowers _ _ _)
  · exact s.acquire_andFollowers

theorem State.leaveSource_moves (s : State) (x : ClockSource) : SourceMoves s.clk (s.leaveSource x).clk := by
  obtain h | ⟨h, -⟩ | ⟨⟨y, o, h⟩, -⟩ | ⟨h, -⟩ := s.leaveSource_cases x <;> rw [h]
  · exact .refl _
  · exact s.dropSource_moves
  · exact s.dropSource_moves.trans (State.moveTo_moves _ _ _)
  · exact s.acquire_moves

/-- A valid position is kept where a source is left. -/
theorem State.leaveSource_pos (x : ClockSource) (hv : s.posValid = true) : (s.leaveSource x).clk.pos = s.clk.pos := by
  obtain h | ⟨h, -⟩ | ⟨⟨y, o, h⟩, -⟩ | ⟨-, h⟩ := s.leaveSource_cases x
  · rw [h]
  · rw [h]; exact (State.dropSource_of_valid hv).2.2
  · rw [h, State.moveTo_pos]; exact (State.dropSource_of_valid hv).2.2
  · rw [h] at hv; cases hv

/-- The state in which source `x` is marked absent and measured no more, before the clock leaves it (R48). -/
def State.markLost (s : State) (x : ClockSource) : State := (s.endMeasure x).modClk fun c => putPresent c x false

theorem State.nowLost_eq (s : State) (x : ClockSource) : s.nowLost x = (s.markLost x).leaveSource x := rfl


theorem State.markLost_clockOnly (s : State) (x : ClockSource) : ClockOnly s (s.markLost x) := rfl
@[simp] theorem State.markLost_state (s : State) (x : ClockSource) : (s.markLost x).clk.state = s.clk.state := by cases x <;> rfl
@[simp] theorem State.markLost_src (s : State) (x : ClockSource) : (s.markLost x).clk.src = s.clk.src := by cases x <;> rfl
@[simp] theorem State.markLost_pos (s : State) (x : ClockSource) : (s.markLost x).clk.pos = s.clk.pos := by cases x <;> rfl
@[simp] theorem State.markLost_evt (s : State) (x : ClockSource) : (s.markLost x).clk.evt = s.clk.evt := by cases x <;> rfl
@[simp] theorem State.markLost_primary (s : State) (x : ClockSource) : (s.markLost x).primary = s.primary := rfl
@[simp] theorem State.markLost_posValid (s : State) (x : ClockSource) : (s.markLost x).posValid = s.posValid := State.posValid_congr (s.markLost_state x)
@[simp] theorem State.markLost_isKeeper (s : State) (x : ClockSource) : (s.markLost x).isKeeper = s.isKeeper := by cases x <;> rfl
theorem State.markLost_sourcePresent (s : State) (x y : ClockSource) : (s.markLost x).sourcePresent y = if y = x ∧ x ≠ .synthetic then false else s.sourcePresent y :=
  State.sourcePresent_putPresent (s.endMeasure x) x y false

theorem State.markLost_noPrimaryBut (h : s.NoPrimaryBut x) : (s.markLost x).NoPrimaryBut x := by
  unfold State.NoPrimaryBut at h ⊢
  rw [State.markLost_isKeeper, State.markLost_primary]
  obtain h | h | h := h
  · exact .inl h
  · exact .inr (.inl h)
  · refine .inr (.inr ?_)
    cases hp : s.primary with
    | none => rfl
    | some y =>
      rw [hp] at h
      rw [State.here_some, State.markLost_sourcePresent, show s.sourcePresent y = false from h, ite_self]

/-- A source that the clock does not follow goes without an effect on what it follows. -/
theorem State.nowLost_of_ne (h : s.clk.src ≠ some x) : s.nowLost x = s.markLost x := State.leaveSource_of_ne (s := s.markLost x) (by rwa [State.markLost_src])
theorem State.nowLost_stays (hs : s.clk.src = some x) (hv : s.posValid = true) (hp : s.NoPrimaryBut x) : s.nowLost x = (s.markLost x).dropSource :=
  State.leaveSource_stays (s := s.markLost x) (by rwa [State.markLost_src]) (by rwa [State.markLost_posValid]) (State.markLost_noPrimaryBut hp)
theorem State.nowLost_acquires (hs : s.clk.src = some x) (hv : s.posValid = false) : s.nowLost x = (s.markLost x).acquire :=
  State.leaveSource_acquires (s := s.markLost x) (by rwa [State.markLost_src]) (by rwa [State.markLost_posValid])
theorem State.nowLost_moves_to_primary (hs : s.clk.src = some x) (hv : s.posValid = true) (hk : s.isKeeper = true) (hp : s.primary = some y) (hy : y ≠ x) (hyp : s.sourcePresent y = true) :
    s.nowLost x = (s.markLost x).dropSource.moveTo y (s.markLost x).dropSource.clk.offsetNs :=
  State.leaveSource_moves_to_primary (s := s.markLost x) (by rwa [State.markLost_src]) (by rwa [State.markLost_posValid]) (by rwa [State.markLost_isKeeper]) hp hy
    (by rw [State.markLost_sourcePresent, if_neg (fun h => hy h.1), hyp])

/-- A clock that was LOCKED to the source and has no primary to move to is in HOLDOVER at the position it had. -/
theorem State.nowLost_locked_stays (hs : s.clk.src = some x) (hl : s.clk.state = .locked) (hp : s.NoPrimaryBut x) :
    (s.nowLost x).clk = { (s.markLost x).clk with state := .holdover, src := none, evt := s.clk.evt ||| 2 } ∧ ClockOnly s (s.nowLost x) := by
  rw [State.nowLost_stays hs (State.posValid_of_locked hl) hp]
  refine ⟨?_, (s.markLost_clockOnly x).trans (State.dropSource_clockOnly _)⟩
  rw [State.dropSource_of_locked (by rwa [State.markLost_state]), State.markLost_evt]

theorem State.nowLost_andFollowers (s : State) (x : ClockSource) : ClockAndFollowers s (s.nowLost x) :=
  (s.markLost_clockOnly x).andFollowers.trans (State.leaveSource_andFollowers _ x)
theorem State.nowLost_moves (s : State) (x : ClockSource) : SourceMoves (s.markLost x).clk (s.nowLost x).clk := State.leaveSource_moves _ x
theorem State.nowLost_pos (x : ClockSource) (hv : s.posValid = true) : (s.nowLost x).clk.pos = s.clk.pos :=
  (State.leaveSource_pos (s := s.markLost x) x (by rwa [State.markLost_posValid])).trans (s.markLost_pos x)

/-- The keeper's primary, which has become present while the position is not valid (R41, R605). -/
theorem State.nowPresent_of_primary (hv : s.posValid = false) (hk : s.isKeeper = true) (hf : s.clk.tooFar = false) (hp : s.primary = some x) :
    ∃ k e h p, s.nowPresent x =
      if x = .synthetic then (s.modClk fun c => { putPresent c x true with keeperNo := k, keeperEpoch := e, hops := h, parentPort := p, src := some .synthetic }).lock s.presetPos
      else s.modClk fun c => { putPresent c x true with keeperNo := k, keeperEpoch := e, hops := h, parentPort := p, state := .acquire, src := some x } := by
  obtain ⟨k, e, h, p, ho⟩ := (s.modClk fun c => putPresent c x true).ownKeeper_eq
  refine ⟨k, e, h, p, ?_⟩
  generalize ht : (s.modClk fun c => putPresent c x true).ownKeeper = t at ho
  have tv : t.posValid = false := by rw [ho, ← hv]; cases x <;> rfl
  have tk : t.isKeeper = true := by rw [ho, ← hk]; cases x <;> rfl
  have tf : t.clk.tooFar = false := by rw [ho, ← hf]; cases x <;> rfl
  have tp : t.primary = some x := by rw [ho]; exact hp
  have tx : t.sourcePresent x = true := by
    rw [ho]
    cases x with
    | synthetic => exact State.configured_of_primary hp
    | _ => rfl
  have ta : t.toAcquire = some x := State.toAcquire_primary tf tk tp tx
  have run : s.nowPresent x = t.acquire := by
    unfold State.nowPresent
    dsimp only
    rw [ht, tv, tk]
    simp
  rw [run]
  split
  · rename_i hx
    subst hx
    rw [State.acquire_of_synthetic tv ta, ho]
    rfl
  · rename_i hx
    rw [State.acquire_of_source tv ta hx, ho]
    rfl

end Sys2Proof.Machine
end

section
/-! SUPPORT. Cue entries: reads after writes, and what a tick makes of each entry (R66, R72). -/

namespace Sys2Proof.Machine

variable {s : State} {c d : CueRef}

/-! ### Entries -/

@[simp] theorem State.cueAt_setCue (s : State) (c : CueRef) (e : CueEntry) : (s.setCue c e).cueAt c = e := by
  cases c with
  | dev k => exact Tbl.get_put_same _ _ _
  | quire q k =>
    show Tbl.get {} ((s.modQuire q fun y => { y with cue := Tbl.put {} y.cue k e }).quire q).cue k = e
    rw [State.quire_modQuire]
    exact Tbl.get_put_same _ _ _

theorem State.cueAt_setCue_ne (s : State) (e : CueEntry) (h : d ≠ c) : (s.setCue c e).cueAt d = s.cueAt d := by
  cases c with
  | dev k => cases d with
    | dev j => exact Tbl.get_put_ne _ _ fun hj => h (congrArg CueRef.dev (Fin.ext hj))
    | quire p j => rfl
  | quire q k => cases d with
    | dev j => rfl
    | quire p j =>
      show Tbl.get {} ((s.modQuire q fun y => { y with cue := Tbl.put {} y.cue k e }).quire p).cue j = _
      by_cases hp : p = q
      · subst hp
        rw [State.quire_modQuire]
        exact Tbl.get_put_ne _ _ fun hj => h (congrArg (CueRef.quire p) (Fin.ext hj))
      · rw [State.quire_modQuire_ne _ _ fun e => hp (Fin.ext e)]
        rfl

/-- Cues are where they were where the device's entries are and no quire's have changed. -/
theorem State.cueAt_of_same {t : State} (hc : t.cue = s.cue) (hq : ∀ q, (t.quire q).cue = (s.quire q).cue) (d : CueRef) : t.cueAt d = s.cueAt d := by
  cases d with
  | dev k => show Tbl.get {} t.cue k = _; rw [hc]; rfl
  | quire q k => show Tbl.get {} (t.quire q).cue k = _; rw [hq]; rfl

theorem State.cueAt_of_irq {t : State} (h : ∃ i, t = { s with irq := i }) (d : CueRef) : t.cueAt d = s.cueAt d := by
  obtain ⟨i, rfl⟩ := h; cases d <;> rfl

/-- Raising a cue event changes no entry. -/
@[simp] theorem State.cueAt_raiseCue (s : State) (c d : CueRef) (m : W32) : (s.raiseCue c m).cueAt d = s.cueAt d := by
  cases c with
  | quire q k =>
    refine (State.cueAt_of_irq (State.srcRose_eq s _ _) d).trans (State.cueAt_of_same (s := s) (t := s.modQuire q _) rfl (fun p => ?_) d)
    by_cases hp : p = q
    · subst hp; rw [State.quire_modQuire]
    · rw [State.quire_modQuire_ne _ _ hp]
  | dev k =>
    unfold State.raiseCue
    dsimp only
    split
    · exact (State.cueAt_of_irq (State.srcRose_eq s _ _) d).trans (State.cueAt_of_same rfl (fun _ => rfl) d)
    · exact (State.cueAt_of_irq (State.srcRose_eq s _ _) d).trans (State.cueAt_of_same rfl (fun _ => rfl) d)

@[simp] theorem State.cueAt_countLate (s : State) (c d : CueRef) (k : Nat) : (s.countLate c k).cueAt d = s.cueAt d :=
  (State.cueAt_raiseCue _ c d 1).trans (State.cueAt_of_same rfl (fun _ => rfl) d)

theorem State.cueAt_cueBulk_ne (s : State) (e : CueEntry) (h : d ≠ c) : (s.cueBulk c e).cueAt d = s.cueAt d :=
  (State.cueAt_countLate _ c d _).trans (State.cueAt_setCue_ne s _ h)

/-- Settling one entry changes no other. -/
theorem State.cueAt_cueSettle_ne (h : d ≠ c) (fuel : Nat) : ∀ (s : State) (late : Bool) (key : Pos), (s.cueSettle c late key fuel).cueAt d = s.cueAt d := by
  induction fuel with
  | zero => exact fun _ _ _ => rfl
  | succ fuel ih =>
    intro s late key
    have set := fun e => State.cueAt_setCue_ne s e h
    have count := fun e => (State.cueAt_countLate (s.setCue c e) c d 1).trans (set e)
    unfold State.cueSettle
    dsimp only
    split
    · rfl
    · split
      · split
        · exact (State.cueAt_cueBulk_ne _ _ h).trans (set _)
        · exact (ih _ _ _).trans (set _)
      · split
        · split
          · exact (State.cueAt_cueBulk_ne _ _ h).trans (count _)
          · exact count _
        · split
          · exact count _
          · exact set _

theorem State.cueAt_cueDue_ne (s : State) (late : Bool) (key : Pos) (h : d ≠ c) : (s.cueDue c late key).cueAt d = s.cueAt d := State.cueAt_cueSettle_ne h _ s late key

/-- An entry that is not armed, or already due, is left as it is. -/
theorem State.cueDue_idle (late : Bool) (key : Pos) (h : (s.cueAt c).arm = false ∨ (s.cueAt c).due.isSome = true) : s.cueDue c late key = s := by
  unfold State.cueDue State.cueSettle
  refine if_pos ?_
  obtain h | h := h <;> simp [h]

/-- An armed entry whose E has been reached in a frame of its class becomes due (R72). -/
theorem State.cueDue_reached (key : Pos) (ha : (s.cueAt c).arm = true) (hd : (s.cueAt c).due = none) (hr : s.cueReached (s.cueAt c) = true) (hc : s.classOk (s.cueAt c) = true) :
    s.cueDue c false key = s.setCue c { s.cueAt c with due := some key, dueAt := s.clk.pos } := by
  unfold State.cueDue State.cueSettle
  simp [ha, hd, hr, hc]

/-! ### The armed entries -/

theorem Tbl.mem_of_get {α : Type} {d v : α} {t : Tbl α} {k : Nat} (h : Tbl.get d t k = v) (hv : v ≠ d) : (k, v) ∈ t := by
  induction t with
  | nil => exact absurd h.symm hv
  | cons e t ih =>
    obtain ⟨j, w⟩ := e
    by_cases hk : k = j
    · subst hk
      simp only [Tbl.get, if_pos] at h
      subst h
      exact List.mem_cons_self
    · simp only [Tbl.get, if_neg hk] at h
      exact List.mem_cons_of_mem _ (ih h)

theorem State.mem_armedCues (h : (s.cueAt c).arm = true) : c ∈ s.armedCues := by
  have ne : ∀ e : CueEntry, e.arm = true → e ≠ {} := fun e he h => by rw [h] at he; cases he
  unfold State.armedCues
  cases c with
  | dev k =>
    refine List.mem_append_left _ (List.mem_map.2 ⟨(k, s.cueAt (.dev k)), List.mem_filter.2 ⟨Tbl.mem_of_get rfl (ne _ h), h⟩, ?_⟩)
    simp
  | quire q k =>
    have hq : s.quire q ≠ {} := fun hq => by
      have : (Tbl.get {} (s.quire q).cue k).arm = true := h
      rw [hq] at this
      cases this
    refine List.mem_append_right _ (List.mem_flatMap.2 ⟨(q, s.quire q), Tbl.mem_of_get rfl hq, List.mem_map.2 ⟨(k, s.cueAt (.quire q k)), List.mem_filter.2 ⟨Tbl.mem_of_get rfl (ne _ h), h⟩, ?_⟩⟩)
    simp [toQuire]

/-! ### A tick (R72) -/

theorem FollowersOnly.ent {n : State} (h : FollowersOnly s n) : n.ent = s.ent := h.andClock.ent

theorem State.cueE_of_ent {n : State} (h : n.ent = s.ent) (e : CueEntry) : n.cueE e = s.cueE e := by
  unfold State.cueE; rw [State.cfgN_of_ent h, State.lpf_of_ent h]
theorem State.classOk_of_ent {n : State} (h : n.ent = s.ent) (e : CueEntry) : n.classOk e = s.classOk e := by
  unfold State.classOk State.cueClass; rw [State.cueE_of_ent h, State.cfgN_of_ent h]
theorem posReached_self (p : Pos) : posReached p p = true := by simp [posReached, posAhead]

/-- An entry that a tick finds not armed stays as it is. -/
theorem State.cueAt_cuesReached_unarmed (h : (s.cueAt c).arm = false) : s.cuesReached.cueAt c = s.cueAt c := by
  unfold State.cuesReached
  split
  · refine foldl_keeps (fun u : State => u.cueAt c = s.cueAt c) (fun u a hu => ?_) _ s rfl
    dsimp only
    by_cases ha : c = a
    · subst ha; rw [State.cueDue_idle _ _ (.inl (hu ▸ h))]; exact hu
    · rw [State.cueAt_cueDue_ne u _ _ ha]; exact hu
  · rfl

/-- In a pass over entries, one that has to become due is due at its turn and stays so. -/
theorem State.cueAt_pass_due (he : (s.cueAt c).arm = true) (hd : (s.cueAt c).due = none) (hE : s.cueE (s.cueAt c) = s.clk.pos) (hc : s.classOk (s.cueAt c) = true) (l : List CueRef) :
    ∀ u, FollowersOnly s u → (u.cueAt c = s.cueAt c ∧ c ∈ l ∨ u.cueAt c = { s.cueAt c with due := some s.clk.pos, dueAt := s.clk.pos }) →
      (forL l (fun a v => v.cueDue a false v.clk.pos) u).cueAt c = { s.cueAt c with due := some s.clk.pos, dueAt := s.clk.pos } := by
  induction l with
  | nil =>
    rintro u - (⟨-, h⟩ | h)
    · cases h
    · exact h
  | cons a l ih =>
    intro u hu h
    refine ih (u.cueDue a false u.clk.pos) (hu.trans (State.cueDue_followers u a _ _)) ?_
    by_cases ha : c = a
    · subst ha
      obtain ⟨h, -⟩ | h := h
      · right
        have hr : u.cueReached (u.cueAt c) = true := by
          rw [State.cueReached, State.cueE_of_ent hu.ent, h, hE, hu.clk]; exact posReached_self _
        rw [State.cueDue_reached _ (h ▸ he) (h ▸ hd) hr (by rw [State.classOk_of_ent hu.ent, h, hc]), State.cueAt_setCue, h, hu.clk]
      · exact .inr (by rw [State.cueDue_idle _ _ (.inr (by rw [h]; rfl))]; exact h)
    · rw [State.cueAt_cueDue_ne u _ _ ha]
      exact h.imp_left fun h => ⟨h.1, List.mem_of_ne_of_mem ha h.2⟩

theorem State.cueAt_cuesReached_due (hv : s.posValid = true) (he : (s.cueAt c).arm = true) (hd : (s.cueAt c).due = none) (hE : s.cueE (s.cueAt c) = s.clk.pos)
    (hc : s.classOk (s.cueAt c) = true) : s.cuesReached.cueAt c = { s.cueAt c with due := some s.clk.pos, dueAt := s.clk.pos } := by
  unfold State.cuesReached
  rw [if_pos hv]
  exact State.cueAt_pass_due he hd hE hc _ s (.refl s) (.inl ⟨rfl, State.mem_armedCues he⟩)

end Sys2Proof.Machine
end

section
/-! The position advances, locks and is held (R29 to R49, R605). -/

namespace Sys2Proof.Machine

variable {s : State} {x y : ClockSource} {fmt : Fin 17}

/-! ### Ticks -/

theorem exec_positionTick_of_not_valid (h : s.posValid = false) : exec .positionTick s = .next s := by
  show Host.Outcome.next (if s.posValid = true then _ else s) = _
  rw [h]; rfl

theorem exec_positionTick_of_valid (h : s.posValid = true) :
    exec .positionTick s = .next (s.modClk fun c => { c with pos := nextTick s.lpf s.tpl c.pos }).cuesReached := by
  show Host.Outcome.next (if s.posValid = true then _ else s) = _
  rw [h]; rfl

/-! ### The format of the analog reference (R36, R38) -/

/-- A format code of another format is seen: FORMAT_CHANGE is raised and the analog source is absent. -/
def State.loseFormat (s : State) (fmt : Fin 17) : State := ((s.modClk fun c => { c with format := fmt }).raisePos 32).nowLost .analog

@[simp] theorem State.modClk_formatMatches (s : State) (f : Clock → Clock) (k : Nat) : (s.modClk f).formatMatches k = s.formatMatches k := rfl

theorem State.newFormat_same (s : State) : s.newFormat s.clk.format = s := if_pos rfl

/-- A new format loses a clock that is LOCKED to the analog source; otherwise one that matches is taken, and any other makes the source absent. -/
theorem State.newFormat_eq (h : fmt ≠ s.clk.format) :
    s.newFormat fmt = if s.clk.src = some .analog ∧ s.clk.state = .locked then s.loseFormat fmt
      else if s.formatMatches fmt = true then s.modClk fun c => { c with format := fmt }
      else if fmt = 0 then (s.modClk fun c => { c with format := fmt }).nowLost .analog else s.loseFormat fmt := by
  unfold State.newFormat
  rw [if_neg h]
  show (if (decide (s.clk.src = some .analog) && decide (s.clk.state = .locked)) = true then _ else _) = _
  simp only [Bool.and_eq_true, decide_eq_true_eq, State.modClk_formatMatches]
  split
  · rfl
  · by_cases hm : s.formatMatches fmt = true
    · rw [if_pos hm]
      exact if_pos hm
    · rw [if_neg hm]
      refine (if_neg hm).trans ?_
      split <;> rfl

theorem State.newFormat_of_other (h : fmt ≠ s.clk.format) (hm : s.formatMatches fmt = false) (h0 : fmt ≠ 0) : s.newFormat fmt = s.loseFormat fmt := by
  rw [State.newFormat_eq h, hm, if_neg Bool.false_ne_true, if_neg h0, ite_self]

theorem State.newFormat_of_matches (hm : s.formatMatches fmt = true) (hl : s.clk.src = some .analog → s.clk.state ≠ .locked) :
    s.newFormat fmt = s.modClk fun c => { c with format := fmt } := by
  by_cases h : fmt = s.clk.format
  · subst h; exact s.newFormat_same
  · rw [State.newFormat_eq h, if_neg fun e => hl e.1 e.2, if_pos hm]

theorem State.loseFormat_moves (s : State) (fmt : Fin 17) :
    SourceMoves (((s.modClk fun c => { c with format := fmt }).raisePos 32).markLost .analog).clk (s.loseFormat fmt).clk := State.nowLost_moves _ _
theorem State.loseFormat_format (s : State) (fmt : Fin 17) : (s.loseFormat fmt).clk.format = fmt := by
  refine (s.loseFormat_moves fmt).format.trans ?_
  show ((s.modClk fun c => { c with format := fmt }).raisePos 32).clk.format = fmt
  rw [State.raisePos_clk]; rfl
theorem State.loseFormat_presentAnalog (s : State) (fmt : Fin 17) : (s.loseFormat fmt).clk.presentAnalog = false := (s.loseFormat_moves fmt).presentAnalog
theorem State.loseFormat_evt (s : State) (fmt : Fin 17) : (s.loseFormat fmt).clk.evt &&& 32 = 32 := by
  refine (s.loseFormat_moves fmt).evt_kept ?_
  rw [State.markLost_evt, State.raisePos_clk]
  exact or_and_mask _ _
theorem State.loseFormat_pos (fmt : Fin 17) (hv : s.posValid = true) : (s.loseFormat fmt).clk.pos = s.clk.pos := by
  refine (State.nowLost_pos .analog ?_).trans (by rw [State.raisePos_clk]; rfl)
  rw [State.posValid_congr (s := s) (by rw [State.raisePos_clk]; rfl), hv]

/-! ### A source becomes present (R41, R605) -/

/-- What SOURCE_PRESENT of the keeper's primary runs, where its format matches. -/
theorem exec_sourcePresent_of_primary (hs : s.posValid = false) (hp : s.primary = some x) (hm : x = .analog → s.formatMatches fmt = true) :
    exec (.sourcePresent x fmt) s = .next (settle s ((if x = .analog then s.modClk fun c => { c with format := fmt } else s).nowPresent x)) := by
  cases x with
  | analog =>
    show Host.Outcome.next (settle s (if s.formatMatches fmt = true then _ else _)) = _
    rw [if_pos (hm rfl), State.newFormat_of_matches (hm rfl) fun _ hl => by rw [State.posValid_of_locked hl] at hs; cases hs]
    rfl
  | synthetic =>
    show Host.Outcome.next (settle s (if s.configured .synthetic = true then _ else s)) = _
    rw [if_pos (State.configured_of_primary hp)]
    rfl
  | _ => rfl

/-- The keeper's primary becomes present while the position is not valid: it is acquired, and the synthetic source locks at once at FRAME #2001.05 (R41, R605). -/
theorem sourcePresent_acquires (hv : s.posValid = false) (hk : s.isKeeper = true) (hf : s.clk.tooFar = false) (hp : s.primary = some x) :
    (x ≠ .synthetic → (x = .analog → s.formatMatches fmt = true) →
      ∃ n, exec (.sourcePresent x fmt) s = .next n ∧ n.clk.state = .acquire ∧ n.clk.src = some x ∧ n.sourcePresent x = true ∧ n.clk.pos = s.clk.pos ∧ n.clk.evt = s.clk.evt) ∧
    (x = .synthetic → ∃ n, exec (.sourcePresent x fmt) s = .next n ∧ n.clk.state = .locked ∧ n.clk.src = some .synthetic ∧ n.clk.pos = mkPos (s.cfgN 0x2001 5) 0 0 ∧ n.clk.evt = s.clk.evt ||| 1) := by
  refine ⟨fun hx hm => ⟨_, exec_sourcePresent_of_primary hv hp hm, ?_⟩, fun hx => ⟨_, exec_sourcePresent_of_primary hv hp (fun h => absurd (h.symm.trans hx) (by decide)), ?_⟩⟩
  · generalize ht : (if x = .analog then s.modClk fun c => { c with format := fmt } else s) = t
    have tc : ∃ g, t = s.modClk fun c => { c with format := g } := by
      subst ht
      split
      · exact ⟨_, rfl⟩
      · exact ⟨_, rfl⟩
    obtain ⟨g, rfl⟩ := tc
    obtain ⟨k, e, h, p, hn⟩ := State.nowPresent_of_primary (s := s.modClk fun c => { c with format := g }) (x := x) hv hk hf hp
    rw [if_neg hx] at hn
    obtain ⟨i, hi⟩ := settle_eq s ((s.modClk fun c => { c with format := g }).nowPresent x)
    rw [hi, hn]
    cases x with
    | synthetic => exact absurd rfl hx
    | _ => exact ⟨rfl, rfl, rfl, rfl, rfl⟩
  · subst hx
    obtain ⟨k, e, h, p, hn⟩ := State.nowPresent_of_primary (s := s) (x := .synthetic) hv hk hf hp
    rw [if_pos rfl] at hn
    rw [settle_clk, if_neg (by decide), hn, State.lock_clk]
    exact ⟨rfl, rfl, if_neg (by rw [State.posValid_congr (s := s) (by rfl), hv]; decide), rfl⟩

/-! ### The analog reference is of another format -/

theorem exec_sourcePresent_of_other_format (hm : s.formatMatches fmt = false) (h0 : fmt ≠ 0) :
    exec (.sourcePresent .analog fmt) s = .next (settle s (s.loseFormat fmt)) := by
  show Host.Outcome.next (settle s (if s.formatMatches fmt = true then _ else _)) = _
  rw [hm, if_neg Bool.false_ne_true]
  by_cases h : fmt = s.clk.format
  · rw [if_pos (by simp [h0, h.symm]), h]; rfl
  · rw [if_neg (by simp [h]), State.newFormat_of_other h hm h0]

/-- A reference of another format is not present and raises FORMAT_CHANGE; with no part in the clock it changes nothing else (R36, R38). -/
theorem sourcePresent_other_format (hm : s.formatMatches fmt = false) (h0 : fmt ≠ 0) :
    ∃ n, exec (.sourcePresent .analog fmt) s = .next n ∧ n.clk.format = fmt ∧ n.clk.presentAnalog = false ∧ n.clk.evt &&& 32 = 32 ∧ (s.posValid = true → n.clk.pos = s.clk.pos) ∧
      (s.clk.src ≠ some .analog → s.configured .analog = false →
        n.clk = { s.clk with format := fmt, presentAnalog := false, evt := s.clk.evt ||| 32 } ∧ { n with clk := s.clk, irq := s.irq } = s) := by
  refine ⟨_, exec_sourcePresent_of_other_format hm h0, ?_, ?_, ?_, ?_, ?_⟩
  · rw [settle_clk, State.loseFormat_format]
  · rw [settle_clk, State.loseFormat_presentAnalog]
  · rw [settle_clk, State.loseFormat_evt]
  · intro hv; rw [settle_clk, State.loseFormat_pos fmt hv]
  · intro hs hc
    have e : s.loseFormat fmt = ((s.modClk fun c => { c with format := fmt }).raisePos 32).modClk fun c => putPresent c .analog false := by
      unfold State.loseFormat
      rw [State.nowLost_of_ne (by rw [State.raisePos_clk]; exact hs)]
      unfold State.markLost
      rw [State.endMeasure_of_not_configured (by rw [State.raisePos_configured]; exact hc) (by decide)]
    refine ⟨by rw [settle_clk, e, State.modClk_clk, State.raisePos_clk]; rfl, ?_⟩
    refine ClockOnly.trans ?_ (.of_irq (settle_eq _ _))
    rw [e]
    exact ((ClockOnly.modClk s _).trans (State.raisePos_clockOnly _ 32)).trans (ClockOnly.modClk _ _)

/-! ### A source is lost (R42, R49) -/

/-- What an input that is lost leaves behind: no format, or no master. -/
def forgetInput (x : ClockSource) (c : Clock) : Clock :=
  match x with
  | .analog => { c with format := 0 }
  | .ptp => { c with ptpMaster := none }
  | _ => c

theorem forgetInput_frame (x : ClockSource) (c : Clock) : { forgetInput x c with format := c.format, ptpMaster := c.ptpMaster } = c := by cases x <;> rfl

theorem exec_sourceLost (hx : x ≠ .synthetic) : exec (.sourceLost x) s = .next (settle s ((s.nowLost x).modClk (forgetInput x))) := by
  cases x with
  | synthetic => exact absurd rfl hx
  | _ => rfl

/-- A lost source that LOCKED followed leaves HOLDOVER at the position it had, and where the keeper's primary is present the clock moves to it; in ACQUIRE the clock stays in ACQUIRE. -/
theorem sourceLost_holds_or_moves (hx : x ≠ .synthetic) (hs : s.clk.src = some x) :
    (s.clk.state = .locked → s.NoPrimaryBut x → ∃ n, exec (.sourceLost x) s = .next n ∧ n.clk.state = .holdover ∧ n.clk.src = none ∧ n.clk.pos = s.clk.pos ∧ n.clk.evt = s.clk.evt ||| 2 ∧
      { n with clk := s.clk, irq := s.irq } = s) ∧
    (∀ y, s.clk.state = .locked → s.isKeeper = true → s.primary = some y → y ≠ x → s.sourcePresent y = true →
      ∃ n, exec (.sourceLost x) s = .next n ∧ n.clk.src = some y ∧ n.clk.pos = s.clk.pos ∧ n.clk.state = (if y = .synthetic then .locked else .holdover)) ∧
    (s.clk.state = .acquire → s.primary ≠ some .synthetic → s.secondary ≠ some .synthetic →
      ∃ n, exec (.sourceLost x) s = .next n ∧ n.clk.state = .acquire ∧ n.clk.pos = s.clk.pos) := by
  have run : ∀ {u : State}, (settle s (u.modClk (forgetInput x))).clk.state = u.clk.state ∧ (settle s (u.modClk (forgetInput x))).clk.src = u.clk.src ∧
      (settle s (u.modClk (forgetInput x))).clk.pos = u.clk.pos ∧ (settle s (u.modClk (forgetInput x))).clk.evt = u.clk.evt := by
    intro u
    rw [settle_clk, State.modClk_clk]
    have h := forgetInput_frame x u.clk
    exact ⟨(congrArg Clock.state h :), (congrArg Clock.src h :), (congrArg Clock.pos h :), (congrArg Clock.evt h :)⟩
  refine ⟨fun hl hp => ⟨_, exec_sourceLost hx, ?_⟩, fun y hl hk hp hy hyp => ⟨_, exec_sourceLost hx, ?_⟩, fun ha h1 h2 => ⟨_, exec_sourceLost hx, ?_⟩⟩ <;> obtain ⟨r1, r2, r3, r4⟩ := run (u := s.nowLost x)
  · obtain ⟨hc, ho⟩ := State.nowLost_locked_stays hs hl hp
    rw [r1, r2, r3, r4, hc]
    exact ⟨rfl, rfl, s.markLost_pos x, rfl, (ho.trans (ClockOnly.modClk _ _)).trans (.of_irq (settle_eq _ _))⟩
  · have hv := State.posValid_of_locked hl
    obtain ⟨d1, d2, d3⟩ := State.dropSource_of_valid (s := s.markLost x) (by rwa [State.markLost_posValid])
    rw [r1, r2, r3, State.nowLost_moves_to_primary hs hv hk hp hy hyp, State.moveTo_src, State.moveTo_pos, State.moveTo_state, d1, d3, State.markLost_pos]
    exact ⟨rfl, rfl, rfl⟩
  · rw [r1, r3, State.nowLost_acquires hs (State.posValid_of_acquire ha)]
    have hv : (s.markLost x).posValid = false := by rw [State.markLost_posValid, State.posValid_of_acquire ha]
    have hn : (s.markLost x).toAcquire ≠ some .synthetic := State.toAcquire_ne_synthetic h1 h2
    cases hq : (s.markLost x).toAcquire with
    | none => rw [State.acquire_of_none hv hq]; exact ⟨(s.markLost_state x).trans ha, s.markLost_pos x⟩
    | some y => rw [State.acquire_of_source hv hq fun h => hn (h ▸ hq)]; exact ⟨rfl, s.markLost_pos x⟩

/-! ### The format changes (R38) -/

/-- A clock LOCKED to the analog source loses it with its format; elsewhere a format that matches is taken. -/
theorem formatChange_cases (hf : fmt ≠ s.clk.format) :
    (s.clk.state = .locked → s.clk.src = some .analog → s.NoPrimaryBut .analog →
      ∃ n, exec (.formatChange fmt) s = .next n ∧ n.clk.state = .holdover ∧ n.clk.src = none ∧ n.clk.format = fmt ∧ n.clk.presentAnalog = false ∧ n.clk.pos = s.clk.pos ∧
        n.clk.evt = s.clk.evt ||| 32 ||| 2) ∧
    (s.clk.src ≠ some .analog → s.formatMatches fmt = true → ∃ n, exec (.formatChange fmt) s = .next n ∧ n.clk = { s.clk with format := fmt } ∧ { n with clk := s.clk } = s) := by
  refine ⟨fun hl hs hp => ⟨_, rfl, ?_⟩, fun hs hm => ⟨_, rfl, ?_⟩⟩
  · rw [settle_clk, State.newFormat_eq hf, if_pos ⟨hs, hl⟩]
    have f1 := s.loseFormat_format fmt
    have f2 := s.loseFormat_presentAnalog fmt
    generalize hu : (s.modClk fun c => { c with format := fmt }).raisePos 32 = u
    have uc : u.clk = { s.clk with format := fmt, evt := s.clk.evt ||| 32 } := by rw [← hu, State.raisePos_clk]; rfl
    have uo : ClockOnly s u := by rw [← hu]; exact (ClockOnly.modClk s _).trans (State.raisePos_clockOnly _ 32)
    have up : u.NoPrimaryBut .analog := by
      have um : SourceMoves (s.modClk fun c => { c with format := fmt }).clk u.clk := by rw [uc]; exact ⟨rfl, 32, rfl⟩
      have ue := uo.andFollowers.ent
      unfold State.NoPrimaryBut at hp ⊢
      rw [um.isKeeper (s := s.modClk fun c => { c with format := fmt }) ue, State.primary_of_ent ue]
      refine hp.imp_right fun h => h.imp_right fun h => ?_
      cases hq : s.primary with
      | none => rfl
      | some y => rw [hq] at h; rw [State.here_some, um.sourcePresent (s := s.modClk fun c => { c with format := fmt }) ue]; exact h
    obtain ⟨hc, -⟩ := State.nowLost_locked_stays (s := u) (x := .analog) (by rw [uc]; exact hs) (by rw [uc]; exact hl) up
    have hn : s.loseFormat fmt = u.nowLost .analog := by unfold State.loseFormat; rw [hu]
    rw [hn] at f1 f2 ⊢
    refine ⟨by rw [hc], by rw [hc], f1, f2, ?_, by rw [hc, uc]⟩
    rw [hc]
    exact (u.markLost_pos .analog).trans (by rw [uc])
  · rw [State.newFormat_of_matches hm fun h => absurd h hs, settle_modClk rfl]
    exact ⟨rfl, rfl⟩

/-! ### Lock (R37, R40, R42, R55) -/

theorem posLine_mkPos (f l t : Nat) : posLine (mkPos f l t) = l % 2 ^ 14 := by unfold posLine mkPos; rw [BitVec.toNat_ofNat]; omega
theorem posTick_mkPos (f l t : Nat) : posTick (mkPos f l t) = t % 2 ^ 14 := by unfold posTick mkPos; rw [BitVec.toNat_ofNat]; omega

theorem posHeld_iff {lpf tpl : Nat} {p : Pos} : posHeld lpf tpl p = true ↔ posLine p < lpf ∧ posTick p < tpl := by simp [posHeld]
theorem posHeld_mkPos {lpf tpl : Nat} (f : Nat) {l t : BitVec 14} (hl : l.toNat < lpf) (ht : t.toNat < tpl) : posHeld lpf tpl (mkPos f l.toNat t.toNat) = true := by
  rw [posHeld_iff, posLine_mkPos, posTick_mkPos, Nat.mod_eq_of_lt l.isLt, Nat.mod_eq_of_lt t.isLt]
  exact ⟨hl, ht⟩

/-- The position that a source gives when the clock locks to it: PTP the one at its time, the analog source line and tick of FRAME #2001.05, any other the whole of it (R37, R40). -/
def State.givenPos (s : State) (x : ClockSource) (m : BitVec 36) (line tick : BitVec 14) (since : Nat) : Pos :=
  match x with
  | .ptp => s.ptpPos (ptpNanos s.clk.ptpTime + since)
  | .analog => mkPos (s.cfgN 0x2001 5) line.toNat tick.toNat
  | _ => mkPos m.toNat line.toNat tick.toNat

section
variable {m : BitVec 36} {line tick : BitVec 14} {since : Nat}

theorem exec_lockGained_of_none (h : s.clk.src = none) : exec (.lockGained m line tick since) s = .next s := by
  show execLockGained m line tick since s = _
  unfold execLockGained
  rw [h]
  exact congrArg _ (settle_self s)

/-- With a source followed that is present, the clock acts on its lock as the state it is in says. -/
theorem exec_lockGained_of_some (hs : s.clk.src = some x) (hp : s.sourcePresent x = true) :
    exec (.lockGained m line tick since) s = .next (settle s (
      if x = .fabric ∧ s.clk.keeperState ≠ 2 then
        (if s.clk.keeperState = 3 ∧ s.clk.state = .acquire ∧ posHeld s.lpf s.tpl (s.givenPos x m line tick since) = true then
          s.pipesLock ((s.modClk fun c => { c with state := .holdover, pos := s.givenPos x m line tick since }).cuesValid) else s)
      else match s.clk.state with
        | .acquire => if posHeld s.lpf s.tpl (s.givenPos x m line tick since) = true then s.lock (s.givenPos x m line tick since) else s
        | .holdover => s.lock s.clk.pos
        | _ => s)) := by
  show execLockGained m line tick since s = _
  unfold execLockGained
  rw [hs]
  dsimp only
  rw [hp]
  simp only [Bool.not_true, Bool.false_eq_true, if_false, Bool.and_eq_true, decide_eq_true_eq, and_assoc, ne_eq]
  rfl

variable (hs : s.clk.src = some x) (hp : s.sourcePresent x = true)
include hs hp

/-- LOCK_GAINED locks an acquiring clock at the position that its source gives. -/
theorem lockGained_locks (hk : x ≠ .fabric ∨ s.clk.keeperState = 2) (ha : s.clk.state = .acquire) (hq : posHeld s.lpf s.tpl (s.givenPos x m line tick since) = true) :
    ∃ n, exec (.lockGained m line tick since) s = .next n ∧ n.clk.state = .locked ∧ n.clk.src = some x ∧ n.clk.evt = s.clk.evt ||| 1 ∧ n.clk.pos = s.givenPos x m line tick since := by
  have h : ¬ (x = .fabric ∧ s.clk.keeperState ≠ 2) := fun h => hk.elim (fun e => e h.1) h.2
  refine ⟨_, exec_lockGained_of_some hs hp, ?_⟩
  rw [settle_clk, if_neg h, ha]
  dsimp only
  rw [if_pos hq, State.lock_clk, State.posValid_of_acquire ha]
  exact ⟨rfl, hs, rfl, rfl⟩

/-- LOCK_GAINED takes an acquiring clock to HOLDOVER where its keeper is in HOLDOVER (R55). -/
theorem lockGained_holds (hx : x = .fabric) (hk : s.clk.keeperState = 3) (ha : s.clk.state = .acquire) (hq : posHeld s.lpf s.tpl (s.givenPos x m line tick since) = true) :
    ∃ n, exec (.lockGained m line tick since) s = .next n ∧ n.clk.state = .holdover ∧ n.clk.src = some x ∧ n.clk.pos = s.givenPos x m line tick since := by
  refine ⟨_, exec_lockGained_of_some hs hp, ?_⟩
  rw [settle_clk, if_pos ⟨hx, by rw [hk]; decide⟩, if_pos ⟨hk, ha, hq⟩, (State.pipesLock_followers s _).clk, (State.cuesValid_followers _).clk]
  exact ⟨rfl, hs, rfl⟩

/-- LOCK_GAINED locks a clock in HOLDOVER at the position it has. -/
theorem lockGained_from_holdover (hk : x ≠ .fabric ∨ s.clk.keeperState = 2) (hh : s.clk.state = .holdover) :
    ∃ n, exec (.lockGained m line tick since) s = .next n ∧ n.clk.state = .locked ∧ n.clk.pos = s.clk.pos ∧ n.clk.src = some x ∧ n.clk.agedBit = false ∧ n.clk.evt = s.clk.evt ||| 1 := by
  have h : ¬ (x = .fabric ∧ s.clk.keeperState ≠ 2) := fun h => hk.elim (fun e => e h.1) h.2
  refine ⟨_, exec_lockGained_of_some hs hp, ?_⟩
  rw [settle_clk, if_neg h, hh]
  dsimp only
  rw [State.lock_clk]
  exact ⟨rfl, ite_self _, hs, rfl, rfl⟩

end

/-- Settles O36, case by case of the clock's state, from what ticks, sources and locks do to the clock. -/
theorem positionAdvancesLocksAndIsHeld : Obligations.PositionAdvancesLocksAndIsHeld := by
  unfold Obligations.PositionAdvancesLocksAndIsHeld
  intro s x fmt m line tick since stays
  refine ⟨exec_positionTick_of_not_valid, fun hv => ⟨_, exec_positionTick_of_valid hv, ?_⟩, fun hv hk hf hp => sourcePresent_acquires hv hk hf hp, sourcePresent_other_format,
    congrArg _ (settle_self s), sourceLost_holds_or_moves, ?_, ?_, exec_lockGained_of_none, ?_⟩
  · have h := State.cuesReached_followers (s.modClk fun c => { c with pos := nextTick s.lpf s.tpl c.pos })
    have hd := h.andClock
    refine ⟨hd.tiles, hd.tal, hd.mem, h.clk, fun c hc => ?_, fun c ha hd he hc => ?_⟩
    · exact State.cueAt_cuesReached_unarmed (s := s.modClk _) hc
    · rw [h.clk] at he ⊢
      exact State.cueAt_cuesReached_due (s := s.modClk fun c => { c with pos := nextTick s.lpf s.tpl c.pos }) hv ha hd he hc
  · show exec (.formatChange s.clk.format) s = .next s
    exact congrArg _ ((congrArg (settle s) s.newFormat_same).trans (settle_self s))
  · intro hf
    obtain ⟨h1, h2⟩ := formatChange_cases hf
    exact ⟨fun hl hs hx hp => h1 hl hs (hx ▸ hp), h2⟩
  · intro hs hp
    refine ⟨fun hk ha hx hl ht => ?_, fun ha hx hl ht => ?_, fun ha hx hk hl ht => ?_, lockGained_from_holdover hs hp⟩
    · have e : s.givenPos x m line tick since = mkPos (if x = .analog then s.cfgN 0x2001 5 else m.toNat) line.toNat tick.toNat := by
        cases x with
        | ptp => exact absurd rfl hx
        | _ => rfl
      rw [← e]
      exact lockGained_locks hs hp hk ha (e ▸ posHeld_mkPos _ hl ht)
    · subst hx
      exact lockGained_locks hs hp (.inl (by decide)) ha (posHeld_iff.2 ⟨hl, ht⟩)
    · subst hx
      exact lockGained_holds hs hp rfl hk ha (posHeld_mkPos _ hl ht)

end Sys2Proof.Machine
end

section
/-! The position steps, disagreements are found, and the source followed changes (R39, R46 to R50, R60, R61). -/

namespace Sys2Proof.Machine

variable {s : State} {x : ClockSource} {p : Pos} {off : Int}

/-! ### Bytes of a value -/

theorem leNat_leBytes (n v : Nat) : leNat (leBytes n v) = v % 256 ^ n := by
  induction n generalizing v with
  | zero => simp [leBytes, leNat, Nat.mod_one]
  | succ n ih =>
    rw [leBytes, leNat, ih, BitVec.toNat_ofNat, show 256 ^ (n + 1) = 2 ^ 8 * 256 ^ n from Nat.mul_comm _ _, Nat.mod_mul]
    rfl

/-- A position reads back from its bytes. -/
theorem ofNat_leNat_posBytes (p : Pos) : BitVec.ofNat 64 (leNat (posBytes p)) = p := by
  unfold posBytes
  rw [leNat_leBytes, Nat.mod_eq_of_lt (lt_of_lt_of_eq p.isLt (by norm_num))]
  exact BitVec.eq_of_toNat_eq (by simp)

/-! ### STEP (R46) and STEP_TO (R47) -/

theorem beyond_iff {limit : Nat} : beyond off limit = true ↔ limit < off.natAbs := by simp [beyond]

/-- The conditions of a step that the clock makes of itself (R46). -/
theorem exec_step (s : State) (p : Pos) (off : Int) :
    exec (.step p off) s = .next (if s.posValid = true ∧ s.clk.src.isSome = true ∧ s.anyFormed = false ∧ s.cfgN 0x2010 7 < off.natAbs ∧ posHeld s.lpf s.tpl p = true then
      ((s.modClk fun c => { c with pos := p, offsetNs := 0 }).raisePos 16).cuesPassed else s) := by
  show execStep p off s = _
  unfold execStep
  simp only [Bool.and_eq_true, Bool.not_eq_true', beyond_iff, and_assoc]

theorem step_moves (hv : s.posValid = true) (hs : s.clk.src.isSome = true) (hr : s.anyFormed = false) (ho : s.cfgN 0x2010 7 < off.natAbs) (hl : posLine p < s.lpf) (ht : posTick p < s.tpl) :
    ∃ n, exec (.step p off) s = .next n ∧ n.clk = { s.clk with pos := p, offsetNs := 0, evt := s.clk.evt ||| 16 } := by
  refine ⟨_, exec_step s p off, ?_⟩
  rw [if_pos ⟨hv, hs, hr, ho, posHeld_iff.2 ⟨hl, ht⟩⟩, (State.cuesPassed_followers _).clk, State.raisePos_clk]
  rfl

theorem step_stays (h : s.posValid = false ∨ s.clk.src = none ∨ s.anyFormed = true ∨ off.natAbs ≤ s.cfgN 0x2010 7) : exec (.step p off) s = .next s := by
  rw [exec_step, if_neg]
  rintro ⟨h1, h2, h3, h4, -⟩
  obtain h | h | h | h := h
  · rw [h] at h1; cases h1
  · rw [h] at h2; cases h2
  · rw [h] at h3; cases h3
  · omega

/-- The position moved on to `p` by STEP_TO (R47). -/
def State.steppedTo (s : State) (p : Pos) : State := ((s.modClk fun c => { c with pos := p }).raisePos 16).cuesPassed

theorem State.steppedTo_clk (s : State) (p : Pos) : (s.steppedTo p).clk = { s.clk with pos := p, evt := s.clk.evt ||| 16 } := by
  unfold State.steppedTo
  rw [(State.cuesPassed_followers _).clk, State.raisePos_clk]
  rfl
theorem State.steppedTo_andFollowers (s : State) (p : Pos) : ClockAndFollowers s (s.steppedTo p) :=
  ((ClockOnly.modClk s _).trans (State.raisePos_clockOnly _ 16)).andFollowers.trans (State.cuesPassed_followers _).andClock

theorem State.stepToEffect_eq (s : State) (p : Pos) :
    s.stepToEffect p = if ¬ (s.isKeeper = true ∧ s.clk.src = some .synthetic ∧ s.posValid = true) then .refuse stSTATE s
      else if posHeld s.lpf s.tpl p = true ∧ posAhead p s.clk.pos = true then .ok (s.steppedTo p) else .refuse stRANGE s := by
  unfold State.stepToEffect
  by_cases h : s.isKeeper = true ∧ s.clk.src = some .synthetic ∧ s.posValid = true
  · obtain ⟨h1, h2, h3⟩ := h
    cases h4 : posHeld s.lpf s.tpl p <;> cases h5 : posAhead p s.clk.pos <;> simp [h1, h2, h3]
    rfl
  · rw [if_pos h]
    refine if_pos ?_
    cases h1 : s.isKeeper <;> cases h3 : s.posValid <;> simp_all

theorem ReplyOnly.clk {n : State} (h : ReplyOnly s n) : n.clk = s.clk := (congrArg State.clk h :)
theorem ReplyOnly.ent {n : State} (h : ReplyOnly s n) : n.ent = s.ent := (congrArg State.ent h :)
theorem ReplyOnly.tal {n : State} (h : ReplyOnly s n) : n.tal = s.tal := (congrArg State.tal h :)
theorem ReplyOnly.mem {n : State} (h : ReplyOnly s n) : n.mem = s.mem := (congrArg State.mem h :)

/-- What STEP_TO looks at is the same once it is recorded. -/
theorem stepToEffect_of_recorded {t : State} (h : ReplyOnly s t) (p : Pos) :
    t.stepToEffect p = if ¬ (s.isKeeper = true ∧ s.clk.src = some .synthetic ∧ s.posValid = true) then .refuse stSTATE t
      else if posHeld s.lpf s.tpl p = true ∧ posAhead p s.clk.pos = true then .ok (t.steppedTo p) else .refuse stRANGE t := by
  rw [State.stepToEffect_eq, State.isKeeper_eq, State.isKeeper_eq, State.alone_of_ent (ReplyOnly.ent h), State.lpf_of_ent (ReplyOnly.ent h), State.tpl_of_ent (ReplyOnly.ent h),
    State.posValid_congr (congrArg Clock.state (ReplyOnly.clk h)), ReplyOnly.clk h]

section
variable {r : Req} (hadm : Admits s r 0x2012 1 (posBytes p))
include hadm

theorem stepTo_moves (hk : s.isKeeper = true) (hs : s.clk.src = some .synthetic) (hv : s.posValid = true) (hl : posLine p < s.lpf) (ht : posTick p < s.tpl) (ha : posAhead p s.clk.pos = true) :
    Journaled s (.stepTo r p) r 0x2012 1 (posBytes p) 0 [] fun n => n.clk = { s.clk with pos := p, evt := s.clk.evt ||| 16 } ∧ n.tal = s.tal ∧ n.mem = s.mem := by
  refine journaled_of (st := stOK) hadm (by decide) (by decide) (.inr (List.cons_ne_nil _ _)) rfl (by decide) fun t x ht' => ⟨t.steppedTo p, ?_, ?_, ?_, fun n hn => ?_⟩
  · rw [ht'.stepTo, ofNat_leNat_posBytes, stepToEffect_of_recorded ht'.only, if_neg (not_not_intro ⟨hk, hs, hv⟩), if_pos ⟨posHeld_iff.2 ⟨hl, ht⟩, ha⟩]
    rfl
  · unfold State.record
    rw [(t.steppedTo_andFollowers p).led]
    exact ht'.record.1
  · rw [(t.steppedTo_andFollowers p).led]
    exact ht'.queue
  · have hd := t.steppedTo_andFollowers p
    exact ⟨by rw [ReplyOnly.clk hn, State.steppedTo_clk, ReplyOnly.clk ht'.only], (ReplyOnly.tal hn).trans (hd.tal.trans (ReplyOnly.tal ht'.only)),
      (ReplyOnly.mem hn).trans (hd.mem.trans (ReplyOnly.mem ht'.only))⟩

theorem stepTo_refused_state (h : s.isKeeper = false ∨ s.clk.src ≠ some .synthetic ∨ s.posValid = false) : Refused s (.stepTo r p) r 0x2012 1 (posBytes p) 3 := by
  refine refused_of (st := stSTATE) hadm (by decide) (by decide) (.inr (List.cons_ne_nil _ _)) rfl (by decide) fun t x ht => ?_
  rw [ht.stepTo, ofNat_leNat_posBytes, stepToEffect_of_recorded ht.only, if_pos]
  rintro ⟨h1, h2, h3⟩
  obtain h | h | h := h
  · rw [h] at h1; cases h1
  · exact h h2
  · rw [h] at h3; cases h3

theorem stepTo_refused_range (hk : s.isKeeper = true) (hs : s.clk.src = some .synthetic) (hv : s.posValid = true) (h : s.lpf ≤ posLine p ∨ s.tpl ≤ posTick p ∨ posAhead p s.clk.pos = false) :
    Refused s (.stepTo r p) r 0x2012 1 (posBytes p) 2 := by
  refine refused_of (st := stRANGE) hadm (by decide) (by decide) (.inr (List.cons_ne_nil _ _)) rfl (by decide) fun t x ht => ?_
  rw [ht.stepTo, ofNat_leNat_posBytes, stepToEffect_of_recorded ht.only, if_neg (not_not_intro ⟨hk, hs, hv⟩), if_neg]
  rintro ⟨h1, h2⟩
  rw [posHeld_iff] at h1
  obtain h | h | h := h
  · omega
  · omega
  · rw [h] at h2; cases h2

end

/-! ### Disagreement (R48) -/

/-- Input `x` is measured: the pair that it is measured in takes the judgement, and #2011.01 its offset where it reports that pair. -/
theorem State.judged_of_measures (hm : s.measures x = true) (bad : Bool) (off : Int) :
    s.judged x bad off = s.modClk fun c => { c with
      disagree1 := if s.isKeeper = false ∧ s.primary = some x then bad else c.disagree1,
      disagree2 := if s.isKeeper = false ∧ s.primary = some x then c.disagree2 else bad,
      disagreeNs := if s.isKeeper = true ∨ s.reported = some x then satI32 off else c.disagreeNs } := by
  unfold State.judged State.reports
  rw [hm]
  simp only [Bool.and_eq_true, Bool.not_eq_true', decide_eq_true_eq, Bool.or_eq_true, true_and]

theorem disagree_raises (hm : s.measures x = true) (ho : s.cfgN 0x2010 3 < off.natAbs) :
    ∃ n, exec (.disagree x off) s = .next n ∧ { n with clk := s.clk, irq := s.irq } = s ∧
      n.clk = { s.clk with disagree1 := if s.isKeeper = false ∧ s.primary = some x then true else s.clk.disagree1, disagree2 := if s.isKeeper = false ∧ s.primary = some x then s.clk.disagree2 else true,
                           disagreeNs := if s.isKeeper = true ∨ s.reported = some x then satI32 off else s.clk.disagreeNs,
                           evt := if s.clk.disagree1 = true ∨ s.clk.disagree2 = true then s.clk.evt else s.clk.evt ||| 4 } := by
  have run : exec (.disagree x off) s = .next (if s.clk.disagrees = true then s.judged x true off else (s.judged x true off).raisePos 4) := by
    show execDisagree x off s = _
    unfold execDisagree
    rw [hm, if_pos (by simp [beyond, ho])]
  refine ⟨_, run, ?_⟩
  rw [State.judged_of_measures hm]
  by_cases h : s.clk.disagree1 = true ∨ s.clk.disagree2 = true
  · rw [if_pos (by simpa [Clock.disagrees] using h), if_pos h]
    exact ⟨rfl, rfl⟩
  · rw [if_neg (by simpa [Clock.disagrees] using h), if_neg h]
    refine ⟨(ClockOnly.modClk s _).trans (State.raisePos_clockOnly _ 4), ?_⟩
    rw [State.raisePos_clk]
    rfl

theorem disagreeClear_clears (hm : s.measures x = true) (ho : off.natAbs ≤ s.cfgN 0x2010 3) : exec (.disagreeClear x off) s = .next (s.judged x false off) := by
  show execDisagreeClear x off s = _
  unfold execDisagreeClear
  rw [hm, if_pos (by simp [beyond, ho])]

theorem disagree_of_not_measured (hm : s.measures x = false) : exec (.disagree x off) s = .next s ∧ exec (.disagreeClear x off) s = .next s := by
  refine ⟨?_, ?_⟩
  · show execDisagree x off s = _
    unfold execDisagree
    rw [hm]; rfl
  · show execDisagreeClear x off s = _
    unfold execDisagreeClear
    rw [hm]; rfl

/-! ### The keeper changes its source (R49), and HOLDOVER ages (R50) -/

theorem settle_moveTo_clk (s : State) (x : ClockSource) (off : Int) :
    (settle s (s.moveTo x off)).clk.src = some x ∧ (settle s (s.moveTo x off)).clk.pos = s.clk.pos ∧ (settle s (s.moveTo x off)).clk.state = if x = .synthetic then .locked else s.clk.state := by
  rw [settle_clk]
  exact ⟨s.moveTo_src x off, s.moveTo_pos x off, s.moveTo_state x off⟩

theorem switchToSecondary_moves (hk : s.isKeeper = true) (hx : s.sourcePresent x = true) (hh : s.clk.state = .holdover) (hs : s.clk.src = none) (h2 : s.secondary = some x)
    (h1 : s.here s.primary = false) : exec (.switchToSecondary off) s = .next (settle s (s.moveTo x off)) := by
  show execSwitchToSecondary off s = _
  unfold execSwitchToSecondary
  rw [h2]
  dsimp only
  rw [if_pos (by simp [hk, hx, hh, hs, h1])]

theorem switchToSecondary_stays (h : s.clk.state ≠ .holdover) : exec (.switchToSecondary off) s = .next s := by
  show execSwitchToSecondary off s = _
  unfold execSwitchToSecondary
  split
  · rw [if_neg (by simp [h]), settle_self]
  · rw [settle_self]

theorem revertToPrimary_moves (hk : s.isKeeper = true) (hx : s.sourcePresent x = true) (hv : s.posValid = true) (h1 : s.primary = some x) (h2 : s.clk.src = s.secondary)
    (hs : s.clk.src ≠ some x) : exec (.revertToPrimary off) s = .next (settle s (s.moveTo x off)) := by
  show execRevertToPrimary off s = _
  unfold execRevertToPrimary
  rw [h1]
  dsimp only
  rw [if_pos (by simp [hk, hx, hv, h2, h2 ▸ hs])]

theorem exec_aged (s : State) : exec .aged s = .next (if s.clk.state = .holdover ∧ s.clk.agedBit = false then (s.modClk fun c => { c with agedBit := true }).raisePos 64 else s) := by
  show execAged s = _
  unfold execAged
  simp only [Bool.and_eq_true, Bool.not_eq_true', decide_eq_true_eq]

/-! ### Offsets reported (R48) -/

theorem exec_analogReferencePoint (hp : s.clk.presentAnalog = true) : exec (.analogReferencePoint s.clk.format off) s = .next (settle s (s.reportOffset .analog off)) := by
  show execAnalogReferencePoint s.clk.format off s = _
  unfold execAnalogReferencePoint
  dsimp only
  rw [State.newFormat_same, hp]
  rfl

theorem State.reportOffset_followed (h : s.clk.src = some x) : s.reportOffset x off = s.modClk fun c => { c with offsetNs := off } := if_pos h

theorem State.reportOffset_keeper {y : ClockSource} (h : s.clk.src ≠ some x) (hk : s.isKeeper = true) (h2 : s.secondary = some y) (hm : s.measures y = true) (hc : s.configured x = true) :
    s.reportOffset x off = s.modClk fun c => { c with disagreeNs := satI32 (if s.primary = some x then -off else off) } := by
  unfold State.reportOffset
  rw [if_neg h, h2]
  dsimp only
  rw [if_pos hk, if_pos (by simp [hm, hc])]

theorem State.reportOffset_input (h : s.clk.src ≠ some x) (hk : s.isKeeper = false) (hm : s.measures x = true) (hr : s.reported = some x) :
    s.reportOffset x off = s.modClk fun c => { c with disagreeNs := satI32 off } := by
  have hx : s.reports x = true := by simp [State.reports, hm, hr]
  unfold State.reportOffset
  rw [if_neg h, hk, hx]
  split <;> rfl

/-! ### PTP (R39) -/

section
variable {port : Fin 2} {m : PtpSync}

theorem exec_ptpSync_of_domain (hd : m.domain.toNat = s.cfgN 0x2020 1) :
    exec (.ptpSync port m off) s = .next (
      let u := s.modClk fun c => { c with ptpMaster := some (s.bestMaster m.master port) }
      if s.bestMaster m.master port ≠ (m.master, port) then u
      else if s.clk.presentPtp = true then ((u.modClk fun c => { c with ptpTime := syncTime m }).emit (.ptpDelayReq port)).reportOffset .ptp off
      else (u.modClk fun c => { c with ptpTime := syncTime m }).emit (.ptpDelayReq port)) := by
  show execPtpSync port m off s = _
  unfold execPtpSync
  rw [if_neg (not_not_intro hd)]
  rfl

theorem ptpSync_other_domain (hd : m.domain.toNat ≠ s.cfgN 0x2020 1) : exec (.ptpSync port m off) s = .next s := congrArg Host.Outcome.next (if_pos hd)

/-- A master that is not the best leaves the one held. -/
theorem State.bestMaster_kept {a : PtpMaster} (h : s.bestMaster a port ≠ (a, port)) : s.clk.ptpMaster = some (s.bestMaster a port) := by
  unfold State.bestMaster at h ⊢
  split
  · rename_i b hb
    rw [hb] at h
    dsimp only at h
    split
    · rename_i hc; exact absurd (if_pos hc) h
    · exact hb
  · rename_i hb
    rw [hb] at h
    exact absurd rfl h

theorem ptpSync_not_best (hd : m.domain.toNat = s.cfgN 0x2020 1) (hb : s.bestMaster m.master port ≠ (m.master, port)) : exec (.ptpSync port m off) s = .next s := by
  rw [exec_ptpSync_of_domain hd]
  dsimp only
  rw [if_pos hb, ← State.bestMaster_kept hb]
  rfl

theorem ptpSync_best (hd : m.domain.toNat = s.cfgN 0x2020 1) (hb : s.bestMaster m.master port = (m.master, port)) (hp : s.clk.presentPtp = false ∨ s.clk.src = some .ptp) :
    exec (.ptpSync port m off) s = .next { s with out := s.out ++ [.ptpDelayReq port], clk := { s.clk with ptpMaster := some (m.master, port), ptpTime := m.followUp.getD m.origin, offsetNs := if s.clk.presentPtp = true then off else s.clk.offsetNs } } := by
  rw [exec_ptpSync_of_domain hd, hb]
  dsimp only
  rw [if_neg (not_not_intro rfl)]
  by_cases h : s.clk.presentPtp = true
  · have hs : s.clk.src = some .ptp := hp.resolve_left (by simp [h])
    rw [if_pos h, if_pos h]
    exact congrArg Host.Outcome.next (State.reportOffset_followed (x := .ptp) hs)
  · rw [if_neg h, if_neg h]
    rfl

end

/-- Settles O37, from what each of the commands runs on the clock. -/
theorem clockStepsDisagreesAndChangesSource : Obligations.ClockStepsDisagreesAndChangesSource := by
  unfold Obligations.ClockStepsDisagreesAndChangesSource
  intro s p off x r port m i32 pair1
  refine ⟨step_moves, step_stays, fun ha => ⟨stepTo_moves ha, stepTo_refused_state ha, stepTo_refused_range ha⟩, fun hm => ⟨disagree_raises hm, fun ho => ?_⟩, disagree_of_not_measured,
    fun hk hx => ⟨fun hh hs h2 h1 => ?_, fun hv h1 h2 hs => ?_⟩, fun h => ⟨switchToSecondary_stays h, ?_⟩, fun hh ha => ⟨_, exec_aged s, ?_⟩, fun hp hs => ⟨_, exec_analogReferencePoint hp, ?_⟩,
    fun hp hs hk h2 hm hc => ⟨_, exec_analogReferencePoint hp, ?_⟩, fun hp hs hk hm hr => ⟨_, exec_analogReferencePoint hp, ?_⟩, ptpSync_other_domain,
    fun hd => ⟨ptpSync_not_best hd, ptpSync_best hd⟩⟩
  · rw [disagreeClear_clears hm ho, State.judged_of_measures hm]
    rfl
  · obtain ⟨h3, h4, h5⟩ := settle_moveTo_clk s x off
    exact ⟨_, switchToSecondary_moves hk hx hh hs h2 h1, h3, h4, hh ▸ h5⟩
  · exact ⟨_, revertToPrimary_moves hk hx hv h1 h2 hs, settle_moveTo_clk s x off⟩
  · rw [exec_aged, if_neg fun e => h e.1]
  · rw [if_pos ⟨hh, ha⟩, State.raisePos_clk]
    exact ⟨rfl, (ClockOnly.modClk s _).trans (State.raisePos_clockOnly _ 64)⟩
  · rw [State.reportOffset_followed hs, settle_modClk rfl]
    exact ⟨rfl, rfl⟩
  · rw [State.reportOffset_keeper hs hk h2 hm hc, settle_modClk rfl]
    exact ⟨rfl, rfl⟩
  · rw [State.reportOffset_input hs hk hm hr, settle_modClk rfl]
    exact ⟨rfl, rfl⟩

end Sys2Proof.Machine
end

section
/-! SUPPORT. The fabric link: what sending changes, and what a received flit does beside its payload (R326 to R330). -/

namespace Sys2Proof.Machine

/-- From `s` to `n` nothing changes but the links: ports, outputs, and the counts, records and events of the flits on them. -/
def LinkOnly (s n : State) : Prop := { n with ports := s.ports, out := s.out, integ := s.integ, led := s.led, irq := s.irq } = s

/-- From `s` to `n` nothing changes but the work of port `p`: its state and its link delay are kept. -/
def PortWorks (s n : State) (p : Nat) : Prop :=
  LinkOnly s n ∧ (∀ k, k ≠ p → n.port k = s.port k) ∧ (n.port p).state = (s.port p).state ∧ (n.port p).linkDelay = (s.port p).linkDelay

variable {s t n : State} {p : Nat}

theorem LinkOnly.refl (s : State) : LinkOnly s s := rfl
theorem LinkOnly.trans (h : LinkOnly s t) (k : LinkOnly t n) : LinkOnly s n :=
  (congrArg (fun u : State => ({ u with ports := s.ports, out := s.out, integ := s.integ, led := s.led, irq := s.irq } : State)) k).trans h
theorem LinkOnly.of_irq (h : ∃ i, n = { s with irq := i }) : LinkOnly s n := by obtain ⟨i, rfl⟩ := h; rfl
theorem LinkOnly.clk (h : LinkOnly s n) : n.clk = s.clk := (congrArg State.clk h :)
theorem LinkOnly.ent (h : LinkOnly s n) : n.ent = s.ent := (congrArg State.ent h :)
theorem LinkOnly.rooms (h : LinkOnly s n) : n.rooms = s.rooms := (congrArg State.rooms h :)
theorem LinkOnly.tal (h : LinkOnly s n) : n.tal = s.tal := (congrArg State.tal h :)

theorem PortWorks.refl (s : State) (p : Nat) : PortWorks s s p := ⟨.refl s, fun _ _ => rfl, rfl, rfl⟩
theorem PortWorks.trans (h : PortWorks s t p) (k : PortWorks t n p) : PortWorks s n p := by
  obtain ⟨h1, h2, h3, h4⟩ := h
  obtain ⟨k1, k2, k3, k4⟩ := k
  exact ⟨h1.trans k1, fun j hj => (k2 j hj).trans (h2 j hj), k3.trans h3, k4.trans h4⟩

/-- A change of links that leaves the ports as they were. -/
theorem PortWorks.of_ports (h : LinkOnly s n) (e : n.ports = s.ports) : PortWorks s n p := by
  have port : ∀ k, n.port k = s.port k := fun k => by unfold State.port; rw [e]
  exact ⟨h, fun k _ => port k, by rw [port], by rw [port]⟩

theorem PortWorks.setPort {x : Port} (h1 : x.state = (s.port p).state) (h2 : x.linkDelay = (s.port p).linkDelay) : PortWorks s (s.setPort p x) p :=
  ⟨rfl, fun _ hk => State.port_setPort_ne s x hk, by rw [State.port_setPort, h1], by rw [State.port_setPort, h2]⟩
theorem PortWorks.modPort {f : Port → Port} (h1 : (f (s.port p)).state = (s.port p).state) (h2 : (f (s.port p)).linkDelay = (s.port p).linkDelay) : PortWorks s (s.modPort p f) p :=
  .setPort h1 h2

theorem State.raisePort_works (s : State) (p : Nat) (m : W32) : PortWorks s (s.raisePort p m) p := by
  refine PortWorks.trans (t := s.modPort p fun x => { x with evt := x.evt ||| m }) (.modPort rfl rfl) ?_
  obtain ⟨i, h⟩ := State.srcRose_eq s (s.modPort p fun x => { x with evt := x.evt ||| m }) (3954 + p)
  exact .of_ports (.of_irq ⟨i, h⟩) (congrArg State.ports h :)

/-- From `s` to `n` nothing changes but outputs, and the counts, records and events of the flits. -/
def PortsRest (s n : State) : Prop := { n with out := s.out, integ := s.integ, led := s.led, irq := s.irq } = s

theorem PortsRest.trans (h : PortsRest s t) (k : PortsRest t n) : PortsRest s n :=
  (congrArg (fun u : State => ({ u with out := s.out, integ := s.integ, led := s.led, irq := s.irq } : State)) k).trans h
theorem PortsRest.works (h : PortsRest s n) (p : Nat) : PortWorks s n p :=
  .of_ports (congrArg (fun u : State => ({ u with ports := s.ports } : State)) h :) (congrArg State.ports h :)

theorem State.event_portsRest (s : State) (c : BitVec 16) (v : List Byte) : PortsRest s (s.event c v) := by
  unfold State.event State.modLed
  obtain ⟨i, h⟩ := State.srcRose_eq s { s with led := if s.led.deferred.isEmpty && decide (1 + recParts v.length ≤ ledFree s.led) then ledRecordEvent s c v s.led
    else if s.led.deferred.length < 1024 then { s.led with deferred := s.led.deferred ++ [(c, v)] } else { s.led with eventsLost := s.led.eventsLost + 1 } } 3970
  rw [h]
  rfl

theorem State.integRecord_portsRest (s : State) (pt room code : Nat) (inj : Bool) (addr : Nat) : PortsRest s (s.integRecord pt room code inj addr) := by
  unfold State.integRecord
  refine PortsRest.trans ?_ (State.event_portsRest _ _ _)
  rfl

/-- A handover counts, and records a failure (R353). -/
theorem State.handover_portsRest (s : State) (pt room code addr : Nat) : PortsRest s (s.handover pt room code addr).2 := by
  unfold State.handover
  split
  · rfl
  · dsimp only
    split
    · refine PortsRest.trans ?_ (State.integRecord_portsRest _ _ _ _ _ _)
      rfl
    · rfl

theorem State.wireFlit_works (s : State) (p : Nat) (f : ReplayFlit) (q : Nat) : PortWorks s (s.wireFlit p f) q := by
  unfold State.wireFlit
  dsimp only
  split <;> exact .of_ports rfl rfl

theorem State.wireFlits_works (l : List ReplayFlit) (s : State) (p q : Nat) : PortWorks s (forL l (fun f s => s.wireFlit p f) s) q :=
  foldl_keeps (fun u => PortWorks s u q) (fun u f h => h.trans (u.wireFlit_works p f q)) l s (.refl s q)

theorem State.sendFlits_works (s : State) (p : Nat) (ks : List Packet) : PortWorks s (s.sendFlits p ks) p :=
  PortWorks.trans (t := s.setPort p { s.port p with txSeq := (s.port p).txSeq + BitVec.ofNat 12 (flitsOf (s.port p).txSeq ks).length, replayBuf := (s.port p).replayBuf ++ flitsOf (s.port p).txSeq ks })
    (.setPort rfl rfl) (State.wireFlits_works _ _ p p)

/-- Serving packets keeps the port's state and its link delay. -/
theorem takeReady_port (n : Nat) : ∀ (x : Port) (sent : Nat), (takeReady x sent n).2.state = x.state ∧ (takeReady x sent n).2.linkDelay = x.linkDelay := by
  induction n with
  | zero => exact fun x sent => ⟨rfl, rfl⟩
  | succ n ih =>
    intro x sent
    unfold takeReady
    split
    · exact ⟨rfl, rfl⟩
    · dsimp only
      split
      · exact ih _ _
      · exact ⟨rfl, rfl⟩

theorem State.pump_works (s : State) (p n : Nat) : PortWorks s (s.pump p n) p := by
  obtain ⟨h1, h2⟩ := takeReady_port n (s.port p) 0
  unfold State.pump
  split
  · exact .refl s p
  · rename_i e
    rw [e] at h1 h2
    exact PortWorks.trans (.setPort h1 h2) (State.sendFlits_works _ p _)

theorem State.enqueue_works (s : State) (p : Nat) (k : Packet) : PortWorks s (s.enqueue p k) p :=
  PortWorks.trans (.modPort rfl rfl) (State.pump_works _ p _)

theorem State.resend_works (s : State) (p : Nat) : PortWorks s (s.resend p) p := by
  unfold State.resend
  dsimp only
  split
  · exact .refl s p
  · exact PortWorks.trans (.modPort rfl rfl) (State.wireFlits_works _ _ p p)

theorem State.replayPort_works (s : State) (p : Nat) : PortWorks s (s.replayPort p) p := by
  unfold State.replayPort
  split
  · exact .refl s p
  · exact (s.raisePort_works p 64).trans (State.resend_works _ p)

theorem State.codewords_works (s : State) (p : Nat) (h : FlitHdr) : PortWorks s (s.codewords p h) p := by
  have count : ∀ u : State, PortWorks u (if h.corrected = 0 && h.uncorrectable = 0 then u
      else u.modCnt p fun c => { c with corrected := c.corrected + h.corrected.setWidth 64, uncorrectable := c.uncorrectable + h.uncorrectable.setWidth 64 }) p := fun u => by
    split
    · exact .refl u p
    · exact .modPort rfl rfl
  unfold State.codewords
  dsimp only
  split
  · exact count s
  · exact (count s).trans (State.raisePort_works _ p 128)

theorem State.takeReturns_works (s : State) (p : Nat) (h : FlitHdr) : PortWorks s (s.takeReturns p h) p := by
  unfold State.takeReturns
  dsimp only
  split
  · exact PortWorks.trans (.modPort rfl rfl) ((State.replayPort_works _ p).trans (State.pump_works _ p _))
  · exact PortWorks.trans (.modPort rfl rfl) (State.pump_works _ p _)

/-- A good flit whose codewords needed no correction is reported by none (R323). -/
theorem State.codewords_clean {h : FlitHdr} (hc : h.corrected = 0) (hu : h.uncorrectable = 0) : s.codewords p h = s := by
  simp [State.codewords, hc, hu]

theorem State.flood_linkOnly (s : State) (ty : Nat) (body : List Byte) (inPort : Nat) : LinkOnly s (s.flood ty body inPort) := by
  refine foldl_keeps (LinkOnly s) (fun u q h => h.trans ?_) _ s (.refl s)
  have hand := ((State.handover_portsRest u 5 255 0 0).works q).1
  dsimp only
  split
  · rename_i e
    rw [e] at hand
    exact hand
  · rename_i e
    rw [e] at hand
    exact hand.trans (State.enqueue_works _ q _).1

end Sys2Proof.Machine
end

section
/-! Sync words carry time, and elections find the keeper (R51 to R57, R334, R341). -/

namespace Sys2Proof.Machine

variable {s t : State} {x : ClockSource} {p : PortId} {w : SyncWord}

/-! ### A source that becomes present at a device of a larger domain (R42, R49) -/

/-- The device only marks the source, acquires, or moves to it. -/
theorem State.nowPresent_cases (ha : s.alone = false) (x : ClockSource) :
    let t := s.modClk fun c => putPresent c x true
    s.nowPresent x = t ∨ s.nowPresent x = t.acquire ∨ ∃ o, s.nowPresent x = t.moveTo x o := by
  unfold State.nowPresent
  dsimp only
  rw [State.ownKeeper_of_not_alone (s := s.modClk fun c => putPresent c x true) ha]
  split
  · split
    · exact .inr (.inl rfl)
    · exact .inl rfl
  · split
    · split
      · split
        · exact .inr (.inr ⟨_, rfl⟩)
        · exact .inl rfl
      · split
        · exact .inr (.inr ⟨_, rfl⟩)
        · exact .inl rfl
    · exact .inl rfl

theorem State.nowPresent_andFollowers (ha : s.alone = false) (x : ClockSource) : ClockAndFollowers s (s.nowPresent x) := by
  have mark : ClockAndFollowers s (s.modClk fun c => putPresent c x true) := (ClockOnly.modClk s _).andFollowers
  obtain h | h | ⟨o, h⟩ := State.nowPresent_cases ha x <;> rw [h]
  · exact mark
  · exact mark.trans (State.acquire_andFollowers _)
  · exact mark.trans (State.moveTo_andFollowers _ _ _)

theorem State.nowPresent_moves (ha : s.alone = false) (x : ClockSource) : SourceMoves (putPresent s.clk x true) (s.nowPresent x).clk := by
  obtain h | h | ⟨o, h⟩ := State.nowPresent_cases ha x <;> rw [h]
  · exact .refl _
  · exact State.acquire_moves (s.modClk fun c => putPresent c x true)
  · exact State.moveTo_moves (s.modClk fun c => putPresent c x true) x o

theorem putPresent_state (c : Clock) (x : ClockSource) (b : Bool) : (putPresent c x b).state = c.state := by cases x <;> rfl

theorem State.nowPresent_of_locked (ha : s.alone = false) (hl : s.clk.state = .locked) (x : ClockSource) : s.nowPresent x = s.modClk fun c => putPresent c x true := by
  have hs : (s.modClk fun c => putPresent c x true).clk.state = .locked := (putPresent_state s.clk x true).trans hl
  unfold State.nowPresent
  dsimp only
  rw [State.ownKeeper_of_not_alone (s := s.modClk fun c => putPresent c x true) ha, State.posValid_of_locked hs, if_neg (by decide), if_neg (by rw [hs]; simp)]

/-- A device that is too far from its keeper, and is not keeper, takes nothing of the fabric but its mark (R57). -/
theorem State.nowPresent_of_tooFar (ha : s.alone = false) (hk : s.clk.keeper = false) (hf : s.clk.tooFar = true) :
    (s.nowPresent .fabric).clk.state = s.clk.state ∧ (s.nowPresent .fabric).clk.pos = s.clk.pos := by
  have none : ∀ u : State, u.clk.tooFar = true → u.toAcquire = none := fun u h => by simp [State.toAcquire, h]
  unfold State.nowPresent
  dsimp only
  rw [State.ownKeeper_of_not_alone (s := s.modClk fun c => putPresent c .fabric true) ha]
  have hK : (s.modClk fun c => putPresent c .fabric true).isKeeper = false := by rw [State.isKeeper_eq, State.modClk_alone, ha]; exact hk
  cases hv : (s.modClk fun c => putPresent c .fabric true).posValid with
  | false =>
    rw [if_pos (by decide), hK, Bool.or_false]
    split
    · rw [State.acquire_of_none hv (none _ hf)]; exact ⟨rfl, rfl⟩
    · exact ⟨rfl, rfl⟩
  | true =>
    rw [if_neg (by decide), hK]
    split
    · rw [if_neg (by decide), if_neg (by simp [State.modClk, putPresent, hf])]; exact ⟨rfl, rfl⟩
    · exact ⟨rfl, rfl⟩

/-! ### A source that is left where nothing else can be followed (R44, R49) -/

theorem State.leaveSource_without (hk : s.isKeeper = false) (ha : s.toAcquire = none) (x : ClockSource) :
    ClockOnly s (s.leaveSource x) ∧ (s.leaveSource x).clk.pos = s.clk.pos ∧
      (s.leaveSource x).clk.state = if s.clk.state = .locked ∧ s.clk.src = some x then .holdover else s.clk.state := by
  by_cases hs : s.clk.src = some x
  · cases hv : s.posValid with
    | false =>
      rw [State.leaveSource_acquires hs hv, State.acquire_of_none hv ha, if_neg]
      · exact ⟨rfl, rfl, rfl⟩
      · rintro ⟨h, -⟩
        rw [State.posValid_of_locked h] at hv
        cases hv
    | true =>
      rw [State.leaveSource_stays hs hv (.inl hk)]
      obtain ⟨h1, -, h3⟩ := State.dropSource_of_valid hv
      refine ⟨s.dropSource_clockOnly, h3, h1.trans ?_⟩
      obtain h | h := State.posValid_iff.1 hv
      · rw [if_pos ⟨h, hs⟩]
      · rw [h, ite_self]
  · rw [State.leaveSource_of_ne hs, if_neg (fun h => hs h.2)]
    exact ⟨.refl s, rfl, rfl⟩

/-! ### The parent (R52) -/

/-- What a device knows of the keeper of `w`, heard through port `p` at `h` hops (R52). -/
def Clock.underParent (c : Clock) (p h : Nat) (w : SyncWord) : Clock :=
  { c with keeper := false, heard := true, keeperNo := w.keeper, keeperEpoch := w.epoch, heartbeat := w.heartbeat, keeperState := w.state,
           parentPort := BitVec.ofNat 8 p, hops := BitVec.ofNat 8 h, election := none, tooFar := 64 < h }

theorem State.takeParent_near {h : Nat} (hh : h ≤ 64) : s.takeParent p h w = s.modClk fun c => c.underParent p h w := if_neg (Nat.not_lt.2 hh)
theorem State.takeParent_far {h : Nat} (hh : 64 < h) : s.takeParent p h w = (s.modClk fun c => c.underParent p h w).leaveSource .fabric := if_pos hh

theorem State.takeParent_andFollowers (s : State) (p h : Nat) (w : SyncWord) : ClockAndFollowers s (s.takeParent p h w) := by
  unfold State.takeParent
  dsimp only
  split
  · exact (ClockOnly.modClk s _).andFollowers.trans (State.leaveSource_andFollowers _ _)
  · exact (ClockOnly.modClk s _).andFollowers

theorem State.takeParent_moves (s : State) (p h : Nat) (w : SyncWord) : SourceMoves (s.clk.underParent p h w) (s.takeParent p h w).clk := by
  unfold State.takeParent
  dsimp only
  split
  · exact State.leaveSource_moves (s.modClk fun c => c.underParent p h w) .fabric
  · exact .refl _

theorem SourceMoves.putPresent {c d : Clock} (h : SourceMoves c d) (x : ClockSource) (b : Bool) : SourceMoves (putPresent c x b) (putPresent d x b) := by
  obtain ⟨h, m, hm⟩ := h
  cases x with
  | synthetic => exact ⟨h, m, hm⟩
  | analog => exact ⟨(congrArg (fun z : Clock => ({ z with presentAnalog := b } : Clock)) h :), m, hm⟩
  | ptp => exact ⟨(congrArg (fun z : Clock => ({ z with presentPtp := b } : Clock)) h :), m, hm⟩
  | fabric => exact ⟨(congrArg (fun z : Clock => ({ z with presentFabric := b } : Clock)) h :), m, hm⟩

/-- The fabric is followed under a parent: what the device knows of its keeper, with the fabric present. -/
theorem State.underParent_moves (ha : s.alone = false) (p h : Nat) (w : SyncWord) :
    SourceMoves (putPresent (s.clk.underParent p h w) .fabric true) ((s.takeParent p h w).nowPresent .fabric).clk :=
  ((s.takeParent_moves p h w).putPresent .fabric true).trans
    (State.nowPresent_moves (s := s.takeParent p h w) (by rw [State.alone_of_ent (s.takeParent_andFollowers p h w).ent, ha]) .fabric)

theorem State.underParent_andFollowers (ha : s.alone = false) (p h : Nat) (w : SyncWord) : ClockAndFollowers s ((s.takeParent p h w).nowPresent .fabric) :=
  (s.takeParent_andFollowers p h w).trans (State.nowPresent_andFollowers (s := s.takeParent p h w) (by rw [State.alone_of_ent (s.takeParent_andFollowers p h w).ent, ha]) .fabric)

/-! ### The keeper's state and its steps (R46, R55) -/

theorem State.raisePos_moves (s : State) (m : W32) : SourceMoves s.clk (s.raisePos m).clk := by rw [State.raisePos_clk]; exact ⟨rfl, m, rfl⟩

theorem State.followKeeper_of_other (hs : s.clk.src = some .fabric) (hl : s.clk.state = .locked) (hw : s.clk.keeperState ≠ 2) :
    s.followKeeper = (s.modClk fun c => { c with state := .holdover }).raisePos 2 := if_pos (by simp only [hs, hl, decide_true, Bool.true_and, decide_eq_true hw])
theorem State.followKeeper_of_locked (hw : s.clk.keeperState = 2) : s.followKeeper = s := if_neg (by simp [hw])

theorem State.followKeeper_clockOnly (s : State) : ClockOnly s s.followKeeper := by
  unfold State.followKeeper
  split
  · exact (ClockOnly.modClk s _).trans (State.raisePos_clockOnly _ 2)
  · exact .refl s
theorem State.followKeeper_moves (s : State) : SourceMoves s.clk s.followKeeper.clk := by
  unfold State.followKeeper
  split
  · rw [State.raisePos_clk]; exact ⟨rfl, 2, rfl⟩
  · exact .refl _

theorem State.followStep_cases (s : State) (p : Nat) (w : SyncWord) : s.followStep p w = s ∨ s.followStep p w = s.steppedTo (addTicks s.lpf s.tpl (s.delayTicks p) w.pos) := by
  unfold State.followStep
  dsimp only
  split
  · exact .inr rfl
  · exact .inl rfl
theorem State.followStep_steps (hw : w.valid = true) (hl : posLine w.pos < s.lpf) (ht : posTick w.pos < s.tpl) (hv : s.posValid = true) (hs : s.clk.src = some .fabric)
    (ha : posAhead (addTicks s.lpf s.tpl (s.delayTicks p) w.pos) s.clk.pos = true) : s.followStep p w = s.steppedTo (addTicks s.lpf s.tpl (s.delayTicks p) w.pos) :=
  if_pos (by simp [hw, hv, hs, ha, posHeld_iff, hl, ht])

theorem State.steppedTo_moves (s : State) (q : Pos) : SourceMoves s.clk (s.steppedTo q).clk := by rw [State.steppedTo_clk]; exact ⟨rfl, 16, rfl⟩

theorem State.followStep_moves (s : State) (p : Nat) (w : SyncWord) : SourceMoves s.clk (s.followStep p w).clk := by
  obtain h | h := s.followStep_cases p w <;> rw [h]
  · exact .refl _
  · exact s.steppedTo_moves _
theorem State.followStep_andFollowers (s : State) (p : Nat) (w : SyncWord) : ClockAndFollowers s (s.followStep p w) := by
  obtain h | h := s.followStep_cases p w <;> rw [h]
  · exact .refl _
  · exact s.steppedTo_andFollowers _

/-- The link delay in ticks is read from the port and the settings. -/
theorem State.delayTicks_of_same (he : t.ent = s.ent) (hp : t.ports = s.ports) (p : Nat) : t.delayTicks p = s.delayTicks p := by
  unfold State.delayTicks State.port
  rw [State.cfgN_of_ent he, State.cfgN_of_ent he, State.lpf_of_ent he, State.tpl_of_ent he, hp]

/-! ### A sync word is taken (R52, R53, R56, R57) -/

theorem State.sameKeeper_of_parent (hp : s.clk.parentPort.toNat = p.val ∨ s.clk.parentPort = 255) (step : Bool) :
    s.sameKeeper p w step =
      if step then (((s.takeParent p (w.hops.toNat + 1) w).nowPresent .fabric).followKeeper).followStep p w else ((s.takeParent p (w.hops.toNat + 1) w).nowPresent .fabric).followKeeper := by
  unfold State.sameKeeper
  dsimp only
  refine if_pos ?_
  obtain h | h := hp <;> simp [h]

theorem State.sameKeeper_andFollowers (ha : s.alone = false) (p : Nat) (w : SyncWord) (step : Bool) : ClockAndFollowers s (s.sameKeeper p w step) := by
  have follow : ClockAndFollowers s (((s.takeParent p (w.hops.toNat + 1) w).nowPresent .fabric).followKeeper) := (State.underParent_andFollowers ha p _ w).trans (State.followKeeper_clockOnly _).andFollowers
  unfold State.sameKeeper
  dsimp only
  split
  · split
    · exact follow.trans (State.followStep_andFollowers _ p w)
    · exact follow
  · exact .refl s

theorem State.sameKeeper_moves (ha : s.alone = false) (hp : s.clk.parentPort.toNat = p.val ∨ s.clk.parentPort = 255) (step : Bool) :
    SourceMoves (putPresent (s.clk.underParent p (w.hops.toNat + 1) w) .fabric true) (s.sameKeeper p w step).clk := by
  have follow := (State.underParent_moves ha p (w.hops.toNat + 1) w).trans (State.followKeeper_moves _)
  rw [State.sameKeeper_of_parent hp]
  split
  · exact follow.trans (State.followStep_moves _ p w)
  · exact follow

/-- A LOCKED clock under its parent, before its keeper's state reaches it. -/
theorem State.underParent_of_locked (ha : s.alone = false) (hl : s.clk.state = .locked) (hh : w.hops.toNat < 64) :
    (s.takeParent p (w.hops.toNat + 1) w).nowPresent .fabric = s.modClk fun c => putPresent (c.underParent p (w.hops.toNat + 1) w) .fabric true := by
  rw [State.takeParent_near hh, State.nowPresent_of_locked (s := s.modClk fun c => c.underParent p (w.hops.toNat + 1) w) ha hl]
  rfl

theorem State.sameKeeper_holds_over (ha : s.alone = false) (hp : s.clk.parentPort.toNat = p.val ∨ s.clk.parentPort = 255) (hh : w.hops.toNat < 64) (hs : s.clk.src = some .fabric)
    (hl : s.clk.state = .locked) (hw : w.state ≠ 2) :
    (s.sameKeeper p w false).clk.state = .holdover ∧ (s.sameKeeper p w false).clk.evt = s.clk.evt ||| 2 ∧ (s.sameKeeper p w false).clk.pos = s.clk.pos := by
  rw [State.sameKeeper_of_parent hp, if_neg (by decide), State.underParent_of_locked ha hl hh,
    State.followKeeper_of_other (s := s.modClk fun c => putPresent (c.underParent p (w.hops.toNat + 1) w) .fabric true) hs hl hw, State.raisePos_clk]
  exact ⟨rfl, rfl, rfl⟩

theorem State.sameKeeper_steps (ha : s.alone = false) (hp : s.clk.parentPort.toNat = p.val ∨ s.clk.parentPort = 255) (hh : w.hops.toNat < 64) (hs : s.clk.src = some .fabric)
    (hl : s.clk.state = .locked) (hw : w.state = 2) (hv : w.valid = true) (hln : posLine w.pos < s.lpf) (ht : posTick w.pos < s.tpl)
    (hah : posAhead (addTicks s.lpf s.tpl (s.delayTicks p) w.pos) s.clk.pos = true) :
    (s.sameKeeper p w true).clk.state = .locked ∧ (s.sameKeeper p w true).clk.pos = addTicks s.lpf s.tpl (s.delayTicks p) w.pos ∧ (s.sameKeeper p w true).clk.evt = s.clk.evt ||| 16 := by
  rw [State.sameKeeper_of_parent hp, if_pos rfl, State.underParent_of_locked ha hl hh,
    State.followKeeper_of_locked (s := s.modClk fun c => putPresent (c.underParent p (w.hops.toNat + 1) w) .fabric true) hw,
    State.followStep_steps (s := s.modClk fun c => putPresent (c.underParent p (w.hops.toNat + 1) w) .fabric true) hv hln ht (State.posValid_of_locked hl) hs hah, State.steppedTo_clk]
  exact ⟨hl, rfl, rfl⟩

theorem State.otherKeeper_andFollowers (ha : s.alone = false) (p : Nat) (w : SyncWord) : ClockAndFollowers s (s.otherKeeper p w) := by
  have raised : ∀ (u : State) (m : W32), ClockAndFollowers u (u.raisePos m) := fun u m => (u.raisePos_clockOnly m).andFollowers
  unfold State.otherKeeper
  dsimp only
  split
  · split
    · have h : ClockAndFollowers s (((s.holdover.modClk fun c => { c with src := none }).takeParent p (w.hops.toNat + 1) w).raisePos 128) :=
        ((s.holdover_clockOnly.trans (ClockOnly.modClk _ _)).andFollowers.trans (State.takeParent_andFollowers _ p _ w)).trans (raised _ 128)
      exact h.trans (State.nowPresent_andFollowers (by rw [State.alone_of_ent h.ent, ha]) .fabric)
    · exact .refl s
  · split
    · split
      · exact State.underParent_andFollowers ha p _ w
      · exact (State.underParent_andFollowers ha p _ w).trans (raised _ 8)
    · exact .refl s

/-- A device without a keeper takes that of the word, at a later epoch than it knows (R56). -/
theorem State.otherKeeper_of_none (hk : s.clk.keeper = false) (hd : s.clk.heard = false) (he : s.clk.keeperEpoch = 0) (hw : w.epoch ≠ 0) :
    s.otherKeeper p w = ((s.takeParent p (w.hops.toNat + 1) w).nowPresent .fabric).raisePos 8 := by
  have pos : 0 < w.epoch.toNat := Nat.pos_of_ne_zero fun h => hw (BitVec.eq_of_toNat_eq h)
  unfold State.otherKeeper
  dsimp only
  rw [if_neg (by simp [State.keeperAlive, hk, hd]), if_pos (by simp [he, pos]), if_neg]
  simp only [he, Bool.and_eq_true, decide_eq_true_eq]
  exact fun h => hw h.2.symm

theorem State.otherKeeper_tooFar (ha : s.alone = false) (hk : s.clk.keeper = false) (hd : s.clk.heard = false) (he : s.clk.keeperEpoch = 0) (hw : w.epoch ≠ 0) (hh : w.hops.toNat = 64) :
    (s.otherKeeper p w).clk.pos = s.clk.pos ∧ (s.otherKeeper p w).clk.state = if s.clk.state = .locked ∧ s.clk.src = some .fabric then .holdover else s.clk.state := by
  have far : 64 < w.hops.toNat + 1 := by omega
  have moves := s.takeParent_moves p (w.hops.toNat + 1) w
  obtain ⟨-, h2, h3⟩ := State.leaveSource_without (s := s.modClk fun c => c.underParent p (w.hops.toNat + 1) w) (by rw [State.isKeeper_eq, State.modClk_alone, ha]; rfl)
    (by simp [State.toAcquire, State.modClk, Clock.underParent, hh]) .fabric
  rw [← State.takeParent_far far] at h2 h3
  obtain ⟨h4, h5⟩ := State.nowPresent_of_tooFar (s := s.takeParent p (w.hops.toNat + 1) w) (by rw [State.alone_of_ent (s.takeParent_andFollowers p _ w).ent, ha]) moves.keeper
    (moves.tooFar.trans (decide_eq_true far))
  rw [State.otherKeeper_of_none hk hd he hw, State.raisePos_clk]
  exact ⟨h5.trans h2, h4.trans h3⟩

theorem State.parentLost_andFollowers (s : State) (p : Nat) : ClockAndFollowers s (s.parentLost p) := by
  unfold State.parentLost
  split
  · exact (s.nowLost_andFollowers .fabric).trans (ClockOnly.modClk _ _).andFollowers
  · exact .refl s

/-- The times of a sync word at port `p`, and the link delay that they give (R53, R341). -/
def State.timesTaken (s : State) (p : Nat) (w : SyncWord) (tRx : W64) : State :=
  s.modPort p fun x => { x with lastTxTs := w.txTs, lastRxAt := tRx, syncGot := true, linkDelay := if w.echoTs = 0 then x.linkDelay else s.linkDelayOf p w tRx }

theorem State.timesTaken_alone (s : State) (p : Nat) (w : SyncWord) (tRx : W64) : (s.timesTaken p w tRx).alone = s.alone := rfl

section
variable {tRx : W64} {step : Bool}

theorem State.takeSyncWord_alone (ha : s.alone = true) : s.takeSyncWord p w tRx step = s.timesTaken p w tRx := if_pos ha

variable (ha : s.alone = false)
include ha

theorem State.takeSyncWord_eq : s.takeSyncWord p w tRx step =
    if w.hops = 255 then (s.timesTaken p w tRx).parentLost p
    else if s.clk.heard = true ∧ w.keeper = s.clk.keeperNo ∧ s.clk.keeper = false then (s.timesTaken p w tRx).sameKeeper p w step
    else if s.clk.keeper = true ∧ w.keeper = s.clk.keeperNo then s.timesTaken p w tRx
    else (s.timesTaken p w tRx).otherKeeper p w := by
  have run : s.takeSyncWord p w tRx step = if (s.timesTaken p w tRx).alone then s.timesTaken p w tRx
      else if w.hops = 255 then (s.timesTaken p w tRx).parentLost p
      else if s.clk.heard && w.keeper = s.clk.keeperNo && !s.clk.keeper then (s.timesTaken p w tRx).sameKeeper p w step
      else if s.clk.keeper && w.keeper = s.clk.keeperNo then s.timesTaken p w tRx
      else (s.timesTaken p w tRx).otherKeeper p w := rfl
  rw [run, State.timesTaken_alone, ha, if_neg (by decide)]
  simp only [Bool.and_eq_true, Bool.not_eq_true', decide_eq_true_eq, and_assoc]

theorem State.takeSyncWord_andFollowers : ClockAndFollowers (s.timesTaken p w tRx) (s.takeSyncWord p w tRx step) := by
  rw [State.takeSyncWord_eq ha]
  split
  · exact State.parentLost_andFollowers _ p
  · split
    · exact State.sameKeeper_andFollowers (s := s.timesTaken p w tRx) ha p w step
    · split
      · exact .refl _
      · exact State.otherKeeper_andFollowers (s := s.timesTaken p w tRx) ha p w

end

end Sys2Proof.Machine
end

section
/-! Sync words are sent and received, and the keeper is elected (R51 to R57, R334, R341). -/

namespace Sys2Proof.Machine

variable {s t : State} {x : ClockSource} {p : PortId} {w : SyncWord} {h : FlitHdr} {pl : List Byte} {ts rx : W64} {step : Bool}

/-! ### SYNC_WORD_SEND and SYNC_WORD (R53, R326, R341) -/

theorem syncWordSend_not_up (hp : (s.port p).state ≠ .up) : exec (.syncWordSend p ts) s = .next s := congrArg Host.Outcome.next (if_pos hp)
theorem syncWord_not_up (hp : (s.port p).state ≠ .up) : exec (.syncWord p h pl rx step) s = .next s :=
  congrArg Host.Outcome.next ((congrArg (settle s) (if_pos hp)).trans (settle_self s))

/-- The sync word that port `p` sends at `ts` (R341). -/
def State.syncOf (s : State) (p : PortId) (ts : W64) : SyncWord :=
  { pos := s.clk.pos, txTs := ts, echoTs := if (s.port p).syncGot = true then (s.port p).lastTxTs else 0, echoHold := if (s.port p).syncGot = true then ts - (s.port p).lastRxAt else 0,
    keeper := s.clk.keeperNo, epoch := s.clk.keeperEpoch, heartbeat := s.clk.heartbeat, hops := if s.clk.parentPort = 255 then 255 else s.clk.hops, state := s.clk.keeperState, valid := s.posValid }

theorem syncWordSend_keeper (hp : (s.port p).state = .up) (hk : s.isKeeper = true) :
    exec (.syncWordSend p ts) s = .next { s with clk := { s.clk with heartbeat := s.clk.heartbeat + 1 }, out := s.out ++ [.sync p (syncPayload { (s.syncOf p ts) with heartbeat := s.clk.heartbeat + 1, hops := 0, state := BitVec.ofNat 2 (clockCode s.clk.state) })] } := by
  show execSyncWordSend p ts s = _
  unfold execSyncWordSend
  dsimp only
  rw [if_neg (not_not_intro hp), hk]
  rfl

theorem syncWordSend_other (hp : (s.port p).state = .up) (hk : s.isKeeper = false) :
    exec (.syncWordSend p ts) s = .next { s with out := s.out ++ [.sync p (syncPayload (s.syncOf p ts))] } := by
  show execSyncWordSend p ts s = _
  unfold execSyncWordSend
  dsimp only
  rw [if_neg (not_not_intro hp), hk]
  rfl

theorem exec_syncWord_bad (hp : (s.port p).state = .up) (hl : h.lcrcOk = false) (hc : h.corrected = 0) (hu : h.uncorrectable = 0) (hb : (s.port p).badRun < 15) :
    exec (.syncWord p h pl rx step) s = .next (settle s (s.badFlit p)) := by
  have few : ¬ 16 ≤ ((s.badFlit p).port p).badRun := by
    unfold State.badFlit State.modCnt
    rw [State.port_modPort, State.port_modPort]
    dsimp only
    omega
  show execSyncWord p h pl rx step s = _
  unfold execSyncWord
  rw [if_neg (not_not_intro hp), State.codewords_clean hc hu, hl]
  unfold State.lcrcBad
  dsimp only
  rw [if_pos (by decide), if_neg (by simp [few])]

/-- One flit that fails its LCRC is counted at its port, and nothing else changes (R326, R352). -/
theorem syncWord_bad (hp : (s.port p).state = .up) (hl : h.lcrcOk = false) (hc : h.corrected = 0) (hu : h.uncorrectable = 0) (hb : (s.port p).badRun < 15) :
    LeavesPort s (.syncWord p h pl rx step) p { s.port p with badRun := (s.port p).badRun + 1, cnt := { (s.port p).cnt with lcrc := (s.port p).cnt.lcrc + 1 } } s.out := by
  obtain ⟨i, hi⟩ := settle_eq s (s.badFlit p)
  have port : ∀ k, (settle s (s.badFlit p)).port k = (s.badFlit p).port k := fun k => by rw [hi]; rfl
  refine ⟨_, exec_syncWord_bad hp hl hc hu hb, ?_, fun k hk => ?_, ?_, ?_⟩
  · rw [port]
    unfold State.badFlit State.modCnt
    rw [State.port_modPort, State.port_modPort]
  · rw [port]
    unfold State.badFlit State.modCnt
    rw [State.port_modPort_ne _ _ hk, State.port_modPort_ne _ _ hk]
  · rw [settle_out]; rfl
  · rw [hi]; rfl

/-- The state in which the ACK, NAK and credits of a flit have been taken, before its payload. -/
def State.flitTaken (s : State) (p : Nat) (h : FlitHdr) : State := (s.codewords p h).takeReturns p h

theorem State.flitTaken_works (s : State) (p : Nat) (h : FlitHdr) : PortWorks s (s.flitTaken p h) p := (s.codewords_works p h).trans (State.takeReturns_works _ p h)

theorem exec_syncWord_good (hp : (s.port p).state = .up) (hl : h.lcrcOk = true) :
    exec (.syncWord p h pl rx step) s = .next (settle s ((s.flitTaken p h).takeSyncWord p (readSync pl) rx step)) := by
  show execSyncWord p h pl rx step s = _
  unfold execSyncWord
  rw [if_neg (not_not_intro hp), hl]
  rfl

/-- A sync word is taken at its port, and by the clock and what follows it. -/
theorem State.takeSyncWord_frame (s : State) (p : PortId) (w : SyncWord) (rx : W64) (step : Bool) : ClockAndFollowers (s.timesTaken p w rx) (s.takeSyncWord p w rx step) := by
  cases ha : s.alone with
  | true => rw [State.takeSyncWord_alone ha]; exact .refl _
  | false => exact State.takeSyncWord_andFollowers ha

section
variable (hp : (s.port p).state = .up) (hl : h.lcrcOk = true)
include hp hl

/-- What a good sync word leaves of the ports (R53, R326, R341). -/
theorem syncWord_ports : ∃ n, exec (.syncWord p h pl rx step) s = .next n ∧ n.clk = ((s.flitTaken p h).takeSyncWord p (readSync pl) rx step).clk ∧
    n.ent = s.ent ∧ n.ports = ((s.flitTaken p h).timesTaken p (readSync pl) rx).ports ∧ (∀ k, k ≠ p.val → n.port k = s.port k) ∧
    (n.port p).state = .up ∧ (n.port p).lastTxTs = (readSync pl).txTs ∧ (n.port p).lastRxAt = rx ∧ (n.port p).syncGot = true ∧
    (n.port p).linkDelay = if (readSync pl).echoTs = 0 then (s.port p).linkDelay else s.linkDelayOf p (readSync pl) rx := by
  obtain ⟨link, other, state, delay⟩ := s.flitTaken_works p h
  have frame := (s.flitTaken p h).takeSyncWord_frame p (readSync pl) rx step
  obtain ⟨i, hi⟩ := settle_eq s ((s.flitTaken p h).takeSyncWord p (readSync pl) rx step)
  have ports : (settle s ((s.flitTaken p h).takeSyncWord p (readSync pl) rx step)).ports = ((s.flitTaken p h).timesTaken p (readSync pl) rx).ports := by rw [hi]; exact frame.ports
  have port : ∀ k, (settle s ((s.flitTaken p h).takeSyncWord p (readSync pl) rx step)).port k = ((s.flitTaken p h).timesTaken p (readSync pl) rx).port k := fun k => by
    unfold State.port; rw [ports]
  have delayOf : (s.flitTaken p h).linkDelayOf p (readSync pl) rx = s.linkDelayOf p (readSync pl) rx := by unfold State.linkDelayOf; rw [State.cfgN_of_ent link.ent]
  have own : ((s.flitTaken p h).timesTaken p (readSync pl) rx).port p = { (s.flitTaken p h).port p with
      lastTxTs := (readSync pl).txTs, lastRxAt := rx, syncGot := true, linkDelay := if (readSync pl).echoTs = 0 then (s.port p).linkDelay else s.linkDelayOf p (readSync pl) rx } := by
    unfold State.timesTaken
    rw [State.port_modPort, delay, delayOf]
  refine ⟨_, exec_syncWord_good hp hl, settle_clk _ _, ?_, ports, fun k hk => ?_, ?_⟩
  · rw [hi]; exact frame.ent.trans link.ent
  · rw [port, ← other k hk]; exact State.port_modPort_ne _ _ hk
  · rw [port, own]
    exact ⟨state.trans hp, rfl, rfl, rfl, rfl⟩

end

/-! ### KEEPER_LOST (R56) -/

theorem State.eligible_iff : s.eligible = true ↔ s.cfgN 0x2030 1 = 1 ∧ (s.posValid = true ∨ s.clk.keeperEpoch = 0) := by simp [State.eligible]

/-- The clock of a device that has lost its keeper, before its candidacy (R56). -/
def State.keeperGone (s : State) : State := (s.nowLost .fabric).modClk fun c => { c with keeper := false, heard := false, parentPort := 255 }

/-- What losing its keeper leaves of a device that is not keeper. -/
theorem State.keeperGone_clk (hk : s.isKeeper = false) : ClockOnly s s.keeperGone ∧ s.keeperGone.clk.pos = s.clk.pos ∧
    s.keeperGone.clk.state = (if s.clk.state = .locked ∧ s.clk.src = some .fabric then .holdover else s.clk.state) ∧ s.keeperGone.clk.presentFabric = false ∧
    s.keeperGone.clk.election = s.clk.election ∧ s.keeperGone.clk.keeperEpoch = s.clk.keeperEpoch := by
  have none : (s.markLost .fabric).toAcquire = none := by
    unfold State.toAcquire
    rw [State.markLost_isKeeper, hk]
    split <;> rfl
  obtain ⟨h1, h2, h3⟩ := State.leaveSource_without (by rw [State.markLost_isKeeper, hk]) none .fabric
  have moves := s.nowLost_moves .fabric
  rw [← State.nowLost_eq] at h1 h2 h3
  rw [State.markLost_state, State.markLost_src] at h3
  exact ⟨((s.markLost_clockOnly .fabric).trans h1).trans (ClockOnly.modClk _ _), h2.trans (s.markLost_pos .fabric), h3, moves.presentFabric, moves.election, moves.keeperEpoch⟩

theorem State.keeperGone_eligible (hk : s.isKeeper = false) : s.keeperGone.eligible = s.eligible := by
  obtain ⟨h1, -, h3, -, -, h6⟩ := State.keeperGone_clk hk
  have valid : s.keeperGone.posValid = s.posValid := by
    rw [Bool.eq_iff_iff, State.posValid_iff, State.posValid_iff, h3]
    split
    · rename_i e; simp [e.1]
    · rfl
  unfold State.eligible
  rw [State.cfgN_of_ent h1.andFollowers.ent, valid, h6]

theorem State.startElection_clk (hk : s.isKeeper = false) :
    s.startElection.clk = { s.keeperGone.clk with election := lowestSeen s.clk.election (if s.cfgN 0x2030 1 = 1 ∧ (s.posValid = true ∨ s.clk.keeperEpoch = 0) then BitVec.ofNat 16 s.devNo else 0xFFFF) } ∧
      s.startElection.rooms = s.rooms ∧ s.startElection.tal = s.tal := by
  obtain ⟨h1, -, -, -, h5, -⟩ := State.keeperGone_clk hk
  have run : s.startElection = if s.keeperGone.eligible then
        (s.keeperGone.modClk fun c => { c with election := lowestSeen c.election (BitVec.ofNat 16 s.keeperGone.devNo) }).flood 8 (candidacyBody (BitVec.ofNat 16 s.keeperGone.devNo) s.keeperGone.clk.keeperEpoch) 255
      else s.keeperGone.modClk fun c => { c with election := lowestSeen c.election 0xFFFF } := rfl
  rw [run, State.keeperGone_eligible hk]
  split
  · rename_i e
    have flood := State.flood_linkOnly (s.keeperGone.modClk fun c => { c with election := lowestSeen c.election (BitVec.ofNat 16 s.keeperGone.devNo) }) 8
      (candidacyBody (BitVec.ofNat 16 s.keeperGone.devNo) s.keeperGone.clk.keeperEpoch) 255
    rw [flood.clk, flood.rooms, flood.tal, if_pos (State.eligible_iff.1 e), ← h5, ← State.devNo_of_ent h1.andFollowers.ent]
    exact ⟨rfl, h1.rooms, h1.andFollowers.tal⟩
  · rename_i e
    rw [if_neg (fun c => e (State.eligible_iff.2 c)), ← h5]
    exact ⟨rfl, h1.rooms, h1.andFollowers.tal⟩

theorem exec_keeperLost (s : State) : exec .keeperLost s = .next (settle s (if s.isKeeper then s else s.startElection)) := rfl

theorem keeperLost_keeper (hk : s.isKeeper = true) : exec .keeperLost s = .next s := by rw [exec_keeperLost, if_pos hk, settle_self]

theorem keeperLost_other (hk : s.isKeeper = false) : ∃ n, exec .keeperLost s = .next n ∧ n.clk.parentPort = 255 ∧ n.clk.heard = false ∧ n.clk.presentFabric = false ∧ n.clk.pos = s.clk.pos ∧
    n.rooms = s.rooms ∧ n.tal = s.tal ∧ n.clk.state = (if s.clk.state = .locked ∧ s.clk.src = some .fabric then .holdover else s.clk.state) ∧
    n.clk.election = lowestSeen s.clk.election (if s.cfgN 0x2030 1 = 1 ∧ (s.posValid = true ∨ s.clk.keeperEpoch = 0) then BitVec.ofNat 16 s.devNo else 0xFFFF) := by
  obtain ⟨-, h2, h3, h4, -, -⟩ := State.keeperGone_clk hk
  obtain ⟨hc, hr, ht⟩ := State.startElection_clk hk
  refine ⟨settle s s.startElection, by rw [exec_keeperLost, hk]; rfl, ?_⟩
  rw [settle_clk, settle_rooms, settle_tal, hc, hr, ht]
  exact ⟨rfl, rfl, h4, h2, rfl, rfl, h3, rfl⟩

/-! ### CANDIDACY (R56, R334) -/

theorem State.activity_quiet (hn : s.pow.neg = none) (b : Nat) (q : Bool) : s.activity b q = s := by unfold State.activity; rw [hn]

/-- Taking a packet gives its credits back. -/
theorem State.takeArrived_eq (hn : s.pow.neg = none) (e : Nat × Packet) : s.takeArrived e = taken s e [] := by
  have still : ∀ u : State, u.pow.neg = none → (if e.2.dst.toNat = u.devNo then u.activity 8 false else u) = u := fun u hu => by
    rw [State.activity_quiet hu, ite_self]
  unfold State.takeArrived taken
  dsimp only
  rw [still { s with fab := { s.fab with arrived := dropArrived e s.fab.arrived } } hn]
  rfl

theorem taken_counted (s : State) (e : Nat × Packet) (pt : Nat) : { taken s e [] with integ := countHand (taken s e []).integ pt false } = taken s e [pt] := by
  unfold taken State.giveCredits
  dsimp only
  split
  · split
    · rename_i h; exact (if_pos h).symm
    · rename_i h; exact (if_neg h).symm
  · rfl

theorem taken_integ (s : State) (e : Nat × Packet) : (taken s e []).integ = s.integ := by
  unfold taken State.giveCredits
  dsimp only
  split
  · split <;> rfl
  · rfl
theorem taken_clk (s : State) (e : Nat × Packet) (pts : List Nat) : (taken s e pts).clk = s.clk := by
  unfold taken State.giveCredits
  dsimp only
  split
  · split <;> rfl
  · rfl

/-- A packet whose PCHK is right passes point 7 where no injection is armed (R353, R359). -/
theorem State.takeArrived_point7 {e : Nat × Packet} (hn : s.pow.neg = none) (hc : e.2.pchk = packetCheck e.2) (hu : Uninjected s 7 255) :
    (s.takeArrived e).point7 e.2 255 0 = (some .ok, taken s e [7]) := by
  have ok : (taken s e []).handover 7 255 0 e.2.addr.toNat = (.ok, taken s e [7]) := by
    unfold State.handover
    rw [taken_integ, show armedAt s.integ 7 255 [1, 2, 3] = none from hu, ← taken_counted, taken_integ]
  unfold State.point7
  rw [State.takeArrived_eq hn, if_neg (not_not_intro hc), ok]

section
variable {dev : BitVec 16} {epoch : W32} {e : Nat × Packet}

/-- The highest epoch of an origin that the device has seen, and 1; 0 where it has seen none (R56). -/
def Clock.seenOf (c : Clock) (dev : BitVec 16) : Nat := match c.candidacies.find? fun x => x.1 = dev.toNat with | some x => x.2 | none => 0

theorem Clock.seenOf_le {c : Clock} (h : ∀ y ∈ c.candidacies, y.1 = dev.toNat → y.2 ≤ epoch.toNat) : c.seenOf dev ≤ epoch.toNat := by
  unfold Clock.seenOf
  split
  · rename_i y hy
    exact h y (List.mem_of_find?_eq_some hy) (of_decide_eq_true (List.find?_some hy :))
  · exact Nat.zero_le _

/-- A candidate lower than every one seen is passed on (R56). -/
def passesOn (o : Option (BitVec 16)) (dev : BitVec 16) : Bool := match o with | none => true | some m => dev.toNat < m.toNat

variable (ha : s.arrivedWhere (fun k => decide (k.op = 6) && decide (k.dst.toNat = s.devNo) && decide (k.payload = 8 :: (leBytes 2 dev.toNat ++ leBytes 4 epoch.toNat))) = some e)
  (hp : arrivedBy e.1 = p.val) (hn : s.pow.neg = none) (hc : e.2.pchk = packetCheck e.2) (hu : Uninjected s 7 255)
include ha hp hn hc hu

theorem exec_candidacy : exec (.candidacy p dev epoch) s = .next (
    if epoch.toNat + 1 ≤ s.clk.seenOf dev then taken s e [7]
    else
      let n := (taken s e [7]).modClk fun c => { c with candidacies := (dev.toNat, epoch.toNat + 1) :: c.candidacies.filter (fun x => x.1 ≠ dev.toNat), election := lowestSeen c.election dev }
      if passesOn s.clk.election dev then n.flood 8 (candidacyBody dev epoch) p else n) := by
  show execCandidacy p dev epoch s = _
  unfold execCandidacy candidacyBody
  dsimp only
  rw [ha]
  dsimp only
  rw [if_neg (not_not_intro hp), State.takeArrived_point7 hn hc hu]
  dsimp only
  rw [taken_clk]
  rfl

theorem candidacy_newer (hs : ∀ y ∈ s.clk.candidacies, y.1 = dev.toNat → y.2 ≤ epoch.toNat) : ∃ n, exec (.candidacy p dev epoch) s = .next n ∧
    n.clk = { s.clk with election := lowestSeen s.clk.election dev, candidacies := (dev.toNat, epoch.toNat + 1) :: s.clk.candidacies.filter (fun y => decide (y.1 ≠ dev.toNat)) } := by
  have new : ¬ epoch.toNat + 1 ≤ s.clk.seenOf dev := Nat.not_le.2 (Nat.lt_succ_of_le (Clock.seenOf_le hs))
  refine ⟨_, exec_candidacy ha hp hn hc hu, ?_⟩
  rw [if_neg new]
  dsimp only
  split
  · rw [(State.flood_linkOnly _ _ _ _).clk, State.modClk, taken_clk]
  · rw [State.modClk, taken_clk]

theorem candidacy_older {k : Nat} (hf : s.clk.candidacies.find? (fun y => decide (y.1 = dev.toNat)) = some (dev.toNat, k)) (hk : epoch.toNat < k) :
    exec (.candidacy p dev epoch) s = .next (taken s e [7]) := by
  have seen : s.clk.seenOf dev = k := by unfold Clock.seenOf; rw [hf]
  rw [exec_candidacy ha hp hn hc hu, seen, if_pos (Nat.succ_le_of_lt hk)]

end

/-! ### ELECTION_CLOSE (R51, R56) -/

theorem electionClose_none (hn : s.clk.election = none) : exec .electionClose s = .next s := by
  show execElectionClose s = _
  unfold execElectionClose
  rw [hn]
  exact congrArg _ (settle_self s)

/-- The clock of the device that has won the election (R56). -/
def Clock.elected (c : Clock) (k : BitVec 16) : Clock :=
  { c with election := none, keeper := true, keeperNo := k, keeperEpoch := c.keeperEpoch + 1, hops := 0, parentPort := 255, heartbeat := c.heartbeat + 1, tooFar := false }

/-- The new keeper acquires, or moves to its primary where that is present (R51, R56). -/
def State.leads (s : State) : State :=
  if !s.posValid then s.acquire
  else match s.primary with
    | some x => if s.sourcePresent x then s.moveTo x s.clk.offsetNs else s
    | none => s

theorem State.leads_moves (s : State) : SourceMoves s.clk s.leads.clk := by
  unfold State.leads
  split
  · exact State.acquire_moves _
  · split
    · split
      · exact State.moveTo_moves _ _ _
      · exact .refl _
    · exact .refl _

theorem electionClose_own {k : BitVec 16} (he : s.clk.election = some k) (hd : k.toNat = s.devNo) (hc : s.cfgN 0x2030 1 = 1) (hv : s.posValid = true ∨ s.clk.keeperEpoch = 0)
    (hk : s.clk.keeper = false) (hh : s.clk.heard = false) : exec .electionClose s = .next (settle s ((s.modClk fun c => c.elected k).raisePos 8).leads) := by
  have may : (decide (k.toNat = s.devNo) && s.eligible && !s.keeperAlive) = true := by
    rw [State.eligible_iff.2 ⟨hc, hv⟩, State.keeperAlive, hk, hh]
    simpa using hd
  show execElectionClose s = _
  unfold execElectionClose
  rw [he]
  exact congrArg (fun u => Host.Outcome.next (settle s u)) (if_pos may)

theorem electionClose_other {k : BitVec 16} (he : s.clk.election = some k) (hd : k.toNat ≠ s.devNo) : exec .electionClose s = .next (s.modClk fun c => { c with election := none }) := by
  show execElectionClose s = _
  unfold execElectionClose
  rw [he]
  dsimp only
  rw [if_neg]
  · rw [settle_modClk rfl]
  · simp only [Bool.and_eq_true, decide_eq_true_eq]
    exact fun c => hd c.1.1

/-! ### What a sync word makes of the clock (R52, R55, R56, R57) -/

section
variable (ha : s.alone = false)
include ha

theorem State.takeSyncWord_lost (hh : w.hops = 255) : s.takeSyncWord p w rx step = (s.timesTaken p w rx).parentLost p := by rw [State.takeSyncWord_eq ha, if_pos hh]

theorem State.takeSyncWord_same (hh : w.hops.toNat < 64) (hk : s.clk.keeper = false) (hd : s.clk.heard = true) (hw : w.keeper = s.clk.keeperNo) :
    s.takeSyncWord p w rx step = (s.timesTaken p w rx).sameKeeper p w step := by
  have near : w.hops ≠ 255 := fun e => by rw [e] at hh; exact absurd hh (by decide)
  rw [State.takeSyncWord_eq ha, if_neg near, if_pos ⟨hd, hw, hk⟩]

theorem State.takeSyncWord_other (hh : w.hops.toNat ≤ 64) (hk : s.clk.keeper = false) (hd : s.clk.heard = false) : s.takeSyncWord p w rx step = (s.timesTaken p w rx).otherKeeper p w := by
  have near : w.hops ≠ 255 := fun e => by rw [e] at hh; exact absurd hh (by decide)
  rw [State.takeSyncWord_eq ha, if_neg near, if_neg (by simp [hd]), if_neg (by simp [hk])]

end

theorem State.parentLost_of_ne (hp : s.clk.parentPort.toNat ≠ p.val) : s.parentLost p = s := if_neg hp
theorem State.parentLost_clk (hp : s.clk.parentPort.toNat = p.val) :
    (s.parentLost p).clk.parentPort = 255 ∧ (s.parentLost p).clk.presentFabric = false ∧ (s.parentLost p).clk.heard = s.clk.heard := by
  have moves := s.nowLost_moves .fabric
  rw [show s.parentLost p = (s.nowLost .fabric).modClk fun c => { c with parentPort := 255 } from if_pos hp]
  exact ⟨rfl, moves.presentFabric, moves.heard⟩

/-- One hop more than the sender of a word is a number of eight bits (R52). -/
theorem hops_toNat (hh : w.hops.toNat ≤ 64) : (BitVec.ofNat 8 (w.hops.toNat + 1)).toNat = w.hops.toNat + 1 := by
  rw [BitVec.toNat_ofNat]
  omega

/-- What a device knows once it has taken the keeper of a word that it had none before (R52, R56, R57). -/
theorem State.otherKeeper_clk (ha : s.alone = false) (hk : s.clk.keeper = false) (hd : s.clk.heard = false) (he : s.clk.keeperEpoch = 0) (hw : w.epoch ≠ 0) :
    SourceMoves (putPresent (s.clk.underParent p (w.hops.toNat + 1) w) .fabric true) (s.otherKeeper p w).clk ∧ (s.otherKeeper p w).clk.evt &&& 8 = 8 := by
  rw [State.otherKeeper_of_none hk hd he hw]
  refine ⟨(State.underParent_moves ha p _ w).trans (State.raisePos_moves _ 8), ?_⟩
  rw [State.raisePos_clk]
  exact or_and_mask _ 8

/-- A word of the device's own keeper through its parent port (R52, R53, R55). -/
theorem State.takeSyncWord_same_clk (ha : s.alone = false) (hh : w.hops.toNat < 64) (hk : s.clk.keeper = false) (hd : s.clk.heard = true) (hw : w.keeper = s.clk.keeperNo)
    (hp : s.clk.parentPort.toNat = p.val ∨ s.clk.parentPort = 255) :
    let c := (s.takeSyncWord p w rx step).clk
    c.hops.toNat = w.hops.toNat + 1 ∧ c.heartbeat = w.heartbeat ∧ c.keeperState = w.state ∧ c.keeperEpoch = w.epoch ∧ c.parentPort = BitVec.ofNat 8 p ∧ c.presentFabric = true ∧
      (s.clk.src = some .fabric → s.clk.state = .locked → w.state ≠ 2 → step = false → c.state = .holdover ∧ c.evt = s.clk.evt ||| 2 ∧ c.pos = s.clk.pos) ∧
      (s.clk.src = some .fabric → s.clk.state = .locked → w.state = 2 → w.valid = true → posLine w.pos < s.lpf → posTick w.pos < s.tpl → step = true →
        let q := addTicks s.lpf s.tpl ((s.timesTaken p w rx).delayTicks p) w.pos
        posAhead q s.clk.pos = true → c.state = .locked ∧ c.pos = q ∧ c.evt = s.clk.evt ||| 16) := by
  have moves := State.sameKeeper_moves (s := s.timesTaken p w rx) (w := w) ha hp step
  rw [State.takeSyncWord_same ha hh hk hd hw]
  refine ⟨(congrArg BitVec.toNat moves.hops).trans (hops_toNat hh.le), moves.heartbeat, moves.keeperState, moves.keeperEpoch, moves.parentPort, moves.presentFabric, fun hs hl hw2 hst => ?_,
    fun hs hl hw2 hv hln ht hst hq => ?_⟩
  · subst hst
    exact State.sameKeeper_holds_over (s := s.timesTaken p w rx) ha hp hh hs hl hw2
  · subst hst
    exact State.sameKeeper_steps (s := s.timesTaken p w rx) ha hp hh hs hl hw2 hv hln ht hq

/-- A word of a keeper that is taken by a device without one (R52, R56, R57). -/
theorem State.takeSyncWord_other_clk (ha : s.alone = false) (hk : s.clk.keeper = false) (hd : s.clk.heard = false) (he : s.clk.keeperEpoch = 0) (hw : w.epoch ≠ 0) :
    let c := (s.takeSyncWord p w rx step).clk
    (w.hops.toNat < 64 → c.keeper = false ∧ c.heard = true ∧ c.keeperNo = w.keeper ∧ c.keeperEpoch = w.epoch ∧ c.parentPort = BitVec.ofNat 8 p ∧ c.hops.toNat = w.hops.toNat + 1 ∧ c.evt &&& 8 = 8) ∧
      (w.hops.toNat = 64 → c.tooFar = true ∧ c.hops = 65 ∧ c.pos = s.clk.pos ∧ (s.clk.state = .free → c.state = .free) ∧ (s.clk.src = some .fabric → s.clk.state = .locked → c.state = .holdover)) := by
  obtain ⟨moves, event⟩ := State.otherKeeper_clk (s := s.timesTaken p w rx) (p := p) (w := w) ha hk hd he hw
  refine ⟨fun hh => ?_, fun hh => ?_⟩ <;> rw [State.takeSyncWord_other ha hh.le hk hd]
  · exact ⟨moves.keeper, moves.heard, moves.keeperNo, moves.keeperEpoch, moves.parentPort, (congrArg BitVec.toNat moves.hops).trans (hops_toNat hh.le), event⟩
  · obtain ⟨pos, state⟩ := State.otherKeeper_tooFar (s := s.timesTaken p w rx) (p := p) ha hk hd he hw hh
    refine ⟨moves.tooFar.trans (decide_eq_true (by omega)), moves.hops.trans (by rw [hh]; rfl), pos, fun hf => ?_, fun hs hl => state.trans (if_pos ⟨hl, hs⟩)⟩
    have free : ¬ ((s.timesTaken p w rx).clk.state = .locked ∧ (s.timesTaken p w rx).clk.src = some .fabric) := fun c => by cases hf.symm.trans c.1
    exact state.trans ((if_neg free).trans hf)

/-- Settles O38: the ports from what the link does, the clock from what taking a word makes of it, and the elections command by command. -/
theorem syncWordsAndElectionsFindTheKeeper : Obligations.SyncWordsAndElectionsFindTheKeeper := by
  unfold Obligations.SyncWordsAndElectionsFindTheKeeper
  intro s p h pl step ts rx dev epoch e w sync
  refine ⟨fun hp => ⟨syncWordSend_not_up hp, syncWord_not_up hp⟩, syncWord_bad, fun hp => ⟨syncWordSend_keeper hp, syncWordSend_other hp, fun hl => ?_⟩,
    keeperLost_keeper, keeperLost_other, fun ha hb hn hc hu => ⟨candidacy_newer ha hb hn hc hu, fun k => candidacy_older ha hb hn hc hu⟩, electionClose_none,
    fun k he => ⟨fun hd hc hv hk hh => ?_, fun hd => ⟨_, electionClose_other he hd, rfl, rfl⟩⟩⟩
  · obtain ⟨n, run, clk, ent, ports, other, up, tx, at', got, delay⟩ := syncWord_ports (pl := pl) (rx := rx) (step := step) hp hl
    have link := (s.flitTaken_works p h).1
    have lclk := link.clk
    refine ⟨n, run, other, up, tx, at', got, delay, fun ha => ?_, fun ha hh => ⟨fun hp' => ?_, fun hp' => ?_⟩, fun ha hh hk hd hw hp' => ?_, fun ha hk hd he hw => ?_⟩
    · rw [clk, State.takeSyncWord_alone (by rw [State.alone_of_ent link.ent, ha])]
      exact lclk
    · rw [clk, State.takeSyncWord_lost (by rw [State.alone_of_ent link.ent, ha]) hh, State.parentLost_of_ne (s := (s.flitTaken p h).timesTaken p (readSync pl) rx) (lclk ▸ hp')]
      exact lclk
    · rw [clk, State.takeSyncWord_lost (by rw [State.alone_of_ent link.ent, ha]) hh, ← lclk]
      exact State.parentLost_clk (s := (s.flitTaken p h).timesTaken p (readSync pl) rx) (lclk ▸ hp')
    · have ticks : n.delayTicks p = ((s.flitTaken p h).timesTaken p w rx).delayTicks p := State.delayTicks_of_same (t := n) (s := (s.flitTaken p h).timesTaken p w rx) (ent.trans link.ent.symm) ports p
      rw [ticks, ← State.lpf_of_ent link.ent, ← State.tpl_of_ent link.ent, clk]
      rw [← lclk] at hk hd hw hp' ⊢
      exact State.takeSyncWord_same_clk (by rw [State.alone_of_ent link.ent, ha]) hh hk hd hw hp'
    · rw [clk]
      rw [← lclk] at hk hd he ⊢
      exact State.takeSyncWord_other_clk (by rw [State.alone_of_ent link.ent, ha]) hk hd he hw
  · refine ⟨_, electionClose_own he hd hc hv hk hh, ?_⟩
    rw [settle_clk]
    have moves := ((s.modClk fun c => c.elected k).raisePos 8).leads_moves
    have set : ((s.modClk fun c => c.elected k).raisePos 8).clk.evt &&& 8 = 8 := by rw [State.raisePos_clk]; exact or_and_mask _ 8
    refine ⟨moves.keeper.trans ?_, moves.keeperNo.trans ?_, moves.keeperEpoch.trans ?_, moves.hops.trans ?_, moves.election.trans ?_, moves.heartbeat.trans ?_, moves.evt_kept set⟩ <;>
      rw [State.raisePos_clk] <;> rfl

end Sys2Proof.Machine
end

section
/-! SUPPORT. Accesses to registers of a function: which register they name, and what the access does (R410 to R414). -/

namespace Sys2Proof.Machine

/-! ### The register at an offset -/

variable {off n f : Nat} {x : RegSpan}

theorem low_div (off : Nat) : off / 8 * 8 / 8 * 8 = off / 8 * 8 := by omega
theorem low_lt {c : Nat} (hc : c % 8 = 0) : (off / 8 * 8 < c) = (off < c) := by rw [eq_iff_iff]; omega
theorem low_le {c : Nat} (hc : c % 8 = 0) : (c ≤ off / 8 * 8) = (c ≤ off) := by rw [eq_iff_iff]; omega

theorem span8_low {w r : Bool} (h8 : x.size = 8) (h : span8 off n w r = some x) : x.base = off / 8 * 8 ∧ span8 (off / 8 * 8) n w r = some x := by
  unfold span8 at h ⊢
  split at h
  · cases h
    refine ⟨rfl, ?_⟩
    rw [if_pos (by omega), low_div]
  · cases h

theorem hostSpan_low (h8 : x.size = 8) : hostSpan off = some x → x.base = off / 8 * 8 ∧ hostSpan (off / 8 * 8) = some x := by
  unfold hostSpan
  rw [low_div]
  split
  · exact span8_low h8
  · exact span8_low h8
  · exact span8_low h8
  · exact span8_low h8
  · split
    · exact span8_low h8
    · intro h; cases h

/-- Only HOST_EVT, of 4 bytes, stands where its half does not. -/
theorem hostSpan_none_low : hostSpan off = none → hostSpan (off / 8 * 8) = none ∨ off / 8 * 8 = 0x50 := by
  have eight : ∀ w r, span8 off 8 w r ≠ none := fun w r => by
    unfold span8
    rw [if_pos (Nat.mod_lt _ (by decide))]
    exact Option.some_ne_none _
  unfold hostSpan
  rw [low_div]
  split
  · exact fun h => absurd h (eight _ _)
  · rename_i e; exact fun _ => .inr e
  · exact fun h => absurd h (eight _ _)
  · exact fun h => absurd h (eight _ _)
  · split
    · exact fun h => absurd h (eight _ _)
    · exact fun _ => .inl rfl

theorem irSpan_low (h8 : x.size = 8) : irSpan off = some x → x.base = off / 8 * 8 ∧ irSpan (off / 8 * 8) = some x := by
  unfold irSpan
  simp (disch := decide) only [low_lt, low_le]
  split
  · exact span8_low h8
  · split
    · intro h; cases h; cases h8
    · intro h; cases h

theorem qregAt_low {b : Nat} : qregAt off = some (b, 8) → b = off / 8 * 8 ∧ qregAt (off / 8 * 8) = some (b, 8) := by
  have at8 : ∀ size, (if off % 8 < size then some (off / 8 * 8, size) else none) = some (b, 8) →
      b = off / 8 * 8 ∧ (if off / 8 * 8 % 8 < size then some (off / 8 * 8, size) else none) = some (b, 8) := fun size h => by
    split at h
    · cases h
      exact ⟨rfl, if_pos (by omega)⟩
    · cases h
  unfold qregAt
  dsimp only
  simp (disch := decide) only [low_lt, low_le, low_div, show off / 8 * 8 % 64 / 8 = off % 64 / 8 by omega]
  split
  · exact at8 8
  · split
    · exact at8 4
    · exact at8 4
    · exact at8 4
    · exact at8 8
    · exact at8 8
    · exact at8 4
    · split
      · exact at8 8
      · split
        · split
          · exact at8 4
          · split
            · exact at8 8
            · intro h; cases h
        · intro h; cases h

/-- The low half of a register of 8 bytes names the same register. -/
theorem pfSpan_low (h8 : x.size = 8) (h : pfSpan off = some x) : x.base = off / 8 * 8 ∧ pfSpan (off / 8 * 8) = some x := by
  unfold pfSpan at h ⊢
  cases hs : hostSpan off with
  | some y =>
    rw [hs] at h
    cases h
    obtain ⟨h1, h2⟩ := hostSpan_low h8 hs
    rw [h2]
    exact ⟨h1, rfl⟩
  | none =>
    rw [hs] at h
    dsimp only at h
    obtain hl | hl := hostSpan_none_low hs
    · rw [hl]
      dsimp only
      revert h
      simp (disch := decide) only [low_lt, low_le, show off / 8 * 8 % 16 < 8 ↔ off % 16 < 8 by omega]
      split_ifs
      iterate 7 exact span8_low h8
      exact irSpan_low h8
    · exfalso
      unfold irSpan at h
      simp only [Bool.and_eq_true, decide_eq_true_eq, Bool.or_eq_true] at h
      split_ifs at h <;> omega

theorem vfSpan_low (h8 : x.size = 8) (h : vfSpan off = some x) : x.base = off / 8 * 8 ∧ vfSpan (off / 8 * 8) = some x := by
  unfold vfSpan at h ⊢
  cases hs : hostSpan off with
  | some y =>
    rw [hs] at h
    cases h
    obtain ⟨h1, h2⟩ := hostSpan_low h8 hs
    rw [h2]
    exact ⟨h1, rfl⟩
  | none =>
    rw [hs] at h
    dsimp only at h
    obtain hl | hl := hostSpan_none_low hs
    · rw [hl]
      dsimp only
      revert h
      simp (disch := decide) only [low_lt, low_le, low_div, show (off / 8 * 8 % 16 < 8) = (off % 16 < 8) by rw [eq_iff_iff]; omega, show off / 8 * 8 % 64 / 8 = off % 64 / 8 by omega,
        show off / 8 * 8 / 0x10000 = off / 0x10000 by omega, show off / 8 * 8 % 0x10000 = off % 0x10000 / 8 * 8 by omega]
      split
      · split
        iterate 10 exact span8_low h8
        split
        · exact span8_low h8
        · intro h; cases h
      split
      · exact span8_low h8
      split
      · exact span8_low h8
      split
      · exact span8_low h8
      split
      · split
        · exact span8_low h8
        · exact span8_low h8
      split
      · split
        · exact span8_low h8
        · exact span8_low h8
        · exact span8_low h8
        · intro h; cases h
        · exact span8_low h8
      split
      · exact irSpan_low h8
      split
      · intro h
        obtain ⟨⟨b, n⟩, hq, e⟩ := Option.map_eq_some_iff.1 h
        cases e
        cases h8
        obtain ⟨h1, h2⟩ := qregAt_low hq
        rw [h2]
        refine ⟨?_, rfl⟩
        dsimp only
        omega
      · intro h; cases h
    · exfalso
      rw [if_pos (by omega), hl] at h
      cases h

theorem fnSpan_low (h8 : x.size = 8) (h : fnSpan f off = some x) : x.base = off / 8 * 8 ∧ fnSpan f (off / 8 * 8) = some x := by
  unfold fnSpan at h ⊢
  split at h
  · rw [if_pos ‹_›]; exact pfSpan_low h8 h
  · rw [if_neg ‹_›]; exact vfSpan_low h8 h

theorem msixArea_low (f off : Nat) : msixArea f (off / 8 * 8) = msixArea f off := by
  unfold msixArea
  simp (disch := omega) only [low_lt, low_le]

theorem hostSpan_of_ge (h : 0x240 ≤ off) : hostSpan off = none := by
  unfold hostSpan
  split
  case h_5 => exact if_neg (by simp only [Bool.and_eq_true, decide_eq_true_eq]; omega)
  all_goals omega

/-- A register of a quire's block, through the function of its room (R410, R412). -/
theorem fnSpan_quire (hf : f ≠ 0) {q b m : Nat} (hq : q < 80) (ho : off < 0x10000) (h : qregAt off = some (b, m)) :
    fnSpan f (0x100000 + 0x10000 * q + off) = some { base := 0x100000 + 0x10000 * q + b, size := m, wide := qregWide b, ro := b = 0x800 || b = 0x820 || (0x1000 ≤ b && b % 64 = 16) } := by
  have place : (0x100000 + 0x10000 * q + off) % 0x10000 = off ∧ (0x100000 + 0x10000 * q + off) / 0x10000 * 0x10000 = 0x100000 + 0x10000 * q := by omega
  unfold fnSpan vfSpan
  rw [if_neg hf, hostSpan_of_ge (by omega)]
  dsimp only
  rw [place.1, place.2, h]
  simp only [Bool.and_eq_true, decide_eq_true_eq]
  rw [if_neg (by omega), if_neg (by omega), if_neg (by omega), if_neg (by omega), if_neg (by omega), if_neg (by omega), if_neg (by omega), if_pos (by omega)]
  rfl

theorem qregAt_cue (h : off < 0x800) : qregAt off = some (off / 8 * 8, 8) := by
  unfold qregAt
  rw [if_pos h]
  exact if_pos (Nat.mod_lt _ (by decide))

/-! ### A room's resources -/

variable {s t : State}

theorem State.exists_of_quireRoom {q r : Nat} (h : s.quireRoom q = some r) : (s.room r).exists' = true := by
  unfold State.quireRoom State.roomWith at h
  have found := List.find?_some h
  exact (Bool.and_eq_true_iff.1 found).1

/-- A register of a quire's block is foreign where the quire is not the room's (R414). -/
theorem State.regForeign_quire {r q b : Nat} (hf : f = r + 1) (hr : (s.room r).exists' = true) (hq : q < 80) (hb : b < 0x10000) :
    s.regForeign f (0x100000 + 0x10000 * q + b) = decide (s.quireRoom q ≠ some r) := by
  have place : (0x100000 + 0x10000 * q + b - 0x100000) / 0x10000 = q := by omega
  have away : hostSide (0x100000 + 0x10000 * q + b) = false := by
    unfold hostSide
    rw [hostSpan_of_ge (by omega)]
    simp only [Option.isSome_none, Bool.false_or, Bool.or_eq_false_iff, Bool.and_eq_false_iff, decide_eq_false_iff_not]
    omega
  unfold State.regForeign State.foreignReg
  rw [hf, Nat.add_sub_cancel, hr, away, place]
  simp only [Bool.and_eq_true, decide_eq_true_eq]
  rw [if_neg (by omega), if_neg (by omega), if_pos (by omega)]
  simp

/-! ### One function changes -/

/-- From `s` to `n` function `f` becomes `x`, and nothing else changes but the router. -/
def OnlyFn (s n : State) (f : Nat) (x : Fn) : Prop := n.fn f = x ∧ (∀ k, k ≠ f → n.fn k = s.fn k) ∧ { n with fns := s.fns, irq := s.irq } = s

variable {n : State} {x y : Fn}

theorem OnlyFn.modFn (s : State) (f : Nat) (g : Fn → Fn) : OnlyFn s (s.modFn f g) f (g (s.fn f)) := ⟨State.fn_modFn s f g, fun _ hk => State.fn_modFn_ne s g hk, rfl⟩
theorem OnlyFn.trans (h : OnlyFn s t f x) (k : OnlyFn t n f y) : OnlyFn s n f y := by
  obtain ⟨-, h2, h3⟩ := h
  obtain ⟨k1, k2, k3⟩ := k
  exact ⟨k1, fun j hj => (k2 j hj).trans (h2 j hj), (congrArg (fun u : State => ({ u with fns := s.fns, irq := s.irq } : State)) k3).trans h3⟩
theorem OnlyFn.modFn_modFn (s : State) (f : Nat) (g h : Fn → Fn) : OnlyFn s ((s.modFn f g).modFn f h) f (h (g (s.fn f))) := by
  have last := OnlyFn.modFn (s.modFn f g) f h
  rw [State.fn_modFn] at last
  exact (OnlyFn.modFn s f g).trans last
theorem OnlyFn.of_irq (h : OnlyFn s t f x) (k : ∃ i, n = { t with irq := i }) : OnlyFn s n f x := by
  obtain ⟨i, rfl⟩ := k
  exact h
theorem OnlyFn.leaves (h : OnlyFn s n f x) {c : Instr} (run : exec c s = .next n) : LeavesFn s c f x := ⟨n, run, h⟩

/-- HOST_ERR records an access, and raises its event (R432). -/
theorem State.hostErrRec_onlyFn (s : State) (f bar off code : Nat) : OnlyFn s (s.hostErrRec f bar off code) f (hostErred (s.fn f) bar off code) :=
  (OnlyFn.modFn_modFn s f (fun x => { x with hostErr := BitVec.ofNat 64 (off * 2 ^ 32 + bar * 16 + code) }) fun x => { x with hostEvt := x.hostEvt ||| 1 }).of_irq (State.srcRose_eq _ _ _)

/-! ### Accesses (R413, R414) -/

/-- A TLP of a function with none waiting takes effect at once (R420). -/
theorem State.tlp_of_direct {f : FnId} (hd : Direct s f) (o : BitVec 24) (size : Fin 16) (v : W64) : s.tlp f (.reg o size v) = s.bar0Write f o.toNat size.val v.toNat := by
  obtain ⟨hn, hh⟩ := hd
  unfold State.tlp
  dsimp only
  rw [State.activity_quiet hn, hh]
  rfl

theorem State.tlp_read_of_direct {f : FnId} (hd : Direct s f) (o : BitVec 24) (size : Fin 16) :
    s.tlp f (.regRead o size) = (s.bar0Read f o.toNat size.val).2.emit (.regRead (Fin.ofNat 17 f) o (BitVec.ofNat 64 (s.bar0Read f o.toNat size.val).1)) := by
  obtain ⟨hn, hh⟩ := hd
  unfold State.tlp
  dsimp only
  rw [State.activity_quiet hn, hh]
  rfl

/-- A write of the whole register at `b` ends what is staged of it (R413). -/
def Fn.unstage (y : Fn) (b : Nat) : Fn := match y.stage with | some (c, _) => if c.toNat = b then { y with stage := none } else y | none => y

theorem Fn.unstage_of_none (h : y.stage = none) (b : Nat) : y.unstage b = y := by unfold Fn.unstage; rw [h]
theorem Fn.unstage_of_staged {c : BitVec 24} {w : W32} {b : Nat} (h : y.stage = some (c, w)) (hc : c.toNat = b) : y.unstage b = { y with stage := none } := by
  unfold Fn.unstage; rw [h]; exact if_pos hc
/-- Nothing but the staging slot changes. -/
theorem Fn.unstage_frame (y : Fn) (b : Nat) : { y.unstage b with stage := y.stage } = y := by
  unfold Fn.unstage
  split
  · split <;> rfl
  · rfl

section
variable {size v : Nat} {x : RegSpan}

theorem State.bar0Write_size (ha : accessOk off size = false) : s.bar0Write f off size v = s.hostErrRec f 0 off 2 := by
  unfold State.bar0Write
  rw [ha]; rfl

/-- A write in the MSI-X table (R421). -/
theorem State.bar0Write_msix (ha : accessOk off size = true) (hm : msixArea f off = true) (ho : off < 0xF80000) : s.bar0Write f off size v = s.msixWrite f (off - 0xF00000) size v := by
  unfold State.bar0Write
  rw [ha, hm]
  exact if_pos ho

variable (ha : accessOk off size = true) (hm : msixArea f off = false) (hx : fnSpan f off = some x) (he : off + size ≤ x.base + x.size)
include ha hm hx he

theorem State.bar0Write_span : s.bar0Write f off size v =
    if s.regForeign f x.base then s.hostErrRec f 0 off 1
    else if x.ro then s
    else if x.size = 8 && size = 4 then
      if !x.wide then (if off = x.base then s.regPut f x.base (v % 2 ^ 32) else s)
      else if off = x.base then s.modFn f fun y => { y with stage := some (BitVec.ofNat 24 x.base, BitVec.ofNat 32 v) }
      else match (s.fn f).stage with
        | some (b, lo) =>
          if b.toNat = x.base then (s.modFn f fun y => { y with stage := none }).regPut f x.base (lo.toNat + 2 ^ 32 * (v % 2 ^ 32))
          else s.hostErrRec f 0 off 2
        | none => s.hostErrRec f 0 off 2
    else (s.modFn f fun y => y.unstage x.base).regPut f x.base (v % 2 ^ (8 * size)) := by
  unfold State.bar0Write
  rw [ha, hm, hx]
  exact if_neg (Nat.not_lt.2 he)

theorem State.bar0Write_foreign (hf : s.regForeign f x.base = true) : s.bar0Write f off size v = s.hostErrRec f 0 off 1 := by
  rw [State.bar0Write_span ha hm hx he, hf]
  rfl

variable (hf : s.regForeign f x.base = false) (hr : x.ro = false)
include hf hr

/-- The whole register is written. -/
theorem State.bar0Write_whole (hs : size = 8) : s.bar0Write f off size v = (s.modFn f fun y => y.unstage x.base).regPut f x.base (v % 2 ^ 64) := by
  subst hs
  rw [State.bar0Write_span ha hm hx he, hf, hr, if_neg (by decide), if_neg (by decide), if_neg (by simp)]

variable (hs : size = 4) (h8 : x.size = 8) (hw : x.wide = true)
include hs h8 hw

/-- The low half is staged alone. -/
theorem State.bar0Write_low (ho : off = x.base) : s.bar0Write f off size v = s.modFn f fun y => { y with stage := some (BitVec.ofNat 24 x.base, BitVec.ofNat 32 v) } := by
  subst hs
  rw [State.bar0Write_span ha hm hx he, hf, hr, if_neg (by decide), if_neg (by decide), if_pos (by simp [h8]), hw, if_neg (by decide), if_pos ho]

/-- The high half acts with its staged low half. -/
theorem State.bar0Write_high (ho : off ≠ x.base) {b : BitVec 24} {lo : W32} (hst : (s.fn f).stage = some (b, lo)) (hb : b.toNat = x.base) :
    s.bar0Write f off size v = (s.modFn f fun y => { y with stage := none }).regPut f x.base (lo.toNat + 2 ^ 32 * (v % 2 ^ 32)) := by
  subst hs
  rw [State.bar0Write_span ha hm hx he, hf, hr, if_neg (by decide), if_neg (by decide), if_pos (by simp [h8]), hw, if_neg (by decide), if_neg ho, hst]
  exact if_pos hb

/-- The high half without its low half is recorded. -/
theorem State.bar0Write_high_alone (ho : off ≠ x.base) (hst : ∀ (b : BitVec 24) (lo : W32), (s.fn f).stage = some (b, lo) → b.toNat ≠ x.base) :
    s.bar0Write f off size v = s.hostErrRec f 0 off 2 := by
  subst hs
  rw [State.bar0Write_span ha hm hx he, hf, hr, if_neg (by decide), if_neg (by decide), if_pos (by simp [h8]), hw, if_neg (by decide), if_neg ho]
  split
  · rename_i b lo h
    exact if_neg (hst b lo h)
  · rfl

end

end Sys2Proof.Machine
end

section
/-! SUPPORT. What a register write and read do: apertures, cue positions, latches and MSI-X entries (R33, R66, R247, R418, R421). -/

namespace Sys2Proof.Machine

variable {s t n : State} {f off size : Nat}

/-! ### Apertures (R418) -/

/-- HOST_APT[i] is wide, and of the host side of every virtual function. -/
theorem fnSpan_apt (hf : f ≠ 0) (i : Fin 16) : fnSpan f (0x100 + 8 * i) = some { base := 0x100 + 8 * i, size := 8, wide := true } ∧ hostSide (0x100 + 8 * i) = true := by
  unfold fnSpan
  rw [if_neg hf]
  revert i
  decide

theorem State.regForeign_of_hostSide {b : Nat} (h : hostSide b = true) : s.regForeign f b = false := by simp [State.regForeign, h]

theorem State.regPut_apt (hf : f ≠ 0) (i : Fin 16) (v : Nat) :
    s.regPut f (0x100 + 8 * i) v = s.modFn f fun x => { x with apt := Tbl.put {} x.apt i { en := v.testBit 63, base := BitVec.ofNat 35 (v / 2 ^ 21) } } := by
  have away : (hostSpan (0x100 + 8 * i)).isSome = false := by revert i; decide
  unfold State.regPut
  rw [away, if_neg (by decide), if_neg hf, if_pos (by simp only [Bool.and_eq_true, decide_eq_true_eq]; omega), Nat.add_sub_cancel_left, Nat.mul_div_cancel_left _ (by decide)]

/-! ### Positions of cues (R66, R247) -/

theorem State.qregWrite_cuePos (s : State) (r : Nat) (q : QuireId) (i : Fin 64) (v : W64) (h : (s.cueAt (.quire q i)).arm = false) :
    s.qregWrite r q (32 * i) v.toNat = s.setCue (.quire q i) { s.cueAt (.quire q i) with pos := v } := by
  have entry : CueRef.quire (toQuire q) (Fin.ofNat 64 (32 * i / 32)) = .quire q i := by
    rw [Nat.mul_div_cancel_left _ (by decide)]
    exact congrArg₂ CueRef.quire (Fin.ext (Nat.mod_eq_of_lt q.isLt)) (Fin.ext (Nat.mod_eq_of_lt i.isLt))
  unfold State.qregWrite
  rw [if_pos (by omega), entry, Nat.mul_mod_right]
  unfold State.cueRegWrite
  dsimp only
  rw [if_neg (by decide), h, BitVec.ofNat_toNat, BitVec.setWidth_eq]
  rfl

/-- The block of a quire takes a cue position through the function of its room. -/
theorem State.regPut_cuePos {r : Nat} (hf : f = r + 1) (hr : (s.room r).exists' = true) (q : QuireId) (i : Fin 64) (v : W64) (h : (s.cueAt (.quire q i)).arm = false) :
    s.regPut f (0x100000 + 0x10000 * q + 32 * i) v.toNat = s.setCue (.quire q i) { s.cueAt (.quire q i) with pos := v } := by
  have place : (0x100000 + 0x10000 * q.val + 32 * i.val - 0x100000) / 0x10000 = q ∧ (0x100000 + 0x10000 * q.val + 32 * i.val) % 0x10000 = 32 * i := by omega
  unfold State.regPut
  rw [hostSpan_of_ge (by omega), if_neg (by decide), if_neg (by omega), if_neg (by simp only [Bool.and_eq_true, decide_eq_true_eq]; omega), hf, Nat.add_sub_cancel, hr, if_pos rfl]
  unfold State.roomRegWrite
  simp only [Bool.and_eq_true, decide_eq_true_eq]
  rw [if_neg (by omega), if_neg (by omega), if_neg (by omega), if_neg (by omega), if_neg (by omega), if_neg (by omega), if_pos (by omega), place.1, place.2]
  unfold State.quireBlockWrite
  simp only [Bool.and_eq_true, Bool.or_eq_true, decide_eq_true_eq]
  rw [if_neg (by omega), if_neg (by omega)]
  exact State.qregWrite_cuePos s r q i v h

/-- A cue entry that is written, and nothing beside it. -/
theorem State.setCue_onlyCue (s : State) (w : Writer) (c : CueRef) (e : CueEntry) : OnlyCue s (s.setCue c e) w c e := by
  refine ⟨State.cueAt_setCue s c e, fun d hd => State.cueAt_setCue_ne s e hd, fun k => ?_, ⟨fun g _ => ?_, fun g => ?_, fun k _ => ?_, fun k => ?_⟩, ?_⟩ <;> cases c
  case refine_1.dev => rfl
  case refine_1.quire q i =>
    show { (s.modQuire q fun y => { y with cue := Tbl.put {} y.cue i e }).quire k with cue := (s.quire k).cue } = s.quire k
    by_cases hk : k = q
    · subst hk; rw [State.quire_modQuire]
    · rw [State.quire_modQuire_ne _ _ hk]
  all_goals rfl

/-- A cue entry that is written where something was staged before. -/
theorem onlyCue_of_staging {w : Writer} (hs : StagingOnly s n w) (hn : { n with tiles := s.tiles, fns := s.fns } = s) (c : CueRef) (e : CueEntry) : OnlyCue s (n.setCue c e) w c e := by
  obtain ⟨h1, h2, h3, -, h5⟩ := State.setCue_onlyCue n w c e
  obtain ⟨k1, k2, k3, k4⟩ := hs
  have cues : ∀ d, n.cueAt d = s.cueAt d := fun d => (congrArg (fun u : State => u.cueAt d) hn :)
  have quires : ∀ k, n.quire k = s.quire k := fun k => (congrArg (fun u : State => u.quire k) hn :)
  have fns : ∀ k, (n.setCue c e).fn k = n.fn k := fun k => by cases c <;> rfl
  have tiles : ∀ k, (n.setCue c e).tile k = n.tile k := fun k => by cases c <;> rfl
  refine ⟨h1, fun d hd => (h2 d hd).trans (cues d), fun k => quires k ▸ h3 k, ⟨fun g hg => (fns g).trans (k1 g hg), fun g => (fns g) ▸ k2 g, fun k hk => (tiles k).trans (k3 k hk), fun k => (tiles k) ▸ k4 k⟩, ?_⟩
  exact (congrArg (fun u : State => ({ u with cue := s.cue, quires := s.quires, tiles := s.tiles, fns := s.fns, irq := s.irq } : State)) h5).trans
    (congrArg (fun u : State => ({ u with cue := s.cue, quires := s.quires, irq := s.irq } : State)) hn)

/-! ### A store of four words by a tile (R247) -/

/-- From `s` to `n` nothing changes but what tile `t` has staged. -/
def TileStaging (s n : State) (t : Nat) : Prop :=
  (∀ k, k ≠ t → n.tile k = s.tile k) ∧ { n.tile t with stageReg := (s.tile t).stageReg, stage := (s.tile t).stage } = s.tile t ∧ { n with tiles := s.tiles } = s

variable {k : Nat}

theorem TileStaging.refl (s : State) (k : Nat) : TileStaging s s k := ⟨fun _ _ => rfl, rfl, rfl⟩
theorem TileStaging.setTile (h : TileStaging s n k) (g : Option Nat) (st : Tbl (Option W16)) : TileStaging s (n.setTile k { n.tile k with stageReg := g, stage := st }) k := by
  obtain ⟨h1, h2, h3⟩ := h
  refine ⟨fun j hj => (State.tile_setTile_ne n _ hj).trans (h1 j hj), ?_, h3⟩
  rw [State.tile_setTile]
  exact h2

theorem TileStaging.cueAt (h : TileStaging s n k) (c : CueRef) : n.cueAt c = s.cueAt c :=
  State.cueAt_of_same (congrArg State.cue h.2.2 :) (fun q => congrArg (fun u : State => (u.quire q).cue) h.2.2) c
theorem TileStaging.tileRoom (h : TileStaging s n k) (j : Nat) : n.tileRoom j = s.tileRoom j := (congrArg (fun u : State => u.tileRoom j) h.2.2 :)

/-- Tile `t` has staged the words `l` of the register at `b`, and nothing else has changed since `s`. -/
def Staged (s n : State) (t b : Nat) (l : List W16) : Prop := TileStaging s n t ∧ (n.tile t).stageReg = some b ∧ ∀ j, j < l.length → Tbl.get none (n.tile t).stage j = l[j]?

section
variable {t b off size : Nat} {w : W16} {l : List W16}

/-- A word that is not the last of its register is staged. -/
theorem State.qregStoreWord_stages (hq : qregAt off = some (b, size)) (hl : off + 2 < b + size) :
    s.qregStoreWord t off w = s.setTile t { s.tile t with stageReg := some b, stage := Tbl.put none (if (s.tile t).stageReg = some b then (s.tile t).stage else []) ((off - b) / 2) (some w) } := by
  unfold State.qregStoreWord
  rw [hq]
  exact if_pos hl

theorem Staged.first (hq : qregAt b = some (b, size)) (hl : 2 < size) : Staged s (s.qregStoreWord t b w) t b [w] := by
  rw [State.qregStoreWord_stages hq (by omega)]
  refine ⟨(TileStaging.refl s t).setTile _ _, by rw [State.tile_setTile], fun j hj => ?_⟩
  obtain rfl : j = 0 := by simpa using hj
  rw [State.tile_setTile, Nat.sub_self]
  exact Tbl.get_put_same (d := none) _ 0 (some w)

theorem Staged.next (h : Staged s n t b l) (ho : off = b + 2 * l.length) (hq : qregAt off = some (b, size)) (hl : off + 2 < b + size) : Staged s (n.qregStoreWord t off w) t b (l ++ [w]) := by
  obtain ⟨h1, h2, h3⟩ := h
  have place : (off - b) / 2 = l.length := by omega
  rw [State.qregStoreWord_stages hq hl, if_pos h2, place]
  refine ⟨h1.setTile _ _, by rw [State.tile_setTile], fun j hj => ?_⟩
  rw [State.tile_setTile]
  rw [List.length_append, List.length_singleton] at hj
  by_cases hj' : j = l.length
  · subst hj'
    rw [List.getElem?_concat_length]
    exact Tbl.get_put_same (d := none) _ _ (some w)
  · rw [List.getElem?_append_left (by omega), ← h3 j (by omega)]
    exact Tbl.get_put_ne (d := none) _ (some w) hj'

/-- The last word of a register completes it, where the words below it are staged. -/
theorem Staged.completes {r : Nat} (h : Staged s n t b l) (ho : off = b + 2 * l.length) (hq : qregAt off = some (b, size)) (hl : off + 2 = b + size) (hr : s.tileRoom t = some r) :
    ∃ u, TileStaging s u t ∧ n.qregStoreWord t off w = u.qregWrite r (tileQuire t) b ((l.map BitVec.toNat ++ [w.toNat]).foldr (fun a c => a + 65536 * c) 0) := by
  obtain ⟨h1, h2, h3⟩ := h
  have place : (off - b) / 2 = l.length := by omega
  have low : (List.range l.length).map (fun j => Tbl.get none (n.tile t).stage j) = l.map some := by
    refine List.ext_getElem? fun j => ?_
    rw [List.getElem?_map, List.getElem?_map]
    by_cases hj : j < l.length
    · rw [List.getElem?_range hj, Option.map_some, h3 j hj, List.getElem?_eq_getElem hj]; rfl
    · rw [List.getElem?_eq_none (by simpa using hj), List.getElem?_eq_none (by omega)]; rfl
  have room : (n.setTile t { n.tile t with stageReg := none, stage := [] }).tileRoom t = some r := (h1.tileRoom t).trans hr
  have all : (l.map some).all (fun o => o.isSome) = true := by simp
  have words : (l.map some).map (fun o => (o.getD 0).toNat) = l.map BitVec.toNat := by rw [List.map_map]; rfl
  refine ⟨_, h1.setTile none [], ?_⟩
  unfold State.qregStoreWord
  rw [hq]
  dsimp only
  rw [if_neg (by omega), place, if_pos h2, low, if_pos all, room, words]

end

/-- Word `i` of a value of 8 bytes. -/
def wordOf (v : W64) (i : Nat) : W16 := BitVec.ofNat 16 (v.toNat / 65536 ^ i)

/-- Four words in order make the value. -/
theorem wordOf_sum (v : W64) : ([wordOf v 0, wordOf v 1, wordOf v 2].map BitVec.toNat ++ [(wordOf v 3).toNat]).foldr (fun a c => a + 65536 * c) 0 = v.toNat := by
  have := v.isLt
  simp only [List.map_cons, List.map_nil, List.cons_append, List.nil_append, List.foldr_cons, List.foldr_nil, wordOf, BitVec.toNat_ofNat]
  omega

/-- A supervisor of a quire's tile writes a cue position by four words (R247). -/
theorem State.tilePut_cuePos {t r : Nat} {q : QuireId} {i : Fin 64} {v : W64} (hq : tileQuire t = q) (hs : swS (s.tile t).sw = true) (hr : s.quireRoom q = some r)
    (ha : (s.cueAt (.quire q i)).arm = false) : ∃ u, TileStaging s u t ∧ s.tilePut t (32 * i) 8 v = u.setCue (.quire q i) { s.cueAt (.quire q i) with pos := v } := by
  have at8 : ∀ j, j < 4 → qregAt (32 * i + 2 * j) = some (32 * i.val, 8) := fun j hj => by
    rw [qregAt_cue (by omega), show (32 * i.val + 2 * j) / 8 * 8 = 32 * i by omega]
  have span : qregSpan (32 * i) (8 / 2) = true := by
    unfold qregSpan
    rw [show qregAt (32 * i) = some (32 * i.val, 8) from at8 0 (by decide)]
    exact decide_eq_true (by omega)
  have room : s.tileRoom t = some r := by unfold State.tileRoom; rw [hq]; exact hr
  have one := Staged.first (s := s) (t := t) (w := wordOf v 0) (at8 0 (by decide)) (by decide)
  have two := one.next (off := 32 * i + 2) (w := wordOf v 1) rfl (at8 1 (by decide)) (by omega)
  have three := two.next (off := 32 * i + 2 + 2) (w := wordOf v 2) rfl (at8 2 (by decide)) (by omega)
  obtain ⟨u, hu, run⟩ := three.completes (off := 32 * i + 2 + 2 + 2) (w := wordOf v 3) rfl (at8 3 (by decide)) (by omega) room
  refine ⟨u, hu, ?_⟩
  have sum := wordOf_sum v
  have store : s.tilePut t (32 * i) 8 v = s.qregStore t (32 * i) [wordOf v 0, wordOf v 1, wordOf v 2, wordOf v 3] := by
    unfold State.tilePut
    rw [span, hs]
    rfl
  rw [store, ← hu.cueAt (.quire q i), ← State.qregWrite_cuePos u r q i v (by rw [hu.cueAt, ha]), ← hq, ← sum]
  exact run

/-! ### Latched halves (R33, R413) -/

section
variable {x : RegSpan} (hm : msixArea f off = false) (hx : fnSpan f off = some x) (he : off + size ≤ x.base + x.size) (hf : s.regForeign f x.base = false)
include hm hx he hf

theorem State.bar0Read_span (ha : accessOk off size = true) : s.bar0Read f off size =
    if size = 4 && off = x.base + 4 then
      match latches x, Tbl.get none (s.fn f).latch x.base with
      | true, some h => (h.toNat, s.modFn f fun y => { y with latch := Tbl.put none y.latch x.base none })
      | _, _ => ((s.regGet f x.base).1 / 2 ^ 32, (s.regGet f x.base).2)
    else if size = 4 && latches x then
      ((s.regGet f x.base).1 % 2 ^ 32, (s.regGet f x.base).2.modFn f fun y => { y with latch := Tbl.put none y.latch x.base (some (BitVec.ofNat 32 ((s.regGet f x.base).1 / 2 ^ 32))) })
    else ((s.regGet f x.base).1 % 2 ^ (8 * size), (s.regGet f x.base).2) := by
  unfold State.bar0Read
  rw [ha, hm, hx]
  exact (if_neg (Nat.not_lt.2 he)).trans ((if_neg (by simp [hf])).trans rfl)

/-- All 8 bytes in one piece. -/
theorem State.bar0Read_whole (ha : accessOk off size = true) (h8 : size = 8) : s.bar0Read f off size = ((s.regGet f x.base).1 % 2 ^ 64, (s.regGet f x.base).2) := by
  subst h8
  rw [State.bar0Read_span hm hx he hf ha, if_neg (by simp), if_neg (by simp)]

/-- Reading the low half latches the high half. -/
theorem State.bar0Read_low (ha : accessOk off size = true) (h4 : size = 4) (ho : off = x.base) (hl : latches x = true) : s.bar0Read f off size =
    ((s.regGet f x.base).1 % 2 ^ 32, (s.regGet f x.base).2.modFn f fun y => { y with latch := Tbl.put none y.latch x.base (some (BitVec.ofNat 32 ((s.regGet f x.base).1 / 2 ^ 32))) }) := by
  rw [State.bar0Read_span hm hx he hf ha, if_neg (by simp; omega), if_pos (by simp [h4, hl])]

/-- The high half that is latched is returned, and latched no more. -/
theorem State.bar0Read_high (ha : accessOk off size = true) (h4 : size = 4) (ho : off = x.base + 4) (hl : latches x = true) {h : W32} (hh : Tbl.get none (s.fn f).latch x.base = some h) :
    s.bar0Read f off size = (h.toNat, s.modFn f fun y => { y with latch := Tbl.put none y.latch x.base none }) := by
  rw [State.bar0Read_span hm hx he hf ha, if_pos (by simp [h4, ho]), hl, hh]

end

end Sys2Proof.Machine
end

section
/-! Registers of a function are checked, staged and latched, and interrupts delivered (R33, R393 to R397, R413, R414, R421, R432). -/

namespace Sys2Proof.Machine

variable {s n : State} {f : FnId} {off : BitVec 24} {size : Fin 16} {v : W64} {w lo : W32} {x : RegSpan}

/-! ### Accesses of 4 and 8 bytes -/

theorem accessOk_four {o : Nat} (h : o % 4 = 0) : accessOk o 4 = true := by simp [accessOk, h]
theorem accessOk_eight {o : Nat} (h : o % 8 = 0) : accessOk o 8 = true := by simp [accessOk, h]

/-- An offset below the MSI-X table (R410, R411). -/
theorem msixArea_below {g o : Nat} (h : o < 0xF00000) : msixArea g o = false := by
  simp only [msixArea, Bool.or_eq_false_iff, Bool.and_eq_false_iff, decide_eq_false_iff_not]
  omega

/-! ### Writes that are refused (R413, R414) -/

theorem exec_registerWrite (hd : Direct s f) : exec (.registerWrite (.host f) off size v) s = .next (s.bar0Write f off.toNat size.val v.toNat) := congrArg Host.Outcome.next (State.tlp_of_direct hd off size v)

theorem registerWrite_size (hd : Direct s f) (ha : accessOk off.toNat size = false) : LeavesFn s (.registerWrite (.host f) off size v) f (hostErred (s.fn f) 0 off.toNat 2) := by
  refine (s.hostErrRec_onlyFn f 0 off.toNat 2).leaves ?_
  rw [exec_registerWrite hd, State.bar0Write_size ha]

theorem registerWrite_foreign {r : RoomId} {q : QuireId} (hd : Direct s f) (hf : f.val = r + 1) (hr : (s.room r).exists' = true) (hq : s.quireRoom q ≠ some r.val)
    (ho : off.toNat = 0x100808 + 0x10000 * q) (h4 : size.val = 4) : LeavesFn s (.registerWrite (.host f) off size v) f (hostErred (s.fn f) 0 off.toNat 1) := by
  have at' : off.toNat = 0x100000 + 0x10000 * q + 0x808 := by omega
  have area : msixArea f.val off.toNat = false := msixArea_below (by omega)
  have ok : accessOk off.toNat size = true := by rw [h4]; exact accessOk_four (by omega)
  have span := fnSpan_quire (f := f) (q := q) (off := 0x808) (by omega) q.isLt (by decide) (show qregAt 0x808 = some (0x808, 4) by decide)
  rw [← at'] at span
  have foreign : s.regForeign f off.toNat = true := by rw [at', State.regForeign_quire hf hr q.isLt (by decide)]; exact decide_eq_true hq
  refine (s.hostErrRec_onlyFn f 0 off.toNat 1).leaves ?_
  rw [exec_registerWrite hd, State.bar0Write_foreign ok area span (by rw [h4]) foreign]

/-! ### A register that is written whole (R413) -/

/-- The value that the aperture register takes (R418). -/
theorem apt_value (v : W64) : ({ en := v.toNat.testBit 63, base := BitVec.ofNat 35 (v.toNat / 2 ^ 21) } : Apt) = { en := v.getLsbD 63, base := (v >>> 21).setWidth 35 } := by
  have base : BitVec.ofNat 35 (v.toNat / 2 ^ 21) = (v >>> 21).setWidth 35 := by
    apply BitVec.eq_of_toNat_eq
    rw [BitVec.toNat_ofNat, BitVec.toNat_setWidth, BitVec.toNat_ushiftRight, Nat.shiftRight_eq_div_pow]
  rw [base]
  rfl

theorem toNat_mod_64 (v : W64) : v.toNat % 2 ^ 64 = v.toNat := Nat.mod_eq_of_lt v.isLt

theorem registerWrite_apt (hd : Direct s f) (hs : (s.fn f).stage = none) {i : Fin 16} (hf : f ≠ 0) (ho : off.toNat = 0x100 + 8 * i) (h8 : size.val = 8) :
    LeavesFn s (.registerWrite (.host f) off size v) f { s.fn f with apt := Tbl.put {} (s.fn f).apt i { en := v.getLsbD 63, base := (v >>> 21).setWidth 35 } } := by
  have hf' : f.val ≠ 0 := fun e => hf (Fin.ext e)
  obtain ⟨span, host⟩ := fnSpan_apt hf' i
  have only := OnlyFn.modFn_modFn s f (fun y => y.unstage (0x100 + 8 * i)) fun x => { x with apt := Tbl.put {} x.apt i { en := v.getLsbD 63, base := (v >>> 21).setWidth 35 } }
  rw [Fn.unstage_of_none hs] at only
  refine only.leaves ?_
  rw [exec_registerWrite hd, ho, State.bar0Write_whole (by rw [h8]; exact accessOk_eight (by omega)) (msixArea_below (by omega)) span (by rw [h8]) (State.regForeign_of_hostSide host) rfl h8,
    toNat_mod_64, State.regPut_apt hf' i, apt_value]

/-- A function's write of a cue position of its room (R66, R410). -/
theorem registerWrite_cuePos_host {r : RoomId} {q : QuireId} {i : Fin 64} (ho : off.toNat = 0x100000 + 0x10000 * q + 32 * i) (hr : WriterReaches s (.host f) q r)
    (ha : (s.cueAt (.quire q i)).arm = false) (h8 : size.val = 8) :
    ∃ n, exec (.registerWrite (.host f) off size v) s = .next n ∧ OnlyCue s n (.host f) (.quire q i) { s.cueAt (.quire q i) with pos := v } := by
  obtain ⟨hn, hq, -, hf, hh⟩ := hr
  have room := State.exists_of_quireRoom hq
  have area : msixArea f.val off.toNat = false := msixArea_below (by omega)
  have ok : accessOk off.toNat size = true := by rw [h8]; exact accessOk_eight (by omega)
  have span := fnSpan_quire (f := f) (q := q) (off := 32 * i.val) (by omega) q.isLt (by omega) ((qregAt_cue (by omega)).trans (by rw [show 32 * i.val / 8 * 8 = 32 * i by omega]))
  rw [← ho] at span
  have own : s.regForeign f off.toNat = false := by rw [ho, State.regForeign_quire hf room q.isLt (by omega), hq]; simp
  have writable : (decide (32 * i.val = 0x800) || decide (32 * i.val = 0x820) || (decide (0x1000 ≤ 32 * i.val) && decide (32 * i.val % 64 = 16))) = false := by
    simp only [Bool.or_eq_false_iff, Bool.and_eq_false_iff, decide_eq_false_iff_not]
    omega
  have run : exec (.registerWrite (.host f) off size v) s = .next ((s.modFn f fun y => y.unstage off.toNat).setCue (.quire q i) { s.cueAt (.quire q i) with pos := v }) := by
    rw [exec_registerWrite ⟨hn, hh⟩, State.bar0Write_whole ok area span (by rw [h8]) own writable h8, toNat_mod_64]
    dsimp only
    have put := State.regPut_cuePos (s := s.modFn f fun y => y.unstage off.toNat) hf room q i v ha
    rw [← ho] at put
    exact congrArg _ put
  refine ⟨_, run, onlyCue_of_staging ⟨fun g hg => State.fn_modFn_ne s _ fun e => hg (congrArg Writer.host (Fin.ext e)), fun g => ?_, fun _ _ => rfl, fun _ => rfl⟩ rfl _ _⟩
  by_cases hg : g = f
  · subst hg
    rw [State.fn_modFn]
    exact Fn.unstage_frame _ _
  · rw [State.fn_modFn_ne s _ fun e => hg (Fin.ext e)]

/-- A tile's write of a cue position of its quire (R66, R247). -/
theorem registerWrite_cuePos_tile {t : TileId} {r : RoomId} {q : QuireId} {i : Fin 64} (ho : off.toNat = 32 * i) (hr : WriterReaches s (.tile t) q r)
    (ha : (s.cueAt (.quire q i)).arm = false) (h8 : size.val = 8) :
    ∃ n, exec (.registerWrite (.tile t) off size v) s = .next n ∧ OnlyCue s n (.tile t) (.quire q i) { s.cueAt (.quire q i) with pos := v } := by
  obtain ⟨-, hq, -, ht, hs⟩ := hr
  obtain ⟨u, ⟨h1, h2, h3⟩, run⟩ := State.tilePut_cuePos (v := v) ht hs hq ha
  have run' : exec (.registerWrite (.tile t) off size v) s = .next (s.tilePut t off.toNat size v) := rfl
  refine ⟨_, run'.trans (congrArg _ ?_), onlyCue_of_staging (n := u) ⟨fun g _ => ?_, fun g => ?_, fun k hk => h1 k fun e => hk t rfl e.symm, fun k => ?_⟩ ?_ _ _⟩
  · rw [ho, h8]; exact run
  · exact (congrArg (fun z : State => z.fn g) h3 :)
  · rw [show u.fn g = s.fn g from (congrArg (fun z : State => z.fn g) h3 :)]
  · by_cases hk : k = t
    · subst hk; exact h2
    · rw [h1 k hk]
  · exact (congrArg (fun z : State => ({ z with fns := s.fns } : State)) h3)

/-! ### Halves of a register (R413) -/

theorem highHalf_base (ho : off.toNat = x.base + 4) : (off - 4).toNat = x.base := by
  rw [BitVec.toNat_sub_of_le]
  · exact Nat.sub_eq_of_eq_add ho
  · exact BitVec.le_def.2 (by rw [ho]; exact Nat.le_add_left _ _)

section
variable (hd : Direct s f) (h4 : off.toNat % 4 = 0) (hm : msixArea f off.toNat = false) (hx : fnSpan f off.toNat = some x) (hf : s.regForeign f x.base = false) (h8 : x.size = 8) (hw : x.wide = true) (hr : x.ro = false)
include hd h4 hm hx hf h8 hw hr

theorem lowHalfWrite_stages (ho : off.toNat = x.base) : LeavesFn s (.bar0LowHalfWrite f off w) f { s.fn f with stage := some (off, w) } := by
  refine (OnlyFn.modFn s f fun y => { y with stage := some (off, w) }).leaves ?_
  have run : exec (.bar0LowHalfWrite f off w) s = .next (s.bar0Write f off.toNat 4 (w.setWidth 64).toNat) := congrArg Host.Outcome.next (State.tlp_of_direct hd off 4 (w.setWidth 64))
  have value : BitVec.ofNat 32 (w.setWidth 64).toNat = w := by
    apply BitVec.eq_of_toNat_eq
    rw [BitVec.toNat_ofNat, BitVec.toNat_setWidth]
    omega
  rw [run, State.bar0Write_low (accessOk_four h4) hm hx (by omega) hf hr rfl h8 hw ho, ← ho, value, BitVec.ofNat_toNat, BitVec.setWidth_eq]

variable (ho : off.toNat = x.base + 4)
include ho

theorem highHalfWrite_eq (hst : (s.fn f).stage = some (off - 4, lo)) : exec (.bar0HighHalfWrite f off w) s = .next ((s.modFn f fun y => { y with stage := none }).regPut f x.base (w ++ lo).toNat) := by
  have run : exec (.bar0HighHalfWrite f off w) s = .next (s.bar0Write f off.toNat 4 (w.setWidth 64).toNat) := congrArg Host.Outcome.next (State.tlp_of_direct hd off 4 (w.setWidth 64))
  have value : lo.toNat + 2 ^ 32 * ((w.setWidth 64).toNat % 2 ^ 32) = (w ++ lo).toNat := by
    rw [BitVec.toNat_append, BitVec.toNat_setWidth, ← Nat.shiftLeft_add_eq_or_of_lt lo.isLt, Nat.shiftLeft_eq]
    omega
  rw [run, State.bar0Write_high (accessOk_four h4) hm hx (by omega) hf hr rfl h8 hw (by omega) hst (highHalf_base ho), value]

/-- The high half then acts as the whole write would. -/
theorem highHalfWrite_whole (hst : (s.fn f).stage = some (off - 4, lo)) : ∃ n, exec (.bar0HighHalfWrite f off w) s = .next n ∧ exec (.registerWrite (.host f) (off - 4) 8 (w ++ lo)) s = .next n := by
  have base := highHalf_base ho
  obtain ⟨hb, low⟩ := fnSpan_low h8 hx
  have area : msixArea f x.base = false := by rw [hb, msixArea_low]; exact hm
  rw [← hb] at low
  refine ⟨_, highHalfWrite_eq hd h4 hm hx hf h8 hw hr ho hst, ?_⟩
  have unstage : (s.modFn f fun y => y.unstage x.base) = s.modFn f fun y => { y with stage := none } := by
    show s.setFn f ((s.fn f).unstage x.base) = _
    rw [Fn.unstage_of_staged hst base]
    rfl
  have run : exec (.registerWrite (.host f) (off - 4) 8 (w ++ lo)) s = .next (s.bar0Write f (off - 4).toNat 8 (w ++ lo).toNat) := exec_registerWrite hd
  rw [run, base, State.bar0Write_whole (accessOk_eight (by omega)) area low (by rw [h8]) hf hr rfl, unstage]
  exact congrArg (fun v => Host.Outcome.next ((s.modFn f fun y => { y with stage := none }).regPut f x.base v)) (toNat_mod_64 (w ++ lo))

theorem highHalfWrite_apt {i : Fin 16} (hf0 : f ≠ 0) (hi : off.toNat = 0x104 + 8 * i) (hst : (s.fn f).stage = some (off - 4, lo)) :
    LeavesFn s (.bar0HighHalfWrite f off w) f { s.fn f with stage := none, apt := Tbl.put {} (s.fn f).apt i { en := w.getLsbD 31, base := ((w ++ lo) >>> 21).setWidth 35 } } := by
  have hf' : f.val ≠ 0 := fun e => hf0 (Fin.ext e)
  have base : x.base = 0x100 + 8 * i := by omega
  have en : w.getLsbD 31 = (w ++ lo).getLsbD 63 := by rw [BitVec.getLsbD_append]; rfl
  refine (OnlyFn.modFn_modFn s f (fun y => { y with stage := none }) fun y => { y with apt := Tbl.put {} y.apt i { en := w.getLsbD 31, base := ((w ++ lo) >>> 21).setWidth 35 } }).leaves ?_
  rw [highHalfWrite_eq hd h4 hm hx hf h8 hw hr ho hst, base, State.regPut_apt hf' i, apt_value (w ++ lo), en]

theorem highHalfWrite_alone (hst : ∀ l, (s.fn f).stage ≠ some (off - 4, l)) : LeavesFn s (.bar0HighHalfWrite f off w) f (hostErred (s.fn f) 0 off.toNat 2) := by
  have run : exec (.bar0HighHalfWrite f off w) s = .next (s.bar0Write f off.toNat 4 (w.setWidth 64).toNat) := congrArg Host.Outcome.next (State.tlp_of_direct hd off 4 (w.setWidth 64))
  have base := highHalf_base ho
  refine (s.hostErrRec_onlyFn f 0 off.toNat 2).leaves ?_
  rw [run, State.bar0Write_high_alone (accessOk_four h4) hm hx (by omega) hf hr rfl h8 hw (by omega) fun b l hb e => hst l ?_]
  rw [hb, BitVec.eq_of_toNat_eq (e.trans base.symm)]

end

end Sys2Proof.Machine
end

section
/-! Reads that latch, MSI-X entries, deliveries and events of a function's registers (R33, R393, R395 to R397, R413, R421). -/

namespace Sys2Proof.Machine

variable {s n : State} {f : FnId}

/-! ### HUB_POS_NOW (R33, R413) -/

/-- The offset of HUB_POS_NOW in a function's registers (R410, R411). -/
def posOff (f : FnId) : BitVec 24 := if f = 0 then 0 else 0x60

/-- The register of HUB_POS_NOW: of 8 bytes, read-only. -/
def posSpan (f : FnId) : RegSpan := { base := (posOff f).toNat, size := 8, ro := true }

theorem posOff_facts (f : FnId) : fnSpan f (posOff f).toNat = some (posSpan f) ∧ fnSpan f (posOff f + 4).toNat = some (posSpan f) ∧ (posOff f + 4).toNat = (posOff f).toNat + 4 ∧
    (posOff f).toNat % 8 = 0 ∧ msixArea f (posOff f).toNat = false ∧ msixArea f (posOff f + 4).toNat = false := by
  revert f
  decide

theorem State.regForeign_pos (s : State) (f : FnId) : s.regForeign f (posSpan f).base = false := by
  by_cases h : f = 0
  · subst h; rfl
  · exact State.regForeign_of_hostSide (by simp only [posSpan, posOff, if_neg h]; decide)

theorem State.regGet_pos (s : State) (f : FnId) : s.regGet f (posSpan f).base = (s.clk.pos.toNat, s) := by
  by_cases h : f = 0
  · subst h; rfl
  · have h' : f.val ≠ 0 := fun e => h (Fin.ext e)
    have base : (posSpan f).base = 0x60 := by simp only [posSpan, posOff, if_neg h]; rfl
    rw [base]
    unfold State.regGet
    rw [if_neg (by decide), if_neg h', if_pos rfl]

/-- The function with the latched half of the register at `b` set to `o` (R413). -/
def Fn.setLatch (y : Fn) (b : Nat) (o : Option W32) : Fn := { y with latch := Tbl.put none y.latch b o }

theorem Fn.latch_setLatch (y : Fn) (b : Nat) (o : Option W32) : Tbl.get none (y.setLatch b o).latch b = o := Tbl.get_put_same (d := none) _ _ _

section
variable (hd : Direct s f)
include hd

theorem posRead_whole : exec (.lowHalfRead f (posOff f) 8) s = .next { s with out := s.out ++ [.regRead f (posOff f) s.clk.pos] } := by
  obtain ⟨span, -, -, h8, area, -⟩ := posOff_facts f
  have read : s.bar0Read f (posOff f).toNat 8 = (s.clk.pos.toNat, s) := by
    rw [State.bar0Read_whole (size := 8) area span le_rfl (s.regForeign_pos f) (accessOk_eight h8) rfl, s.regGet_pos f, toNat_mod_64]
  have run := State.tlp_read_of_direct hd (posOff f) 8
  rw [show s.bar0Read f (posOff f).toNat (8 : Fin 16).val = (s.clk.pos.toNat, s) from read] at run
  refine (congrArg Host.Outcome.next run).trans ?_
  dsimp only
  rw [BitVec.ofNat_toNat, BitVec.setWidth_eq, Fin.ofNat_val_eq_self]
  rfl

theorem posRead_low : ∃ n, exec (.lowHalfRead f (posOff f) 4) s = .next n ∧ n.out = s.out ++ [.regRead f (posOff f) ((s.clk.pos.setWidth 32).setWidth 64)] ∧
    Tbl.get none (n.fn f).latch (posOff f).toNat = some ((s.clk.pos >>> 32).setWidth 32) ∧ (∀ j, j ≠ f.val → n.fn j = s.fn j) ∧ { n with fns := s.fns, out := s.out } = s := by
  obtain ⟨span, -, -, h8, area, -⟩ := posOff_facts f
  have read : s.bar0Read f (posOff f).toNat 4 =
      (s.clk.pos.toNat % 2 ^ 32, s.modFn f fun y => y.setLatch (posOff f).toNat (some (BitVec.ofNat 32 (s.clk.pos.toNat / 2 ^ 32)))) := by
    rw [State.bar0Read_low (size := 4) area span (Nat.add_le_add_left (show 4 ≤ 8 by decide) _) (s.regForeign_pos f) (accessOk_four (by omega)) rfl rfl rfl, s.regGet_pos f]
    rfl
  have run := State.tlp_read_of_direct hd (posOff f) 4
  rw [show s.bar0Read f (posOff f).toNat (4 : Fin 16).val = _ from read] at run
  have low : BitVec.ofNat 64 (s.clk.pos.toNat % 2 ^ 32) = (s.clk.pos.setWidth 32).setWidth 64 := by
    apply BitVec.eq_of_toNat_eq
    rw [BitVec.toNat_ofNat, BitVec.toNat_setWidth, BitVec.toNat_setWidth]
  have high : BitVec.ofNat 32 (s.clk.pos.toNat / 2 ^ 32) = (s.clk.pos >>> 32).setWidth 32 := by
    apply BitVec.eq_of_toNat_eq
    rw [BitVec.toNat_ofNat, BitVec.toNat_setWidth, BitVec.toNat_ushiftRight, Nat.shiftRight_eq_div_pow]
  dsimp only at run
  rw [low, high, Fin.ofNat_val_eq_self] at run
  refine ⟨_, congrArg Host.Outcome.next run, rfl, ?_, fun j hj => (State.emit_fn _ _ _).trans (State.fn_modFn_ne s _ hj), rfl⟩
  rw [State.emit_fn, State.fn_modFn]
  exact Fn.latch_setLatch _ _ _

theorem posRead_high {h : W32} (hh : Tbl.get none (s.fn f).latch (posOff f).toNat = some h) : ∃ n, exec (.lowHalfRead f (posOff f + 4) 4) s = .next n ∧
    n.out = s.out ++ [.regRead f (posOff f + 4) (h.setWidth 64)] ∧ Tbl.get none (n.fn f).latch (posOff f).toNat = none ∧ { n with fns := s.fns, out := s.out } = s := by
  obtain ⟨-, span, high, h8, -, area⟩ := posOff_facts f
  have read : s.bar0Read f (posOff f + 4).toNat 4 = (h.toNat, s.modFn f fun y => y.setLatch (posOff f).toNat none) :=
    State.bar0Read_high (size := 4) area span (by rw [high]; exact le_rfl) (s.regForeign_pos f) (accessOk_four (by omega)) rfl high rfl hh
  have run := State.tlp_read_of_direct hd (posOff f + 4) 4
  rw [show s.bar0Read f (posOff f + 4).toNat (4 : Fin 16).val = _ from read] at run
  dsimp only at run
  rw [BitVec.ofNat_toNat, Fin.ofNat_val_eq_self] at run
  refine ⟨_, congrArg Host.Outcome.next run, rfl, ?_, rfl⟩
  rw [State.emit_fn, State.fn_modFn]
  exact Fn.latch_setLatch _ _ _

end

/-! ### MSI-X entries (R421) -/

section
variable {g k : Nat}

/-- A message of entry `k` waits, and nothing keeps it from being sent. -/
def State.sendable (s : State) (g k : Nat) : Bool := (Tbl.get ({} : Msix) (s.fn g).msix k).pending && !(Tbl.get ({} : Msix) (s.fn g).msix k).masked && !(s.fn g).fnMask && (s.fn g).busMaster

/-- Entry `k` of function `g` is set to `e`. -/
def State.setMsix (s : State) (g k : Nat) (e : Msix) : State := s.modFn g fun x => { x with msix := Tbl.put ({} : Msix) x.msix k e }

theorem State.setMsix_same (s : State) (g k : Nat) (e : Msix) : Tbl.get ({} : Msix) ((s.setMsix g k e).fn g).msix k = e := by
  unfold State.setMsix
  rw [State.fn_modFn]
  exact Tbl.get_put_same (d := ({} : Msix)) _ _ _
theorem State.setMsix_ne (s : State) (g : Nat) (e : Msix) {j : Nat} (hj : j ≠ k) : Tbl.get ({} : Msix) ((s.setMsix g k e).fn g).msix j = Tbl.get ({} : Msix) (s.fn g).msix j := by
  unfold State.setMsix
  rw [State.fn_modFn]
  exact Tbl.get_put_ne (d := ({} : Msix)) _ _ hj
theorem State.setMsix_frame (s : State) (g k : Nat) (e : Msix) : { (s.setMsix g k e).fn g with msix := (s.fn g).msix } = s.fn g := by
  unfold State.setMsix
  rw [State.fn_modFn]

theorem State.msixFlush_keeps (h : s.sendable g k = false) : s.msixFlush g k = s := if_neg (by rw [show (_ && _ && _ && _ : Bool) = false from h]; decide)

theorem State.msixFlush_sends (h : s.sendable g k = true) : s.msixFlush g k =
    (s.setMsix g k { Tbl.get ({} : Msix) (s.fn g).msix k with pending := false }).emit (.msix (Fin.ofNat 17 g) k (Tbl.get ({} : Msix) (s.fn g).msix k).addr (Tbl.get ({} : Msix) (s.fn g).msix k).data) := by
  have free := h
  unfold State.sendable at free
  simp only [Bool.and_eq_true, Bool.not_eq_true'] at free
  obtain ⟨⟨⟨-, hk⟩, hm⟩, hb⟩ := free
  have run : s.msixFlush g k = (s.setMsix g k { Tbl.get ({} : Msix) (s.fn g).msix k with pending := false }).sendMsix g k := if_pos h
  have entry := s.setMsix_same g k { Tbl.get ({} : Msix) (s.fn g).msix k with pending := false }
  have frame := s.setMsix_frame g k { Tbl.get ({} : Msix) (s.fn g).msix k with pending := false }
  have mask : ((s.setMsix g k { Tbl.get ({} : Msix) (s.fn g).msix k with pending := false }).fn g).fnMask = false := (congrArg Fn.fnMask frame :).trans hm
  have bus : ((s.setMsix g k { Tbl.get ({} : Msix) (s.fn g).msix k with pending := false }).fn g).busMaster = true := (congrArg Fn.busMaster frame :).trans hb
  rw [run]
  unfold State.sendMsix
  dsimp only
  rw [entry, mask, bus]
  refine if_neg ?_
  show ¬ (false || (Tbl.get ({} : Msix) (s.fn g).msix k).masked || !true) = true
  rw [hk]
  decide

/-- From `s` to `n` function `g` changes in its MSI-X table alone, and messages are sent; nothing else changes. -/
def MsixOnly (s n : State) (g : Nat) : Prop := { n.fn g with msix := (s.fn g).msix } = s.fn g ∧ (∀ j, j ≠ g → n.fn j = s.fn j) ∧ { n with fns := s.fns, out := s.out } = s

theorem MsixOnly.refl (s : State) (g : Nat) : MsixOnly s s g := ⟨rfl, fun _ _ => rfl, rfl⟩
theorem MsixOnly.trans {t : State} (h : MsixOnly s t g) (k : MsixOnly t n g) : MsixOnly s n g := by
  obtain ⟨h1, h2, h3⟩ := h
  obtain ⟨k1, k2, k3⟩ := k
  exact ⟨(congrArg (fun y : Fn => ({ y with msix := (s.fn g).msix } : Fn)) k1).trans h1, fun j hj => (k2 j hj).trans (h2 j hj),
    (congrArg (fun u : State => ({ u with fns := s.fns, out := s.out } : State)) k3).trans h3⟩

theorem State.setMsix_only (s : State) (g k : Nat) (e : Msix) : MsixOnly s (s.setMsix g k e) g := ⟨s.setMsix_frame g k e, fun _ hj => State.fn_modFn_ne s _ hj, rfl⟩
theorem State.setMsix_emit_only (s : State) (g k : Nat) (e : Msix) (o : Out) : MsixOnly s ((s.setMsix g k e).emit o) g := s.setMsix_only g k e

/-- What a flush leaves of entry `e` of a function whose messages nothing but an entry's mask keeps (R421). -/
def Msix.flushed (e : Msix) : Msix := { e with pending := e.pending && e.masked }

theorem Msix.flushed_of_sent {e : Msix} (h : true = (e.pending && !e.masked)) : { e with pending := false } = e.flushed := by
  have mask : e.masked = false := by cases hm : e.masked <;> simp_all
  unfold Msix.flushed
  rw [mask, Bool.and_false]
theorem Msix.flushed_of_kept {e : Msix} (h : false = (e.pending && !e.masked)) : e = e.flushed := by
  have same : (e.pending && e.masked) = e.pending := by cases hp : e.pending <;> cases hm : e.masked <;> simp_all
  unfold Msix.flushed
  rw [same]

/-- One entry is flushed: a function that is a bus master and is not masked sends its pending message, unless the entry is masked. -/
theorem State.msixFlush_open (hm : (s.fn g).fnMask = false) (hb : (s.fn g).busMaster = true) (k : Nat) :
    MsixOnly s (s.msixFlush g k) g ∧ Tbl.get ({} : Msix) ((s.msixFlush g k).fn g).msix k = (Tbl.get ({} : Msix) (s.fn g).msix k).flushed ∧
    (∀ j, j ≠ k → Tbl.get ({} : Msix) ((s.msixFlush g k).fn g).msix j = Tbl.get ({} : Msix) (s.fn g).msix j) ∧ (∃ l, (s.msixFlush g k).out = s.out ++ l) ∧
    ((Tbl.get ({} : Msix) (s.fn g).msix k).pending = true → (Tbl.get ({} : Msix) (s.fn g).msix k).masked = false →
      .msix (Fin.ofNat 17 g) k (Tbl.get ({} : Msix) (s.fn g).msix k).addr (Tbl.get ({} : Msix) (s.fn g).msix k).data ∈ (s.msixFlush g k).out) := by
  have can : s.sendable g k = ((Tbl.get ({} : Msix) (s.fn g).msix k).pending && !(Tbl.get ({} : Msix) (s.fn g).msix k).masked) := by simp [State.sendable, hm, hb]
  cases h : s.sendable g k with
  | true =>
    rw [State.msixFlush_sends h]
    rw [h] at can
    exact ⟨s.setMsix_emit_only g k _ _, (s.setMsix_same g k _).trans (Msix.flushed_of_sent can), fun j hj => s.setMsix_ne g _ hj, ⟨_, rfl⟩, fun _ _ => List.mem_append_right _ List.mem_cons_self⟩
  | false =>
    rw [State.msixFlush_keeps h]
    rw [h] at can
    refine ⟨.refl s g, Msix.flushed_of_kept can, fun _ _ => rfl, ⟨[], (List.append_nil _).symm⟩, fun hp hk => ?_⟩
    rw [hp, hk] at can
    cases can

/-- Every entry below `m` is flushed (R421). -/
theorem State.msixFlush_all (hm : (s.fn g).fnMask = false) (hb : (s.fn g).busMaster = true) (m : Nat) :
    MsixOnly s (forN m (fun k s => s.msixFlush g k) s) g ∧
    (∀ j, Tbl.get ({} : Msix) ((forN m (fun k s => s.msixFlush g k) s).fn g).msix j = if j < m then (Tbl.get ({} : Msix) (s.fn g).msix j).flushed else Tbl.get ({} : Msix) (s.fn g).msix j) ∧
    (∀ j, j < m → (Tbl.get ({} : Msix) (s.fn g).msix j).pending = true → (Tbl.get ({} : Msix) (s.fn g).msix j).masked = false →
      .msix (Fin.ofNat 17 g) j (Tbl.get ({} : Msix) (s.fn g).msix j).addr (Tbl.get ({} : Msix) (s.fn g).msix j).data ∈ (forN m (fun k s => s.msixFlush g k) s).out) := by
  induction m with
  | zero => exact ⟨.refl s g, fun j => rfl, fun j hj => absurd hj (Nat.not_lt_zero j)⟩
  | succ m ih =>
    obtain ⟨i1, i2, i3⟩ := ih
    have step : forN (m + 1) (fun k s => s.msixFlush g k) s = (forN m (fun k s => s.msixFlush g k) s).msixFlush g m := by
      unfold forN
      rw [List.range_succ, List.foldl_append]
      rfl
    generalize forN m (fun k s => s.msixFlush g k) s = u at i1 i2 i3 step
    obtain ⟨f1, f2, f3, ⟨l, f4⟩, f5⟩ := State.msixFlush_open (s := u) (g := g) ((congrArg Fn.fnMask i1.1 :).trans hm) ((congrArg Fn.busMaster i1.1 :).trans hb) m
    have last : Tbl.get ({} : Msix) (u.fn g).msix m = Tbl.get ({} : Msix) (s.fn g).msix m := (i2 m).trans (if_neg (Nat.lt_irrefl m))
    rw [step]
    refine ⟨i1.trans f1, fun j => ?_, fun j hj hp hk => ?_⟩
    · by_cases h : j = m
      · subst h
        rw [f2, last, if_pos (Nat.lt_succ_self j)]
      · rw [f3 j h, i2 j]
        exact if_congr (by omega) rfl rfl
    · by_cases h : j = m
      · subst h
        rw [last] at f5
        exact f5 hp hk
      · rw [f4]
        exact List.mem_append_left _ (i3 j (by omega) hp hk)

end

end Sys2Proof.Machine
end

section
/-! Interrupts of the functions are unmasked, delivered and raised (R393, R395 to R397, R421), and the registers' obligation is settled. -/

namespace Sys2Proof.Machine

variable {s n : State} {f : FnId}

/-! ### MSIX_UNMASK (R421) -/

section
variable {k : Fin 128}

/-- An entry's mask clears by its vector control word. -/
theorem exec_msixUnmask (hd : Direct s f) (hk : k.val < msixEntries f) :
    exec (.msixUnmask f (some k)) s = .next ((s.setMsix f k { Tbl.get ({} : Msix) (s.fn f).msix k with masked := false }).msixFlush f k) := by
  have place : (BitVec.ofNat 24 (0xF0000C + 16 * k.val)).toNat = 0xF0000C + 16 * k := by rw [BitVec.toNat_ofNat]; omega
  have area : msixArea f.val (0xF0000C + 16 * k) = true := by
    simp only [msixArea, Bool.or_eq_true, Bool.and_eq_true, decide_eq_true_eq]
    omega
  have entry : 0xF0000C + 16 * k.val - 0xF00000 = 12 + 16 * k := by omega
  have run := State.tlp_of_direct hd (BitVec.ofNat 24 (0xF0000C + 16 * k.val)) 4 0
  rw [place, show (4 : Fin 16).val = 4 from rfl, State.bar0Write_msix (accessOk_four (by omega)) area (by omega), entry] at run
  refine congrArg Host.Outcome.next (run.trans ?_)
  have word : (12 + 16 * k.val) / 16 = k ∧ (12 + 16 * k.val) % 16 / 4 = 3 := by omega
  unfold State.msixWrite
  dsimp only
  rw [word.1, word.2]
  rfl

/-- The entry is set to `e`, and nothing is sent. -/
theorem State.setMsix_onlyMsix (s : State) (f : FnId) (k : Nat) (e : Msix) : OnlyMsix s (s.setMsix f k e) f k e [] := by
  obtain ⟨h1, h2, h3⟩ := s.setMsix_only f k e
  exact ⟨s.setMsix_same f k e, fun j hj => s.setMsix_ne f e hj, h1, h2, (List.append_nil _).symm, h3⟩

theorem msixUnmask_sends (hd : Direct s f) (hk : k.val < msixEntries f) (hp : (Tbl.get ({} : Msix) (s.fn f).msix k).pending = true) (hm : (s.fn f).fnMask = false) (hb : (s.fn f).busMaster = true) :
    ∃ n, exec (.msixUnmask f (some k)) s = .next n ∧ OnlyMsix s n f k { Tbl.get ({} : Msix) (s.fn f).msix k with masked := false, pending := false }
      [.msix f k (Tbl.get ({} : Msix) (s.fn f).msix k).addr (Tbl.get ({} : Msix) (s.fn f).msix k).data] := by
  have run := exec_msixUnmask hd hk
  obtain ⟨u1, u2, u3, u4, u5, u6⟩ := s.setMsix_onlyMsix f k { Tbl.get ({} : Msix) (s.fn f).msix k with masked := false }
  generalize s.setMsix f k { Tbl.get ({} : Msix) (s.fn f).msix k with masked := false } = u at run u1 u2 u3 u4 u5 u6
  have send : u.sendable f k = true := by
    unfold State.sendable
    rw [u1, show (u.fn f).fnMask = (s.fn f).fnMask from (congrArg Fn.fnMask u3 :), show (u.fn f).busMaster = (s.fn f).busMaster from (congrArg Fn.busMaster u3 :), hm, hb]
    simpa using hp
  rw [State.msixFlush_sends send, u1, Fin.ofNat_val_eq_self] at run
  obtain ⟨h1, h2, h3⟩ := MsixOnly.trans ⟨u3, u4, (congrArg (fun z : State => ({ z with out := s.out } : State)) u6 :)⟩ (u.setMsix_only f k { Tbl.get ({} : Msix) (s.fn f).msix k with masked := false, pending := false })
  refine ⟨_, run, u.setMsix_same f k _, fun j hj => (u.setMsix_ne f _ hj).trans (u2 j hj), h1, h2, ?_, h3⟩
  show u.out ++ _ = _
  rw [u5, List.append_nil]

theorem msixUnmask_keeps (hd : Direct s f) (hk : k.val < msixEntries f) (h : (Tbl.get ({} : Msix) (s.fn f).msix k).pending = false ∨ (s.fn f).fnMask = true) :
    ∃ n, exec (.msixUnmask f (some k)) s = .next n ∧ OnlyMsix s n f k { Tbl.get ({} : Msix) (s.fn f).msix k with masked := false } [] := by
  have only := s.setMsix_onlyMsix f k { Tbl.get ({} : Msix) (s.fn f).msix k with masked := false }
  have held : (s.setMsix f k { Tbl.get ({} : Msix) (s.fn f).msix k with masked := false }).sendable f k = false := by
    obtain ⟨u1, -, u3, -⟩ := only
    unfold State.sendable
    rw [u1, show ((s.setMsix f k { Tbl.get ({} : Msix) (s.fn f).msix k with masked := false }).fn f).fnMask = (s.fn f).fnMask from (congrArg Fn.fnMask u3 :)]
    obtain h | h := h <;> simp only [h, Bool.not_true, Bool.and_false, Bool.false_and]
  exact ⟨_, exec_msixUnmask hd hk, by rw [State.msixFlush_keeps held]; exact only⟩

/-- The Function Mask clears while MSI-X and bus mastering are enabled: every entry is flushed. -/
theorem msixUnmask_function (hk : k.val < msixEntries f) : ∃ n, exec (.msixUnmask f none) s = .next n ∧ (n.fn f).msixEn = true ∧ (n.fn f).busMaster = true ∧ (n.fn f).fnMask = false ∧
    { n with fns := s.fns, out := s.out } = s ∧ ((Tbl.get ({} : Msix) (s.fn f).msix k).pending = true → (Tbl.get ({} : Msix) (s.fn f).msix k).masked = false →
      Tbl.get ({} : Msix) (n.fn f).msix k = { Tbl.get ({} : Msix) (s.fn f).msix k with pending := false } ∧ Out.msix f k (Tbl.get ({} : Msix) (s.fn f).msix k).addr (Tbl.get ({} : Msix) (s.fn f).msix k).data ∈ n.out) := by
  have run : exec (.msixUnmask f none) s = .next (forN (msixEntries f) (fun k s => s.msixFlush f k) (s.modFn f fun x => { x with msixEn := true, busMaster := true, fnMask := false })) := rfl
  have fn := State.fn_modFn s f fun x => { x with msixEn := true, busMaster := true, fnMask := false }
  have frame : { s.modFn f (fun x => { x with msixEn := true, busMaster := true, fnMask := false }) with fns := s.fns, out := s.out } = s := rfl
  generalize s.modFn f (fun x => { x with msixEn := true, busMaster := true, fnMask := false }) = u at run fn frame
  obtain ⟨⟨h1, -, h3⟩, table, sent⟩ := State.msixFlush_all (s := u) (g := f) (by rw [fn]) (by rw [fn]) (msixEntries f)
  have entry := table k
  have sent := sent k hk
  rw [if_pos hk, fn] at entry
  rw [fn, Fin.ofNat_val_eq_self] at sent
  rw [fn] at h1
  refine ⟨_, run, (congrArg Fn.msixEn h1 :), (congrArg Fn.busMaster h1 :), (congrArg Fn.fnMask h1 :), (congrArg (fun z : State => ({ z with fns := s.fns, out := s.out } : State)) h3).trans frame,
    fun hp hm => ⟨entry.trans (Msix.flushed_of_sent ?_).symm, sent hp hm⟩⟩
  dsimp only
  rw [hp, hm]
  rfl

end

/-! ### VECTOR_DELIVERY (R395 to R397) -/

section
variable {o : Fin 17} {vec : Fin 256} {j : Nat}

theorem vectorDelivery_none (h : (s.irVec o vec).en = false ∨ (s.irVec o vec).held = 0 ∨ s.chosenSlot o vec = none) : exec (.vectorDelivery o vec) s = .next s := by
  show execVectorDelivery o vec s = _
  unfold execVectorDelivery
  dsimp only
  obtain h | h | h := h
  · rw [if_neg (by simp [h])]
  · rw [if_neg (by simp [h])]
  · rw [h]
    exact congrArg _ (ite_self s)

/-- The vector with its events delivered through slot `j` (R396). -/
def State.spent (s : State) (o v j : Nat) : State := s.setIrVec o v { s.irVec o v with held := 0, last := BitVec.ofNat 3 j }

variable (he : (s.irVec o vec).en = true) (hh : (s.irVec o vec).held ≠ 0) (hc : s.chosenSlot o vec = some j)
include he hh hc

theorem exec_vectorDelivery : exec (.vectorDelivery o vec) s = .next (s.deliver o vec j) := by
  show execVectorDelivery o vec s = _
  unfold execVectorDelivery
  dsimp only
  rw [if_pos (by simp [he, hh]), hc]

theorem vectorDelivery_steward (hk : (s.irSlot o (8 * vec + j)).kind = 3) : exec (.vectorDelivery o vec) s = .next ((s.spent o vec j).emit (.steward vec)) := by
  rw [exec_vectorDelivery he hh hc]
  unfold State.deliver
  dsimp only
  rw [hk]
  rfl

theorem vectorDelivery_tile (hk : (s.irSlot o (8 * vec + j)).kind = 2) : exec (.vectorDelivery o vec) s =
    .next ((s.spent o vec j).modTile (s.irSlot o (8 * vec + j)).index.toNat fun y => { y with priv := { y.priv with irqPend := y.priv.irqPend ||| (1#16 <<< (s.irSlot o (8 * vec + j)).line.toNat) } }) := by
  rw [exec_vectorDelivery he hh hc]
  unfold State.deliver
  dsimp only
  rw [hk]
  rfl

theorem vectorDelivery_host (hk : (s.irSlot o (8 * vec + j)).kind = 1) : exec (.vectorDelivery o vec) s =
    .next (((s.spent o vec j).modFn (ownerFn o) fun y => { y with hint := false }).sendMsix (ownerFn o) (s.irSlot o (8 * vec + j)).index.toNat) := by
  rw [exec_vectorDelivery he hh hc]
  unfold State.deliver
  dsimp only
  rw [hk]
  rfl

end

/-- A message of an entry is sent where nothing masks it, and otherwise waits (R421). -/
theorem State.sendMsix_eq (s : State) (g k : Nat) : s.sendMsix g k =
    if (s.fn g).fnMask = false ∧ (Tbl.get ({} : Msix) (s.fn g).msix k).masked = false ∧ (s.fn g).busMaster = true then
      s.emit (.msix (Fin.ofNat 17 g) k (Tbl.get ({} : Msix) (s.fn g).msix k).addr (Tbl.get ({} : Msix) (s.fn g).msix k).data)
    else s.setMsix g k { Tbl.get ({} : Msix) (s.fn g).msix k with pending := true } := by
  unfold State.sendMsix
  dsimp only
  split
  · rename_i h
    rw [if_neg]
    · rfl
    · rintro ⟨h1, h2, h3⟩
      rw [h1, h2, h3] at h
      exact absurd h (by decide)
  · rename_i h
    rw [if_pos]
    simpa [and_assoc] using h

section
variable {g k : Nat}

/-- The function's HINT clears, and the message is sent. -/
theorem State.hint_sendMsix (hm : (s.fn g).fnMask = false) (hk : (Tbl.get ({} : Msix) (s.fn g).msix k).masked = false) (hb : (s.fn g).busMaster = true) :
    (s.modFn g fun y => { y with hint := false }).sendMsix g k =
      (s.modFn g fun y => { y with hint := false }).emit (.msix (Fin.ofNat 17 g) k (Tbl.get ({} : Msix) (s.fn g).msix k).addr (Tbl.get ({} : Msix) (s.fn g).msix k).data) := by
  rw [State.sendMsix_eq, State.fn_modFn]
  exact if_pos ⟨hm, hk, hb⟩

/-- The function's HINT clears, and the message waits. -/
theorem State.hint_holdMsix (h : (s.fn g).fnMask = true ∨ (Tbl.get ({} : Msix) (s.fn g).msix k).masked = true ∨ (s.fn g).busMaster = false) :
    (s.modFn g fun y => { y with hint := false }).sendMsix g k = (s.modFn g fun y => { y with hint := false }).setMsix g k { Tbl.get ({} : Msix) (s.fn g).msix k with pending := true } := by
  rw [State.sendMsix_eq, State.fn_modFn]
  refine if_neg ?_
  rintro ⟨h1, h2, h3⟩
  dsimp only at h1 h2 h3
  rw [h1, h2, h3] at h
  simp at h

end

/-! ### An event for a vector (R393) -/

theorem State.vecEvent_held {o v : Nat} (h : (s.irVec o v).en = true) : (s.vecEvent o v).irVec o v = { s.irVec o v with held := (s.irVec o v).held + 1 } := by
  unfold State.vecEvent
  dsimp only
  rw [if_pos h]
  exact Tbl.get_put_same (d := ({} : IrVec)) _ _ _

/-- The Position Clock's event register belongs to the device (R402). -/
theorem State.srcEvent_clock (s : State) : s.srcEvent 3953 = s.vecEvent 16 (s.irSrc 3953).vector.toNat := rfl

/-- A bit of HUB_POS_EVT that a source selects asserts it (R393). -/
theorem State.asserted_clock (he : (s.irSrc 3953).en = true) (hm : (s.irSrc 3953).mask.getLsbD 6 = true) (hb : s.clk.evt.getLsbD 6 = true) : s.asserted 3953 = true := by
  have set : s.clk.evt &&& (s.irSrc 3953).mask ≠ 0 := fun e => by
    have bit := congrArg (fun w : W32 => w.getLsbD 6) e
    rw [BitVec.getLsbD_and, hb, hm] at bit
    exact absurd bit (by decide)
  unfold State.asserted
  dsimp only
  rw [he, Bool.true_and]
  exact decide_eq_true set

theorem aged_raises (hh : s.clk.state = .holdover) (ha : s.clk.agedBit = false) (h0 : s.asserted 3953 = false) (he : (s.irSrc 3953).en = true) (hm : (s.irSrc 3953).mask.getLsbD 6 = true)
    (hv : (s.irVec 16 (s.irSrc 3953).vector.toNat).en = true) :
    ∃ n, exec .aged s = .next n ∧ n.irVec 16 (s.irSrc 3953).vector.toNat = { s.irVec 16 (s.irSrc 3953).vector.toNat with held := (s.irVec 16 (s.irSrc 3953).vector.toNat).held + 1 } := by
  have rose : ∀ t : State, t.irq = s.irq → t.clk.evt = s.clk.evt ||| 64 → t.asserted 3953 = true := fun t hi hc => by
    have src : t.irSrc 3953 = s.irSrc 3953 := by unfold State.irSrc; rw [hi]
    refine State.asserted_clock (by rw [src, he]) (by rw [src, hm]) ?_
    rw [hc, BitVec.getLsbD_or]
    exact Bool.or_true _
  have event : (s.modClk fun c => { c with agedBit := true }).raisePos 64 = { s with clk := { s.clk with agedBit := true, evt := s.clk.evt ||| 64 } }.srcEvent 3953 := by
    refine if_pos ?_
    exact Bool.and_eq_true_iff.2 ⟨rose _ rfl rfl, (congrArg not h0 :)⟩
  refine ⟨_, exec_aged s, ?_⟩
  rw [if_pos ⟨hh, ha⟩, event, State.srcEvent_clock]
  exact State.vecEvent_held hv

/-- Settles O39: each access through the register that its offset names, the deliveries by the kind of their slot. -/
theorem registersAreCheckedStagedAndLatched : Obligations.RegistersAreCheckedStagedAndLatched := by
  unfold Obligations.RegistersAreCheckedStagedAndLatched
  intro s f t q off size v w lo k o vec
  refine ⟨fun hd hs => ⟨registerWrite_size hd, fun r hf hr hq => registerWrite_foreign hd hf hr hq, fun i hf => registerWrite_apt hd hs hf⟩, fun r i x hh ht hx hr ha h8 => ?_,
    fun x hd h4 hm hx hf h8 hw hro => ⟨lowHalfWrite_stages hd h4 hm hx hf h8 hw hro, fun ho => ⟨highHalfWrite_whole hd h4 hm hx hf h8 hw hro ho, fun i => highHalfWrite_apt hd h4 hm hx hf h8 hw hro ho,
      highHalfWrite_alone hd h4 hm hx hf h8 hw hro ho⟩⟩,
    fun hd => ⟨posRead_whole hd, posRead_low hd, fun h => posRead_high hd⟩, fun hd hk => ⟨msixUnmask_sends hd hk, msixUnmask_keeps hd hk, msixUnmask_function hk⟩,
    ⟨vectorDelivery_none, fun j he hh hc => ⟨vectorDelivery_steward he hh hc, fun hk => ⟨_, vectorDelivery_tile he hh hc hk, ?_⟩, fun hk => ⟨fun hm hmk hb => ?_, fun h => ?_⟩⟩⟩, aged_raises⟩
  · obtain rfl | rfl := hx
    · exact registerWrite_cuePos_host (hh rfl) hr ha h8
    · exact registerWrite_cuePos_tile (ht rfl) hr ha h8
  · exact ⟨State.tile_modTile _ _ _, fun j hj => State.tile_modTile_ne _ _ hj, rfl⟩
  · have send := State.hint_sendMsix (s := s.spent o vec j) (g := ownerFn o) hm hmk hb
    exact ⟨_, (vectorDelivery_host he hh hc hk).trans (congrArg _ send), rfl, rfl⟩
  · have hold := State.hint_holdMsix (s := s.spent o vec j) (g := ownerFn o) h
    exact ⟨_, (vectorDelivery_host he hh hc hk).trans (congrArg _ hold), State.setMsix_same _ _ _ _, rfl⟩

end Sys2Proof.Machine
end

section
/-! A fault message whose own handover fails counts as a later fault of the room, at once (R119, R365, R372, R388, R389). -/

namespace Sys2Proof.Machine

/-- A formation with one group of fabric tallies of job 9, whose home is device 1. -/
def memberForm : FormRec :=
  { room := 0, policy := 0, hbmShare := 1, meshWeight := 1, fabricWeight := 1, dmaRate := 1, quires := 0, sdma := 0, hbmUnits := [], ltBase := 0, ltCount := 0,
    ftBase := 4096, ftCount := 16, jobId := 9, home := 1, cueBase := 0, cueCount := 0, twBase := 0, twCount := 0, perQuire := [] }

/-- An ADVANCE of room 0 for tally 4096 that the home has refused with UNBOUND. -/
def refusedAdvance : FabricMsg := { tally := 4096, amount := 1, jobId := 9, room := 0, source := 4, refused := true }

/-- Device 0 with room 0 formed as a member of job 9, its refused ADVANCE, and an injection of kind 3 at point 5, which the next packet that the device originates for room 0 meets. -/
def memberInjected : State :=
  { rooms := [(0, { state := .formed, form := some memberForm })], tal := { sent := [refusedAdvance] }, integ := { inject := [{ room := 0, point := 5, kind := 3, left := 1 }] } }

/-- FABRIC_NACK_TIMEOUT faults room 0; its FAULT_TO_HOME fails point 5, which counts as a secondary fault (R365, R389). -/
theorem memberInjected_times_out :
    ∃ n, exec (.fabricNackTimeout 4096) memberInjected = .next n ∧ (n.room 0).flt.cause = 6 ∧ (n.room 0).flt.secondary = 1 :=
  ⟨_, rfl, by decide +kernel⟩

/-- Refutes O33: where the room's FAULT_TO_HOME fails its handover at point 5, that failure is a second fault of the room, and SECONDARY is 1 at the end of FABRIC_NACK_TIMEOUT, not 0. -/
theorem not_fabricTallyMessagesKeepHomeAndMirrors : ¬ Obligations.FabricTallyMessagesKeepHomeAndMirrors := by
  unfold Obligations.FabricTallyMessagesKeepHomeAndMirrors
  intro h
  obtain ⟨-, -, -, -, -, retried, -⟩ := h memberInjected (0, ctrlPacket 0 0 0 []) 0 4096 0 0 0 0 0 0 0 memberForm 0 [] refusedAdvance
  obtain ⟨-, times_out⟩ := retried (by decide +kernel) rfl
  obtain ⟨n, run, -, faulted⟩ := times_out (by decide +kernel)
  obtain ⟨-, -, -, -, once, -⟩ := faulted
  obtain ⟨n', run', -, twice⟩ := memberInjected_times_out
  obtain rfl : n' = n := Host.Outcome.next.inj (run'.symm.trans run)
  exact absurd (twice.symm.trans once) (by decide)

end Sys2Proof.Machine
end

section
/-! A launch that ends a tile's WAITS can overflow a performance counter, which raises line 0 beside line 1 (R152, R167, R168, R175, R180). -/

namespace Sys2Proof.Machine

/-- A formation with quire 0 and the cue entries 16 to 31. -/
def launchForm : FormRec :=
  { room := 0, policy := 0, hbmShare := 1, meshWeight := 1, fabricWeight := 1, dmaRate := 1, quires := 1, sdma := 0, hbmUnits := [], ltBase := 0, ltCount := 0,
    ftBase := 0, ftCount := 0, jobId := 0, home := 0, cueBase := 16, cueCount := 16, twBase := 0, twCount := 0, perQuire := [] }

/-- A LAUNCH_TASK of tile 0 of quire 0 at address 0x40 whose fire is due. -/
def launchCue : CueEntry := { action := 3, amount := 1, addr := 0x40, arm := true, due := some 0 }

/-- A tile that waits in WAITS D0; its counter 0 counts retired instructions and stands at 2^48 - 1. -/
def fullCounterTile : Tile := { run := .waitS 0, perf := { en := true, sel := [(0, 2)], cnt := [(0, -1)] } }

/-- The part with a locked clock, room 0 formed, tile 0 as `fullCounterTile` and cue entry 16 due. -/
def launchOverflows : State :=
  { clk := { state := .locked }, rooms := [(0, { state := .formed, form := some launchForm })], cue := [(16, launchCue)], tiles := [(0, fullCounterTile)] }

/-- The launch wakes the tile, the WAITS retires, the counter wraps, and lines 0 and 1 are pending. -/
theorem launchOverflows_raises_both : ∃ n, exec (.launchTask (.dev 16)) launchOverflows = .next n ∧ (n.tile 0).priv.irqPend = 3 :=
  ⟨_, rfl, by decide +kernel⟩

/-- Refutes O35: a LAUNCH_TASK may raise line 0 PERF of a tile beside line 1, where the instruction that it lets retire is the one that overflows a counter. -/
theorem not_cuesFireTheirAction : ¬ Obligations.CuesFireTheirAction := by
  unfold Obligations.CuesFireTheirAction
  intro h
  obtain ⟨-, -, launch, -⟩ := h launchOverflows (.dev 16) 0 launchForm launchCue
  obtain ⟨-, launched, -⟩ := launch (by unfold Fires; decide +kernel)
  obtain ⟨n, run, -, tiles, -⟩ := launched (by decide +kernel) rfl
  obtain ⟨-, pending, -⟩ := tiles 0 (by decide) (by decide)
  obtain ⟨-, -, one, -⟩ := pending (by decide) (by decide)
  obtain ⟨n', run', both⟩ := launchOverflows_raises_both
  obtain rfl : n' = n := Host.Outcome.next.inj (run'.symm.trans run)
  exact absurd (both.symm.trans one) (by decide)

end Sys2Proof.Machine
end

section
/-! SUPPORT. A write of CTL reaches the entry that it names (R63, R66, R247, R410). -/

namespace Sys2Proof.Machine

variable {s u : State} {w : Writer} {c : CueRef} {r : RoomId}

/-- From `s` to `u` nothing changes but what `w` has staged. -/
def Untouched (s u : State) (w : Writer) : Prop := StagingOnly s u w ∧ { u with tiles := s.tiles, fns := s.fns } = s

theorem untouched_of_unstage (s : State) (f : FnId) (b : Nat) : Untouched s (s.modFn f fun y => y.unstage b) (.host f) := by
  refine ⟨⟨fun g hg => State.fn_modFn_ne s _ fun e => hg (congrArg Writer.host (Fin.ext e)), fun g => ?_, fun _ _ => rfl, fun _ => rfl⟩, rfl⟩
  by_cases hg : g = f
  · subst hg
    rw [State.fn_modFn]
    exact Fn.unstage_frame _ _
  · rw [State.fn_modFn_ne s _ fun e => hg (Fin.ext e)]

theorem untouched_of_tileStaging {t : TileId} (h : TileStaging s u t) : Untouched s u (.tile t) := by
  obtain ⟨h1, h2, h3⟩ := h
  refine ⟨⟨fun g _ => (congrArg (fun z : State => z.fn g) h3 :), fun g => ?_, fun k hk => h1 k fun e => hk t rfl e.symm, fun k => ?_⟩, (congrArg (fun z : State => ({ z with fns := s.fns } : State)) h3)⟩
  · rw [show u.fn g = s.fn g from (congrArg (fun z : State => z.fn g) h3 :)]
  · by_cases hk : k = t
    · subst hk; exact h2
    · rw [h1 k hk]

/-! ### What an untouched state agrees in -/

theorem Untouched.cueAt (h : Untouched s u w) (d : CueRef) : u.cueAt d = s.cueAt d := (congrArg (fun z : State => z.cueAt d) h.2 :)
theorem Untouched.cueCheck (h : Untouched s u w) (d : CueRef) (e : CueEntry) : u.cueCheck d e = s.cueCheck d e := (congrArg (fun z : State => z.cueCheck d e) h.2 :)
theorem Untouched.ent (h : Untouched s u w) : u.ent = s.ent := (congrArg State.ent h.2 :)
theorem Untouched.clk (h : Untouched s u w) : u.clk = s.clk := (congrArg State.clk h.2 :)
theorem Untouched.dev (h : Untouched s u w) : u.dev = s.dev := (congrArg State.dev h.2 :)
theorem Untouched.onlyCue (h : Untouched s u w) (c : CueRef) (e : CueEntry) : OnlyCue s (u.setCue c e) w c e := onlyCue_of_staging h.1 h.2 c e
theorem Untouched.onlyCue_same (h : Untouched s u w) (c : CueRef) : OnlyCue s u w c (s.cueAt c) :=
  ⟨h.cueAt c, fun d _ => h.cueAt d, fun k => by rw [show u.quire k = s.quire k from (congrArg (fun z : State => z.quire k) h.2 :)], h.1,
    (congrArg (fun z : State => ({ z with cue := s.cue, quires := s.quires, irq := s.irq } : State)) h.2)⟩

/-! ### CTL of a quire's entry -/

theorem State.qregWrite_cueCtl (s : State) (r : Nat) (q : QuireId) (i : Fin 64) (v : Nat) : s.qregWrite r q (32 * i + 16) v = s.cueCtlWrite (.quire q i) (some r) v := by
  have entry : CueRef.quire (toQuire q) (Fin.ofNat 64 ((32 * i + 16) / 32)) = .quire q i := by
    rw [show (32 * i.val + 16) / 32 = i by omega]
    exact congrArg₂ CueRef.quire (Fin.ext (Nat.mod_eq_of_lt q.isLt)) (Fin.ext (Nat.mod_eq_of_lt i.isLt))
  unfold State.qregWrite
  rw [if_pos (by omega), entry, show (32 * i.val + 16) % 32 / 8 = 2 by omega]
  unfold State.cueRegWrite
  exact if_pos rfl

/-- The block of a quire takes a cue's CTL through the function of its room. -/
theorem State.regPut_cueCtl {f r : Nat} (hf : f = r + 1) (hr : (s.room r).exists' = true) (q : QuireId) (i : Fin 64) (v : Nat) :
    s.regPut f (0x100000 + 0x10000 * q + 32 * i + 16) v = s.cueCtlWrite (.quire q i) (some r) v := by
  have place : (0x100000 + 0x10000 * q.val + 32 * i.val + 16 - 0x100000) / 0x10000 = q ∧ (0x100000 + 0x10000 * q.val + 32 * i.val + 16) % 0x10000 = 32 * i + 16 := by omega
  unfold State.regPut
  rw [hostSpan_of_ge (by omega), if_neg (by decide), if_neg (by omega), if_neg (by simp only [Bool.and_eq_true, decide_eq_true_eq]; omega), hf, Nat.add_sub_cancel, hr, if_pos rfl]
  unfold State.roomRegWrite
  simp only [Bool.and_eq_true, decide_eq_true_eq]
  rw [if_neg (by omega), if_neg (by omega), if_neg (by omega), if_neg (by omega), if_neg (by omega), if_neg (by omega), if_pos (by omega), place.1, place.2]
  unfold State.quireBlockWrite
  simp only [Bool.and_eq_true, Bool.or_eq_true, decide_eq_true_eq]
  rw [if_neg (by omega), if_neg (by omega)]
  exact State.qregWrite_cueCtl s r q i v

theorem writerPut_quire_host {f : FnId} {q : QuireId} (hr : WriterReaches s (.host f) q r) (i : Fin 64) (v : W64) :
    s.writerPut (.host f) (cueOffset (.quire q i) + 16) 8 v = (s.modFn f fun y => y.unstage (0x100000 + 0x10000 * q + 32 * i + 16)).cueCtlWrite (.quire q i) (some r) v.toNat := by
  obtain ⟨hn, hq, -, hf, hh⟩ := hr
  have room := State.exists_of_quireRoom hq
  have off : (BitVec.ofNat 24 (0x100000 + 0x10000 * q.val + 32 * i.val + 16)).toNat = 0x100000 + 0x10000 * q.val + (32 * i.val + 16) := by rw [BitVec.toNat_ofNat]; omega
  have span := fnSpan_quire (f := f) (q := q) (off := 32 * i.val + 16) (by omega) q.isLt (by omega) ((qregAt_cue (by omega)).trans (by rw [show (32 * i.val + 16) / 8 * 8 = 32 * i + 16 by omega]))
  have own : s.regForeign f (0x100000 + 0x10000 * q.val + (32 * i.val + 16)) = false := by rw [State.regForeign_quire hf room q.isLt (by omega), hq]; simp
  have writable : (decide (32 * i.val + 16 = 0x800) || decide (32 * i.val + 16 = 0x820) || (decide (0x1000 ≤ 32 * i.val + 16) && decide ((32 * i.val + 16) % 64 = 16))) = false := by
    simp only [Bool.or_eq_false_iff, Bool.and_eq_false_iff, decide_eq_false_iff_not]
    omega
  show s.tlp f (.reg (BitVec.ofNat 24 (0x100000 + 0x10000 * q.val + 32 * i.val + 16)) 8 v) = _
  rw [State.tlp_of_direct ⟨hn, hh⟩, off, show ((8 : Fin 16) : Nat) = 8 from rfl, State.bar0Write_whole (accessOk_eight (by omega)) (msixArea_below (by omega)) span (Nat.le_refl _) own writable rfl, toNat_mod_64]
  exact State.regPut_cueCtl (s := s.modFn f fun y => y.unstage _) hf room q i v.toNat

/-- A supervisor of a quire's tile writes a cue's CTL by four words (R247). -/
theorem State.tilePut_cueCtl {t r : Nat} {q : QuireId} {i : Fin 64} {v : W64} (hq : tileQuire t = q) (hs : swS (s.tile t).sw = true) (hr : s.quireRoom q = some r) :
    ∃ u, TileStaging s u t ∧ s.tilePut t (32 * i + 16) 8 v = u.cueCtlWrite (.quire q i) (some r) v.toNat := by
  have at8 : ∀ j, j < 4 → qregAt (32 * i + 16 + 2 * j) = some (32 * i.val + 16, 8) := fun j hj => by
    rw [qregAt_cue (by omega), show (32 * i.val + 16 + 2 * j) / 8 * 8 = 32 * i + 16 by omega]
  have span : qregSpan (32 * i + 16) (8 / 2) = true := by
    unfold qregSpan
    rw [show qregAt (32 * i + 16) = some (32 * i.val + 16, 8) from at8 0 (by decide)]
    exact decide_eq_true (by omega)
  have room : s.tileRoom t = some r := by unfold State.tileRoom; rw [hq]; exact hr
  have one := Staged.first (s := s) (t := t) (w := wordOf v 0) (at8 0 (by decide)) (by decide)
  have two := one.next (off := 32 * i + 16 + 2) (w := wordOf v 1) rfl (at8 1 (by decide)) (by omega)
  have three := two.next (off := 32 * i + 16 + 2 + 2) (w := wordOf v 2) rfl (at8 2 (by decide)) (by omega)
  obtain ⟨u, hu, run⟩ := three.completes (off := 32 * i + 16 + 2 + 2 + 2) (w := wordOf v 3) rfl (at8 3 (by decide)) (by omega) room
  refine ⟨u, hu, ?_⟩
  have store : s.tilePut t (32 * i + 16) 8 v = s.qregStore t (32 * i + 16) [wordOf v 0, wordOf v 1, wordOf v 2, wordOf v 3] := by
    unfold State.tilePut
    rw [span, hs]
    rfl
  rw [store, ← State.qregWrite_cueCtl u r q i, ← hq, ← wordOf_sum v]
  exact run

theorem writerPut_quire_tile {t : TileId} {q : QuireId} (hr : WriterReaches s (.tile t) q r) (i : Fin 64) (v : W64) :
    ∃ u, TileStaging s u t ∧ s.writerPut (.tile t) (cueOffset (.quire q i) + 16) 8 v = u.cueCtlWrite (.quire q i) (some r) v.toNat := by
  obtain ⟨-, hq, -, ht, hs⟩ := hr
  obtain ⟨u, hu, run⟩ := State.tilePut_cueCtl (i := i) (v := v) ht hs hq
  refine ⟨u, hu, Eq.trans ?_ run⟩
  show (if (0x100000 + 0x10000 * q.val + 32 * i.val + 16) / 0x10000 = 0x10 + tileQuire t then s.tilePut t ((0x100000 + 0x10000 * q.val + 32 * i.val + 16) % 0x10000) 8 v else s) = _
  rw [if_pos (by omega), show (0x100000 + 0x10000 * q.val + 32 * i.val + 16) % 0x10000 = 32 * i + 16 by omega]

/-! ### CTL of a device's entry -/

/-- The entries that rooms own lie below 2032 (R63). -/
theorem State.cueOwnerOf_dev {i : Fin 2048} (h : s.cueOwnerOf (.dev i) = some r.val) : i.val < 2032 := by
  by_contra hi
  have dev : cueIsDevice (.dev i) = true := decide_eq_true (Nat.le_of_not_lt hi)
  unfold State.cueOwnerOf at h
  rw [dev, if_pos rfl] at h
  cases h

theorem writerPut_dev {f : FnId} {i : Fin 2048} (ho : s.cueOwnerOf (.dev i) = some r.val) (hr : HostAt s f r) (v : W64) :
    s.writerPut (.host f) (cueOffset (.dev i) + 16) 8 v = (s.modFn f fun y => y.unstage (0x30000 + 32 * i + 16)).cueCtlWrite (.dev i) (some r) v.toNat := by
  obtain ⟨hn, hf, hh, room⟩ := hr
  have low := State.cueOwnerOf_dev ho
  have off : (BitVec.ofNat 24 (0x30000 + 32 * i.val + 16)).toNat = 0x30000 + 32 * i.val + 16 := by rw [BitVec.toNat_ofNat]; omega
  have span : fnSpan f (0x30000 + 32 * i.val + 16) = some { base := 0x30000 + 32 * i.val + 16, size := 8, wide := true } := by
    unfold fnSpan vfSpan
    rw [if_neg (by omega), hostSpan_of_ge (by omega)]
    simp only [Bool.and_eq_true, decide_eq_true_eq]
    rw [if_neg (by omega), if_neg (by omega), if_neg (by omega), if_pos (by omega)]
    unfold span8
    rw [if_pos (by omega), show (0x30000 + 32 * i.val + 16) / 8 * 8 = 0x30000 + 32 * i.val + 16 by omega]
  have own : s.regForeign f (0x30000 + 32 * i.val + 16) = false := by
    unfold State.regForeign State.foreignReg
    simp only [Bool.and_eq_true, decide_eq_true_eq]
    rw [if_neg (by omega), if_neg (by omega), if_neg (by omega), Bool.and_false]
  show s.tlp f (.reg (BitVec.ofNat 24 (0x30000 + 32 * i.val + 16)) 8 v) = _
  rw [State.tlp_of_direct ⟨hn, hh⟩, off, show ((8 : Fin 16) : Nat) = 8 from rfl, State.bar0Write_whole (accessOk_eight (by omega)) (msixArea_below (by omega)) span (Nat.le_refl _) own rfl rfl, toNat_mod_64]
  dsimp only
  have entry : CueRef.dev (Fin.ofNat 2048 ((0x30000 + 32 * i.val + 16 - 0x30000) / 32)) = .dev i := by
    rw [show (0x30000 + 32 * i.val + 16 - 0x30000) / 32 = i by omega]
    exact congrArg CueRef.dev (Fin.ext (Nat.mod_eq_of_lt i.isLt))
  generalize hu : s.modFn f (fun y => y.unstage (0x30000 + 32 * i.val + 16)) = u
  have room' : (u.room r).exists' = true := by rw [← hu]; exact room
  have own' : u.cueOwnerOf (.dev i) = some r.val := by rw [← hu]; exact ho
  unfold State.regPut
  rw [hostSpan_of_ge (by omega), if_neg (by decide), if_neg (by omega), if_neg (by simp only [Bool.and_eq_true, decide_eq_true_eq]; omega), hf, Nat.add_sub_cancel, room', if_pos rfl]
  unfold State.roomRegWrite
  simp only [Bool.and_eq_true, decide_eq_true_eq]
  rw [if_neg (by omega), if_neg (by omega), if_pos (by omega), entry, if_pos own', show (0x30000 + 32 * i.val + 16) % 32 / 8 = 2 by omega]
  unfold State.cueRegWrite
  exact if_pos rfl

/-! ### Any writer -/

/-- A write of CTL by the entry's owner is that write of CTL, once nothing but the writer's staging has changed. -/
theorem CueWriter.writesCtl (h : CueWriter s w c r) (v : W64) : ∃ u, Untouched s u w ∧ s.writerPut w (cueOffset c + 16) 8 v = u.cueCtlWrite c (some r) v.toNat := by
  obtain ⟨owner, reach⟩ := h
  cases c with
  | dev i =>
    obtain ⟨f, rfl, at'⟩ := reach
    exact ⟨_, untouched_of_unstage s f _, writerPut_dev owner at' v⟩
  | quire q i =>
    cases w with
    | host f => exact ⟨_, untouched_of_unstage s f _, writerPut_quire_host reach i v⟩
    | tile t =>
      obtain ⟨u, hu, run⟩ := writerPut_quire_tile reach i v
      exact ⟨u, untouched_of_tileStaging hu, run⟩

end Sys2Proof.Machine
end

section
/-! SUPPORT. What arming and disarming an entry does (R67, R75, R79). -/

namespace Sys2Proof.Machine

variable {s u t : State} {w : Writer} {c d : CueRef} {r : RoomId} {e x : CueEntry} {v k : Nat}

/-! ### What an entry that is written leaves as it was -/

@[simp] theorem State.clk_setCue (s : State) (c : CueRef) (e : CueEntry) : (s.setCue c e).clk = s.clk := by cases c <;> rfl
@[simp] theorem State.ent_setCue (s : State) (c : CueRef) (e : CueEntry) : (s.setCue c e).ent = s.ent := by cases c <;> rfl
@[simp] theorem State.dev_setCue (s : State) (c : CueRef) (e : CueEntry) : (s.setCue c e).dev = s.dev := by cases c <;> rfl
@[simp] theorem State.posValid_setCue (s : State) (c : CueRef) (e : CueEntry) : (s.setCue c e).posValid = s.posValid := State.posValid_congr (by rw [State.clk_setCue])
@[simp] theorem State.cueCheck_setCue (s : State) (c d : CueRef) (e x : CueEntry) : (s.setCue c e).cueCheck d x = s.cueCheck d x := by cases c <;> cases d <;> rfl
@[simp] theorem State.cueReached_setCue (s : State) (c : CueRef) (e x : CueEntry) : (s.setCue c e).cueReached x = s.cueReached x := by
  unfold State.cueReached; rw [State.cueE_of_ent (State.ent_setCue s c e), State.clk_setCue]
@[simp] theorem State.classOk_setCue (s : State) (c : CueRef) (e x : CueEntry) : (s.setCue c e).classOk x = s.classOk x := State.classOk_of_ent (State.ent_setCue s c e) x

theorem State.cueReached_congr (he : t.ent = s.ent) (hc : t.clk = s.clk) (x : CueEntry) : t.cueReached x = s.cueReached x := by
  unfold State.cueReached; rw [State.cueE_of_ent he, hc]

/-- Arming does not move E. -/
theorem State.cueReached_armed (s : State) (x : CueEntry) : s.cueReached (armed x) = s.cueReached x := rfl

/-- An entry that is written again, with nothing beside it. -/
theorem OnlyCue.setCue (h : OnlyCue s t w c x) (e : CueEntry) : OnlyCue s (t.setCue c e) w c e := by
  obtain ⟨-, h2, h3, ⟨k1, k2, k3, k4⟩, h5⟩ := h
  obtain ⟨l1, l2, l3, -, l5⟩ := State.setCue_onlyCue t w c e
  have fns : ∀ k, (t.setCue c e).fn k = t.fn k := fun k => by cases c <;> rfl
  have tiles : ∀ k, (t.setCue c e).tile k = t.tile k := fun k => by cases c <;> rfl
  refine ⟨l1, fun d hd => (l2 d hd).trans (h2 d hd), fun k => ?_, ⟨fun g hg => (fns g).trans (k1 g hg), fun g => (fns g) ▸ k2 g, fun k hk => (tiles k).trans (k3 k hk), fun k => (tiles k) ▸ k4 k⟩, ?_⟩
  · exact (congrArg (fun y : Quire => { y with cue := (s.quire k).cue }) (l3 k)).trans (h3 k)
  · exact (congrArg (fun z : State => ({ z with cue := s.cue, quires := s.quires, tiles := s.tiles, fns := s.fns, irq := s.irq } : State)) l5).trans h5

/-! ### An entry whose E has been reached when it is armed (R75, R79) -/

/-- A cue whose E lies ahead waits for it. -/
theorem State.cueDue_ahead (late : Bool) (key : Pos) (h : s.cueReached (s.cueAt c) = false) : s.cueDue c late key = s := by
  unfold State.cueDue State.cueSettle
  exact if_pos (by simp [h])

section
variable (ha : (s.cueAt c).arm = true) (hd : (s.cueAt c).due = none) (hr : s.cueReached (s.cueAt c) = true) (hc : s.classOk (s.cueAt c) = true)
include ha hd hr hc

/-- A late cue with LATE 0 is due at once. -/
theorem State.cueDue_late (key : Pos) (hl : (s.cueAt c).late = false) :
    s.cueDue c true key = (s.setCue c { s.cueAt c with due := some key, dueAt := s.clk.pos, lateHit := true }).countLate c 1 := by
  unfold State.cueDue State.cueSettle
  simp [ha, hd, hr, hc, hl]

/-- A late cue with LATE 1 that does not repeat is dropped. -/
theorem State.cueDue_dropped (key : Pos) (hl : (s.cueAt c).late = true) (hp : (s.cueAt c).rpt = 0) :
    s.cueDue c true key = (s.setCue c { cueFinish (s.cueAt c) with lateHit := true }).countLate c 1 := by
  have after : s.cueAfter (s.cueAt c) true = cueFinish (s.cueAt c) := by
    unfold State.cueAfter
    exact (if_pos hp).trans rfl
  unfold State.cueDue State.cueSettle
  dsimp only
  rw [ha, hd, hr, hc, hl, after]
  exact if_neg (by simp)

end

/-- #2042.01 counts the late cue. -/
theorem State.cueLate_countLate (s : State) (c : CueRef) : (s.countLate c 1).dev.cueLate = s.dev.cueLate + 1 := by
  unfold State.countLate State.raiseCue
  cases c with
  | quire q k => dsimp only; rw [State.srcRose_dev]; rfl
  | dev i =>
    dsimp only
    split <;> rw [State.srcRose_dev] <;> rfl

/-! ### Arming now (R67) -/

theorem State.cueArmNow_ahead (h : s.posValid = false ∨ s.cueReached x = false) : s.cueArmNow c x = s.setCue c (armed x) := by
  show (if (s.setCue c (armed x)).posValid then (s.setCue c (armed x)).cueDue c true (s.setCue c (armed x)).clk.pos else s.setCue c (armed x)) = _
  rw [State.posValid_setCue]
  obtain h | h := h
  · rw [h]; rfl
  · rw [State.cueDue_ahead _ _ (by rw [State.cueAt_setCue, State.cueReached_setCue, State.cueReached_armed, h])]
    exact ite_self _

section
variable (hv : s.posValid = true) (hr : s.cueReached x = true) (hc : s.classOk x = true)
include hv hr hc

theorem State.cueArmNow_late (hl : x.late = false) :
    s.cueArmNow c x = ((s.setCue c (armed x)).setCue c { armed x with lateHit := true, due := some s.clk.pos, dueAt := s.clk.pos }).countLate c 1 := by
  show (if (s.setCue c (armed x)).posValid then (s.setCue c (armed x)).cueDue c true (s.setCue c (armed x)).clk.pos else s.setCue c (armed x)) = _
  have at' := State.cueAt_setCue s c (armed x)
  rw [State.posValid_setCue, hv, if_pos rfl, State.cueDue_late (by rw [at']; rfl) (by rw [at']; rfl) (by rw [at', State.cueReached_setCue]; exact hr) (by rw [at', State.classOk_setCue]; exact hc) _ (by rw [at']; exact hl),
    at', State.clk_setCue]

theorem State.cueArmNow_dropped (hl : x.late = true) (hp : x.rpt = 0) :
    s.cueArmNow c x = ((s.setCue c (armed x)).setCue c { armed x with lateHit := true, arm := false, done := true }).countLate c 1 := by
  show (if (s.setCue c (armed x)).posValid then (s.setCue c (armed x)).cueDue c true (s.setCue c (armed x)).clk.pos else s.setCue c (armed x)) = _
  have at' := State.cueAt_setCue s c (armed x)
  rw [State.posValid_setCue, hv, if_pos rfl, State.cueDue_dropped (by rw [at']; rfl) (by rw [at']; rfl) (by rw [at', State.cueReached_setCue]; exact hr) (by rw [at', State.classOk_setCue]; exact hc) _ (by rw [at']; exact hl)
    (by rw [at']; exact hp), at']
  rfl

end

/-! ### CUE_ERR (R64, R89, R392) -/

theorem State.srcRose_quire (s t : State) (n q : Nat) : (s.srcRose t n).quire q = t.quire q := by
  obtain ⟨i, h⟩ := State.srcRose_eq s t n
  rw [h]; rfl
theorem State.srcRose_room (s t : State) (n r : Nat) : (s.srcRose t n).room r = t.room r := by
  obtain ⟨i, h⟩ := State.srcRose_eq s t n
  rw [h]; rfl

/-- A refusal changes no entry. -/
@[simp] theorem State.cueAt_cueErrRec (s : State) (c d : CueRef) (w : Option Nat) (k : Nat) : (s.cueErrRec c w k).cueAt d = s.cueAt d := by
  unfold State.cueErrRec
  dsimp only
  split
  next q i =>
    refine (State.cueAt_of_irq (State.srcRose_eq _ _ _) d).trans (State.cueAt_of_same (s := s) (t := s.modQuire q _) rfl (fun p => ?_) d)
    by_cases hp : p = q
    · subst hp; rw [State.quire_modQuire]
    · rw [State.quire_modQuire_ne _ _ hp]
  · exact (State.cueAt_of_irq (State.srcRose_eq _ _ _) d).trans (State.cueAt_of_same rfl (fun _ => rfl) d)
  · exact (State.cueAt_of_irq (State.srcRose_eq _ _ _) d).trans (State.cueAt_of_same rfl (fun _ => rfl) d)

theorem State.cueErrOf_cueErrRec (s : State) (c : CueRef) (r k : Nat) : cueErrOf (s.cueErrRec c (some r) k) c r = BitVec.ofNat 32 (65536 * k + cueIndex c) := by
  rw [Nat.mul_comm 65536 k]
  cases c with
  | quire q i => exact (congrArg Quire.cueErr (State.srcRose_quire s _ _ q)).trans (congrArg Quire.cueErr (State.quire_modQuire s q _))
  | dev i => exact (congrArg Room.cueErr (State.srcRose_room s _ _ r)).trans (congrArg Room.cueErr (State.room_modRoom s r _))

/-! ### A write of CTL (R67) -/

section
variable (ha : (s.cueAt c).arm = false)
include ha

theorem State.cueCtlWrite_arms (hv : v.testBit 0 = true) (hk : s.cueCheck c (withCtl (s.cueAt c) v) = 0) (o : Option Nat) :
    s.cueCtlWrite c o v = (s.setCue c (withCtl (s.cueAt c) v)).cueArmNow c (withCtl (s.cueAt c) v) := by
  unfold State.cueCtlWrite
  dsimp only
  rw [ha, if_neg (by decide), if_pos hv, State.cueCheck_setCue, hk]
  rfl

theorem State.cueCtlWrite_refused (hv : v.testBit 0 = true) (hk : s.cueCheck c (withCtl (s.cueAt c) v) ≠ 0) (o : Option Nat) :
    s.cueCtlWrite c o v = (s.setCue c (withCtl (s.cueAt c) v)).cueErrRec c o (s.cueCheck c (withCtl (s.cueAt c) v)) := by
  unfold State.cueCtlWrite
  dsimp only
  rw [ha, if_neg (by decide), if_pos hv, State.cueCheck_setCue]
  split
  · contradiction
  · rfl

theorem State.cueCtlWrite_unarmed (hv : v.testBit 0 = false) (o : Option Nat) : s.cueCtlWrite c o v = s.setCue c (withCtl (s.cueAt c) v) := by
  unfold State.cueCtlWrite
  dsimp only
  rw [ha, if_neg (by decide), hv]
  rfl

end

section
variable (ha : (s.cueAt c).arm = true)
include ha

theorem State.cueCtlWrite_armed_same (hv : v.testBit 0 = true) (he : withCtl (s.cueAt c) v = s.cueAt c) (o : Option Nat) : s.cueCtlWrite c o v = s := by
  unfold State.cueCtlWrite
  dsimp only
  rw [if_pos ha, if_pos he, if_pos hv]

theorem State.cueCtlWrite_armed_other (hv : v.testBit 0 = true) (he : withCtl (s.cueAt c) v ≠ s.cueAt c) (o : Option Nat) : s.cueCtlWrite c o v = s.cueErrRec c o 4 := by
  unfold State.cueCtlWrite
  dsimp only
  rw [if_pos ha, if_neg he, if_pos hv]

theorem State.cueCtlWrite_disarms (hv : v.testBit 0 = false) (he : withCtl (s.cueAt c) v = s.cueAt c) (o : Option Nat) : s.cueCtlWrite c o v = s.cueDisarmNow c := by
  unfold State.cueCtlWrite
  dsimp only
  rw [if_pos ha, if_pos he, hv]
  rfl

end

/-! ### ARM of the value written -/

theorem testBit_arm (v : W64) : (v ||| 1).toNat.testBit 0 = true := by
  rw [BitVec.toNat_or, Nat.testBit_or]
  simp
theorem testBit_disarm (v : W64) : (v &&& ~~~1#64).toNat.testBit 0 = false := by
  rw [BitVec.toNat_and, Nat.testBit_and]
  simp

end Sys2Proof.Machine
end

section
/-! CUES. CUE_ARM, CUE_DISARM, ARM_DEVICE_CUE and DISARM_DEVICE_CUE (R63 to R67, R75, R79, R89). -/

namespace Sys2Proof.Machine

variable {s n t : State} {w : Writer} {c d : CueRef} {r : RoomId} {e x : CueEntry} {ctl : W64}

/-! ### CUE_ARM by the entry's owner -/

/-- A cue that is late when it is armed, and then becomes `e`, is counted and leaves every other cue as it was. -/
theorem Untouched.lateCue {u : State} (hu : Untouched s u w) (c : CueRef) (x y e : CueEntry) :
    let n := (((u.setCue c x).setCue c y).setCue c e).countLate c 1
    n.cueAt c = e ∧ (∀ d, d ≠ c → n.cueAt d = s.cueAt d) ∧ n.dev.cueLate = s.dev.cueLate + 1 := by
  refine ⟨by rw [State.cueAt_countLate, State.cueAt_setCue], fun d hd => ?_, ?_⟩
  · rw [State.cueAt_countLate, State.cueAt_setCue_ne _ _ hd, State.cueAt_setCue_ne _ _ hd, State.cueAt_setCue_ne _ _ hd, hu.cueAt]
  · rw [State.cueLate_countLate, State.dev_setCue, State.dev_setCue, State.dev_setCue, hu.dev]

section
variable (h : CueWriter s w c r)
include h

/-- CUE_ARM is a write of CTL with ARM 1. -/
theorem CueWriter.arm (ctl : W64) : ∃ u, Untouched s u w ∧ exec (.cueArm w c ctl) s = .next (u.cueCtlWrite c (some r) (ctl ||| 1).toNat) := by
  obtain ⟨u, hu, run⟩ := CueWriter.writesCtl h (ctl ||| 1)
  exact ⟨u, hu, congrArg Host.Outcome.next run⟩

/-- CUE_DISARM is a write of CTL with ARM 0. -/
theorem CueWriter.disarm (ctl : W64) : ∃ u, Untouched s u w ∧ exec (.cueDisarm w c ctl) s = .next (u.cueCtlWrite c (some r) (ctl &&& ~~~1#64).toNat) := by
  obtain ⟨u, hu, run⟩ := CueWriter.writesCtl h (ctl &&& ~~~1#64)
  exact ⟨u, hu, congrArg Host.Outcome.next run⟩

section
variable (ha : (s.cueAt c).arm = false)
include ha

/-- Where its checks pass, the entry takes CTL and is armed. -/
theorem cueArm_arms (hx : withCtl (s.cueAt c) (ctl ||| 1).toNat = x) (hk : s.cueCheck c x = 0) :
    ∃ u, Untouched s u w ∧ exec (.cueArm w c ctl) s = .next ((u.setCue c x).cueArmNow c x) := by
  obtain ⟨u, hu, run⟩ := CueWriter.arm h ctl
  refine ⟨u, hu, run.trans (congrArg _ ?_)⟩
  rw [State.cueCtlWrite_arms (by rw [hu.cueAt, ha]) (testBit_arm ctl) (by rw [hu.cueAt, hu.cueCheck, hx, hk]), hu.cueAt, hx]

theorem cueArm_ahead (hx : withCtl (s.cueAt c) (ctl ||| 1).toNat = x) (hk : s.cueCheck c x = 0) (hp : s.posValid = false ∨ s.cueReached x = false) :
    ∃ n, exec (.cueArm w c ctl) s = .next n ∧ OnlyCue s n w c (armed x) := by
  obtain ⟨u, hu, run⟩ := cueArm_arms h ha hx hk
  refine ⟨_, run, ?_⟩
  rw [State.cueArmNow_ahead (by rw [State.posValid_setCue, State.cueReached_setCue, State.posValid_congr (congrArg Clock.state hu.clk), State.cueReached_congr hu.ent hu.clk]; exact hp)]
  exact OnlyCue.setCue (hu.onlyCue c x) (armed x)

section
variable (hx : withCtl (s.cueAt c) (ctl ||| 1).toNat = x) (hk : s.cueCheck c x = 0) (hv : s.posValid = true) (hr : s.cueReached x = true) (hc : s.classOk x = true)
include hx hk hv hr hc

theorem cueArm_late (hl : x.late = false) :
    ∃ n, exec (.cueArm w c ctl) s = .next n ∧ n.cueAt c = { armed x with lateHit := true, due := some s.clk.pos, dueAt := s.clk.pos } ∧ (∀ d, d ≠ c → n.cueAt d = s.cueAt d) ∧
      n.dev.cueLate = s.dev.cueLate + 1 := by
  obtain ⟨u, hu, run⟩ := cueArm_arms h ha hx hk
  rw [State.cueArmNow_late (by rw [State.posValid_setCue, State.posValid_congr (congrArg Clock.state hu.clk), hv]) (by rw [State.cueReached_setCue, State.cueReached_congr hu.ent hu.clk, hr])
    (by rw [State.classOk_setCue, State.classOk_of_ent hu.ent, hc]) hl, State.clk_setCue, hu.clk] at run
  exact ⟨_, run, hu.lateCue c _ _ _⟩

theorem cueArm_dropped (hl : x.late = true) (hp : x.rpt = 0) :
    ∃ n, exec (.cueArm w c ctl) s = .next n ∧ n.cueAt c = { armed x with lateHit := true, arm := false, done := true } ∧ (∀ d, d ≠ c → n.cueAt d = s.cueAt d) ∧
      n.dev.cueLate = s.dev.cueLate + 1 := by
  obtain ⟨u, hu, run⟩ := cueArm_arms h ha hx hk
  rw [State.cueArmNow_dropped (by rw [State.posValid_setCue, State.posValid_congr (congrArg Clock.state hu.clk), hv]) (by rw [State.cueReached_setCue, State.cueReached_congr hu.ent hu.clk, hr])
    (by rw [State.classOk_setCue, State.classOk_of_ent hu.ent, hc]) hl hp] at run
  exact ⟨_, run, hu.lateCue c _ _ _⟩

end

theorem cueArm_refused {k : Nat} (hx : withCtl (s.cueAt c) (ctl ||| 1).toNat = x) (hk : s.cueCheck c x = k) (h0 : k ≠ 0) :
    ∃ n, exec (.cueArm w c ctl) s = .next n ∧ n.cueAt c = x ∧ (∀ d, d ≠ c → n.cueAt d = s.cueAt d) ∧ cueErrOf n c r = BitVec.ofNat 32 (65536 * k + cueIndex c) := by
  obtain ⟨u, hu, run⟩ := CueWriter.arm h ctl
  have at' : withCtl (u.cueAt c) (ctl ||| 1).toNat = x := by rw [hu.cueAt, hx]
  have check : u.cueCheck c x = k := by rw [hu.cueCheck, hk]
  rw [State.cueCtlWrite_refused (by rw [hu.cueAt, ha]) (testBit_arm ctl) (by rw [at', check]; exact h0), at', check] at run
  refine ⟨_, run, by rw [State.cueAt_cueErrRec, State.cueAt_setCue], fun d hd => ?_, State.cueErrOf_cueErrRec _ c r k⟩
  rw [State.cueAt_cueErrRec, State.cueAt_setCue_ne _ _ hd, hu.cueAt]

theorem cueDisarm_unarmed : ∃ n, exec (.cueDisarm w c ctl) s = .next n ∧ OnlyCue s n w c (withCtl (s.cueAt c) (ctl &&& ~~~1#64).toNat) := by
  obtain ⟨u, hu, run⟩ := CueWriter.disarm h ctl
  rw [State.cueCtlWrite_unarmed (by rw [hu.cueAt, ha]) (testBit_disarm ctl), hu.cueAt] at run
  exact ⟨_, run, hu.onlyCue c _⟩

end

section
variable (ha : (s.cueAt c).arm = true)
include ha

theorem cueArm_armed_same (he : withCtl (s.cueAt c) (ctl ||| 1).toNat = s.cueAt c) : ∃ n, exec (.cueArm w c ctl) s = .next n ∧ OnlyCue s n w c (s.cueAt c) := by
  obtain ⟨u, hu, run⟩ := CueWriter.arm h ctl
  rw [State.cueCtlWrite_armed_same (by rw [hu.cueAt, ha]) (testBit_arm ctl) (by rw [hu.cueAt, he])] at run
  exact ⟨u, run, hu.onlyCue_same c⟩

theorem cueArm_armed_other (he : withCtl (s.cueAt c) (ctl ||| 1).toNat ≠ s.cueAt c) :
    ∃ n, exec (.cueArm w c ctl) s = .next n ∧ (∀ d, n.cueAt d = s.cueAt d) ∧ cueErrOf n c r = BitVec.ofNat 32 (65536 * 4 + cueIndex c) := by
  obtain ⟨u, hu, run⟩ := CueWriter.arm h ctl
  rw [State.cueCtlWrite_armed_other (by rw [hu.cueAt, ha]) (testBit_arm ctl) (by rw [hu.cueAt]; exact he)] at run
  exact ⟨_, run, fun d => by rw [State.cueAt_cueErrRec, hu.cueAt], State.cueErrOf_cueErrRec u c r 4⟩

theorem cueDisarm_armed (he : withCtl (s.cueAt c) (ctl &&& ~~~1#64).toNat = s.cueAt c) :
    ∃ n, exec (.cueDisarm w c ctl) s = .next n ∧ OnlyCue s n w c { s.cueAt c with arm := false, due := none, restored := false } := by
  obtain ⟨u, hu, run⟩ := CueWriter.disarm h ctl
  rw [State.cueCtlWrite_disarms (by rw [hu.cueAt, ha]) (testBit_disarm ctl) (by rw [hu.cueAt, he]), State.cueDisarmNow, hu.cueAt] at run
  exact ⟨_, run, hu.onlyCue c _⟩

end

end

/-! ### The fields of a value of bytes -/

theorem length_leBytes (n v : Nat) : (leBytes n v).length = n := by
  induction n generalizing v with
  | zero => rfl
  | succ n ih => exact congrArg (· + 1) (ih (v / 256))

/-- The field that stands first. -/
theorem fieldAt_leBytes (n v : Nat) (l : List Byte) : fieldAt (leBytes n v ++ l) 0 n = v % 256 ^ n := by
  unfold fieldAt slice
  rw [List.drop_zero, List.take_left' (length_leBytes n v), List.length_append, length_leBytes, Nat.sub_zero, Nat.sub_eq_zero_of_le (Nat.le_add_right _ _), List.replicate_zero, List.append_nil, leNat_leBytes]

/-- A field that stands after the bytes `a`. -/
theorem fieldAt_append (a l : List Byte) (i n : Nat) : fieldAt (a ++ l) (a.length + i) n = fieldAt l i n := by
  unfold fieldAt slice
  rw [List.drop_length_add_append, List.length_append, Nat.add_sub_add_left]

theorem fieldAt_skip (k v : Nat) (l : List Byte) (i n : Nat) : fieldAt (leBytes k v ++ l) (k + i) n = fieldAt l i n := by
  have := fieldAt_append (leBytes k v) l i n
  rwa [length_leBytes] at this

theorem fieldAt_word (v : W64) (l : List Byte) : fieldAt (leBytes 8 v.toNat ++ l) 0 8 = v.toNat := by
  rw [fieldAt_leBytes, Nat.mod_eq_of_lt (lt_of_lt_of_eq v.isLt (by norm_num))]

/-- The entry that POS, ADDR, CTL and TGT make. -/
theorem cueOfBytes_words (e : CueEntry) (pos addr ctl tgt : W64) :
    cueOfBytes e (leBytes 8 pos.toNat ++ (leBytes 8 addr.toNat ++ (leBytes 8 ctl.toNat ++ leBytes 8 tgt.toNat))) =
      withTgt (withCtl { e with pos := pos, addr := addr.setWidth 56 } ctl.toNat) tgt.toNat := by
  have last := fieldAt_word tgt []
  rw [List.append_nil] at last
  unfold cueOfBytes
  rw [fieldAt_word, fieldAt_skip 8 _ _ 0, fieldAt_word, fieldAt_skip 8 _ _ 8, fieldAt_skip 8 _ _ 0, fieldAt_word, fieldAt_skip 8 _ _ 16, fieldAt_skip 8 _ _ 8, fieldAt_skip 8 _ _ 0, last,
    BitVec.ofNat_toNat, BitVec.ofNat_toNat, BitVec.setWidth_eq]

/-! ### The journaled commands (R65, R67) -/

theorem ReplyOnly.cueAt (h : ReplyOnly s t) (d : CueRef) : t.cueAt d = s.cueAt d := (congrArg (fun z : State => z.cueAt d) h :)
theorem ReplyOnly.cueCheck (h : ReplyOnly s t) (d : CueRef) (e : CueEntry) : t.cueCheck d e = s.cueCheck d e := (congrArg (fun z : State => z.cueCheck d e) h :)
theorem ReplyOnly.cue (h : ReplyOnly s t) : t.cue = s.cue := (congrArg State.cue h :)
theorem ReplyOnly.setCue (h : ReplyOnly s t) (i : Fin 2048) (e : CueEntry) : ReplyOnly (s.setCue (.dev i) e) (t.setCue (.dev i) e) :=
  (congrArg (fun z : State => z.setCue (.dev i) e) h :)

/-- A refused command on a device's own entry changes nothing of the cue tables and of the Ledger. -/
theorem State.cueErrRec_own (s : State) (i : Fin 2048) (k : Nat) : (s.cueErrRec (.dev i) none k).cue = s.cue ∧ (s.cueErrRec (.dev i) none k).led = s.led :=
  ⟨State.srcRose_cue _ _ _, State.srcRose_led _ _ _⟩

theorem plainCue_iff {k : Nat} : plainCue k = true ↔ 2032 ≤ k ∧ k < 2048 := by simp [plainCue]

/-- The entry of the device that a command names. -/
abbrev ownCue (ix : BitVec 16) : CueRef := .dev (Fin.ofNat 2048 ix.toNat)

/-- The value of ARM_DEVICE_CUE: index, POS, ADDR, CTL and TGT. -/
def armBytes (ix : BitVec 16) (pos addr ctl tgt : W64) : List Byte := leBytes 2 ix.toNat ++ leBytes 8 pos.toNat ++ leBytes 8 addr.toNat ++ leBytes 8 ctl.toNat ++ leBytes 8 tgt.toNat

/-- The entry that ARM_DEVICE_CUE writes over `e`. -/
def armEntry (e : CueEntry) (pos addr ctl tgt : W64) : CueEntry := withTgt (withCtl { e with pos := pos, addr := addr.setWidth 56 } ctl.toNat) tgt.toNat

section
variable {ix : BitVec 16} {pos addr tgt : W64}

theorem toNat_mod_16 (ix : BitVec 16) : ix.toNat % 256 ^ 2 = ix.toNat := Nat.mod_eq_of_lt ix.isLt

theorem armBytes_index : fieldAt (armBytes ix pos addr ctl tgt) 0 2 = ix.toNat := by
  unfold armBytes
  rw [List.append_assoc, List.append_assoc, List.append_assoc, fieldAt_leBytes, toNat_mod_16]

theorem armBytes_entry (e : CueEntry) : cueOfBytes e ((armBytes ix pos addr ctl tgt).drop 2) = armEntry e pos addr ctl tgt := by
  unfold armBytes
  rw [List.append_assoc, List.append_assoc, List.append_assoc, List.drop_left' (length_leBytes 2 _), cueOfBytes_words]
  rfl

theorem State.armEffect_outside (h : plainCue ix.toNat = false) : t.armEffect (armBytes ix pos addr ctl tgt) = .refuse stRANGE t := by
  unfold State.armEffect
  dsimp only
  rw [armBytes_index, h]
  rfl

section
variable (h : plainCue ix.toNat = true)
include h

theorem State.armEffect_armed (ha : (t.cueAt (ownCue ix)).arm = true) :
    t.armEffect (armBytes ix pos addr ctl tgt) = .refuse stSTATE (t.cueErrRec (ownCue ix) none 4) := by
  unfold State.armEffect
  dsimp only
  rw [armBytes_index, h]
  exact if_pos ha

variable (ha : (t.cueAt (ownCue ix)).arm = false)
include ha

theorem State.armEffect_arms (hk : t.cueCheck (ownCue ix) (armEntry (t.cueAt (ownCue ix)) pos addr ctl tgt) = 0) :
    t.armEffect (armBytes ix pos addr ctl tgt) =
      .ok (t.cueArmNow (ownCue ix) { armEntry (t.cueAt (ownCue ix)) pos addr ctl tgt with lateHit := false, miss := false }) := by
  unfold State.armEffect
  dsimp only
  rw [armBytes_index, h, ha, if_neg (by decide), if_neg (by decide), armBytes_entry, hk]
  rfl

theorem State.armEffect_fails (hk : t.cueCheck (ownCue ix) (armEntry (t.cueAt (ownCue ix)) pos addr ctl tgt) ≠ 0) :
    t.armEffect (armBytes ix pos addr ctl tgt) =
      .refuse stRANGE (t.cueErrRec (ownCue ix) none (t.cueCheck (ownCue ix) (armEntry (t.cueAt (ownCue ix)) pos addr ctl tgt))) := by
  unfold State.armEffect
  dsimp only
  rw [armBytes_index, h, ha, if_neg (by decide), if_neg (by decide), armBytes_entry]
  split
  · contradiction
  · rfl

end

section
variable {q : Req} (hadm : Admits s q 0x2041 1 (armBytes ix pos addr ctl tgt))
include hadm

/-- A refused arming of an entry of the device: it is recorded, and no entry changes. -/
theorem armDeviceCue_refuses {st : Nat} (he : ∀ t, ReplyOnly s t → ∃ k, t.armEffect (armBytes ix pos addr ctl tgt) = .refuse st (t.cueErrRec (ownCue ix) none k)) :
    Journaled s (.armDeviceCue q ix pos addr ctl tgt) q 0x2041 1 (armBytes ix pos addr ctl tgt) (BitVec.ofNat 8 st) [] fun n => n.cue = s.cue := by
  refine journaled_of hadm (by decide) (by decide) (.inl rfl) rfl (by decide) fun t x ht => ?_
  obtain ⟨k, hk⟩ := he t ht.only
  obtain ⟨hc, hl⟩ := t.cueErrRec_own (Fin.ofNat 2048 ix.toNat) k
  refine ⟨_, ht.armDeviceCue.trans hk, ?_, ?_, fun n hn => ?_⟩
  · unfold State.record
    rw [hl]
    exact ht.record.1
  · rw [hl]
    exact ht.queue
  · rw [ReplyOnly.cue hn, hc, ReplyOnly.cue ht.only]

theorem armDeviceCue_arms (h : plainCue ix.toNat = true) (ha : (s.cueAt (ownCue ix)).arm = false) (hx : armEntry (s.cueAt (ownCue ix)) pos addr ctl tgt = x)
    (hk : s.cueCheck (ownCue ix) x = 0) (hp : s.posValid = false ∨ s.cueReached x = false) :
    Journaled s (.armDeviceCue q ix pos addr ctl tgt) q 0x2041 1 (armBytes ix pos addr ctl tgt) 0 [] fun n =>
      ReplyOnly (s.setCue (ownCue ix) { armed x with lateHit := false, miss := false }) n := by
  refine journaled_of (st := stOK) hadm (by decide) (by decide) (.inl rfl) rfl (by decide) fun t y ht => ?_
  have at' := ReplyOnly.cueAt ht.only (ownCue ix)
  have arms := State.armEffect_arms (t := t) (ix := ix) (pos := pos) (addr := addr) (ctl := ctl) (tgt := tgt) h (by rw [at', ha]) (by rw [at', hx, ReplyOnly.cueCheck ht.only, hk])
  rw [at', hx, State.cueArmNow_ahead (by rw [State.posValid_congr (congrArg Clock.state (ReplyOnly.clk ht.only)), State.cueReached_congr (ReplyOnly.ent ht.only) (ReplyOnly.clk ht.only)]; exact hp)] at arms
  exact ⟨_, ht.armDeviceCue.trans arms, ht.record.1, ht.queue, fun n hn => (ReplyOnly.setCue ht.only _ _).trans hn⟩

theorem armDeviceCue_armed (h : plainCue ix.toNat = true) (ha : (s.cueAt (ownCue ix)).arm = true) :
    Journaled s (.armDeviceCue q ix pos addr ctl tgt) q 0x2041 1 (armBytes ix pos addr ctl tgt) 3 [] fun n => n.cue = s.cue :=
  armDeviceCue_refuses (st := stSTATE) hadm fun _ ht => ⟨4, State.armEffect_armed h (by rw [ReplyOnly.cueAt ht, ha])⟩

theorem armDeviceCue_fails (h : plainCue ix.toNat = true) (ha : (s.cueAt (ownCue ix)).arm = false)
    (hk : s.cueCheck (ownCue ix) (armEntry (s.cueAt (ownCue ix)) pos addr ctl tgt) ≠ 0) :
    Journaled s (.armDeviceCue q ix pos addr ctl tgt) q 0x2041 1 (armBytes ix pos addr ctl tgt) 2 [] fun n => n.cue = s.cue :=
  armDeviceCue_refuses (st := stRANGE) hadm fun _ ht => ⟨_, State.armEffect_fails h (by rw [ReplyOnly.cueAt ht, ha]) (by rw [ReplyOnly.cueAt ht, ReplyOnly.cueCheck ht]; exact hk)⟩

theorem armDeviceCue_outside (h : plainCue ix.toNat = false) : Refused s (.armDeviceCue q ix pos addr ctl tgt) q 0x2041 1 (armBytes ix pos addr ctl tgt) 2 :=
  refused_of (st := stRANGE) hadm (by decide) (by decide) (.inl rfl) rfl (by decide) fun _ _ ht => ht.armDeviceCue.trans (State.armEffect_outside h)

end

section
variable {q : Req} (hadm : Admits s q 0x2041 2 (leBytes 2 ix.toNat))
include hadm

theorem disarmDeviceCue_disarms (h : plainCue ix.toNat = true) :
    Journaled s (.disarmDeviceCue q ix) q 0x2041 2 (leBytes 2 ix.toNat) 0 [] fun n =>
      ReplyOnly (s.setCue (ownCue ix) { s.cueAt (ownCue ix) with arm := false, due := none, restored := false }) n := by
  refine journaled_of (st := stOK) hadm (by decide) (by decide) (.inl rfl) rfl (by decide) fun t y ht => ?_
  have run : t.disarmEffect ix.toNat = .ok (t.cueDisarmNow (ownCue ix)) := if_pos h
  rw [State.cueDisarmNow, ReplyOnly.cueAt ht.only] at run
  have effect : t.commandEffect y = t.disarmEffect ix.toNat := by rw [ht.disarmDeviceCue, leNat_leBytes, toNat_mod_16]
  exact ⟨_, effect.trans run, ht.record.1, ht.queue, fun n hn => (ReplyOnly.setCue ht.only _ _).trans hn⟩

theorem disarmDeviceCue_outside (h : plainCue ix.toNat = false) : Refused s (.disarmDeviceCue q ix) q 0x2041 2 (leBytes 2 ix.toNat) 2 :=
  refused_of (st := stRANGE) hadm (by decide) (by decide) (.inl rfl) rfl (by decide) fun t _ ht => by
    rw [ht.disarmDeviceCue, leNat_leBytes, toNat_mod_16]
    exact if_neg (by rw [h]; decide)

end

theorem plainCue_outside (h : ix.toNat < 2032 ∨ 2048 ≤ ix.toNat) : plainCue ix.toNat = false := by
  rw [Bool.eq_false_iff]
  intro hp
  obtain ⟨lo, hi⟩ := plainCue_iff.1 hp
  omega

end

/-- Settles O34: a write of CTL reaches the entry by each of its writers, and arming, refusing and disarming each write that entry alone. -/
theorem cuesArmDisarmAndRefuse : Obligations.CuesArmDisarmAndRefuse := by
  unfold Obligations.CuesArmDisarmAndRefuse
  intro s w c r ctl q ix pos addr tgt
  refine ⟨fun h => ⟨fun ha hk => ⟨?_, ?_, ?_⟩, ?_, fun ha => ⟨?_, ?_, ?_⟩, ?_⟩, fun hadm => ⟨?_, ?_, ?_, ?_⟩, fun hadm => ⟨?_, ?_⟩⟩
  · exact fun hp => cueArm_ahead h ha rfl hk hp
  · exact fun hv hr hc hl => cueArm_late (x := withCtl (s.cueAt c) (ctl ||| 1).toNat) h ha rfl hk hv hr hc hl
  · exact fun hv hr hc hl hp => cueArm_dropped (x := withCtl (s.cueAt c) (ctl ||| 1).toNat) h ha rfl hk hv hr hc hl hp
  · exact fun k ha hk h0 => cueArm_refused h ha rfl hk h0
  · exact fun he => cueArm_armed_same h ha he
  · exact fun he => cueArm_armed_other h ha he
  · exact fun he => cueDisarm_armed h ha he
  · exact fun ha => cueDisarm_unarmed h ha
  · exact fun lo hi ha hk hp => armDeviceCue_arms hadm (plainCue_iff.2 ⟨lo, hi⟩) ha rfl hk hp
  · exact fun lo hi ha => armDeviceCue_armed hadm (plainCue_iff.2 ⟨lo, hi⟩) ha
  · exact fun lo hi ha hk => armDeviceCue_fails hadm (plainCue_iff.2 ⟨lo, hi⟩) ha hk
  · exact fun ho => armDeviceCue_outside hadm (plainCue_outside ho)
  · exact fun lo hi => disarmDeviceCue_disarms hadm (plainCue_iff.2 ⟨lo, hi⟩)
  · exact fun ho => disarmDeviceCue_outside hadm (plainCue_outside ho)

end Sys2Proof.Machine
end

section
/-! SUPPORT. The units of a room stop: its cues are disarmed, and its tiles stop or halt (R87, R382, R388). -/

namespace Sys2Proof.Machine

variable {s t n : State} {r : Nat}

/-! ### Passes over a list -/

/-- A pass that keeps `I`, and makes `Q` of each element and keeps it, leaves `I`, and `Q` of every element. -/
theorem forL_each {α σ : Type} {I : σ → Prop} {Q : α → σ → Prop} {f : α → σ → σ} : ∀ (l : List α), (∀ a ∈ l, ∀ u, I u → I (f a u)) → (∀ a, ∀ b ∈ l, ∀ u, I u → Q a u → Q a (f b u)) →
    (∀ a ∈ l, ∀ u, I u → Q a (f a u)) → ∀ u, I u → I (forL l f u) ∧ (∀ a, Q a u → Q a (forL l f u)) ∧ ∀ a ∈ l, Q a (forL l f u) := by
  intro l
  induction l with
  | nil => exact fun _ _ _ u h => ⟨h, fun _ k => k, by simp⟩
  | cons b l ih =>
    intro inv keep make u h
    have first := inv b List.mem_cons_self u h
    obtain ⟨h1, h2, h3⟩ := ih (fun a ha => inv a (List.mem_cons_of_mem _ ha)) (fun a c hc => keep a c (List.mem_cons_of_mem _ hc)) (fun a ha => make a (List.mem_cons_of_mem _ ha)) (f b u) first
    refine ⟨h1, fun a ha => h2 a (keep a b List.mem_cons_self u h ha), fun a ha => ?_⟩
    obtain rfl | ha := List.mem_cons.1 ha
    · exact h2 a (make a List.mem_cons_self u h)
    · exact h3 a ha

/-- A pass whose every step changes nothing changes nothing. -/
theorem forL_id {α σ : Type} {f : α → σ → σ} {u : σ} {l : List α} (h : ∀ a ∈ l, f a u = u) : forL l f u = u := by
  induction l with
  | nil => rfl
  | cons a l ih =>
    show forL l f (f a u) = u
    rw [h a List.mem_cons_self]
    exact ih fun b hb => h b (List.mem_cons_of_mem _ hb)

/-! ### Cues are disarmed -/

/-- From `s` to `n` nothing changes but cue entries. -/
def CuesOnly (s n : State) : Prop := (∀ q, { n.quire q with cue := (s.quire q).cue } = s.quire q) ∧ { n with cue := s.cue, quires := s.quires } = s

theorem CuesOnly.refl (s : State) : CuesOnly s s := ⟨fun _ => rfl, rfl⟩
theorem CuesOnly.trans (h : CuesOnly s t) (k : CuesOnly t n) : CuesOnly s n :=
  ⟨fun q => (congrArg (fun y : Quire => { y with cue := (s.quire q).cue }) (k.1 q)).trans (h.1 q), (congrArg (fun z : State => ({ z with cue := s.cue, quires := s.quires } : State)) k.2).trans h.2⟩
theorem CuesOnly.setCue (s : State) (c : CueRef) (e : CueEntry) : CuesOnly s (s.setCue c e) := by
  obtain ⟨-, -, quires, -, -⟩ := State.setCue_onlyCue s (.host 0) c e
  exact ⟨quires, by cases c <;> rfl⟩

theorem CuesOnly.rooms (h : CuesOnly s n) : n.rooms = s.rooms := (congrArg State.rooms h.2 :)
theorem CuesOnly.led (h : CuesOnly s n) : n.led = s.led := (congrArg State.led h.2 :)
theorem CuesOnly.chan (h : CuesOnly s n) (c : ChanRef) : n.chan c = s.chan c := by
  cases c with
  | sys i => exact (congrArg (fun z : State => z.chan (.sys i)) h.2 :)
  | tile q m => exact (congrArg (fun y : Quire => Tbl.get {} y.chan m) (h.1 q) :)

/-- One cue is disarmed. -/
def disarmOne (c : CueRef) (s : State) : State := if (s.cueAt c).arm then s.setCue c { s.cueAt c with arm := false, due := none } else s

theorem State.disarmCues_eq (s : State) (r : Nat) : s.disarmCues r = forL (s.roomCues r) disarmOne s := rfl

theorem disarmOne_only (c : CueRef) (s : State) : CuesOnly s (disarmOne c s) := by
  unfold disarmOne
  split
  · exact .setCue s c _
  · exact .refl s
theorem disarmOne_arm (c : CueRef) (s : State) : ((disarmOne c s).cueAt c).arm = false := by
  unfold disarmOne
  split
  · rw [State.cueAt_setCue]
  · rename_i h; simpa using h
theorem disarmOne_arm_keeps {c : CueRef} (d : CueRef) (h : (s.cueAt c).arm = false) : ((disarmOne d s).cueAt c).arm = false := by
  by_cases e : c = d
  · subst e; exact disarmOne_arm c s
  · unfold disarmOne
    split
    · rw [State.cueAt_setCue_ne _ _ e, h]
    · exact h

/-- Disarming every cue of a room changes cue entries alone, and leaves none of them armed. -/
theorem State.disarmCues_disarms (s : State) (r : Nat) : CuesOnly s (s.disarmCues r) ∧ ∀ c ∈ s.roomCues r, ((s.disarmCues r).cueAt c).arm = false := by
  rw [State.disarmCues_eq]
  obtain ⟨only, -, all⟩ := forL_each (I := CuesOnly s) (Q := fun c u => (u.cueAt c).arm = false) (f := disarmOne) (s.roomCues r) (fun c _ u h => h.trans (disarmOne_only c u))
    (fun _ d _ _ _ h => disarmOne_arm_keeps d h) (fun c _ u _ => disarmOne_arm c u) s (.refl s)
  exact ⟨only, all⟩

/-! ### A tile stops or halts -/

/-- The tile runs no more. -/
def Tile.isStopped (x : Tile) : Prop := x.run = .stopped ∨ x.run = .halted

theorem isStopped_default : Tile.isStopped {} := .inl rfl
theorem stopTile_isStopped (x : Tile) : (stopTile x).isStopped := by
  unfold stopTile
  split
  · exact .inr ‹_›
  · exact .inl rfl
theorem stopTile_wb (x : Tile) : (stopTile x).wb = x.wb := by unfold stopTile; split <;> rfl

/-- From `s` to `n` nothing changes but what tiles hold, their waits, memory and free values. -/
def TilesHaltOnly (s n : State) : Prop := { n with tiles := s.tiles, tal := s.tal, mem := s.mem, synd := s.synd, free := s.free } = s

theorem TilesHaltOnly.refl (s : State) : TilesHaltOnly s s := rfl
theorem TilesHaltOnly.trans (h : TilesHaltOnly s t) (k : TilesHaltOnly t n) : TilesHaltOnly s n :=
  (congrArg (fun z : State => ({ z with tiles := s.tiles, tal := s.tal, mem := s.mem, synd := s.synd, free := s.free } : State)) k).trans h
theorem TilesHaltOnly.rooms (h : TilesHaltOnly s n) : n.rooms = s.rooms := (congrArg State.rooms h :)
theorem TilesHaltOnly.led (h : TilesHaltOnly s n) : n.led = s.led := (congrArg State.led h :)
theorem TilesHaltOnly.quires (h : TilesHaltOnly s n) : n.quires = s.quires := (congrArg State.quires h :)
theorem TilesHaltOnly.sdma (h : TilesHaltOnly s n) : n.sdma = s.sdma := (congrArg State.sdma h :)
theorem TilesHaltOnly.cueAt (h : TilesHaltOnly s n) (c : CueRef) : n.cueAt c = s.cueAt c := (congrArg (fun z : State => z.cueAt c) h :)

theorem State.discardQueue_tile (s : State) (k j : Nat) : TilesHaltOnly s (s.discardQueue k) ∧ ((s.discardQueue k).tile j).run = (s.tile j).run := by
  unfold State.discardQueue
  split
  · exact ⟨rfl, rfl⟩
  · refine ⟨rfl, ?_⟩
    by_cases e : j = k
    · subst e
      dsimp only
      rw [State.tile_modTile]
      rfl
    · dsimp only
      rw [State.tile_modTile_ne _ _ e]
      rfl

/-- Saving the unit state writes memory alone. -/
theorem State.saveUnits_eq (s : State) (k : Nat) : ∃ m y, s.saveUnits k = { s with mem := m, synd := y } := by
  have each : ∀ (N : Nat) (f : Nat → State → State), (∀ i u, ∃ m y, f i u = { u with mem := m, synd := y }) → ∀ u : State, ∃ m y, forN N f u = { u with mem := m, synd := y } := fun N f hf u =>
    foldl_keeps (fun v : State => ∃ m y, v = { u with mem := m, synd := y }) (fun v i ⟨m, y, h⟩ => by subst h; exact hf i _) (List.range N) u ⟨_, _, rfl⟩
  unfold State.saveUnits
  dsimp only
  split
  · unfold State.saveImage
    dsimp only
    obtain ⟨m1, y1, h1⟩ := each 32768 (fun i u => u.putByte (scratchBase k + 2 * ctxArea (s.tile k).xu.ctx + i) (Tbl.get 0 (s.tile k).xu.rows i)) (fun _ _ => ⟨_, _, rfl⟩) s
    rw [h1]
    obtain ⟨m2, y2, h2⟩ := each 4096 (fun g u => u.setSynd ((scratchBase k + 2 * ctxArea (s.tile k).xu.ctx) / 8 + g) (Tbl.get 0 (s.tile k).xu.synd g)) (fun _ _ => ⟨_, _, rfl⟩) { s with mem := m1, synd := y1 }
    rw [h2, State.putBytes_eq]
    obtain ⟨m3, y3, h3⟩ := each 32 (fun g u => u.setSynd ((scratchBase k + 2 * ctxArea (s.tile k).xu.ctx) / 8 + 4096 + g) 0) (fun _ _ => ⟨_, _, rfl⟩)
      { s with mem := (State.putBytes { s with mem := m2, synd := y2 } (scratchBase k + 2 * ctxArea (s.tile k).xu.ctx + 32768) (unitImage (s.tile k).xu)).mem, synd := y2 }
    exact ⟨_, _, h3⟩
  · exact ⟨_, _, rfl⟩

theorem State.saveUnits_tile (s : State) (k j : Nat) : TilesHaltOnly s (s.saveUnits k) ∧ ((s.saveUnits k).tile j).run = (s.tile j).run := by
  obtain ⟨m, y, h⟩ := s.saveUnits_eq k
  rw [h]
  exact ⟨rfl, rfl⟩

/-- One tile stops, discards its queue and saves its unit state. -/
def haltOne (k : Nat) (s : State) : State := if s.tile k = {} then s else (((s.modTile k stopTile).dropTileWaits k).discardQueue k).saveUnits k

theorem State.haltTiles_eq (s : State) (r : Nat) : s.haltTiles r = forL (s.roomTiles r) haltOne s := rfl

theorem haltOne_run {k : Nat} (h : s.tile k ≠ {}) (j : Nat) : ((haltOne k s).tile j).run = ((s.modTile k stopTile).tile j).run := by
  unfold haltOne
  rw [if_neg h, (State.saveUnits_tile _ k j).2, (State.discardQueue_tile _ k j).2]
  rfl
theorem haltOne_only (k : Nat) (s : State) : TilesHaltOnly s (haltOne k s) := by
  unfold haltOne
  split
  · exact .refl s
  · refine TilesHaltOnly.trans ?_ ((State.discardQueue_tile _ k k).1.trans (State.saveUnits_tile _ k k).1)
    rfl

theorem haltOne_stops (k : Nat) (s : State) : ((haltOne k s).tile k).isStopped := by
  by_cases e : s.tile k = {}
  · rw [haltOne, if_pos e, e]; exact isStopped_default
  · unfold Tile.isStopped
    rw [haltOne_run e, State.tile_modTile]
    exact stopTile_isStopped _
theorem haltOne_keeps {k : Nat} (j : Nat) (h : (s.tile k).isStopped) : ((haltOne j s).tile k).isStopped := by
  by_cases hk : k = j
  · subst hk; exact haltOne_stops k s
  · by_cases e : s.tile j = {}
    · rw [haltOne, if_pos e]; exact h
    · unfold Tile.isStopped
      rw [haltOne_run e, State.tile_modTile_ne _ _ hk]
      exact h

/-- Halting a room's tiles changes what tiles hold alone, and every tile of the room has stopped or halted. -/
theorem State.haltTiles_halts (s : State) (r : Nat) : TilesHaltOnly s (s.haltTiles r) ∧ ∀ k ∈ s.roomTiles r, ((s.haltTiles r).tile k).isStopped := by
  rw [State.haltTiles_eq]
  obtain ⟨only, -, all⟩ := forL_each (I := TilesHaltOnly s) (Q := fun k u => (u.tile k).isStopped) (f := haltOne) (s.roomTiles r) (fun k _ u h => h.trans (haltOne_only k u))
    (fun _ j _ _ _ h => haltOne_keeps j h) (fun k _ u _ => haltOne_stops k u) s (.refl s)
  exact ⟨only, all⟩

/-! ### Rooms keep their tiles, cues and channels -/

theorem State.room_of_rooms (h : n.rooms = s.rooms) (k : Nat) : n.room k = s.room k := by unfold State.room; rw [h]
theorem State.roomTiles_of_form (h : (n.room r).form = (s.room r).form) : n.roomTiles r = s.roomTiles r := by unfold State.roomTiles State.roomQuires; rw [h]
theorem State.roomCues_of_form (h : (n.room r).form = (s.room r).form) : n.roomCues r = s.roomCues r := by unfold State.roomCues; rw [h]
theorem State.roomChans_of_form (h : (n.room r).form = (s.room r).form) : n.roomChans r = s.roomChans r := by unfold State.roomChans; rw [h]

/-- Disarming a room's cues and halting its tiles stops the room. -/
theorem State.disarmCues_haltTiles_stops (s : State) (r : Nat) : RoomStopped s ((s.disarmCues r).haltTiles r) r := by
  obtain ⟨cues, off⟩ := s.disarmCues_disarms r
  obtain ⟨only, halted⟩ := (s.disarmCues r).haltTiles_halts r
  rw [State.roomTiles_of_form (congrArg Room.form (State.room_of_rooms cues.rooms r))] at halted
  exact ⟨halted, fun c hc => by rw [only.cueAt, off c hc]⟩

end Sys2Proof.Machine
end

section
/-! SUPPORT. A room reset begins, waits for the room's channels, and ends (R382, R383). -/

namespace Sys2Proof.Machine

variable {s t n : State} {r : Nat} {flr : Bool}

/-! ### The reset begins -/

/-- From `s` to `n` nothing changes but cue entries, what tiles hold and their waits; dirty lines are kept. -/
def StopsOnly (s n : State) : Prop :=
  (∀ q, { n.quire q with cue := (s.quire q).cue } = s.quire q) ∧ { n with cue := s.cue, quires := s.quires, tiles := s.tiles, tal := s.tal } = s ∧ ∀ k, (n.tile k).wb = (s.tile k).wb

theorem CuesOnly.stops (h : CuesOnly s n) : StopsOnly s n :=
  ⟨h.1, (congrArg (fun z : State => ({ z with tiles := s.tiles, tal := s.tal } : State)) h.2 :), fun k => (congrArg (fun z : State => (z.tile k).wb) h.2 :)⟩
theorem StopsOnly.trans (h : StopsOnly s t) (k : StopsOnly t n) : StopsOnly s n :=
  ⟨fun q => (congrArg (fun y : Quire => { y with cue := (s.quire q).cue }) (k.1 q)).trans (h.1 q),
    (congrArg (fun z : State => ({ z with cue := s.cue, quires := s.quires, tiles := s.tiles, tal := s.tal } : State)) k.2.1).trans h.2.1, fun j => (k.2.2 j).trans (h.2.2 j)⟩
theorem StopsOnly.rooms (h : StopsOnly s n) : n.rooms = s.rooms := (congrArg State.rooms h.2.1 :)
theorem StopsOnly.mem (h : StopsOnly s n) : n.mem = s.mem := (congrArg State.mem h.2.1 :)
theorem StopsOnly.fns (h : StopsOnly s n) : n.fns = s.fns := (congrArg State.fns h.2.1 :)
theorem StopsOnly.led (h : StopsOnly s n) : n.led = s.led := (congrArg State.led h.2.1 :)
theorem StopsOnly.chan (h : StopsOnly s n) (c : ChanRef) : n.chan c = s.chan c := by
  cases c with
  | sys i => exact (congrArg (fun z : State => z.chan (.sys i)) h.2.1 :)
  | tile q m => exact (congrArg (fun y : Quire => Tbl.get {} y.chan m) (h.1 q) :)

/-- One tile stops. -/
def stopOne (k : Nat) (s : State) : State := if s.tile k = {} then s else (s.modTile k stopTile).dropTileWaits k

theorem stopOne_tile_ne {j k : Nat} (h : j ≠ k) (s : State) : (stopOne k s).tile j = s.tile j := by
  unfold stopOne
  split
  · rfl
  · exact State.tile_modTile_ne s _ h
theorem stopOne_stops (k : Nat) (s : State) : ((stopOne k s).tile k).isStopped := by
  unfold stopOne
  split
  · rename_i e; rw [e]; exact isStopped_default
  · show ((s.modTile k stopTile).tile k).isStopped
    rw [State.tile_modTile]
    exact stopTile_isStopped _
theorem stopOne_keeps {j : Nat} (k : Nat) (h : (s.tile j).isStopped) : ((stopOne k s).tile j).isStopped := by
  by_cases e : j = k
  · subst e; exact stopOne_stops j s
  · rw [stopOne_tile_ne e]; exact h
theorem stopOne_wb (k j : Nat) (s : State) : ((stopOne k s).tile j).wb = (s.tile j).wb := by
  by_cases e : j = k
  · subst e
    unfold stopOne
    split
    · rfl
    · show ((s.modTile j stopTile).tile j).wb = _
      rw [State.tile_modTile, stopTile_wb]
  · rw [stopOne_tile_ne e]
theorem stopOne_only (k : Nat) (s : State) : StopsOnly s (stopOne k s) := by
  have frame : ∀ q, (stopOne k s).quire q = s.quire q := fun q => by unfold stopOne; split <;> rfl
  refine ⟨fun q => by rw [frame], ?_, fun j => stopOne_wb k j s⟩
  unfold stopOne
  split <;> rfl

/-- The room's cues are disarmed and its tiles stop: steps 2 and 3 of a room reset. -/
def State.stopRoom (s : State) (r : Nat) : State := forL ((s.disarmCues r).roomTiles r) stopOne (s.disarmCues r)

theorem State.stopRoom_stops (s : State) (r : Nat) : StopsOnly s (s.stopRoom r) ∧ RoomStopped s (s.stopRoom r) r := by
  obtain ⟨cues, off⟩ := s.disarmCues_disarms r
  obtain ⟨⟨only, same⟩, -, stopped⟩ := forL_each (I := fun u => StopsOnly (s.disarmCues r) u ∧ ∀ c, u.cueAt c = (s.disarmCues r).cueAt c) (Q := fun k u => (u.tile k).isStopped) (f := stopOne) (s.roomTiles r)
    (fun k _ u h => ⟨h.1.trans (stopOne_only k u), fun c => Eq.trans (by unfold stopOne; split <;> cases c <;> rfl) (h.2 c)⟩) (fun _ k _ _ _ h => stopOne_keeps k h) (fun k _ u _ => stopOne_stops k u) (s.disarmCues r)
    ⟨(CuesOnly.refl _).stops, fun _ => rfl⟩
  have run : s.stopRoom r = forL (s.roomTiles r) stopOne (s.disarmCues r) := by
    unfold State.stopRoom
    rw [State.roomTiles_of_form (congrArg Room.form (State.room_of_rooms cues.rooms r))]
  rw [run]
  exact ⟨cues.stops.trans only, stopped, fun c hc => by rw [same, off c hc]⟩

/-- The room as the reset leaves it while it waits. -/
def resettingRoom (x : Room) (flr : Bool) : Room := { x with resetting := true, flr := x.flr || flr, haltAt := none }

theorem State.beginReset_of_plain (h : s.hasFabric r = false) (flr : Bool) :
    s.beginReset r flr = (forL ((s.stopRoom r).roomChans r) (fun c u => u.chanAbort c) (s.stopRoom r)).modRoom r fun x => resettingRoom x flr := by
  unfold State.beginReset
  rw [h]
  rfl

/-! ### Channels abort (R301) -/

theorem State.chan_setChan (s : State) (c : ChanRef) (x : Chan) : (s.setChan c x).chan c = x := by
  cases c with
  | sys i => exact Tbl.get_put_same _ _ _
  | tile q m =>
    show Tbl.get {} ((s.modQuire q fun y => { y with chan := Tbl.put {} y.chan m x }).quire q).chan m = x
    rw [State.quire_modQuire]
    exact Tbl.get_put_same _ _ _

theorem State.chan_setChan_ne {c d : ChanRef} (s : State) (x : Chan) (h : d ≠ c) : (s.setChan c x).chan d = s.chan d := by
  cases c with
  | sys i => cases d with
    | sys j => exact Tbl.get_put_ne _ _ fun hj => h (congrArg ChanRef.sys (Fin.ext hj))
    | tile p j => rfl
  | tile q m => cases d with
    | sys j => rfl
    | tile p j =>
      show Tbl.get {} ((s.modQuire q fun y => { y with chan := Tbl.put {} y.chan m x }).quire p).chan j = _
      by_cases hp : p = q
      · subst hp
        rw [State.quire_modQuire]
        exact Tbl.get_put_ne _ _ fun hj => h (congrArg (ChanRef.tile p) (Fin.ext hj))
      · rw [State.quire_modQuire_ne _ _ fun e => hp (Fin.ext e)]
        rfl

theorem State.chan_modChan (s : State) (c : ChanRef) (f : Chan → Chan) : (s.modChan c f).chan c = f (s.chan c) := State.chan_setChan s c _
theorem State.chan_modChan_ne {c d : ChanRef} (s : State) (f : Chan → Chan) (h : d ≠ c) : (s.modChan c f).chan d = s.chan d := State.chan_setChan_ne s _ h

/-- From `s` to `n` nothing changes but channels and waits. -/
def ChansOnly (s n : State) : Prop := (∀ q, { n.quire q with chan := (s.quire q).chan } = s.quire q) ∧ { n with sdma := s.sdma, quires := s.quires, tal := s.tal } = s

theorem ChansOnly.refl (s : State) : ChansOnly s s := ⟨fun _ => rfl, rfl⟩
theorem ChansOnly.trans (h : ChansOnly s t) (k : ChansOnly t n) : ChansOnly s n :=
  ⟨fun q => (congrArg (fun y : Quire => { y with chan := (s.quire q).chan }) (k.1 q)).trans (h.1 q), (congrArg (fun z : State => ({ z with sdma := s.sdma, quires := s.quires, tal := s.tal } : State)) k.2).trans h.2⟩
theorem ChansOnly.rooms (h : ChansOnly s n) : n.rooms = s.rooms := (congrArg State.rooms h.2 :)
theorem ChansOnly.led (h : ChansOnly s n) : n.led = s.led := (congrArg State.led h.2 :)
theorem ChansOnly.tile (h : ChansOnly s n) (k : Nat) : n.tile k = s.tile k := (congrArg (fun z : State => z.tile k) h.2 :)
theorem ChansOnly.cueAt (h : ChansOnly s n) (c : CueRef) : n.cueAt c = s.cueAt c :=
  State.cueAt_of_same (t := n) (congrArg State.cue h.2 :) (fun q => (congrArg Quire.cue (h.1 q) :)) c
theorem ChansOnly.setChan (s : State) (c : ChanRef) (x : Chan) : ChansOnly s (s.setChan c x) := by
  cases c with
  | sys i => exact ⟨fun _ => rfl, rfl⟩
  | tile q m =>
    refine ⟨fun p => ?_, rfl⟩
    show { (s.modQuire q fun y => { y with chan := Tbl.put {} y.chan m x }).quire p with chan := (s.quire p).chan } = s.quire p
    by_cases hp : p = q
    · subst hp; rw [State.quire_modQuire]
    · rw [State.quire_modQuire_ne _ _ hp]

/-- A channel that is idle, or aborts already, is not aborted. -/
theorem State.chanAbort_none {c : ChanRef} (h : chanIdle (s.chan c) = true ∨ (s.chan c).state = .aborting) : s.chanAbort c = s := by
  unfold State.chanAbort
  refine if_pos ?_
  obtain h | h := h <;> simp [h]

theorem State.chanAbort_only (s : State) (c : ChanRef) : ChansOnly s (s.chanAbort c) := by
  unfold State.chanAbort
  dsimp only
  split
  · exact .refl s
  · exact ChansOnly.trans (t := s.dropWait (.chan c)) ⟨fun _ => rfl, rfl⟩ (.setChan _ c _)

/-- A busy channel aborts. -/
theorem State.chanAbort_aborts {c : ChanRef} (h : chanIdle (s.chan c) = false) : ((s.chanAbort c).chan c).state = .aborting := by
  by_cases ha : (s.chan c).state = .aborting
  · rw [State.chanAbort_none (.inr ha), ha]
  · unfold State.chanAbort
    dsimp only
    rw [h, if_neg (by simp [ha]), State.chan_modChan]

/-- Aborting one channel leaves every other as it is. -/
theorem State.chanAbort_ne {c d : ChanRef} (s : State) (h : d ≠ c) : (s.chanAbort c).chan d = s.chan d := by
  unfold State.chanAbort
  dsimp only
  split
  · rfl
  · rw [State.chan_modChan_ne _ _ h]
    cases d <;> rfl

theorem State.chanAbort_keeps {c : ChanRef} (d : ChanRef) (h : (s.chan c).state = .aborting) : ((s.chanAbort d).chan c).state = .aborting := by
  by_cases e : c = d
  · subst e; rw [State.chanAbort_none (.inr h), h]
  · rw [State.chanAbort_ne s e, h]

/-- Aborting a list of channels: those that were busy abort. -/
theorem abortAll_aborts (l : List ChanRef) (s : State) :
    ChansOnly s (forL l (fun c u => u.chanAbort c) s) ∧ ∀ c ∈ l, chanIdle (s.chan c) = false → ((forL l (fun c u => u.chanAbort c) s).chan c).state = .aborting := by
  have settled : ∀ c d : ChanRef, ∀ u : State, (u.chan c = s.chan c ∨ (u.chan c).state = .aborting) → ((u.chanAbort d).chan c = s.chan c ∨ ((u.chanAbort d).chan c).state = .aborting) := fun c d u h => by
    by_cases e : c = d
    · subst e
      by_cases hi : chanIdle (u.chan c) = true
      · rw [State.chanAbort_none (.inl hi)]; exact h
      · exact .inr (State.chanAbort_aborts (by simpa using hi))
    · rw [State.chanAbort_ne u e]; exact h
  obtain ⟨⟨only, -⟩, -, all⟩ := forL_each (I := fun u => ChansOnly s u ∧ ∀ c, u.chan c = s.chan c ∨ (u.chan c).state = .aborting) (Q := fun c u => chanIdle (s.chan c) = false → (u.chan c).state = .aborting)
    (f := fun c u => State.chanAbort u c) l (fun c _ u h => ⟨h.1.trans (u.chanAbort_only c), fun d => settled d c u (h.2 d)⟩) (fun c d _ u _ h hc => State.chanAbort_keeps d (h hc))
    (fun c _ u h hc => by
      obtain e | e := h.2 c
      · exact State.chanAbort_aborts (by rw [e, hc])
      · exact State.chanAbort_keeps c e) s ⟨.refl s, fun _ => .inl rfl⟩
  exact ⟨only, all⟩

/-! ### The reset ends -/

/-- From `s` to `n` nothing changes but what tiles hold, launches, tallies, rooms and the router. -/
def EndsOnly (s n : State) : Prop :=
  (∀ q, { n.quire q with launches := (s.quire q).launches } = s.quire q) ∧ { n with tiles := s.tiles, quires := s.quires, tal := s.tal, irq := s.irq, rooms := s.rooms } = s

theorem EndsOnly.refl (s : State) : EndsOnly s s := ⟨fun _ => rfl, rfl⟩
theorem EndsOnly.trans (h : EndsOnly s t) (k : EndsOnly t n) : EndsOnly s n :=
  ⟨fun q => (congrArg (fun y : Quire => { y with launches := (s.quire q).launches }) (k.1 q)).trans (h.1 q),
    (congrArg (fun z : State => ({ z with tiles := s.tiles, quires := s.quires, tal := s.tal, irq := s.irq, rooms := s.rooms } : State)) k.2).trans h.2⟩
theorem EndsOnly.of_quires (h : n.quires = s.quires) (k : { n with tiles := s.tiles, quires := s.quires, tal := s.tal, irq := s.irq, rooms := s.rooms } = s) : EndsOnly s n :=
  ⟨fun q => by rw [show n.quire q = s.quire q by unfold State.quire; rw [h]], k⟩
theorem EndsOnly.mem (h : EndsOnly s n) : n.mem = s.mem := (congrArg State.mem h.2 :)
theorem EndsOnly.fns (h : EndsOnly s n) : n.fns = s.fns := (congrArg State.fns h.2 :)
theorem EndsOnly.led (h : EndsOnly s n) : n.led = s.led := (congrArg State.led h.2 :)
theorem EndsOnly.cueAt (h : EndsOnly s n) (c : CueRef) : n.cueAt c = s.cueAt c := State.cueAt_of_same (t := n) (congrArg State.cue h.2 :) (fun q => (congrArg Quire.cue (h.1 q) :)) c
theorem EndsOnly.chan (h : EndsOnly s n) (c : ChanRef) : n.chan c = s.chan c := by
  cases c with
  | sys i => exact (congrArg (fun z : State => z.chan (.sys i)) h.2 :)
  | tile q m => exact (congrArg (fun y : Quire => Tbl.get {} y.chan m) (h.1 q) :)

/-- One tile is reset. -/
def resetOne (k : Nat) (s : State) : State := if s.tile k = {} then s else s.modTile k resetTile

theorem resetOne_tile_ne {j k : Nat} (h : j ≠ k) (s : State) : (resetOne k s).tile j = s.tile j := by
  unfold resetOne
  split
  · rfl
  · exact State.tile_modTile_ne s _ h
theorem resetOne_tile (k : Nat) (s : State) : (resetOne k s).tile k = { wb := (s.tile k).wb } := by
  unfold resetOne
  split
  · rename_i e; rw [e]
  · rw [State.tile_modTile]; rfl
theorem resetOne_only (k : Nat) (s : State) : { resetOne k s with tiles := s.tiles } = s := by
  unfold resetOne
  split <;> rfl
theorem resetOne_keeps {j : Nat} {x : Tile} (k : Nat) (h : s.tile j = { wb := x.wb }) : (resetOne k s).tile j = { wb := x.wb } := by
  by_cases e : j = k
  · subst e; rw [resetOne_tile, h]
  · rw [resetOne_tile_ne e, h]

/-- Resetting a list of tiles. -/
theorem resetAll_resets (l : List Nat) (s : State) : { forL l resetOne s with tiles := s.tiles } = s ∧ ∀ k ∈ l, (forL l resetOne s).tile k = { wb := (s.tile k).wb } := by
  have lines : ∀ j k : Nat, ∀ u : State, (u.tile j).wb = (s.tile j).wb → ((resetOne k u).tile j).wb = (s.tile j).wb := fun j k u h => by
    by_cases e : j = k
    · subst e; rw [resetOne_tile, h]
    · rw [resetOne_tile_ne e, h]
  obtain ⟨⟨only, -⟩, -, all⟩ := forL_each (I := fun u : State => { u with tiles := s.tiles } = s ∧ ∀ j, (u.tile j).wb = (s.tile j).wb) (Q := fun k u => u.tile k = { wb := (s.tile k).wb }) (f := resetOne) l
    (fun k _ u h => ⟨(congrArg (fun z : State => ({ z with tiles := s.tiles } : State)) (resetOne_only k u)).trans h.1, fun j => lines j k u (h.2 j)⟩) (fun _ k _ _ _ h => resetOne_keeps k h)
    (fun k _ u h => by rw [resetOne_tile, h.2 k]) s ⟨rfl, fun _ => rfl⟩
  exact ⟨only, all⟩

/-- The launches that wait for a quire are dropped. -/
def dropOne (q : Nat) (s : State) : State := if (s.quire q).launches.isEmpty then s else s.modQuire q fun x => { x with launches := [] }

theorem dropOne_only (q : Nat) (s : State) : EndsOnly s (dropOne q s) ∧ (dropOne q s).tiles = s.tiles ∧ (dropOne q s).rooms = s.rooms := by
  unfold dropOne
  split
  · exact ⟨.refl s, rfl, rfl⟩
  · refine ⟨⟨fun p => ?_, rfl⟩, rfl, rfl⟩
    by_cases hp : p = q
    · subst hp; rw [State.quire_modQuire]
    · rw [State.quire_modQuire_ne _ _ hp]

/-- The watches of a room are disarmed. -/
def State.disarmWatches (s : State) (r : Nat) : State :=
  match (s.room r).form with
  | some f => forL ((s.tal.watch.filter fun e => inRange e.1 f.twBase.toNat f.twCount.toNat && e.2.arm).map fun e => e.1) (fun n s => s.setWatch n { s.watch n with arm := false }) s
  | none => s

theorem State.disarmWatches_only (s : State) (r : Nat) : { s.disarmWatches r with tal := s.tal } = s := by
  unfold State.disarmWatches
  split
  · refine foldl_keeps (fun u : State => { u with tal := s.tal } = s) (fun u k h => ?_) _ s rfl
    exact h
  · rfl

/-- The room as the end of its reset leaves it. -/
def doneRoom (x : Room) : Room := { x with resetting := false, flr := false, evt := x.evt ||| 16 }

theorem State.raiseRoom_eq (s : State) (r : Nat) (m : W32) : ∃ i, s.raiseRoom r m = { s.modRoom r (fun x => { x with evt := x.evt ||| m }) with irq := i } := State.srcRose_eq s _ _

/-- The end of a room's reset is told by RESET_DONE. -/
theorem State.finish_eq (s : State) (r : Nat) (f : Room → Room) (m : W32) :
    ∃ i l, (s.modRoom r f).raiseRoom r m = { s with irq := i, rooms := l } ∧ Tbl.get {} l r = { f (s.room r) with evt := (f (s.room r)).evt ||| m } := by
  obtain ⟨i, h⟩ := (s.modRoom r f).raiseRoom_eq r m
  have frame : ∀ (u : State) (g : Room → Room), u.modRoom r g = { u with rooms := Tbl.put {} u.rooms r (g (u.room r)) } := fun _ _ => rfl
  rw [frame _ fun x => { x with evt := x.evt ||| m }, State.room_modRoom, frame s] at h
  exact ⟨i, _, h, Tbl.get_put_same _ _ _⟩

/-- A reset that ends resets the tiles and what belongs to them, and only then tells the room. -/
theorem State.endReset_eq (s : State) (r : Nat) :
    let u := forL (s.roomTiles r) resetOne s
    let w := (forL (u.roomQuires r) dropOne u).disarmWatches r
    ∃ i l, s.endReset r = { w with irq := i, rooms := l } ∧ Tbl.get {} l r = doneRoom (w.room r) := by
  intro u w
  obtain ⟨i, l, h, room⟩ := State.finish_eq { w with irq := { w.irq with vec := ((w.irq.vec.filter fun e => inRange e.1 (256 * r) 256).map fun e => e.1).foldl (fun t n => Tbl.put {} t n { Tbl.get {} t n with held := 0 }) w.irq.vec } } r
    (fun x => { x with resetting := false, flr := false }) 16
  exact ⟨i, l, h, room⟩

/-- What the end of a reset leaves (R382). -/
theorem State.endReset_ends (s : State) (r : Nat) :
    EndsOnly s (s.endReset r) ∧ (∀ k ∈ s.roomTiles r, (s.endReset r).tile k = { wb := (s.tile k).wb }) ∧ (s.endReset r).room r = doneRoom (s.room r) := by
  obtain ⟨tiles, reset⟩ := resetAll_resets (s.roomTiles r) s
  obtain ⟨i, l, run, room⟩ := s.endReset_eq r
  generalize forL (s.roomTiles r) resetOne s = u at tiles reset run room
  obtain ⟨only, kept, rooms⟩ := foldl_keeps (fun v : State => EndsOnly u v ∧ v.tiles = u.tiles ∧ v.rooms = u.rooms)
    (fun v q h => ⟨h.1.trans (dropOne_only q v).1, (dropOne_only q v).2.1.trans h.2.1, (dropOne_only q v).2.2.trans h.2.2⟩) (u.roomQuires r) u ⟨.refl u, rfl, rfl⟩
  change EndsOnly u (forL (u.roomQuires r) dropOne u) at only
  change (forL (u.roomQuires r) dropOne u).tiles = u.tiles at kept
  change (forL (u.roomQuires r) dropOne u).rooms = u.rooms at rooms
  generalize forL (u.roomQuires r) dropOne u = v at only kept rooms run room
  have watches := v.disarmWatches_only r
  generalize v.disarmWatches r = w at watches run room
  have first : EndsOnly s u := .of_quires (congrArg State.quires tiles :) (congrArg (fun z : State => ({ z with quires := s.quires, tal := s.tal, irq := s.irq, rooms := s.rooms } : State)) tiles :)
  have last : EndsOnly v { w with irq := i, rooms := l } := .of_quires (congrArg State.quires watches :) (congrArg (fun z : State => ({ z with tiles := v.tiles, quires := v.quires, irq := v.irq, rooms := v.rooms } : State)) watches :)
  have tile : w.tiles = u.tiles := Eq.trans (congrArg State.tiles watches :) kept
  have before : w.room r = s.room r := State.room_of_rooms (Eq.trans (congrArg State.rooms watches :) (rooms.trans (congrArg State.rooms tiles :))) r
  rw [run]
  refine ⟨first.trans (only.trans last), fun k hk => Eq.trans ?_ (reset k hk), by rw [← before]; exact room⟩
  show Tbl.get {} w.tiles k = _
  rw [tile]
  rfl

/-! ### A reset that ends at once -/

theorem State.hasFabric_of_plain {f : FormRec} (h : (s.room r).form = some f) (h0 : f.ftCount = 0) : s.hasFabric r = false := by
  unfold State.hasFabric
  rw [h]
  simp [h0]

/-- A room without a fabric range whose channels are idle: its reset is ready to end as soon as it has begun. -/
theorem State.beginReset_idle (h : s.hasFabric r = false) (hc : ∀ c ∈ s.roomChans r, chanIdle (s.chan c) = true) (flr : Bool) :
    s.beginReset r flr = (s.stopRoom r).modRoom r (fun x => resettingRoom x flr) ∧ (s.beginReset r flr).resetReady r = true := by
  obtain ⟨only, -⟩ := s.stopRoom_stops r
  have chans : (s.stopRoom r).roomChans r = s.roomChans r := State.roomChans_of_form (congrArg Room.form (State.room_of_rooms only.rooms r))
  have run : s.beginReset r flr = (s.stopRoom r).modRoom r (fun x => resettingRoom x flr) := by
    rw [State.beginReset_of_plain h, forL_id fun c hc' => State.chanAbort_none (.inl (by rw [only.chan, hc c (chans ▸ hc')]))]
  refine ⟨run, ?_⟩
  rw [run]
  have room := State.room_modRoom (s.stopRoom r) r (fun x => resettingRoom x flr)
  unfold State.resetReady
  rw [State.roomChans_of_form (s := s.stopRoom r) (by rw [room]; rfl), chans, room]
  refine Bool.and_eq_true_iff.2 ⟨rfl, List.all_eq_true.2 fun c hc' => ?_⟩
  have same : ((s.stopRoom r).modRoom r fun x => resettingRoom x flr).chan c = (s.stopRoom r).chan c := by cases c <;> rfl
  rw [same, only.chan, hc c hc']

theorem reset_ends (h : s.hasFabric r = false) (hc : ∀ c ∈ s.roomChans r, chanIdle (s.chan c) = true) (flr : Bool) :
    ResetDone s ((s.beginReset r flr).endReset r) r ∧ ((s.beginReset r flr).endReset r).fns = s.fns ∧ ((s.beginReset r flr).endReset r).led = s.led := by
  obtain ⟨run, -⟩ := State.beginReset_idle h hc flr
  obtain ⟨only, -, off⟩ := s.stopRoom_stops r
  have room := State.room_modRoom (s.stopRoom r) r (fun x => resettingRoom x flr)
  have before := State.room_of_rooms only.rooms r
  obtain ⟨ends, tiles, done⟩ := (s.beginReset r flr).endReset_ends r
  rw [State.roomTiles_of_form (s := s) (by rw [run, room, before]; rfl)] at tiles
  have cues : ∀ c, (s.beginReset r flr).cueAt c = (s.stopRoom r).cueAt c := fun c => by rw [run]; cases c <;> rfl
  refine ⟨⟨fun k hk => ?_, fun c hc' => by rw [ends.cueAt, cues, off c hc'], ?_, ?_, ?_, ?_⟩, ?_, ?_⟩
  · rw [tiles k hk, ← only.2.2 k, run]
    rfl
  · rw [done]; rfl
  · rw [done, run, room, before]; rfl
  · rw [done, run, room, before]; rfl
  · rw [ends.mem, run]; exact only.mem
  · rw [ends.fns, run]; exact only.fns
  · rw [ends.led, run]; exact only.led

/-! ### A reset that waits -/

theorem reset_waits (h : s.hasFabric r = false) {c : ChanRef} (hm : c ∈ s.roomChans r) (hc : chanIdle (s.chan c) = false) (flr : Bool) :
    ((s.beginReset r flr).room r).resetting = true ∧ ((s.beginReset r flr).room r).evt = (s.room r).evt ∧ ((s.beginReset r flr).chan c).state = .aborting ∧ RoomStopped s (s.beginReset r flr) r ∧
      (s.beginReset r flr).led = s.led ∧ (s.beginReset r flr).resetReady r = false := by
  obtain ⟨only, stopped, off⟩ := s.stopRoom_stops r
  have before := State.room_of_rooms only.rooms r
  have chans : (s.stopRoom r).roomChans r = s.roomChans r := State.roomChans_of_form (congrArg Room.form before)
  obtain ⟨frame, aborted⟩ := abortAll_aborts ((s.stopRoom r).roomChans r) (s.stopRoom r)
  have run := State.beginReset_of_plain h flr
  generalize forL ((s.stopRoom r).roomChans r) (fun c u => u.chanAbort c) (s.stopRoom r) = u at frame aborted run
  have room : (s.beginReset r flr).room r = resettingRoom (s.room r) flr := by rw [run, State.room_modRoom, State.room_of_rooms frame.rooms, before]
  have chan : ∀ d, (s.beginReset r flr).chan d = u.chan d := fun d => by rw [run]; cases d <;> rfl
  have aborting : ((s.beginReset r flr).chan c).state = .aborting := by rw [chan, aborted c (chans ▸ hm) (by rw [only.chan, hc])]
  refine ⟨by rw [room]; rfl, by rw [room]; rfl, aborting, ⟨fun k hk => ?_, fun d hd => ?_⟩, ?_, ?_⟩
  · rw [run]
    show (u.tile k).isStopped
    rw [frame.tile]
    exact stopped k hk
  · rw [run, show (u.modRoom r fun x => resettingRoom x flr).cueAt d = u.cueAt d by cases d <;> rfl, frame.cueAt, off d hd]
  · rw [run]
    exact frame.led.trans only.led
  · unfold State.resetReady
    rw [Bool.and_eq_false_iff, State.roomChans_of_form (s := s) (by rw [room]; rfl), List.all_eq_false]
    exact .inr ⟨c, hm, by simp [chanIdle, aborting]⟩

end Sys2Proof.Machine
end

section
/-! SUPPORT. A room takes a declared fault (R387, R388, R389). -/

namespace Sys2Proof.Machine

variable {s t n : State} {r : Nat} {f : FormRec} {i : FaultInfo}

/-- The record that a first fault of this device leaves in its room. -/
def firstFault (s : State) (i : FaultInfo) : RoomFault :=
  { cause := BitVec.ofNat 8 i.cause, origin := i.origin.getD (BitVec.ofNat 16 s.devNo), tile := BitVec.ofNat 16 i.tile, haltCause := i.haltCause, detail := BitVec.ofNat 16 i.detail, pos := s.posOrZero, secondary := 0,
    accession := s.nextEventAcc 26 }

/-- The state of the room and its fault are recorded, and its tallies freeze: what every first fault begins with. -/
def State.faultRecorded (s : State) (r : Nat) (i : FaultInfo) : State :=
  State.raiseTally (State.modRoom ((s.setRoom r { s.room r with state := .faulted, flt := firstFault s i }).event 3 (faultBytes (firstFault s i))) r fun x => { x with frozen := true }) r 2

/-- A first fault with cause `a` is told to the home of the room's job, or as the home `dev` to its members. -/
def State.faultTold (s : State) (r : Nat) (f : FormRec) (dev : BitVec 16) (a : Nat) : State :=
  if f.ftCount = 0 || a = 12 then s
  else if f.home = dev then s.homeNotice f.jobId dev a
  else s.tellFault r f.home 3 (leBytes 4 f.jobId.toNat ++ leBytes 1 a)

/-- The room stops at once, or for a domain notice at its next cue boundary. -/
def State.faultStops (s : State) (r a : Nat) : State := if a = 12 then s.modRoom r fun x => { x with haltAt := some s.clk.pos } else (s.disarmCues r).haltTiles r

/-- What a fault does: a first fault is recorded, told, and stops the room; a later one counts (R388, R389). -/
theorem State.roomFault_cases (s : State) (r : Nat) (i : FaultInfo) :
    (∃ f, (s.room r).form = some f ∧ s.roomFault r i = (((s.faultRecorded r i).faultTold r f (BitVec.ofNat 16 s.devNo) i.cause).faultStops r i.cause).raiseRoom r 2) ∨
    ((s.room r).state = .faulted ∧ s.roomFault r i = s.laterFault r) ∨
    (((s.room r).form = none ∨ ((s.room r).state ≠ .formed ∧ (s.room r).state ≠ .forming ∧ (s.room r).state ≠ .faulted)) ∧ s.roomFault r i = s) := by
  unfold State.roomFault
  dsimp only
  split
  next f hf _ => exact .inl ⟨f, hf, rfl⟩
  next f hf _ => exact .inl ⟨f, hf, rfl⟩
  next hs => exact .inr (.inl ⟨hs, rfl⟩)
  next h3 h1 h2 =>
    refine .inr (.inr ⟨?_, rfl⟩)
    cases hf : (s.room r).form with
    | none => exact .inl rfl
    | some f => exact .inr ⟨h1 f hf, h2 f hf, h3⟩

/-- A first fault of a room without a fabric range is told to nobody, and stops the room (R388). -/
theorem State.roomFault_plain (hf : (s.room r).form = some f) (hs : (s.room r).state = .formed) (h0 : f.ftCount = 0) (hc : i.cause ≠ 12) :
    s.roomFault r i = (((s.faultRecorded r i).disarmCues r).haltTiles r).raiseRoom r 2 := by
  obtain ⟨g, hg, run⟩ | ⟨h, -⟩ | ⟨h | ⟨h, -⟩, -⟩ := s.roomFault_cases r i
  · obtain rfl : g = f := Option.some.inj (hg.symm.trans hf)
    rw [run, State.faultTold, if_pos (by rw [h0]; rfl), State.faultStops, if_neg hc]
  · rw [hs] at h; cases h
  · rw [hf] at h; cases h
  · exact absurd hs h

/-- A fault of a faulted room counts (R389). -/
theorem State.roomFault_later (hs : (s.room r).state = .faulted) : s.roomFault r i = s.laterFault r := by
  unfold State.roomFault
  dsimp only
  rw [hs]
  cases (s.room r).form <;> rfl

/-- The room once a later fault has counted, up to 255. -/
def laterRoom (x : Room) : Room := { x with flt := { x.flt with secondary := if x.flt.secondary = 255 then 255 else x.flt.secondary + 1 } }

theorem State.laterFault_eq (s : State) (r : Nat) : s.laterFault r = if (s.room r).state = .faulted then s.modRoom r laterRoom else s := rfl

/-- The room as its first fault has recorded it. -/
def faultedRoom (s : State) (x : Room) (i : FaultInfo) : Room := { x with state := .faulted, flt := firstFault s i, frozen := true, tallyEvt := x.tallyEvt ||| 2 }

theorem State.raiseTally_eq (s : State) (r : Nat) (m : W32) : ∃ i, s.raiseTally r m = { s.modRoom r (fun x => { x with tallyEvt := x.tallyEvt ||| m }) with irq := i } := State.srcRose_eq s _ _

theorem State.faultRecorded_room (s : State) (r : Nat) (i : FaultInfo) : (s.faultRecorded r i).room r = faultedRoom s (s.room r) i := by
  unfold State.faultRecorded
  have event := Answering.event (s.setRoom r { s.room r with state := .faulted, flt := firstFault s i }) 3 (faultBytes (firstFault s i))
  have room : ((s.setRoom r { s.room r with state := .faulted, flt := firstFault s i }).event 3 (faultBytes (firstFault s i))).room r = _ :=
    (State.room_of_rooms (congrArg State.rooms event.only :) r).trans (State.room_setRoom s r _)
  generalize (s.setRoom r { s.room r with state := .faulted, flt := firstFault s i }).event 3 (faultBytes (firstFault s i)) = u at room
  obtain ⟨j, h⟩ := (u.modRoom r fun x => { x with frozen := true }).raiseTally_eq r 2
  rw [h]
  show ((u.modRoom r fun x => { x with frozen := true }).modRoom r fun x => { x with tallyEvt := x.tallyEvt ||| 2 }).room r = _
  rw [State.room_modRoom, State.room_modRoom, room]
  rfl

/-- Recording a fault keeps each record of a command that is not acknowledged, and the commands that wait. -/
theorem State.faultRecorded_led (s : State) (r : Nat) (i : FaultInfo) :
    (∀ a x, s.record a = some x → x.kind = 1 → x.acked = false → (s.faultRecorded r i).record a = some x) ∧ (s.faultRecorded r i).led.queue = s.led.queue := by
  have event := Answering.event (s.setRoom r { s.room r with state := .faulted, flt := firstFault s i }) 3 (faultBytes (firstFault s i))
  have led : (s.faultRecorded r i).led = ((s.setRoom r { s.room r with state := .faulted, flt := firstFault s i }).event 3 (faultBytes (firstFault s i))).led := by
    unfold State.faultRecorded
    generalize (s.setRoom r { s.room r with state := .faulted, flt := firstFault s i }).event 3 (faultBytes (firstFault s i)) = u
    obtain ⟨j, h⟩ := (u.modRoom r fun x => { x with frozen := true }).raiseTally_eq r 2
    rw [h]
    rfl
  refine ⟨fun a x h hk ha => ?_, by rw [led, event.queue]; rfl⟩
  unfold State.record
  rw [led]
  exact event.keeps a x h hk ha

theorem roomFault_faults (hf : (s.room r).form = some f) (hs : (s.room r).state = .formed) (h0 : f.ftCount = 0) (hc : i.cause ≠ 12) :
    RoomFaulted s (s.roomFault r i) r (BitVec.ofNat 8 i.cause) (BitVec.ofNat 16 i.detail) ∧ (s.roomFault r i).led = (s.faultRecorded r i).led := by
  rw [State.roomFault_plain hf hs h0 hc]
  have first := s.faultRecorded_room r i
  generalize s.faultRecorded r i = u at first
  obtain ⟨cues, -⟩ := u.disarmCues_disarms r
  obtain ⟨halts, -⟩ := (u.disarmCues r).haltTiles_halts r
  obtain ⟨stopped, off⟩ := u.disarmCues_haltTiles_stops r
  have form : (u.room r).form = (s.room r).form := by rw [first]; rfl
  rw [State.roomTiles_of_form form] at stopped
  rw [State.roomCues_of_form form] at off
  have room : ((u.disarmCues r).haltTiles r).room r = faultedRoom s (s.room r) i := (State.room_of_rooms (halts.rooms.trans cues.rooms) r).trans first
  have led : ((u.disarmCues r).haltTiles r).led = u.led := halts.led.trans cues.led
  generalize (u.disarmCues r).haltTiles r = v at stopped off room led
  obtain ⟨j, h⟩ := v.raiseRoom_eq r 2
  have last : (v.raiseRoom r 2).room r = { faultedRoom s (s.room r) i with evt := (s.room r).evt ||| 2 } := by
    rw [h]
    show (v.modRoom r fun x => { x with evt := x.evt ||| 2 }).room r = _
    rw [State.room_modRoom, room]
    rfl
  refine ⟨⟨by rw [last]; rfl, by rw [last]; rfl, by rw [last]; rfl, by rw [last]; rfl, by rw [last]; rfl, by rw [last]; rfl, by rw [last], fun k hk => ?_, fun c hc => ?_⟩, ?_⟩
  · rw [h]; exact stopped k hk
  · rw [h, show State.cueAt { v.modRoom r (fun x => { x with evt := x.evt ||| 2 }) with irq := j } c = v.cueAt c by cases c <;> rfl]
    exact off c hc
  · rw [h]; exact led

/-! ### ROOM_CTL (R382, R387) -/

theorem State.roomCtlWrite_declare (s : State) (r : Nat) : s.roomCtlWrite r 2 = if (s.room r).isFormed then s.roomFault r { cause := 16 } else s := by
  unfold State.roomCtlWrite
  dsimp only
  rw [show Nat.testBit 2 1 = true by decide, show Nat.testBit 2 0 = false by decide, Bool.true_and, Bool.false_and]
  rfl
theorem State.roomCtlWrite_reset (h : (s.room r).isFormed = true) : s.roomCtlWrite r 1 = (s.beginReset r false).settleReset r := by
  unfold State.roomCtlWrite
  dsimp only
  rw [show Nat.testBit 1 1 = false by decide, show Nat.testBit 1 0 = true by decide, Bool.true_and, Bool.false_and]
  exact if_pos h

theorem isFormed_of_formed {x : Room} (h : x.state = .formed) : x.isFormed = true := by simp [Room.isFormed, h]
theorem isFormed_of_faulted {x : Room} (h : x.state = .faulted) : x.isFormed = true := by simp [Room.isFormed, h]

theorem exec_roomReset_reg (s : State) (k : RoomId) : ∃ i, exec (.roomReset .reg k) s = .next { s.roomCtlWrite k 1 with irq := i } := by
  obtain ⟨i, h⟩ := settle_eq s (s.roomCtlWrite k 1)
  exact ⟨i, congrArg Host.Outcome.next h⟩
theorem exec_roomDeclareFault_reg (s : State) (k : RoomId) (d : BitVec 16) : ∃ i, exec (.roomDeclareFault .reg k d) s = .next { s.roomCtlWrite k 2 with irq := i } := by
  obtain ⟨i, h⟩ := settle_eq s (s.roomCtlWrite k 2)
  exact ⟨i, congrArg Host.Outcome.next h⟩

/-! ### What recording and replying leave of these -/

theorem ReplyOnly.room (h : ReplyOnly s n) (k : Nat) : n.room k = s.room k := (congrArg (fun z : State => z.room k) h :)
theorem ReplyOnly.chan (h : ReplyOnly s n) (c : ChanRef) : n.chan c = s.chan c := (congrArg (fun z : State => z.chan c) h :)

theorem RoomFaulted.of_reply {u : State} {a : BitVec 8} {b : BitVec 16} (hs : ReplyOnly s t) (h : RoomFaulted t u r a b) (hn : ReplyOnly u n) : RoomFaulted s n r a b := by
  obtain ⟨_, _, _, _, _, _, rfl⟩ := hs.exists
  obtain ⟨_, _, _, _, _, _, rfl⟩ := hn.exists
  exact h
theorem ResetDone.of_reply {u : State} (hs : ReplyOnly s t) (h : ResetDone t u r) (hn : ReplyOnly u n) : ResetDone s n r := by
  obtain ⟨_, _, _, _, _, _, rfl⟩ := hs.exists
  obtain ⟨_, _, _, _, _, _, rfl⟩ := hn.exists
  exact h

theorem RoomFaulted.of_irq {a : BitVec 8} {b : BitVec 16} (h : RoomFaulted s n r a b) (j : Irq) : RoomFaulted s { n with irq := j } r a b := RoomFaulted.of_reply (.refl s) h rfl
theorem ResetDone.of_irq (h : ResetDone s n r) (j : Irq) : ResetDone s { n with irq := j } r := ResetDone.of_reply (.refl s) h rfl

/-! ### The commands (R382, R387) -/

/-- The byte of a room number. -/
theorem leNat_byte (k : RoomId) : leNat [BitVec.ofNat 8 k] = k := by
  simp only [leNat, BitVec.toNat_ofNat]
  omega

theorem State.resetEffect_eq {k : RoomId} (h : (s.room k).isFormed = true) :
    s.resetEffect k = if (s.beginReset k false).resetReady k then .ok ((s.beginReset k false).endReset k) else .wait (s.beginReset k false) := by
  unfold State.resetEffect
  rw [h, if_pos (by simp)]

theorem State.declareEffect_eq {k : RoomId} {d : BitVec 16} (h : (s.room k).isFormed = true) :
    s.declareEffect ([BitVec.ofNat 8 k] ++ leBytes 2 d.toNat) = .ok (s.roomFault k { cause := 16, detail := d.toNat }) := by
  have room : fieldAt ([BitVec.ofNat 8 k] ++ leBytes 2 d.toNat) 0 1 = k := by
    rw [show [BitVec.ofNat 8 k.val] = leBytes 1 k from rfl, fieldAt_leBytes]
    omega
  have detail : fieldAt ([BitVec.ofNat 8 k] ++ leBytes 2 d.toNat) 1 2 = d.toNat := by
    have last := fieldAt_leBytes 2 d.toNat []
    rw [List.append_nil, toNat_mod_16] at last
    rw [show [BitVec.ofNat 8 k.val] = leBytes 1 k from rfl, fieldAt_skip 1 _ _ 0, last]
  unfold State.declareEffect
  dsimp only
  rw [room, detail, h, if_pos (by simp)]

/-! ### Function-level resets (R425) -/

/-- What a function-level reset leaves of the function (R425). -/
theorem State.resetHostSide_resets (s : State) (g : Nat) (flr : Bool) : ReplyOnly s (s.resetHostSide g flr) ∧
    (s.resetHostSide g flr).fn g = { hostErr := if flr then 0 else (s.fn g).hostErr, hostEvt := if flr then 0 else (s.fn g).hostEvt, stage := if flr then none else (s.fn g).stage, latch := (s.fn g).latch,
                                     held := (s.fn g).held.filter (heldPosted g) } ∧
    ∀ j, j ≠ g → (s.resetHostSide g flr).fn j = s.fn j := by
  have stop : ∀ j, (s.mbxStop g).fn j = (s.modMbx g fun m => { m with en := false, waiting := [] }).fn j := fun _ => rfl
  unfold State.resetHostSide
  dsimp only
  refine ⟨(Answering.mbxStop s g).only.trans (Answering.modFn _ g _).only, ?_, fun j hj => ?_⟩
  · rw [State.fn_modFn, stop, State.modMbx, State.fn_modFn]
  · rw [State.fn_modFn_ne _ _ hj, stop, State.modMbx, State.fn_modFn_ne _ _ hj]

theorem State.disableVfs_only (s : State) (lo hi : Nat) : ReplyOnly s (s.disableVfs lo hi) :=
  foldl_keeps (ReplyOnly s) (fun u g h => h.trans (u.resetHostSide_resets g false).1) _ s (.refl s)

end Sys2Proof.Machine
end

section
/-! ROOMS. Resets, declared faults and the halt at a cue boundary, each from its instruction (R87, R382, R387 to R389, R425). -/

namespace Sys2Proof.Machine

variable {s n : State} {k : RoomId} {f : FormRec} {r : Req} {detail : BitVec 16}

/-! ### A reset of a room whose channels are idle -/

section
variable (hf : (s.room k).form = some f) (hr : (s.room k).isFormed = true) (h0 : f.ftCount = 0)
include hf hr h0

section
variable (hc : ∀ c ∈ s.roomChans k, chanIdle (s.chan c) = true)
include hc

theorem roomReset_reg_ends : ∃ n, exec (.roomReset .reg k) s = .next n ∧ ResetDone s n k := by
  obtain ⟨i, run⟩ := exec_roomReset_reg s k
  obtain ⟨-, ready⟩ := State.beginReset_idle (State.hasFabric_of_plain hf h0) hc false
  rw [State.roomCtlWrite_reset hr, State.settleReset, if_pos ready] at run
  exact ⟨_, run, ResetDone.of_irq (reset_ends (State.hasFabric_of_plain hf h0) hc false).1 i⟩

theorem functionLevelReset_ends : ∃ n, exec (.functionLevelReset ⟨k + 1, by omega⟩) s = .next n ∧ ResetDone s n k ∧ (n.fn (k + 1)).hostErr = 0 ∧ (n.fn (k + 1)).hostEvt = 0 ∧ (n.fn (k + 1)).apt = [] ∧
    (n.fn (k + 1)).msix = [] ∧ (n.fn (k + 1)).mbx = {} ∧ (n.fn (k + 1)).stage = none ∧ ∀ j, j ≠ k.val + 1 → n.fn j = s.fn j := by
  obtain ⟨host, fn, others⟩ := s.resetHostSide_resets (k + 1) true
  have run : exec (.functionLevelReset ⟨k + 1, by omega⟩) s =
      .next (if ((s.resetHostSide (k + 1) true).room k).isFormed then ((s.resetHostSide (k + 1) true).beginReset k true).settleReset k else s.resetHostSide (k + 1) true) := by
    show execFunctionLevelReset _ s = _
    unfold execFunctionLevelReset
    rw [if_neg (fun e => Nat.succ_ne_zero k (congrArg Fin.val e))]
    rfl
  generalize s.resetHostSide (k + 1) true = u at host fn others run
  have rooms := ReplyOnly.room host k
  have chan := ReplyOnly.chan host
  have plain : u.hasFabric k = false := State.hasFabric_of_plain (by rw [rooms, hf]) h0
  have idle : ∀ c ∈ u.roomChans k, chanIdle (u.chan c) = true := fun c hm => by rw [chan, hc c (State.roomChans_of_form (congrArg Room.form rooms) ▸ hm)]
  obtain ⟨-, ready⟩ := State.beginReset_idle plain idle true
  obtain ⟨done, fns, -⟩ := reset_ends plain idle true
  rw [rooms, if_pos hr, State.settleReset, if_pos ready] at run
  have fn' : ∀ j, ((u.beginReset k true).endReset k).fn j = u.fn j := fun j => by unfold State.fn; rw [fns]
  refine ⟨_, run, ResetDone.of_reply host done (.refl _), ?_, ?_, ?_, ?_, ?_, ?_, fun j hj => (fn' j).trans (others j hj)⟩ <;> rw [fn', fn] <;> rfl

theorem roomReset_cmd_ends (hadm : Admits s r 0x3002 1 [BitVec.ofNat 8 k]) : Journaled s (.roomReset (.cmd r) k) r 0x3002 1 [BitVec.ofNat 8 k] 0 [] fun n => ResetDone s n k := by
  refine journaled_of (st := stOK) hadm (by decide) (by decide) (.inl rfl) rfl (by decide) fun t x ht => ?_
  have rooms := ReplyOnly.room ht.only k
  have chan := ReplyOnly.chan ht.only
  have plain : t.hasFabric k = false := State.hasFabric_of_plain (by rw [rooms, hf]) h0
  have idle : ∀ c ∈ t.roomChans k, chanIdle (t.chan c) = true := fun c hm => by rw [chan, hc c (State.roomChans_of_form (congrArg Room.form rooms) ▸ hm)]
  obtain ⟨-, ready⟩ := State.beginReset_idle plain idle false
  obtain ⟨done, -, led⟩ := reset_ends plain idle false
  refine ⟨(t.beginReset k false).endReset k, ?_, ?_, by rw [led]; exact ht.queue, fun n hn => ResetDone.of_reply ht.only done hn⟩
  · rw [ht.roomReset, leNat_byte, State.resetEffect_eq (by rw [rooms]; exact hr), if_pos ready]
    rfl
  · unfold State.record
    rw [led]
    exact ht.record.1

end

/-! ### A reset of a room with a busy channel -/

section
variable {c : ChanRef} (hm : c ∈ s.roomChans k) (hc : chanIdle (s.chan c) = false)
include hm hc

theorem roomReset_reg_waits : ∃ n, exec (.roomReset .reg k) s = .next n ∧ (n.room k).resetting = true ∧ (n.room k).evt = (s.room k).evt ∧ (n.chan c).state = .aborting ∧ RoomStopped s n k := by
  obtain ⟨i, run⟩ := exec_roomReset_reg s k
  obtain ⟨resetting, evt, aborting, stopped, -, ready⟩ := reset_waits (State.hasFabric_of_plain hf h0) hm hc false
  rw [State.roomCtlWrite_reset hr, State.settleReset, if_neg (by rw [ready]; decide)] at run
  generalize s.beginReset k false = u at resetting evt aborting stopped run
  refine ⟨_, run, resetting, evt, ?_, stopped.1, fun d hd => ?_⟩
  · rw [← aborting]; cases c <;> rfl
  · rw [← stopped.2 d hd]; cases d <;> rfl

theorem roomReset_cmd_waits (hadm : Admits s r 0x3002 1 [BitVec.ofNat 8 k]) :
    Begun s (.roomReset (.cmd r) k) r 0x3002 1 [BitVec.ofNat 8 k] fun n => (n.room k).resetting = true ∧ (n.chan c).state = .aborting := by
  refine begun_of hadm (by decide) (by decide) (.inl rfl) rfl fun t x ht => ?_
  have rooms := ReplyOnly.room ht.only k
  have chan := ReplyOnly.chan ht.only c
  have plain : t.hasFabric k = false := State.hasFabric_of_plain (by rw [rooms, hf]) h0
  obtain ⟨resetting, -, aborting, -, led, ready⟩ := reset_waits plain (State.roomChans_of_form (congrArg Room.form rooms) ▸ hm) (by rw [chan]; exact hc) false
  have effect : t.commandEffect x = .wait (t.beginReset k false) := by rw [ht.roomReset, leNat_byte, State.resetEffect_eq (by rw [rooms]; exact hr), if_neg (by rw [ready]; decide)]
  generalize t.beginReset k false = u at resetting aborting led effect
  refine ⟨u, effect, ?_, by rw [led]; exact ht.current, fun i => ⟨resetting, ?_⟩⟩
  · unfold State.record
    rw [led]
    exact ht.record.1
  · rw [← aborting]; cases c <;> rfl

end

end

/-! ### A declared fault -/

section
variable (hf : (s.room k).form = some f) (hs : (s.room k).state = .formed) (h0 : f.ftCount = 0)
include hf hs h0

theorem roomDeclareFault_reg_faults (detail : BitVec 16) : ∃ n, exec (.roomDeclareFault .reg k detail) s = .next n ∧ RoomFaulted s n k 16 0 := by
  obtain ⟨i, run⟩ := exec_roomDeclareFault_reg s k detail
  rw [State.roomCtlWrite_declare, if_pos (isFormed_of_formed hs)] at run
  exact ⟨_, run, RoomFaulted.of_irq (roomFault_faults (i := { cause := 16 }) hf hs h0 (by decide)).1 i⟩

theorem roomDeclareFault_cmd_faults (hadm : Admits s r 0x3003 1 ([BitVec.ofNat 8 k] ++ leBytes 2 detail.toNat)) :
    Journaled s (.roomDeclareFault (.cmd r) k detail) r 0x3003 1 ([BitVec.ofNat 8 k] ++ leBytes 2 detail.toNat) 0 [] fun n => RoomFaulted s n k 16 detail := by
  refine journaled_of (st := stOK) hadm (by decide) (by decide) (.inl rfl) rfl (by decide) fun t x ht => ?_
  have rooms := ReplyOnly.room ht.only k
  have state : (t.room k).state = .formed := by rw [rooms, hs]
  obtain ⟨faulted, led⟩ := roomFault_faults (i := { cause := 16, detail := detail.toNat }) (by rw [rooms, hf]) state h0 (show (16 : Nat) ≠ 12 by decide)
  obtain ⟨keeps, queue⟩ := t.faultRecorded_led k { cause := 16, detail := detail.toNat }
  rw [show BitVec.ofNat 16 detail.toNat = detail by rw [BitVec.ofNat_toNat, BitVec.setWidth_eq]] at faulted
  refine ⟨t.roomFault k { cause := 16, detail := detail.toNat }, ?_, ?_, by rw [led, queue]; exact ht.queue, fun n hn => RoomFaulted.of_reply ht.only faulted hn⟩
  · rw [ht.roomFault, State.declareEffect_eq (by rw [rooms]; exact isFormed_of_formed hs)]
    rfl
  · obtain ⟨recorded, kind, -⟩ := ht.record
    obtain ⟨-, acked, -⟩ := ht.open'
    have kept := keeps _ x recorded kind acked
    unfold State.record at kept ⊢
    rw [led]
    exact kept

end

/-- A later declared fault counts, up to 255. -/
theorem roomDeclareFault_counts (hs : (s.room k).state = .faulted) (h1 : (s.room k).flt.secondary ≠ 255) (detail : BitVec 16) :
    LeavesRoom s (.roomDeclareFault .reg k detail) k { s.room k with flt := { (s.room k).flt with secondary := (s.room k).flt.secondary + 1 } } := by
  obtain ⟨i, run⟩ := exec_roomDeclareFault_reg s k detail
  rw [State.roomCtlWrite_declare, if_pos (isFormed_of_faulted hs), State.roomFault_later hs, State.laterFault_eq, if_pos hs] at run
  refine ⟨_, run, ?_, fun j hj => State.room_modRoom_ne s laterRoom hj, rfl⟩
  refine (State.room_modRoom s k laterRoom).trans ?_
  unfold laterRoom
  rw [if_neg h1]

/-! ### The cue boundary (R87) -/

theorem haltAtCueBoundary_stops (h : s.atCueBoundary k = true) : ∃ n, exec (.haltAtCueBoundary k) s = .next n ∧ (n.room k).haltAt = none ∧ RoomStopped s n k := by
  have run : exec (.haltAtCueBoundary k) s = .next (((s.modRoom k fun x => { x with haltAt := none }).disarmCues k).haltTiles k) := by
    show execHaltAtCueBoundary k s = _
    unfold execHaltAtCueBoundary
    rw [if_pos h]
  have room := State.room_modRoom s k (fun x => { x with haltAt := none })
  refine ⟨_, run, ?_⟩
  generalize hu : s.modRoom k (fun x => { x with haltAt := none }) = u at room
  obtain ⟨cues, -⟩ := u.disarmCues_disarms k
  obtain ⟨halts, -⟩ := (u.disarmCues k).haltTiles_halts k
  obtain ⟨stopped, off⟩ := u.disarmCues_haltTiles_stops k
  have form : (u.room k).form = (s.room k).form := by rw [room]
  rw [State.roomTiles_of_form form] at stopped
  rw [State.roomCues_of_form form] at off
  refine ⟨?_, stopped, off⟩
  rw [State.room_of_rooms (halts.rooms.trans cues.rooms), room]

/-! ### A function-level reset of the physical function -/

theorem functionLevelReset_physical (s : State) : ∃ n, exec (.functionLevelReset 0) s = .next n ∧ n.pcie = { s.pcie with vfEnable := false, numVfs := 0 } ∧ (n.fn 0).hostErr = 0 ∧ (n.fn 0).hostEvt = 0 ∧
    (n.fn 0).msix = [] ∧ (n.fn 0).mbx = {} ∧ n.rooms = s.rooms := by
  have vfs := State.disableVfs_only { s with pcie := { s.pcie with vfEnable := false, numVfs := 0 } } 1 s.pcie.vfs
  have run : exec (.functionLevelReset 0) s = .next ((State.disableVfs { s with pcie := { s.pcie with vfEnable := false, numVfs := 0 } } 1 s.pcie.vfs).resetHostSide 0 true) := rfl
  generalize State.disableVfs { s with pcie := { s.pcie with vfEnable := false, numVfs := 0 } } 1 s.pcie.vfs = u at vfs run
  obtain ⟨host, fn, -⟩ := u.resetHostSide_resets 0 true
  refine ⟨_, run, (congrArg State.pcie (vfs.trans host) :), ?_, ?_, ?_, ?_, (congrArg State.rooms (vfs.trans host) :)⟩ <;> rw [fn] <;> rfl

end Sys2Proof.Machine
end

section
/-! SUPPORT. A channel that is given up ends, and its end touches no other channel and holds up no reset (R301, R383). -/

namespace Sys2Proof.Machine

variable {s t n : State} {c d : ChanRef}

/-- From `s` to `n` nothing changes on which the reset of a room that waits for its channels turns, but for channel `c`: what rooms own and whether they are resetting, the other channels, which quires run, and the command in progress. -/
structure Spares (c : ChanRef) (s n : State) : Prop where
  room : ∀ r, (n.room r).form = (s.room r).form ∧ (n.room r).resetting = (s.room r).resetting
  chan : ∀ d, d ≠ c → n.chan d = s.chan d
  power : ∀ q, (n.quire q).power = (s.quire q).power
  current : n.led.current = s.led.current

theorem Spares.refl (c : ChanRef) (s : State) : Spares c s s := ⟨fun _ => ⟨rfl, rfl⟩, fun _ _ => rfl, fun _ => rfl, rfl⟩
theorem Spares.trans (h : Spares c s t) (k : Spares c t n) : Spares c s n :=
  ⟨fun r => ⟨(k.room r).1.trans (h.room r).1, (k.room r).2.trans (h.room r).2⟩, fun d hd => (k.chan d hd).trans (h.chan d hd), fun q => (k.power q).trans (h.power q), k.current.trans h.current⟩

/-- What changes nothing of rooms, channels, quires and the Ledger. -/
theorem Spares.of_same (hr : n.rooms = s.rooms) (hs : n.sdma = s.sdma) (hq : n.quires = s.quires) (hl : n.led.current = s.led.current) : Spares c s n := by
  have quire : ∀ q, n.quire q = s.quire q := fun q => by unfold State.quire; rw [hq]
  refine ⟨fun r => by rw [State.room_of_rooms hr]; exact ⟨rfl, rfl⟩, fun d _ => ?_, fun q => by rw [quire], hl⟩
  cases d with
  | sys i => show Tbl.get {} n.sdma i = _; rw [hs]; rfl
  | tile q m => show Tbl.get {} (n.quire q).chan m = _; rw [quire]; rfl
theorem Spares.of_irq (h : ∃ i, n = { s with irq := i }) : Spares c s n := by obtain ⟨i, rfl⟩ := h; exact .of_same rfl rfl rfl rfl
theorem Spares.answering (h : Answering s n) : Spares c s n := .of_same (congrArg State.rooms h.only :) (congrArg State.sdma h.only :) (congrArg State.quires h.only :) h.current

/-! ### Rooms, quires and channels -/

theorem Spares.setRoom {r : Nat} {x : Room} (hf : x.form = (s.room r).form) (hr : x.resetting = (s.room r).resetting) : Spares c s (s.setRoom r x) := by
  refine ⟨fun k => ?_, fun d _ => by cases d <;> rfl, fun _ => rfl, rfl⟩
  by_cases hk : k = r
  · subst hk; rw [State.room_setRoom]; exact ⟨hf, hr⟩
  · rw [State.room_setRoom_ne _ _ hk]; exact ⟨rfl, rfl⟩
theorem Spares.modQuire (q : Nat) (f : Quire → Quire) (hc : ∀ x, (f x).chan = x.chan) (hp : ∀ x, (f x).power = x.power) : Spares c s (s.modQuire q f) := by
  have quire : ∀ k, ((s.modQuire q f).quire k).chan = (s.quire k).chan ∧ ((s.modQuire q f).quire k).power = (s.quire k).power := fun k => by
    by_cases hk : k = q
    · subst hk; rw [State.quire_modQuire]; exact ⟨hc _, hp _⟩
    · rw [State.quire_modQuire_ne _ _ hk]; exact ⟨rfl, rfl⟩
  refine ⟨fun _ => ⟨rfl, rfl⟩, fun d _ => ?_, fun k => (quire k).2, rfl⟩
  cases d with
  | sys i => rfl
  | tile k m => exact congrArg (fun l => Tbl.get {} l m) (quire k).1
theorem Spares.modChan (f : Chan → Chan) : Spares c s (s.modChan c f) := by
  have only := ChansOnly.setChan s c (f (s.chan c))
  exact ⟨fun r => by rw [State.modChan, State.room_of_rooms only.rooms]; exact ⟨rfl, rfl⟩, fun d hd => State.chan_modChan_ne s f hd, fun q => (congrArg Quire.power (only.1 q) :), congrArg Ledger.current only.led⟩
theorem Spares.modChanEvt (f : Chan → Chan) : Spares c s (s.modChanEvt c f) := (Spares.modChan f).trans (.of_irq (State.srcRose_eq _ _ _))
theorem Spares.modRoom (r : Nat) (f : Room → Room) (hf : ∀ x, (f x).form = x.form ∧ (f x).resetting = x.resetting) : Spares c s (s.modRoom r f) := .setRoom (hf _).1 (hf _).2
theorem Spares.raiseRoom (r : Nat) (m : W32) : Spares c s (s.raiseRoom r m) :=
  (Spares.modRoom r (fun x => { x with evt := x.evt ||| m }) fun _ => ⟨rfl, rfl⟩).trans (.of_irq (s.raiseRoom_eq r m))
theorem Spares.raiseTally (r : Nat) (m : W32) : Spares c s (s.raiseTally r m) :=
  (Spares.modRoom r (fun x => { x with tallyEvt := x.tallyEvt ||| m }) fun _ => ⟨rfl, rfl⟩).trans (.of_irq (s.raiseTally_eq r m))
theorem Spares.cues (h : CuesOnly s n) : Spares c s n :=
  ⟨fun r => by rw [State.room_of_rooms h.rooms]; exact ⟨rfl, rfl⟩, fun d _ => h.chan d, fun q => (congrArg Quire.power (h.1 q) :), congrArg Ledger.current h.led⟩
theorem Spares.halts (h : TilesHaltOnly s n) : Spares c s n := .of_same h.rooms h.sdma h.quires (congrArg Ledger.current h.led)

/-! ### Memory -/

theorem Spares.reb (s : State) (x : Rebind) : Spares c s { s with reb := x } := .of_same rfl rfl rfl rfl

theorem State.memLog_spares (s : State) (q : Nat) (v : W64) (m : W32) : Spares c s (s.memLog q v m) := by
  have err : Spares c s (s.modQuire q fun x => { x with memErr := v }) := Spares.modQuire q _ (fun _ => rfl) fun _ => rfl
  have log : ∀ u : State, Spares c u (u.errLogAdd (BitVec.ofNat 8 q) v) := fun u => .reb u _
  have evt : ∀ u : State, Spares c u (u.raiseMem q m) := fun u =>
    (Spares.modQuire q (fun x => { x with memEvt := x.memEvt ||| m }) (fun _ => rfl) fun _ => rfl).trans (.of_irq (State.srcRose_eq u _ _))
  exact err.trans ((log _).trans (evt _))

theorem State.markRow_spares (s : State) (k b row cause gran : Nat) (y : Byte) : Spares c s (s.markRow k b row cause gran y) := by
  unfold State.markRow
  dsimp only
  split
  · exact .refl c s
  · exact Spares.trans ((Spares.reb s _).trans (State.memLog_spares _ _ _ _)) (.answering (Answering.event _ _ _))

theorem State.scratchError_spares (s : State) (k off : Nat) (y : Byte) (ue : Bool) : Spares c s (s.scratchError k off y ue) := by
  unfold State.scratchError
  dsimp only
  have log := fun v m => State.memLog_spares (c := c) s (tileQuire k) v m
  split
  · exact ((log _ _).trans (Spares.reb _ _)).trans (State.markRow_spares _ _ _ _ _ _ _)
  · split
    · exact ((log _ _).trans (Spares.reb _ _)).trans (State.markRow_spares _ _ _ _ _ _ _)
    · exact (log _ _).trans (Spares.reb _ _)

theorem State.qscratchError_spares (s : State) (q off : Nat) (y : Byte) (ue : Bool) : Spares c s (s.qscratchError q off y ue) := by
  unfold State.qscratchError
  dsimp only
  have log := fun v m => State.memLog_spares (c := c) s q v m
  split <;> exact (log _ _).trans (Spares.reb _ _)

theorem State.memError_spares (s : State) (a : Nat) (y : Byte) (ue : Bool) : Spares c s (s.memError a y ue) := by
  unfold State.memError
  split
  · exact State.scratchError_spares s _ _ y ue
  · exact State.qscratchError_spares s _ _ y ue
  · split <;> exact .reb s _

theorem State.putBytes_spares (s : State) (a : Nat) (l : List Byte) : Spares c s (s.putBytes a l) := by
  rw [State.putBytes_eq]
  exact .of_same rfl rfl rfl rfl

theorem State.readGran_spares (s : State) (g : Nat) : Spares c s (s.readGran g).2 := by
  have put : ∀ l, Spares c s ((s.putBytes (8 * g) l).setSynd g 0) := fun l => (State.putBytes_spares s _ l).trans (.of_same rfl rfl rfl rfl)
  have sound : Spares c s (s.setSynd g 0) := .of_same rfl rfl rfl rfl
  unfold State.readGran
  dsimp only
  split
  · exact .refl c s
  · exact sound.trans (State.memError_spares _ _ _ _)
  · exact (put _).trans (State.memError_spares _ _ _ _)
  · exact State.memError_spares s _ _ _

theorem State.writeGran_spares (s : State) (g o : Nat) (l : List Byte) : Spares c s (s.writeGran g o l).2 := by
  have read := State.readGran_spares (c := c) s g
  have put : ∀ (u : State) a, Spares c u ((u.putBytes a l).setSynd g 0) := fun u a => (State.putBytes_spares u a l).trans (.of_same rfl rfl rfl rfl)
  unfold State.writeGran
  split
  · exact put s _
  · split
    · rename_i e; rw [e] at read; exact read
    · rename_i e; rw [e] at read; exact read.trans (put _ _)

theorem State.writeMem_spares (s : State) (a : Nat) (l : List Byte) : Spares c s (s.writeMem a l).2 :=
  foldl_keeps (fun u : Bool × State => Spares c s u.2) (fun u p h => h.trans (State.writeGran_spares u.2 p.1 p.2.1 p.2.2)) _ (true, s) (.refl c s)

/-! ### Faults and their messages -/

theorem State.enqueue_spares (s : State) (p : Nat) (k : Packet) : Spares c s (s.enqueue p k) := by
  have wire : ∀ (u : State) q f, Spares c u (u.wireFlit q f) := fun u q f => by
    unfold State.wireFlit
    dsimp only
    split <;> exact .of_same rfl rfl rfl rfl
  have wires : ∀ (l : List ReplayFlit) (u : State), Spares c u (forL l (fun f v => v.wireFlit p f) u) := fun l u =>
    foldl_keeps (Spares c u) (fun v f h => h.trans (wire v p f)) l u (.refl c u)
  have put : ∀ (u : State) x, Spares c u (u.setPort p x) := fun _ _ => .of_same rfl rfl rfl rfl
  have flits : ∀ (u : State) ks, Spares c u (u.sendFlits p ks) := fun u ks => by
    unfold State.sendFlits
    dsimp only
    exact (put _ _).trans (wires _ _)
  have queue : Spares c s (s.modPort p fun x => { x with txq := x.txq ++ [k] }) := .of_same rfl rfl rfl rfl
  unfold State.enqueue State.pump
  dsimp only
  refine queue.trans ?_
  split
  · exact .refl c _
  · rename_i ks x _ _
    exact (put _ x).trans (flits _ ks)

theorem State.launch_spares (s : State) (k : Packet) (p : Nat) (tree : Bool) : Spares c s (s.launch k p tree).2 := by
  unfold State.launch
  split
  · exact .of_same rfl rfl rfl rfl
  · split
    · exact .refl c s
    · exact State.enqueue_spares s _ _

theorem State.postCtrl_spares (s : State) (r : Nat) (dst : BitVec 16) (ty : Nat) (body : List Byte) : Spares c s (s.postCtrl r dst ty body).2 := by
  have origin : ∀ k, Spares c s (s.originate r 0 k).2 := fun k => by
    have hand := Spares.answering (c := c) (Answering.handover s 5 r 0 0)
    unfold State.originate State.originateAt
    split
    · rename_i e; rw [e] at hand; exact hand
    · rename_i e; rw [e] at hand; exact hand.trans (State.launch_spares _ _ _ _)
  have sent := origin (ctrlPacket (BitVec.ofNat 16 s.devNo) dst ty body)
  unfold State.postCtrl
  split <;> rename_i e <;> rw [e] at sent <;> exact sent

theorem State.laterFault_spares (s : State) (r : Nat) : Spares c s (s.laterFault r) := by
  rw [State.laterFault_eq]
  split
  · exact .modRoom r _ fun _ => ⟨rfl, rfl⟩
  · exact .refl c s

theorem State.tellFault_spares (s : State) (r : Nat) (dst : BitVec 16) (ty : Nat) (body : List Byte) : Spares c s (s.tellFault r dst ty body) := by
  have post := State.postCtrl_spares (c := c) s r dst ty body
  unfold State.tellFault
  split <;> rename_i e <;> rw [e] at post
  · exact post
  · exact post.trans (State.laterFault_spares _ r)

theorem State.homeNotice_spares (s : State) (job : W32) (origin : BitVec 16) (cause : Nat) : Spares c s (s.homeNotice job origin cause) := by
  unfold State.homeNotice
  dsimp only
  refine foldl_keeps (Spares c s) (fun u d h => h.trans (State.tellFault_spares u _ _ _ _)) _ _ ?_
  split
  · exact .refl c s
  · exact .of_same rfl rfl rfl rfl

theorem State.faultRecorded_spares (s : State) (r : Nat) (i : FaultInfo) : Spares c s (s.faultRecorded r i) := by
  have set : Spares c s (s.setRoom r { s.room r with state := .faulted, flt := firstFault s i }) := .setRoom rfl rfl
  have event := fun (u : State) b => Spares.answering (c := c) (Answering.event u 3 b)
  have frozen : ∀ u : State, Spares c u (u.modRoom r fun x => { x with frozen := true }) := fun u => .modRoom r _ fun _ => ⟨rfl, rfl⟩
  exact set.trans ((event _ _).trans ((frozen _).trans (.raiseTally r 2)))

theorem State.faultTold_spares (s : State) (r : Nat) (f : FormRec) (dev : BitVec 16) (a : Nat) : Spares c s (s.faultTold r f dev a) := by
  unfold State.faultTold
  split
  · exact .refl c s
  · split
    · exact State.homeNotice_spares s _ _ _
    · exact State.tellFault_spares s _ _ _ _

theorem State.faultStops_spares (s : State) (r a : Nat) : Spares c s (s.faultStops r a) := by
  unfold State.faultStops
  split
  · exact .modRoom r _ fun _ => ⟨rfl, rfl⟩
  · exact (Spares.cues (s.disarmCues_disarms r).1).trans (.halts ((s.disarmCues r).haltTiles_halts r).1)

theorem State.roomFault_spares (s : State) (r : Nat) (i : FaultInfo) : Spares c s (s.roomFault r i) := by
  obtain ⟨f, -, run⟩ | ⟨-, run⟩ | ⟨-, run⟩ := s.roomFault_cases r i
  · rw [run]
    exact (State.faultRecorded_spares s r i).trans ((State.faultTold_spares _ r f _ _).trans ((State.faultStops_spares _ r _).trans (.raiseRoom r 2)))
  · rw [run]
    exact State.laterFault_spares s r
  · rw [run]
    exact .refl c s

theorem State.policyFault_spares (s : State) (r cause detail : Nat) : Spares c s (s.policyFault r cause detail) := by
  unfold State.policyFault
  split
  · exact .refl c s
  · split
    · exact State.roomFault_spares s r _
    · have reported : Spares c s (s.modRoom r fun x => { x with reported := x.reported + 1 }) := .modRoom r _ fun _ => ⟨rfl, rfl⟩
      exact reported.trans (.raiseRoom r 4)

/-! ### The end of a descriptor -/

theorem State.putStatus_spares (s : State) (st code off : Nat) : Spares c s (s.putStatus c st code off).2 := State.writeMem_spares s _ _

theorem State.badDesc_spares (s : State) (r code point : Nat) : Spares c s (s.badDesc c r code point) := by
  have counted : Spares c s ({ s with dev := { s.dev with dmaBad := s.dev.dmaBad + 1 } } : State) := .of_same rfl rfl rfl rfl
  unfold State.badDesc
  dsimp only
  split
  · exact counted.trans ((Spares.modChanEvt _).trans (State.policyFault_spares _ _ _ _))
  · exact counted.trans ((Spares.modChanEvt _).trans (State.policyFault_spares _ _ _ _))

theorem State.descEnd_spares (s : State) (r : Nat) (d : Desc) (done : Bool) : Spares c s (s.descEnd c r d done) := by
  have advanced : Spares c s (if (done && d.aen) = true then s.issueAdvance r d.at'.toNat d.amt.toNat (if isSys c then 2 else 1) else s) := by
    split
    · exact .of_same rfl rfl rfl rfl
    · exact .refl c s
  unfold State.descEnd
  dsimp only
  split
  · exact advanced.trans (.modChanEvt _)
  · exact advanced

theorem State.finishDesc_spares (s : State) (r : Nat) (d : Desc) : Spares c s (s.finishDesc c r d).2 := by
  unfold State.finishDesc
  dsimp only
  split
  · rename_i code _
    have put := State.putStatus_spares (c := c) s 2 code.toNat (writtenPrefix (s.chan c))
    split <;> rename_i e <;> rw [e] at put
    · exact put.trans ((State.badDesc_spares _ _ _ _).trans (State.descEnd_spares _ _ _ _))
    · exact put
  · have put := State.putStatus_spares (c := c) s 1 0 (moveLen d)
    split <;> rename_i e <;> rw [e] at put
    · exact put.trans (State.descEnd_spares _ _ _ _)
    · exact put

theorem State.abortDesc_spares (s : State) (r : Nat) (d : Desc) : Spares c s (s.abortDesc c r d).2 := by
  unfold State.abortDesc
  dsimp only
  split
  · exact State.finishDesc_spares s r d
  · split
    · exact (Spares.modChan _).trans (State.finishDesc_spares _ r d)
    · have last : ∀ u : State, Spares c u (u.modChan c fun x => { x with code := 32 }) := fun _ => .modChan _
      exact (State.putStatus_spares s _ _ _).trans (last _)

theorem State.chan_modChanEvt (s : State) (c : ChanRef) (f : Chan → Chan) : (s.modChanEvt c f).chan c = f (s.chan c) := by
  obtain ⟨i, h⟩ := State.srcRose_eq s (s.modChan c f) (chanSource c)
  have chan := State.chan_modChan s c f
  unfold State.modChanEvt
  rw [h]
  generalize s.modChan c f = u at chan
  exact Eq.trans (by cases c <;> rfl) chan

/-- The channel as its abort leaves it. -/
def endedChan (x : Chan) : Chan := { x with state := .idle, desc := none, reqs := [], buf := [], abortedEvt := true }

/-- An aborting channel that ends is idle, and spares the rest. -/
theorem State.abortEnd_ends (s : State) (c : ChanRef) (r : Nat) : Spares c s (s.abortEnd c r) ∧ chanIdle ((s.abortEnd c r).chan c) = true := by
  have closed : ∀ u : State, Spares c u (u.modChanEvt c endedChan) ∧ chanIdle ((u.modChanEvt c endedChan).chan c) = true := fun u => ⟨.modChanEvt _, by rw [State.chan_modChanEvt]; rfl⟩
  unfold State.abortEnd
  dsimp only
  split
  · exact ⟨(State.abortDesc_spares s r _).trans (closed _).1, (closed _).2⟩
  · exact ⟨(Spares.modChan _).trans (closed _).1, (closed _).2⟩

/-! ### A channel is given up (R383) -/

theorem State.statusAsleep_congr (hd : (n.chan c).desc = (s.chan c).desc) (ha : (n.chan c).curDesc = (s.chan c).curDesc) (hp : ∀ q, (n.quire q).power = (s.quire q).power) : n.statusAsleep c = s.statusAsleep c := by
  have on : n.quireOn = s.quireOn := funext fun q => by unfold State.quireOn; rw [hp]
  unfold State.statusAsleep
  dsimp only
  rw [hd, ha, on]

/-- A channel that a reset finds idle, or that can end now. -/
def CanEnd (s : State) (c : ChanRef) : Prop := chanIdle (s.chan c) = true ∨ ((s.chan c).state = .aborting ∧ s.statusAsleep c = [])

/-- The channel once its requests count as timed out. -/
def timedOut (y : Chan) : Chan := { y with gone := y.gone ++ (y.reqs.filter fun q => !q.lost).map (fun q => q.tag), failed := y.failed ++ y.reqs.map (fun q => (q.off, q.len)), reqs := [] }

theorem State.giveUp_idle {r : Nat} (h : chanIdle (s.chan c) = true) : s.giveUp r c = s := by
  refine if_neg fun ha => ?_
  simp [chanIdle, ha] at h

theorem State.giveUp_aborting {r : Nat} (ha : (s.chan c).state = .aborting) (hw : s.statusAsleep c = []) : s.giveUp r c = (s.modChan c timedOut).abortEnd c r := by
  have spared := Spares.modChan (s := s) (c := c) timedOut
  have awake : (s.modChan c timedOut).statusAsleep c = [] := (State.statusAsleep_congr (by rw [State.chan_modChan]; rfl) (by rw [State.chan_modChan]; rfl) spared.power).trans hw
  have run : s.giveUp r c = if ((s.modChan c timedOut).statusAsleep c).isEmpty then (s.modChan c timedOut).abortEnd c r else (s.modChan c timedOut).wakeForStatus c := if_pos ha
  rw [run, awake]
  rfl

/-- A channel that can end, once given up, is idle, and the rest is spared. -/
theorem State.giveUp_ends (r : Nat) (h : CanEnd s c) : Spares c s (s.giveUp r c) ∧ chanIdle ((s.giveUp r c).chan c) = true := by
  obtain h | ⟨ha, hw⟩ := h
  · rw [State.giveUp_idle h]
    exact ⟨.refl c s, h⟩
  · rw [State.giveUp_aborting ha hw]
    obtain ⟨ends, idle⟩ := (s.modChan c timedOut).abortEnd_ends c r
    exact ⟨(Spares.modChan _).trans ends, idle⟩

theorem Spares.canEnd (h : Spares c s n) (hi : chanIdle (n.chan c) = true) (hd : CanEnd s d) : CanEnd n d := by
  by_cases e : d = c
  · subst e; exact .inl hi
  · unfold CanEnd
    rw [State.statusAsleep_congr (by rw [h.chan d e]) (by rw [h.chan d e]) h.power, h.chan d e]
    exact hd
theorem Spares.idle (h : Spares c s n) (hi : chanIdle (n.chan c) = true) (hd : chanIdle (s.chan d) = true) : chanIdle (n.chan d) = true := by
  by_cases e : d = c
  · subst e; exact hi
  · rw [h.chan d e, hd]

end Sys2Proof.Machine
end

section
/-! ROOMS. The wait of a function-level reset expires (R383). -/

namespace Sys2Proof.Machine

variable {s : State} {k : RoomId}

/-- Giving up every channel of a list that can end leaves all of them idle. -/
theorem giveUpAll_ends (l : List ChanRef) (r : Nat) (s : State) (h : ∀ c ∈ l, CanEnd s c) :
    let u := forL l (fun c v => v.giveUp r c) s
    (∀ j, (u.room j).form = (s.room j).form ∧ (u.room j).resetting = (s.room j).resetting) ∧ u.led.current = s.led.current ∧ ∀ c ∈ l, chanIdle (u.chan c) = true := by
  obtain ⟨⟨rooms, current, -⟩, -, idle⟩ := forL_each
    (I := fun u : State => (∀ j, (u.room j).form = (s.room j).form ∧ (u.room j).resetting = (s.room j).resetting) ∧ u.led.current = s.led.current ∧ ∀ c ∈ l, CanEnd u c)
    (Q := fun c u => chanIdle (u.chan c) = true) (f := fun c v => State.giveUp v r c) l
    (fun c hc u hu => by
      obtain ⟨rooms, current, ready⟩ := hu
      obtain ⟨spared, idle⟩ := State.giveUp_ends r (ready c hc)
      exact ⟨fun j => ⟨(spared.room j).1.trans (rooms j).1, (spared.room j).2.trans (rooms j).2⟩, spared.current.trans current, fun d hd => spared.canEnd idle (ready d hd)⟩)
    (fun c d hd u hu hi => by
      obtain ⟨-, -, ready⟩ := hu
      obtain ⟨spared, idle⟩ := State.giveUp_ends r (ready d hd)
      exact spared.idle idle hi)
    (fun c hc u hu => by
      obtain ⟨-, -, ready⟩ := hu
      exact (State.giveUp_ends r (ready c hc)).2) s ⟨fun _ => ⟨rfl, rfl⟩, rfl, h⟩
  exact ⟨rooms, current, idle⟩

/-- A bit that has been set is set. -/
theorem or_and_right_self (x y : W32) : (x ||| y) &&& y = y := by
  ext i hi
  rw [BitVec.getElem_and, BitVec.getElem_or]
  cases y[i] <;> simp

theorem State.resetPoll_quiet {u : State} {r : Nat} (h : u.led.current = none) : u.resetPoll r = u := by
  unfold State.resetPoll State.currentRec
  rw [h]

theorem flrWaitExpiry_ends (hf : (s.room k).flr = true) (hr : (s.room k).resetting = true) (hn : s.led.current = none) (hc : ∀ c ∈ s.roomChans k, chanIdle (s.chan c) = true ∨ (s.chan c).state = .aborting)
    (hw : ∀ c ∈ s.roomChans k, s.statusAsleep c = []) :
    ∃ n, exec (.flrWaitExpiry k) s = .next n ∧ (n.room k).resetting = false ∧ (n.room k).flr = false ∧ (n.room k).evt &&& 16 = 16 ∧ ∀ c ∈ s.roomChans k, chanIdle (n.chan c) = true := by
  have run : exec (.flrWaitExpiry k) s = .next (settle s (((forL (s.roomChans k) (fun c v => v.giveUp k c) s).settleReset k).resetPoll k)) := by
    show execFlrWaitExpiry k s = _
    unfold execFlrWaitExpiry
    rw [if_pos hf]
  obtain ⟨rooms, current, idle⟩ := giveUpAll_ends (s.roomChans k) k s fun c hm => (hc c hm).imp_right fun ha => ⟨ha, hw c hm⟩
  generalize forL (s.roomChans k) (fun c v => v.giveUp k c) s = u at rooms current idle run
  have ready : u.resetReady k = true := by
    unfold State.resetReady
    rw [State.roomChans_of_form (rooms k).1, (rooms k).2, hr, Bool.true_and, List.all_eq_true]
    exact idle
  obtain ⟨ends, -, done⟩ := u.endReset_ends k
  rw [State.settleReset, if_pos ready, State.resetPoll_quiet (by rw [ends.led, current, hn])] at run
  generalize u.endReset k = v at ends done run
  obtain ⟨i, settled⟩ := settle_eq s v
  rw [settled] at run
  have room : State.room { v with irq := i } k = doneRoom (u.room k) := done
  refine ⟨_, run, by rw [room]; rfl, by rw [room]; rfl, ?_, fun c hm => ?_⟩
  · rw [room]
    exact or_and_right_self (u.room k).evt 16
  · rw [show State.chan { v with irq := i } c = v.chan c by cases c <;> rfl, ends.chan, idle c hm]

/-- Settles O30: a reset stops the room's units one by one and ends once its channels are idle, a first fault is recorded and stops the room, and a channel given up ends without touching another. -/
theorem roomsResetAndFault : Obligations.RoomsResetAndFault := by
  unfold Obligations.RoomsResetAndFault
  intro s k r detail f hf
  refine ⟨fun hr h0 hc => ⟨?_, ?_, ?_⟩, fun hr h0 c hm hc => ⟨?_, ?_⟩, ?_, fun hs h0 => ⟨?_, ?_⟩, ?_, ?_, ?_⟩
  · exact roomReset_reg_ends hf hr h0 hc
  · exact functionLevelReset_ends hf hr h0 hc
  · exact roomReset_cmd_ends hf hr h0 hc
  · exact roomReset_reg_waits hf hr h0 hm hc
  · exact roomReset_cmd_waits hf hr h0 hm hc
  · exact fun h1 h2 hn hc hw => flrWaitExpiry_ends h1 h2 hn hc hw
  · exact roomDeclareFault_reg_faults hf hs h0 detail
  · exact roomDeclareFault_cmd_faults hf hs h0
  · exact fun hs h1 => roomDeclareFault_counts hs h1 detail
  · exact haltAtCueBoundary_stops
  · exact functionLevelReset_physical s

end Sys2Proof.Machine
end

section
/-! Waits of a tile core: signals, positions and tallies (R105 to R107, R152 to R154). -/

namespace Sys2Proof.Machine

variable {s u v w : State} {t : TileId} {i : Instr} {words : Nat} {body : State → Mem (Option W32)}

/-! ### Shapes of an instruction that waits or faults -/

/-- An instruction whose body leaves the core waiting, in a state that differs from `v` in the tile alone. -/
theorem waits_body {n : State} {x : Tile} (h : Fetches s t words u) (hi : exec i s = .next (s.runInstr t words body)) (hb : body u = .ok none n) (hn : OnlyTile v n t x) :
    ∃ n, exec i s = .next n ∧ OnlyTile v n t x := ⟨n, by rw [hi, runInstr_waits h hb], hn⟩

/-- An instruction whose body faults from state `v`. -/
theorem exec_faults_body {c a : Nat} (h : Fetches s t words u) (hi : exec i s = .next (s.runInstr t words body)) (hb : body u = .fault c a v) :
    exec i s = .next (v.takeSync t c a) := by rw [hi, runInstr_faults h hb]

/-- An instruction whose body leaves the state `v` and then changes registers. -/
theorem retires_finish {f : Tile → Tile} {x : Tile} (h : Fetches s t words u) (hi : exec i s = .next (s.runInstr t words body)) (hb : body u = v.finish t words f) (hx : f (v.tile t) = x) :
    Retires s v t i words x := retires_body h hi hb (hx ▸ OnlyTile.modTile v t f)

/-- A running core waits in the instruction at PC. -/
theorem State.holdIn_running (h : (v.tile t).run = .running) (r : Run) : ∃ n, v.holdIn t r = .ok none n ∧ OnlyTile v n t { v.tile t with run := r } := by
  refine ⟨_, rfl, ?_⟩
  have moved := OnlyTile.modTile v t fun z => if z.run = .running then { z with run := r } else z
  rwa [if_pos h] at moved

/-! ### Signals (R152) -/

theorem swS_setD (x : Tile) (d : Nat) (a : W16) : swS (setD x d a).sw = swS x.sw := by unfold setD; split <;> rfl
theorem pc_setD (x : Tile) (d : Nat) (a : W16) : (setD x d a).pc = x.pc := by unfold setD; split <;> rfl

/-- A signal to a running tile adds 1 to its count. -/
theorem signalTile_running {x : Tile} (hr : x.run = .running) (hs : x.sig ≠ 255) : signalTile x = { x with sig := x.sig + 1 } := by
  unfold signalTile addSignal wakeSignals
  rw [if_neg hs, hr]

/-- A signal to a tile that waits in WAITS ends the wait. -/
theorem signalTile_waiting {x : Tile} {d : Dn} (hr : x.run = .waitS d) (hs : x.sig = 0) :
    signalTile x = retireAt { setD { x with sig := 0 } d 1 with run := .running } (swS x.sw) (x.pc + 1) := by
  have count : addSignal x = { x with sig := 1 } := by
    unfold addSignal
    rw [hs, if_neg (by decide)]
    rfl
  have taken : takeSignals { x with sig := 1 } d = setD { x with sig := 0 } d 1 := rfl
  have wakes : wakeSignals { x with sig := 1 } = endWait (takeSignals { x with sig := 1 } d) := by
    unfold wakeSignals
    rw [hr]
    exact if_neg (show (1 : BitVec 8) ≠ 0 by decide)
  unfold signalTile
  rw [count, wakes, taken]
  exact congrArg₂ (retireAt _) (swS_setD _ _ _) (congrArg (· + 1) (pc_setD _ _ _))

/-- A change of a tile changes the tiles alone. -/
theorem State.modTile_rest (v : State) (k : Nat) (f : Tile → Tile) (l : Tbl Tile) : { v.modTile k f with tiles := l } = { v with tiles := l } := rfl

/-- What SIG leaves of the part once the buffers have drained. -/
def State.signalled (v : State) (t k : Nat) (sup : Bool) : State :=
  ((v.modTile k signalTile).modTile t id).modTile t fun z => retireAt z sup ((v.tile t).pc + 1)

section
variable {k : Nat} (hk : k ≠ t.val)
include hk

theorem State.signalled_own (sup : Bool) : (v.signalled t k sup).tile t = retireAt (v.tile t) sup ((v.tile t).pc + 1) := by
  unfold State.signalled
  rw [State.tile_modTile, State.tile_modTile, State.tile_modTile_ne _ _ hk.symm]
  rfl

theorem State.signalled_target (sup : Bool) : (v.signalled t k sup).tile k = signalTile (v.tile k) := by
  unfold State.signalled
  rw [State.tile_modTile_ne _ _ hk, State.tile_modTile_ne _ _ hk, State.tile_modTile]

omit hk in
theorem State.signalled_other (sup : Bool) {j : Nat} (hj : j ≠ k) (ht : j ≠ t.val) : (v.signalled t k sup).tile j = v.tile j := by
  unfold State.signalled
  rw [State.tile_modTile_ne _ _ ht, State.tile_modTile_ne _ _ ht, State.tile_modTile_ne _ _ hj]

omit hk in
theorem State.signalled_rest (sup : Bool) : { v.signalled t k sup with tiles := v.tiles } = v :=
  (State.modTile_rest ((v.modTile k signalTile).modTile t id) t _ v.tiles).trans ((State.modTile_rest (v.modTile k signalTile) t id v.tiles).trans (State.modTile_rest v k signalTile v.tiles))

/-- SIG to another tile of the room signals it and goes on. -/
theorem exec_sig_signals {x : Dn} (h : Fetches s t 1 u) (hn : (getD (u.tile t) x).toNat = k) (hl : k < 1280) (hr : u.tileRoom k = u.tileRoom t) (hd : u.drainFull t = (true, v)) :
    exec (.sig t x) s = .next (v.signalled t k (swS (s.tile t).sw)) := by
  show Host.Outcome.next (s.runInstr t 1 _) = _
  refine congrArg _ ((runInstr_retires (v := (v.modTile k signalTile).modTile t id) (pc := (v.tile t).pc + 1) h ?_).trans rfl)
  dsimp only
  rw [hn, if_neg (by simp [hr, hl]), hd]
  dsimp only [State.finish, pcNext]
  rw [State.tile_modTile_ne _ _ hk.symm]
  rfl

end

/-- SIG to a tile that does not exist or is of another room raises SIG_TARGET. -/
theorem exec_sig_outside {x : Dn} {k : Nat} (h : Fetches s t 1 u) (hn : (getD (u.tile t) x).toNat = k) (hr : 1280 ≤ k ∨ u.tileRoom k ≠ u.tileRoom t) : Faults s u t (.sig t x) 9 k := by
  refine exec_faults_body h rfl ?_
  dsimp only
  rw [hn, if_pos (by simpa using hr)]

/-- WAITS with a signal count other than 0 takes it. -/
theorem waits_takes {x : Dn} (h : Fetches s t 1 u) (hs : (u.tile t).sig ≠ 0) :
    Retires s u t (.waits t x) 1 (setD { u.tile t with sig := 0 } x ((u.tile t).sig.setWidth 16)) :=
  retires_finish (f := fun z => takeSignals z x) h rfl (if_neg hs) rfl

/-- WAITS with the signal count 0 waits. -/
theorem waits_holds {x : Dn} (h : Fetches s t 1 u) (hs : (u.tile t).sig = 0) (hr : (u.tile t).run = .running) :
    ∃ n, exec (.waits t x) s = .next n ∧ OnlyTile u n t { u.tile t with run := .waitS x } := by
  obtain ⟨n, held, only⟩ := State.holdIn_running hr (.waitS x)
  exact waits_body h rfl ((if_pos hs).trans held) only

/-! ### Positions (R153) -/

section
variable {y : An} {l : List W16} (h : Fetches s t 1 u) (hl : u.load t .other (getA (u.tile t) y).toNat 4 = .ok l v)
include h hl

theorem waitp_reached (hp : posReached v.clk.pos (ofWords64 l) = true) : Retires s v t (.waitp t y) 1 (v.tile t) := by
  refine retires_finish (f := id) h rfl ?_ rfl
  rw [hl]
  exact if_pos hp

theorem waitp_holds (hr : (v.tile t).run = .running) (hp : posReached v.clk.pos (ofWords64 l) = false) :
    ∃ n, exec (.waitp t y) s = .next n ∧ OnlyTile v n t { v.tile t with run := .waitP (ofWords64 l) } := by
  obtain ⟨n, held, only⟩ := State.holdIn_running hr (.waitP (ofWords64 l))
  refine waits_body h rfl ?_ only
  rw [hl]
  exact (if_neg (by simp [hp])).trans held

end

/-- WAITP_WAKE ends the wait once its position is reached. -/
theorem waitpWake_ends {p : Pos} (hr : (s.tile t).run = .waitP p) (hp : posReached s.clk.pos p = true) :
    ∃ n, exec (.waitpWake t) s = .next n ∧ OnlyTile s n t (retireAt { s.tile t with run := .running } (swS (s.tile t).sw) ((s.tile t).pc + 1)) := by
  refine ⟨s.modTile t endWait, ?_, OnlyTile.modTile s t endWait⟩
  show execWaitpWake t s = _
  unfold execWaitpWake
  rw [hr]
  dsimp only
  rw [if_pos hp]

/-! ### Tallies (R106, R107, R154) -/

theorem putBit_z_false (a : W16) : putBit a 1 false = a &&& 0xFFFD := rfl
theorem swS_clearZ (a : W16) : swS (a &&& 0xFFFD) = swS a := by simp [swS]

/-- Registering a wait leaves everything but the tallies alone. -/
theorem State.registerWait_only {b : Bool} {who : Waiter} {k : Nat} {want : W64} (h : v.registerWait who k want = (b, w)) : { w with tal := v.tal } = v := by
  unfold State.registerWait at h
  split at h <;> (cases h; rfl)

theorem State.deadlinePast_iff (s : State) (d : W64) : s.deadlinePast d = true ↔ d ≠ -1 ∧ posReached s.clk.pos d = true := by simp [State.deadlinePast]


section
variable {x : Dn} {y : An} {l : List W16} {k : Nat} {want deadline : W64} (h : Fetches s t 1 u) (hl : u.load t .other (getA (u.tile t) y).toNat 8 = .ok l v)
  (hk : (getD (v.tile t) x).toNat = k) (hw : ofWords64 (l.take 4) = want) (hd : ofWords64 (l.drop 4) = deadline)
include h hl hk

theorem waitt_outside (ho : v.tileOwnsTally t k = false) : exec (.waitt t x y) s = .next (v.takeSync t 7 k) := by
  refine exec_faults_body h rfl ?_
  dsimp only
  rw [hl]
  dsimp only [Mem.andThen]
  rw [hk, ho]
  rfl

include hw

theorem waitt_holds_at_once (ho : v.tileOwnsTally t k = true) (hg : v.registerWait (.tile t) k want = (true, w)) :
    Retires s w t (.waitt t x y) 1 { w.tile t with sw := (w.tile t).sw ||| 2 } := by
  refine retires_finish (f := fun z => { z with sw := putBit z.sw 1 true }) h rfl ?_ rfl
  dsimp only
  rw [hl]
  dsimp only [Mem.andThen]
  rw [hk, ho, hw, hg]
  rfl

include hd

theorem waitt_past_deadline (ho : v.tileOwnsTally t k = true) (hg : v.registerWait (.tile t) k want = (false, w)) (hm : deadline ≠ -1) (hp : posReached v.clk.pos deadline = true) :
    Retires s (w.dropTileWaits t) t (.waitt t x y) 1 { w.tile t with sw := (w.tile t).sw &&& 0xFFFD } := by
  have clk : w.clk = v.clk := (congrArg State.clk (State.registerWait_only hg) :)
  refine retires_finish (f := fun z => { z with sw := putBit z.sw 1 false }) h rfl ?_ rfl
  dsimp only
  rw [hl]
  dsimp only [Mem.andThen]
  rw [hk, ho, hw, hg, hd]
  exact if_pos ((w.deadlinePast_iff deadline).2 ⟨hm, clk ▸ hp⟩)

theorem waitt_waits (hr : (v.tile t).run = .running) (ho : v.tileOwnsTally t k = true) (hg : v.registerWait (.tile t) k want = (false, w)) (hp : deadline = -1 ∨ posReached v.clk.pos deadline = false) :
    ∃ n, exec (.waitt t x y) s = .next n ∧ OnlyTile w n t { w.tile t with run := .waitT k want deadline } := by
  have same := State.registerWait_only hg
  have clk : w.clk = v.clk := (congrArg State.clk same :)
  have running : (w.tile t).run = .running := (congrArg (fun z : State => (z.tile t).run) same :).trans hr
  have ahead : ¬ w.deadlinePast deadline = true := by
    rw [State.deadlinePast_iff, clk]
    rintro ⟨hm, hq⟩
    rcases hp with e | e
    · exact hm e
    · rw [e] at hq; exact absurd hq (by decide)
  obtain ⟨n, held, only⟩ := State.holdIn_running running (.waitT k want deadline)
  refine waits_body h rfl ?_ only
  dsimp only
  rw [hl]
  dsimp only [Mem.andThen]
  rw [hk, ho, hw, hg, hd]
  exact (if_neg ahead).trans ((if_pos running).trans held)

end

/-- WAITT_DEADLINE ends the wait with Z 0 and takes the registered wait away. -/
theorem waittDeadline_ends {k : Nat} {e d : W64} (hr : (s.tile t).run = .waitT k e d) (hm : d ≠ -1) (hp : posReached s.clk.pos d = true) :
    ∃ n, exec (.waittDeadline t) s = .next n ∧ (∀ m ∈ n.tal.waits, m.who ≠ .tile t) ∧
      n.tile t = retireAt { s.tile t with run := .running, sw := (s.tile t).sw &&& 0xFFFD } (swS (s.tile t).sw) ((s.tile t).pc + 1) ∧
      (∀ j, j ≠ t.val → n.tile j = s.tile j) ∧ n.mem = s.mem := by
  refine ⟨(s.dropTileWaits t).modTile t fun z => endWait { z with sw := putBit z.sw 1 false }, ?_, fun m hm => ?_, ?_, fun j hj => State.tile_modTile_ne _ _ hj, rfl⟩
  · show execWaittDeadline t s = _
    unfold execWaittDeadline
    rw [hr]
    dsimp only
    rw [if_pos ((s.deadlinePast_iff d).2 ⟨hm, hp⟩)]
  · have gone : m.who ≠ .tile (Fin.ofNat 1280 t.val) := by simpa using (List.mem_filter.1 hm).2
    rwa [Fin.ofNat_val_eq_self] at gone
  · rw [State.tile_modTile]
    show retireAt { s.tile t with run := .running, sw := putBit (s.tile t).sw 1 false } (swS (putBit (s.tile t).sw 1 false)) _ = _
    rw [putBit_z_false, swS_clearZ]
    rfl

/-- Settles O13: each wait and its wake, by whether its condition holds. -/
theorem waitsEndOnSignalPositionOrTally : Obligations.WaitsEndOnSignalPositionOrTally := by
  unfold Obligations.WaitsEndOnSignalPositionOrTally
  intro s u v w t x y l
  refine ⟨fun h => ⟨waits_takes h, waits_holds h, ⟨?_, ?_, exec_sig_outside h rfl⟩, fun hl hr => ⟨waitp_reached h hl, waitp_holds h hl hr⟩, fun hl hr => ?_⟩,
    fun p => waitpWake_ends, fun k e d => waittDeadline_ends⟩
  · exact fun hl hr hd run hs hk => ⟨_, exec_sig_signals hk h rfl hl hr hd, (State.signalled_target hk _).trans (signalTile_running run hs), State.signalled_own hk _,
      fun j hj ht => State.signalled_other _ hj ht, State.signalled_rest _⟩
  · exact fun hl hr hd hk d run hs => ⟨_, exec_sig_signals hk h rfl hl hr hd, (State.signalled_target hk _).trans (signalTile_waiting run hs)⟩
  · exact ⟨waitt_holds_at_once h hl rfl rfl, waitt_past_deadline h hl rfl rfl rfl, waitt_waits h hl rfl rfl rfl hr, waitt_outside h hl rfl⟩

end Sys2Proof.Machine
end

section
/-! Instructions that wait for the drain of the store buffer, and ICINV (R101, R123, R151, R155, R159, R293). -/

namespace Sys2Proof.Machine

variable {s u v : State} {t : TileId} {x : Dn} {y : An}

/-! ### TADV (R95, R97, R155) -/

/-- The check of an advance from a formed room, by its ranges and its amount. -/
theorem State.advanceCheck_eq {r : Nat} {f : FormRec} (h : (u.room r).form = some f) (k a : Nat) : u.advanceCheck r k a = if formOwns f k = false then 1 else if a = 0 then 2 else 0 := by
  unfold State.advanceCheck
  rw [h]
  simp

theorem State.tallyErrRec_tal (u : State) (r code source k : Nat) : (u.tallyErrRec r code source k).tal = u.tal := by
  unfold State.tallyErrRec State.raiseTally
  rw [State.srcRose_tal]
  rfl

/-- A refused advance is counted. -/
theorem State.refuseAdvance_tal (u : State) (r code source k : Nat) : (u.refuseAdvance r code source k).tal = { u.tal with refused := u.tal.refused + 1 } := by
  unfold State.refuseAdvance
  dsimp only
  split
  · split
    · rw [State.tallyErrRec_tal]
    · rw [State.tallyErrRec_tal, State.tallyErrRec_tal]
  · rw [State.tallyErrRec_tal]

section
variable {b : Src} {k r : Nat} {f : FormRec} (h : Fetches s t (srcWords b) u) (hk : (getD (u.tile t) x).toNat = k) (hr : u.tileRoom t = some r) (hf : (u.room r).form = some f)
include h hk hr hf

/-- TADV of an allowed advance issues it once the buffers have drained. -/
theorem tadv_issues (ho : formOwns f k = true) (ha : srcVal (u.tile t) b ≠ 0) (hd : u.drainFull t = (true, v)) :
    Retires s { v with tal := { v.tal with adv := v.tal.adv ++ [{ tally := k, amount := srcVal (u.tile t) b, room := toRoom r, source := 0 }] } } t (.tadv t x b) (srcWords b) (v.tile t) := by
  have amount : (srcVal (u.tile t) b).toNat ≠ 0 := fun e => ha (BitVec.eq_of_toNat_eq e)
  have issued : v.issueAdvance r k (srcVal (u.tile t) b).toNat 0 =
      { v with tal := { v.tal with adv := v.tal.adv ++ [{ tally := k, amount := srcVal (u.tile t) b, room := toRoom r, source := 0 }] } } := by
    unfold State.issueAdvance
    rw [BitVec.ofNat_toNat, BitVec.setWidth_eq]
    rfl
  rw [← issued]
  refine retires_finish (f := id) h rfl ?_ rfl
  dsimp only
  rw [hk, hr]
  dsimp only
  rw [State.advanceCheck_eq hf, if_neg (by simp [ho]), if_neg amount, hd]
  rfl

/-- TADV outside the room's ranges raises TALLY_RANGE. -/
theorem tadv_outside (ho : formOwns f k = false) : exec (.tadv t x b) s = .next ((u.refuseAdvance r 1 0 k).takeSync t 7 k) := by
  refine exec_faults_body h rfl ?_
  dsimp only
  rw [hk, hr]
  dsimp only
  rw [State.advanceCheck_eq hf, if_pos ho]
  rfl

/-- TADV with amount 0 raises TALLY_AMOUNT. -/
theorem tadv_nothing (ho : formOwns f k = true) (ha : srcVal (u.tile t) b = 0) : exec (.tadv t x b) s = .next ((u.refuseAdvance r 2 0 k).takeSync t 8 k) := by
  refine exec_faults_body h rfl ?_
  dsimp only
  rw [hk, hr]
  dsimp only
  rw [State.advanceCheck_eq hf, if_neg (by simp [ho]), if_pos (by rw [ha]; rfl)]
  rfl

end

/-! ### FENCE and ICINV (R151, R159) -/

theorem fence_drains (h : Fetches s t 1 u) (hd : u.drainFull t = (true, v)) : Retires s v t (.fence t) 1 (v.tile t) := by
  refine retires_finish (f := id) h rfl ?_ rfl
  rw [hd]

theorem icinv_drops (h : Fetches s t 1 u) :
    Retires s u t (.icinv t y) 1 { u.tile t with icLine := (u.tile t).icLine.filter fun e => e.2 ≠ some ((getA (u.tile t) y).toNat / 32) } :=
  retires_reg (f := fun z => { z with icLine := z.icLine.filter fun e => e.2 ≠ some ((getA z y).toNat / 32) }) h rfl

theorem icinvAll_drops (h : Fetches s t 1 u) : Retires s u t (.icinvAll t) 1 { u.tile t with icLine := [] } :=
  retires_reg (f := fun z => { z with icLine := [] }) h rfl

/-! ### DMAGO (R285, R290, R293) -/

/-- The start of an idle tile channel changes the channel alone. -/
theorem State.dmaStart_tile {k : Nat} (hi : chanIdle (v.chan (tileChan t k)) = true) (a : Nat) (task : Bool) :
    (v.dmaStart (tileChan t k) a task).2 = v.modChan (tileChan t k) fun z => chanStart z (BitVec.ofNat 64 a) task := by
  unfold State.dmaStart
  rw [if_pos hi]
  rfl

section
variable {k a : Nat} {task : Bool} (h : Fetches s t 1 u) (hk : (getD (u.tile t) x).toNat = k) (ha : (getA (u.tile t) y).toNat = a) (ht : (!swS (u.tile t).sw) = task)
include h hk ha ht

/-- DMAGO of an idle channel with an allowed address starts it once the buffers have drained. -/
theorem dmago_starts (hl : k ≤ 1) (hi : chanIdle (u.chan (tileChan t k)) = true) (ho : u.descAddrOk (tileChan t k) a task = true) (hd : u.drainFull t = (true, v)) :
    Retires s (v.dmaStart (tileChan t k) a task).2 t (.dmago t x y) 1 ((v.dmaStart (tileChan t k) a task).2.tile t) := by
  refine retires_finish (f := id) h rfl ?_ rfl
  dsimp only
  rw [hk, ha, ht, if_neg (by simp [hl, hi, ho]), hd]

/-- DMAGO of another channel, of a busy one or with another address raises the fault of R293. -/
theorem dmago_refused (hr : 1 < k ∨ chanIdle (u.chan (tileChan t k)) = false ∨ u.descAddrOk (tileChan t k) a task = false) : Faults s u t (.dmago t x y) 12 k := by
  refine exec_faults_body h rfl ?_
  dsimp only
  rw [hk, ha, ht, if_pos (by simpa [or_assoc] using hr)]

end

/-- Settles O14: each instruction by whether its checks pass, after the drain. -/
theorem talliesDmaAndFenceWaitForTheDrain : Obligations.TalliesDmaAndFenceWaitForTheDrain := by
  unfold Obligations.TalliesDmaAndFenceWaitForTheDrain
  intro s u v t x y
  refine ⟨fun b h r f hr hf => ⟨tadv_issues h rfl hr hf, tadv_outside h rfl hr hf, tadv_nothing h rfl hr hf, congrArg Tallies.refused (State.refuseAdvance_tal u r 1 0 _)⟩,
    fun h => ⟨fence_drains h, icinv_drops h, icinvAll_drops h, fun hl hi ho hd idle => ⟨dmago_starts h rfl rfl rfl hl hi ho hd, ?_⟩, dmago_refused h rfl rfl rfl⟩⟩
  rw [State.dmaStart_tile idle]
  rw [State.chan_modChan]
  exact ⟨rfl, rfl, rfl⟩

end Sys2Proof.Machine
end

section
/-! An advance past the end of a tally faults its room; where the room's fault message fails its handover, that failure is a later fault, counted at once (R98, R119, R365, R372, R388, R389). -/

namespace Sys2Proof.Machine

/-- Room 0 as `memberForm`, with the local tally 0 beside its fabric tallies. -/
def limitForm : FormRec := { memberForm with ltCount := 1 }

/-- An advance of tally 0 by 1, issued by room 0. -/
def lastAdvance : PendingAdvance := { tally := 0, amount := 1, room := 0, source := 0 }

/-- Device 0 with room 0 formed as a member of job 9, tally 0 at 2^64 - 1 with an advance pending, and an injection of kind 3 at point 5, which the next packet that the device originates for room 0 meets. -/
def limitInjected : State :=
  { rooms := [(0, { state := .formed, form := some limitForm })], tal := { val := [(0, -1)], adv := [lastAdvance] },
    integ := { inject := [{ room := 0, point := 5, kind := 3, left := 1 }] } }

/-- LOCAL_ADVANCE_APPLY faults room 0 with cause 5; its FAULT_TO_HOME fails point 5, which counts as a secondary fault (R98, R365, R389). -/
theorem limitInjected_faults_twice :
    ∃ n, exec (.localAdvanceApply 0) limitInjected = .next n ∧ (n.room 0).flt.cause = 5 ∧ (n.room 0).flt.secondary = 1 :=
  ⟨_, rfl, by decide +kernel⟩

/-- Refutes O32: where the FAULT_TO_HOME of a room with fabric tallies fails its handover at point 5, that failure is a second fault of the room, and SECONDARY is 1 at the end of LOCAL_ADVANCE_APPLY, not 0. -/
theorem not_advancesReachTheirTallyOrAreRefused : ¬ Obligations.AdvancesReachTheirTallyOrAreRefused := by
  unfold Obligations.AdvancesReachTheirTallyOrAreRefused
  intro h
  obtain ⟨-, -, applied⟩ := h limitInjected 0 0 limitForm 0 0 0 { source := 0, session := 0, client := 0, cseq := 0 } 0 lastAdvance [] rfl
  obtain ⟨-, -, -, limit⟩ := applied rfl (by decide)
  obtain ⟨n, run, -, -, faulted⟩ := limit rfl (by decide +kernel) rfl rfl (by decide +kernel)
  obtain ⟨-, -, -, -, once, -⟩ := faulted
  obtain ⟨n', run', -, twice⟩ := limitInjected_faults_twice
  obtain rfl : n' = n := Host.Outcome.next.inj (run'.symm.trans run)
  exact absurd (twice.symm.trans once) (by decide)

end Sys2Proof.Machine
end

section
/-! SUPPORT. The Ledger keeps the records that it needs: recording an event, sending a reply and finishing a command take none of their slots (R466, R469, R477). -/

namespace Sys2Proof.Machine

variable {s t n : State}

/-! ### Needed records stay -/

/-- From `s` to `n` every record that the Ledger needs stays as it is, and its latest complete checkpoint stays. -/
structure KeepsNeeded (s n : State) : Prop where
  last : n.led.last = s.led.last
  recs : ∀ y ∈ s.led.recs, recNeeded s.led y = true → y ∈ n.led.recs

theorem recNeeded_congr {l m : Ledger} (h : m.last = l.last) (y : Record) : recNeeded m y = recNeeded l y := by unfold recNeeded; rw [h]

theorem KeepsNeeded.of_led (h : n.led = s.led) : KeepsNeeded s n := ⟨by rw [h], fun _ hy _ => h ▸ hy⟩
theorem KeepsNeeded.refl (s : State) : KeepsNeeded s s := .of_led rfl
theorem KeepsNeeded.trans (h : KeepsNeeded s t) (k : KeepsNeeded t n) : KeepsNeeded s n :=
  ⟨k.last.trans h.last, fun y hy hn => k.recs y (h.recs y hy hn) ((recNeeded_congr h.last y).trans hn)⟩

theorem State.modLed_led (s : State) (f : Ledger → Ledger) : (s.modLed f).led = f s.led := State.srcRose_led _ _ _

/-- Taking slots for a new entry drops no record that the Ledger needs. -/
theorem mem_ledTake {l : Ledger} {y : Record} (hy : y ∈ l.recs) (hn : recNeeded l y = true) (k : List Nat) : y ∈ (ledTake l k).recs :=
  List.mem_filter.2 ⟨hy, by simp [hn]⟩

/-- An event that is recorded, deferred or lost. -/
theorem KeepsNeeded.event (s : State) (c : BitVec 16) (v : List Byte) : KeepsNeeded s (s.event c v) := by
  have led := State.modLed_led s fun l =>
    if l.deferred.isEmpty && 1 + recParts v.length ≤ ledFree l then ledRecordEvent s c v l
    else if l.deferred.length < 1024 then { l with deferred := l.deferred ++ [(c, v)] } else { l with eventsLost := l.eventsLost + 1 }
  unfold State.event
  split at led
  · exact ⟨by rw [led]; rfl, fun y hy hn => by rw [led]; exact List.mem_append_left _ (mem_ledTake hy hn _)⟩
  · split at led
    · exact ⟨by rw [led], fun y hy _ => by rw [led]; exact hy⟩
    · exact ⟨by rw [led], fun y hy _ => by rw [led]; exact hy⟩

/-! ### Replies (R365, R423, R446) -/

theorem KeepsNeeded.integ (s : State) (g : Integ) : KeepsNeeded s { s with integ := g } := .of_led rfl
theorem KeepsNeeded.integRecord (s : State) (pt room code : Nat) (b : Bool) (addr : Nat) : KeepsNeeded s (s.integRecord pt room code b addr) := by
  unfold State.integRecord
  exact (KeepsNeeded.integ s _).trans (KeepsNeeded.event _ _ _)

theorem KeepsNeeded.handover (s : State) (pt room code addr : Nat) : KeepsNeeded s (s.handover pt room code addr).2 := by
  unfold State.handover
  split
  · exact .of_led rfl
  · dsimp only
    split
    · exact (KeepsNeeded.integ s _).trans (KeepsNeeded.integRecord _ _ _ _ _ _)
    · exact .of_led rfl

theorem State.raiseHost_led (s : State) (f : Nat) (m : W32) : (s.raiseHost f m).led = s.led := State.srcRose_led _ _ _
theorem State.sendMsix_led (s : State) (f e : Nat) : (s.sendMsix f e).led = s.led := by
  unfold State.sendMsix
  dsimp only
  split <;> rfl

theorem State.mbxError_led (s : State) (f c : Nat) : (s.mbxError f c).led = s.led := by
  have raised : ((s.modMbx f fun m => { m with stat := BitVec.ofNat 4 c }).raiseHost f 2).led = s.led := State.raiseHost_led _ _ _
  unfold State.mbxError
  dsimp only
  split <;> exact raised

theorem State.mbxPump_led (f k : Nat) : ∀ s : State, (s.mbxPump f k).led = s.led := by
  induction k with
  | zero => exact fun _ => rfl
  | succ k ih =>
    intro s
    unfold State.mbxPump
    dsimp only
    split
    · rfl
    · split
      · rfl
      · split
        · exact State.mbxError_led s f 2
        · rw [ih]
          split
          · rw [State.sendMsix_led, State.raiseHost_led]; rfl
          · rw [State.raiseHost_led]; rfl

theorem State.putFrame_led (s : State) (tr : BitVec 8) (q : Frame) : (s.putFrame tr q).led = s.led := by
  unfold State.putFrame
  split
  · rfl
  · split
    · unfold State.mbxSend
      split
      · exact State.mbxPump_led _ _ _
      · rfl
    · rfl

theorem KeepsNeeded.sendTries (tr : BitVec 8) (q : Frame) (k : Nat) : ∀ s : State, KeepsNeeded s (s.sendTries tr q k) := by
  induction k with
  | zero => exact fun s => .of_led rfl
  | succ k ih =>
    intro s
    have handed := KeepsNeeded.handover s 9 255 0 0
    unfold State.sendTries
    split <;> rename_i e <;> rw [e] at handed
    · exact handed.trans (ih _)
    · exact handed.trans (.of_led (State.putFrame_led _ _ _))

theorem KeepsNeeded.replyWrite (s : State) (w : Waiting) (st : Nat) (a : W64) (res : List Byte) : KeepsNeeded s (s.replyWrite w st a res) := by
  unfold State.replyWrite
  split
  · exact .refl s
  · exact .sendTries _ _ 3 s

theorem KeepsNeeded.replies (l : List Waiting) (st : Nat) (a : W64) (res : List Byte) : ∀ s : State, KeepsNeeded s (forL l (fun w s => s.replyWrite w st a res) s) := by
  induction l with
  | nil => exact fun s => .refl s
  | cons w l ih => exact fun s => (KeepsNeeded.replyWrite s w st a res).trans (ih _)

/-- Finishing a command keeps every other record that the Ledger needs. -/
theorem State.mem_finishRec {a : W64} {x y : Record} (st : Nat) (res : List Byte) (hx : s.record a = some x) (hr : x.index ≠ 0x9001) (hy : y ∈ s.led.recs) (ha : y.accession ≠ a)
    (hn : recNeeded s.led y = true) : y ∈ (s.finishRec a st res).led.recs := by
  have led := State.modLed_led s fun l => { ledModRec l a (recDone st res) with current := if l.current = some a then none else l.current }
  have replied := KeepsNeeded.replies x.waiting st a res (s.modLed fun l => { ledModRec l a (recDone st res) with current := if l.current = some a then none else l.current })
  unfold State.finishRec
  rw [hx]
  dsimp only
  rw [if_neg (by simp only [Bool.and_eq_true, decide_eq_true_eq]; exact fun e => hr e.1.1.1)]
  refine replied.recs y ?_ ?_
  · rw [led]
    exact List.mem_map.2 ⟨y, hy, if_neg ha⟩
  · rw [led]
    exact (recNeeded_congr rfl y).trans hn

/-! ### Slots -/

/-- An entry that is added needs its own slots, and takes none that are needed. -/
theorem length_ledNeeded_append {l m : Ledger} {p : Record → Bool} {x : Record} (hl : m.last = l.last) (hr : m.running = l.running) (hm : m.recs = l.recs.filter p ++ [x]) :
    (ledNeeded m).length ≤ (ledNeeded l).length + (x.slots.length + x.held.length) := by
  have slots : ((m.recs.filter (recNeeded m)).flatMap fun r => r.slots).length ≤ ((l.recs.filter (recNeeded l)).flatMap fun r => r.slots).length + x.slots.length := by
    rw [hm, show recNeeded m = recNeeded l from funext (recNeeded_congr hl), List.filter_append, List.flatMap_append, List.length_append]
    refine Nat.add_le_add (((List.filter_sublist.filter _).flatMap _).length_le) ?_
    cases h : recNeeded l x <;> simp [h]
  have held : (m.recs.flatMap fun r => r.held).length ≤ (l.recs.flatMap fun r => r.held).length + x.held.length := by
    rw [hm, List.flatMap_append, List.length_append]
    refine Nat.add_le_add ((List.filter_sublist.flatMap _).length_le) ?_
    simp
  unfold ledNeeded
  rw [hl, hr]
  simp only [List.length_append] at slots held ⊢
  omega

theorem length_ledLowest (l : Ledger) (k : Nat) : (ledLowest l k).length ≤ k := by
  unfold ledLowest
  exact List.length_take_le _ _

/-! ### Events that find room (R469) -/

/-- The Ledger has room for `k` more events of one slot each, which are numbered above `a` and above what the checkpoint stands for. -/
structure HasRoom (l : Ledger) (a : W64) (k : Nat) : Prop where
  deferred : l.deferred = []
  free : k ≤ ledFree l
  above : a.toNat < l.nextAcc.toNat
  fresh : ∀ c, l.last = some c → c.a.toNat < l.nextAcc.toNat
  small : l.nextAcc.toNat + k < 2 ^ 64

/-- The Ledger of `n` needs a record of the event `c` with fields `v`, numbered other than `a`. -/
def EventKept (n : State) (a : W64) (c : BitVec 16) (v : List Byte) : Prop :=
  ∃ y ∈ n.led.recs, y.kind = 3 ∧ y.done = true ∧ y.index = c ∧ y.value = v ∧ y.accession ≠ a ∧ recNeeded n.led y = true

theorem EventKept.keeps {a : W64} {c : BitVec 16} {v : List Byte} (h : EventKept s a c v) (k : KeepsNeeded s n) : EventKept n a c v := by
  obtain ⟨y, hy, h1, h2, h3, h4, h5, hn⟩ := h
  exact ⟨y, k.recs y hy hn, h1, h2, h3, h4, h5, (recNeeded_congr k.last y).trans hn⟩

/-- An event of one slot is recorded where there is room, and takes one slot of it. -/
theorem HasRoom.event {a : W64} {k : Nat} (h : HasRoom s.led a (k + 1)) (c : BitVec 16) {v : List Byte} (hv : recParts v.length = 0) :
    HasRoom (s.event c v).led a k ∧ EventKept (s.event c v) a c v := by
  obtain ⟨deferred, free, above, fresh, small⟩ := h
  have led : (s.event c v).led = ledRecordEvent s c v s.led := by
    unfold State.event
    rw [State.modLed_led]
    exact if_pos (by simp [deferred, hv]; omega)
  have next : (s.led.nextAcc + 1).toNat = s.led.nextAcc.toNat + 1 := by
    rw [BitVec.toNat_add]
    exact Nat.mod_eq_of_lt (by simp; omega)
  have taken := length_ledNeeded_append (l := s.led) (m := ledRecordEvent s c v s.led) rfl rfl rfl
  have one := length_ledLowest s.led (1 + recParts v.length)
  have none' : ([] : List Nat).length = 0 := rfl
  refine ⟨⟨by rw [led]; exact deferred, ?_, ?_, fun d hd => ?_, ?_⟩, ?_⟩
  · rw [led]
    unfold ledFree at free ⊢
    dsimp only at taken
    rw [hv] at one taken
    omega
  · rw [led]; show a.toNat < (s.led.nextAcc + 1).toNat; omega
  · rw [led] at hd ⊢
    have := fresh d hd
    show d.a.toNat < (s.led.nextAcc + 1).toNat
    omega
  · rw [led]; show (s.led.nextAcc + 1).toNat + k < 2 ^ 64; omega
  · unfold EventKept
    rw [led]
    refine ⟨_, List.mem_append_right _ (List.mem_singleton_self _), rfl, rfl, rfl, rfl, fun e => ?_, ?_⟩
    · have : s.led.nextAcc = a := e
      rw [this] at above
      exact absurd above (lt_irrefl _)
    · unfold recNeeded
      refine Bool.or_eq_true_iff.2 (.inr ?_)
      show (match s.led.last with | none => true | some d => decide (d.a < s.led.nextAcc)) = true
      cases hd : s.led.last with
      | none => rfl
      | some d => exact decide_eq_true (BitVec.lt_def.2 (fresh d hd))

end Sys2Proof.Machine
end

section
/-! SUPPORT. The slots that the record of a command takes, which leave the rest of the Ledger's room to the events that its effect records (R455, R466, R477, R478). -/

namespace Sys2Proof.Machine

variable {s : State} {r : Req} {idx sub : Nat} {v : List Byte}

/-! ### From the row to the record -/

/-- The write that a command's row makes, as it stands at step 9 of R455. -/
def State.writeOf (s : State) (r : Req) (idx sub : Nat) (v : List Byte) : WriteReq :=
  { transport := r.source, session := r.session, client := r.client, cseq := r.cseq, index := BitVec.ofNat 16 idx, sub := BitVec.ofNat 8 sub, segment := 0,
    ks := s.sessionKey r.source r.session, value := v }

/-- The record of a write whose value is recorded as it is, before it has its number and slots. -/
def writeRecord (w : WriteReq) : Record :=
  { accession := 0, incarnation := 0, kind := 1, client := w.client, cseq := w.cseq, index := w.index, sub := w.sub, source := w.transport, value := w.value, waiting := [w.waiting false false] }

/-- The record of a write with its number and its slots. -/
def State.recordOf (s : State) (w : WriteReq) : Record :=
  { writeRecord w with accession := s.led.nextAcc, incarnation := s.pow.incarnation, pos := s.posOrZero,
                       slots := (ledLowest s.led (1 + admitParts w.value.length)).take (1 + recParts w.value.length), held := (ledLowest s.led (1 + admitParts w.value.length)).drop (1 + recParts w.value.length) }

/-- The Ledger once the write has its record. -/
def State.ledWith (s : State) (w : WriteReq) : Ledger := { ledRecordCmd s s.led (writeRecord w) with clients := Tbl.put none s.led.clients w.client.toNat (some w.cseq) }

/-- An admitted write reaches its record. -/
theorem command_records (h : Admits s r idx sub v) (hi : idx < 65536) (hs : sub < 256) : ∃ b, s.command r idx sub v = settle s (({ s with bil := b } : State).recordWrite (s.writeOf r idx sub v)) := by
  obtain ⟨-, ⟨e, row, typed⟩, hears, awake, -, cseq, above, fresh, admits, -, -, -⟩ := h
  have index : (BitVec.ofNat 16 idx).toNat = idx := (BitVec.toNat_ofNat _ _).trans (Nat.mod_eq_of_lt hi)
  have subOf : (BitVec.ofNat 8 sub).toNat = sub := (BitVec.toNat_ofNat _ _).trans (Nat.mod_eq_of_lt hs)
  obtain ⟨b, taken⟩ : ∃ b, (if r.source = 19 then s.smbusTakes (some (r.client, r.cseq)) else s) = { s with bil := b } := by
    split
    · exact ⟨_, rfl⟩
    · exact ⟨s.bil, rfl⟩
  refine ⟨b, ?_⟩
  unfold State.command
  rw [row]
  dsimp only
  rw [if_pos hears, taken, State.activity_quiet (by exact awake)]
  unfold State.journalWrite
  dsimp only
  rw [subOf, typed, fresh, index, admits, if_neg (by decide), if_neg cseq]
  dsimp only
  rw [if_neg (by omega), if_neg (by decide)]
  rfl

/-- A write whose value is recorded as it is gets its record, and the Ledger goes on. -/
theorem State.recordWrite_eq (s : State) (w : WriteReq) (hv : recordedValue w.index.toNat w.sub.toNat w.value = w.value) :
    ∃ i, s.recordWrite w = ({ s with led := s.ledWith w, irq := i } : State).runLedger := by
  obtain ⟨i, e⟩ := State.srcRose_eq s { s with led := s.ledWith w } 3970
  refine ⟨i, ?_⟩
  unfold State.recordWrite
  dsimp only
  rw [hv, if_pos rfl]
  exact congrArg State.runLedger e

/-- The one command that waits takes effect. -/
theorem State.runLedger_one {t : State} {x : Record} (hc : t.led.current = none) (hq : t.led.queue = [s.led.nextAcc]) (hr : t.record s.led.nextAcc = some x) :
    t.runLedger = afterEffect s (({ t with led := { t.led with queue := [], current := some s.led.nextAcc } } : State).beginEffect x) := by
  have found : ({ t with led := { t.led with queue := [], current := some s.led.nextAcc } } : State).record s.led.nextAcc = some x := hr
  unfold State.runLedger
  rw [hq]
  show State.runQueue t 2 = _
  unfold State.runQueue
  rw [hc, hq]
  dsimp only
  rw [found]
  dsimp only
  cases ({ t with led := { t.led with queue := [], current := some s.led.nextAcc } } : State).beginEffect x <;> rfl

/-! ### The state in which the effect runs -/

/-- `t` is the state in which the effect of the command of record `x` runs, with the rest of the room that the Ledger of `s` had. -/
structure Takes (s t : State) (idx sub : Nat) (v : List Byte) (x : Record) : Prop where
  only : ReplyOnly s t
  record : t.record s.led.nextAcc = some x
  index : x.index.toNat = idx
  sub : x.sub.toNat = sub
  value : recValue x = v
  open' : x.kind = 1 ∧ x.acked = false
  queue : t.led.queue = []
  next : t.led.nextAcc = s.led.nextAcc + 1
  last : t.led.last = s.led.last
  deferred : t.led.deferred = s.led.deferred
  free : ledFree s.led ≤ ledFree t.led + (1 + admitParts v.length)

/-- The record takes no more slots than those of its value and of the largest result. -/
theorem ledFree_ledWith (s : State) (w : WriteReq) : ledFree s.led ≤ ledFree (s.ledWith w) + (1 + admitParts w.value.length) := by
  have needed := length_ledNeeded_append (l := s.led) (m := s.ledWith w) rfl rfl rfl
  have lowest := length_ledLowest s.led (1 + admitParts w.value.length)
  have parts := congrArg List.length (List.take_append_drop (1 + recParts w.value.length) (ledLowest s.led (1 + admitParts w.value.length)))
  rw [List.length_append] at parts
  change _ ≤ _ + ((s.recordOf w).slots.length + (s.recordOf w).held.length) at needed
  unfold State.recordOf at needed
  dsimp only at needed
  unfold ledFree
  omega

/-- A command whose value is recorded as it is takes its slots, and its effect runs. -/
theorem command_takes (h : Admits s r idx sub v) (hi : idx < 65536) (hs : sub < 256) (hv : recordedValue idx sub v = v) :
    ∃ t x, Takes s t idx sub v x ∧ s.command r idx sub v = settle s (afterEffect s (t.commandEffect x)) := by
  obtain ⟨b, recorded⟩ := command_records h hi hs
  obtain ⟨source, -, -, -, boot, -, -, -, -, idle, queue, fresh⟩ := h
  have index : (BitVec.ofNat 16 idx).toNat = idx := (BitVec.toNat_ofNat _ _).trans (Nat.mod_eq_of_lt hi)
  have subOf : (BitVec.ofNat 8 sub).toNat = sub := (BitVec.toNat_ofNat _ _).trans (Nat.mod_eq_of_lt hs)
  obtain ⟨i, ran⟩ := State.recordWrite_eq { s with bil := b } (s.writeOf r idx sub v) (by
    show recordedValue (BitVec.ofNat 16 idx).toNat (BitVec.ofNat 8 sub).toNat v = v
    rw [index, subOf, hv])
  generalize hw : s.writeOf r idx sub v = w at recorded ran
  have written : w.index = BitVec.ofNat 16 idx ∧ w.sub = BitVec.ofNat 8 sub ∧ w.value = v ∧ w.transport = r.source := by subst hw; exact ⟨rfl, rfl, rfl, rfl⟩
  obtain ⟨windex, wsub, wvalue, wsource⟩ := written
  have found : (s.ledWith w).recs.find? (fun z => z.accession = s.led.nextAcc) = some (s.recordOf w) :=
    find_append_new (ledTake s.led (ledLowest s.led (1 + admitParts w.value.length))).recs (s.recordOf w) fun y hy => fresh y (List.mem_of_mem_filter hy)
  have waits : (s.ledWith w).queue = [s.led.nextAcc] := congrArg (· ++ [s.led.nextAcc]) queue
  have runs := State.runLedger_one (s := s) (t := { s with bil := b, led := s.ledWith w, irq := i }) (x := s.recordOf w) idle waits found
  refine ⟨{ s with bil := b, led := { s.ledWith w with queue := [], current := some s.led.nextAcc }, irq := i }, s.recordOf w,
    ⟨rfl, found, ?_, ?_, wvalue, ⟨rfl, rfl⟩, rfl, rfl, rfl, rfl, wvalue ▸ ledFree_ledWith s w⟩, ?_⟩
  · exact (congrArg BitVec.toNat windex).trans index
  · exact (congrArg BitVec.toNat wsub).trans subOf
  · have value : recValue (s.recordOf w) = v := wvalue
    have client : (s.recordOf w).source ≠ 20 := by
      show w.transport ≠ 20
      rw [wsource]
      intro e
      rw [e] at source
      exact absurd source (by decide)
    rw [recorded, ran]
    refine congrArg (settle s) (runs.trans (congrArg (afterEffect s) ?_))
    unfold State.beginEffect
    rw [if_neg client, show (s.recordOf w).index.toNat = idx from (congrArg BitVec.toNat windex).trans index, show (s.recordOf w).sub.toNat = sub from (congrArg BitVec.toNat wsub).trans subOf, value]
    exact if_pos boot

end Sys2Proof.Machine
end

section
/-! The commands of the Vault (R482 to R488). -/

namespace Sys2Proof.Machine

variable {s t : State} {r : Req} {room : BitVec 8} {obj : BitVec 16} {tag : W32} {idx sub : Nat} {off a len : W64} {tally amt : BitVec 16}

/-! ### Values of several fields -/

/-- The bytes of fields, each of a width and with a value. -/
def fieldBytes (l : List (Nat × Nat)) : List Byte := l.flatMap fun e => leBytes e.1 e.2

/-- The field that stands after the fields `pre`. -/
theorem fieldAt_fieldBytes (pre post : List (Nat × Nat)) (n k : Nat) : fieldAt (fieldBytes (pre ++ (n, k) :: post)) (pre.map Prod.fst).sum n = k % 256 ^ n := by
  induction pre with
  | nil => exact fieldAt_leBytes n k _
  | cons e pre ih => exact (fieldAt_skip e.1 e.2 _ _ n).trans ih

theorem leBytes_byte (b : BitVec 8) : leBytes 1 b.toNat = [b] := by
  rw [leBytes, leBytes, BitVec.ofNat_toNat, BitVec.setWidth_eq]

/-- A field that holds a word. -/
theorem fieldAt_wordOf {w : Nat} (pre post : List (Nat × Nat)) (n : Nat) (x : BitVec w) (hw : 2 ^ w = 256 ^ n) :
    fieldAt (fieldBytes (pre ++ (n, x.toNat) :: post)) (pre.map Prod.fst).sum n = x.toNat :=
  (fieldAt_fieldBytes pre post n x.toNat).trans (Nat.mod_eq_of_lt (hw ▸ x.isLt))

/-! ### The checks (R483) -/

theorem State.leaveIdle_awake (h : s.pow.state ≠ .idle) : s.leaveIdle = s := if_neg h

theorem vaultSizes_iff {i j k : Nat} : vaultSizes i j k = true ↔ i % 4096 = 0 ∧ j % 4096 = 0 ∧ k % 4096 = 0 ∧ 4096 ≤ k ∧ k ≤ 0x1000000000 := by
  simp [vaultSizes, and_assoc]

theorem State.vaultTally_iff (s : State) (k : Nat) (t : BitVec 16) (amount : Nat) : s.vaultTally k t.toNat amount = true ↔ t = 0xFFFF ∨ s.advanceCheck k t.toNat amount = 0 := by
  simp [State.vaultTally, ← BitVec.toNat_inj]

/-- An object of the number that has another tag. -/
def otherTag (l : List VaultObj) (obj : BitVec 16) (tag : W32) : Bool := (findObject l obj).any fun o => o.tag ≠ tag

theorem otherTag_of_same {l : List VaultObj} (h : ∀ x ∈ l, x.number = obj → x.tag = tag) : otherTag l obj tag = false := by
  unfold otherTag findObject
  cases e : l.find? fun o => o.number = obj with
  | none => rfl
  | some o => simp [h o (List.mem_of_find?_eq_some e) (by simpa using List.find?_some e)]

theorem otherTag_of_found {l : List VaultObj} {o : VaultObj} (h : findObject l obj = some o) (ht : o.tag ≠ tag) : otherTag l obj tag = true := by simp [otherTag, h, ht]

/-! ### VAULT_WRITE -/

/-- The value of VAULT_WRITE. -/
def writeFields (room : BitVec 8) (obj : BitVec 16) (tag : W32) (a len : W64) (tally amt : BitVec 16) : List Byte :=
  [room] ++ leBytes 2 obj.toNat ++ leBytes 4 tag.toNat ++ leBytes 8 a.toNat ++ leBytes 8 len.toNat ++ leBytes 2 tally.toNat ++ leBytes 2 amt.toNat

theorem writeFields_eq (room : BitVec 8) (obj : BitVec 16) (tag : W32) (a len : W64) (tally amt : BitVec 16) :
    writeFields room obj tag a len tally amt = fieldBytes [(1, room.toNat), (2, obj.toNat), (4, tag.toNat), (8, a.toNat), (8, len.toNat), (2, tally.toNat), (2, amt.toNat)] := by
  simp [writeFields, fieldBytes, leBytes_byte]

theorem writeFields_at (room : BitVec 8) (obj : BitVec 16) (tag : W32) (a len : W64) (tally amt : BitVec 16) :
    let v := writeFields room obj tag a len tally amt
    fieldAt v 0 1 = room.toNat ∧ fieldAt v 1 2 = obj.toNat ∧ fieldAt v 3 4 = tag.toNat ∧ fieldAt v 7 8 = a.toNat ∧ fieldAt v 15 8 = len.toNat ∧ fieldAt v 23 2 = tally.toNat ∧ fieldAt v 25 2 = amt.toNat := by
  rw [writeFields_eq]
  exact ⟨fieldAt_wordOf [] _ 1 room rfl, fieldAt_wordOf [(1, room.toNat)] _ 2 obj rfl, fieldAt_wordOf [(1, room.toNat), (2, obj.toNat)] _ 4 tag rfl,
    fieldAt_wordOf [(1, room.toNat), (2, obj.toNat), (4, tag.toNat)] _ 8 a rfl, fieldAt_wordOf [(1, room.toNat), (2, obj.toNat), (4, tag.toNat), (8, a.toNat)] _ 8 len rfl,
    fieldAt_wordOf [(1, room.toNat), (2, obj.toNat), (4, tag.toNat), (8, a.toNat), (8, len.toNat)] _ 2 tally rfl,
    fieldAt_wordOf [(1, room.toNat), (2, obj.toNat), (4, tag.toNat), (8, a.toNat), (8, len.toNat), (2, tally.toNat)] [] 2 amt rfl⟩

/-- The job of a VAULT_WRITE. -/
def writeJob (acc : W64) (room : BitVec 8) (obj : BitVec 16) (tag : W32) (a len : W64) (tally amt : BitVec 16) : VaultJob :=
  { accession := acc, room := toRoom room.toNat, write := true, object := obj, tag := tag, addr := a, offset := 0, length := len, tally := tally, amount := amt }

/-- The reasons for RANGE of VAULT_WRITE. -/
def State.writeOutside (s : State) (room : BitVec 8) (obj : BitVec 16) (tag : W32) (a len : W64) (tally amt : BitVec 16) : Bool :=
  4096 ≤ obj.toNat || tag = 0 || !vaultSizes a.toNat 0 len.toNat || !s.ownsHbm room.toNat a.toNat len.toNat || !s.vaultTally room.toNat tally.toNat amt.toNat

/-- The state once the hold-up check for an extent of `bytes` is made (R488). -/
def State.held (s : State) (bytes : Nat) : State := (s.holdCheck bytes).2

/-- The checks of VAULT_WRITE, in order, on the fields of its value, once the command is recorded. -/
theorem vaultWriteEffect_eq (k : ReplyOnly s t) (hs : s.pow.state ≠ .idle) (acc : W64) :
    t.vaultWriteEffect acc (writeFields room obj tag a len tally amt) =
      if !(decide (room.toNat < 16) && (s.room room.toNat).isFormed) then .refuse stSTATE t
      else if s.writeOutside room obj tag a len tally amt then .refuse stRANGE t
      else if otherTag s.vault.objects obj tag then .refuse stSTATE t
      else if vaultFree s.vault < vaultUnits len.toNat then .refuse stCAPACITY t
      else if !holdPasses s (min len.toNat 0x10000000) then .done stSTATE [1] (t.held (min len.toNat 0x10000000))
      else if 16 ≤ jobsWaiting s.vault then .refuse stCAPACITY (t.held (min len.toNat 0x10000000))
      else .ok ((t.held (min len.toNat 0x10000000)).queueJob (writeJob acc room obj tag a len tally amt)) := by
  obtain ⟨led, out, bil, irq, integ, fns, rfl⟩ := k.exists
  obtain ⟨hroom, hobj, htag, ha, hlen, htally, hamt⟩ := writeFields_at room obj tag a len tally amt
  unfold State.vaultWriteEffect
  rw [State.leaveIdle_awake (by exact hs), hroom, hobj, htag, ha, hlen, htally, hamt]
  simp only [BitVec.ofNat_toNat, BitVec.setWidth_eq]
  rfl

/-- No negotiation is under way that the command would call off. -/
theorem activity_of_recorded {v : List Byte} (hadm : Admits s r idx sub v) (k : ReplyOnly s t) (b : Nat) (q : Bool) : t.activity b q = t := by
  obtain ⟨-, -, -, awake, -⟩ := hadm
  have same : t.pow = s.pow := (congrArg State.pow k :)
  exact State.activity_quiet (by rw [same]; exact awake) b q

/-- The fields of VAULT_WRITE are in range. -/
theorem writeOutside_eq_false : s.writeOutside room obj tag a len tally amt = false ↔
    obj.toNat < 4096 ∧ tag ≠ 0 ∧ (a.toNat % 4096 = 0 ∧ len.toNat % 4096 = 0 ∧ 4096 ≤ len.toNat ∧ len.toNat ≤ 0x1000000000) ∧ s.ownsHbm room.toNat a.toNat len.toNat = true ∧
      (tally = 0xFFFF ∨ s.advanceCheck room.toNat tally.toNat amt.toNat = 0) := by
  have sizes := vaultSizes_iff (i := a.toNat) (j := 0) (k := len.toNat)
  have advance := s.vaultTally_iff room.toNat tally amt.toNat
  unfold State.writeOutside
  simp only [Bool.or_eq_false_iff, Bool.not_eq_false', decide_eq_false_iff_not, sizes, advance, and_assoc]
  simp

theorem ReplyOnly.held (k : ReplyOnly s t) (m : Nat) : ReplyOnly (s.held m) (t.held m) := by
  obtain ⟨led, out, bil, irq, integ, fns, rfl⟩ := k.exists
  rfl

theorem ReplyOnly.queueJob (k : ReplyOnly s t) (j : VaultJob) : ReplyOnly (s.queueJob j) (t.queueJob j) := by
  obtain ⟨led, out, bil, irq, integ, fns, rfl⟩ := k.exists
  rfl

/-- What the hold-up check leaves (R488), where the jobs may have changed after it. -/
def HeldUp (s n : State) (m : Nat) : Prop :=
  ReplyOnly { s with free := s.free + 2, vault := n.vault } n ∧ n.vault.objects = s.vault.objects ∧ n.vault.check.cMicro = Config.free 32 s.free ∧
    n.vault.check.vMilli = Config.free 32 (s.free + 1) ∧ n.vault.check.pos = s.posOrZero ∧ n.vault.check.passed = holdPasses s m

theorem HeldUp.of_reply {m : Nat} {jobs : List VaultJob} {n : State} (k : ReplyOnly { s.held m with vault := { (s.held m).vault with jobs := jobs } } n) : HeldUp s n m := by
  have vault : n.vault = { (s.held m).vault with jobs := jobs } := (congrArg State.vault k :)
  unfold HeldUp
  rw [vault]
  exact ⟨k, rfl, rfl, rfl, rfl, rfl⟩

theorem State.held_failures (s : State) (m : Nat) : (s.held m).vault.failures = if holdPasses s m = true then s.vault.failures else s.vault.failures + 1 := rfl

/-! #### Its outcomes -/

section
variable (hadm : Admits s r 0x7101 1 (writeFields room obj tag a len tally amt))
include hadm

/-- A refusal by one of the checks. -/
theorem vaultWrite_refused (st : Nat) (he : ∀ t acc, ReplyOnly s t → t.vaultWriteEffect acc (writeFields room obj tag a len tally amt) = .refuse st t) :
    Refused s (.vaultWrite r room obj tag a len tally amt) r 0x7101 1 (writeFields room obj tag a len tally amt) (BitVec.ofNat 8 st) :=
  refused_of hadm (by decide) (by decide) (.inl rfl) rfl (by decide) fun t x ht => by rw [ht.vaultWrite, activity_of_recorded hadm ht.only]; exact he t _ ht.only

variable (hs : s.pow.state ≠ .idle)
include hs

theorem vaultWrite_unformed (h : 16 ≤ room.toNat ∨ (s.room room.toNat).isFormed = false) :
    Refused s (.vaultWrite r room obj tag a len tally amt) r 0x7101 1 (writeFields room obj tag a len tally amt) 3 :=
  vaultWrite_refused hadm stSTATE fun t acc k => (vaultWriteEffect_eq k hs acc).trans (if_pos (by rcases h with h | h <;> simp [h]))

variable (hl : room.toNat < 16) (hf : (s.room room.toNat).isFormed = true)
include hl hf

theorem vaultWrite_outside (h : s.writeOutside room obj tag a len tally amt = true) :
    Refused s (.vaultWrite r room obj tag a len tally amt) r 0x7101 1 (writeFields room obj tag a len tally amt) 2 :=
  vaultWrite_refused hadm stRANGE fun t acc k => by rw [vaultWriteEffect_eq k hs, if_neg (by simp [hl, hf]), if_pos h]

variable (hin : s.writeOutside room obj tag a len tally amt = false)
include hin

theorem vaultWrite_otherTag (h : otherTag s.vault.objects obj tag = true) :
    Refused s (.vaultWrite r room obj tag a len tally amt) r 0x7101 1 (writeFields room obj tag a len tally amt) 3 :=
  vaultWrite_refused hadm stSTATE fun t acc k => by rw [vaultWriteEffect_eq k hs, if_neg (by simp [hl, hf]), if_neg (by simp [hin]), if_pos h]

variable (hsame : otherTag s.vault.objects obj tag = false)
include hsame

theorem vaultWrite_full (h : vaultFree s.vault < vaultUnits len.toNat) :
    Refused s (.vaultWrite r room obj tag a len tally amt) r 0x7101 1 (writeFields room obj tag a len tally amt) 5 :=
  vaultWrite_refused hadm stCAPACITY fun t acc k => by rw [vaultWriteEffect_eq k hs, if_neg (by simp [hl, hf]), if_neg (by simp [hin]), if_neg (by simp [hsame]), if_pos h]

variable (hunits : vaultUnits len.toNat ≤ vaultFree s.vault) (hjobs : jobsWaiting s.vault < 16)
include hunits hjobs

/-- The hold-up check is made, and by its outcome the job is queued or the command refused. -/
theorem vaultWrite_checked :
    Journaled s (.vaultWrite r room obj tag a len tally amt) r 0x7101 1 (writeFields room obj tag a len tally amt) (if holdPasses s (min len.toNat 0x10000000) = true then 0 else 3)
      (if holdPasses s (min len.toNat 0x10000000) = true then [] else [1]) fun n =>
      HeldUp s n (min len.toNat 0x10000000) ∧
      (if holdPasses s (min len.toNat 0x10000000) = true then
          n.vault.failures = s.vault.failures ∧ n.vault.jobs = s.vault.jobs ++ [writeJob s.led.nextAcc room obj tag a len tally amt]
        else n.vault.failures = s.vault.failures + 1 ∧ n.vault.jobs = s.vault.jobs) := by
  have effect : ∀ t x, Recorded s t r 0x7101 1 (writeFields room obj tag a len tally amt) x → t.commandEffect x =
      if !holdPasses s (min len.toNat 0x10000000) then .done stSTATE [1] (t.held (min len.toNat 0x10000000))
      else .ok ((t.held (min len.toNat 0x10000000)).queueJob (writeJob s.led.nextAcc room obj tag a len tally amt)) := fun t x ht => by
    rw [ht.vaultWrite, activity_of_recorded hadm ht.only, vaultWriteEffect_eq ht.only hs, ht.accession, if_neg (by simp [hl, hf]), if_neg (by simp [hin]), if_neg (by simp [hsame]),
      if_neg (Nat.not_lt.2 hunits), if_neg (Nat.not_le.2 hjobs)]
  have failures := s.held_failures (min len.toNat 0x10000000)
  cases hp : holdPasses s (min len.toNat 0x10000000) with
  | false =>
    rw [hp] at failures
    refine journaled_of (st := stSTATE) (res := [1]) hadm (by decide) (by decide) (.inl rfl) rfl (by decide) fun t x ht =>
      ⟨t.held (min len.toNat 0x10000000), (effect t x ht).trans (if_pos (by rw [hp]; rfl)), ht.record.1, ht.queue, fun n k => ?_⟩
    have reply := (ReplyOnly.held ht.only (min len.toNat 0x10000000)).trans k
    have vault : n.vault = (s.held (min len.toNat 0x10000000)).vault := (congrArg State.vault reply :)
    exact ⟨HeldUp.of_reply reply, by rw [vault]; exact failures, by rw [vault]; rfl⟩
  | true =>
    rw [hp] at failures
    refine journaled_of (st := stOK) (res := []) hadm (by decide) (by decide) (.inl rfl) rfl (by decide) fun t x ht =>
      ⟨(t.held (min len.toNat 0x10000000)).queueJob (writeJob s.led.nextAcc room obj tag a len tally amt), (effect t x ht).trans (if_neg (by rw [hp]; decide)), ht.record.1, ht.queue, fun n k => ?_⟩
    have reply := (ReplyOnly.queueJob (ReplyOnly.held ht.only (min len.toNat 0x10000000)) (writeJob s.led.nextAcc room obj tag a len tally amt)).trans k
    have vault : n.vault = ((s.held (min len.toNat 0x10000000)).queueJob (writeJob s.led.nextAcc room obj tag a len tally amt)).vault := (congrArg State.vault reply :)
    exact ⟨HeldUp.of_reply reply, by rw [vault]; exact failures, by rw [vault]; rfl⟩

end

/-! ### VAULT_READ -/

/-- The value of VAULT_READ. -/
def readFields (room : BitVec 8) (obj : BitVec 16) (tag : W32) (off a len : W64) (tally amt : BitVec 16) : List Byte :=
  [room] ++ leBytes 2 obj.toNat ++ leBytes 4 tag.toNat ++ leBytes 8 off.toNat ++ leBytes 8 a.toNat ++ leBytes 8 len.toNat ++ leBytes 2 tally.toNat ++ leBytes 2 amt.toNat

theorem readFields_eq (room : BitVec 8) (obj : BitVec 16) (tag : W32) (off a len : W64) (tally amt : BitVec 16) :
    readFields room obj tag off a len tally amt =
      fieldBytes [(1, room.toNat), (2, obj.toNat), (4, tag.toNat), (8, off.toNat), (8, a.toNat), (8, len.toNat), (2, tally.toNat), (2, amt.toNat)] := by
  simp [readFields, fieldBytes, leBytes_byte]

theorem readFields_at (room : BitVec 8) (obj : BitVec 16) (tag : W32) (off a len : W64) (tally amt : BitVec 16) :
    let v := readFields room obj tag off a len tally amt
    fieldAt v 0 1 = room.toNat ∧ fieldAt v 1 2 = obj.toNat ∧ fieldAt v 3 4 = tag.toNat ∧ fieldAt v 7 8 = off.toNat ∧ fieldAt v 15 8 = a.toNat ∧ fieldAt v 23 8 = len.toNat ∧
      fieldAt v 31 2 = tally.toNat ∧ fieldAt v 33 2 = amt.toNat := by
  rw [readFields_eq]
  exact ⟨fieldAt_wordOf [] _ 1 room rfl, fieldAt_wordOf [(1, room.toNat)] _ 2 obj rfl, fieldAt_wordOf [(1, room.toNat), (2, obj.toNat)] _ 4 tag rfl,
    fieldAt_wordOf [(1, room.toNat), (2, obj.toNat), (4, tag.toNat)] _ 8 off rfl, fieldAt_wordOf [(1, room.toNat), (2, obj.toNat), (4, tag.toNat), (8, off.toNat)] _ 8 a rfl,
    fieldAt_wordOf [(1, room.toNat), (2, obj.toNat), (4, tag.toNat), (8, off.toNat), (8, a.toNat)] _ 8 len rfl,
    fieldAt_wordOf [(1, room.toNat), (2, obj.toNat), (4, tag.toNat), (8, off.toNat), (8, a.toNat), (8, len.toNat)] _ 2 tally rfl,
    fieldAt_wordOf [(1, room.toNat), (2, obj.toNat), (4, tag.toNat), (8, off.toNat), (8, a.toNat), (8, len.toNat), (2, tally.toNat)] [] 2 amt rfl⟩

/-- The job of a VAULT_READ. -/
def readJob (acc : W64) (room : BitVec 8) (obj : BitVec 16) (tag : W32) (off a len : W64) (tally amt : BitVec 16) : VaultJob :=
  { accession := acc, room := toRoom room.toNat, write := false, object := obj, tag := tag, addr := a, offset := off, length := len, tally := tally, amount := amt }

/-- The reasons for RANGE of VAULT_READ beside its object. -/
def State.readOutside (s : State) (room : BitVec 8) (off a len : W64) (tally amt : BitVec 16) : Bool :=
  !vaultSizes off.toNat a.toNat len.toNat || !s.ownsHbm room.toNat a.toNat len.toNat || !s.vaultTally room.toNat tally.toNat amt.toNat

/-- The fields of VAULT_READ are in range. -/
theorem readOutside_eq_false : s.readOutside room off a len tally amt = false ↔
    (off.toNat % 4096 = 0 ∧ a.toNat % 4096 = 0 ∧ len.toNat % 4096 = 0 ∧ 4096 ≤ len.toNat ∧ len.toNat ≤ 0x1000000000) ∧ s.ownsHbm room.toNat a.toNat len.toNat = true ∧
      (tally = 0xFFFF ∨ s.advanceCheck room.toNat tally.toNat amt.toNat = 0) := by
  have sizes := vaultSizes_iff (i := off.toNat) (j := a.toNat) (k := len.toNat)
  have advance := s.vaultTally_iff room.toNat tally amt.toNat
  unfold State.readOutside
  simp only [Bool.or_eq_false_iff, Bool.not_eq_false', sizes, advance, and_assoc]

/-- The checks of VAULT_READ, in order, on the fields of its value, once the command is recorded. -/
theorem vaultReadEffect_eq (k : ReplyOnly s t) (hs : s.pow.state ≠ .idle) (acc : W64) :
    t.vaultReadEffect acc (readFields room obj tag off a len tally amt) =
      if !(decide (room.toNat < 16) && (s.room room.toNat).isFormed) then .refuse stSTATE t
      else if s.readOutside room off a len tally amt then .refuse stRANGE t
      else match findObject s.vault.objects obj with
        | none => .refuse stRANGE t
        | some o =>
          if o.tag ≠ tag then .refuse stSTATE t
          else if o.length.toNat < off.toNat + len.toNat then .refuse stRANGE t
          else if 16 ≤ jobsWaiting s.vault then .refuse stCAPACITY t
          else .ok (t.queueJob (readJob acc room obj tag off a len tally amt)) := by
  obtain ⟨led, out, bil, irq, integ, fns, rfl⟩ := k.exists
  obtain ⟨hroom, hobj, htag, hoff, ha, hlen, htally, hamt⟩ := readFields_at room obj tag off a len tally amt
  unfold State.vaultReadEffect
  rw [State.leaveIdle_awake (by exact hs), hroom, hobj, htag, hoff, ha, hlen, htally, hamt]
  simp only [BitVec.ofNat_toNat, BitVec.setWidth_eq]
  rfl

section
variable (hadm : Admits s r 0x7101 2 (readFields room obj tag off a len tally amt))
include hadm

/-- A refusal by one of the checks. -/
theorem vaultRead_refused (st : Nat) (he : ∀ t acc, ReplyOnly s t → t.vaultReadEffect acc (readFields room obj tag off a len tally amt) = .refuse st t) :
    Refused s (.vaultRead r room obj tag off a len tally amt) r 0x7101 2 (readFields room obj tag off a len tally amt) (BitVec.ofNat 8 st) :=
  refused_of hadm (by decide) (by decide) (.inl rfl) rfl (by decide) fun t x ht => by rw [ht.vaultRead, activity_of_recorded hadm ht.only]; exact he t _ ht.only

variable (hs : s.pow.state ≠ .idle)
include hs

theorem vaultRead_unformed (h : 16 ≤ room.toNat ∨ (s.room room.toNat).isFormed = false) :
    Refused s (.vaultRead r room obj tag off a len tally amt) r 0x7101 2 (readFields room obj tag off a len tally amt) 3 :=
  vaultRead_refused hadm stSTATE fun t acc k => (vaultReadEffect_eq k hs acc).trans (if_pos (by rcases h with h | h <;> simp [h]))

variable (hl : room.toNat < 16) (hf : (s.room room.toNat).isFormed = true) (hin : s.readOutside room off a len tally amt = false) {o : VaultObj} (ho : findObject s.vault.objects obj = some o)
include hl hf hin ho

omit hadm in
/-- The checks that turn on the object. -/
theorem vaultReadEffect_found (k : ReplyOnly s t) (acc : W64) : t.vaultReadEffect acc (readFields room obj tag off a len tally amt) =
    if o.tag ≠ tag then .refuse stSTATE t
    else if o.length.toNat < off.toNat + len.toNat then .refuse stRANGE t
    else if 16 ≤ jobsWaiting s.vault then .refuse stCAPACITY t
    else .ok (t.queueJob (readJob acc room obj tag off a len tally amt)) := by
  rw [vaultReadEffect_eq k hs, if_neg (by simp [hl, hf]), if_neg (by simp [hin]), ho]

theorem vaultRead_otherTag (h : o.tag ≠ tag) : Refused s (.vaultRead r room obj tag off a len tally amt) r 0x7101 2 (readFields room obj tag off a len tally amt) 3 :=
  vaultRead_refused hadm stSTATE fun _ acc k => (vaultReadEffect_found hs hl hf hin ho k acc).trans (if_pos h)

theorem vaultRead_beyond (htag : o.tag = tag) (h : o.length.toNat < off.toNat + len.toNat) :
    Refused s (.vaultRead r room obj tag off a len tally amt) r 0x7101 2 (readFields room obj tag off a len tally amt) 2 :=
  vaultRead_refused hadm stRANGE fun t acc k => by rw [vaultReadEffect_found hs hl hf hin ho k, if_neg (not_not.2 htag), if_pos h]

/-- A read within the committed length is queued. -/
theorem vaultRead_queued (htag : o.tag = tag) (h : off.toNat + len.toNat ≤ o.length.toNat) (hjobs : jobsWaiting s.vault < 16) :
    Journaled s (.vaultRead r room obj tag off a len tally amt) r 0x7101 2 (readFields room obj tag off a len tally amt) 0 [] fun n =>
      ReplyOnly (s.queueJob (readJob s.led.nextAcc room obj tag off a len tally amt)) n :=
  journaled_of (st := stOK) hadm (by decide) (by decide) (.inl rfl) rfl (by decide) fun t _ ht =>
    ⟨t.queueJob (readJob s.led.nextAcc room obj tag off a len tally amt), by
      rw [ht.vaultRead, activity_of_recorded hadm ht.only, vaultReadEffect_found hs hl hf hin ho ht.only, ht.accession, if_neg (not_not.2 htag), if_neg (Nat.not_lt.2 h), if_neg (Nat.not_le.2 hjobs)]
      rfl,
      ht.record.1, ht.queue, fun _ k => (ReplyOnly.queueJob ht.only _).trans k⟩

end

/-! ### VAULT_DELETE -/

/-- The value of VAULT_DELETE. -/
def deleteFields (room : BitVec 8) (obj : BitVec 16) (tag : W32) : List Byte := [room] ++ leBytes 2 obj.toNat ++ leBytes 4 tag.toNat

theorem deleteFields_at (room : BitVec 8) (obj : BitVec 16) (tag : W32) : fieldAt (deleteFields room obj tag) 1 2 = obj.toNat ∧ fieldAt (deleteFields room obj tag) 3 4 = tag.toNat := by
  have bytes : deleteFields room obj tag = fieldBytes [(1, room.toNat), (2, obj.toNat), (4, tag.toNat)] := by simp [deleteFields, fieldBytes, leBytes_byte]
  rw [bytes]
  exact ⟨fieldAt_wordOf [(1, room.toNat)] _ 2 obj rfl, fieldAt_wordOf [(1, room.toNat), (2, obj.toNat)] [] 4 tag rfl⟩

/-- The Vault without the object `obj`. -/
def State.without (s : State) (obj : BitVec 16) : State := { s with vault := { s.vault with objects := s.vault.objects.filter fun x => x.number ≠ obj } }

theorem ReplyOnly.without (k : ReplyOnly s t) (obj : BitVec 16) : ReplyOnly (s.without obj) (t.without obj) := by
  obtain ⟨led, out, bil, irq, integ, fns, rfl⟩ := k.exists
  rfl

/-- The checks of VAULT_DELETE on the fields of its value, once the command is recorded. -/
theorem vaultDeleteEffect_eq (k : ReplyOnly s t) (hs : s.pow.state ≠ .idle) :
    t.vaultDeleteEffect (deleteFields room obj tag) = match findObject s.vault.objects obj with
      | none => .refuse stRANGE t
      | some o => if o.tag.toNat ≠ tag.toNat then .refuse stSTATE t else .ok (t.without obj) := by
  obtain ⟨led, out, bil, irq, integ, fns, rfl⟩ := k.exists
  obtain ⟨hobj, htag⟩ := deleteFields_at room obj tag
  unfold State.vaultDeleteEffect
  rw [State.leaveIdle_awake (by exact hs), hobj, htag, BitVec.ofNat_toNat, BitVec.setWidth_eq]
  rfl

section
variable (hadm : Admits s r 0x7101 3 (deleteFields room obj tag)) (hs : s.pow.state ≠ .idle)
include hadm hs

theorem vaultDelete_none (h : findObject s.vault.objects obj = none) : Refused s (.vaultDelete r room obj tag) r 0x7101 3 (deleteFields room obj tag) 2 :=
  refused_of (st := stRANGE) hadm (by decide) (by decide) (.inl rfl) rfl (by decide) fun t x ht => by
    rw [ht.vaultDelete, activity_of_recorded hadm ht.only, vaultDeleteEffect_eq ht.only hs, h]

variable {o : VaultObj} (ho : findObject s.vault.objects obj = some o)
include ho

theorem vaultDelete_otherTag (h : o.tag ≠ tag) : Refused s (.vaultDelete r room obj tag) r 0x7101 3 (deleteFields room obj tag) 3 :=
  refused_of (st := stSTATE) hadm (by decide) (by decide) (.inl rfl) rfl (by decide) fun t x ht => by
    rw [ht.vaultDelete, activity_of_recorded hadm ht.only, vaultDeleteEffect_eq ht.only hs, ho]
    exact if_pos fun e => h (BitVec.eq_of_toNat_eq e)

theorem vaultDelete_deletes (h : o.tag = tag) : Journaled s (.vaultDelete r room obj tag) r 0x7101 3 (deleteFields room obj tag) 0 [] fun n => ReplyOnly (s.without obj) n :=
  journaled_of (st := stOK) hadm (by decide) (by decide) (.inl rfl) rfl (by decide) fun t x ht =>
    ⟨t.without obj, by
      rw [ht.vaultDelete, activity_of_recorded hadm ht.only, vaultDeleteEffect_eq ht.only hs, ho]
      exact if_neg (not_not.2 (congrArg BitVec.toNat h)),
      ht.record.1, ht.queue, fun _ k => (ReplyOnly.without ht.only obj).trans k⟩

end

/-! ### VAULT_STOP -/

/-- The state with the Vault as `x`. -/
def State.withVault (s : State) (x : Vault) : State := { s with vault := x }

theorem answering_withVault (h : Answering s t) (x : Vault) : Answering (s.withVault x) (t.withVault x) :=
  ⟨congrArg (fun u : State => u.withVault x) h.only, h.keeps, h.current, h.queue⟩

/-- The fields of VAULT_END (R469, R485). -/
def endFields (j : VaultJob) (code : Nat) : List Byte := leBytes 2 j.object.toNat ++ leBytes 8 j.accession.toNat ++ leBytes 8 j.bytesDone ++ leBytes 1 code

/-- The jobs of a list end with `code`. -/
def State.jobsEnd (s : State) (l : List VaultJob) (code : Nat) : State := forL l (fun j s => s.jobEnds j code) s

theorem State.jobsEnd_cons (s : State) (j : VaultJob) (l : List VaultJob) (code : Nat) : s.jobsEnd (j :: l) code = (s.jobEnds j code).jobsEnd l code := rfl

/-- Beside their events, the ends of jobs leave the Vault's bit of R491. -/
theorem State.jobsEnd_answers (l : List VaultJob) (code : Nat) : ∀ s : State, ∃ b, Answering (s.withVault { s.vault with endedShort := b }) (s.jobsEnd l code) := by
  induction l with
  | nil => exact fun s => ⟨s.vault.endedShort, .refl s⟩
  | cons j l ih =>
    intro s
    have ends : Answering (s.withVault { s.vault with endedShort := true }) (s.jobEnds j code) := Answering.event _ _ _
    obtain ⟨b, rest⟩ := ih (s.jobEnds j code)
    have vault : (s.jobEnds j code).vault = { s.vault with endedShort := true } := (congrArg State.vault ends.only :)
    have both := (answering_withVault ends { (s.jobEnds j code).vault with endedShort := b }).trans rest
    rw [vault] at both
    exact ⟨b, both⟩

theorem KeepsNeeded.jobEnds (s : State) (j : VaultJob) (code : Nat) : KeepsNeeded s (s.jobEnds j code) :=
  (KeepsNeeded.of_led (s := s) (n := s.withVault { s.vault with endedShort := true }) rfl).trans (KeepsNeeded.event _ _ _)

theorem KeepsNeeded.jobsEnd (l : List VaultJob) (code : Nat) : ∀ s : State, KeepsNeeded s (s.jobsEnd l code) := by
  induction l with
  | nil => exact .refl
  | cons j l ih => exact fun s => (KeepsNeeded.jobEnds s j code).trans (ih _)

/-- Where there is room for them, each job's VAULT_END is recorded and kept. -/
theorem HasRoom.jobsEnd {acc : W64} (code : Nat) (l : List VaultJob) : ∀ s : State, HasRoom s.led acc l.length → ∀ j ∈ l, EventKept (s.jobsEnd l code) acc 6 (endFields j code) := by
  induction l with
  | nil => exact fun _ _ j hj => absurd hj List.not_mem_nil
  | cons e l ih =>
    intro s h j hj
    have slot : recParts (endFields e code).length = 0 := by simp [endFields, length_leBytes, recParts]
    obtain ⟨room, kept⟩ := HasRoom.event (s := s.withVault { s.vault with endedShort := true }) h 6 slot
    rw [State.jobsEnd_cons]
    rcases List.mem_cons.1 hj with rfl | hl
    · exact EventKept.keeps kept (KeepsNeeded.jobsEnd l code _)
    · exact ih (s.jobEnds e code) room j hl

/-- The queued jobs of a room. -/
def State.queuedJobs (s : State) (k : Nat) : List VaultJob := s.vault.jobs.filter fun j => j.room.val = k && !j.inExtent

/-- The jobs that a stop of a room's jobs leaves, the running one marked. -/
def stoppedJobs (l : List VaultJob) (k : Nat) : List VaultJob :=
  (l.filter fun j => j.room.val ≠ k || j.inExtent).map fun j => if j.room.val = k then { j with stop := some (j.stop.getD 2) } else j

/-- The state once the jobs of room `k` are stopped (R487). -/
def State.stopped (s : State) (k : Nat) : State := (s.endQueuedJobs k 2).stopRunningJob k 2

/-- Of the jobs that are left, those of the room are those whose extent runs. -/
theorem map_running_eq (l : List VaultJob) (k : Nat) :
    ((l.filter fun j => j.room.val ≠ k || j.inExtent).map fun j => if j.room.val = k && j.inExtent then { j with stop := some (j.stop.getD (BitVec.ofNat 8 2)) } else j) = stoppedJobs l k := by
  refine List.map_congr_left fun j hj => ?_
  have left : j.room.val ≠ k ∨ j.inExtent = true := by simpa using (List.mem_filter.1 hj).2
  by_cases hk : j.room.val = k
  · have runs : j.inExtent = true := left.resolve_left (not_not.2 hk)
    rw [if_pos hk, if_pos (by simp [hk, runs])]
    rfl
  · rw [if_neg hk, if_neg (by simp [hk])]

/-- A stop changes the Vault's jobs and its bit of R491, beside the events recorded. -/
theorem State.stopped_answers (s : State) (k : Nat) : ∃ b, Answering (s.withVault { s.vault with jobs := stoppedJobs s.vault.jobs k, endedShort := b }) (s.stopped k) := by
  obtain ⟨b, ends⟩ := State.jobsEnd_answers (s.queuedJobs k) 2 (s.withVault { s.vault with jobs := s.vault.jobs.filter fun j => j.room.val ≠ k || j.inExtent })
  have vault : (s.endQueuedJobs k 2).vault = { s.vault with jobs := s.vault.jobs.filter fun j => j.room.val ≠ k || j.inExtent, endedShort := b } := (congrArg State.vault ends.only :)
  have jobs : (s.stopped k).vault = { s.vault with jobs := stoppedJobs s.vault.jobs k, endedShort := b } := by
    rw [← map_running_eq]
    unfold State.stopped State.stopRunningJob
    rw [vault]
  have marked := answering_withVault ends (s.stopped k).vault
  exact ⟨b, jobs ▸ marked⟩

theorem leNat_singleton (b : BitVec 8) : leNat [b] = b.toNat := by simp [leNat]

theorem vaultStopEffect_eq (k : ReplyOnly s t) (hs : s.pow.state ≠ .idle) (i : Nat) : t.vaultStopEffect i = .ok (t.stopped i) := by
  have same : t.pow = s.pow := (congrArg State.pow k :)
  unfold State.vaultStopEffect
  rw [State.leaveIdle_awake (by rw [same]; exact hs)]
  rfl

section
variable (hs : s.pow.state ≠ .idle) (hadm : Admits s r 0x7101 4 [room])
include hs hadm

/-- VAULT_STOP takes the queued jobs of its room from the list and marks the running one. -/
theorem vaultStop_stops : Journaled s (.vaultStop r room) r 0x7101 4 [room] 0 [] fun n =>
    ReplyOnly { s with vault := n.vault } n ∧ n.vault.objects = s.vault.objects ∧ n.vault.jobs = stoppedJobs s.vault.jobs room.toNat :=
  journaled_of (st := stOK) hadm (by decide) (by decide) (.inl rfl) rfl (by decide) fun t x ht => by
    obtain ⟨b, stops⟩ := t.stopped_answers room.toNat
    have effect : t.commandEffect x = .ok (t.stopped room.toNat) := by
      rw [ht.vaultStop, activity_of_recorded hadm ht.only, leNat_singleton, vaultStopEffect_eq ht.only hs]
    have vault : t.vault = s.vault := (congrArg State.vault ht.only :)
    refine ⟨t.stopped room.toNat, effect, stops.keeps _ _ ht.record.1 ht.record.2.1 ht.open'.2.1, stops.queue.trans ht.queue, fun n k => ?_⟩
    have left : n.vault = { s.vault with jobs := stoppedJobs s.vault.jobs room.toNat, endedShort := b } := by
      rw [← vault]
      exact (congrArg State.vault k :).trans (congrArg State.vault stops.only :)
    have reply : ReplyOnly (s.withVault n.vault) n := by
      have all := stops.only.trans k
      have base : ReplyOnly (s.withVault n.vault) (t.withVault n.vault) := congrArg (fun u : State => u.withVault n.vault) ht.only
      rw [vault, ← left] at all
      exact ReplyOnly.trans base all
    exact ⟨reply, by rw [left], by rw [left]⟩

/-- The VAULT_END of each queued job of the room is recorded, where the Ledger has room. -/
theorem vaultStop_records (hroom : RoomForEvents s.led (3 + s.vault.jobs.length)) {n : State} (run : exec (.vaultStop r room) s = .next n) {j : VaultJob} (hj : j ∈ s.vault.jobs)
    (hr : j.room.val = room.toNat) (hq : j.inExtent = false) : JobEnded n j j.bytesDone 2 := by
  obtain ⟨t, x, ht, ran⟩ := command_takes hadm (by decide) (by decide) rfl
  obtain ⟨⟨-, -, fresh, small⟩, deferred, free⟩ := hroom
  have effect : t.commandEffect x = .ok (t.stopped room.toNat) := by
    unfold State.commandEffect
    rw [ht.index, ht.sub, ht.value]
    show (t.activity 3 false).vaultStopEffect (leNat [room]) = _
    rw [activity_of_recorded hadm ht.only, leNat_singleton, vaultStopEffect_eq ht.only hs]
  have vault : t.vault = s.vault := (congrArg State.vault ht.only :)
  have queued : j ∈ t.queuedJobs room.toNat := by
    unfold State.queuedJobs
    rw [vault]
    exact List.mem_filter.2 ⟨hj, by simp [hr, hq]⟩
  have fewer : (t.queuedJobs room.toNat).length ≤ s.vault.jobs.length := by
    unfold State.queuedJobs
    rw [vault]
    exact List.length_filter_le _ _
  have next : t.led.nextAcc.toNat = s.led.nextAcc.toNat + 1 := by
    rw [ht.next, BitVec.toNat_add]
    exact Nat.mod_eq_of_lt (by simp; omega)
  have parts : 1 + admitParts [room].length = 3 := by simp [admitParts, recParts]
  have slots := ht.free
  have total : ledFree s.led ≤ 65536 := Nat.sub_le _ _
  have space : HasRoom t.led s.led.nextAcc (t.queuedJobs room.toNat).length :=
    ⟨ht.deferred.trans deferred, by omega, by omega, fun c hc => by have := fresh c (ht.last ▸ hc); omega, by omega⟩
  obtain ⟨y, hy, kind, done, index, value, other, needed⟩ := HasRoom.jobsEnd 2 (t.queuedJobs room.toNat)
    (t.withVault { t.vault with jobs := t.vault.jobs.filter fun j => j.room.val ≠ room.toNat || j.inExtent }) space j queued
  obtain ⟨b, stops⟩ := t.stopped_answers room.toNat
  have record := stops.keeps _ _ ht.record ht.open'.1 ht.open'.2
  have plain : x.index ≠ 0x9001 := fun e => absurd (ht.index.symm.trans (congrArg BitVec.toNat e)) (by decide)
  have finished := finishRec_finishes stOK [] record ht.open'.1 ht.open'.2 fun e => plain e.1
  have last : n.led = ((t.stopped room.toNat).finishRec s.led.nextAcc stOK []).led := by
    have ends : s.command r 0x7101 4 [room] = n := Host.Outcome.next.inj run
    rw [← ends, ran, effect, settle_led]
    exact congrArg State.led (runQueue_empty _ 1 (finished.queue.trans (stops.queue.trans ht.queue)))
  have kept := State.mem_finishRec (s := t.stopped room.toNat) stOK [] record plain hy other needed
  exact ⟨y, last ▸ kept, kind, done, index, value⟩

end

/-! ### The obligation -/

/-- Settles O46: each command of the Vault, by its checks in order. -/
theorem vaultCommandsQueueStopAndDelete : Obligations.VaultCommandsQueueStopAndDelete := by
  unfold Obligations.VaultCommandsQueueStopAndDelete
  intro s r room obj tag off a len tally amt o hs
  refine ⟨fun hadm => ⟨fun hl hf => ⟨fun ho ht ha hn hmin hmax hown hadv => ?_, fun out => ?_⟩, vaultWrite_unformed hadm hs⟩,
    fun hadm => ⟨fun hl hf hoff ha hn hmin hmax hown hadv hfind => ?_, vaultRead_unformed hadm hs⟩,
    fun hadm => ⟨vaultDelete_deletes hadm hs, vaultDelete_otherTag hadm hs, vaultDelete_none hadm hs⟩, fun hadm => ?_⟩
  · have hin : s.writeOutside room obj tag a len tally amt = false := writeOutside_eq_false.2 ⟨ho, ht, ⟨ha, hn, hmin, hmax⟩, hown, hadv⟩
    refine ⟨fun same units jobs => ?_, fun hfind hne => vaultWrite_otherTag hadm hs hl hf hin (otherTag_of_found hfind hne),
      fun same full => vaultWrite_full hadm hs hl hf hin (otherTag_of_same same) full⟩
    obtain ⟨n, x, run, record, done, status, result, ⟨reply, objects, c, v, pos, passed⟩, jobs⟩ := vaultWrite_checked hadm hs hl hf hin (otherTag_of_same same) units jobs
    exact ⟨n, x, run, record, done, status, result, reply, objects, c, v, pos, passed, jobs⟩
  · refine vaultWrite_outside hadm hs hl hf (Bool.eq_true_of_not_eq_false fun inside => ?_)
    obtain ⟨-, -, ⟨ha, hn, hmin, hmax⟩, hown, hadv⟩ := writeOutside_eq_false.1 inside
    rcases out with h | h | h | h | h | ⟨h, h'⟩
    · exact h ha
    · exact h hn
    · omega
    · omega
    · rw [hown] at h; exact absurd h (by decide)
    · exact hadv.elim h h'
  · have hin : s.readOutside room off a len tally amt = false := readOutside_eq_false.2 ⟨⟨hoff, ha, hn, hmin, hmax⟩, hown, hadv⟩
    exact ⟨vaultRead_queued hadm hs hl hf hin hfind, vaultRead_otherTag hadm hs hl hf hin hfind, vaultRead_beyond hadm hs hl hf hin hfind⟩
  · obtain ⟨n, x, run, record, done, status, result, reply, objects, jobs⟩ := vaultStop_stops hs hadm
    exact ⟨n, x, run, record, done, status, result, reply, objects, jobs, fun room j => vaultStop_records hs hadm room run⟩

end Sys2Proof.Machine
end

section
/-! SUPPORT. The register banks and the status word of a tile core: reads after writes, and what each write leaves alone (R127, R128, R186). -/

namespace Sys2Proof.Machine

/-! ### The banks (R127, R186) -/

/-- A D register reads the value written to it, and the others read as before. -/
theorem getD_setD (x : Tile) (n m : Nat) (v : W16) : getD (setD x n v) m = if m = n then v else getD x m := by
  cases hb : swSB x.sw <;> simp [getD, setD, hb, Tbl.get_put]

/-- An A register reads the value written to it, and the others read as before. -/
theorem getA_setA (x : Tile) (n m : Nat) (v : W32) : getA (setA x n v) m = if m = n then v else getA x m := by
  cases hb : swSB x.sw <;> simp [getA, setA, hb, Tbl.get_put]

/-- A write on the shadow bank leaves the main bank alone. -/
theorem banks_main_kept {x : Tile} (hb : swSB x.sw = true) (n : Nat) (v : W16) (w : W32) : (setD x n v).d = x.d ∧ (setA x n w).a = x.a := by
  simp [setD, setA, hb]

/-- A write on the main bank leaves the shadow bank alone. -/
theorem banks_shadow_kept {x : Tile} (hb : swSB x.sw = false) (n : Nat) (v : W16) (w : W32) : (setD x n v).sd = x.sd ∧ (setA x n w).sa = x.sa := by
  simp [setD, setA, hb]

@[simp] theorem sw_setD (x : Tile) (n : Nat) (v : W16) : (setD x n v).sw = x.sw := by unfold setD; split <;> rfl
@[simp] theorem sw_setA (x : Tile) (n : Nat) (v : W32) : (setA x n v).sw = x.sw := by unfold setA; split <;> rfl
@[simp] theorem pc_setA (x : Tile) (n : Nat) (v : W32) : (setA x n v).pc = x.pc := by unfold setA; split <;> rfl

/-! ### Halves of an A register (R141) -/

/-- The high half of an A register. -/
theorem high_half (a : W32) : (a >>> 16).setWidth 16 = a.extractLsb' 16 16 := BitVec.setWidth_ushiftRight_eq_extractLsb

/-- The low half of an A register. -/
theorem low_half (a : W32) : a.setWidth 16 = a.extractLsb' 0 16 := BitVec.setWidth_eq_extractLsb' (by decide)

/-- PUTL replaces the low half. -/
theorem setBits_low (a : W32) (v : W16) : BitVec.ofNat 32 (setBits a.toNat 0 16 v.toNat) = a.extractLsb' 16 16 ++ v := by
  apply BitVec.eq_of_toNat_eq
  have := a.isLt
  have := v.isLt
  simp only [setBits, bitsOf, BitVec.toNat_ofNat, BitVec.toNat_append, BitVec.extractLsb'_toNat, Nat.shiftRight_eq_div_pow]
  rw [← Nat.shiftLeft_add_eq_or_of_lt v.isLt, Nat.shiftLeft_eq]
  omega

/-- PUTH replaces the high half. -/
theorem setBits_high (a : W32) (v : W16) : BitVec.ofNat 32 (setBits a.toNat 16 16 v.toNat) = v ++ a.extractLsb' 0 16 := by
  apply BitVec.eq_of_toNat_eq
  have := a.isLt
  have := v.isLt
  simp only [setBits, bitsOf, BitVec.toNat_ofNat, BitVec.toNat_append, BitVec.extractLsb'_toNat, Nat.shiftRight_eq_div_pow]
  rw [← Nat.shiftLeft_add_eq_or_of_lt (Nat.mod_lt _ (by decide)), Nat.shiftLeft_eq]
  omega

end Sys2Proof.Machine
end

section
/-! Moves between registers (R127, R141, R186). -/

namespace Sys2Proof.Machine

/-- Settles O1: each move is an instruction of registers alone, whose destination the laws of the banks give. -/
theorem registerMovesWriteTheirDestination : Obligations.RegisterMovesWriteTheirDestination := by
  unfold Obligations.RegisterMovesWriteTheirDestination
  refine ⟨fun s u t => ⟨fun h => ⟨?_, ?_, ?_, ?_, ?_, ?_, ?_⟩, fun h => ⟨?_, ?_⟩, fun h => ⟨?_, ?_⟩⟩, fun x n m v w => ⟨getD_setD x n m v, getA_setA x n m w,
    fun hb => banks_main_kept hb n v w, fun hb => banks_shadow_kept hb n v w, fun hr => ?_, fun hr => ?_, fun hw => ?_, fun hw => ?_⟩⟩
  · exact retires_reg (f := id) h rfl
  · exact fun x y => retires_reg (f := fun z => setDX z x (getDX z y)) h rfl
  · exact fun x y => retires_reg (f := fun z => setAX z x (getAX z y)) h rfl
  · exact fun x y => retires_reg_eq h rfl (congrArg (setD _ x) (low_half _))
  · exact fun x y => retires_reg_eq h rfl (congrArg (setD _ x) (high_half _))
  · exact fun x y => retires_reg_eq h rfl (congrArg (setA _ x) (setBits_low _ _))
  · exact fun x y => retires_reg_eq h rfl (congrArg (setA _ x) (setBits_high _ _))
  · exact fun x i => retires_reg (f := fun z => setD z x i) h rfl
  · exact fun x y d => retires_reg (f := fun z => setA z x (getA z y + d.signExtend 32)) h rfl
  · exact fun x i => retires_reg (f := fun z => setAX z x i) h rfl
  · exact fun x y d => retires_reg (f := fun z => setA z x (getA z y + d)) h rfl
  · simp [getDX, getAX, hr]
  · simp [getDX, getAX, hr]
  · simp [setDX, setAX, hw]
  · simp [setDX, setAX, hw]

end Sys2Proof.Machine
end

section
/-! SUPPORT. The results and flags of the arithmetic instructions: the operations of the model in terms of sums and products of integers (R140, R143). -/

namespace Sys2Proof.Machine

/-! ### Integers that fit a word -/

/-- A word holds exactly the integers of its signed range. -/
theorem toInt_ofInt_iff {k : Nat} (hk : 0 < k) (n : Int) : (BitVec.ofInt k n).toInt = n ↔ -2 ^ (k - 1) ≤ n ∧ n < 2 ^ (k - 1) :=
  ⟨fun h => h ▸ ⟨BitVec.le_toInt _, BitVec.toInt_lt⟩, fun h => BitVec.toInt_ofInt_eq_self hk h.1 h.2⟩

/-- V of a 16-bit operation: the exact result `n` does not fit in 16 signed bits. -/
theorem overflows16 (n : Int) : decide ((BitVec.ofInt 16 n).toInt ≠ n) = !(decide (-32768 ≤ n) && decide (n ≤ 32767)) := by
  have := toInt_ofInt_iff (k := 16) (by decide) n
  rw [← Bool.decide_and, ← decide_not]
  exact decide_eq_decide.2 (not_congr (this.trans ⟨fun h => ⟨by omega, by omega⟩, fun h => ⟨by omega, by omega⟩⟩))

/-- V of a 32-bit comparison. -/
theorem overflows32 (n : Int) : decide ((BitVec.ofInt 32 n).toInt ≠ n) = !(decide (-2147483648 ≤ n) && decide (n ≤ 2147483647)) := by
  have := toInt_ofInt_iff (k := 32) (by decide) n
  rw [← Bool.decide_and, ← decide_not]
  exact decide_eq_decide.2 (not_congr (this.trans ⟨fun h => ⟨by omega, by omega⟩, fun h => ⟨by omega, by omega⟩⟩))

theorem ofInt_sub (k : Nat) (m n : Int) : BitVec.ofInt k (m - n) = BitVec.ofInt k m - BitVec.ofInt k n := by
  rw [Int.sub_eq_add_neg, BitVec.ofInt_add, BitVec.ofInt_neg, BitVec.sub_eq_add_neg]

theorem bit_eq (c : Bool) : bit c = c.toNat := by cases c <;> rfl

/-! ### Sums and differences (R140) -/

/-- ADD and ADDC: the sum modulo 2^16, with its flags. -/
theorem addFlags_eq (w a b : W16) (c : Bool) : addFlags w a b c = (a + b + BitVec.ofNat 16 c.toNat,
    withZNCV w (a + b + BitVec.ofNat 16 c.toNat = 0) (a + b + BitVec.ofNat 16 c.toNat).msb (65536 ≤ a.toNat + b.toNat + c.toNat)
      (!(decide (-32768 ≤ a.toInt + b.toInt + c.toNat) && decide (a.toInt + b.toInt + c.toNat ≤ 32767)))) := by
  have unsigned : BitVec.ofNat 16 (a.toNat + b.toNat + c.toNat) = a + b + BitVec.ofNat 16 c.toNat := by
    simp only [BitVec.ofNat_add, BitVec.ofNat_toNat, BitVec.setWidth_eq]
  have signed : a + b + BitVec.ofNat 16 c.toNat = BitVec.ofInt 16 (a.toInt + b.toInt + c.toNat) := by
    simp only [BitVec.ofInt_add, BitVec.ofInt_toInt, BitVec.ofInt_natCast]
  unfold addFlags
  simp only [bit_eq, unsigned, setZNCV_eq]
  rw [← overflows16, ← signed]
  rfl

/-- SUB, SUBC, CMP and NEG: the difference modulo 2^16, with its flags. -/
theorem subFlags_eq (w a b : W16) (c : Bool) : subFlags w a b c = (a - b - BitVec.ofNat 16 c.toNat,
    withZNCV w (a - b - BitVec.ofNat 16 c.toNat = 0) (a - b - BitVec.ofNat 16 c.toNat).msb (a.toNat < b.toNat + c.toNat)
      (!(decide (-32768 ≤ a.toInt - b.toInt - c.toNat) && decide (a.toInt - b.toInt - c.toNat ≤ 32767)))) := by
  have unsigned : BitVec.ofInt 16 ((a.toNat : Int) - b.toNat - c.toNat) = a - b - BitVec.ofNat 16 c.toNat := by
    simp only [ofInt_sub, BitVec.ofInt_natCast, BitVec.ofNat_toNat, BitVec.setWidth_eq]
  have signed : a - b - BitVec.ofNat 16 c.toNat = BitVec.ofInt 16 (a.toInt - b.toInt - c.toNat) := by
    simp only [ofInt_sub, BitVec.ofInt_toInt, BitVec.ofInt_natCast]
  unfold subFlags
  simp only [bit_eq, unsigned, setZNCV_eq]
  rw [← overflows16, ← signed]

/-- Without a carry in. -/
theorem addFlags_false (w a b : W16) : addFlags w a b false = (a + b,
    withZNCV w (a + b = 0) (a + b).msb (65536 ≤ a.toNat + b.toNat) (!(decide (-32768 ≤ a.toInt + b.toInt) && decide (a.toInt + b.toInt ≤ 32767)))) := by
  simpa using addFlags_eq w a b false

/-- Without a borrow in. -/
theorem subFlags_false (w a b : W16) : subFlags w a b false = (a - b,
    withZNCV w (a - b = 0) (a - b).msb (a.toNat < b.toNat) (!(decide (-32768 ≤ a.toInt - b.toInt) && decide (a.toInt - b.toInt ≤ 32767)))) := by
  simpa using subFlags_eq w a b false

/-- NEG borrows from 0 unless the operand is 0, and overflows at 0x8000 alone. -/
theorem subFlags_zero (w a : W16) : subFlags w 0 a false = (-a, withZNCV w (a = 0) (-a).msb (a ≠ 0) (a = 0x8000)) := by
  have neg : 0 - a = -a := BitVec.zero_sub a
  have zero : -a = 0 ↔ a = 0 := BitVec.neg_eq_zero_iff
  have borrow : (0 : W16).toNat < a.toNat ↔ a ≠ 0 := by
    rw [Ne, ← BitVec.toNat_inj]
    exact Nat.pos_iff_ne_zero
  have corner : (!(decide (-32768 ≤ (0 : W16).toInt - a.toInt) && decide ((0 : W16).toInt - a.toInt ≤ 32767))) = decide (a = 0x8000) := by
    rw [← Bool.decide_and, ← decide_not, decide_eq_decide, ← BitVec.toInt_inj]
    have low := a.le_toInt
    have high := a.toInt_lt
    show ¬ (-32768 ≤ 0 - a.toInt ∧ 0 - a.toInt ≤ 32767) ↔ a.toInt = -32768
    omega
  rw [subFlags_false, corner, neg, decide_eq_decide.2 zero, decide_eq_decide.2 borrow]

end Sys2Proof.Machine
end

section
/-! Addition and subtraction (R140). -/

namespace Sys2Proof.Machine

variable {s u : State} {t : TileId} {i : Instr}

/-- An instruction Dx ← f(Dx, b) with flags. -/
theorem retires_alu {x : Dn} {b : Src} {f : W16 → W16 → W16 → W16 × W16} {r w : W16} (h : Fetches s t (srcWords b) u) (hi : exec i s = .next (s.aluInstr t x b f))
    (hf : f (u.tile t).sw (getD (u.tile t) x) (srcVal (u.tile t) b) = (r, w)) : Retires s u t i (srcWords b) { setD (u.tile t) x r with sw := w } :=
  retires_reg_eq h hi (by dsimp only; rw [hf])

/-- An instruction of one word that changes Dx and SW from the value of Dy. -/
theorem retires_one {x y : Dn} {f : W16 → W16 → W16 × W16} {r w : W16} (h : Fetches s t 1 u) (hi : exec i s = .next (s.oneInstr t x y f))
    (hf : f (u.tile t).sw (getD (u.tile t) y) = (r, w)) : Retires s u t i 1 { setD (u.tile t) x r with sw := w } :=
  retires_reg_eq h hi (by dsimp only; rw [hf])

/-- Settles O2: each of the six is a sum or a difference with its flags. -/
theorem addAndSubtractSetResultAndFlags : Obligations.AddAndSubtractSetResultAndFlags := by
  unfold Obligations.AddAndSubtractSetResultAndFlags
  intro s u t x
  refine ⟨fun b h => ⟨?_, ?_, ?_, ?_, ?_⟩, fun h => ?_⟩
  · exact retires_alu h rfl (addFlags_false _ _ _)
  · exact retires_alu h rfl (addFlags_eq _ _ _ _)
  · exact retires_alu h rfl (subFlags_false _ _ _)
  · exact retires_alu h rfl (subFlags_eq _ _ _ _)
  · exact retires_reg_eq h rfl (by dsimp only; rw [subFlags_false])
  · exact retires_one h rfl (subFlags_zero _ _)

end Sys2Proof.Machine
end

section
/-! SUPPORT. The results and flags of the logical operations, counts and multiplications (R140, R143). -/

namespace Sys2Proof.Machine

/-! ### Flags set one by one (R140) -/

/-- Z alone. -/
theorem putBit_z (w : W16) (z : Bool) : putBit w 1 z = (w &&& 0xFFFD) ||| (if z then 2 else 0) := by
  apply BitVec.eq_of_getLsbD_eq
  intro i hi
  cases z <;> simp [putBit]
  interval_cases i <;> simp

/-- Z, N and V, as ABS sets them. -/
theorem setZNV_eq (w : W16) (z n v : Bool) : setZNV w z n v = (w &&& 0xFFF1) ||| BitVec.ofNat 16 (2 * z.toNat + 4 * n.toNat + 8 * v.toNat) := by
  apply BitVec.eq_of_getLsbD_eq
  intro i hi
  cases z <;> cases n <;> cases v <;> simp [setZNV, setZN, putBit] <;> interval_cases i <;> simp

/-- Z, N and V with C as it was, as the multiplications set them. -/
theorem setZNV_keeps_carry (w : W16) (z n v : Bool) : setZNV w z n v = withZNCV w z n (swC w) v := by
  have carry : putBit w 0 (swC w) = w := by
    apply BitVec.eq_of_getLsbD_eq
    intro i hi
    cases hc : swC w <;> simp [putBit, swC] at hc ⊢ <;> interval_cases i <;> simp [hc]
  have later (a : W16) (c b : Bool) (k : Nat) (hk : k = 1 ∨ k = 2) : putBit (putBit a k b) 0 c = putBit (putBit a 0 c) k b := by
    apply BitVec.eq_of_getLsbD_eq
    intro i hi
    rcases hk with rfl | rfl <;> cases c <;> cases b <;> simp [putBit] <;> interval_cases i <;> simp
  rw [← setZNCV_eq]
  unfold setZNCV setZNV setZN
  rw [later _ _ _ 2 (.inr rfl), later _ _ _ 1 (.inl rfl), carry]

/-! ### Bytes and counts (R143) -/

/-- BSWAP exchanges the two bytes. -/
theorem rotateLeft_8 (a : W16) : a.rotateLeft 8 = a.extractLsb' 0 8 ++ a.extractLsb' 8 8 := by
  apply BitVec.eq_of_getLsbD_eq
  intro i hi
  rw [BitVec.getLsbD_rotateLeft_of_le (by decide), BitVec.getLsbD_append, BitVec.getLsbD_extractLsb', BitVec.getLsbD_extractLsb']
  by_cases h : i < 8
  · simp [h, Nat.add_comm]
  · simp [h, hi, show i - 8 < 8 by omega]

/-- The leading zeros by the range that the word lies in. -/
theorem leadingZeros_eq {b : W16} {n : Nat} (h : b.toNat = 0 ∧ n = 16 ∨ n < 16 ∧ 2 ^ (15 - n) ≤ b.toNat ∧ b.toNat < 2 ^ (16 - n)) : leadingZeros b = n := by
  have clear {j : Nat} (hj : b.toNat < 2 ^ (15 - j)) : b.getLsbD (15 - j) = false := Nat.testBit_lt_two_pow hj
  have found : (List.range 17).find? (fun n => n = 16 || b.getLsbD (15 - n)) = some n := by
    rw [List.find?_range_eq_some]
    rcases h with ⟨zero, rfl⟩ | ⟨hn, low, high⟩
    · exact ⟨by simp, by simp, fun j hj => by simp [clear (zero ▸ Nat.two_pow_pos (15 - j)), show j ≠ 16 by omega]⟩
    · have top : b.getLsbD (15 - n) = true := by
        have one : b.toNat / 2 ^ (15 - n) = 1 := by
          rw [show 16 - n = (15 - n) + 1 by omega, Nat.pow_succ] at high
          exact Nat.div_eq_of_lt_le (by omega) (by omega)
        show b.toNat.testBit (15 - n) = true
        rw [Nat.testBit_eq_decide_div_mod_eq, one]
        rfl
      refine ⟨by simp [top], by simp; omega, fun j hj => ?_⟩
      simp [clear (high.trans_le (Nat.pow_le_pow_right (by decide) (by omega : 16 - n ≤ 15 - j))), show j ≠ 16 by omega]
  unfold leadingZeros
  rw [found, Option.getD_some]

/-- A count of at most 16 is 0 as a word when it is 0. -/
theorem count_zero_iff {n : Nat} (h : n ≤ 16) : BitVec.ofNat 16 n = 0 ↔ n = 0 := by
  rw [← BitVec.toNat_inj, BitVec.toNat_ofNat, Nat.mod_eq_of_lt (by omega)]
  rfl

/-- The 1 bits of a word, counted. -/
theorem bitList_length (b : W16) : (bitList 16 b.toNat).length = (List.range 16).countP fun i => b.getLsbD i := by
  rw [List.countP_eq_length_filter]
  rfl

/-- A word has no 1 bit when it is 0. -/
theorem ones_zero_iff (b : W16) : ((List.range 16).countP fun i => b.getLsbD i) = 0 ↔ b = 0 := by
  rw [List.countP_eq_zero]
  refine ⟨fun h => BitVec.eq_of_getLsbD_eq fun i hi => ?_, fun h i _ => by simp [h]⟩
  simpa using h i (List.mem_range.2 hi)

/-! ### Absolute values and products (R143) -/

/-- The absolute value of a word but 0x8000: a word that is not negative, and 0 for 0 alone. -/
theorem abs_word {a : W16} (h : a ≠ 0x8000) :
    (if a.msb then -a else a) = BitVec.ofNat 16 a.toInt.natAbs ∧ (BitVec.ofNat 16 a.toInt.natAbs).msb = false ∧ (BitVec.ofNat 16 a.toInt.natAbs = 0 ↔ a = 0) := by
  have low := a.le_toInt
  have high := a.toInt_lt
  have corner : a.toInt ≠ -32768 := fun e => h (BitVec.eq_of_toInt_eq e)
  have small : a.toInt.natAbs < 32768 := by omega
  have value : (BitVec.ofNat 16 a.toInt.natAbs).toNat = a.toInt.natAbs := by rw [BitVec.toNat_ofNat, Nat.mod_eq_of_lt (by omega)]
  refine ⟨?_, ?_, ?_⟩
  · have wrap := a.toInt_eq_msb_cond
    have := a.isLt
    apply BitVec.eq_of_toNat_eq
    rw [value]
    split at wrap
    · rw [if_pos ‹_›, BitVec.toNat_neg]; omega
    · rw [if_neg ‹_›]; omega
  · rw [BitVec.msb_eq_false_iff_two_mul_lt, value]; omega
  · rw [← BitVec.toNat_inj, value, ← BitVec.toInt_inj]
    exact Int.natAbs_eq_zero

/-- MULH takes the high half of the signed product. -/
theorem high_product (p : Int) : ((BitVec.ofInt 32 p) >>> 16).setWidth 16 = BitVec.ofInt 16 (p / 65536) := by
  apply BitVec.eq_of_toNat_eq
  simp only [BitVec.toNat_setWidth, BitVec.toNat_ushiftRight, BitVec.toNat_ofInt, Nat.shiftRight_eq_div_pow]
  omega

end Sys2Proof.Machine
end

section
/-! Logic, counts and multiplications (R140, R143). -/

namespace Sys2Proof.Machine

variable {s u : State} {t : TileId}

/-- CLZ gives the count of leading zeros and sets Z alone. -/
theorem clz_counts (h : Fetches s t 1 u) (x y : Dn) {n : Nat}
    (hn : (getD (u.tile t) y).toNat = 0 ∧ n = 16 ∨ n < 16 ∧ 2 ^ (15 - n) ≤ (getD (u.tile t) y).toNat ∧ (getD (u.tile t) y).toNat < 2 ^ (16 - n)) :
    Retires s u t (.clz t x y) 1 { setD (u.tile t) x (BitVec.ofNat 16 n) with sw := ((u.tile t).sw &&& 0xFFFD) ||| (if n = 0 then 2 else 0) } := by
  refine retires_one h rfl ?_
  dsimp only
  simp only [leadingZeros_eq hn, putBit_z, decide_eq_true_eq, count_zero_iff (show n ≤ 16 by omega)]

/-- POPC gives the count of 1 bits and sets Z alone. -/
theorem popc_counts (h : Fetches s t 1 u) (x y : Dn) :
    Retires s u t (.popc t x y) 1 { setD (u.tile t) x (BitVec.ofNat 16 ((List.range 16).countP fun i => (getD (u.tile t) y).getLsbD i)) with
      sw := ((u.tile t).sw &&& 0xFFFD) ||| (if getD (u.tile t) y = 0 then 2 else 0) } := by
  have count : ((List.range 16).countP fun i => (getD (u.tile t) y).getLsbD i) ≤ 16 := by simpa using List.countP_le_length (l := List.range 16)
  refine retires_one h rfl ?_
  dsimp only
  simp only [bitList_length, putBit_z, decide_eq_true_eq, count_zero_iff count, ones_zero_iff]

/-- ABS of a word but 0x8000. -/
theorem abs_value (h : Fetches s t 1 u) (x : Dn) (ha : getD (u.tile t) x ≠ 0x8000) :
    Retires s u t (.abs t x) 1 { setD (u.tile t) x (BitVec.ofNat 16 (getD (u.tile t) x).toInt.natAbs) with
      sw := ((u.tile t).sw &&& 0xFFF1) ||| (if getD (u.tile t) x = 0 then 2 else 0) } := by
  obtain ⟨value, sign, zero⟩ := abs_word ha
  refine retires_one h rfl ?_
  dsimp only
  rw [if_neg ha, value, sign, setZNV_eq]
  by_cases hz : getD (u.tile t) x = 0
  · rw [if_pos hz, decide_eq_true (zero.2 hz)]; rfl
  · rw [if_neg hz, decide_eq_false (mt zero.1 hz)]; rfl

/-- ABS of 0x8000 saturates. -/
theorem abs_corner (h : Fetches s t 1 u) (x : Dn) (ha : getD (u.tile t) x = 0x8000) :
    Retires s u t (.abs t x) 1 { setD (u.tile t) x 0x7FFF with sw := ((u.tile t).sw &&& 0xFFF1) ||| 0x18 } := by
  refine retires_one h rfl ?_
  dsimp only
  rw [if_pos ha, setZNV_eq]
  exact congrArg (Prod.mk _) (BitVec.or_assoc _ _ _)

/-- A multiplication sets Z, N and V and keeps C. -/
theorem retires_mul {i : Instr} {x y : Dn} {f : W16 → W16 → W16 × Bool} {r : W16} {v : Bool} (h : Fetches s t 1 u) (hi : exec i s = .next (s.mulInstr t x y f))
    (hf : f (getD (u.tile t) x) (getD (u.tile t) y) = (r, v)) :
    Retires s u t i 1 { setD (u.tile t) x r with sw := withZNCV (u.tile t).sw (r = 0) r.msb (swC (u.tile t).sw) v } :=
  retires_reg_eq h hi (by dsimp only; rw [hf, setZNV_keeps_carry])

/-- The low half of a signed product, with V where the product does not fit. -/
theorem mul_signed (a b : W16) : (BitVec.ofInt 16 (a.toInt * b.toInt), decide ((BitVec.ofInt 16 (a.toInt * b.toInt)).toInt ≠ a.toInt * b.toInt)) =
    (a * b, !(decide (-32768 ≤ a.toInt * b.toInt) && decide (a.toInt * b.toInt ≤ 32767))) := by
  rw [overflows16, BitVec.ofInt_mul, BitVec.ofInt_toInt, BitVec.ofInt_toInt]

/-- The low half of an unsigned product. -/
theorem mul_unsigned (a b : W16) : BitVec.ofNat 16 (a.toNat * b.toNat) = a * b := by
  rw [BitVec.ofNat_mul, BitVec.ofNat_toNat, BitVec.ofNat_toNat, BitVec.setWidth_eq, BitVec.setWidth_eq]

/-- Settles O3: the logical operations set Z and N as `withZN` does, the counts Z alone, and the products Z, N and V. -/
theorem logicCountsAndMultipliesSetTheirFlags : Obligations.LogicCountsAndMultipliesSetTheirFlags := by
  unfold Obligations.LogicCountsAndMultipliesSetTheirFlags
  refine ⟨fun s u t => ⟨fun x b h => ⟨?_, ?_, ?_⟩, fun h x y => ⟨?_, ?_, fun n => clz_counts h x y, popc_counts h x y, abs_value h x, abs_corner h x⟩⟩,
    fun s u t x y h => ⟨?_, ?_, ?_, ?_⟩⟩
  · exact retires_alu h rfl (congrArg (Prod.mk _) (znOf_eq _ _))
  · exact retires_alu h rfl (congrArg (Prod.mk _) (znOf_eq _ _))
  · exact retires_alu h rfl (congrArg (Prod.mk _) (znOf_eq _ _))
  · exact retires_one h rfl (congrArg (Prod.mk _) (znOf_eq _ _))
  · exact retires_one h rfl (by dsimp only; rw [rotateLeft_8, znOf_eq])
  · exact retires_mul h rfl (mul_signed _ _)
  · exact retires_mul h rfl (congrArg (·, _) (mul_unsigned _ _))
  · exact retires_mul h rfl (congrArg (·, false) (high_product _))
  · exact retires_mul h rfl rfl

end Sys2Proof.Machine
end

section
/-! Shifts and rotates (R144). -/

namespace Sys2Proof.Machine

variable {s u : State} {t : TileId}

/-! ### Results (R144) -/

theorem shl_value (a : W16) (k : Nat) : a <<< k = BitVec.ofNat 16 (a.toNat * 2 ^ k) := by
  apply BitVec.eq_of_toNat_eq
  rw [BitVec.toNat_shiftLeft, Nat.shiftLeft_eq, BitVec.toNat_ofNat]

theorem shr_value (a : W16) (k : Nat) : a >>> k = BitVec.ofNat 16 (a.toNat / 2 ^ k) := by
  apply BitVec.eq_of_toNat_eq
  rw [BitVec.toNat_ushiftRight, Nat.shiftRight_eq_div_pow, BitVec.toNat_ofNat, Nat.mod_eq_of_lt ((Nat.div_le_self _ _).trans_lt a.isLt)]

theorem sar_value (a : W16) (k : Nat) : a.sshiftRight k = BitVec.ofInt 16 (a.toInt / 2 ^ k) := by
  rw [BitVec.sshiftRight, Int.shiftRight_eq_div_pow]
  rfl

/-- A rotate moves the bits shifted out to the bottom of the word. -/
theorem rol_value (a : W16) {k : Nat} (hk : k < 16) : a.rotateLeft k = BitVec.ofNat 16 (a.toNat * 2 ^ k + a.toNat / 2 ^ (16 - k)) := by
  have whole : 2 ^ (16 - k) * 2 ^ k = 2 ^ 16 := by rw [← Nat.pow_add]; congr 1; omega
  have kept : a.toNat * 2 ^ k % 2 ^ 16 = a.toNat % 2 ^ (16 - k) * 2 ^ k := by rw [← whole, Nat.mul_mod_mul_right]
  have out : a.toNat / 2 ^ (16 - k) < 2 ^ k := Nat.div_lt_of_lt_mul (whole ▸ a.isLt)
  have fits : a.toNat % 2 ^ (16 - k) * 2 ^ k + a.toNat / 2 ^ (16 - k) < 2 ^ 16 := by
    have below : a.toNat % 2 ^ (16 - k) + 1 ≤ 2 ^ (16 - k) := Nat.mod_lt _ (Nat.two_pow_pos _)
    calc a.toNat % 2 ^ (16 - k) * 2 ^ k + a.toNat / 2 ^ (16 - k) < (a.toNat % 2 ^ (16 - k) + 1) * 2 ^ k := by rw [Nat.succ_mul]; omega
      _ ≤ 2 ^ 16 := whole ▸ Nat.mul_le_mul_right _ below
  apply BitVec.eq_of_toNat_eq
  rw [BitVec.toNat_rotateLeft, Nat.mod_eq_of_lt hk, Nat.shiftLeft_eq, kept, ← Nat.shiftLeft_eq, Nat.shiftRight_eq_div_pow, ← Nat.shiftLeft_add_eq_or_of_lt out, Nat.shiftLeft_eq,
    BitVec.toNat_ofNat, Nat.add_mod, kept, Nat.mod_eq_of_lt (out.trans_le (Nat.pow_le_pow_right (by decide) hk.le)), Nat.mod_eq_of_lt fits]

/-! ### Flags (R144) -/

/-- C alone. -/
theorem putBit_c (w : W16) (c : Bool) : putBit w 0 c = (w &&& 0xFFFE) ||| BitVec.ofNat 16 c.toNat := by
  apply BitVec.eq_of_getLsbD_eq
  intro i hi
  cases c <;> simp [putBit]
  interval_cases i <;> simp

theorem shiftVal_lt (x : Tile) (n : ShiftBy) : shiftVal x n < 16 := by
  cases n with
  | reg y => exact Nat.mod_lt _ (by decide)
  | imm k => exact k.isLt

/-- A shift by `k` to the result `r` with `c` the last bit out. -/
theorem retires_shift {i : Instr} {x : Dn} {n : ShiftBy} {op k : Nat} {r : W16} {c : Bool} (h : Fetches s t 1 u) (hk : shiftVal (u.tile t) n = k)
    (hi : exec i s = .next (s.shiftInstr t x n op)) (hf : shiftBy op (getD (u.tile t) x) k = (r, c)) :
    Retires s u t i 1 { setD (u.tile t) x r with
      sw := if k = 0 then withZN (u.tile t).sw r else (withZN (u.tile t).sw r &&& 0xFFFE) ||| BitVec.ofNat 16 c.toNat } :=
  retires_reg_eq h hi (by dsimp only; rw [hk, hf, znOf_eq, putBit_c])

/-- Settles O4: each shift gives its result and the last bit out, and the flags follow. -/
theorem shiftsSetCarryToTheLastBitOut : Obligations.ShiftsSetCarryToTheLastBitOut := by
  unfold Obligations.ShiftsSetCarryToTheLastBitOut
  intro s u t x n h a k
  have hk : shiftVal (u.tile t) n = k := by cases n <;> rfl
  refine ⟨?_, ?_, ?_, ?_⟩
  · exact retires_shift h hk rfl (congrArg (·, _) (shl_value _ k))
  · exact retires_shift h hk rfl (congrArg (·, _) (shr_value _ k))
  · exact retires_shift h hk rfl (congrArg (·, _) (sar_value _ k))
  · exact retires_shift (op := 3) h hk rfl (congrArg (·, _) (rol_value _ (hk ▸ shiftVal_lt _ n)))

end Sys2Proof.Machine
end

section
/-! Address arithmetic and bit fields (R134, R143, R145). -/

namespace Sys2Proof.Machine

variable {s u : State} {t : TileId}

/-- An instruction that raises a fault whatever it would do otherwise. -/
theorem faults_instr {i : Instr} {words c a : Nat} (h : Fetches s t words u) (hi : exec i s = .next (s.faultInstr t words c a)) : Faults s u t i c a :=
  exec_faults_body h hi rfl

/-- The flags of a 32-bit comparison. -/
theorem cmpaFlags_eq (w : W16) (a b : W32) : cmpaFlags w a b = withZNCV w (a = b) (a - b).msb (a.toNat < b.toNat)
    (!(decide (-2147483648 ≤ a.toInt - b.toInt) && decide (a.toInt - b.toInt ≤ 2147483647))) := by
  have signed : a - b = BitVec.ofInt 32 (a.toInt - b.toInt) := by rw [ofInt_sub, BitVec.ofInt_toInt, BitVec.ofInt_toInt]
  have zero : a - b = 0 ↔ a = b := sub_eq_zero
  unfold cmpaFlags
  rw [setZNCV_eq, ← overflows32, ← signed]
  exact congrArg (withZNCV w · _ _ _) (decide_eq_decide.2 zero)

/-! ### Fields (R145) -/

/-- A field of a word, as a number. -/
theorem bitsOf_toNat {n : Nat} (a : BitVec n) (lo k : Nat) : bitsOf a.toNat lo k = (a.extractLsb' lo k).toNat := by
  rw [BitVec.extractLsb'_toNat, Nat.shiftRight_eq_div_pow]
  rfl

/-- A field is 0 as a number when it is 0. -/
theorem bitsOf_zero_iff {n : Nat} (a : BitVec n) (lo k : Nat) : bitsOf a.toNat lo k = 0 ↔ a.extractLsb' lo k = 0 := by
  rw [bitsOf_toNat, ← BitVec.toNat_inj]
  rfl

/-- A reserved bit of the specifier is set where bits 11:10 are not 0. -/
theorem fieldSpecBad_iff (spec : W16) : fieldSpecBad spec = true ↔ spec.extractLsb' 10 2 ≠ 0 := by
  unfold fieldSpecBad
  rw [decide_eq_true_iff, Ne, bitsOf_zero_iff]

/-- A field of `k` bits with its sign bit set, as a word. -/
theorem sign_extended (f : Nat) {k : Nat} (hk : k ≤ 16) : BitVec.ofNat 16 (f + (2 ^ 16 - 2 ^ k)) = BitVec.ofInt 16 ((f : Int) - 2 ^ k) := by
  have small : 2 ^ k ≤ 2 ^ 16 := Nat.pow_le_pow_right (by decide) hk
  have cast : (2 : Int) ^ k = (2 ^ k : Nat) := by norm_cast
  apply BitVec.eq_of_toNat_eq
  rw [BitVec.toNat_ofNat, BitVec.toNat_ofInt, cast]
  generalize 2 ^ k = m at small
  omega

/-- EXT's field of `k` bits at `p`, sign-extended on demand. -/
theorem extractField_eq (b : W16) {k : Nat} (hk : k ≤ 16) (p : Nat) (sgn : Bool) : extractField b k p sgn =
    if sgn && (b.toNat / 2 ^ p % 2 ^ k).testBit (k - 1) then BitVec.ofInt 16 (((b.toNat / 2 ^ p % 2 ^ k : Nat) : Int) - 2 ^ k)
    else BitVec.ofNat 16 (b.toNat / 2 ^ p % 2 ^ k) := by
  unfold extractField
  rw [← sign_extended _ hk]

section
variable {x y : Dn} {spec : W16} {k p : Nat} (h : Fetches s t 2 u) (hk : (spec.extractLsb' 4 4).toNat + 1 = k)
  (hp : (if spec.getLsbD 9 then (getD (u.tile t) (spec.extractLsb' 12 4).toNat).toNat % 16 else (spec.extractLsb' 0 4).toNat) = p)
include h

theorem ext_reserved (hr : spec.extractLsb' 10 2 ≠ 0) : Faults s u t (.ext t x y spec) 1 0 :=
  faults_instr h (congrArg Host.Outcome.next (if_pos ((fieldSpecBad_iff spec).2 hr)))

theorem ins_reserved (hr : spec.extractLsb' 10 2 ≠ 0 ∨ spec.getLsbD 8 = true) : Faults s u t (.ins t x y spec) 1 0 :=
  faults_instr h (congrArg Host.Outcome.next (if_pos (Bool.or_eq_true_iff.2 (hr.imp_left (fieldSpecBad_iff spec).2))))

include hk hp

omit h in
/-- The width and the position that a specifier gives. -/
theorem fieldSpec_eq : fieldSpec (u.tile t) spec = (k, p) := by
  unfold fieldSpec
  simp only [bitsOf_toNat]
  rw [hk, hp]

/-- EXT of a specifier without reserved bits. -/
theorem ext_extracts (hr : spec.extractLsb' 10 2 = 0) {r : W16} (hv : extractField (getD (u.tile t) y) k p (spec.getLsbD 8) = r) :
    Retires s u t (.ext t x y spec) 2 { setD (u.tile t) x r with sw := withZN (u.tile t).sw r } :=
  retires_reg_eq h (congrArg Host.Outcome.next (if_neg fun hb => (fieldSpecBad_iff spec).1 hb hr)) (by dsimp only; rw [fieldSpec_eq hk hp, hv, znOf_eq])

/-- INS of a specifier without reserved bits and with S 0. -/
theorem ins_inserts (hr : spec.extractLsb' 10 2 = 0) (hs : spec.getLsbD 8 = false) {r : W16} (hv : insertField (getD (u.tile t) x) (getD (u.tile t) y) k p = r) :
    Retires s u t (.ins t x y spec) 2 { setD (u.tile t) x r with sw := withZN (u.tile t).sw r } :=
  retires_reg_eq h (congrArg Host.Outcome.next (if_neg fun hb => (Bool.or_eq_true_iff.1 hb).elim (fun e => (fieldSpecBad_iff spec).1 e hr) (by rw [hs]; decide)))
    (by dsimp only; rw [fieldSpec_eq hk hp, hv, znOf_eq])

end

/-- Settles O5: additions to an A register and the comparison act on it whole, and the bit fields by whether a reserved bit is set. -/
theorem addressArithmeticAndBitFields : Obligations.AddressArithmeticAndBitFields := by
  unfold Obligations.AddressArithmeticAndBitFields
  intro s u t
  refine ⟨fun h => ⟨fun x y => ?_, fun x y => ?_⟩, fun h => ⟨fun x d => ?_, fun x y spec => ⟨fun hr => ?_, ext_reserved h, fun hr hs => ?_, ins_reserved h⟩⟩, fun h x d => ?_⟩
  · exact retires_reg (f := fun z => setA z x (getA z x + (getD z y).signExtend 32)) h rfl
  · exact retires_reg_eq h rfl (by dsimp only; rw [cmpaFlags_eq])
  · exact retires_reg (f := fun z => setA z x (getA z x + d.signExtend 32)) h rfl
  · exact ext_extracts h rfl rfl hr (extractField_eq _ (spec.extractLsb' 4 4).isLt _ _)
  · exact ins_inserts h rfl rfl hr hs rfl
  · exact retires_reg (f := fun z => setA z x (getA z x + d)) h rfl

end Sys2Proof.Machine
end

section
/-! SUPPORT. The accumulators: sums modulo 2^40, clamped sums, and their conversion to a word (R146 to R148). -/

namespace Sys2Proof.Machine

/-- SV alone. -/
theorem putBit_sv (w : W16) : putBit w 5 true = w ||| 0x20 := rfl
/-- SAT alone. -/
theorem putBit_sat (w : W16) : putBit w 4 true = w ||| 0x10 := rfl

/-- An accumulator wraps, and SV records that the exact sum left the range (R147). -/
theorem accWrap_eq (z : Tile) (n : Nat) (v : Int) :
    accWrap z n v = { setAcc z n (BitVec.ofInt 40 v) with sw := if -(2 ^ 39) ≤ v ∧ v < 2 ^ 39 then z.sw else z.sw ||| 0x20 } := by
  have fits : (BitVec.ofInt 40 v).toInt = v ↔ -(2 ^ 39) ≤ v ∧ v < 2 ^ 39 := toInt_ofInt_iff (by decide) v
  unfold accWrap
  by_cases h : -(2 ^ 39) ≤ v ∧ v < 2 ^ 39
  · rw [if_pos h, if_pos (fits.2 h)]; rfl
  · rw [if_neg h, if_neg (mt fits.1 h)]; rfl

/-- An accumulator is clamped, and SAT records it (R147). -/
theorem accClamp_eq (z : Tile) (n : Nat) (v : Int) : accClamp z n v =
    if v < -(2 ^ 39) then { setAcc z n 0x8000000000 with sw := z.sw ||| 0x10 }
    else if 2 ^ 39 ≤ v then { setAcc z n 0x7FFFFFFFFF with sw := z.sw ||| 0x10 } else setAcc z n (BitVec.ofInt 40 v) := by
  have above : (2 ^ 39 - 1 < v) ↔ 2 ^ 39 ≤ v := by omega
  unfold accClamp
  simp only [above]
  rfl

/-- The reserved bits of RDACC's specifier are 0. -/
theorem rdacc_reserved_iff (spec : W16) : spec &&& 0xFCC0 = 0 ↔ bitsOf spec.toNat 6 2 = 0 ∧ bitsOf spec.toNat 10 6 = 0 := by
  rw [bitsOf_zero_iff, bitsOf_zero_iff]
  constructor
  · intro h
    have bits (i : Nat) : (spec &&& 0xFCC0).getLsbD i = false := by rw [h]; simp
    constructor <;> (apply BitVec.eq_of_getLsbD_eq; intro i hi)
    · have := bits (6 + i); interval_cases i <;> simpa [hi] using this
    · have := bits (10 + i); interval_cases i <;> simpa [hi] using this
  · rintro ⟨low, high⟩
    have lows (i : Nat) (hi : i < 2) : spec.getLsbD (6 + i) = false := by simpa [hi] using congrArg (BitVec.getLsbD · i) low
    have highs (i : Nat) (hi : i < 6) : spec.getLsbD (10 + i) = false := by simpa [hi] using congrArg (BitVec.getLsbD · i) high
    apply BitVec.eq_of_getLsbD_eq
    intro i hi
    by_cases h6 : 6 ≤ i ∧ i < 8
    · have := lows (i - 6) (by omega); rw [show 6 + (i - 6) = i by omega] at this; simp [this]
    · by_cases h10 : 10 ≤ i
      · have := highs (i - 10) (by omega); rw [show 10 + (i - 10) = i by omega] at this; simp [this]
      · interval_cases i <;> simp_all

end Sys2Proof.Machine
end

section
/-! Accumulators (R146 to R148). -/

namespace Sys2Proof.Machine

variable {s u : State} {t : TileId}

section
variable {x : Dn} {n : Accn} {spec : W16} {sh : Nat} {v : Int} (h : Fetches s t 2 u) (hs : (spec.extractLsb' 0 6).toNat = sh)
  (hv : (if spec.getLsbD 9 = true ∧ 0 < sh then (getAcc (u.tile t) n).toInt + 2 ^ (sh - 1) else (getAcc (u.tile t) n).toInt) / 2 ^ sh = v)
include h hs

/-- RDACC with a reserved bit set, or a shift beyond 39. -/
theorem rdacc_reserved (hr : 39 < sh ∨ spec &&& 0xFCC0 ≠ 0) : Faults s u t (.rdacc t x n spec) 1 0 := by
  refine faults_instr h (congrArg Host.Outcome.next (if_pos ?_))
  rw [bitsOf_toNat, hs]
  rw [Ne, rdacc_reserved_iff] at hr
  simp only [Bool.or_eq_true, decide_eq_true_iff]
  tauto

omit h hs in
include hv in
/-- The conversion of RDACC, by whether it saturates. -/
theorem rdaccValue_eq : rdaccValue (getAcc (u.tile t) n).toInt sh (spec.getLsbD 8) (spec.getLsbD 9) =
    if spec.getLsbD 8 = true ∧ 32767 < v then (0x7FFF, true) else if spec.getLsbD 8 = true ∧ v < -32768 then (0x8000, true) else (BitVec.ofInt 16 v, false) := by
  subst hv
  unfold rdaccValue
  simp only [Bool.and_eq_true, decide_eq_true_iff]

/-- RDACC without reserved bits takes its conversion. -/
theorem rdacc_converts (hl : sh ≤ 39) (hr : spec &&& 0xFCC0 = 0) {r : W16} {sat : Bool} (hc : rdaccValue (getAcc (u.tile t) n).toInt sh (spec.getLsbD 8) (spec.getLsbD 9) = (r, sat)) :
    Retires s u t (.rdacc t x n spec) 2 (if sat then { setD (u.tile t) x r with sw := (u.tile t).sw ||| 0x10 } else setD (u.tile t) x r) := by
  obtain ⟨low, high⟩ := (rdacc_reserved_iff spec).1 hr
  refine retires_reg_eq h (congrArg Host.Outcome.next (if_neg ?_)) ?_
  · rw [bitsOf_toNat, hs]
    simp only [Bool.or_eq_true, decide_eq_true_iff]
    omega
  · dsimp only
    rw [bitsOf_toNat, hs, hc]
    dsimp only
    rw [sw_setD, putBit_sat]

end

/-- Settles O6: sums wrap with SV, and RDACC converts by whether its specifier is reserved and its value saturates. -/
theorem accumulatorsHoldExactSumsModulo40Bits : Obligations.AccumulatorsHoldExactSumsModulo40Bits := by
  unfold Obligations.AccumulatorsHoldExactSumsModulo40Bits
  intro s u t
  refine ⟨fun h => ⟨fun n x y => ?_, fun n m => ?_, fun n => ?_, fun n y => ?_⟩, fun h x n spec => ⟨fun hl hr => ⟨fun hc => ?_, fun h8 hc => ?_, fun h8 hc => ?_⟩, rdacc_reserved h rfl⟩⟩
  · exact retires_reg_eq h rfl (accWrap_eq _ _ _)
  · exact retires_reg_eq h rfl (accWrap_eq _ _ _)
  · exact retires_reg (f := fun z => setAcc z n 0) h rfl
  · exact retires_reg (f := fun z => setAcc z n ((getD z y).signExtend 40)) h rfl
  · refine rdacc_converts h rfl hl hr (sat := false) ?_
    rw [rdaccValue_eq rfl, if_neg fun e => ?_, if_neg fun e => ?_]
    · exact hc.elim (fun f => by rw [f] at e; cases e.1) fun b => by have := e.2; omega
    · exact hc.elim (fun f => by rw [f] at e; cases e.1) fun b => by have := e.2; omega
  · refine rdacc_converts h rfl hl hr (sat := true) ?_
    rw [rdaccValue_eq rfl]
    exact if_pos ⟨h8, hc⟩
  · refine rdacc_converts h rfl hl hr (sat := true) ?_
    rw [rdaccValue_eq rfl, if_neg (by omega)]
    exact if_pos ⟨h8, hc⟩

end Sys2Proof.Machine
end

section
/-! Loads (R135, R136, R141, R146, R150). -/

namespace Sys2Proof.Machine

variable {s u v : State} {t : TileId}

/-- A load of a word answers the first word. -/
theorem State.load16_ok {k : Acc} {a : Nat} {l : List W16} (h : u.load t k a 1 = .ok l v) : u.load16 t k a = .ok (l.getD 0 0) v := by
  unfold State.load16
  rw [h]
  rfl

/-- A load of a 32-bit value joins two words, low word first. -/
theorem State.load32_ok {k : Acc} {a : Nat} {l : List W16} (h : u.load t k a 2 = .ok l v) : u.load32 t k a = .ok (l.getD 1 0 ++ l.getD 0 0) v := by
  unfold State.load32
  rw [h]
  rfl

/-- LD in any mode (R135): the loaded word is written last. -/
theorem ld_loads {m : Mode} {l : List W16} (x : Dn) {y : An} (h : Fetches s t (modeWords m) u) (hl : u.load t .ldst (effAddr (u.tile t) y 1 m).toNat 1 = .ok l v) :
    Retires s v t (.ld t x y m) (modeWords m) (setD (modeUpdate (v.tile t) y 1 m) x (l.getD 0 0)) :=
  retires_finish (f := fun z => setD (modeUpdate z y 1 m) x (l.getD 0 0)) h rfl (congrArg (Mem.andThen · _) (State.load16_ok hl)) rfl

/-- LDA in any mode (R135, R136): the loaded value is written last. -/
theorem lda_loads {m : Mode} {l : List W16} (x : An) {y : An} (h : Fetches s t (modeWords m) u) (hl : u.load t .ldst (effAddr (u.tile t) y 2 m).toNat 2 = .ok l v) :
    Retires s v t (.lda t x y m) (modeWords m) (setA (modeUpdate (v.tile t) y 2 m) x (l.getD 1 0 ++ l.getD 0 0)) :=
  retires_finish (f := fun z => setA (modeUpdate z y 2 m) x (l.getD 1 0 ++ l.getD 0 0)) h rfl (congrArg (Mem.andThen · _) (State.load32_ok hl)) rfl

/-- Settles O7: each load by its mode, and the fault of its access. -/
theorem loadsWriteTheValueRead : Obligations.LoadsWriteTheValueRead := by
  unfold Obligations.LoadsWriteTheValueRead
  intro s u v t l y
  refine ⟨fun h => ⟨fun x hl => ⟨?_, ?_⟩, fun x hl => ?_, fun x hl => ⟨?_, ?_⟩, fun x hl => ?_, fun x hl => ?_, fun x hl => ?_, fun n hl => ?_, fun x c w hl => ?_⟩,
    fun h d => ⟨fun x hl => ?_, fun x hl => ?_⟩⟩
  · exact ld_loads (m := .ind) x h hl
  · exact ld_loads (m := .postInc) x h hl
  · exact ld_loads (m := .preDec) x h hl
  · exact lda_loads (m := .ind) x h hl
  · exact lda_loads (m := .postInc) x h hl
  · exact lda_loads (m := .preDec) x h hl
  · exact retires_finish (f := fun z => setD (setA z 7 (getA z 7 + 1)) x (l.getD 0 0)) h rfl (congrArg (Mem.andThen · _) (State.load16_ok hl)) rfl
  · exact retires_finish (f := fun z => setA (setA z 7 (getA z 7 + 2)) x (l.getD 1 0 ++ l.getD 0 0)) h rfl (congrArg (Mem.andThen · _) (State.load32_ok hl)) rfl
  · exact retires_load (f := fun l z => setAcc z n ((l.getD 2 0).setWidth 8 ++ l.getD 1 0 ++ l.getD 0 0)) h rfl hl
      (congrArg (fun b : BitVec 8 => setAcc _ n (b ++ _ ++ _)) (BitVec.setWidth_eq_extractLsb' (by decide)))
  · exact exec_faults_body h rfl (congrArg (fun m => (Mem.andThen m _).andThen _) hl)
  · exact ld_loads (m := .disp d) x h hl
  · exact lda_loads (m := .disp d) x h hl

end Sys2Proof.Machine
end

section
/-! Stores (R135, R136, R141, R146, R150, R151, R155, R156). -/

namespace Sys2Proof.Machine

variable {s u v : State} {t : TileId}

/-! ### Words of a value -/

/-- The words of a 32-bit value. -/
theorem words32_eq (a : W32) : words32 a = [a.extractLsb' 0 16, a.extractLsb' 16 16] := by
  rw [← low_half, ← high_half]
  rfl

theorem word64_eq (a : W64) (i : Nat) : word64 a i = a.extractLsb' (16 * i) 16 := by
  unfold word64
  rw [← Nat.shiftRight_eq_div_pow]
  rfl

/-- The words of a 64-bit value. -/
theorem words64_eq (a : W64) : words64 a = [a.extractLsb' 0 16, a.extractLsb' 16 16, a.extractLsb' 32 16, a.extractLsb' 48 16] := by
  unfold words64
  simp only [funext (word64_eq a)]
  rfl

/-- The words of an accumulator, the last sign-extended. -/
theorem accWords_eq (a : BitVec 40) : accWords a = [a.extractLsb' 0 16, a.extractLsb' 16 16, (a.extractLsb' 32 8).signExtend 16] := by
  unfold accWords
  rw [BitVec.setWidth_eq_extractLsb' (by decide), BitVec.setWidth_ushiftRight_eq_extractLsb, BitVec.setWidth_ushiftRight_eq_extractLsb]

/-! ### Stores by mode -/

section
variable (hb : BufferTakes u t v)
include hb

/-- ST in any mode (R135). -/
theorem st_stores {m : Mode} (x : Dn) {y : An} (h : Fetches s t (modeWords m) u) (hf : u.storeFault t .ldst (effAddr (u.tile t) y 1 m).toNat 1 = none) :
    Retires s v t (.st t x y m) (modeWords m) (modeUpdate (buffered (v.tile t) (effAddr (u.tile t) y 1 m) [getD (u.tile t) x]) y 1 m) :=
  retires_store (a := fun s => effAddr (s.tile t) y 1 m) (ws := fun s => [getD (s.tile t) x]) (f := fun z => modeUpdate z y 1 m) h hb rfl hf rfl

/-- STA in any mode (R135, R136): the value stored is the register before the update. -/
theorem sta_stores {m : Mode} (x : An) {y : An} (h : Fetches s t (modeWords m) u) (hf : u.storeFault t .ldst (effAddr (u.tile t) y 2 m).toNat 2 = none) :
    Retires s v t (.sta t x y m) (modeWords m)
      (modeUpdate (buffered (v.tile t) (effAddr (u.tile t) y 2 m) [(getA (u.tile t) x).extractLsb' 0 16, (getA (u.tile t) x).extractLsb' 16 16]) y 2 m) :=
  retires_store (a := fun s => effAddr (s.tile t) y 2 m) (ws := fun s => words32 (getA (s.tile t) x)) (f := fun z => modeUpdate z y 2 m) h hb rfl hf (by rw [words32_eq])

/-- Words pushed below A7 take one entry, and A7 takes its address (R141, R150). -/
theorem pushWords_ok {ws : List W16} {a : W32} (ha : getA (u.tile t) 7 - BitVec.ofNat 32 ws.length = a) (hf : u.storeFault t .other a.toNat ws.length = none) :
    u.pushWords t ws = .ok () ((v.modTile t fun x => buffered x a ws).modTile t fun z => setA z 7 a) := by
  unfold State.pushWords
  dsimp only
  rw [ha, store_ok hb hf]
  rfl

omit hb in
/-- A push changes the tile as its entry and A7 say. -/
theorem OnlyTile.pushed (a : W32) (ws : List W16) : OnlyTile v ((v.modTile t fun x => buffered x a ws).modTile t fun z => setA z 7 a) t (setA (buffered (v.tile t) a ws) 7 a) :=
  (OnlyTile.modTile v t _).andThen _

/-- An instruction that pushes words, and does nothing else. -/
theorem retires_push {i : Instr} {words : Nat} {ws : State → List W16} {l : List W16} {a : W32} (h : Fetches s t words u)
    (hi : exec i s = .next (s.runInstr t words fun s => (s.pushWords t (ws s)).andThen fun _ s => s.finish t words id)) (hl : ws u = l)
    (ha : getA (u.tile t) 7 - BitVec.ofNat 32 l.length = a) (hf : u.storeFault t .other a.toNat l.length = none) :
    Retires s v t i words (setA (buffered (v.tile t) a l) 7 a) := by
  subst hl
  refine retires_body h hi ?_ ((OnlyTile.pushed a (ws u)).andThen id)
  rw [pushWords_ok hb ha hf]
  simp [Mem.andThen, State.finish, pcNext, buffered]

/-- TRD stores the tally of a number that the room owns (R155). -/
theorem trd_stores {x : Dn} {y : An} {l : List W16} (h : Fetches s t 1 u) (hf : u.storeFault t .other (getA (u.tile t) y).toNat 4 = none)
    (ho : u.tileOwnsTally t (getD (u.tile t) x).toNat = true) (hl : words64 (u.tally (getD (u.tile t) x).toNat) = l) :
    Retires s v t (.trd t x y) 1 (buffered (v.tile t) (getA (u.tile t) y) l) := by
  subst hl
  refine retires_body h rfl ?_ ((OnlyTile.modTile v t fun z => buffered z (getA (u.tile t) y) (words64 (u.tally (getD (u.tile t) x).toNat))).andThen id)
  dsimp only
  rw [hf]
  dsimp only
  rw [ho, store_ok hb hf]
  simp [Mem.andThen, State.finish, pcNext, buffered]

end

/-- Settles O8: each store places its words at its address, and the address register follows its mode. -/
theorem storesPlaceOneEntryInTheStoreBuffer : Obligations.StoresPlaceOneEntryInTheStoreBuffer := by
  unfold Obligations.StoresPlaceOneEntryInTheStoreBuffer
  intro s u v t y hb
  refine ⟨fun h => ⟨fun x hf => ⟨?_, ?_⟩, fun x hf => ?_, fun x hf => ⟨?_, ?_⟩, fun x hf => ?_, fun x hf => ?_, fun x hf => ?_, fun n hf => ?_, fun hf => ?_, fun x hf ho => ?_⟩,
    fun h e => ⟨fun x hf => ?_, fun x hf => ?_⟩⟩
  · exact st_stores (m := .ind) hb x h hf
  · exact st_stores (m := .postInc) hb x h hf
  · exact st_stores (m := .preDec) hb x h hf
  · exact sta_stores (m := .ind) hb x h hf
  · exact sta_stores (m := .postInc) hb x h hf
  · exact sta_stores (m := .preDec) hb x h hf
  · exact retires_push hb h rfl rfl rfl hf
  · exact retires_push hb h rfl (words32_eq _) rfl hf
  · exact retires_store (a := fun s => getA (s.tile t) y) (ws := fun s => accWords (getAcc (s.tile t) n)) (f := id) h hb rfl hf (by rw [accWords_eq]; rfl)
  · exact retires_store (a := fun s => getA (s.tile t) y) (ws := fun s => words64 s.clk.pos) (f := id) h hb rfl hf (by rw [words64_eq]; rfl)
  · exact trd_stores hb h hf ho (words64_eq _)
  · exact st_stores (m := .disp e) hb x h hf
  · exact sta_stores (m := .disp e) hb x h hf

end Sys2Proof.Machine
end

section
/-! SUPPORT. Event counts: what an occurrence of an event leaves alone (R166 to R168). -/

namespace Sys2Proof

open Machine

/-- The tile `y` with the instruction cache and the event counts of `x`. -/
def withCounts (x y : Tile) : Tile :=
  { y with icLine := x.icLine, icPtr := x.icPtr, perf := { y.perf with cnt := x.perf.cnt, ovf := x.perf.ovf }, priv := { y.priv with irqPend := x.priv.irqPend } }

theorem sameButCounts_iff {x y : Tile} : SameButCounts x y ↔ withCounts x y = x := Iff.rfl

theorem withCounts_withCounts (x y z : Tile) : withCounts x (withCounts y z) = withCounts x z := rfl

theorem SameButCounts.refl (x : Tile) : SameButCounts x x := rfl

theorem SameButCounts.trans {x y z : Tile} (h : SameButCounts x y) (k : SameButCounts y z) : SameButCounts x z := by
  rw [sameButCounts_iff] at h k ⊢
  rw [← withCounts_withCounts x y z, k, h]

/-- An occurrence of an event changes the counters, their overflow bits and line 0 alone. -/
theorem SameButCounts.perfCount (code : Nat) (sup : Bool) (x : Tile) : SameButCounts x (perfCount code sup x) := by
  unfold Machine.perfCount
  split
  · unfold forN
    apply foldl_keeps (SameButCounts x) _ _ _ (.refl x)
    intro y n hy
    refine hy.trans ?_
    beta_reduce
    split
    · dsimp only
      split <;> rfl
    · rfl
  · exact .refl x

theorem SameButCounts.pc {x y : Tile} (h : SameButCounts x y) : y.pc = x.pc := (congrArg Tile.pc h :)
theorem SameButCounts.sw {x y : Tile} (h : SameButCounts x y) : y.sw = x.sw := (congrArg Tile.sw h :)

end Sys2Proof
end

section
/-! The dual-fetch MAC (R146, R147). -/

namespace Sys2Proof.Machine

variable {s u v w : State} {t : TileId} {i j : An} {f : Tile → W16 → W16 → Tile} {c : Instr} (h : Fetches s t 1 u) (hc : exec c s = .next (s.macInstr t i j f))
include h hc

/-- A MAC with one pointer twice. -/
theorem mac_same_pointer (hij : i = j) : Faults s u t c 1 0 :=
  faults_instr h (hc.trans (congrArg Host.Outcome.next (if_pos hij)))

variable (hij : i ≠ j)
include hij

/-- A MAC whose checks fail. -/
theorem mac_refused {k a : Nat} (hf : u.macFault t (getA (u.tile t) i).toNat (getA (u.tile t) j).toNat = some (k, a)) : Faults s u t c k a := by
  refine exec_faults_body h (hc.trans (congrArg Host.Outcome.next (if_neg hij))) ?_
  dsimp only
  rw [hf]

/-- A MAC whose operands are loaded: the new accumulator, and each pointer by 1. -/
theorem mac_steps {p q : Nat} {la lb : List W16} {z : Tile} (hp : (getA (u.tile t) i).toNat = p) (hq : (getA (u.tile t) j).toNat = q) (hf : u.macFault t p q = none)
    (ha : u.loadWords t p 1 = .ok la v) (hb : v.loadWords t q 1 = .ok lb w)
    (hz : (if p / 32 % 24 = q / 32 % 24 then perfCount 13 (swS (w.tile t).sw) (w.tile t) else w.tile t) = z) {y : Tile} (hy : f z (la.getD 0 0) (lb.getD 0 0) = y) :
    Retires s w t c 1 (setA (setA y i (getA y i + 1)) j (getA y j + 1)) := by
  subst hy
  obtain ⟨m, hm, only⟩ : ∃ m, (if sameBank p q then w.modTile t fun z => perfCount 13 (swS z.sw) z else w) = m ∧ OnlyTile w m t z := by
    refine ⟨_, rfl, ?_⟩
    subst hz
    unfold sameBank
    by_cases e : p / 32 % 24 = q / 32 % 24
    · rw [if_pos e, if_pos (decide_eq_true e)]; exact OnlyTile.modTile w t fun z => perfCount 13 (swS z.sw) z
    · rw [if_neg e, if_neg (by simpa using e)]; exact OnlyTile.refl w t
  have pc : z.pc = (w.tile t).pc := by
    subst hz
    split
    · exact (SameButCounts.perfCount _ _ _).pc
    · rfl
  refine retires_body h (hc.trans (congrArg Host.Outcome.next (if_neg hij))) ?_
    (only.andThen fun z => setA (setA (f z (la.getD 0 0) (lb.getD 0 0)) i (getA (f z (la.getD 0 0) (lb.getD 0 0)) i + 1)) j (getA (f z (la.getD 0 0) (lb.getD 0 0)) j + 1))
  dsimp only
  rw [hp, hq, hf]
  dsimp only
  rw [ha]
  dsimp only [Mem.andThen]
  rw [hb]
  dsimp only
  rw [hm, State.finish, pcNext, only.1, pc]

end Sys2Proof.Machine
end

section
/-! MAC, MACS, MSU and MACU (R146, R147). -/

namespace Sys2Proof.Machine

/-- Settles O10: each form by its sum, with both operands loaded, refused, or named by one pointer. -/
theorem multiplyAccumulateReadsTwoScratchpadWords : Obligations.MultiplyAccumulateReadsTwoScratchpadWords := by
  unfold Obligations.MultiplyAccumulateReadsTwoScratchpadWords
  intro s u v w t n i j la lb h
  refine ⟨fun hij => ⟨fun hf ha hb => ⟨?_, ?_, ?_, ?_⟩, fun c x hf => ?_⟩, fun hij => ?_⟩
  · exact mac_steps h rfl hij rfl rfl hf ha hb rfl (accWrap_eq _ _ _)
  · exact mac_steps h rfl hij rfl rfl hf ha hb rfl (accWrap_eq _ _ _)
  · exact mac_steps h rfl hij rfl rfl hf ha hb rfl (accWrap_eq _ _ _)
  · exact mac_steps h rfl hij rfl rfl hf ha hb rfl (accClamp_eq _ _ _)
  · exact ⟨mac_refused h rfl hij hf, mac_refused h rfl hij hf, mac_refused h rfl hij hf, mac_refused h rfl hij hf⟩
  · exact ⟨mac_same_pointer h rfl hij, mac_same_pointer h rfl hij, mac_same_pointer h rfl hij, mac_same_pointer h rfl hij⟩

end Sys2Proof.Machine
end

section
/-! Branches, calls and returns (R138, R149, R150, R162, R163). -/

namespace Sys2Proof.Machine

variable {s u v : State} {t : TileId} {i : Instr} {words : Nat}

/-! ### Conditional branches (R138, R162, R163) -/

/-- The state that a branch at `next` leaves behind: event 3 is counted; a misprediction counts event 4 and leaves a wrong path, at the target of a branch predicted taken and at `next` otherwise. -/
def State.branched (u : State) (t : Nat) (taken neg : Bool) (target next : Nat) : State :=
  if taken == neg then u.modTile t fun z => perfCount 3 (swS z.sw) z
  else ((u.modTile t fun z => perfCount 3 (swS z.sw) z).modTile t fun z => perfCount 4 (swS z.sw) z).wrongPath t (if neg then target else next)

/-- A branch goes to its target or past itself. -/
theorem State.branch_eq (u : State) (t words : Nat) (taken neg : Bool) (d : W32) : u.branch t words taken neg d =
    .ok (some (if taken then pcNext (u.tile t) words + d else pcNext (u.tile t) words)) (u.branched t taken neg (pcNext (u.tile t) words + d).toNat (pcNext (u.tile t) words).toNat) := by
  unfold State.branch State.branched
  dsimp only
  by_cases h : taken = neg
  · rw [if_pos h, if_pos (beq_iff_eq.2 h)]
  · rw [if_neg h, if_neg (mt beq_iff_eq.1 h)]

/-- The code 15 alone has no condition. -/
theorem condHolds_eq (w : W16) {cc : Fin 16} (h : cc ≠ 15) : condHolds w cc = some ((conditions w).getD cc false) := by
  unfold condHolds conditions swC swZ swN swV
  generalize w.getLsbD 0 = c, w.getLsbD 1 = z, w.getLsbD 2 = n, w.getLsbD 3 = o
  revert c z n o cc
  decide

section
variable {cc : Fin 16} {d : W32} {neg : Bool} (h : Fetches s t words u)
  (hi : exec i s = .next (s.runInstr t words fun s => match condHolds (s.tile t).sw cc with | none => .fault 1 0 s | some c => s.branch t words c neg d))
include h hi

/-- A branch on a condition. -/
theorem branch_retires {c : Bool} {next : W32} (hc : (conditions (u.tile t).sw).getD cc false = c) (hn : (u.tile t).pc + BitVec.ofNat 32 words = next) (hcc : cc ≠ 15) :
    RetiresTo s (u.branched t c neg (next + d).toNat next.toNat) t i ((u.branched t c neg (next + d).toNat next.toNat).tile t) (if c then next + d else next) := by
  subst hn
  refine retires_body h hi ?_ (OnlyTile.refl _ t)
  rw [condHolds_eq _ hcc, hc]
  exact State.branch_eq u t words c neg d

/-- A branch on the reserved code. -/
theorem branch_reserved (hcc : cc = 15) : Faults s u t i 1 0 := by
  subst hcc
  exact exec_faults_body h hi rfl

end

/-- LOOP lowers its counter and branches while it is not 0. -/
theorem loop_retires (h : Fetches s t 2 u) {r : Dn} {d : W16} {c : Bool} {next : W32} {w : State} {x : Tile} (hc : decide (getD (u.tile t) r - 1 ≠ 0) = c)
    (hn : (u.tile t).pc + BitVec.ofNat 32 2 = next) (hw : (u.modTile t fun z => setD z r (getD (u.tile t) r - 1)).branched t c d.msb (next + d.signExtend 32).toNat next.toNat = w)
    (only : OnlyTile v w t x) : RetiresTo s v t (.loop t r d) x (if getD (u.tile t) r - 1 ≠ 0 then next + d.signExtend 32 else next) := by
  have after : pcNext ((u.modTile t fun z => setD z r (getD (u.tile t) r - 1)).tile t) 2 = next := by rw [State.tile_modTile, pcNext, pc_setD, hn]
  refine retires_body h rfl ?_ only
  dsimp only
  rw [State.branch_eq, after, hc, hw, ← hc]
  simp only [decide_eq_true_eq]

/-! ### Calls (R149, R150) -/

/-- CALL pushes the address of the next instruction, and then goes to its target. -/
theorem call_retires (h : Fetches s t words u) (hb : BufferTakes u t v) {target : State → State → W32} {a next : W32} {x : Tile} {pc : W32}
    (hi : exec i s = .next (s.runInstr t words fun s => (s.pushWords t (words32 (pcNext (s.tile t) words))).andThen fun _ n => .ok (some (target s n)) n))
    (hn : (u.tile t).pc + BitVec.ofNat 32 words = next) (ha : getA (u.tile t) 7 - 2 = a) (hf : u.storeFault t .other a.toNat 2 = none)
    (hx : setA (buffered (v.tile t) a [next.extractLsb' 0 16, next.extractLsb' 16 16]) 7 a = x) (ht : ∀ n : State, n.tile t = x → target u n = pc) : RetiresTo s v t i x pc := by
  subst hx
  have pushed : OnlyTile v _ t _ := OnlyTile.pushed a [next.extractLsb' 0 16, next.extractLsb' 16 16]
  refine retires_body h hi ?_ pushed
  rw [pcNext, hn, words32_eq, pushWords_ok (ws := [next.extractLsb' 0 16, next.extractLsb' 16 16]) hb ha hf]
  exact congrArg (fun p => Mem.ok (some p) _) (ht _ pushed.1)

/-- Settles O11: each by where it goes. -/
theorem branchesAndCallsSetThePc : Obligations.BranchesAndCallsSetThePc := by
  unfold Obligations.BranchesAndCallsSetThePc
  intro s u v t
  refine ⟨fun h cc d => ⟨?_, ?_⟩, fun h cc d => ⟨?_, ?_⟩, fun h r d => ⟨fun hit => ?_, fun miss => ?_⟩, fun h y => ?_, fun h a => ?_, fun hb hf => ⟨fun h y => ?_, fun h d => ?_⟩, fun h l hl => ?_⟩
  · exact branch_retires h rfl rfl rfl
  · exact branch_reserved h rfl
  · exact branch_retires h rfl rfl rfl
  · exact branch_reserved h rfl
  · refine loop_retires h rfl rfl (if_pos (beq_iff_eq.2 hit)) ?_
    exact (OnlyTile.modTile u t fun z => setD z r (getD (u.tile t) r - 1)).andThen fun z => perfCount 3 (swS z.sw) z
  · exact loop_retires h rfl rfl (if_neg (mt beq_iff_eq.1 miss)) (OnlyTile.refl _ t)
  · exact retires_body h rfl rfl (OnlyTile.refl u t)
  · exact retires_body h rfl rfl (OnlyTile.refl u t)
  · exact call_retires (target := fun _ n => getA (n.tile t) y) h hb rfl rfl rfl hf rfl fun n hn => congrArg (getA · y) hn
  · exact call_retires (target := fun s _ => pcNext (s.tile t) 3 + d) h hb rfl rfl rfl hf rfl fun n hn => rfl
  · exact retires_body h rfl (congrArg (Mem.andThen · _) (State.load32_ok hl)) (OnlyTile.modTile v t fun z => setA z 7 (getA z 7 + 2))

end Sys2Proof.Machine
end

section
/-! The status word and the core registers (R128, R151, R165, R172, R175). -/

namespace Sys2Proof.Machine

variable {s u : State} {t : TileId}

/-! ### Status word (R128) -/

/-- MTSW writes bits 5:0, and MASK at supervisor level. -/
theorem mtsw_eq (w v : W16) : mtsw w v = if w.getLsbD 15 then (w &&& 0x8FC0) ||| (v &&& 0x703F) else (w &&& 0xFFC0) ||| (v &&& 0x003F) := by
  unfold mtsw swS
  cases w.getLsbD 15 <;> rfl

/-! ### Core registers (R165, R172) -/

section
variable {x y : Dn} {cr : Fin 64} (h : Fetches s t 2 u)
include h

/-- MFCR of a register that the level may read. -/
theorem mfcr_reads (he : crExists cr = true) (hr : swS (u.tile t).sw = true ∨ crTaskRead (u.tile t) cr = true) :
    Retires s (u.crRead t cr).2 t (.mfcr t x cr) 2 (setD ((u.crRead t cr).2.tile t) x (u.crRead t cr).1) := by
  refine retires_finish (f := fun z => setD z x (u.crRead t cr).1) h rfl ?_ rfl
  dsimp only
  rw [if_neg (by simp [he]), if_neg (by rcases hr with e | e <;> simp [e])]

/-- MFCR of a reserved number. -/
theorem mfcr_reserved (he : crExists cr = false) : Faults s u t (.mfcr t x cr) 1 0 := by
  refine exec_faults_body h rfl ?_
  dsimp only
  rw [if_pos (by simp [he])]

/-- MFCR of a register that task level may not read. -/
theorem mfcr_privileged (he : crExists cr = true) (hs : swS (u.tile t).sw = false) (hr : crTaskRead (u.tile t) cr = false) : Faults s u t (.mfcr t x cr) 2 cr := by
  refine exec_faults_body h rfl ?_
  dsimp only
  rw [if_neg (by simp [he]), if_pos (by simp [hs, hr])]

variable {k : Nat} {i : Instr} (hi : exec i s = .next (s.mtcr t k y))
include hi

/-- MTCR and TAKE at supervisor level. -/
theorem mtcr_writes {w : State} (he : crExists k = true) (hs : swS (u.tile t).sw = true) (hw : u.crWrite t k (getD (u.tile t) y) = w) : Retires s w t i 2 (w.tile t) := by
  refine retires_finish (f := id) h hi ?_ rfl
  rw [if_neg (by simp [he]), if_neg (by simp [hs]), hw]

/-- MTCR of a reserved number. -/
theorem mtcr_reserved (he : crExists k = false) : Faults s u t i 1 0 := by
  refine exec_faults_body h hi ?_
  rw [if_pos (by simp [he])]

/-- MTCR and TAKE at task level. -/
theorem mtcr_privileged (he : crExists k = true) (hs : swS (u.tile t).sw = false) : Faults s u t i 2 k := by
  refine exec_faults_body h hi ?_
  rw [if_neg (by simp [he]), if_pos (by simp [hs])]

end

/-- A 1 in bit 1 of LAUNCH_CTL takes the pending launch (R175). -/
theorem crWritePriv_launch (p : Priv) (a : W16) : crWritePriv p 0x3C a = { p with launchPend := p.launchPend && !a.getLsbD 1 } := by
  show (if a.getLsbD 1 then { p with launchPend := false } else p) = _
  cases a.getLsbD 1 <;> simp

/-- LAUNCH_CTL with the pending launch taken where bit 1 of `a` is 1. -/
def takeLaunch (a : W16) (z : Tile) : Tile := { z with priv := { z.priv with launchPend := z.priv.launchPend && !a.getLsbD 1 } }

/-- A write of LAUNCH_CTL changes PEND alone. -/
theorem State.crWrite_launch (u : State) (t : Nat) (a : W16) : u.crWrite t 0x3C a = u.modTile t (takeLaunch a) := by
  show u.modTile t (fun z => { z with priv := crWritePriv z.priv 0x3C a }) = _
  simp only [crWritePriv_launch]
  rfl

/-- TAKE at supervisor level changes LAUNCH_CTL.PEND alone. -/
theorem take_clears {y : Dn} (h : Fetches s t 2 u) (hs : swS (u.tile t).sw = true) : Retires s u t (.take t y) 2 (takeLaunch (getD (u.tile t) y) (u.tile t)) := by
  refine retires_body h rfl ?_ ((OnlyTile.modTile u t (takeLaunch (getD (u.tile t) y))).andThen id)
  rw [if_neg (by decide), if_neg (by simp [hs]), State.crWrite_launch, State.finish, pcNext, State.tile_modTile]
  rfl

/-- The low half of a 32-bit core register. -/
theorem putHalf_low (a : W32) (v : W16) : putHalf a 0 v = a.extractLsb' 16 16 ++ v := setBits_low a v
/-- The high half of a 32-bit core register. -/
theorem putHalf_high (a : W32) (v : W16) : putHalf a 1 v = v ++ a.extractLsb' 0 16 := setBits_high a v

/-- Settles O15: each move by whether the register exists and the level may reach it. -/
theorem statusAndCoreRegistersReadAndWrite : Obligations.StatusAndCoreRegistersReadAndWrite := by
  unfold Obligations.StatusAndCoreRegistersReadAndWrite
  intro s u t x y
  refine ⟨fun h => ⟨?_, ?_⟩, fun h cr => ⟨mfcr_reads h, fun he hs => ?_, fun he => ⟨mfcr_reserved h he, ?_⟩, fun he hs => ⟨?_, mfcr_privileged h he hs⟩, take_clears h, fun hs => ?_⟩, rfl, fun p a => ?_⟩
  · exact retires_reg (f := fun z => setD z x z.sw) h rfl
  · exact retires_reg_eq h rfl (congrArg (fun w => { u.tile t with sw := w }) (mtsw_eq _ _))
  · exact mtcr_writes h rfl he hs rfl
  · exact mtcr_reserved h rfl he
  · exact mtcr_privileged h rfl he hs
  · exact mtcr_privileged h rfl rfl hs
  · exact ⟨putHalf_low _ _, putHalf_high _ _, putHalf_low _ _, putHalf_high _ _, putHalf_low _ _, putHalf_high _ _, rfl⟩

end Sys2Proof.Machine
end

section
/-! SUPPORT. Words of memory: loads from good granules, and the bytes that a store leaves (R130, R142, R158, R248). -/

namespace Sys2Proof.Machine

variable {s : State}

/-- A granule whose syndrome is 0 is good. -/
theorem readSynd_zero : readSynd 0 = .good := rfl

/-! ### Reads (R142) -/

/-- Granules that all read well from one state give their bytes in order. -/
theorem readVia_fold {rd : State → Nat → Option (List Byte) × State} {f : Nat → List Byte} (h : ∀ g, rd s g = (some (f g), s)) (gs : List Nat) (l : List Byte) :
    gs.foldl (fun ((acc : List Byte ⊕ Nat), s) g => match acc with
      | .inr e => (.inr e, s)
      | .inl l => match rd s g with
        | (some d, s) => (.inl (l ++ d), s)
        | (none, s) => (.inr (8 * g), s)) (.inl l, s) = (.inl (l ++ gs.flatMap f), s) := by
  induction gs generalizing l with
  | nil => rw [List.flatMap_nil, List.append_nil]; rfl
  | cons g gs ih =>
    rw [List.foldl_cons, List.flatMap_cons, ← List.append_assoc, ← ih]
    simp only [h]

/-- The bytes read through good granules are those stored, and nothing changes. -/
theorem readVia_good (h : ∀ g, s.syndAt g = 0) (off n : Nat) : readVia (fun s g => s.readGran g) s off n = (.inl (s.bytesAt off n), s) := by
  have good (g : Nat) : s.readGran g = (some (s.bytesAt (8 * g) 8), s) := s.readGran_good g (by rw [h]; rfl)
  unfold readVia
  have folded := readVia_fold good (granules off n) []
  rw [List.nil_append] at folded
  erw [folded]
  dsimp only
  congr 2
  unfold granules
  split
  · subst n; rfl
  · rw [bytesAt_flatMap, bytesAt_drop_take _ _ _ _ _ (by omega), show 8 * (off / 8) + off % 8 = off by omega]

/-- Words are read low byte first (R130). -/
theorem bytesWords_bytesAt (s : State) (a n : Nat) : bytesWords (s.bytesAt a (2 * n)) = (List.range n).map fun i => s.byteAt (a + 2 * i + 1) ++ s.byteAt (a + 2 * i) := by
  induction n generalizing a with
  | zero => rfl
  | succ n ih =>
    rw [show 2 * (n + 1) = 2 + 2 * n by omega, ← bytesAt_append, List.range_succ_eq_map, List.map_cons, List.map_map]
    show (s.byteAt (a + 1) ++ s.byteAt a) :: bytesWords (s.bytesAt (a + 2) (2 * n)) = _
    rw [ih]
    exact congrArg _ (List.map_congr_left fun i _ => by simp only [Function.comp_apply]; congr 2 <;> omega)

/-! ### Writes (R158) -/

/-- A write to a good granule stores its bytes. -/
theorem State.writeGran_good (h : ∀ g, s.syndAt g = 0) {g o : Nat} {l : List Byte} (ho : l.length = 8 → o = 0) : s.writeGran g o l = (true, (s.putBytes (8 * g + o) l).setSynd g 0) := by
  unfold State.writeGran
  split
  · rw [ho ‹_›]; rfl
  · rw [s.readGran_good g (by rw [h]; rfl)]

/-- Good granules stay good where one more is written. -/
theorem State.syndAt_written (h : ∀ g, s.syndAt g = 0) (a g : Nat) (l : List Byte) (k : Nat) : ((s.putBytes a l).setSynd g 0).syndAt k = 0 := by
  by_cases hk : k = g
  · subst hk; exact State.syndAt_setSynd _ _ _
  · rw [State.syndAt_setSynd_ne _ _ hk, State.syndAt, State.putBytes_synd]
    exact h k

/-- The bytes of a write are those of its first piece, and then those of the rest. -/
theorem pieces_byteAt {n u : State} {a m : Nat} {bs : List Byte}
    (hu : ∀ b, u.byteAt b = if a ≤ b ∧ b < a + (bs.take m).length then (bs.take m).getD (b - a) 0 else s.byteAt b)
    (hn : ∀ b, n.byteAt b = if a + m ≤ b ∧ b < a + m + (bs.drop m).length then (bs.drop m).getD (b - (a + m)) 0 else u.byteAt b) (b : Nat) :
    n.byteAt b = if a ≤ b ∧ b < a + bs.length then bs.getD (b - a) 0 else s.byteAt b := by
  rw [hn, hu, List.length_take, List.length_drop]
  simp only [List.getD_eq_getElem?_getD, List.getElem?_drop, List.getElem?_take]
  by_cases hb : a ≤ b ∧ b < a + bs.length
  · rw [if_pos hb]
    by_cases later : a + m ≤ b
    · rw [if_pos (by omega), show m + (b - (a + m)) = b - a by omega]
    · rw [if_neg (by omega), if_pos (by omega), if_pos (by omega)]
  · rw [if_neg hb, if_neg (by omega), if_neg (by omega)]

/-- Bytes stored piece by piece over good granules: each is in its place, and nothing but memory and its check bits changes. -/
theorem writePieces_good (fuel : Nat) {bs : List Byte} (hf : bs.length ≤ fuel) (a : Nat) (k : Bool) (h : ∀ g, s.syndAt g = 0) :
    ∃ n, (granPieces fuel a bs).foldl (fun (ok, s) (g, o, c) => let (k, s) := State.writeGran s g o c; (ok && k, s)) (k, s) = (k, n) ∧
      { n with mem := s.mem, synd := s.synd } = s ∧ ∀ b, n.byteAt b = if a ≤ b ∧ b < a + bs.length then bs.getD (b - a) 0 else s.byteAt b := by
  induction fuel generalizing s a bs with
  | zero =>
    obtain rfl : bs = [] := List.length_eq_zero_iff.1 (by omega)
    exact ⟨s, rfl, rfl, fun b => (if_neg (by simp)).symm⟩
  | succ fuel ih =>
    by_cases he : bs = []
    · subst he
      exact ⟨s, rfl, rfl, fun b => (if_neg (by simp)).symm⟩
    · have rest : (bs.drop (8 - a % 8)).length ≤ fuel := by rw [List.length_drop]; omega
      have first := State.writeGran_good h (g := a / 8) (o := a % 8) (l := bs.take (8 - a % 8)) (by rw [List.length_take]; omega)
      rw [show 8 * (a / 8) + a % 8 = a by omega] at first
      obtain ⟨n, run, frame, bytes⟩ := ih rest (a + (8 - a % 8)) (State.syndAt_written h a (a / 8) (bs.take (8 - a % 8)))
      refine ⟨n, ?_, ?_, pieces_byteAt (fun b => State.byteAt_putBytes (bs.take (8 - a % 8)) s a b) bytes⟩
      · rw [granPieces, if_neg (by simpa using he), List.foldl_cons]
        dsimp only
        rw [first, Bool.and_true]
        exact run
      · have same := congrArg (fun u : State => { u with mem := s.mem, synd := s.synd }) frame
        refine same.trans ?_
        rw [State.putBytes_eq]
        rfl

/-- A write over good granules. -/
theorem State.writeMem_good (h : ∀ g, s.syndAt g = 0) (a : Nat) (bs : List Byte) : ∃ n, s.writeMem a bs = (true, n) ∧ { n with mem := s.mem, synd := s.synd } = s ∧
    ∀ b, n.byteAt b = if a ≤ b ∧ b < a + bs.length then bs.getD (b - a) 0 else s.byteAt b :=
  writePieces_good bs.length le_rfl a true h

/-! ### The bytes of words (R130) -/

theorem wordBytes_eq (w : W16) : wordBytes w = [w.extractLsb' 0 8, w.extractLsb' 8 8] := by
  have low : BitVec.ofNat 8 w.toNat = w.extractLsb' 0 8 := rfl
  have high : BitVec.ofNat 8 (w.toNat / 256) = w.extractLsb' 8 8 := congrArg (BitVec.ofNat 8) (Nat.shiftRight_eq_div_pow _ 8).symm
  rw [← low, ← high]
  rfl

theorem length_wordsBytes (ws : List W16) : (ws.flatMap wordBytes).length = 2 * ws.length := by
  induction ws with
  | nil => rfl
  | cons w ws ih => rw [List.flatMap_cons, List.length_append, ih, wordBytes_eq, List.length_cons]; simp; omega

/-- Word `i` has its low byte at `2 i` and its high byte after it. -/
theorem wordsBytes_getD (ws : List W16) (i : Nat) (hi : i < ws.length) :
    (ws.flatMap wordBytes).getD (2 * i) 0 = ws[i].extractLsb' 0 8 ∧ (ws.flatMap wordBytes).getD (2 * i + 1) 0 = ws[i].extractLsb' 8 8 := by
  induction ws generalizing i with
  | nil => exact absurd hi (Nat.not_lt_zero _)
  | cons w ws ih =>
    rw [List.flatMap_cons, wordBytes_eq]
    cases i with
    | zero => exact ⟨rfl, rfl⟩
    | succ i => exact ih i (Nat.lt_of_succ_lt_succ hi)

end Sys2Proof.Machine
end

section
/-! Loads from the scratchpad, and stores that drain to it (R130, R131, R157, R158, R248). -/

namespace Sys2Proof.Machine

variable {s : State} {t : TileId}

/-! ### Checks of a scratchpad access (R131, R170) -/

section
variable {a n : Nat} (hu : s.usable t ≤ 1024) (hw : a + n ≤ s.usable t * 768)
include hu hw

/-- A word of the usable scratchpad lies in its region. -/
theorem State.tileRegion_scratch {w : Nat} (ha : w < a + n) : s.tileRegion t w = some (.scratch w) := by
  unfold State.tileRegion
  dsimp only
  rw [if_pos (by omega), if_pos (by omega)]

variable (hn : 0 < n)
include hn

/-- Words of the usable scratchpad lie in one region, which every access reaches. -/
theorem State.firstOutside_scratch (k : Acc) : s.firstOutside t k a n = none := by
  unfold State.firstOutside
  rw [State.tileRegion_scratch hu hw (by omega)]
  have reaches : accReaches k (.scratch a) = true := by cases k <;> rfl
  dsimp only
  rw [reaches, if_neg (by decide), List.find?_eq_none]
  intro w hm
  obtain ⟨i, hi, rfl⟩ := List.mem_map.1 hm
  rw [State.tileRegion_scratch hu hw (by have := List.mem_range.1 hi; omega)]
  exact Bool.false_ne_true

/-- An access to the usable scratchpad at supervisor level, or outside the supervisor area, passes its checks. -/
theorem State.accessFault_scratch (hl : swS (s.tile t).sw = true ∨ (s.tile t).priv.supBlocks.toNat * 32 ≤ a) (k : Acc) : s.accessFault t k a n = none := by
  unfold State.accessFault
  rw [State.firstOutside_scratch hu hw hn, State.tileRegion_scratch hu hw (by omega)]
  dsimp only
  rcases hl with level | above
  · rw [if_neg (by simp [level])]
  · split
    · rw [Option.map_eq_none_iff, List.find?_eq_none]
      intro w hm
      obtain ⟨i, -, rfl⟩ := List.mem_map.1 hm
      unfold State.inSup supWords
      simp only [Bool.and_eq_true, decide_eq_true_iff]
      omega
    · rfl

end

/-! ### Loads (R157) -/

/-- Where no entry satisfies `p` there is no youngest one. -/
theorem youngest_none {p : SbEntry → Bool} {l : List SbEntry} (h : ∀ e ∈ l, p e = false) : youngest p l = 0 := by
  have fold (i : Nat) : (l.foldl (fun ((i : Nat), m) e => (i + 1, if p e then i + 1 else m)) (i, 0)).2 = 0 := by
    induction l generalizing i with
    | nil => rfl
    | cons e l ih =>
      rw [List.foldl_cons]
      dsimp only
      rw [h e (by simp), if_neg (by decide)]
      exact ih (fun e he => h e (by simp [he])) (i + 1)
  exact fold 0

section
variable {a n : Nat} (hr : s.tileRegion t a = some (.scratch a))
include hr

/-- A load that no entry overlaps reads memory. -/
theorem State.loadWords_memory (h : ∀ g, s.syndAt g = 0) (ho : ∀ e ∈ (s.tile t).sb, sbOverlaps e a n = false) :
    s.loadWords t a n = .ok ((List.range n).map fun i => s.byteAt (scratchBase t + 2 * (a + i) + 1) ++ s.byteAt (scratchBase t + 2 * (a + i))) s := by
  unfold State.loadWords
  rw [hr]
  dsimp only
  rw [if_neg (by decide), youngest_none ho, if_pos rfl]
  dsimp only
  unfold State.readWords
  rw [hr]
  dsimp only
  unfold loadVia
  rw [readVia_good h]
  dsimp only
  rw [bytesWords_bytesAt]
  simp only [Nat.mul_add, Nat.add_assoc]

/-- A load that the only entry contains takes its words, and event 10 counts it. -/
theorem State.loadWords_forwarded {e : SbEntry} (hs : (s.tile t).sb = [e]) (ho : sbOverlaps e a n = true) (hc : sbContains e a n = true) :
    s.loadWords t a n = .ok ((e.words.drop (a - e.addr.toNat)).take n) (s.modTile t fun x => perfCount 10 (swS x.sw) x) := by
  have first : youngest (fun e => sbOverlaps e a n) [e] = 1 := if_pos ho
  unfold State.loadWords
  rw [hr, hs]
  dsimp only
  rw [if_neg (by decide), first, if_neg (by decide)]
  rw [Nat.sub_self, List.getElem?_cons_zero]
  dsimp only
  rw [if_pos hc]

end

/-- A load from outside every region faults with its word. -/
theorem State.load_outside {k : Acc} {a n : Nat} (hr : s.tileRegion t a = none) : s.load t k a n = .fault 3 (a % 2 ^ 32) s := by
  have outside : s.firstOutside t k a n = some a := by unfold State.firstOutside; rw [hr]
  unfold State.load State.accessFault
  rw [outside, hr]

/-! ### STORE_DRAIN (R158) -/

/-- The oldest entry drains to the scratchpad: its words are stored there, and nothing else changes but the buffer. -/
theorem storeDrain_scratch (h : ∀ g, s.syndAt g = 0) {e : SbEntry} {rest : List SbEntry} {w : Nat} (hs : (s.tile t).sb = e :: rest) (hr : s.tileRegion t e.addr.toNat = some (.scratch w)) :
    ∃ n, exec (.storeDrain t) s = .next n ∧ { n with mem := s.mem, synd := s.synd } = s.modTile t (fun x => { x with sb := rest }) ∧
      ∀ b, n.byteAt b = if scratchBase t + 2 * w ≤ b ∧ b < scratchBase t + 2 * w + 2 * e.words.length then (e.words.flatMap wordBytes).getD (b - (scratchBase t + 2 * w)) 0 else s.byteAt b := by
  obtain ⟨n, run, frame, bytes⟩ := State.writeMem_good (s := s.modTile t fun x => { x with sb := rest }) h (scratchBase t + 2 * w) (e.words.flatMap wordBytes)
  have goes : s.entryStalls t e = false := by unfold State.entryStalls; rw [hr, Bool.and_false]
  have region : (s.modTile t fun x => { x with sb := rest }).tileRegion t e.addr.toNat = some (.scratch w) := hr
  rw [length_wordsBytes] at bytes
  refine ⟨n, ?_, frame, bytes⟩
  show execStoreDrain t s = _
  unfold execStoreDrain State.drainOne
  rw [hs]
  dsimp only
  rw [if_neg (by simp [goes])]
  unfold State.drainEntry
  dsimp only
  rw [region]
  dsimp only
  rw [run]
  rfl

/-- Settles O9: loads by the checks and the store buffer, and the drain by the pieces of its write. -/
theorem memoryAccessesReadAndWriteLittleEndianWords : Obligations.MemoryAccessesReadAndWriteLittleEndianWords := by
  unfold Obligations.MemoryAccessesReadAndWriteLittleEndianWords
  intro s t h
  refine ⟨fun k a n hn hw hu hl => ⟨fun ho => ?_, fun e hs h1 h2 => ?_⟩, fun k a n hr => State.load_outside hr, fun e rest w hs hr => ?_⟩
  · have apart (e : SbEntry) (he : e ∈ (s.tile t).sb) : sbOverlaps e a n = false := by
      have := ho e he
      unfold sbOverlaps
      simp only [Bool.and_eq_false_iff, decide_eq_false_iff_not]
      omega
    unfold State.load
    rw [State.accessFault_scratch hu hw hn hl]
    exact State.loadWords_memory (State.tileRegion_scratch hu hw (by omega)) h apart
  · have meets : sbOverlaps e a n = true := by
      unfold sbOverlaps
      simp only [Bool.and_eq_true, decide_eq_true_iff]
      omega
    refine ⟨_, ?_, OnlyTile.modTile s t fun x => perfCount 10 (swS x.sw) x⟩
    unfold State.load
    rw [State.accessFault_scratch hu hw hn hl]
    exact State.loadWords_forwarded (State.tileRegion_scratch hu hw (by omega)) hs meets (by simp [sbContains, h1, h2])
  · obtain ⟨n, run, frame, bytes⟩ := storeDrain_scratch h hs hr
    have tiles (k : Nat) : n.tile k = (s.modTile t fun x => { x with sb := rest }).tile k := (congrArg (fun u : State => u.tile k) frame :)
    refine ⟨n, run, by rw [tiles, State.tile_modTile], fun i hi => ?_, fun a ha => by rw [bytes, if_neg (by omega)], fun k hk => by rw [tiles, State.tile_modTile_ne _ _ hk]⟩
    obtain ⟨low, high⟩ := wordsBytes_getD e.words i hi
    refine ⟨?_, ?_⟩
    · rw [bytes, if_pos (by omega), ← low]; congr 1; omega
    · rw [bytes, if_pos (by omega), ← high]; congr 1; omega

end Sys2Proof.Machine
end

section
/-! SUPPORT. Instruction fetch: what a fetch and the counting of cycles may change (R132, R161, R163, R167). -/

namespace Sys2Proof

open Machine

/-- Installing a line changes the instruction cache alone. -/
theorem SameButCounts.icInstall (x : Tile) (line : Nat) : SameButCounts x (icInstall x line) := by
  unfold Machine.icInstall
  dsimp only
  split <;> rfl

/-- An event is counted and a line installed. -/
theorem SameButCounts.counted_install (code line : Nat) (x : Tile) : SameButCounts x (Machine.icInstall (levelCount code x) line) :=
  .trans (.perfCount code _ x) (.icInstall _ line)

end Sys2Proof

namespace Sys2Proof.Machine

/-- From `s` to `u` tile `t` has changed its instruction cache and its event counts alone, no quire reads another way, and nothing else has changed. -/
structure FetchOnly (t : Nat) (s u : State) : Prop where
  tile : SameButCounts (s.tile t) (u.tile t)
  others : ∀ k, k ≠ t → u.tile k = s.tile k
  quires : ∀ k, u.quire k = s.quire k
  rest : { u with tiles := s.tiles, quires := s.quires } = s

/-- Every granule of memory and of the quire cache of tile `t` is good, and its window is cached. -/
structure CleanFor (t : Nat) (s : State) : Prop where
  memory : ∀ g, s.syndAt g = 0
  lines : CleanLines (s.quire (tileQuire t))
  cached : (hbmWin (s.quire (tileQuire t)) (tileIndex t)).mode = 0

variable {s u v : State} {t : Nat}

theorem FetchOnly.refl (s : State) : FetchOnly t s s := ⟨.refl _, fun _ _ => rfl, fun _ => rfl, rfl⟩

theorem FetchOnly.trans (h : FetchOnly t s u) (k : FetchOnly t u v) : FetchOnly t s v where
  tile := h.tile.trans k.tile
  others j hj := (k.others j hj).trans (h.others j hj)
  quires j := (k.quires j).trans (h.quires j)
  rest := by
    have moved := congrArg (fun w : State => { w with tiles := s.tiles, quires := s.quires }) k.rest
    exact moved.trans h.rest

/-- A change of the tile that keeps all but its instruction cache and its counts. -/
theorem FetchOnly.modTile {f : Tile → Tile} (h : SameButCounts (s.tile t) (f (s.tile t))) : FetchOnly t s (s.modTile t f) where
  tile := by rw [State.tile_modTile]; exact h
  others k hk := State.tile_modTile_ne _ _ hk
  quires _ := rfl
  rest := rfl

/-- A change of a quire after which it reads as before. -/
theorem FetchOnly.modQuire {q : Nat} {f : Quire → Quire} (h : f (s.quire q) = s.quire q) : FetchOnly t s (s.modQuire q f) where
  tile := .refl _
  others _ _ := rfl
  quires k := by
    by_cases hk : k = q
    · subst hk; rw [State.quire_modQuire, h]
    · exact State.quire_modQuire_ne _ _ hk
  rest := rfl

/-- Clean memory stays clean. -/
theorem CleanFor.of_fetch (h : CleanFor t s) (k : FetchOnly t s u) : CleanFor t u where
  memory g := by
    have synd : u.synd = s.synd := (congrArg State.synd k.rest :)
    rw [State.syndAt, synd]
    exact h.memory g
  lines := by rw [k.quires]; exact h.lines
  cached := by rw [k.quires]; exact h.cached

/-! ### Reads of a line (R161) -/

/-- A line put back as it was found leaves the cache as it was. -/
theorem holdLine_same {x : Quire} {l : CLine} (hx : CleanLines x) (hl : l ∈ x.lines) : holdLine x l = x := by
  have distinct : (x.lines.map CLine.line).Nodup := List.pairwise_map.2 hx.1
  have same : x.lines.map (fun m => if m.line = l.line then l else m) = x.lines := by
    conv_rhs => rw [← List.map_id x.lines]
    refine List.map_congr_left fun m hm => ?_
    split
    · exact (List.inj_on_of_nodup_map distinct hm hl ‹_›).symm
    · rfl
  unfold holdLine
  rw [same]

/-- A fill reads a granule of the cache or of HBM, and changes nothing that can be read. -/
theorem State.fetchGran_clean (h : CleanFor t s) (g : Nat) : ∃ d n, s.fetchGran t g = (some d, n) ∧ FetchOnly t s n := by
  unfold State.fetchGran State.lineGranBy
  dsimp only
  rw [if_pos h.cached]
  cases hf : findLine (s.quire (tileQuire t)) (BitVec.ofNat 31 (g / 16)) with
  | none => exact ⟨_, s, s.readGran_good g (by rw [h.memory]; rfl), .refl s⟩
  | some l =>
    have held : l ∈ (s.quire (tileQuire t)).lines := List.mem_of_find?_eq_some hf
    have good : readSynd (Tbl.get 0 l.synd (g % 16)) = .good := by rw [h.lines.2 l held]; rfl
    dsimp only
    rw [good]
    exact ⟨_, _, rfl, .modQuire (holdLine_same h.lines held)⟩

/-- A read whose every granule is found, by a reader that keeps `I`, answers its bytes and keeps `I`. -/
theorem readVia_keeps {I : State → Prop} {rd : State → Nat → Option (List Byte) × State} (h : ∀ s g, I s → ∃ d n, rd s g = (some d, n) ∧ I n) (hs : I s) (off n : Nat) :
    ∃ l u, readVia rd s off n = (.inl l, u) ∧ I u := by
  have fold (gs : List Nat) (l : List Byte) (s : State) (hs : I s) : ∃ r u, gs.foldl (fun ((acc : List Byte ⊕ Nat), s) g => match acc with
      | .inr e => (.inr e, s)
      | .inl l => match rd s g with
        | (some d, s) => (.inl (l ++ d), s)
        | (none, s) => (.inr (8 * g), s)) (.inl l, s) = (.inl r, u) ∧ I u := by
    induction gs generalizing l s with
    | nil => exact ⟨l, s, rfl, hs⟩
    | cons g gs ih =>
      obtain ⟨d, n, read, kept⟩ := h s g hs
      rw [List.foldl_cons]
      simp only [read]
      exact ih (l ++ d) n kept
  obtain ⟨r, u, read, kept⟩ := fold (granules off n) [] s hs
  refine ⟨(r.drop (off % 8)).take n, u, ?_, kept⟩
  unfold readVia
  erw [read]

/-- A line of clean memory is read. -/
theorem State.readLine_clean (h : CleanFor t s) (line : Nat) : ∃ n, s.readLine t line = (none, n) ∧ FetchOnly t s n := by
  have plain (off : Nat) : readVia (fun s g => s.readGran g) s off 64 = (.inl (s.bytesAt off 64), s) := readVia_good h.memory off 64
  have cached (off : Nat) : ∃ l n, readVia (fun s g => s.fetchGran t g) s off 64 = (.inl l, n) ∧ FetchOnly t s n := by
    refine readVia_keeps (fun u g hu => ?_) (FetchOnly.refl s) off 64
    obtain ⟨d, n, read, only⟩ := State.fetchGran_clean (h.of_fetch hu) g
    exact ⟨d, n, read, hu.trans only⟩
  -- Named before the definition opens: the kernel would count the bases of the address map in unary where it compares two reads.
  obtain ⟨base, hb⟩ : ∃ b, scratchBase t = b := ⟨_, rfl⟩
  obtain ⟨qbase, hq⟩ : ∃ b, qscratchBase (tileQuire t) = b := ⟨_, rfl⟩
  obtain ⟨region, hr⟩ : ∃ r, s.tileRegion t (32 * line) = r := ⟨_, rfl⟩
  unfold State.readLine
  rw [hb, hq]
  dsimp only
  rw [hr]
  match region with
  | none => exact ⟨s, rfl, .refl s⟩
  | some (.xregs _) => exact ⟨s, rfl, .refl s⟩
  | some (.qregs _) => exact ⟨s, rfl, .refl s⟩
  | some (.scratch w) => dsimp only; rw [plain]; exact ⟨s, rfl, .refl s⟩
  | some (.qscratch w) => dsimp only; rw [plain]; exact ⟨s, rfl, .refl s⟩
  | some (.hbm off) =>
    obtain ⟨l, n, read, only⟩ := cached off
    dsimp only
    rw [read]
    exact ⟨n, rfl, only⟩

/-! ### Fetches (R132, R161) -/

/-- A fill of the instruction cache and its prefetch. -/
theorem State.icFill_clean (h : CleanFor t s) (line : Nat) : ∃ n, s.icFill t line = (none, n) ∧ FetchOnly t s n := by
  obtain ⟨n, read, only⟩ := State.readLine_clean h line
  have filled : FetchOnly t s (n.modTile t fun x => icInstall (levelCount 6 x) line) := only.trans (.modTile (.counted_install 6 line _))
  obtain ⟨m, next, ahead⟩ := State.readLine_clean (h.of_fetch filled) ((line + 1) % 2 ^ 27)
  unfold State.icFill
  rw [read]
  dsimp only
  split
  · exact ⟨_, rfl, filled⟩
  · rw [next]
    exact ⟨_, rfl, filled.trans (ahead.trans (.modTile (.counted_install 8 _ _)))⟩

/-- A word that may not be fetched faults. -/
theorem State.fetchWord_refused {a c w : Nat} (h : s.fetchFault t a = some (c, w)) : s.fetchWord t a = .fault c w s := by
  unfold State.fetchWord
  rw [h]

/-- A word of a line in the instruction cache is there at once. -/
theorem State.fetchWord_hit {a : Nat} (h : s.fetchFault t a = none) (hi : icHit (s.tile t) (a / 32) = true) : s.fetchWord t a = .ok () s := by
  unfold State.fetchWord
  rw [h]
  exact if_pos hi

/-- A word fetched from clean memory. -/
theorem State.fetchWord_clean (h : CleanFor t s) {a : Nat} (hf : s.fetchWord t a = .ok () u) : FetchOnly t s u := by
  obtain ⟨n, fill, only⟩ := State.icFill_clean h (a / 32)
  unfold State.fetchWord at hf
  rw [fill] at hf
  dsimp only at hf
  split at hf
  · cases hf
  · split at hf
    · cases hf; exact .refl s
    · split at hf
      · cases hf
      · cases hf; exact only

/-- The words of an instruction fetched from clean memory. -/
theorem State.fetch_clean {n : Nat} (h : CleanFor t s) {a : Nat} (hf : s.fetch t a n = .ok () u) : FetchOnly t s u := by
  induction n generalizing s a with
  | zero => cases hf; exact .refl _
  | succ n ih =>
    unfold State.fetch at hf
    cases word : s.fetchWord t a with
    | ok v m =>
      rw [word] at hf
      have first := State.fetchWord_clean h word
      exact first.trans (ih (h.of_fetch first) hf)
    | fault c w m => rw [word] at hf; cases hf
    | stall => rw [word] at hf; cases hf

/-! ### Wrong paths and cycle events (R163, R167) -/

/-- From `u` to `n` tile `t` has changed its instruction cache and its event counts, and nothing else has changed. -/
def CountsOnly (t : Nat) (u n : State) : Prop := ∃ x, OnlyTile u n t x ∧ SameButCounts (u.tile t) x

theorem CountsOnly.refl (u : State) : CountsOnly t u u := ⟨_, OnlyTile.refl u t, .refl _⟩

theorem CountsOnly.modTile (h : CountsOnly t u v) {f : Tile → Tile} (hf : ∀ x, SameButCounts x (f x)) : CountsOnly t u (v.modTile t f) := by
  obtain ⟨x, only, same⟩ := h
  exact ⟨f x, only.andThen f, same.trans (hf x)⟩

/-- A property of the count of passes that each pass carries on holds after the last. -/
theorem forN_carries {σ : Type} {P : Nat → σ → Prop} {f : Nat → σ → σ} (hf : ∀ i x, P i x → P (i + 1) (f i x)) {x : σ} (h : P 0 x) (n : Nat) : P n (forN n f x) := by
  unfold forN
  induction n with
  | zero => exact h
  | succ n ih =>
    rw [List.range_succ, List.foldl_append]
    exact hf n _ ih

/-- A wrong-path fetch leaves at most a fill and a prefetch behind. -/
theorem CountsOnly.wrongWord (h : CountsOnly t u v) (a : Nat) : CountsOnly t u (v.wrongWord t a) := by
  have install (b c line : Nat) (x : Tile) : SameButCounts x (icInstall (levelCount b (levelCount c x)) line) := .trans (.perfCount c _ x) (.counted_install b line _)
  have filled := h.modTile (install 7 6 (a / 32))
  unfold State.wrongWord
  dsimp only
  split
  · exact h
  · split
    · exact filled
    · exact filled.modTile (install 9 8 _)

/-- A wrong path spends two free values. -/
theorem State.wrongPath_counts (s : State) (t a : Nat) : CountsOnly t { s with free := s.free + 2 } (s.wrongPath t a) := by
  have began : CountsOnly t { s with free := s.free + 2 } s.spend.spend := .refl _
  unfold State.wrongPath
  refine forN_carries (P := fun _ => CountsOnly t { s with free := s.free + 2 }) (fun i v h => h.wrongWord _) (began.modTile fun x => ?_) _
  exact forN_carries (P := fun _ => SameButCounts x) (fun i y h => .trans h (.perfCount 5 _ y)) (.refl x) _

/-- One cycle counter grows by a free value. -/
theorem CountsOnly.cycles {s : State} {k : Nat} (h : CountsOnly t { s with free := s.free + k } u) {f : Tile → Tile} (hf : ∀ x, SameButCounts x (f x)) :
    CountsOnly t { s with free := s.free + (k + 1) } (u.modTile t f).spend := by
  obtain ⟨x, ⟨own, others, rest⟩, same⟩ := h.modTile hf
  exact ⟨x, ⟨own, others, congrArg State.spend rest⟩, same⟩

/-- Counting the cycle events of a tile spends a free value for each counter that grows. -/
theorem State.cyclePerf_counts (s : State) (t : Nat) : ∃ k ≤ 4, CountsOnly t { s with free := s.free + k } (s.cyclePerf t) := by
  unfold State.cyclePerf
  refine forN_carries (P := fun i u => ∃ k ≤ i, CountsOnly t { s with free := s.free + k } u) (fun i u h => ?_) ⟨0, le_rfl, .refl _⟩ 4
  obtain ⟨k, hk, only⟩ := h
  dsimp only
  split
  · refine ⟨k + 1, by omega, only.cycles fun x => ?_⟩
    split <;> rfl
  · exact ⟨k, by omega, only⟩

end Sys2Proof.Machine
end

section
/-! Instruction fetch (R132, R161, R163, R167). -/

namespace Sys2Proof.Machine

/-- Settles O12: a fetch from clean memory, at a hit or refused, and what wrong paths and cycle events count. -/
theorem fetchesChangeOnlyTheInstructionCache : Obligations.FetchesChangeOnlyTheInstructionCache := by
  unfold Obligations.FetchesChangeOnlyTheInstructionCache
  refine ⟨fun s u t a n => ⟨fun hm hl hc hf => ?_, fun hf hi => ?_, fun c w hf => ?_⟩, fun s t a => ⟨s.wrongPath_counts t a, ?_⟩⟩
  · obtain ⟨tile, others, quires, rest⟩ := State.fetch_clean ⟨hm, hl, hc⟩ hf
    exact ⟨tile, others, quires, rest⟩
  · unfold State.fetch
    rw [State.fetchWord_hit hf hi]
    rfl
  · unfold State.fetch
    rw [State.fetchWord_refused hf]
    rfl
  · obtain ⟨k, hk, x, only, same⟩ := s.cyclePerf_counts t
    exact ⟨x, k, hk, only, same⟩

end Sys2Proof.Machine
end

section
/-! SUPPORT. The status word at entries, gates and returns: its levels and masks bit by bit (R128, R178, R179, R185). -/

namespace Sys2Proof.Machine

/-- NW is closed. -/
theorem putBit_nw_false (w : W16) : putBit w 11 false = w &&& 0xF7FF := rfl
/-- NW is opened. -/
theorem putBit_nw_true (w : W16) : putBit w 11 true = w ||| 0x0800 := rfl

theorem getLsbD_putBit (w : W16) {k : Nat} (hk : k < 16) (b : Bool) (i : Nat) : (putBit w k b).getLsbD i = if i = k then b else w.getLsbD i := by
  have one : (1#16 <<< k).getLsbD i = decide (i = k) := by
    rw [← BitVec.twoPow_eq, BitVec.getLsbD_twoPow]
    simp [hk, eq_comm]
  by_cases e : i = k
  · subst e
    cases b <;> simp [putBit, hk]
  · cases b with
    | false => simpa [putBit, one, e] using fun h => BitVec.lt_of_getLsbD h
    | true => simp [putBit, one, e]

/-- MASK alone is replaced. -/
theorem putMask_eq (w : W16) (m : Nat) : putMask w m = w.extractLsb' 15 1 ++ BitVec.ofNat 3 m ++ w.extractLsb' 0 12 := by
  apply BitVec.eq_of_toNat_eq
  have := w.isLt
  simp only [putMask, setBits, bitsOf, BitVec.toNat_ofNat, BitVec.toNat_append, BitVec.extractLsb'_toNat, Nat.shiftRight_eq_div_pow]
  rw [← Nat.shiftLeft_add_eq_or_of_lt (Nat.mod_lt _ (by decide)), ← Nat.shiftLeft_add_eq_or_of_lt (Nat.mod_lt _ (by decide)), Nat.shiftLeft_eq, Nat.shiftLeft_eq]
  omega

theorem getLsbD_putMask (w : W16) (m : Nat) {i : Nat} (hi : i < 16) : (putMask w m).getLsbD i = if 12 ≤ i ∧ i < 15 then m.testBit (i - 12) else w.getLsbD i := by
  rw [putMask_eq]
  simp only [BitVec.getLsbD_append, BitVec.getLsbD_extractLsb', BitVec.getLsbD_ofNat]
  interval_cases i <;> simp

/-- SW on entry to a handler (R185). -/
theorem entrySw_eq (w : W16) : entrySw w = (w &&& 0x03FF) ||| 0xF400 := by
  apply BitVec.eq_of_getLsbD_eq
  intro i hi
  unfold entrySw
  simp only [getLsbD_putBit, getLsbD_putMask, hi, Nat.reduceLT]
  interval_cases i <;> simp [Nat.testBit]

/-- SW after a gate call (R178). -/
theorem gateSw_eq (w : W16) (m : Nat) : gateSw w m = (w &&& 0x07FF) ||| 0x8000 ||| BitVec.ofNat 16 (4096 * Nat.max (swMask w) m) := by
  unfold gateSw
  generalize Nat.max (swMask w) m = n
  have mask (j : Nat) : (BitVec.ofNat 16 (4096 * n)).getLsbD j = (decide (j < 16) && (decide (12 ≤ j) && n.testBit (j - 12))) := by
    rw [BitVec.getLsbD_ofNat, show 4096 * n = 2 ^ 12 * n from rfl, Nat.testBit_two_pow_mul]
  apply BitVec.eq_of_getLsbD_eq
  intro i hi
  simp only [getLsbD_putBit, getLsbD_putMask, hi, Nat.reduceLT, BitVec.getLsbD_or, mask]
  interval_cases i <;> simp

/-- SW after RETI from a gate: S and MASK are the frame's (R179). -/
theorem returnSw_eq (w f : W16) : putBit (putMask (putBit w 15 (f.getLsbD 15)) (swMask f)) 11 false = (w &&& 0x07FF) ||| (f &&& 0xF000) := by
  have mask (j : Nat) : (swMask f).testBit j = (decide (j < 3) && f.getLsbD (12 + j)) := by
    rw [swMask, bitsOf_toNat, BitVec.testBit_toNat, BitVec.getLsbD_extractLsb']
  apply BitVec.eq_of_getLsbD_eq
  intro i hi
  simp only [getLsbD_putBit, getLsbD_putMask, hi, Nat.reduceLT, mask]
  interval_cases i <;> simp

end Sys2Proof.Machine
end

section
/-! SUPPORT. Stores of a frame: a store that finds room leaves the checks of the next as they were (R131, R156, R178). -/

namespace Sys2Proof

open Machine

theorem OnlyTile.trans {u v n : State} {t : Nat} {x y : Tile} (h : OnlyTile u v t x) (k : OnlyTile v n t y) : OnlyTile u n t y := by
  obtain ⟨-, others, rest⟩ := h
  obtain ⟨own, others', rest'⟩ := k
  exact ⟨own, fun j hj => (others' j hj).trans (others j hj), (congrArg (fun z : State => ({ z with tiles := u.tiles } : State)) rest' :).trans rest⟩

namespace Machine

variable {s u v : State} {t : Nat}

/-- The checks of an access turn on the level and the supervisor area of the tile alone. -/
theorem State.accessFault_modTile {f : Tile → Tile} (hs : (f (u.tile t)).sw = (u.tile t).sw) (hp : (f (u.tile t)).priv = (u.tile t).priv) (k : Acc) (a n : Nat) :
    (u.modTile t f).accessFault t k a n = u.accessFault t k a n := by
  have region : ∀ b, (u.modTile t f).tileRegion t b = u.tileRegion t b := fun _ => rfl
  have sup : ∀ b, (u.modTile t f).inSup t b = u.inSup t b := fun b => by
    unfold State.inSup supWords
    rw [State.tile_modTile, hp]
    rfl
  unfold State.accessFault State.firstOutside
  simp only [region, sup, State.tile_modTile, hs]

/-- A tile once the stores of a frame lie in its buffer, in order. -/
def bufferedAll (x : Tile) (l : List (W32 × List W16)) : Tile := l.foldl (fun z e => buffered z e.1 e.2) x

/-- A buffer with fewer than 8 entries takes a further one at once. -/
theorem bufferTakes_of_room (h : (u.tile t).sb.length < 8) : BufferTakes u t u := by
  unfold BufferTakes
  exact (if_pos h).mpr rfl

/-- A frame whose stores pass their checks goes into a buffer with room for it. -/
theorem State.storeAll_ok : ∀ (l : List (W32 × List W16)) (u : State), (u.tile t).sb.length + l.length ≤ 8 → (∀ e ∈ l, u.storeFault t .other e.1.toNat e.2.length = none) →
    ∃ n, u.storeAll t l = (true, n) ∧ OnlyTile u n t (bufferedAll (u.tile t) l) := by
  intro l
  induction l with
  | nil => exact fun u _ _ => ⟨u, rfl, OnlyTile.refl u t⟩
  | cons e l ih =>
    intro u room pass
    rw [List.length_cons] at room
    have stored := store_ok (bufferTakes_of_room (by omega)) (pass e List.mem_cons_self)
    have own := State.tile_modTile u t fun x => buffered x e.1 e.2
    obtain ⟨n, run, only⟩ := ih (u.modTile t fun x => buffered x e.1 e.2) (by rw [own]; simp only [buffered, List.length_append, List.length_singleton]; omega)
      fun d hd => (State.accessFault_modTile rfl rfl _ _ _).trans (pass d (List.mem_cons_of_mem _ hd))
    rw [own] at only
    refine ⟨n, ?_, (OnlyTile.modTile u t _).trans only⟩
    unfold State.storeAll
    rw [stored]
    exact run

end Machine
end Sys2Proof
end

section
/-! Gates (R177, R178). -/

namespace Sys2Proof.Machine

variable {s u v : State} {t : TileId} {g : W16} {l : List W16}

theorem bufferedAll_atSup (x : Tile) (l : List (W32 × List W16)) : bufferedAll (atSup x) l = atSup (bufferedAll x l) := by
  induction l generalizing x with
  | nil => rfl
  | cons e l ih => exact ih (buffered x e.1 e.2)

/-- Supervisor level keeps the bank. -/
theorem swSB_atSup (x : Tile) : swSB (atSup x).sw = swSB x.sw := (getLsbD_putBit x.sw (by decide) true 10).trans (if_neg (by decide))

/-- The target of a gate joins two words of its entry. -/
theorem entry32_eq (l : List W16) (i : Nat) : BitVec.ofNat 32 (entry32 l i) = l.getD (i + 1) 0 ++ l.getD i 0 := by
  apply BitVec.eq_of_toNat_eq
  have := (l.getD i 0).isLt
  have := (l.getD (i + 1) 0).isLt
  rw [entry32, BitVec.toNat_ofNat, BitVec.toNat_append, ← Nat.shiftLeft_add_eq_or_of_lt (l.getD i 0).isLt, Nat.shiftLeft_eq]
  omega

/-- The tile once a gate is entered with stack pointer `a7`, mask `m` and frame `f`. -/
def gated (x : Tile) (a7 : W32) (f : List (W32 × List W16)) (m : Nat) : Tile :=
  { setA (bufferedAll x f) 7 (a7 - 6) with sw := gateSw x.sw m, priv := { x.priv with nrem := 0 } }

/-- Where the tile stood at task level does not show once the gate is entered. -/
theorem gated_atSup (x : Tile) (a7 : W32) (f : List (W32 × List W16)) (m : Nat) :
    { setA (bufferedAll (atSup x) f) 7 (a7 - 6) with sw := gateSw x.sw m, priv := { (bufferedAll (atSup x) f).priv with nrem := 0 } } = gated x a7 f m := by
  have priv (l : List (W32 × List W16)) : ∀ z : Tile, (bufferedAll z l).priv = z.priv := by
    induction l with
    | nil => exact fun _ => rfl
    | cons e l ih => exact fun z => ih (buffered z e.1 e.2)
  rw [priv, bufferedAll_atSup]
  unfold gated setA
  rw [swSB_atSup]
  split <;> rfl

section
variable {a7 : W32} (ha : (if swS (v.tile t).sw then getA (v.tile t) 7 else (v.tile t).priv.ssp) = a7) (hr : (v.tile t).sb.length ≤ 5)
  (hp : ∀ k ∈ ([2, 4, 6] : List W32), (v.modTile t atSup).storeFault t .other (a7 - k).toNat 2 = none)
include ha hr hp

/-- A gate is entered where the stores of its frame pass their checks and the buffer has room for them. -/
theorem State.gateEnter_ok : ∃ n, v.gateEnter t l = .ok (some (l.getD 1 0 ++ l.getD 0 0)) n ∧
    OnlyTile v n t (gated (v.tile t) a7 (gateFrame a7 (getA (v.tile t) 7) (pcNext (v.tile t) 2) (v.tile t).sw) (bitsOf (l.getD 2 0).toNat 8 3)) := by
  generalize hf : gateFrame a7 (getA (v.tile t) 7) (pcNext (v.tile t) 2) (v.tile t).sw = f
  have pass : ∀ e ∈ f, e.2.length = 2 ∧ (v.modTile t atSup).storeFault t .other e.1.toNat 2 = none := by
    intro e he
    simp only [← hf, gateFrame, List.mem_cons, List.not_mem_nil, or_false] at he
    obtain rfl | rfl | rfl := he
    · exact ⟨rfl, hp 2 (by simp)⟩
    · exact ⟨rfl, hp 4 (by simp)⟩
    · exact ⟨rfl, hp 6 (by simp)⟩
  have sup := OnlyTile.modTile v t atSup
  have room : ((v.modTile t atSup).tile t).sb.length + f.length ≤ 8 := by
    rw [State.tile_modTile, ← hf]
    exact Nat.add_le_add_right hr 3
  obtain ⟨n, run, only⟩ := State.storeAll_ok f (v.modTile t atSup) room fun e he => by
    obtain ⟨length, checks⟩ := pass e he
    rw [length, checks]
  rw [State.tile_modTile] at only
  have checks : (f.findSome? fun e => (v.modTile t atSup).storeFault t .other e.1.toNat 2) = none := List.findSome?_eq_none_iff.2 fun e he => (pass e he).2
  unfold State.gateEnter
  dsimp only
  rw [ha, hf, checks, entry32_eq]
  dsimp only
  rw [run]
  exact ⟨_, rfl, gated_atSup (v.tile t) a7 f _ ▸ (sup.trans only).andThen _⟩

end

/-! ### GATE (R178) -/

section
variable (h : Fetches s t 2 u) (hb : swSB (u.tile t).sw = false)
include h

theorem gate_in_handler (hb : swSB (u.tile t).sw = true) : Faults s u t (.gate t g) 2 g.toNat :=
  exec_faults_body h rfl (if_pos hb)

include hb

theorem gate_outside (hc : (u.tile t).priv.gateCount.toNat ≤ g.toNat) : Faults s u t (.gate t g) 10 g.toNat := by
  refine exec_faults_body h rfl ?_
  dsimp only
  rw [if_neg (by simp [hb]), if_pos (by simp [hc])]

variable (hc : g.toNat < (u.tile t).priv.gateCount.toNat) (hs : (u.tile t).priv.gateBase.toNat + 16 * g.toNat + 16 ≤ supWords (u.tile t))
  (hu : (u.tile t).priv.gateBase.toNat + 16 * g.toNat + 16 ≤ u.usable t * 768) (hl : u.loadWords t ((u.tile t).priv.gateBase.toNat + 16 * g.toNat) 16 = .ok l v)
include hc hs hu hl

/-- A gate whose entry fails a check. -/
theorem gate_refused {c a : Nat} (hf : gateFault (v.tile t) g.toNat l = some (c, a)) : exec (.gate t g) s = .next (v.takeSync t c a) := by
  refine exec_faults_body h rfl ?_
  dsimp only
  rw [if_neg (by simp [hb]), if_neg (by simp only [Bool.or_eq_true, decide_eq_true_iff]; omega), hl]
  dsimp only [Mem.andThen]
  rw [hf]

/-- A gate whose entry passes its checks. -/
theorem gate_enters {a7 : W32} (hf : gateFault (v.tile t) g.toNat l = none) (ha : (if swS (v.tile t).sw then getA (v.tile t) 7 else (v.tile t).priv.ssp) = a7)
    (hr : (v.tile t).sb.length ≤ 5) (hp : ∀ k ∈ ([2, 4, 6] : List W32), (v.modTile t atSup).storeFault t .other (a7 - k).toNat 2 = none) :
    RetiresTo s v t (.gate t g) (gated (v.tile t) a7 (gateFrame a7 (getA (v.tile t) 7) (pcNext (v.tile t) 2) (v.tile t).sw) (bitsOf (l.getD 2 0).toNat 8 3)) (l.getD 1 0 ++ l.getD 0 0) := by
  obtain ⟨n, entered, only⟩ := State.gateEnter_ok (l := l) ha hr hp
  refine retires_body h rfl ?_ only
  dsimp only
  rw [if_neg (by simp [hb]), if_neg (by simp only [Bool.or_eq_true, decide_eq_true_iff]; omega), hl]
  dsimp only [Mem.andThen]
  rw [hf]
  exact entered

end

/-! ### RETI (R179, R187) -/

/-- RETI and RETI from interruption are one instruction (log 20). -/
theorem exec_reti_either {i : Instr} (hi : i ∈ [Instr.reti t, .retiInterruption t]) : exec i s = .next (s.retiAny t) := by
  simp only [List.mem_cons, List.not_mem_nil, or_false] at hi
  obtain rfl | rfl := hi <;> rfl

section
variable {i : Instr} (hi : i ∈ [Instr.reti t, .retiInterruption t]) (h : Fetches s t 1 u)
include hi h

theorem reti_at_task (hs : swS (u.tile t).sw = false) : Faults s u t i 2 0 :=
  exec_faults_body h (exec_reti_either hi) (if_pos (by simp [hs]))

theorem reti_from_handler (hs : swS (u.tile t).sw = true) (hb : swSB (u.tile t).sw = true) :
    RetiresTo s u t i { u.tile t with sw := (u.tile t).priv.ssw &&& 0xF03F, priv := { (u.tile t).priv with xr := false, xw := false, nrem := 0 } } (u.tile t).priv.spc := by
  refine retires_body h (exec_reti_either hi) ?_ (OnlyTile.modTile u t fun z => { z with sw := z.priv.ssw &&& 0xF03F, priv := { z.priv with xr := false, xw := false, nrem := 0 } })
  dsimp only
  rw [if_neg (by simp [hs]), if_pos hb]
  rfl

theorem reti_from_gate {v0 v1 : State} {l0 l1 l2 : List W16} (hs : swS (u.tile t).sw = true) (hb : swSB (u.tile t).sw = false)
    (h0 : u.load t .other (getA (u.tile t) 7).toNat 2 = .ok l0 v0) (h1 : v0.load t .other (getA (u.tile t) 7 + 2).toNat 2 = .ok l1 v1)
    (h2 : v1.load t .other (getA (u.tile t) 7 + 4).toNat 2 = .ok l2 v) :
    RetiresTo s v t i { setA (v.tile t) 7 (l2.getD 1 0 ++ l2.getD 0 0) with
      sw := ((v.tile t).sw &&& 0x07FF) ||| (l0.getD 0 0 &&& 0xF000), priv := { (v.tile t).priv with xr := false, xw := false, nrem := 0 } } (l1.getD 1 0 ++ l1.getD 0 0) := by
  rw [← returnSw_eq]
  refine retires_body h (exec_reti_either hi) ?_ (OnlyTile.modTile v t fun z => { setA z 7 (l2.getD 1 0 ++ l2.getD 0 0) with
    sw := putBit (putMask (putBit z.sw 15 ((l0.getD 0 0).getLsbD 15)) (swMask (l0.getD 0 0))) 11 false, priv := { z.priv with xr := false, xw := false, nrem := 0 } })
  dsimp only
  rw [if_neg (by simp [hs]), if_neg (by simp [hb])]
  unfold State.retGate
  dsimp only
  rw [h0]
  dsimp only [Mem.andThen]
  rw [State.load32_ok h1]
  dsimp only
  rw [State.load32_ok h2]

end

/-! ### NOINT (R188) -/

/-- A window that closes. -/
theorem nointWindow_zero (x : Tile) : nointWindow x 0 = { x with sw := x.sw &&& 0xF7FF, priv := { x.priv with nrem := 0 } } := by
  unfold nointWindow
  split <;> simp [putBit_nw_false]

/-- A window that opens, or is shortened. -/
theorem nointWindow_pos (x : Tile) {n : Nat} (hn : n ≠ 0) :
    nointWindow x n = { x with sw := x.sw ||| 0x0800, priv := { x.priv with nrem := BitVec.ofNat 10 (if swNW x.sw then Nat.min x.priv.nrem.toNat n else n) } } := by
  unfold nointWindow
  rw [decide_eq_true hn, putBit_nw_true]

section
variable {n : W16} (h : Fetches s t 2 u)
include h

theorem noint_too_long (hn : 512 < n.toNat) : Faults s u t (.noint t n) 1 0 := exec_faults_body h rfl (if_pos hn)

theorem noint_at_task (hn : n.toNat ≤ 512) (hs : swS (u.tile t).sw = false) (ht : (u.tile t).priv.taskNoint = false) : Faults s u t (.noint t n) 2 0 :=
  exec_faults_body h rfl ((if_neg (by omega)).trans (if_pos (by simp [hs, ht])))

theorem noint_sets (hn : n.toNat ≤ 512) (hs : swS (u.tile t).sw = true ∨ (u.tile t).priv.taskNoint = true) : Retires s u t (.noint t n) 2 (nointWindow (u.tile t) n.toNat) :=
  retires_finish (f := fun z => nointWindow z n.toNat) h rfl ((if_neg (by omega)).trans (if_neg (by obtain hs | ht := hs <;> simp [*]))) rfl

end

/-! ### HALT (R190, R198) -/

/-- The tile as it halts with `cause`. -/
def halted (cause : W16) (x : Tile) : Tile :=
  { x with run := .halted, sw := x.sw &&& 0xF7FF, priv := { x.priv with haltCause := cause, haltPc := x.pc, nrem := 0 } }

/-- The state in which tile `k` has halted, before its room is told. -/
def State.haltedAt (u : State) (k : Nat) (cause : W16) : State := ((u.dropTileWaits k).discardQueue k).modTile k (halted cause)

/-- A tile halts, and its room is told through the router. -/
theorem State.haltTile_eq (u : State) (k : Nat) (cause : W16) : ∃ rooms irq, u.haltTile k cause = { u.haltedAt k cause with rooms := rooms, irq := irq } := by
  unfold State.haltTile
  dsimp only
  split
  next r _ =>
    obtain ⟨i, e⟩ := (u.haltedAt k cause).raiseRoom_eq r 8
    exact ⟨_, i, e⟩
  next => exact ⟨_, _, rfl⟩

/-- Discarding the queue undoes some of the last instructions, or none (R198; log 9). -/
theorem State.discardQueue_undoes (u : State) (k : Nat) : ∃ y ∈ (u.tile k).xu.toXuRegs :: (u.tile k).xu.queue,
    (u.discardQueue k).tile k = { u.tile k with xu := { y with queue := [] } } ∧ (∀ j, j ≠ k → (u.discardQueue k).tile j = u.tile j) ∧ (u.discardQueue k).mem = u.mem := by
  unfold State.discardQueue
  split
  next hq => exact ⟨_, List.mem_cons_self, by rw [← hq], fun _ _ => rfl, rfl⟩
  next hq =>
    refine ⟨_, ?_, State.tile_modTile _ _ _, fun j hj => State.tile_modTile_ne _ _ hj, rfl⟩
    have last : (u.freeVal 8).toNat % ((u.tile k).xu.queue.length + 1) < (u.tile k).xu.queue.length + 1 := Nat.mod_lt _ (Nat.succ_pos _)
    by_cases h0 : (u.freeVal 8).toNat % ((u.tile k).xu.queue.length + 1) = 0
    · rw [if_pos h0]
      exact List.mem_cons_self
    · rw [if_neg h0, List.getD_eq_getElem _ _ (by omega)]
      exact List.mem_cons_of_mem _ (List.getElem_mem _)

/-- A tile halts, and no other tile and no memory changes. -/
theorem State.haltTile_halts (u : State) (k : Nat) (cause : W16) : ∃ y ∈ (u.tile k).xu.toXuRegs :: (u.tile k).xu.queue,
    (u.haltTile k cause).tile k = halted cause { u.tile k with xu := { y with queue := [] } } ∧ (∀ j, j ≠ k → (u.haltTile k cause).tile j = u.tile j) ∧ (u.haltTile k cause).mem = u.mem := by
  obtain ⟨y, hy, own, others, mem⟩ := (u.dropTileWaits k).discardQueue_undoes k
  obtain ⟨rooms, irq, e⟩ := u.haltTile_eq k cause
  rw [e]
  exact ⟨y, hy, (State.tile_modTile _ k _).trans (congrArg (halted cause) own), fun j hj => (State.tile_modTile_ne _ _ hj).trans (others j hj), mem⟩

section
variable (h : Fetches s t 1 u)
include h

theorem halt_at_task (hs : swS (u.tile t).sw = false) : Faults s u t (.halt t) 2 0 := exec_faults_body h rfl (if_pos (by simp [hs]))

theorem exec_halt_drained (hs : swS (u.tile t).sw = true) (hd : u.drainAll t = (true, v)) : exec (.halt t) s = .next (v.haltTile t 0x4000) := by
  refine congrArg Host.Outcome.next (runInstr_waits h ?_)
  rw [if_neg (by simp [hs]), hd]

end

/-- Settles O16: each by its checks in order, a gate's frame by the three stores that make it. -/
theorem gatesReturnsAndWindowsChangeLevelAsStated : Obligations.GatesReturnsAndWindowsChangeLevelAsStated := by
  unfold Obligations.GatesReturnsAndWindowsChangeLevelAsStated
  intro s u v v0 v1 t
  refine ⟨fun h g l => ⟨fun hb hc hs hu hl => ⟨fun hf hr hp => ?_, fun c a hf => ?_⟩, fun hb => ?_, fun hb hc => ?_⟩,
    fun h => ⟨fun hs hb i hi => ?_, fun hs hb l0 l1 l2 h0 h1 h2 i hi => ?_, fun hs => ⟨?_, ?_, ?_⟩, fun hs hd => ?_⟩,
    fun h n => ⟨fun hn hs => ⟨fun h0 => ?_, fun h0 hw => ?_, fun h0 hw => ?_⟩, fun hn => ?_, fun hn hs ht => ?_⟩, fun hw => ?_⟩
  · have entered := gate_enters h hb hc hs hu hl hf rfl hr hp
    rw [gated, gateSw_eq] at entered
    simp only [gateFrame, words32_eq] at entered
    exact entered
  · exact gate_refused h hb hc hs hu hl hf
  · exact gate_in_handler h hb
  · exact gate_outside h hb hc
  · exact reti_from_handler hi h hs hb
  · exact reti_from_gate hi h hs hb h0 h1 h2
  · exact reti_at_task (by simp) h hs
  · exact reti_at_task (by simp) h hs
  · exact halt_at_task h hs
  · obtain ⟨y, hy, own, others, mem⟩ := v.haltTile_halts t 0x4000
    exact ⟨_, exec_halt_drained h hs hd, mem, others, y, hy, own⟩
  · have set := noint_sets h hn hs
    subst h0
    rwa [show (0 : W16).toNat = 0 from rfl, nointWindow_zero] at set
  · have set := noint_sets h hn hs
    rwa [nointWindow_pos _ (fun e => h0 (BitVec.eq_of_toNat_eq e)), hw, if_neg (by decide)] at set
  · have set := noint_sets h hn hs
    rwa [nointWindow_pos _ (fun e => h0 (BitVec.eq_of_toNat_eq e)), hw, if_pos rfl] at set
  · exact noint_too_long h hn
  · exact noint_at_task h hn hs ht
  · exact ⟨_, congrArg Host.Outcome.next (if_pos hw), OnlyTile.modTile s t _⟩

end Sys2Proof.Machine
end

section
/-! SUPPORT. A halted tile stays as it halted while its room takes a fault (R189, R190, R388). -/

namespace Sys2Proof.Machine

variable {s t n : State} {k : Nat}

/-- From `s` to `n` tile `k`, if it has halted, stays halted with its privilege registers. -/
def KeepsHalted (k : Nat) (s n : State) : Prop := (s.tile k).run = .halted → (n.tile k).run = .halted ∧ (n.tile k).priv = (s.tile k).priv

theorem KeepsHalted.refl (k : Nat) (s : State) : KeepsHalted k s s := fun h => ⟨h, rfl⟩
theorem KeepsHalted.trans (h : KeepsHalted k s t) (j : KeepsHalted k t n) : KeepsHalted k s n := fun hs => by
  obtain ⟨run, priv⟩ := h hs
  obtain ⟨run', priv'⟩ := j run
  exact ⟨run', priv'.trans priv⟩
theorem KeepsHalted.of_tiles (h : n.tiles = s.tiles) : KeepsHalted k s n := fun hs => by
  unfold State.tile at hs ⊢
  rw [h]
  exact ⟨hs, rfl⟩

/-! ### Messages about a fault leave the tiles alone -/

theorem State.launch_tiles (s : State) (p : Packet) (i : Nat) (tree : Bool) : (s.launch p i tree).2.tiles = s.tiles := by
  unfold State.launch
  split
  · rfl
  · split
    · rfl
    · exact (congrArg State.tiles (State.enqueue_works s _ _).1 :)

theorem State.postCtrl_tiles (s : State) (r : Nat) (dst : BitVec 16) (ty : Nat) (body : List Byte) : (s.postCtrl r dst ty body).2.tiles = s.tiles := by
  have hand : (s.handover 5 r 0 0).2.tiles = s.tiles := (congrArg State.tiles (s.handover_portsRest 5 r 0 0) :)
  have origin : ∀ p, (s.originate r 0 p).2.tiles = s.tiles := fun p => by
    unfold State.originate State.originateAt
    split <;> rename_i e <;> rw [e] at hand
    · exact hand
    · exact (State.launch_tiles _ _ _ _).trans hand
  have sent := origin (ctrlPacket (BitVec.ofNat 16 s.devNo) dst ty body)
  unfold State.postCtrl
  split <;> rename_i e <;> rw [e] at sent <;> exact sent

theorem State.laterFault_tiles (s : State) (r : Nat) : (s.laterFault r).tiles = s.tiles := by
  rw [State.laterFault_eq]
  split <;> rfl

theorem State.tellFault_tiles (s : State) (r : Nat) (dst : BitVec 16) (ty : Nat) (body : List Byte) : (s.tellFault r dst ty body).tiles = s.tiles := by
  have post := s.postCtrl_tiles r dst ty body
  unfold State.tellFault
  split <;> rename_i e <;> rw [e] at post
  · exact post
  · exact (State.laterFault_tiles _ r).trans post

theorem State.homeNotice_tiles (s : State) (job : W32) (origin : BitVec 16) (cause : Nat) : (s.homeNotice job origin cause).tiles = s.tiles := by
  unfold State.homeNotice
  dsimp only
  refine foldl_keeps (fun u : State => u.tiles = s.tiles) (fun u d h => (State.tellFault_tiles u _ _ _ _).trans h) _ _ ?_
  split <;> rfl

theorem State.faultTold_tiles (s : State) (r : Nat) (f : FormRec) (dev : BitVec 16) (a : Nat) : (s.faultTold r f dev a).tiles = s.tiles := by
  unfold State.faultTold
  split
  · rfl
  · split
    · exact State.homeNotice_tiles s _ _ _
    · exact State.tellFault_tiles s _ _ _ _

theorem State.raiseRoom_tiles (s : State) (r : Nat) (m : W32) : (s.raiseRoom r m).tiles = s.tiles := by
  obtain ⟨i, e⟩ := s.raiseRoom_eq r m
  rw [e]
  rfl

theorem State.faultRecorded_tiles (s : State) (r : Nat) (i : FaultInfo) : (s.faultRecorded r i).tiles = s.tiles := by
  have event := State.event_portsRest (s.setRoom r { s.room r with state := .faulted, flt := firstFault s i }) 3 (faultBytes (firstFault s i))
  unfold State.faultRecorded
  generalize (s.setRoom r { s.room r with state := .faulted, flt := firstFault s i }).event 3 (faultBytes (firstFault s i)) = u at event
  obtain ⟨j, e⟩ := (u.modRoom r fun x => { x with frozen := true }).raiseTally_eq r 2
  rw [e]
  exact (congrArg State.tiles event :)

/-! ### The room stops -/

theorem stopTile_halted {x : Tile} (h : x.run = .halted) : stopTile x = x := if_pos h

/-- Halting a room's tiles leaves a tile that has halted as it is. -/
theorem KeepsHalted.haltOne (j : Nat) (s : State) : KeepsHalted k s (haltOne j s) := by
  unfold Machine.haltOne
  split
  · exact .refl k s
  · obtain ⟨m, y, saved⟩ := (((s.modTile j stopTile).dropTileWaits j).discardQueue j).saveUnits_eq j
    obtain ⟨z, -, own, others, -⟩ := ((s.modTile j stopTile).dropTileWaits j).discardQueue_undoes j
    have stopped : ((s.modTile j stopTile).dropTileWaits j).tile j = stopTile (s.tile j) := State.tile_modTile s j stopTile
    rw [saved]
    intro hs
    show ((((s.modTile j stopTile).dropTileWaits j).discardQueue j).tile k).run = _ ∧ ((((s.modTile j stopTile).dropTileWaits j).discardQueue j).tile k).priv = _
    by_cases e : k = j
    · subst e
      rw [own, stopped, stopTile_halted hs]
      exact ⟨hs, rfl⟩
    · rw [others k e]
      exact (KeepsHalted.refl k s hs).imp (congrArg Tile.run (State.tile_modTile_ne s stopTile e)).trans (congrArg Tile.priv (State.tile_modTile_ne s stopTile e)).trans

theorem KeepsHalted.faultStops (s : State) (r a : Nat) : KeepsHalted k s (s.faultStops r a) := by
  unfold State.faultStops
  split
  · exact .of_tiles rfl
  · exact (KeepsHalted.of_tiles (congrArg State.tiles (s.disarmCues_disarms r).1.2 :)).trans
      (foldl_keeps (KeepsHalted k (s.disarmCues r)) (fun u j h => h.trans (.haltOne j u)) _ _ (.refl k _))

/-- A fault of a room leaves a tile that has halted as it is. -/
theorem KeepsHalted.roomFault (s : State) (r : Nat) (i : FaultInfo) : KeepsHalted k s (s.roomFault r i) := by
  obtain ⟨f, -, run⟩ | ⟨-, run⟩ | ⟨-, run⟩ := s.roomFault_cases r i
  · rw [run]
    have told := (State.faultTold_tiles _ r f (BitVec.ofNat 16 s.devNo) i.cause).trans (s.faultRecorded_tiles r i)
    exact (KeepsHalted.of_tiles told).trans ((KeepsHalted.faultStops _ r _).trans (.of_tiles (State.raiseRoom_tiles _ r 2)))
  · rw [run]
    exact .of_tiles (s.laterFault_tiles r)
  · rw [run]
    exact .refl k s

theorem KeepsHalted.tileFaultRoom (s : State) (j : Nat) (i : FaultInfo) : KeepsHalted k s (s.tileFaultRoom j i) := by
  unfold State.tileFaultRoom
  split
  · exact .roomFault s _ _
  · exact .refl k s

/-! ### A tile without a room -/

/-- A halt changes no room. -/
theorem State.haltedAt_tileRoom (s : State) (k : Nat) (cause : W16) (j : Nat) : (s.haltedAt k cause).tileRoom j = s.tileRoom j :=
  (congrArg (fun z : State => z.tileRoom j) ((s.dropTileWaits k).discardQueue_tile k k).1 :)

theorem State.haltTile_unowned (h : s.tileRoom k = none) (cause : W16) : s.haltTile k cause = s.haltedAt k cause := by
  have room : (s.haltedAt k cause).tileRoom k = none := (s.haltedAt_tileRoom k cause k).trans h
  unfold State.haltTile
  dsimp only
  split
  next r e => exact absurd (room.symm.trans e) (by simp)
  next => rfl

theorem State.tileFaultRoom_unowned (h : s.tileRoom k = none) (i : FaultInfo) : s.tileFaultRoom k i = s := by
  unfold State.tileFaultRoom
  rw [h]

end Sys2Proof.Machine
end

section
/-! Interrupts and faults (R167, R181, R183, R185, R189, R191). -/

namespace Sys2Proof.Machine

variable {s : State} {t : TileId} {x y : Tile} {k : Nat}

/-! ### Entry to a handler (R185) -/

/-- The tile `y` once it has entered the handler in `slot` from `x`. -/
def entered (x y : Tile) (slot : Nat) : Tile :=
  { y with sw := (x.sw &&& 0x03FF) ||| 0xF400, pc := x.priv.vecBase + BitVec.ofNat 32 (16 * slot), run := .running,
           priv := { y.priv with ssw := x.sw, spc := x.pc, xr := false, xw := false, nrem := 0 } }

theorem enterHandler_eq {pc : W32} (hs : y.sw = x.sw) (hp : pc = x.pc) (hv : y.priv.vecBase = x.priv.vecBase) (hr : y.run ≠ .stopped) (slot : Nat) :
    enterHandler y pc slot = entered x y slot := by
  unfold enterHandler entered
  rw [entrySw_eq, hs, hp, hv, if_neg hr]

theorem fullyMasked_iff (x : Tile) : fullyMasked x = false ↔ x.sw.getLsbD 10 = false ∧ x.sw.toNat / 4096 % 8 ≠ 7 := by
  unfold fullyMasked
  rw [Bool.or_eq_false_iff, decide_eq_false_iff_not]
  rfl

theorem run_ne_stopped_of_atBoundary (h : atBoundary x = true) : x.run ≠ .stopped := fun e => by simp [atBoundary, e] at h

/-! ### The line accepted (R181, R183) -/

/-- Line `j` is pending and enabled at a level above the mask. -/
def lineReady (x : Tile) (j : Nat) : Bool := x.priv.irqPend.getLsbD j && x.priv.irqEn.getLsbD j && decide (swMask x.sw < lineLevel x j)

theorem lineReady_iff (x : Tile) (j : Nat) : lineReady x j = true ↔ x.priv.irqPend.getLsbD j = true ∧ x.priv.irqEn.getLsbD j = true ∧ swMask x.sw < lineLevel x j := by
  simp only [lineReady, Bool.and_eq_true, decide_eq_true_iff, and_assoc]

/-- Line `j` takes the place of the best line before it where it is ready at a higher level. -/
def takeLine (x : Tile) (j : Nat) (best : Option Nat) : Option Nat := if lineReady x j && best.all fun b => lineLevel x b < lineLevel x j then some j else best

theorem chosenLine_eq_takeLines (x : Tile) : chosenLine x = forN 16 (takeLine x) none := by
  unfold chosenLine forN
  congr 1
  funext best j
  unfold takeLine lineReady
  cases best with
  | none => simp
  | some b => by_cases h : lineLevel x b < lineLevel x j <;> simp [h]

/-- The choice among the lines below `n`: `k` once it has been seen, and before that a line of a lower level. -/
def ChoosesUpTo (x : Tile) (k n : Nat) (best : Option Nat) : Prop := n ≤ 16 → if k < n then best = some k else ∀ b, best = some b → lineLevel x b < lineLevel x k

/-- The line of the highest level, and of the lowest number among equals, is chosen. -/
theorem chosenLine_eq (hk : k < 16) (ready : lineReady x k = true) (top : ∀ j, j < 16 → lineReady x j = true → lineLevel x j < lineLevel x k ∨ lineLevel x j = lineLevel x k ∧ k ≤ j) :
    chosenLine x = some k := by
  rw [chosenLine_eq_takeLines]
  suffices chosen : ChoosesUpTo x k 16 (forN 16 (takeLine x) none) by simpa [hk] using chosen le_rfl
  refine forN_carries (P := ChoosesUpTo x k) (fun j best ih hj => ?_) (fun _ => by simp) 16
  have before := ih (by omega)
  unfold takeLine
  obtain below | rfl | above := Nat.lt_trichotomy j k
  · rw [if_neg (by omega)] at before ⊢
    intro b hb
    split at hb
    next r =>
      cases hb
      have := top j (by omega) (Bool.and_eq_true_iff.1 r).1
      omega
    next => exact before b hb
  · rw [if_neg (by omega)] at before
    have all : (best.all fun b => lineLevel x b < lineLevel x j) = true := (Option.all_eq_true _ _).2 fun b hb => decide_eq_true (before b hb)
    rw [if_pos (by omega), ready, all]
    rfl
  · rw [if_pos above] at before
    rw [if_pos (by omega), before]
    refine if_neg fun r => ?_
    obtain ⟨r, higher⟩ := Bool.and_eq_true_iff.1 r
    have := top j (by omega) r
    have : lineLevel x k < lineLevel x j := of_decide_eq_true higher
    omega

/-! ### INTERRUPT_ACCEPT and ASYNC_FAULT (R183, R185, R191) -/

/-- The tile takes line `k`, and counts it (R168). -/
def acceptLine (k : Nat) (x : Tile) : Tile := perfCount 15 (swS x.sw) (enterHandler { x with priv := { x.priv with irqPend := x.priv.irqPend &&& ~~~(1#16 <<< k) } } x.pc k)

/-- The tile takes its oldest asynchronous fault `f`. -/
def acceptFault (f : AsyncFlt) (rest : List AsyncFlt) (x : Tile) : Tile :=
  recordFault (enterHandler { x with async := rest } x.pc 17) f.code.toNat f.addr.toNat (boundaryPc x)

section
variable {c : Tile} (same : SameButCounts x c) (hr : x.run ≠ .stopped)
include same hr

/-- Counting the cycle events leaves what an entry saves as it was. -/
theorem SameButCounts.entered (hs : y.sw = c.sw) (hv : y.priv.vecBase = c.priv.vecBase) (hy : y.run = c.run) (slot : Nat) : enterHandler y c.pc slot = entered x y slot :=
  enterHandler_eq (hs.trans same.sw) same.pc (hv.trans (congrArg (fun z : Tile => z.priv.vecBase) same :)) (by rw [hy, (congrArg Tile.run same :)]; exact hr) slot

theorem acceptLine_eq (k : Nat) :
    acceptLine k c = perfCount 15 (swS x.sw) (entered x { c with priv := { c.priv with irqPend := c.priv.irqPend &&& ~~~(1#16 <<< k) } } k) := by
  refine congrArg₂ (perfCount 15) (congrArg swS same.sw) (SameButCounts.entered same hr ?_ ?_ ?_ k) <;> rfl

theorem acceptFault_eq (f : AsyncFlt) (rest : List AsyncFlt) :
    acceptFault f rest c = recordFault (entered x { c with async := rest } 17) f.code.toNat f.addr.toNat (boundaryPc x) := by
  refine congrArg₂ (recordFault · f.code.toNat f.addr.toNat ·) (SameButCounts.entered same hr ?_ ?_ ?_ 17) (congrArg boundaryPc same :) <;> rfl

end

section
variable (ha : atBoundary (s.tile t) = true) (hq : s.quireOn (tileQuire t) = true) (hw : swNW (s.tile t).sw = false) (hm : fullyMasked (s.tile t) = false)
include ha hq hw hm

/-- The chosen line is taken in the state with the cycle events counted. -/
theorem exec_interruptAccept (hf : (s.tile t).async = []) (hl : chosenLine (s.tile t) = some k) :
    exec (.interruptAccept t) s = .next (((s.dropTileWaits t).cyclePerf t).modTile t (acceptLine k)) := by
  refine congrArg Host.Outcome.next ?_
  dsimp only
  rw [if_pos (by simp [ha, hq, hw, hm, hf]), hl]
  rfl

/-- The oldest fault is taken in the state with the cycle events counted. -/
theorem exec_asyncFault {f : AsyncFlt} {rest : List AsyncFlt} (hf : (s.tile t).async = f :: rest) :
    exec (.asyncFault t) s = .next (((s.dropTileWaits t).cyclePerf t).modTile t (acceptFault f rest)) := by
  refine congrArg Host.Outcome.next ?_
  dsimp only
  rw [if_pos (by simp [ha, hq, hw, hm]), hf]
  rfl

end

/-! ### Synchronous faults (R183, R185, R189) -/

section
variable {code addr : Nat} (hc : code ≠ 5)
include hc

/-- A synchronous fault is taken below the full mask. -/
theorem State.takeSync_open (hm : fullyMasked (s.tile t) = false) :
    s.takeSync t code addr = s.modTile t fun x => recordFault (enterHandler x x.pc 16) code addr x.pc := by
  unfold State.takeSync
  rw [if_neg hc]
  exact if_neg (by simp [hm])

/-- A synchronous fault under the full mask halts the tile, and faults its room. -/
theorem State.takeSync_masked (hm : fullyMasked (s.tile t) = true) :
    s.takeSync t code addr = (s.haltTile t (BitVec.ofNat 16 (0x8000 + code))).tileFaultRoom t { cause := 4, haltCause := BitVec.ofNat 16 (0x8000 + code) } := by
  unfold State.takeSync
  rw [if_neg hc]
  exact if_pos hm

end

/-- A masked synchronous fault leaves the tile halted, whatever its room does. -/
theorem takeSync_halts {code addr : Nat} (hc : code ≠ 5) (hm : fullyMasked (s.tile t) = true) :
    ((s.takeSync t code addr).tile t).run = .halted ∧ ((s.takeSync t code addr).tile t).priv = { (s.tile t).priv with
      haltCause := BitVec.ofNat 16 (0x8000 + code), haltPc := (s.tile t).pc, nrem := 0 } := by
  obtain ⟨y, -, own, -, -⟩ := s.haltTile_halts t (BitVec.ofNat 16 (0x8000 + code))
  have kept := KeepsHalted.tileFaultRoom (k := t) (s.haltTile t (BitVec.ofNat 16 (0x8000 + code))) t { cause := 4, haltCause := BitVec.ofNat 16 (0x8000 + code) }
  rw [KeepsHalted, own] at kept
  rw [State.takeSync_masked hc hm]
  exact kept rfl

/-- A masked synchronous fault of a tile without a room changes the tile as its halt says. -/
theorem takeSync_halts_unowned {code addr : Nat} (hc : code ≠ 5) (hm : fullyMasked (s.tile t) = true) (hr : s.tileRoom t = none) :
    ∃ y ∈ (s.tile t).xu.toXuRegs :: (s.tile t).xu.queue,
      (s.takeSync t code addr).tile t = halted (BitVec.ofNat 16 (0x8000 + code)) { s.tile t with xu := { y with queue := [] } } := by
  obtain ⟨y, hy, own, -, -⟩ := s.haltTile_halts t (BitVec.ofNat 16 (0x8000 + code))
  have room : (s.haltTile t (BitVec.ofNat 16 (0x8000 + code))).tileRoom t = none := by
    rw [State.haltTile_unowned hr]
    exact (s.haltedAt_tileRoom t _ t).trans hr
  refine ⟨y, hy, ?_⟩
  rw [State.takeSync_masked hc hm, State.tileFaultRoom_unowned room, own]

/-- Settles O17: an entry by what its tile had before the counting, a masked fault by the halt that its room's fault keeps. -/
theorem interruptionsEnterTheHandlerInOneStep : Obligations.InterruptionsEnterTheHandlerInOneStep := by
  unfold Obligations.InterruptionsEnterTheHandlerInOneStep
  intro s t
  obtain ⟨_, _, c, ⟨own, -, -⟩, same⟩ := (s.dropTileWaits t).cyclePerf_counts t
  rw [← own] at same
  refine ⟨same, fun ha hq hw ho => ⟨fun hf k ready top => ?_, fun f rest hf => ?_⟩, fun code addr hc _ => ⟨fun ho hr => ?_, fun ho => ?_, fun ho hr => ?_⟩, fun k he hl hk => ?_⟩
  · have chosen : chosenLine (s.tile t) = some k.val :=
      chosenLine_eq k.isLt ((lineReady_iff _ _).2 ready) fun j hj r => top j hj ((lineReady_iff _ _).1 r)
    refine ⟨_, exec_interruptAccept ha hq hw ((fullyMasked_iff _).2 ho) hf chosen, ?_⟩
    have only := OnlyTile.modTile ((s.dropTileWaits t).cyclePerf t) t (acceptLine k)
    rwa [acceptLine_eq same (run_ne_stopped_of_atBoundary ha)] at only
  · refine ⟨_, exec_asyncFault ha hq hw ((fullyMasked_iff _).2 ho) hf, ?_⟩
    have only := OnlyTile.modTile ((s.dropTileWaits t).cyclePerf t) t (acceptFault f rest)
    rw [acceptFault_eq same (run_ne_stopped_of_atBoundary ha), recordFault, BitVec.ofNat_toNat, BitVec.ofNat_toNat] at only
    exact only
  · have running : (s.tile t).run ≠ .stopped := by rw [hr]; decide
    have only := OnlyTile.modTile s t fun x => recordFault (enterHandler x x.pc 16) code addr x.pc
    rw [enterHandler_eq rfl rfl rfl running] at only
    rw [State.takeSync_open hc ((fullyMasked_iff _).2 ho)]
    exact only
  · exact takeSync_halts hc (by rw [← fullyMasked_iff] at ho; simpa using ho)
  · exact takeSync_halts_unowned hc (by rw [← fullyMasked_iff] at ho; simpa using ho) hr
  · have counts : (swS (s.tile t).sw && (s.tile t).perf.noSup) = false := Bool.and_eq_false_iff.2 hl
    refine ⟨_, congrArg Host.Outcome.next (if_pos ?_), OnlyTile.modTile s t fun x => perfWrap x k 0⟩
    rw [he, counts, hk]
    rfl

end Sys2Proof.Machine
end

section
/-! SUPPORT. How the units run one instruction: its issue, what it may change, and rows read and written over good granules (R192 to R199, R211, R212). -/

namespace Sys2Proof.Machine

variable {s u v n : State} {t : TileId} {k : Nat}

/-! ### Issue (R196) -/

/-- What the issue of a unit instruction of `w` words, fetched at level `sup`, leaves: it has retired, and stands in the queue. -/
def State.issued (v : State) (t w : Nat) (sup : Bool) : State := v.modTile t fun x => retireAt { x with xu := enqueueUnit x.xu } sup (pcNext x w)

section
variable {α : Type} {w : Nat} {check : State → Mem α} {body : α → State → State}

/-- A unit instruction whose checks pass. -/
theorem unitInstr_issues (h : Fetches s t w u) {a : α} (hc : check u = .ok a v) : s.unitInstr t w check body = body a (v.issued t w (swS (s.tile t).sw)) := by
  unfold State.unitInstr
  rw [h.1, if_pos rfl, h.2]
  dsimp only [Mem.andThen]
  rw [hc]
  rfl

/-- A unit instruction that its checks refuse. -/
theorem unitInstr_refused (h : Fetches s t w u) {c a : Nat} (hc : check u = .fault c a v) : s.unitInstr t w check body = v.takeSync t c a := by
  unfold State.unitInstr
  rw [h.1, if_pos rfl, h.2]
  dsimp only [Mem.andThen]
  rw [hc]

theorem faults_unit {i : Instr} (h : Fetches s t w u) (hi : exec i s = .next (s.unitInstr t w check body)) {c a : Nat} (hc : check u = .fault c a u) : Faults s u t i c a :=
  hi.trans (congrArg _ (unitInstr_refused h hc))

end

/-- Counting an event does not look at the units. -/
theorem perfCount_xu (code : Nat) (sup : Bool) (x : Tile) (y : Xu) : perfCount code sup { x with xu := y } = { perfCount code sup x with xu := y } := by
  unfold perfCount forN
  dsimp only
  split
  · generalize List.range 4 = l
    refine List.foldl_hom (fun z : Tile => { z with xu := y }) fun z i => ?_
    dsimp only
    split
    · split <;> rfl
    · rfl
  · rfl

theorem retireAt_xu (x : Tile) (y : Xu) (sup : Bool) (pc : W32) : retireAt { x with xu := y } sup pc = { retireAt x sup pc with xu := y } :=
  perfCount_xu 2 sup { x with pc := pc, lastPc := x.pc } y

/-! ### Frames -/

/-- Outside the units of tile `k` and the counter of free values, `n` is as `s`. -/
structure UnitOnly (k : Nat) (s n : State) : Prop where
  core : { n.tile k with xu := {} } = { s.tile k with xu := {} }
  others : ∀ j, j ≠ k → n.tile j = s.tile j
  rest : { n with tiles := s.tiles, free := s.free } = s

theorem UnitOnly.refl (k : Nat) (s : State) : UnitOnly k s s := ⟨rfl, fun _ _ => rfl, rfl⟩

theorem UnitOnly.trans (h : UnitOnly k s u) (g : UnitOnly k u n) : UnitOnly k s n where
  core := g.core.trans h.core
  others j hj := (g.others j hj).trans (h.others j hj)
  rest := (congrArg (fun z : State => { z with tiles := s.tiles, free := s.free }) g.rest).trans h.rest

theorem UnitOnly.modXu (s : State) (k : Nat) (f : Xu → Xu) : UnitOnly k s (s.modXu k f) where
  core := by rw [State.modXu, State.tile_modTile]
  others j hj := State.tile_modTile_ne s _ hj
  rest := rfl

theorem UnitOnly.spend (k : Nat) (s : State) : UnitOnly k s s.spend := ⟨rfl, fun _ _ => rfl, rfl⟩

theorem UnitOnly.mem (h : UnitOnly k s n) : n.mem = s.mem := (congrArg State.mem h.rest :)
theorem UnitOnly.synd (h : UnitOnly k s n) : n.synd = s.synd := (congrArg State.synd h.rest :)

theorem State.xu_modXu (s : State) (k : Nat) (f : Xu → Xu) : ((s.modXu k f).tile k).xu = f (s.tile k).xu := by rw [State.modXu, State.tile_modTile]

theorem State.xu_issued (v : State) (k w : Nat) (sup : Bool) : ((v.issued k w sup).tile k).xu = enqueueUnit (v.tile k).xu := by
  unfold State.issued
  rw [State.tile_modTile, retireAt_xu]

/-- An instruction whose effect stays within the units completes. -/
theorem unitCompletes_of {i : Instr} {w : Nat} (hi : exec i s = .next n) (h : UnitOnly t (v.issued t w (swS (s.tile t).sw)) n) : UnitCompletes s v n t i w := by
  refine ⟨hi, h.core.trans ?_, fun j hj => (h.others j hj).trans (State.tile_modTile_ne v _ hj), (congrArg (fun z : State => { z with tiles := v.tiles, free := v.free }) h.rest).trans rfl⟩
  unfold State.issued
  rw [State.tile_modTile, retireAt_xu]
  rfl

/-! ### What the units compute with (R192, R215) -/

/-- The unit state as far as results depend on it: tile registers, controls, flags, index and lane mask, without latches, counters and queue. -/
structure UnitView where
  rows : Tbl Byte
  synd : Tbl Byte
  ctl : W16
  stat : W16
  rix : BitVec 5
  lmask : W32

/-- The part of the unit state that results depend on. -/
def viewOf (x : Xu) : UnitView := ⟨x.rows, x.synd, x.ctl, x.stat, x.rix, x.lmask⟩

theorem viewOf_collect (x : Xu) (l : Coll) (row : Nat) : viewOf (collect x l row) = viewOf x := by
  cases l <;> (unfold collect; dsimp only; split <;> rfl)

/-- From `s` to `n` the units of tile `k` have gone on alone, and results still depend on the same. -/
structure Reads (k : Nat) (s n : State) : Prop where
  only : UnitOnly k s n
  view : viewOf (n.tile k).xu = viewOf (s.tile k).xu

theorem Reads.refl (k : Nat) (s : State) : Reads k s s := ⟨.refl k s, rfl⟩
theorem Reads.trans (h : Reads k s u) (g : Reads k u n) : Reads k s n := ⟨h.only.trans g.only, g.view.trans h.view⟩
theorem Reads.modXu (s : State) (k : Nat) {f : Xu → Xu} (h : ∀ x, viewOf (f x) = viewOf x) : Reads k s (s.modXu k f) := ⟨.modXu s k f, by rw [State.xu_modXu, h]⟩
theorem Reads.spend (k : Nat) (s : State) : Reads k s s.spend := ⟨.spend k s, rfl⟩

theorem Reads.unitCycles (s : State) (k extra : Nat) : Reads k s (s.unitCycles k extra) :=
  ((Reads.spend k s).trans (.spend k s.spend)).trans (Reads.modXu _ k (f := fun x => { x with busy := x.busy + (s.freeVal 16).setWidth 64, conflict := x.conflict + BitVec.ofNat 64 extra + (s.spend.freeVal 16).setWidth 64 }) fun _ => rfl)

theorem Reads.clean (h : Reads k s n) (hc : XuClean (s.tile k).xu) : XuClean (n.tile k).xu := fun g => by
  have synd : (n.tile k).xu.synd = (s.tile k).xu.synd := (congrArg UnitView.synd h.view :)
  rw [synd]
  exact hc g

/-! ### Rows read (R192, R194) -/

/-- The bytes of row `r`. -/
def rowBytes (x : Xu) (r : Nat) : List Byte := (List.range 64).map fun i => Tbl.get 0 x.rows (64 * r + i)

theorem State.xrGran_good (hc : XuClean (s.tile k).xu) (g : Nat) : s.xrGran k g = (some ((List.range 8).map fun i => Tbl.get 0 (s.tile k).xu.rows (8 * g + i)), s) := by
  unfold State.xrGran
  dsimp only
  rw [hc g]
  rfl

/-- Pieces of equal length, one after the other. -/
theorem flatMap_pieces {α : Type} (f : Nat → α) (m k : Nat) : (List.range m).flatMap (fun i => (List.range k).map fun j => f (k * i + j)) = (List.range (k * m)).map f := by
  induction m with
  | zero => rfl
  | succ m ih => rw [List.range_succ, List.flatMap_append, ih, List.flatMap_singleton, Nat.mul_succ, List.range_add, List.map_append, List.map_map]; rfl

/-- A fold that gathers what reads give, where each read leaves the reader `r` as it is. -/
theorem foldl_gathers {α β ρ : Type} {read : ρ → Nat → α × ρ} {d : Nat → α} {r : ρ} (h : ∀ i, read r i = (d i, r)) (put : α → List β) (is : List Nat) (l : List β) :
    is.foldl (fun (a : List β × ρ) i => (a.1 ++ put (read a.2 i).1, (read a.2 i).2)) (l, r) = (l ++ is.flatMap fun i => put (d i), r) := by
  induction is generalizing l with
  | nil => simp
  | cons i is ih => rw [List.foldl_cons, h, ih, List.flatMap_cons, List.append_assoc]

/-- The bytes of granule `g` of the tile registers. -/
def granBytes (x : Xu) (g : Nat) : List Byte := (List.range 8).map fun i => Tbl.get 0 x.rows (8 * g + i)

theorem flatMap_granBytes (x : Xu) (row : Nat) : ((List.range 8).flatMap fun i => granBytes x (8 * row + i)) = rowBytes x row := by
  have pieces := flatMap_pieces (fun j => Tbl.get 0 x.rows (64 * row + j)) 8 8
  unfold rowBytes
  rw [← pieces]
  refine List.flatMap_congr fun i _ => List.map_congr_left fun j _ => ?_
  congr 1
  omega

section
variable {r : Run1} (hc : XuClean (r.s.tile k).xu)
include hc

theorem Run1.row_good (row : Nat) : r.row k row = (rowBytes (r.s.tile k).xu row, r) := by
  have good (i : Nat) : Run1.gran r k (8 * row + i) = (granBytes (r.s.tile k).xu (8 * row + i), r) := by
    unfold Run1.gran
    rw [State.xrGran_good hc]
    rfl
  rw [← flatMap_granBytes, Run1.row]
  generalize List.range 8 = is
  exact foldl_gathers (read := fun r i => Run1.gran r k (8 * row + i)) good id is []

theorem Run1.carryRow_good (row : Nat) : r.carryRow k row = ((List.range 8).map fun i => (granBytes (r.s.tile k).xu (8 * row + i), 0), r) := by
  have good (i : Nat) : Run1.carry r k (8 * row + i) = ((granBytes (r.s.tile k).xu (8 * row + i), 0), r) := by
    unfold Run1.carry
    rw [State.xrGran_good hc]
    rfl
  rw [Run1.carryRow]
  generalize List.range 8 = is
  exact (foldl_gathers (read := fun r i => Run1.carry r k (8 * row + i)) good (fun d => [d]) is []).trans (congrArg (·, r) (List.flatMap_pure_eq_map _ _))

/-- An operand row as a number; a latch may take it. -/
theorem Run1.operand_good (l : Coll) (row : Nat) : ∃ m, r.operand k l row = (rowOf (r.s.tile k).xu row, { r with s := m }) ∧ Reads k r.s m := by
  have reads : Reads k r.s (r.s.modXu k fun x => collect x l row) := .modXu _ k fun x => viewOf_collect x l row
  have rows : ((r.s.modXu k fun x => collect x l row).tile k).xu.rows = (r.s.tile k).xu.rows := (congrArg UnitView.rows reads.view :)
  refine ⟨_, ?_, reads⟩
  unfold Run1.operand
  rw [Run1.row_good (r := { r with s := r.s.modXu k fun x => collect x l row }) (reads.clean hc)]
  dsimp only
  unfold rowOf rowBytes
  rw [rows]

end

/-! ### Rows written (R192, R209, R212) -/

theorem get_forN_put {α : Type} [DecidableEq α] (d : α) (off : Nat) (f : Nat → α) (m : Nat) (r : Tbl α) (j : Nat) :
    Tbl.get d (forN m (fun i r => Tbl.put d r (off + i) (f i)) r) j = if off ≤ j ∧ j < off + m then f (j - off) else Tbl.get d r j := by
  induction m with
  | zero => exact (if_neg (by omega)).symm
  | succ m ih =>
    unfold forN at ih ⊢
    rw [List.range_succ, List.foldl_append, List.foldl_cons, List.foldl_nil, Tbl.get_put]
    obtain rfl | hj := eq_or_ne j (off + m)
    · rw [if_pos rfl, if_pos (by omega), Nat.add_sub_cancel_left]
    · rw [if_neg hj, ih]
      by_cases hm : off ≤ j ∧ j < off + m
      · rw [if_pos hm, if_pos (by omega)]
      · rw [if_neg hm, if_neg (by omega)]

end Sys2Proof.Machine
end

section
/-! SUPPORT. What a vector instruction does over good granules: the rows it reads, and the row or the lane mask that it writes (R199, R201, R211, R215, R216). -/

namespace Sys2Proof.Machine

variable {s u v n : State} {k : Nat}

/-- Bytes have been written into the tile registers of tile `k` from byte `off`, and nothing that results depend on has changed else. -/
structure BytesWritten (k off : Nat) (bs : List Byte) (s n : State) : Prop where
  only : UnitOnly k s n
  rows : ∀ j, Tbl.get 0 (n.tile k).xu.rows j = if off ≤ j ∧ j < off + bs.length then bs.getD (j - off) 0 else Tbl.get 0 (s.tile k).xu.rows j
  clean : XuClean (s.tile k).xu → XuClean (n.tile k).xu
  control : { viewOf (n.tile k).xu with rows := [], synd := [] } = { viewOf (s.tile k).xu with rows := [], synd := [] }

theorem State.putXr_writes (s : State) (k off : Nat) (bs : List Byte) : BytesWritten k off bs s (s.putXr k off bs) where
  only := UnitOnly.modXu s k fun x => { x with
    rows := forN bs.length (fun i r => Tbl.put 0 r (off + i) (bs.getD i 0)) x.rows, synd := forN ((off + bs.length + 7) / 8 - off / 8) (fun i r => Tbl.put 0 r (off / 8 + i) 0) x.synd }
  rows j := by
    unfold State.putXr
    rw [State.tile_modTile]
    exact get_forN_put 0 off (fun i => bs.getD i 0) bs.length _ j
  clean hc g := by
    unfold State.putXr
    rw [State.tile_modTile]
    refine (get_forN_put 0 (off / 8) (fun _ => (0 : Byte)) _ _ g).trans ?_
    rw [hc g, ite_self]
  control := by
    unfold State.putXr
    rw [State.tile_modTile]
    rfl

theorem BytesWritten.then {off : Nat} {bs : List Byte} (h : BytesWritten k off bs s u) (r : Reads k u n) : BytesWritten k off bs s n where
  only := h.only.trans r.only
  rows j := by
    have same : (n.tile k).xu.rows = (u.tile k).xu.rows := (congrArg UnitView.rows r.view :)
    rw [same]
    exact h.rows j
  clean hc := r.clean (h.clean hc)
  control := by rw [r.view, h.control]

theorem Reads.forgetRow (s : State) (k row : Nat) : Reads k s (s.modXu k fun x => Machine.forgetRow x row) := .modXu s k fun _ => rfl

theorem State.putRow_writes (s : State) (k row : Nat) (bs : List Byte) : BytesWritten k (64 * row) bs s (s.putRow k row bs) :=
  (s.putXr_writes k (64 * row) bs).then (.forgetRow _ k row)

/-! ### The effect of a vector instruction -/

/-- XU_RIX steps where R199 says so, and the instruction's cycles are counted. -/
def State.stepRix (s : State) (t : Nat) (v : VOps) (extra : Nat) : State := (s.modXu t fun x => if x.ctl.getLsbD 4 && v.ixm ≠ 0 then { x with rix := x.rix + 1 } else x).unitCycles t extra

/-- What is left of a vector instruction once its rows are read: `e` is its row, its mask and its flags. -/
def State.vecWrite (s : State) (t : Nat) (sh : VShape) (v : VOps) (rd off m extra : Nat) (e : Nat × W32 × W16) : State :=
  (if sh.write then ((s.unitFlags t e.2.2).putXr t (64 * rd + off) (leBytes m e.1)).modXu t fun x => forgetRow x rd
    else (s.unitFlags t e.2.2).modXu t fun x => { x with lmask := e.2.1 }).stepRix t v extra

section
variable {t : Nat} (hc : XuClean (s.tile t).xu) (sh : VShape) (v : VOps)
include hc

/-- An operand that the shape uses is read, another is 0. -/
theorem operandIf_good (b : Bool) (l : Coll) (row : Nat) {m : State} (hm : Reads t s m) : ∃ n, (if b then Run1.operand { s := m, bad := [] } t l row else (0, { s := m, bad := [] })) =
    (if b then rowOf (s.tile t).xu row else 0, ({ s := n, bad := [] } : Run1)) ∧ Reads t s n := by
  cases b
  · exact ⟨m, rfl, hm⟩
  · obtain ⟨n, run, reads⟩ := Run1.operand_good (r := { s := m, bad := [] }) (hm.clean hc) l row
    have rows : (m.tile t).xu.rows = (s.tile t).xu.rows := (congrArg UnitView.rows hm.view :)
    unfold rowOf at run ⊢
    rw [rows] at run
    exact ⟨n, run, hm.trans reads⟩

/-- Over good granules a vector instruction reads its rows as they stand, and then writes. -/
theorem State.vecRunPart_good (off m : Nat) (f : Xu → Nat → Nat → Nat → Nat × W32 × W16) : ∃ u extra, Reads t s u ∧
    s.vecRunPart t sh v off m f = u.vecWrite t sh v (rowAt (s.tile t).xu (ixD v) v.vd) off m extra (f (s.tile t).xu (rowOf (s.tile t).xu (rowAt (s.tile t).xu (ixA v) v.va))
      (if sh.useB then rowOf (s.tile t).xu (rowAt (s.tile t).xu (ixBC v && sh.useB) v.vb) else 0)
      (if sh.useC then rowOf (s.tile t).xu (rowAt (s.tile t).xu (ixBC v && sh.useC) v.vc) else 0)) := by
  obtain ⟨s1, run1, reads1⟩ := operandIf_good hc true .a (rowAt (s.tile t).xu (ixA v) v.va) (.refl t s)
  obtain ⟨s2, run2, reads2⟩ := operandIf_good hc sh.useB .b (rowAt (s.tile t).xu (ixBC v && sh.useB) v.vb) reads1
  obtain ⟨s3, run3, reads3⟩ := operandIf_good hc sh.useC .c (rowAt (s.tile t).xu (ixBC v && sh.useC) v.vc) reads2
  refine ⟨s3, extraReads (s.tile t).xu ([(Coll.a, rowAt (s.tile t).xu (ixA v) v.va)] ++ (if sh.useB then [(Coll.b, rowAt (s.tile t).xu (ixBC v && sh.useB) v.vb)] else []) ++
    (if sh.useC then [(Coll.c, rowAt (s.tile t).xu (ixBC v && sh.useC) v.vc)] else [])), reads3, ?_⟩
  unfold State.vecRunPart
  dsimp only
  rw [if_pos rfl, if_pos rfl] at run1
  rw [run1]
  dsimp only
  rw [run2]
  dsimp only
  rw [run3]
  rfl

end

/-- A vector instruction has gone from `s` to `n`: beside its row or mask it has gathered the flags `fl` and stepped XU_RIX as R199 says. -/
structure VecDone (t : Nat) (v : VOps) (fl : W16) (s n : State) : Prop where
  only : UnitOnly t s n
  stat : (n.tile t).xu.stat = (s.tile t).xu.stat ||| fl
  rix : (n.tile t).xu.rix = if (s.tile t).xu.ctl.getLsbD 4 = true ∧ v.ixm ≠ 0 then (s.tile t).xu.rix + 1 else (s.tile t).xu.rix

section
variable {t : Nat}

theorem State.unitFlags_xu (s : State) (t : Nat) (fl : W16) : ((s.unitFlags t fl).tile t).xu = { (s.tile t).xu with stat := (s.tile t).xu.stat ||| fl } := State.xu_modXu s t _

/-- The unit state as results depend on it, after the step of XU_RIX. -/
theorem State.stepRix_view (s : State) (t : Nat) (v : VOps) (extra : Nat) :
    viewOf ((s.stepRix t v extra).tile t).xu = { viewOf (s.tile t).xu with rix := if (s.tile t).xu.ctl.getLsbD 4 = true ∧ v.ixm ≠ 0 then (s.tile t).xu.rix + 1 else (s.tile t).xu.rix } := by
  unfold State.stepRix
  rw [(Reads.unitCycles _ t extra).view, State.xu_modXu]
  by_cases h : (s.tile t).xu.ctl.getLsbD 4 = true ∧ v.ixm ≠ 0
  · rw [if_pos h, if_pos (by simpa using h)]
    rfl
  · rw [if_neg h, if_neg (by simpa using h)]
    rfl

/-- The step of XU_RIX ends an instruction that has written and gathered its flags. -/
theorem VecDone.of_step {v : VOps} {fl : W16} {extra : Nat} (only : UnitOnly t s u) (stat : (u.tile t).xu.stat = (s.tile t).xu.stat ||| fl) (ctl : (u.tile t).xu.ctl = (s.tile t).xu.ctl)
    (rix : (u.tile t).xu.rix = (s.tile t).xu.rix) : VecDone t v fl s (u.stepRix t v extra) where
  only := only.trans ((UnitOnly.modXu u t _).trans (Reads.unitCycles _ t extra).only)
  stat := (congrArg UnitView.stat (u.stepRix_view t v extra) :).trans stat
  rix := by rw [← ctl, ← rix]; exact (congrArg UnitView.rix (u.stepRix_view t v extra) :)

variable {sh : VShape} {v : VOps} {rd off m extra : Nat} {e : Nat × W32 × W16} (h : Reads t s u)
include h

/-- The row that a vector instruction writes. -/
theorem vecWrite_row (hw : sh.write = true) : VecDone t v e.2.2 s (u.vecWrite t sh v rd off m extra e) ∧ ((u.vecWrite t sh v rd off m extra e).tile t).xu.lmask = (s.tile t).xu.lmask ∧
    ∀ j, Tbl.get 0 ((u.vecWrite t sh v rd off m extra e).tile t).xu.rows j = if 64 * rd + off ≤ j ∧ j < 64 * rd + off + m then (leBytes m e.1).getD (j - (64 * rd + off)) 0 else Tbl.get 0 (s.tile t).xu.rows j := by
  have flags := u.unitFlags_xu t e.2.2
  have written := ((u.unitFlags t e.2.2).putXr_writes t (64 * rd + off) (leBytes m e.1)).then (.forgetRow _ t rd)
  obtain ⟨only, rows, -, control⟩ := written
  rw [length_leBytes, flags] at rows
  rw [flags] at control
  unfold State.vecWrite
  rw [if_pos hw]
  generalize ((u.unitFlags t e.2.2).putXr t (64 * rd + off) (leBytes m e.1)).modXu t (fun x => forgetRow x rd) = w at only rows control
  have view := w.stepRix_view t v extra
  refine ⟨.of_step (h.only.trans ((UnitOnly.modXu u t _).trans only)) ?_ ?_ ?_, ?_, fun j => ?_⟩
  · rw [← show (u.tile t).xu.stat = (s.tile t).xu.stat from (congrArg UnitView.stat h.view :)]
    exact (congrArg UnitView.stat control :)
  · rw [← show (u.tile t).xu.ctl = (s.tile t).xu.ctl from (congrArg UnitView.ctl h.view :)]
    exact (congrArg UnitView.ctl control :)
  · rw [← show (u.tile t).xu.rix = (s.tile t).xu.rix from (congrArg UnitView.rix h.view :)]
    exact (congrArg UnitView.rix control :)
  · rw [← show (u.tile t).xu.lmask = (s.tile t).xu.lmask from (congrArg UnitView.lmask h.view :)]
    exact (congrArg UnitView.lmask view :).trans (congrArg UnitView.lmask control :)
  · rw [show ((w.stepRix t v extra).tile t).xu.rows = (w.tile t).xu.rows from (congrArg UnitView.rows view :), rows, ← show (u.tile t).xu.rows = (s.tile t).xu.rows from (congrArg UnitView.rows h.view :)]

/-- The mask that a comparison writes. -/
theorem vecWrite_mask (hw : sh.write = false) : VecDone t v e.2.2 s (u.vecWrite t sh v rd off m extra e) ∧ ((u.vecWrite t sh v rd off m extra e).tile t).xu.lmask = e.2.1 ∧
    ((u.vecWrite t sh v rd off m extra e).tile t).xu.rows = (s.tile t).xu.rows := by
  have masked : (((u.unitFlags t e.2.2).modXu t fun x => { x with lmask := e.2.1 }).tile t).xu = { (u.tile t).xu with stat := (u.tile t).xu.stat ||| e.2.2, lmask := e.2.1 } := by
    rw [State.xu_modXu, State.unitFlags_xu]
  have only : UnitOnly t s ((u.unitFlags t e.2.2).modXu t fun x => { x with lmask := e.2.1 }) := h.only.trans ((UnitOnly.modXu u t _).trans (UnitOnly.modXu _ t _))
  unfold State.vecWrite
  rw [if_neg (by simp [hw])]
  generalize (u.unitFlags t e.2.2).modXu t (fun x => { x with lmask := e.2.1 }) = w at masked only
  have view := w.stepRix_view t v extra
  refine ⟨.of_step only ?_ ?_ ?_, ?_, ?_⟩
  · rw [masked, ← show (u.tile t).xu.stat = (s.tile t).xu.stat from (congrArg UnitView.stat h.view :)]
  · rw [masked, ← show (u.tile t).xu.ctl = (s.tile t).xu.ctl from (congrArg UnitView.ctl h.view :)]
  · rw [masked, ← show (u.tile t).xu.rix = (s.tile t).xu.rix from (congrArg UnitView.rix h.view :)]
  · exact (congrArg UnitView.lmask view :).trans (congrArg (fun x : Xu => x.lmask) masked)
  · rw [show ((w.stepRix t v extra).tile t).xu.rows = (w.tile t).xu.rows from (congrArg UnitView.rows view :), masked, ← show (u.tile t).xu.rows = (s.tile t).xu.rows from (congrArg UnitView.rows h.view :)]

end

end Sys2Proof.Machine
end

section
/-! SUPPORT. Rows as numbers: their bits, their lanes, and the lanes of a row that has been written (R192, R200). -/

namespace Sys2Proof.Machine

variable {x y : Xu} {v w : Nat} {l : List Nat}

/-! ### Bits -/

theorem testBit_bitsOf (v lo w i : Nat) : (bitsOf v lo w).testBit i = (decide (i < w) && v.testBit (lo + i)) := by
  rw [bitsOf, Nat.testBit_mod_two_pow, Nat.testBit_div_two_pow, Nat.add_comm]

/-- Bit `i` of the number that bytes encode. -/
theorem testBit_leNat (l : List Byte) (i : Nat) : (leNat l).testBit i = (l.getD (i / 8) 0).getLsbD (i % 8) := by
  induction l generalizing i with
  | nil => simp [leNat]
  | cons b l ih =>
    rw [leNat, show b.toNat + 256 * leNat l = 2 ^ 8 * leNat l + b.toNat by omega, Nat.testBit_two_pow_mul_add _ b.isLt]
    by_cases h : i < 8
    · rw [if_pos h, Nat.div_eq_of_lt h, Nat.mod_eq_of_lt h]
      rfl
    · rw [if_neg h, ih, show i / 8 = (i - 8) / 8 + 1 by omega, show (i - 8) % 8 = i % 8 by omega]
      rfl

/-- Byte `i` of the bytes of a number. -/
theorem leBytes_getD (n v i : Nat) (hi : i < n) : (leBytes n v).getD i 0 = BitVec.ofNat 8 (v / 256 ^ i) := by
  induction n generalizing v i with
  | zero => exact absurd hi (Nat.not_lt_zero i)
  | succ n ih =>
    cases i with
    | zero => rw [pow_zero, Nat.div_one]; rfl
    | succ i => exact (ih (v / 256) i (by omega)).trans (by rw [Nat.div_div_eq_div_mul, ← Nat.pow_succ'])

theorem getLsbD_leBytes (n v i : Nat) (hi : i < 8 * n) : ((leBytes n v).getD (i / 8) 0).getLsbD (i % 8) = v.testBit i := by
  rw [leBytes_getD n v _ (by omega), BitVec.getLsbD_ofNat, show 256 ^ (i / 8) = 2 ^ (8 * (i / 8)) by rw [pow_mul]; rfl, Nat.testBit_div_two_pow, Nat.mod_add_div]
  simp [Nat.mod_lt]

/-! ### Rows -/

theorem testBit_rowOf (x : Xu) (r i : Nat) : (rowOf x r).testBit i = (decide (i < 512) && (Tbl.get 0 x.rows (64 * r + i / 8)).getLsbD (i % 8)) := by
  rw [rowOf, testBit_leNat]
  by_cases h : i < 512
  · rw [decide_eq_true h, Bool.true_and, List.getD_eq_getElem _ _ (by simp; omega)]
    simp
  · rw [decide_eq_false h, Bool.false_and, List.getD_eq_default _ _ (by simp; omega)]
    exact BitVec.getLsbD_zero

/-- Row `r` depends on its 64 bytes alone. -/
theorem rowOf_congr {r r' : Nat} (h : ∀ i, i < 64 → Tbl.get 0 y.rows (64 * r' + i) = Tbl.get 0 x.rows (64 * r + i)) : rowOf y r' = rowOf x r := by
  unfold rowOf
  exact congrArg leNat (List.map_congr_left fun i hi => h i (List.mem_range.1 hi))

/-- The bits of a row after the bytes of a number have been written into it from byte `o`. -/
theorem testBit_rowOf_written {rd o m : Nat} (hm : o + m ≤ 64)
    (hr : ∀ j, Tbl.get 0 y.rows j = if 64 * rd + o ≤ j ∧ j < 64 * rd + o + m then (leBytes m v).getD (j - (64 * rd + o)) 0 else Tbl.get 0 x.rows j) (i : Nat) :
    (rowOf y rd).testBit i = if 8 * o ≤ i ∧ i < 8 * (o + m) then v.testBit (i - 8 * o) else (rowOf x rd).testBit i := by
  rw [testBit_rowOf, hr]
  by_cases h : 8 * o ≤ i ∧ i < 8 * (o + m)
  · rw [if_pos h, if_pos (by omega), decide_eq_true (by omega), Bool.true_and, ← getLsbD_leBytes m v (i - 8 * o) (by omega), show 64 * rd + i / 8 - (64 * rd + o) = (i - 8 * o) / 8 by omega, show i % 8 = (i - 8 * o) % 8 by omega]
  · rw [if_neg h, testBit_rowOf]
    by_cases hi : i < 512
    · rw [if_neg (by omega)]
    · rw [decide_eq_false hi, Bool.false_and, Bool.false_and]

/-! ### Lanes -/

theorem lane_lt (row w k : Nat) : lane row w k < 2 ^ w := Nat.mod_lt _ (by positivity)

/-- Bit `i` of lane `k` of packed lanes. -/
theorem testBit_packLanes (w : Nat) (l : List Nat) (k i : Nat) (hi : i < w) : (packLanes w l).testBit (w * k + i) = (l.getD k 0).testBit i := by
  induction l generalizing k with
  | nil => simp [packLanes]
  | cons a l ih =>
    show (a % 2 ^ w + 2 ^ w * packLanes w l).testBit _ = _
    rw [Nat.add_comm, Nat.testBit_two_pow_mul_add _ (Nat.mod_lt _ (by positivity))]
    cases k with
    | zero => simp [hi]
    | succ k =>
      rw [if_neg (by rw [Nat.mul_succ]; omega), show w * (k + 1) + i - w = w * k + i by rw [Nat.mul_succ]; omega, ih]
      rfl

/-- Lane `k` of a field of lanes that has been written at bit `p`. -/
theorem bitsOf_written {row p k : Nat} (h : ∀ i, p + w * k ≤ i → i < p + w * (k + 1) → row.testBit i = (packLanes w l).testBit (i - p)) : bitsOf row (p + w * k) w = l.getD k 0 % 2 ^ w := by
  refine Nat.eq_of_testBit_eq fun i => ?_
  rw [testBit_bitsOf, Nat.testBit_mod_two_pow]
  by_cases hi : i < w
  · rw [h _ (by omega) (by rw [Nat.mul_succ]; omega), ← testBit_packLanes w l k i hi]
    congr 2
    omega
  · rw [decide_eq_false hi, Bool.false_and, Bool.false_and]

theorem lanesOf_mul_laneBits (ty : Nat) : laneBits ty * lanesOf ty = 512 := by
  unfold laneBits lanesOf
  split
  · rfl
  · split <;> rfl

/-- Lane `k` of a whole row that has been written. -/
theorem lane_written {rd k : Nat} (hr : ∀ j, Tbl.get 0 y.rows j = if 64 * rd + 0 ≤ j ∧ j < 64 * rd + 0 + 64 then (leBytes 64 (packLanes w l)).getD (j - (64 * rd + 0)) 0 else Tbl.get 0 x.rows j)
    (hk : w * (k + 1) ≤ 512) : lane (rowOf y rd) w k = l.getD k 0 % 2 ^ w := by
  rw [lane, ← Nat.zero_add (w * k)]
  refine bitsOf_written fun i _ hi => ?_
  rw [testBit_rowOf_written (by omega) hr, if_pos (by omega)]

/-- Flags of a list of lanes. -/
theorem foldl_flags (f : Nat → Nat × W16) (n : Nat) : (((List.range n).map f).map fun e => e.2).foldl (fun m f => m ||| f) 0 = allFlags n fun k => (f k).2 := by
  rw [List.map_map, List.foldl_map]
  rfl

end Sys2Proof.Machine
end

section
/-! SUPPORT. Vector instructions: their checks, and what one that passes them writes (R134, R199 to R201, R222). -/

namespace Sys2Proof.Machine

variable {s u m : State} {t : TileId} {v : VOps} {i : Instr} {sh : VShape} {fn : Nat} {bad fmt : Bool}

/-! ### Checks (R134, R200, R222) -/

theorem vecCheck_ok (hty : v.ty.val ≤ 5) (hb : bad = false) (ht : sh.types = 0 ∨ sh.types = 1 ∧ (v.ty = 0 ∨ v.ty = 3) ∨ sh.types = 2 ∧ v.ty.val ≤ 2) (hf : fmt = false) :
    vecCheck fn sh v bad fmt u = .ok () u := by
  unfold vecCheck
  rw [if_neg (by simp [hb, hty]), if_neg]
  rcases ht with e | ⟨e, e' | e'⟩ | ⟨e, e'⟩
  · simp [e, hf]
  all_goals simp [e, e', hf]

theorem vecCheck_illegal (h : 5 < v.ty.val ∨ bad = true) : vecCheck fn sh v bad fmt u = .fault 1 0 u := by
  unfold vecCheck
  rw [if_pos (by simpa using h)]

theorem vecCheck_format (hty : v.ty.val ≤ 5) (hb : bad = false) (h : (sh.types = 1 ∧ v.ty ≠ 0 ∧ v.ty ≠ 3) ∨ (sh.types = 2 ∧ 2 < v.ty.val) ∨ fmt = true) :
    vecCheck fn sh v bad fmt u = .fault 16 (fn + 256 * v.ty.val) u := by
  unfold vecCheck
  rw [if_neg (by simp [hb, hty]), if_pos]
  · rfl
  · rcases h with ⟨e, e1, e2⟩ | ⟨e, e1⟩ | e <;> simp [*]

section
variable {body : Unit → State → State} (h : Fetches s t 3 u) (hi : exec i s = .next (s.unitInstr t 3 (vecCheck fn sh v bad fmt) body))
include h hi

theorem vec_illegal (hb : 5 < v.ty.val ∨ bad = true) : Faults s u t i 1 0 := faults_unit h hi (vecCheck_illegal hb)

theorem vec_format (hty : v.ty.val ≤ 5) (hb : bad = false) (hf : (sh.types = 1 ∧ v.ty ≠ 0 ∧ v.ty ≠ 3) ∨ (sh.types = 2 ∧ 2 < v.ty.val) ∨ fmt = true) : Faults s u t i 16 (fn + 256 * v.ty.val) :=
  faults_unit h hi (vecCheck_format hty hb hf)

end

theorem vecUnused_false (hb : sh.useB = true ∨ v.vb = 0) (hc : sh.useC = true ∨ v.vc = 0) (hd : sh.write = true ∨ v.vd = 0) : vecUnused sh v = false := by
  unfold vecUnused
  rcases hb with e | e <;> rcases hc with e' | e' <;> rcases hd with e'' | e'' <;> simp [e, e', e'']

theorem vecUnused_b (hu : sh.useB = false) (h : v.vb ≠ 0) : vecUnused sh v = true := by simp [vecUnused, hu, h]
theorem vecUnused_c (hu : sh.useC = false) (h : v.vc ≠ 0) : vecUnused sh v = true := by simp [vecUnused, hu, h]
theorem vecUnused_d (hu : sh.write = false) (h : v.vd ≠ 0) : vecUnused sh v = true := by simp [vecUnused, hu, h]

/-! ### Operands (R199) -/

/-- The rows that a vector instruction names as a, b and c. -/
def rowA (x : Xu) (v : VOps) : Nat := rowOf x (rowAt x (v.ixm = 3) v.va)
def rowB (x : Xu) (v : VOps) : Nat := rowOf x (rowAt x (v.ixm = 2 ∨ v.ixm = 3) v.vb)
def rowC (x : Xu) (v : VOps) : Nat := rowOf x (rowAt x (v.ixm = 2 ∨ v.ixm = 3) v.vc)

theorem ixBC_eq (v : VOps) : ixBC v = decide (v.ixm = 2 ∨ v.ixm = 3) := (Bool.decide_or ..).symm

/-- An operand that the shape leaves out is 0. -/
def ifUsed (b : Bool) (a : Nat) : Nat := if b then a else 0

theorem rowOf_enqueued (x : Xu) (r : Nat) : rowOf (enqueueUnit x) r = rowOf x r := rowOf_congr fun _ _ => rfl

theorem rowAt_enqueued (x : Xu) (ix : Bool) (r : Nat) : rowAt (enqueueUnit x) ix r = rowAt x ix r := rfl

theorem operand_ifUsed (x : Xu) (v : VOps) (b : Bool) (row : Fin 256) : (if b then rowOf (enqueueUnit x) (rowAt (enqueueUnit x) (ixBC v && b) row) else 0) =
    ifUsed b (rowOf x (rowAt x (v.ixm = 2 ∨ v.ixm = 3) row)) := by
  cases b
  · exact (if_neg Bool.false_ne_true).trans (if_neg Bool.false_ne_true).symm
  · rw [Bool.and_true, ixBC_eq, if_pos rfl, rowOf_enqueued, rowAt_enqueued, ifUsed, if_pos rfl]

theorem lane_ifUsed (b : Bool) (a w k : Nat) : lane (ifUsed b a) w k = ifUsed b (lane a w k) := by
  cases b
  · exact (congrArg (· % 2 ^ w) (Nat.zero_div _)).trans (Nat.zero_mod _)
  · rfl

section
variable {f : Xu → Nat → Nat → Nat → Nat × W32 × W16} {e : Nat × W32 × W16} (hx : (m.tile t).xu = enqueueUnit (u.tile t).xu) (clean : XuClean (u.tile t).xu)
  (hf : f (enqueueUnit (u.tile t).xu) (rowA (u.tile t).xu v) (ifUsed sh.useB (rowB (u.tile t).xu v)) (ifUsed sh.useC (rowC (u.tile t).xu v)) = e)
include hx clean hf

/-- The effect of a vector instruction over good granules, from the rows that it names. -/
theorem vecRunPart_effect (o n : Nat) : ∃ w extra, Reads t m w ∧ m.vecRunPart t sh v o n f = w.vecWrite t sh v (rowAt (u.tile t).xu (v.ixm ≠ 0) v.vd) o n extra e := by
  have good : XuClean (m.tile t).xu := by rw [hx]; exact clean
  obtain ⟨w, extra, reads, run⟩ := State.vecRunPart_good good sh v o n f
  refine ⟨w, extra, reads, run.trans ?_⟩
  rw [hx, operand_ifUsed, operand_ifUsed]
  rw [rowAt_enqueued, rowAt_enqueued, rowOf_enqueued, ixA, ixD]
  exact congrArg _ hf

end

/-- Lanes count modulo their width. -/
theorem VectorWrites.congr {p : Nat → Prop} {g g' : Nat → Nat} {fl : W16} (h : VectorWrites s u t i v p g fl) (hg : ∀ k, g k % 2 ^ laneBits v.ty = g' k % 2 ^ laneBits v.ty) : VectorWrites s u t i v p g' fl := by
  obtain ⟨n, done, lanes, rest⟩ := h
  exact ⟨n, done, fun k hk hp => (lanes k hk hp).trans (hg k), rest⟩

theorem laneBits_mul_le {ty k : Nat} (hk : k < lanesOf ty) : laneBits ty * (k + 1) ≤ 512 := (Nat.mul_le_mul_left _ hk).trans (lanesOf_mul_laneBits ty).le

section
variable {f : Xu → Nat → Nat → Nat → Nat × W32 × W16} {l : List Nat} {mask : W32} {fl : W16} (hm : Reads t (u.issued t 3 (swS (s.tile t).sw)) m)
  (hx : (m.tile t).xu = enqueueUnit (u.tile t).xu) (clean : XuClean (u.tile t).xu)
include hm hx clean

/-- A vector instruction that writes its row: lane by lane where `p`, and nothing else of the tile registers. -/
theorem vectorWrites_of {p : Nat → Prop} {g : Nat → Nat} (hi : exec i s = .next (m.vecRun t sh v f))
    (hf : f (enqueueUnit (u.tile t).xu) (rowA (u.tile t).xu v) (ifUsed sh.useB (rowB (u.tile t).xu v)) (ifUsed sh.useC (rowC (u.tile t).xu v)) = (packLanes (laneBits v.ty) l, mask, fl))
    (hw : sh.write = true) (hg : ∀ k, k < lanesOf v.ty → p k → l.getD k 0 % 2 ^ laneBits v.ty = g k % 2 ^ laneBits v.ty) : VectorWrites s u t i v p g fl := by
  obtain ⟨w, extra, reads, run⟩ := vecRunPart_effect hx clean hf 0 64
  obtain ⟨⟨only, stat, rix⟩, lmask, rows⟩ := vecWrite_row (v := v) (rd := rowAt (u.tile t).xu (v.ixm ≠ 0) v.vd) (off := 0) (m := 64) (extra := extra) (e := (packLanes (laneBits v.ty) l, mask, fl)) reads hw
  rw [← run] at only stat rix lmask rows
  rw [hx] at stat rix lmask rows
  replace hi : exec i s = .next (m.vecRunPart t sh v 0 64 f) := hi
  generalize m.vecRunPart t sh v 0 64 f = n at *
  refine ⟨n, unitCompletes_of hi (hm.only.trans only), fun k hk hp => ?_, fun j hj => ?_, stat, lmask, rix⟩
  · exact (lane_written rows (laneBits_mul_le hk)).trans (hg k hk hp)
  · exact (rows j).trans (if_neg (by omega))

end

section
variable (h : Fetches s t 3 u) (clean : XuClean (u.tile t).xu) (hty : v.ty.val ≤ 5)
include h clean

/-- As `vectorWrites_of`, for an instruction whose checks pass and whose effect is `vecRun`. -/
theorem vectorWrites_checked {f : Xu → Nat → Nat → Nat → Nat × W32 × W16} {check : State → Mem Unit} {l : List Nat} {mask : W32} {fl : W16} {p : Nat → Prop} {g : Nat → Nat}
    (hi : exec i s = .next (s.unitInstr t 3 check fun _ s => s.vecRun t sh v f)) (hc : check u = .ok () u)
    (hf : f (enqueueUnit (u.tile t).xu) (rowA (u.tile t).xu v) (ifUsed sh.useB (rowB (u.tile t).xu v)) (ifUsed sh.useC (rowC (u.tile t).xu v)) = (packLanes (laneBits v.ty) l, mask, fl))
    (hw : sh.write = true) (hg : ∀ k, k < lanesOf v.ty → p k → l.getD k 0 % 2 ^ laneBits v.ty = g k % 2 ^ laneBits v.ty) : VectorWrites s u t i v p g fl :=
  vectorWrites_of (.refl _ _) (State.xu_issued _ _ _ _) clean (hi.trans (congrArg _ (unitInstr_issues h hc))) hf hw hg

include hty

/-- A lane-by-lane instruction: lane `k` and its flags come from the same lanes of its operands. -/
theorem vecLanes_writes {f : Xu → Nat → Nat → Nat → Nat → Nat × W16} {g : Nat → Nat × W16} (hi : exec i s = .next (s.vecLanes t fn sh v f)) (unused : vecUnused sh v = false)
    (ht : sh.types = 0 ∨ sh.types = 1 ∧ (v.ty = 0 ∨ v.ty = 3)) (hw : sh.write = true)
    (hg : ∀ k, f (enqueueUnit (u.tile t).xu) k (lane (rowA (u.tile t).xu v) (laneBits v.ty) k) (ifUsed sh.useB (lane (rowB (u.tile t).xu v) (laneBits v.ty) k))
      (ifUsed sh.useC (lane (rowC (u.tile t).xu v) (laneBits v.ty) k)) = g k) :
    VectorWrites s u t i v (fun _ => True) (fun k => (g k).1) (allFlags (lanesOf v.ty) fun k => (g k).2) := by
  refine vectorWrites_checked h clean hi (l := ((List.range (lanesOf v.ty)).map g).map fun e => e.1) (mask := (u.tile t).xu.lmask) (vecCheck_ok hty unused (ht.imp_right .inl) rfl) ?_ hw fun k hk _ => ?_
  · rw [← foldl_flags]
    simp only [lane_ifUsed, hg]
    rfl
  · simp [hk]

end

section
variable (h : Fetches s t 3 u) (clean : XuClean (u.tile t).xu) (hty : v.ty.val ≤ 5) (hvc : v.vc = 0)
include h clean hty hvc

/-- An instruction on a and b. -/
theorem vecBin_writes {f : Xu → Nat → Nat → Nat → Nat → Nat × W16} {g : Nat → Nat × W16} (hi : exec i s = .next (s.vecLanes t fn shBin v f))
    (hg : ∀ k, f (enqueueUnit (u.tile t).xu) k (lane (rowA (u.tile t).xu v) (laneBits v.ty) k) (lane (rowB (u.tile t).xu v) (laneBits v.ty) k) 0 = g k) :
    VectorWrites s u t i v (fun _ => True) (fun k => (g k).1) (allFlags (lanesOf v.ty) fun k => (g k).2) :=
  vecLanes_writes h clean hty hi (vecUnused_false (.inl rfl) (.inr hvc) (.inl rfl)) (.inl rfl) rfl hg

/-- A shift. -/
theorem vecShift_writes {f : Xu → Nat → Nat → Nat → Nat → Nat × W16} {g : Nat → Nat × W16} (hint : v.ty = 0 ∨ v.ty = 3) (hi : exec i s = .next (s.vecLanes t fn shShift v f))
    (hg : ∀ k, f (enqueueUnit (u.tile t).xu) k (lane (rowA (u.tile t).xu v) (laneBits v.ty) k) (lane (rowB (u.tile t).xu v) (laneBits v.ty) k) 0 = g k) :
    VectorWrites s u t i v (fun _ => True) (fun k => (g k).1) (allFlags (lanesOf v.ty) fun k => (g k).2) :=
  vecLanes_writes h clean hty hi (vecUnused_false (.inl rfl) (.inr hvc) (.inl rfl)) (.inr ⟨rfl, hint⟩) rfl hg

/-- An instruction on a alone. -/
theorem vecUn_writes {f : Xu → Nat → Nat → Nat → Nat → Nat × W16} {g : Nat → Nat × W16} (hvb : v.vb = 0) (hi : exec i s = .next (s.vecLanes t fn shUn v f))
    (hg : ∀ k, f (enqueueUnit (u.tile t).xu) k (lane (rowA (u.tile t).xu v) (laneBits v.ty) k) 0 0 = g k) :
    VectorWrites s u t i v (fun _ => True) (fun k => (g k).1) (allFlags (lanesOf v.ty) fun k => (g k).2) :=
  vecLanes_writes h clean hty hi (vecUnused_false (.inr hvb) (.inr hvc) (.inl rfl)) (.inl rfl) rfl hg

end

/-! ### Integers and floats of one lane (R225, R234) -/

section
variable {w : Nat}

/-- A code of `w` bits as a signed number. -/
def signedOf (w a : Nat) : Int := if a < 2 ^ (w - 1) then (a : Int) else (a : Int) - 2 ^ w

theorem intOf_signed (hw : 0 < w) {a : Nat} (ha : a < 2 ^ w) : intOf w true a = signedOf w a := by
  have half : 2 ^ w = 2 * 2 ^ (w - 1) := by rw [← Nat.pow_succ', Nat.succ_eq_add_one, Nat.sub_add_cancel hw]
  unfold intOf signedOf
  dsimp only
  rw [Nat.mod_eq_of_lt ha, Bool.true_and]
  by_cases h : a < 2 ^ (w - 1)
  · rw [if_pos h, Nat.testBit_lt_two_pow h, if_neg Bool.false_ne_true]
  · rw [if_neg h, Nat.testBit_of_two_pow_le_and_two_pow_add_one_gt (Nat.not_lt.1 h) (by rwa [Nat.sub_add_cancel hw]), if_pos rfl]

theorem lanesOf_le (ty : Nat) : lanesOf ty ≤ 32 := by
  unfold lanesOf
  split
  · exact le_rfl
  · split <;> omega

theorem laneBits_pos (ty : Nat) : 0 < laneBits ty := Nat.pos_of_ne_zero fun h => by have := lanesOf_mul_laneBits ty; rw [h] at this; omega

theorem signedOf_inj {a b : Nat} (ha : a < 2 ^ w) (hb : b < 2 ^ w) (h : signedOf w a = signedOf w b) : a = b := by
  have : ((2 ^ w : Nat) : Int) = 2 ^ w := by norm_cast
  unfold signedOf at h
  split at h <;> split at h <;> omega

theorem laneSub_int (x : Xu) {a b : Nat} (hb : b < 2 ^ w) : laneSub x (.int w true) a b = ((((a : Int) - b) % 2 ^ w).toNat, 0) := by
  have cast : ((2 ^ w : Nat) : Int) = 2 ^ w := by norm_cast
  have wraps : (((a + 2 ^ w - b : Nat) : Int)) = (a : Int) - b + 2 ^ w := by omega
  refine Prod.ext ?_ rfl
  show (a + 2 ^ w - b % 2 ^ w) % 2 ^ w = _
  rw [Nat.mod_eq_of_lt hb, ← Int.add_emod_right, ← wraps, ← cast, ← Int.natCast_mod, Int.toNat_natCast]

theorem laneNeg_int {a : Nat} (ha : a < 2 ^ w) : laneNeg (.int w true) a = (((-(a : Int)) % 2 ^ w).toNat, 0) := by
  have cast : ((2 ^ w : Nat) : Int) = 2 ^ w := by norm_cast
  have wraps : (((2 ^ w - a : Nat) : Int)) = -(a : Int) + 2 ^ w := by omega
  refine Prod.ext ?_ rfl
  show (2 ^ w - a) % 2 ^ w = _
  rw [← Int.add_emod_right, ← wraps, ← cast, ← Int.natCast_mod, Int.toNat_natCast]

section
variable (hw : 0 < w) {a b : Nat} (ha : a < 2 ^ w) (hb : b < 2 ^ w)
include hw ha hb

theorem laneMin_int : (laneMinMax (.int w true) true a b).1 = if signedOf w b < signedOf w a then b else a := by
  show (if decide (intOf w true b < intOf w true a) = true then b else a) = _
  rw [intOf_signed hw ha, intOf_signed hw hb]
  simp only [decide_eq_true_eq]

theorem laneMax_int : (laneMinMax (.int w true) false a b).1 = if signedOf w b < signedOf w a then a else if signedOf w a < signedOf w b then b else a := by
  show (if decide (intOf w true b < intOf w true a) = false then b else a) = _
  rw [intOf_signed hw ha, intOf_signed hw hb]
  simp only [decide_eq_false_iff_not]
  obtain below | same | above := lt_trichotomy (signedOf w a) (signedOf w b)
  · rw [if_pos (by omega), if_neg (by omega), if_pos below]
  · rw [signedOf_inj ha hb same, ite_self, ite_self, ite_self]
  · rw [if_neg (by omega), if_pos above]

theorem laneLess_int : (laneCmp (.int w true) true false a b).1 = decide (signedOf w a < signedOf w b) := by
  show ((true && decide (intOf w true a < intOf w true b)) || (false && decide (a = b))) = _
  rw [intOf_signed hw ha, intOf_signed hw hb, Bool.true_and, Bool.false_and, Bool.or_false]

omit hb in
theorem laneAbs_int (hm : a ≠ 2 ^ (w - 1)) : ((laneAbs (.int w true) a).1 : Int) = |signedOf w a| := by
  unfold laneAbs
  dsimp only
  rw [if_neg hm, intOf_signed hw ha, Int.natCast_natAbs]

end

end

/-! ### Floats (R232 to R234) -/

section
variable {f : Fmt} {p q : Nat} (h : (decodeF f p).isNan = true ∨ (decodeF f q).isNan = true)
include h

theorem addVal_nan (rm : Nat) : ∃ g, addVal rm (decodeF f p) (decodeF f q) = (.nan false, g) := by
  generalize decodeF f p = x at h ⊢
  generalize decodeF f q = y at h ⊢
  cases x <;> cases y <;> simp [Val.isNan, addVal] at h ⊢

theorem mulVal_nan : ∃ g, mulVal (decodeF f p) (decodeF f q) = (.nan false, g) := by
  generalize decodeF f p = x at h ⊢
  generalize decodeF f q = y at h ⊢
  cases x <;> cases y <;> simp [Val.isNan, mulVal] at h ⊢

theorem laneAdd_nan (x : Xu) : (laneAdd x (.flt f) p q).1 = canonNan f := by
  obtain ⟨g, e⟩ := addVal_nan h (xuRm x)
  unfold laneAdd
  dsimp only
  rw [e]
  rfl

theorem laneMul_nan (x : Xu) : (laneMul x (.flt f) p q).1 = canonNan f := by
  obtain ⟨g, e⟩ := mulVal_nan h
  unfold laneMul
  dsimp only
  rw [e]
  rfl

theorem laneMinMax_nan (l : Bool) : laneMinMax (.flt f) l p q = (canonNan f, (decodeF f p).nv ||| (decodeF f q).nv) := if_pos (by simpa using h)
theorem laneCmp_nan (l e : Bool) : laneCmp (.flt f) l e p q = (false, (decodeF f p).nv ||| (decodeF f q).nv) := if_pos (by simpa using h)

end

/-- -0 lies below +0. -/
theorem laneMinMax_zeros (f : Fmt) (hf : f ∈ [fp64, fp32, fp16, bf16]) :
    laneMinMax (.flt f) true (2 ^ (f.e + f.m)) 0 = (2 ^ (f.e + f.m), 0) ∧ laneMinMax (.flt f) false (2 ^ (f.e + f.m)) 0 = (0, 0) := by
  revert f
  decide +kernel

/-! ### Sums (R202) -/

theorem sumLevel_enqueued (x : Xu) (n : Num) : ∀ l, sumLevel (enqueueUnit x) n l = sumLevel x n l
  | a :: b :: l => by
    have rest := sumLevel_enqueued x n l
    unfold sumLevel
    rw [rest]
    rfl
  | [_] => rfl
  | [] => rfl

theorem sumTree_enqueued (x : Xu) (n : Num) (k : Nat) (l : List Nat) (fl : W16) : sumTree (enqueueUnit x) n k l fl = sumTree x n k l fl := by
  induction k generalizing l fl with
  | zero => rfl
  | succ k ih => rw [sumTree, sumTree, sumLevel_enqueued]; exact ih _ _

theorem allFlags_zero (n : Nat) : allFlags n (fun _ => 0) = 0 := foldl_keeps (fun f : W16 => f = 0) (fun f k h => by rw [h]; exact BitVec.or_zero) _ _ rfl

end Sys2Proof.Machine
end

section
/-! The vector instructions (R199 to R202, R215, R216, R232, R234). -/

namespace Sys2Proof.Machine

/-- Settles O18: each instruction from the shape of its operands, its lanes by the arithmetic of their type. -/
theorem vectorInstructionsComputeEveryLane : Obligations.VectorInstructionsComputeEveryLane := by
  unfold Obligations.VectorInstructionsComputeEveryLane
  refine ⟨fun s u t v h => ⟨fun clean hty => ⟨?_, fun hvc => ⟨?_, ?_, ?_, ?_, ?_, ?_, ?_, ?_, ?_, fun hint => ⟨?_, ?_, ?_⟩, ?_⟩, fun hvc hvb => ⟨?_, ?_, ?_, ?_⟩, fun hvc hvb => ?_⟩, ?_, ?_, ?_, ?_, ?_, ?_⟩, ?_⟩
  · exact vecLanes_writes h clean hty rfl (vecUnused_false (.inl rfl) (.inl rfl) (.inl rfl)) (.inl rfl) rfl fun _ => rfl
  · exact vecBin_writes h clean hty hvc rfl fun _ => rfl
  · exact vecBin_writes h clean hty hvc rfl fun _ => rfl
  · exact vecBin_writes h clean hty hvc rfl fun _ => rfl
  · exact vecBin_writes h clean hty hvc rfl fun _ => rfl
  · exact vecBin_writes h clean hty hvc rfl fun _ => rfl
  · exact vecBin_writes h clean hty hvc rfl fun _ => rfl
  · exact vecBin_writes h clean hty hvc rfl fun _ => rfl
  · exact vecBin_writes h clean hty hvc rfl fun _ => rfl
  · exact vecBin_writes h clean hty hvc rfl fun _ => rfl
  · exact VectorWrites.congr (vecShift_writes (g := fun k => (lane (rowA (u.tile t).xu v) (laneBits v.ty) k * 2 ^ (lane (rowB (u.tile t).xu v) (laneBits v.ty) k % laneBits v.ty) % 2 ^ laneBits v.ty, 0))
      h clean hty hvc hint rfl fun _ => rfl) fun k => Nat.mod_mod _ _
  · exact vecShift_writes h clean hty hvc hint rfl fun _ => rfl
  · refine vecShift_writes h clean hty hvc hint rfl fun k => ?_
    rw [intOf_signed (laneBits_pos _) (lane_lt _ _ _)]
    rfl
  · intro h0 h3
    have refused {i : Instr} {fn : Nat} {body : Unit → State → State} (hi : exec i s = .next (s.unitInstr t 3 (vecCheck fn shShift v (vecUnused shShift v) false) body)) : Faults s u t i 16 (fn + 256 * v.ty.val) :=
      vec_format h hi hty (vecUnused_false (.inl rfl) (.inr hvc) (.inl rfl)) (.inl ⟨rfl, h0, h3⟩)
    simp only [List.forall_mem_cons]
    exact ⟨refused rfl, refused rfl, refused rfl, List.forall_mem_nil _⟩
  · exact vecUn_writes h clean hty hvc hvb rfl fun _ => rfl
  · exact vecUn_writes h clean hty hvc hvb rfl fun _ => rfl
  · exact vecUn_writes h clean hty hvc hvb rfl fun _ => rfl
  · refine vectorWrites_checked (l := [(sumTree (u.tile t).xu (tyNum v.ty) (Nat.log2 (lanesOf v.ty)) ((List.range (lanesOf v.ty)).map fun k => lane (rowA (u.tile t).xu v) (laneBits v.ty) k) 0).1]) (mask := (u.tile t).xu.lmask)
      h clean rfl (vecCheck_ok hty (vecUnused_false (.inr hvb) (.inr hvc) (.inl rfl)) (.inl rfl) rfl) ?_ rfl fun k hk _ => ?_
    · dsimp only
      rw [sumTree_enqueued]
      rfl
    · cases k <;> rfl
  · refine vectorWrites_checked (l := List.replicate (lanesOf v.ty) (lane (rowA (u.tile t).xu v) (laneBits v.ty) v.vb)) (mask := (u.tile t).xu.lmask)
      h clean rfl (vecCheck_ok hty (by have := lanesOf_le v.ty.val; simp [hvc]; omega) (.inl rfl) (by simpa using hvb)) ?_ rfl fun k hk _ => ?_
    · rw [allFlags_zero]
      rfl
    · simp [hk]
      rfl
  · intro hvc
    have refused {i : Instr} {fn : Nat} {sh : VShape} {body : Unit → State → State} (hi : exec i s = .next (s.unitInstr t 3 (vecCheck fn sh v (vecUnused sh v) false) body)) (hs : sh.useC = false) : Faults s u t i 1 0 :=
      vec_illegal h hi (.inr (vecUnused_c hs hvc))
    simp only [List.forall_mem_cons]
    exact ⟨refused rfl rfl, refused rfl rfl, refused rfl rfl, refused rfl rfl, refused rfl rfl, refused rfl rfl, refused rfl rfl, refused rfl rfl, refused rfl rfl, refused rfl rfl,
      refused rfl rfl, refused rfl rfl, refused rfl rfl, refused rfl rfl, refused rfl rfl, refused rfl rfl, refused rfl rfl, refused rfl rfl, vec_illegal h rfl (.inr (by simp [hvc])), refused rfl rfl, List.forall_mem_nil _⟩
  · intro hvb
    have refused {i : Instr} {fn : Nat} {body : Unit → State → State} (hi : exec i s = .next (s.unitInstr t 3 (vecCheck fn shUn v (vecUnused shUn v) false) body)) : Faults s u t i 1 0 :=
      vec_illegal h hi (.inr (vecUnused_b rfl hvb))
    simp only [List.forall_mem_cons]
    exact ⟨refused rfl, refused rfl, refused rfl, refused rfl, List.forall_mem_nil _⟩
  · intro hvd
    have refused {i : Instr} {fn : Nat} {body : Unit → State → State} (hi : exec i s = .next (s.unitInstr t 3 (vecCheck fn shCmp v (vecUnused shCmp v) false) body)) : Faults s u t i 1 0 :=
      vec_illegal h hi (.inr (vecUnused_d rfl hvd))
    simp only [List.forall_mem_cons]
    exact ⟨refused rfl, refused rfl, refused rfl, List.forall_mem_nil _⟩
  · exact fun hl => vec_illegal h rfl (.inr (by simp [hl]))
  · exact fun hty hvc hn hl => vec_format h rfl hty (by simp [hvc, hl]) (.inr (.inr (by simpa using hn)))
  · intro hty
    have refused {i : Instr} {fn : Nat} {sh : VShape} {bad fmt : Bool} {body : Unit → State → State} (hi : exec i s = .next (s.unitInstr t 3 (vecCheck fn sh v bad fmt) body)) : Faults s u t i 1 0 :=
      vec_illegal h hi (.inl hty)
    simp only [List.forall_mem_cons]
    exact ⟨refused rfl, refused rfl, refused rfl, refused rfl, refused rfl, refused rfl, refused rfl, refused rfl, refused rfl, refused rfl, refused rfl, refused rfl,
      refused rfl, refused rfl, refused rfl, refused rfl, refused rfl, refused rfl, refused rfl, refused rfl, refused rfl, refused rfl, refused rfl, refused rfl, List.forall_mem_nil _⟩
  · intro x w a b c hw ha hb
    refine ⟨⟨rfl, laneSub_int x hb, rfl, rfl, laneNeg_int ha, if_pos rfl, laneMin_int hw ha hb, laneMax_int hw ha hb, laneLess_int hw ha hb, laneAbs_int hw ha⟩, fun f hf p q => ⟨fun hn => ?_, rfl, rfl, laneMinMax_zeros f hf⟩⟩
    exact ⟨laneAdd_nan hn x, laneMul_nan hn x, laneMinMax_nan hn, laneCmp_nan hn⟩

end Sys2Proof.Machine
end

section
/-! A context switch that loads its area from poisoned scratchpad: XU_ECC is then pending at the tile, so that more than its units has changed (R194, R217, R222). -/

namespace Sys2Proof.Machine

variable {s : State} {t : Nat}

/-! ### Errors of memory leave the rooms alone -/

theorem State.memLog_rooms (s : State) (q : Nat) (v : W64) (e : W32) : (s.memLog q v e).rooms = s.rooms := by simp [State.memLog, State.raiseMem, State.errLogAdd]

theorem State.markRow_rooms (s : State) (k b row c g : Nat) (y : Byte) : (s.markRow k b row c g y).rooms = s.rooms := by
  unfold State.markRow
  split
  · rfl
  · exact (congrArg State.rooms (Answering.event _ _ _).only :).trans (State.memLog_rooms _ _ _ _)

theorem State.memError_rooms (s : State) (a : Nat) (y : Byte) (ue : Bool) : (s.memError a y ue).rooms = s.rooms := by
  unfold State.memError
  split
  · unfold State.scratchError
    dsimp only
    split
    · exact (State.markRow_rooms _ _ _ _ _ _ _).trans (State.memLog_rooms _ _ _ _)
    · split
      · exact (State.markRow_rooms _ _ _ _ _ _ _).trans (State.memLog_rooms _ _ _ _)
      · exact State.memLog_rooms _ _ _ _
  · unfold State.qscratchError
    dsimp only
    split <;> exact State.memLog_rooms _ _ _ _
  · split <;> rfl

theorem State.readGran_rooms (s : State) (g : Nat) : (s.readGran g).2.rooms = s.rooms := by
  unfold State.readGran
  dsimp only
  split
  · rfl
  · exact State.memError_rooms _ _ _ _
  · exact (State.memError_rooms _ _ _ _).trans (congrArg State.rooms (State.putBytes_eq _ _ _) :)
  · exact State.memError_rooms _ _ _ _

theorem State.tileRoom_of_no_rooms (h : s.rooms = []) (t : Nat) : s.tileRoom t = none := by
  unfold State.tileRoom State.quireRoom State.roomWith State.room
  rw [h]
  rfl

/-! ### A bad granule met on the way -/

/-- The instruction in progress has met an uncorrectable granule, in a part without rooms. -/
def HasMet (r : Run1) : Prop := r.bad ≠ [] ∧ r.s.rooms = []

theorem HasMet.padGran {r : Run1} (h : HasMet r) (t a : Nat) : HasMet (r.padGran t a).2 := by
  obtain ⟨bad, rooms⟩ := h
  have read := (r.s.readGran_rooms ((scratchBase t + 2 * a) / 8)).trans rooms
  unfold Run1.padGran
  dsimp only
  split <;> rename_i e <;> rw [e] at read
  · exact ⟨bad, read⟩
  · exact ⟨by simp, read⟩

/-- A granule whose check bits say that it is uncorrectable is met. -/
theorem padGran_meets {r : Run1} {a : Nat} (hs : readSynd (r.s.syndAt ((scratchBase t + 2 * a) / 8)) = .bad) (hr : r.s.rooms = []) : HasMet (r.padGran t a).2 := by
  have read := (r.s.readGran_rooms ((scratchBase t + 2 * a) / 8)).trans hr
  have none : (r.s.readGran ((scratchBase t + 2 * a) / 8)).1 = none := by
    unfold State.readGran
    dsimp only
    rw [hs]
  unfold Run1.padGran
  dsimp only
  split <;> rename_i e <;> rw [e] at read none
  · cases none
  · exact ⟨by simp, read⟩

/-- A fold whose first step meets a bad granule, and whose later steps forget none. -/
theorem HasMet.foldl {α β : Type} {f : β × Run1 → α → β × Run1} {a : α} {l : List α} {r : β × Run1} (first : HasMet (f r a).2) (later : ∀ p b, HasMet p.2 → HasMet (f p b).2) :
    HasMet ((a :: l).foldl f r).2 := foldl_keeps (fun r : β × Run1 => HasMet r.2) later l _ first

theorem HasMet.fromPad {r : Run1} (h : HasMet r) (t a : Nat) : HasMet (r.fromPad t a).2 :=
  foldl_keeps (fun r : List Gran × Run1 => HasMet r.2) (fun _ i h => h.padGran t (a + 4 * i)) _ _ h

theorem fromPad_meets {r : Run1} {a : Nat} (hs : readSynd (r.s.syndAt ((scratchBase t + 2 * a) / 8)) = .bad) (hr : r.s.rooms = []) : HasMet (r.fromPad t a).2 :=
  HasMet.foldl (padGran_meets hs hr) fun _ i h => h.padGran t (a + 4 * i)

/-- Where an instruction has met a bad granule, XU_ECC is pending once it has closed. -/
theorem HasMet.close {r : Run1} (h : HasMet r) (t : Nat) : ((r.close t).tile t).async ≠ [] := by
  have raise (u : State) (a : Nat) (hu : u.rooms = []) : (u.xuEcc t a).rooms = [] ∧ ((u.xuEcc t a).tile t).async ≠ [] := by
    unfold State.xuEcc
    rw [State.tileFaultRoom_unowned (State.tileRoom_of_no_rooms (by exact hu) t)]
    exact ⟨hu, by rw [State.tile_modTile]; simp⟩
  obtain ⟨bad, rooms⟩ := h
  unfold Run1.close forL
  obtain ⟨a, l, e⟩ := List.exists_cons_of_ne_nil bad
  rw [e, List.foldl_cons]
  exact (foldl_keeps (fun u : State => u.rooms = [] ∧ (u.tile t).async ≠ []) (fun u b hu => raise u b hu.1) l _ (raise r.s a rooms)).2

theorem HasMet.putGrans {r : Run1} (h : HasMet r) (t row : Nat) (l : List Gran) : HasMet { r with s := r.s.putGrans t row l } := h
theorem HasMet.modXu {r : Run1} (h : HasMet r) (t : Nat) (f : Xu → Xu) : HasMet { r with s := r.s.modXu t f } := h

theorem range_begins {n : Nat} (h : 0 < n) : ∃ l, List.range n = 0 :: l := by
  obtain _ | n := n
  · exact absurd h (Nat.lt_irrefl 0)
  · exact ⟨_, List.range_succ_eq_map⟩

/-- A save image that begins with a bad granule raises XU_ECC as it is read (R194, R218). -/
theorem State.loadImage_raises {area : Nat} (hs : readSynd (s.syndAt ((scratchBase t + 2 * area) / 8)) = .bad) (hr : s.rooms = []) : ((s.loadImage t area).tile t).async ≠ [] := by
  have first : HasMet ((Run1.fromPad { s := s, bad := [] } t (area + 32 * 0)).2) := fromPad_meets hs hr
  obtain ⟨rows, e⟩ := range_begins (n := 512) (by decide)
  rw [State.loadImage]
  generalize List.range 512 = all at e ⊢
  generalize List.range 32 = words
  subst e
  dsimp only [List.foldl_cons]
  generalize hp : List.foldl _ (_, _) words = p
  have met : HasMet p.2 := by
    rw [← hp]
    refine foldl_keeps (fun r : List W16 × Run1 => HasMet r.2) (fun r i h => ?_) words _ ?_
    · have read := h.padGran t (area + 16384 + 4 * i)
      split <;> exact read
    · exact foldl_keeps HasMet (fun r row h => (h.fromPad t (area + 32 * row)).putGrans t row _) rows _ (first.putGrans t 0 _)
  obtain ⟨ws, r⟩ := p
  exact (met.modXu t _).close t

/-! ### The part it happens in -/

/-- Tile 0 is about to commit XU_CTX with VALID and LOAD for the area at word 0, whose first granule is uncorrectable. -/
def poisonedArea : State := { State.reset with tiles := [(0, { run := .running, icLine := [(0, some 0)], xu := { ctxLow := 3 } })], synd := [(scratchBase 0 / 8, 0xFF)] }

theorem poisonedArea_fetches : Fetches poisonedArea 0 2 poisonedArea := ⟨rfl, rfl⟩

/-- The XMT that commits XU_CTX, issued with its checks and its drain done. -/
theorem xuCtx_switches {v : State} {t : TileId} {y : Dn} {c : W32} (h : Fetches s t 2 v) (hs : swS (v.tile t).sw = true) (hc : v.ctxCheck t (getD (v.tile t) y) = .ok c v) :
    exec (.xuCtx t y) s = .next ((v.issued t 2 (swS (s.tile t).sw)).switchCtx t c) :=
  congrArg Host.Outcome.next (unitInstr_issues h (check := fun s => if !swS (s.tile t).sw then .fault 19 5 s else s.ctxCheck t (getD (s.tile t) y)) (body := fun c s => s.switchCtx t c) ((if_neg (by simp [hs])).trans hc))

theorem State.modXu_async (s : State) (t : Nat) (f : Xu → Xu) : ((s.modXu t f).tile t).async = (s.tile t).async := by rw [State.modXu, State.tile_modTile]

/-- A switch that saves nothing and loads leaves at the tile what the load has left pending. -/
theorem State.switchCtx_async {c : W32} (hs : ctxValid (s.tile t).xu.ctx = false) (hv : ctxValid c = true) (hl : ctxLoad c = true) :
    ((s.switchCtx t c).tile t).async = ((s.loadImage t (ctxArea c)).tile t).async := by
  have saved : s.saveUnits t = s := if_neg (by simp [hs])
  rw [State.switchCtx, saved, hv, hl, Bool.and_self, if_pos rfl]
  exact State.modXu_async _ t _

/-- Refutes O21: the XMT that commits XU_CTX raises XU_ECC where the area that it loads holds an uncorrectable granule, which changes the tile beyond its units. -/
theorem not_matrixProductsAndUnitRegistersActAsStated : ¬ Obligations.MatrixProductsAndUnitRegistersActAsStated := by
  unfold Obligations.MatrixProductsAndUnitRegistersActAsStated
  rintro ⟨-, claims⟩
  obtain ⟨units, -⟩ := claims poisonedArea poisonedArea poisonedArea 0 0 0
  obtain ⟨-, -, -, -, -, commits⟩ := units poisonedArea_fetches
  obtain ⟨m, run, -, -, -, -, -, -, frame, -⟩ := commits rfl rfl (Or.inr ⟨by decide, Or.inl rfl⟩)
  have pending : (m.tile (0 : TileId)).async ≠ [] := by
    have switched := xuCtx_switches (y := 0) (c := 3) poisonedArea_fetches rfl rfl
    obtain rfl := Host.Outcome.next.inj (switched.symm.trans run)
    generalize hu : poisonedArea.issued (0 : TileId) 2 (swS (poisonedArea.tile (0 : TileId)).sw) = u
    have poisoned : readSynd (u.syndAt ((scratchBase (0 : TileId) + 2 * ctxArea 3) / 8)) = .bad := by
      rw [← hu]
      rfl
    have roomless : u.rooms = [] := by
      rw [← hu]
      rfl
    rw [State.switchCtx_async (by rw [← hu]; rfl) rfl rfl]
    exact State.loadImage_raises poisoned roomless
  generalize m.tile (0 : TileId) = x at frame pending
  exact pending (congrArg Tile.async frame)

end Sys2Proof.Machine
end

section
/-! Comparisons to the lane mask, and conversions of lanes (R199, R201, R203, R215, R241). -/

namespace Sys2Proof.Machine

variable {s u : State} {t : TileId} {v : VOps} {i : Instr}

/-! ### Lane masks (R201) -/

/-- Bit `k` of a mask packed from comparisons. -/
theorem getLsbD_mask (f : Nat → Bool) {n : Nat} (hn : n ≤ 32) (k : Nat) :
    (BitVec.ofNat 32 (packLanes 1 ((List.range n).map fun k => bit (f k)))).getLsbD k = (decide (k < n) && f k) := by
  have bits := testBit_packLanes 1 ((List.range n).map fun k => bit (f k)) k 0 Nat.one_pos
  rw [BitVec.getLsbD_ofNat, show k = 1 * k + 0 by omega, bits, show 1 * k + 0 = k by omega]
  by_cases hk : k < n
  · rw [decide_eq_true hk, decide_eq_true (by omega), List.getD_eq_getElem _ _ (by simpa using hk)]
    cases h : f k <;> simp [h, bit]
  · rw [decide_eq_false hk, List.getD_eq_default _ _ (by simpa using hk), Nat.zero_testBit, Bool.and_false, Bool.false_and]

/-- The mask and the flags of a comparison of rows `a` and `b`. -/
def compareLanes (v : VOps) (below eq : Bool) (a b : Nat) : Nat × W32 × W16 :=
  let r : Nat → Bool × W16 := fun k => laneCmp (tyNum v.ty) below eq (lane a (laneBits v.ty) k) (lane b (laneBits v.ty) k)
  (0, BitVec.ofNat 32 (packLanes 1 ((List.range (lanesOf v.ty)).map fun k => bit (r k).1)), allFlags (lanesOf v.ty) fun k => (r k).2)

theorem State.vecCmp_eq (s : State) (t fn : Nat) (v : VOps) (below eq : Bool) :
    s.vecCmp t fn v below eq = s.unitInstr t 3 (vecCheck fn shCmp v (vecUnused shCmp v) false) fun _ s => s.vecRunPart t shCmp v 0 64 fun _ a b _ => compareLanes v below eq a b := by
  unfold State.vecCmp State.vecRun compareLanes allFlags
  simp only [List.map_map, List.foldl_map]
  rfl

/-- A comparison writes its mask and no row. -/
theorem vecCmp_masks {fn : Nat} {below eq : Bool} (h : Fetches s t 3 u) (clean : XuClean (u.tile t).xu) (hty : v.ty.val ≤ 5) (hvc : v.vc = 0) (hvd : v.vd = 0)
    (hi : exec i s = .next (s.vecCmp t fn v below eq)) : let r : Nat → Bool × W16 := fun k => laneCmp (tyNum v.ty) below eq (lane (rowA (u.tile t).xu v) (laneBits v.ty) k) (lane (rowB (u.tile t).xu v) (laneBits v.ty) k)
    ∃ m, UnitCompletes s u m t i 3 ∧ RowsKept (u.tile t).xu (m.tile t).xu 0 0 ∧ (∀ k, (m.tile t).xu.lmask.getLsbD k = (decide (k < lanesOf v.ty) && (r k).1)) ∧
      (m.tile t).xu.stat = (u.tile t).xu.stat ||| allFlags (lanesOf v.ty) fun k => (r k).2 := by
  have issued : ((u.issued t 3 (swS (s.tile t).sw)).tile t).xu = enqueueUnit (u.tile t).xu := State.xu_issued _ _ _ _
  rw [State.vecCmp_eq, unitInstr_issues h (vecCheck_ok (sh := shCmp) hty (vecUnused_false (.inl rfl) (.inr hvc) (.inr hvd)) (.inl rfl) rfl)] at hi
  obtain ⟨w, extra, reads, effect⟩ := vecRunPart_effect (f := fun _ a b _ => compareLanes v below eq a b) issued clean rfl 0 64
  obtain ⟨⟨only, stat, -⟩, lmask, rows⟩ := vecWrite_mask (v := v) (sh := shCmp) (rd := rowAt (u.tile t).xu (v.ixm ≠ 0) v.vd) (off := 0) (m := 64) (extra := extra) reads rfl
  rw [← effect] at only stat lmask rows
  rw [issued] at stat rows
  generalize (u.issued t 3 (swS (s.tile t).sw)).vecRunPart t shCmp v 0 64 _ = n at *
  refine ⟨n, unitCompletes_of hi only, fun j _ => congrArg (Tbl.get 0 · j) rows, fun k => ?_, stat⟩
  rw [lmask]
  exact getLsbD_mask _ (lanesOf_le _) k

/-! ### Conversions of lanes (R203, R235) -/

theorem tyNum_width {ty : Nat} (h : ty ≤ 5) : (tyNum ty).width = laneBits ty := by
  interval_cases ty <;> rfl

/-- Flags gathered onto flags. -/
theorem foldl_or_eq (l : List W16) (f : W16) : l.foldl (fun m f => m ||| f) f = f ||| l.foldl (fun m f => m ||| f) 0 := by
  induction l generalizing f with
  | nil => exact BitVec.or_zero.symm
  | cons a l ih => rw [List.foldl_cons, List.foldl_cons, ih, ih (0 ||| a), show (0 : W16) ||| a = a from BitVec.zero_or, BitVec.or_assoc]

/-- The lanes of row `row` that VCVT reads, converted. -/
def cvtLane (x : Xu) (v : VOps) (row k : Nat) : Nat × W16 := convert (xuRm x) (xuSat x) (tyNum (v.vc.val % 8)) (tyNum v.ty) (lane row (laneBits (v.vc.val % 8)) k)

theorem convLanes_eq (hst : v.vc.val % 8 ≤ 5) (x : Xu) (row i n : Nat) : convLanes x (tyNum (v.vc.val % 8)) (tyNum v.ty) row i n = (List.range n).map fun k => cvtLane x v row (i + k) := by
  unfold convLanes cvtLane
  rw [tyNum_width hst]

/-- Half a row of VCVT to more lanes: the lanes of row `row`, and then lanes of `free` from lane `i` on. -/
def cvtHalf (x : Xu) (v : VOps) (row free i m : Nat) : List (Nat × W16) :=
  ((List.range (lanesOf (v.vc.val % 8))).map fun k => cvtLane x v row (0 + k)) ++ (List.range m).map fun k => (lane free (laneBits v.ty) (i + lanesOf (v.vc.val % 8) + k), 0)

theorem length_cvtHalf (x : Xu) (v : VOps) (row free i m : Nat) : (cvtHalf x v row free i m).length = lanesOf (v.vc.val % 8) + m := by simp [cvtHalf]

theorem cvtHalf_lane (x : Xu) (v : VOps) (row free i m : Nat) {k : Nat} (hk : k < lanesOf (v.vc.val % 8)) : ((cvtHalf x v row free i m).map fun e => e.1).getD k 0 = (cvtLane x v row k).1 := by
  rw [cvtHalf, List.map_append, List.getD_append _ _ _ _ (by simpa using hk)]
  simp [hk]

theorem cvtHalf_flags (x : Xu) (v : VOps) (row free i m : Nat) : ((cvtHalf x v row free i m).map fun e => e.2).foldl (fun m f => m ||| f) 0 = allFlags (lanesOf (v.vc.val % 8)) fun k => (cvtLane x v row k).2 := by
  rw [cvtHalf, List.map_append, List.foldl_append, foldl_flags, foldl_or_eq, foldl_flags, allFlags_zero]
  simp only [Nat.zero_add]
  exact BitVec.or_zero

theorem cvtNarrow_eq (hst : v.vc.val % 8 ≤ 5) (x : Xu) (a b free : Nat) : cvtNarrow x (v.vc.val % 8) v.ty a b free =
    cvtHalf x v a free 0 (lanesOf v.ty / 2 - lanesOf (v.vc.val % 8)) ++ cvtHalf x v b free (lanesOf v.ty / 2) (lanesOf v.ty / 2 - lanesOf (v.vc.val % 8)) := by
  unfold cvtNarrow cvtHalf
  dsimp only
  rw [convLanes_eq hst, convLanes_eq hst]

theorem lanesOf_cases (ty : Nat) : lanesOf ty = 32 ∨ lanesOf ty = 16 ∨ lanesOf ty = 8 := by
  unfold lanesOf
  split
  · exact .inl rfl
  · split
    · exact .inr (.inl rfl)
    · exact .inr (.inr rfl)

/-- Half of the greater of two numbers of lanes is at least the lesser. -/
theorem lanesOf_half {a b : Nat} (h : lanesOf a < lanesOf b) : lanesOf a ≤ lanesOf b / 2 ∧ lanesOf b = 2 * (lanesOf b / 2) := by
  rcases lanesOf_cases a with e | e | e <;> rcases lanesOf_cases b with e' | e' | e' <;> omega

section
variable (h : Fetches s t 3 u) (clean : XuClean (u.tile t).xu) (hty : v.ty.val ≤ 5) (hst : v.vc.val % 8 ≤ 5) (hvc : v.vc.val ≤ 15)
include h clean hty hst hvc

/-- VCVT to more lanes. -/
theorem vcvt_halves (hn : lanesOf (v.vc.val % 8) < lanesOf v.ty) (hhi : v.vc.val / 8 = 0) :
    VectorWrites s u t (.vcvt t v) v (fun k => k % (lanesOf v.ty / 2) < lanesOf (v.vc.val % 8))
      (fun k => if k < lanesOf v.ty / 2 then (cvtLane (u.tile t).xu v (rowA (u.tile t).xu v) k).1 else (cvtLane (u.tile t).xu v (rowB (u.tile t).xu v) (k - lanesOf v.ty / 2)).1)
      (allFlags (lanesOf (v.vc.val % 8)) (fun k => (cvtLane (u.tile t).xu v (rowA (u.tile t).xu v) k).2) ||| allFlags (lanesOf (v.vc.val % 8)) fun k => (cvtLane (u.tile t).xu v (rowB (u.tile t).xu v) k).2) := by
  obtain ⟨low, even⟩ := lanesOf_half hn
  have wider : ¬ lanesOf v.ty < lanesOf (v.vc.val % 8) := by omega
  refine vectorWrites_of (m := if 2 * lanesOf (v.vc.val % 8) < lanesOf v.ty then (u.issued t 3 (swS (s.tile t).sw)).spend else u.issued t 3 (swS (s.tile t).sw)) (mask := (u.tile t).xu.lmask)
    (l := (cvtNarrow (u.tile t).xu (v.vc.val % 8) v.ty (rowA (u.tile t).xu v) (rowB (u.tile t).xu v) ((u.issued t 3 (swS (s.tile t).sw)).freeVal 512).toNat).map fun e => e.1)
    ?_ ?_ clean (congrArg _ (unitInstr_issues h (vecCheck_ok hty ?_ (.inl rfl) rfl))) ?_ rfl fun k hk hp => ?_
  · split
    · exact .spend _ _
    · exact .refl _ _
  · split <;> exact State.xu_issued _ _ _ _
  · simp only [Bool.or_eq_false_iff, Bool.and_eq_false_iff, decide_eq_false_iff_not, Bool.not_eq_false', decide_eq_true_eq]
    exact ⟨⟨⟨by omega, by omega⟩, by omega⟩, .inl hn⟩
  · have flags : (((cvtNarrow (u.tile t).xu (v.vc.val % 8) v.ty (rowA (u.tile t).xu v) (rowB (u.tile t).xu v) ((u.issued t 3 (swS (s.tile t).sw)).freeVal 512).toNat).map fun e => e.2).foldl (fun m f => m ||| f) 0) =
        allFlags (lanesOf (v.vc.val % 8)) (fun k => (cvtLane (u.tile t).xu v (rowA (u.tile t).xu v) k).2) ||| allFlags (lanesOf (v.vc.val % 8)) fun k => (cvtLane (u.tile t).xu v (rowB (u.tile t).xu v) k).2 := by
      rw [cvtNarrow_eq hst, List.map_append, List.foldl_append, cvtHalf_flags, foldl_or_eq, cvtHalf_flags]
    rw [← flags]
    dsimp only
    rw [if_pos hn, decide_eq_true hn]
    rfl
  · have len (row o : Nat) (free : Nat) : ((cvtHalf (u.tile t).xu v row free o (lanesOf v.ty / 2 - lanesOf (v.vc.val % 8))).map fun e => e.1).length = lanesOf v.ty / 2 := by
      rw [List.length_map, length_cvtHalf]
      omega
    rw [cvtNarrow_eq hst, List.map_append]
    by_cases hl : k < lanesOf v.ty / 2
    · rw [if_pos hl, List.getD_append _ _ _ _ (by rwa [len]), cvtHalf_lane _ _ _ _ _ _ (by rwa [Nat.mod_eq_of_lt hl] at hp)]
    · have left : k - lanesOf v.ty / 2 < lanesOf (v.vc.val % 8) := by rwa [Nat.mod_eq_sub_mod (by omega), Nat.mod_eq_of_lt (by omega)] at hp
      rw [if_neg hl, List.getD_append_right _ _ _ _ (by rw [len]; omega), len, cvtHalf_lane _ _ _ _ _ _ left]

/-- VCVT to as many lanes or fewer. -/
theorem vcvt_whole (hn : lanesOf v.ty ≤ lanesOf (v.vc.val % 8)) (hvb : v.vb = 0) (hhi : v.vc.val / 8 = 1 → lanesOf v.ty < lanesOf (v.vc.val % 8)) :
    let o := if v.vc.val / 8 = 1 then lanesOf v.ty else 0
    VectorWrites s u t (.vcvt t v) v (fun _ => True) (fun k => (cvtLane (u.tile t).xu v (rowA (u.tile t).xu v) (o + k)).1) (allFlags (lanesOf v.ty) fun k => (cvtLane (u.tile t).xu v (rowA (u.tile t).xu v) (o + k)).2) := by
  intro o
  have hi : v.vc.val / 8 % 2 = v.vc.val / 8 := by omega
  have one : ¬ lanesOf (v.vc.val % 8) < lanesOf v.ty := by omega
  have two : ¬ 2 * lanesOf (v.vc.val % 8) < lanesOf v.ty := by omega
  refine vectorWrites_of (m := if 2 * lanesOf (v.vc.val % 8) < lanesOf v.ty then (u.issued t 3 (swS (s.tile t).sw)).spend else u.issued t 3 (swS (s.tile t).sw)) (mask := (u.tile t).xu.lmask)
    (l := ((List.range (lanesOf v.ty)).map fun k => cvtLane (u.tile t).xu v (rowA (u.tile t).xu v) (o + k)).map fun e => e.1)
    (by rw [if_neg two]; exact .refl _ _) (by rw [if_neg two]; exact State.xu_issued _ _ _ _) clean (congrArg _ (unitInstr_issues h (vecCheck_ok hty ?_ (.inl rfl) rfl))) ?_ rfl fun k hk _ => ?_
  · simp only [Bool.or_eq_false_iff, Bool.and_eq_false_iff, decide_eq_false_iff_not, Bool.not_eq_false', decide_eq_true_eq]
    exact ⟨⟨⟨by omega, by omega⟩, by omega⟩, .inr (by simp [hvb])⟩
  · rw [hi]
    dsimp only
    rw [if_neg one, convLanes_eq hst, foldl_flags]
    rfl
  · simp [hk]

end

/-! ### Packed elements (R203, R241) -/

/-- The checks of VPACK and VUNPK on the code and the place. -/
theorem packCheck_eq (fn : Nat) (v : VOps) (s : State) : packCheck fn v s = vecCheck fn ⟨2, false, false, true⟩ v (decide (11 < v.vc.val) || decide (3 < v.vb.val) || (decide (codeStep v.vc.val = 8) && decide (1 < v.vb.val)))
    (decide (v.vc.val < 3) || decide (v.vc.val = 11)) s := rfl

theorem codeStep_small {c : Nat} (h3 : 3 ≤ c) (h11 : c < 11) : codeStep c = 8 ∨ codeStep c = 4 := by
  interval_cases c <;> decide

theorem lanesOf_small {ty : Nat} (h : ty ≤ 2) : lanesOf ty = 32 := if_pos (by omega)
theorem laneBits_small {ty : Nat} (h : ty ≤ 2) : laneBits ty = 16 := by rw [laneBits, lanesOf_small h]

/-- What VPACK writes: its lanes converted and packed, with the mask and the flags. -/
def packedLanes (v : VOps) (x : Xu) (a : Nat) : Nat × W32 × W16 :=
  let l := convLanes x (tyNum v.ty) ((codeNum v.vc).getD (.int 8 true)) a 0 32
  (packLanes (codeStep v.vc) (l.map fun e => e.1), x.lmask, (l.map fun e => e.2).foldl (fun m f => m ||| f) 0)

theorem packedLanes_eq (hty : v.ty.val ≤ 2) (x : Xu) (a : Nat) :
    let l := (List.range 32).map fun k => convert (xuRm x) (xuSat x) (tyNum v.ty) ((codeNum v.vc).getD (.int 8 true)) (lane a 16 k)
    packedLanes v x a = (packLanes (codeStep v.vc) (l.map fun e => e.1), x.lmask, (l.map fun e => e.2).foldl (fun m f => m ||| f) 0) := by
  unfold packedLanes convLanes
  rw [tyNum_width (by omega), laneBits_small hty]
  simp only [Nat.zero_add]

section
variable (h : Fetches s t 3 u) (clean : XuClean (u.tile t).xu) (h3 : 3 ≤ v.vc.val) (h11 : v.vc.val < 11) (hty : v.ty.val ≤ 2) (hvb : v.vb.val ≤ 3) (h8 : codeStep v.vc.val = 8 → v.vb.val ≤ 1)
include h3 h11 hty hvb h8

omit h3 hty in
theorem packCheck_bad : (decide (11 < v.vc.val) || decide (3 < v.vb.val) || (decide (codeStep v.vc.val = 8) && decide (1 < v.vb.val))) = false := by
  simp only [Bool.or_eq_false_iff, Bool.and_eq_false_iff, decide_eq_false_iff_not]
  exact ⟨⟨by omega, by omega⟩, by omega⟩

theorem packCheck_ok (fn : Nat) : packCheck fn v u = .ok () u := by
  rw [packCheck_eq]
  exact vecCheck_ok (by omega) (packCheck_bad h11 hvb h8) (.inr (.inr ⟨rfl, hty⟩)) (by simp only [Bool.or_eq_false_iff, decide_eq_false_iff_not]; omega)

include h clean

/-- VUNPK converts the elements from its place on. -/
theorem vunpk_writes : let num := (codeNum v.vc.val).getD (.int 8 true)
    let e := codeStep v.vc.val
    let g : Nat → Nat × W16 := fun k => convert (xuRm (u.tile t).xu) (xuSat (u.tile t).xu) num (tyNum v.ty) (lane (rowA (u.tile t).xu v) e (32 * v.vb.val + k) % 2 ^ num.width)
    VectorWrites s u t (.vunpk t v) v (fun _ => True) (fun k => (g k).1) (allFlags 32 fun k => (g k).2) := by
  intro num e g
  refine vectorWrites_checked (l := ((List.range 32).map g).map fun e => e.1) (mask := (u.tile t).xu.lmask) h clean rfl (packCheck_ok h3 h11 hty hvb h8 23) ?_ rfl fun k hk _ => ?_
  · rw [laneBits_small hty, ← foldl_flags]
    rfl
  · rw [lanesOf_small hty] at hk
    simp [hk]

omit clean h3 in
/-- VPACK runs on the part of the row that its place names. -/
theorem vpack_runs (h3 : 3 ≤ v.vc.val) : exec (.vpack t v) s = .next ((u.issued t 3 (swS (s.tile t).sw)).vecRunPart t shUn v (4 * codeStep v.vc * v.vb) (4 * codeStep v.vc) fun x a _ _ => packedLanes v x a) :=
  congrArg Host.Outcome.next (unitInstr_issues (body := fun _ s => s.vecRunPart t shUn v (4 * codeStep v.vc * v.vb) (4 * codeStep v.vc) fun x a _ _ => packedLanes v x a) h (packCheck_ok h3 h11 hty hvb h8 22))

/-- VPACK writes the converted lanes at its place in the row, and keeps the rest of it. -/
theorem vpack_writes : let num := (codeNum v.vc.val).getD (.int 8 true)
    let e := codeStep v.vc.val
    let rd := rowAt (u.tile t).xu (v.ixm ≠ 0) v.vd
    let g : Nat → Nat × W16 := fun k => convert (xuRm (u.tile t).xu) (xuSat (u.tile t).xu) (tyNum v.ty) num (lane (rowA (u.tile t).xu v) 16 k)
    ∃ m, UnitCompletes s u m t (.vpack t v) 3 ∧ RowsKept (u.tile t).xu (m.tile t).xu rd 1 ∧ (m.tile t).xu.stat = (u.tile t).xu.stat ||| (allFlags 32 fun k => (g k).2) ∧
      (∀ k, k < 32 → bitsOf (rowOf (m.tile t).xu rd) (32 * e * v.vb.val + e * k) e = (g k).1 % 2 ^ e) ∧
      (∀ j, j < 32 * e * v.vb.val ∨ 32 * e * (v.vb.val + 1) ≤ j → (rowOf (m.tile t).xu rd).testBit j = (rowOf (u.tile t).xu rd).testBit j) := by
  intro num e rd g
  have issued : ((u.issued t 3 (swS (s.tile t).sw)).tile t).xu = enqueueUnit (u.tile t).xu := State.xu_issued _ _ _ _
  have run := vpack_runs h h11 hty hvb h8 h3
  have out : packedLanes v (enqueueUnit (u.tile t).xu) (rowA (u.tile t).xu v) = (packLanes e (((List.range 32).map g).map fun e => e.1), (u.tile t).xu.lmask, allFlags 32 fun k => (g k).2) := by
    rw [← foldl_flags, packedLanes_eq hty]
    rfl
  obtain ⟨w, extra, reads, effect⟩ := vecRunPart_effect (sh := shUn) (f := fun x a _ _ => packedLanes v x a) issued clean out (4 * e * v.vb) (4 * e)
  obtain ⟨⟨only, stat, -⟩, -, rows⟩ := vecWrite_row (v := v) (sh := shUn) (rd := rd) (off := 4 * e * v.vb) (m := 4 * e) (extra := extra)
    (e := (packLanes e (((List.range 32).map g).map fun e => e.1), (u.tile t).xu.lmask, allFlags 32 fun k => (g k).2)) reads rfl
  have step : e = 8 ∨ e = 4 := codeStep_small h3 h11
  have part : 4 * e * v.vb.val + 4 * e ≤ 64 ∧ 8 * (4 * e * v.vb.val) = 32 * e * v.vb.val ∧ 8 * (4 * e * v.vb.val + 4 * e) = 32 * e * (v.vb.val + 1) := by
    rcases step with he | he
    · have := h8 he
      rw [he]
      omega
    · rw [he]
      omega
  obtain ⟨fits, first, last⟩ := part
  rw [← effect] at only stat rows
  rw [issued] at stat rows
  generalize (u.issued t 3 (swS (s.tile t).sw)).vecRunPart t shUn v _ _ _ = n at *
  have bits := testBit_rowOf_written (x := enqueueUnit (u.tile t).xu) fits rows
  rw [first, last] at bits
  refine ⟨n, unitCompletes_of run only, fun j hj => (rows j).trans (if_neg (by omega)), stat, fun k hk => ?_, fun j hj => ?_⟩
  · have lanes := bitsOf_written (row := rowOf (n.tile t).xu rd) (p := 32 * e * v.vb.val) (w := e) (k := k) (l := ((List.range 32).map g).map fun e => e.1) fun i hi hi' => ?_
    · rw [lanes]
      simp [hk]
    · rw [bits, if_pos]
      rcases step with he | he <;> (rw [he] at hi hi' ⊢; omega)
  · rw [bits, if_neg (by omega), rowOf_enqueued]

end

/-- VCVT refuses a reserved source type, a half that its source does not have, and a row b that it does not read (R134, R203). -/
theorem vcvt_illegal (h : Fetches s t 3 u) (hb : 5 < v.vc.val % 8 ∨ 15 < v.vc.val ∨ (v.vc.val / 8 = 1 ∧ lanesOf (v.vc.val % 8) ≤ lanesOf v.ty) ∨ (lanesOf v.ty ≤ lanesOf (v.vc.val % 8) ∧ v.vb ≠ 0)) :
    Faults s u t (.vcvt t v) 1 0 := by
  refine vec_illegal h rfl (.inr ?_)
  rcases hb with hb | hb | ⟨hb, hn⟩ | ⟨hn, hb⟩
  · simp [hb]
  · simp [hb]
  · simp [hb, hn]
  · simp [hn, hb]

/-- The faults of an instruction that `packCheck` checks. -/
theorem pack_faults {fn : Nat} {body : Unit → State → State} (h : Fetches s t 3 u) (hty : v.ty.val ≤ 5) (hi : exec i s = .next (s.unitInstr t 3 (packCheck fn v) body)) :
    (11 < v.vc.val ∨ 3 < v.vb.val ∨ codeStep v.vc.val = 8 ∧ 1 < v.vb.val → Faults s u t i 1 0) ∧
    (¬(11 < v.vc.val ∨ 3 < v.vb.val ∨ codeStep v.vc.val = 8 ∧ 1 < v.vb.val) → v.vc.val < 3 ∨ v.vc.val = 11 ∨ 2 < v.ty.val → Faults s u t i 16 (fn + 256 * v.ty.val)) := by
  rw [show packCheck fn v = _ from funext (packCheck_eq fn v)] at hi
  constructor
  · intro bad
    exact vec_illegal h hi (.inr (by simpa [or_assoc] using bad))
  · intro good fmt
    refine vec_format h hi hty (by simpa [and_assoc] using good) ?_
    rcases fmt with e | e | e
    · exact .inr (.inr (by simp [e]))
    · exact .inr (.inr (by simp [e]))
    · exact .inr (.inl ⟨rfl, e⟩)

/-- Settles O19, from the rules for comparisons, conversions and packed elements. -/
theorem vectorComparesAndConversionsWriteMaskOrLanes : Obligations.VectorComparesAndConversionsWriteMaskOrLanes := by
  intro s u t v h clean hty x w n ra rb compares
  refine ⟨fun hvc hvd => ⟨vecCmp_masks h clean hty hvc hvd rfl, vecCmp_masks h clean hty hvc hvd rfl, vecCmp_masks h clean hty hvc hvd rfl⟩, ?_, vcvt_illegal h, ?_, ?_⟩
  · exact fun hst hvc => ⟨vcvt_whole h clean hty hst hvc, vcvt_halves h clean hty hst hvc⟩
  · obtain ⟨pillegal, pformat⟩ := pack_faults (i := .vpack t v) (fn := 22) h hty rfl
    obtain ⟨uillegal, uformat⟩ := pack_faults (i := .vunpk t v) (fn := 23) h hty rfl
    exact ⟨fun bad => ⟨pillegal bad, uillegal bad⟩, fun good fmt => ⟨pformat good fmt, uformat good fmt⟩⟩
  · exact fun h3 h11 hty hvb h8 => ⟨vpack_writes h clean h3 h11 hty hvb h8, vunpk_writes h clean h3 h11 hty hvb h8⟩

end Sys2Proof.Machine
end

section
/-! SUPPORT. Moves of whole rows between tile registers and scratchpad: the bytes that they copy, over good granules (R194, R208, R209). -/

namespace Sys2Proof.Machine

variable {s u n : State} {k : Nat}

/-! ### Blocks of 64 bytes copied one after the other -/

/-- The bytes after copies of 64 bytes each: of a pair `(d, f)` to byte `d` from byte `f` of `src`. -/
def copied (src : Nat → Byte) (l : List (Nat × Nat)) (old : Nat → Byte) : Nat → Byte :=
  l.foldl (fun g p j => if p.1 ≤ j ∧ j < p.1 + 64 then src (p.2 + (j - p.1)) else g j) old

theorem copied_cons (src : Nat → Byte) (p : Nat × Nat) (l : List (Nat × Nat)) (old : Nat → Byte) :
    copied src (p :: l) old = copied src l fun j => if p.1 ≤ j ∧ j < p.1 + 64 then src (p.2 + (j - p.1)) else old j := rfl

/-- Bytes that no copy reaches stay. -/
theorem copied_kept {src old : Nat → Byte} {l : List (Nat × Nat)} {j : Nat} (h : ∀ p ∈ l, j < p.1 ∨ p.1 + 64 ≤ j) : copied src l old j = old j := by
  induction l generalizing old with
  | nil => rfl
  | cons p l ih =>
    have here := h p List.mem_cons_self
    exact (ih fun q hq => h q (List.mem_cons_of_mem p hq)).trans (if_neg (by omega))

/-- A copy that no later one overlaps stands. -/
theorem copied_range {src old : Nat → Byte} {dst from' : Nat → Nat} {m q i : Nat} (hq : q < m) (hi : i < 64) (later : ∀ r, q < r → r < m → dst q + 64 ≤ dst r ∨ dst r + 64 ≤ dst q) :
    copied src ((List.range m).map fun r => (dst r, from' r)) old (dst q + i) = src (from' q + i) := by
  induction m with
  | zero => omega
  | succ m ih =>
    have last : copied src ((List.range (m + 1)).map fun r => (dst r, from' r)) old (dst q + i) =
        if dst m ≤ dst q + i ∧ dst q + i < dst m + 64 then src (from' m + (dst q + i - dst m)) else copied src ((List.range m).map fun r => (dst r, from' r)) old (dst q + i) := by
      rw [copied, List.range_succ, List.map_append, List.foldl_append]
      rfl
    rw [last]
    obtain rfl | hm := eq_or_ne q m
    · rw [if_pos (by omega), Nat.add_sub_cancel_left]
    · have apart := later m (by omega) (by omega)
      rw [if_neg (by omega), ih (by omega) fun r hr hr' => later r hr (by omega)]

/-! ### Granules of a row (R194) -/

/-- Every granule has its 8 bytes and good check bits. -/
def GoodGrans (l : List Gran) : Prop := ∀ e ∈ l, e.1.length = 8 ∧ e.2 = 0

theorem goodGrans_map (f : Nat → List Byte) (is : List Nat) (hf : ∀ i, (f i).length = 8) : GoodGrans (is.map fun i => (f i, 0)) := by
  intro e he
  obtain ⟨i, -, rfl⟩ := List.mem_map.1 he
  exact ⟨hf i, rfl⟩

theorem GoodGrans.getD {l : List Gran} (h : GoodGrans l) (i : Nat) : (l.getD i ([], 0)).2 = 0 := by
  by_cases hi : i < l.length
  · rw [List.getD_eq_getElem _ _ hi]
    exact (h _ (List.getElem_mem hi)).2
  · rw [List.getD_eq_default _ _ (by omega)]

/-- The granules of row `row`. -/
def rowGrans (x : Xu) (row : Nat) : List Gran := (List.range 8).map fun i => (granBytes x (8 * row + i), 0)

theorem rowGrans_good (x : Xu) (row : Nat) : GoodGrans (rowGrans x row) := goodGrans_map _ _ fun i => by simp [granBytes]

theorem rowGrans_bytes (x : Xu) (row : Nat) : (rowGrans x row).flatMap (fun e => e.1) = rowBytes x row := by
  rw [← flatMap_granBytes, rowGrans, List.flatMap_map]

/-- Good granules written into a row. -/
theorem State.putGrans_writes (s : State) (k row : Nat) {l : List Gran} (hl : GoodGrans l) : BytesWritten k (64 * row) (l.flatMap fun e => e.1) s (s.putGrans k row l) := by
  obtain ⟨only, rows, clean, control⟩ := s.putXr_writes k (64 * row) (l.flatMap fun e => e.1)
  unfold State.putGrans
  generalize s.putXr k (64 * row) (l.flatMap fun e => e.1) = w at *
  refine ⟨only.trans (.modXu w k _), fun j => ?_, fun hc g => ?_, ?_⟩
  · rw [State.xu_modXu]
    exact rows j
  · rw [State.xu_modXu]
    refine (get_forN_put 0 (8 * row) (fun i => (l.getD i ([], 0)).2) 8 _ g).trans ?_
    rw [hl.getD, clean hc g, ite_self]
  · rw [State.xu_modXu]
    exact control

theorem BytesWritten.after {off : Nat} {bs : List Byte} (h : BytesWritten k off bs u n) (r : Reads k s u) : BytesWritten k off bs s n where
  only := r.only.trans h.only
  rows j := by
    have same : (u.tile k).xu.rows = (s.tile k).xu.rows := (congrArg UnitView.rows r.view :)
    rw [← same]
    exact h.rows j
  clean hc := h.clean (r.clean hc)
  control := by rw [h.control, r.view]

/-! ### Copies within the tile registers (R208) -/

/-- Row `dst` has become a copy of row `src`, and nothing else changed that results depend on. -/
theorem State.rowCopy_writes (hc : XuClean (s.tile k).xu) (src dst : Nat) : BytesWritten k (64 * dst) (rowBytes (s.tile k).xu src) s (s.rowCopy k src dst) := by
  have reads : Reads k s (s.modXu k fun x => collect x .a src) := .modXu s k fun x => viewOf_collect x .a src
  have rows : ((s.modXu k fun x => collect x .a src).tile k).xu.rows = (s.tile k).xu.rows := (congrArg UnitView.rows reads.view :)
  have run : s.rowCopy k src dst = ((s.modXu k fun x => collect x .a src).putGrans k dst (rowGrans ((s.modXu k fun x => collect x .a src).tile k).xu src)).unitCycles k 0 := by
    unfold State.rowCopy
    rw [Run1.carryRow_good (r := { s := s.modXu k fun x => collect x .a src, bad := [] }) (reads.clean hc)]
    rfl
  rw [run]
  generalize s.modXu k (fun x => collect x .a src) = w at reads rows
  have written := (w.putGrans_writes k dst (rowGrans_good (w.tile k).xu src)).then (.unitCycles _ k 0)
  rw [rowGrans_bytes, show rowBytes (w.tile k).xu src = rowBytes (s.tile k).xu src by unfold rowBytes; rw [rows]] at written
  exact written.after reads

/-! ### Loads from the scratchpad (R208) -/

/-- Where a load puts a row and takes it from: byte addresses in the tile registers and in memory. -/
def loadPair (k : Nat) (p : Nat × Nat) : Nat × Nat := (64 * p.1, scratchBase k + 2 * p.2)

theorem scratchBase_aligned {k a : Nat} (h : a % 32 = 0) : 8 * ((scratchBase k + 2 * a) / 8) = scratchBase k + 2 * a := by
  unfold scratchBase
  omega

theorem Run1.padGran_good {r : Run1} (hs : ∀ g, r.s.syndAt g = 0) (a : Nat) : r.padGran k a = ((r.s.bytesAt (8 * ((scratchBase k + 2 * a) / 8)) 8, 0), r) := by
  unfold Run1.padGran
  dsimp only
  rw [State.readGran_good _ _ (by rw [hs]; exact readSynd_zero)]

/-- The granules of 64 bytes of memory. -/
def padGrans (s : State) (b : Nat) : List Gran := (List.range 8).map fun i => (s.bytesAt (b + 8 * i) 8, 0)

theorem padGrans_good (s : State) (b : Nat) : GoodGrans (padGrans s b) := goodGrans_map _ _ fun i => by simp [State.bytesAt]

theorem padGrans_bytes (s : State) (b : Nat) : (padGrans s b).flatMap (fun e => e.1) = s.bytesAt b 64 := by
  have pieces := flatMap_pieces (fun j => s.byteAt (b + j)) 8 8
  rw [padGrans, List.flatMap_map]
  refine Eq.trans ?_ pieces
  simp only [State.bytesAt, Nat.add_assoc]

theorem Run1.fromPad_good {r : Run1} (hs : ∀ g, r.s.syndAt g = 0) {a : Nat} (ha : a % 32 = 0) : r.fromPad k a = (padGrans r.s (scratchBase k + 2 * a), r) := by
  have good (i : Nat) : Run1.padGran r k (a + 4 * i) = ((r.s.bytesAt (scratchBase k + 2 * a + 8 * i) 8, 0), r) := by
    rw [Run1.padGran_good hs, show 8 * ((scratchBase k + 2 * (a + 4 * i)) / 8) = scratchBase k + 2 * a + 8 * i by unfold scratchBase; omega]
  rw [Run1.fromPad, padGrans]
  generalize List.range 8 = is
  exact (foldl_gathers (read := fun r i => Run1.padGran r k (a + 4 * i)) good (fun d => [d]) is []).trans (congrArg (·, r) (List.flatMap_pure_eq_map _ _))

/-- Rows have been loaded from the scratchpad: pairs of row and word address. -/
structure PadLoaded (k : Nat) (l : List (Nat × Nat)) (s n : State) : Prop where
  only : UnitOnly k s n
  clean : XuClean (n.tile k).xu
  rows : ∀ j, Tbl.get 0 (n.tile k).xu.rows j = copied s.byteAt (l.map (loadPair k)) (fun j => Tbl.get 0 (s.tile k).xu.rows j) j

/-- One row of a load. -/
def loadStep (k : Nat) (r : Run1) (p : Nat × Nat) : Run1 := { (r.fromPad k p.2).2 with s := (r.fromPad k p.2).2.s.putGrans k p.1 (r.fromPad k p.2).1 }

theorem State.padLoad_eq (s : State) (k : Nat) (l : List (Nat × Nat)) :
    s.padLoad k l = Run1.close { l.foldl (loadStep k) { s := s, bad := [] } with s := (l.foldl (loadStep k) { s := s, bad := [] }).s.unitCycles k 0 } k := by
  unfold State.padLoad
  refine congrArg (fun f : Run1 → Nat × Nat → Run1 => Run1.close { List.foldl f ⟨s, []⟩ l with s := (List.foldl f ⟨s, []⟩ l).s.unitCycles k 0 } k) (funext₂ fun r p => ?_)
  obtain ⟨row, a⟩ := p
  unfold loadStep
  dsimp only

/-- An instruction that met no error ends as it stands. -/
theorem Run1.close_none (s : State) (k : Nat) : Run1.close { s := s, bad := [] } k = s := rfl

theorem loadStep_good {r : Run1} (hs : ∀ g, r.s.syndAt g = 0) {p : Nat × Nat} (hp : p.2 % 32 = 0) :
    loadStep k r p = { r with s := r.s.putGrans k p.1 (padGrans r.s (scratchBase k + 2 * p.2)) } := by
  unfold loadStep
  rw [Run1.fromPad_good hs hp]

theorem padLoad_rows {l : List (Nat × Nat)} (hc : XuClean (s.tile k).xu) (hs : ∀ g, s.syndAt g = 0) (hl : ∀ p ∈ l, p.2 % 32 = 0) :
    ∃ n, l.foldl (loadStep k) { s := s, bad := [] } = { s := n, bad := [] } ∧ PadLoaded k l s n := by
  induction l generalizing s with
  | nil => exact ⟨s, rfl, .refl k s, hc, fun _ => rfl⟩
  | cons p l ih =>
    have aligned := hl p List.mem_cons_self
    have written := s.putGrans_writes k p.1 (padGrans_good s (scratchBase k + 2 * p.2))
    rw [padGrans_bytes] at written
    rw [List.foldl_cons, loadStep_good (r := { s := s, bad := [] }) hs aligned]
    dsimp only
    generalize s.putGrans k p.1 (padGrans s (scratchBase k + 2 * p.2)) = u at written
    have bytes : u.byteAt = s.byteAt := funext fun b => congrArg (Tbl.get 0 · b) written.only.mem
    have synd (g : Nat) : u.syndAt g = 0 := (congrArg (Tbl.get 0 · g) written.only.synd).trans (hs g)
    obtain ⟨n, run, only, clean, rows⟩ := ih (written.clean hc) synd fun q hq => hl q (List.mem_cons_of_mem p hq)
    refine ⟨n, run, written.only.trans only, clean, fun j => ?_⟩
    rw [rows, bytes, List.map_cons, copied_cons]
    refine congrArg (fun old => copied s.byteAt (l.map (loadPair k)) old j) (funext fun j => ?_)
    rw [written.rows, loadPair]
    simp only [State.bytesAt, List.length_map, List.length_range]
    by_cases hj : 64 * p.1 ≤ j ∧ j < 64 * p.1 + 64
    · rw [if_pos hj, if_pos hj, List.getD_eq_getElem _ _ (by simp; omega)]
      simp
    · rw [if_neg hj, if_neg hj]

/-- A load of rows over good granules. -/
theorem State.padLoad_loads {l : List (Nat × Nat)} (hc : XuClean (s.tile k).xu) (hs : ∀ g, s.syndAt g = 0) (hl : ∀ p ∈ l, p.2 % 32 = 0) : PadLoaded k l s (s.padLoad k l) := by
  obtain ⟨n, run, only, clean, rows⟩ := padLoad_rows hc hs hl
  have last : s.padLoad k l = n.unitCycles k 0 := by
    rw [State.padLoad_eq, run, Run1.close_none]
  have reads : Reads k n (n.unitCycles k 0) := .unitCycles n k 0
  have same : ((n.unitCycles k 0).tile k).xu.rows = (n.tile k).xu.rows := (congrArg UnitView.rows reads.view :)
  rw [last]
  exact ⟨only.trans reads.only, reads.clean clean, fun j => by rw [same, rows]⟩

/-! ### Stores to the scratchpad (R208) -/

/-- Where a store puts a row and takes it from. -/
def storePair (k : Nat) (p : Nat × Nat) : Nat × Nat := (scratchBase k + 2 * p.2, 64 * p.1)

theorem State.putCarried_tiles (l : List Gran) (s : State) (g : Nat) : (s.putCarried g l).tiles = s.tiles := by
  induction l generalizing s g with
  | nil => rfl
  | cons e l ih => rw [State.putCarried, ih, State.setSynd_tiles, State.putBytes_eq]

theorem State.putCarried_synd {l : List Gran} (hl : GoodGrans l) (hs : ∀ g, s.syndAt g = 0) (g i : Nat) : (s.putCarried g l).syndAt i = 0 := by
  induction l generalizing s g with
  | nil => exact hs i
  | cons e l ih =>
    rw [State.putCarried, (hl e List.mem_cons_self).2]
    exact ih (fun e' h => hl e' (List.mem_cons_of_mem e h)) (State.syndAt_written hs _ _ _) _

theorem State.byteAt_setSynd (s : State) (g : Nat) (y : Byte) (b : Nat) : (s.setSynd g y).byteAt b = s.byteAt b := rfl

/-- Granules stored one after the other store their bytes. -/
theorem State.byteAt_putCarried {l : List Gran} (hl : GoodGrans l) (s : State) (g b : Nat) : (s.putCarried g l).byteAt b = (s.putBytes (8 * g) (l.flatMap fun e => e.1)).byteAt b := by
  induction l generalizing s g with
  | nil => rfl
  | cons e l ih =>
    have eight := (hl e List.mem_cons_self).1
    rw [State.putCarried, ih (fun e' h => hl e' (List.mem_cons_of_mem e h)), State.byteAt_putBytes, State.byteAt_putBytes, List.flatMap_cons]
    rw [State.byteAt_setSynd, State.byteAt_putBytes, List.length_append, eight]
    by_cases first : 8 * g ≤ b ∧ b < 8 * g + 8
    · rw [if_neg (by omega), if_pos first, if_pos (by omega), List.getD_append _ _ _ _ (by omega)]
    · by_cases rest : 8 * (g + 1) ≤ b ∧ b < 8 * (g + 1) + (l.flatMap fun e => e.1).length
      · rw [if_pos rest, if_pos (by omega), List.getD_append_right _ _ _ _ (by omega), eight, show b - 8 * g - 8 = b - 8 * (g + 1) by omega]
      · rw [if_neg rest, if_neg first, if_neg (by omega)]

/-- Rows have been stored to the scratchpad: pairs of row and word address. -/
structure PadStored (k : Nat) (l : List (Nat × Nat)) (s n : State) : Prop where
  tiles : n.tiles = s.tiles
  synd : ∀ g, n.syndAt g = 0
  bytes : ∀ b, n.byteAt b = copied (fun j => Tbl.get 0 (s.tile k).xu.rows j) (l.map (storePair k)) s.byteAt b

/-- One row of a store. -/
def storeStep (k : Nat) (r : Run1) (p : Nat × Nat) : Run1 := { (r.carryRow k p.1).2 with s := (r.carryRow k p.1).2.s.putCarried ((scratchBase k + 2 * p.2) / 8) (r.carryRow k p.1).1 }

theorem State.padStore_eq (s : State) (k : Nat) (l : List (Nat × Nat)) :
    s.padStore k l = (Run1.close { l.foldl (storeStep k) { s := s, bad := [] } with s := (l.foldl (storeStep k) { s := s, bad := [] }).s.unitCycles k 0 } k).modXu k drainedUnit := by
  unfold State.padStore
  refine congrArg (fun f : Run1 → Nat × Nat → Run1 => (Run1.close { List.foldl f ⟨s, []⟩ l with s := (List.foldl f ⟨s, []⟩ l).s.unitCycles k 0 } k).modXu k drainedUnit) (funext₂ fun r p => ?_)
  obtain ⟨row, a⟩ := p
  unfold storeStep
  dsimp only

theorem storeStep_good {r : Run1} (hc : XuClean (r.s.tile k).xu) (p : Nat × Nat) :
    storeStep k r p = { r with s := r.s.putCarried ((scratchBase k + 2 * p.2) / 8) (rowGrans (r.s.tile k).xu p.1) } := by
  unfold storeStep
  rw [Run1.carryRow_good hc, ← rowGrans]

theorem padStore_bytes {l : List (Nat × Nat)} (hc : XuClean (s.tile k).xu) (hs : ∀ g, s.syndAt g = 0) (hl : ∀ p ∈ l, p.2 % 32 = 0) :
    ∃ n, l.foldl (storeStep k) { s := s, bad := [] } = { s := n, bad := [] } ∧
      PadStored k l s n := by
  induction l generalizing s with
  | nil => exact ⟨s, rfl, rfl, hs, fun _ => rfl⟩
  | cons p l ih =>
    have aligned := scratchBase_aligned (k := k) (hl p List.mem_cons_self)
    have grans := rowGrans_good (s.tile k).xu p.1
    have tiles := State.putCarried_tiles (rowGrans (s.tile k).xu p.1) s ((scratchBase k + 2 * p.2) / 8)
    have synd := State.putCarried_synd grans hs ((scratchBase k + 2 * p.2) / 8)
    have stored := State.byteAt_putCarried grans s ((scratchBase k + 2 * p.2) / 8)
    rw [aligned, rowGrans_bytes] at stored
    rw [List.foldl_cons, storeStep_good (r := { s := s, bad := [] }) hc]
    dsimp only
    generalize s.putCarried ((scratchBase k + 2 * p.2) / 8) (rowGrans (s.tile k).xu p.1) = u at tiles synd stored
    have tile : u.tile k = s.tile k := congrArg (Tbl.get _ · k) tiles
    obtain ⟨n, run, tiles', synd', bytes⟩ := ih (by rw [tile]; exact hc) synd fun q hq => hl q (List.mem_cons_of_mem p hq)
    refine ⟨n, run, tiles'.trans tiles, synd', fun b => ?_⟩
    rw [bytes, tile, List.map_cons, copied_cons]
    refine congrArg (fun old => copied (fun j => Tbl.get 0 (s.tile k).xu.rows j) (l.map (storePair k)) old b) (funext fun b => ?_)
    rw [stored, State.byteAt_putBytes, storePair]
    simp only [rowBytes, List.length_map, List.length_range]
    by_cases hb : scratchBase k + 2 * p.2 ≤ b ∧ b < scratchBase k + 2 * p.2 + 64
    · rw [if_pos hb, if_pos hb, List.getD_eq_getElem _ _ (by simp; omega)]
      simp
    · rw [if_neg hb, if_neg hb]

/-- A store of rows over good granules: memory, and then the units alone. -/
theorem State.padStore_stores {l : List (Nat × Nat)} (hc : XuClean (s.tile k).xu) (hs : ∀ g, s.syndAt g = 0) (hl : ∀ p ∈ l, p.2 % 32 = 0) : ∃ n, PadStored k l s n ∧ Reads k n (s.padStore k l) := by
  obtain ⟨n, run, stored⟩ := padStore_bytes hc hs hl
  have last : s.padStore k l = (n.unitCycles k 0).modXu k drainedUnit := by
    rw [State.padStore_eq, run, Run1.close_none]
  rw [last]
  exact ⟨n, stored, (Reads.unitCycles n k 0).trans (.modXu _ k fun _ => rfl)⟩

end Sys2Proof.Machine
end

section
/-! Moves of rows between tile registers, T rows, half-rows of Zd and scratchpad (R192, R199, R208, R213, R222). -/

namespace Sys2Proof.Machine

variable {s u v n : State} {t : TileId} {i : Instr}

/-! ### Checks of a move (R208, R222) -/

/-- A move whose checks pass is aligned. -/
theorem moveFault_none {a st m w : Nat} (h : u.moveFault t a st m w = none) : a % 32 = 0 ∧ st % 32 = 0 := by
  unfold State.moveFault at h
  split at h
  · cases h
  · split at h
    · cases h
    · split at h
      · cases h
      · split at h
        · cases h
        · rename_i aligned
          simp only [decide_not, Bool.or_eq_true, Bool.not_eq_true', decide_eq_false_iff_not] at aligned
          omega

theorem moveCheck_fault {a st m w c f : Nat} {reads : Bool} (h : u.moveFault t a st m w = some (c, f)) : u.moveCheck t a st m w reads = .fault c f u := by
  unfold State.moveCheck
  rw [h]

theorem moveFault_of_ok {a st m w : Nat} {reads : Bool} (h : u.moveCheck t a st m w reads = .ok () v) : u.moveFault t a st m w = none := by
  cases hf : u.moveFault t a st m w with
  | none => rfl
  | some e =>
    rw [moveCheck_fault hf] at h
    cases h

theorem moveCheck_aligned {a st m w : Nat} {reads : Bool} (h : u.moveCheck t a st m w reads = .ok () v) : a % 32 = 0 ∧ st % 32 = 0 := moveFault_none (moveFault_of_ok h)

section
variable {body : Nat × Nat → State → State} {y : An} {d : Dn} {m w : Nat} {reads : Bool} (h : Fetches s t 2 u)
include h

/-- A move of many rows whose checks pass has its effect. -/
theorem move_issues (hi : exec i s = .next (s.unitInstr t 2 (fun s => let (a, st) := s.moveArgs t y d; (s.moveCheck t a st m w reads).andThen fun _ s => .ok (a, st) s) body))
    {a st : Nat} (ha : (getA (u.tile t) y).toNat = a) (hst : (getD (u.tile t) d).toNat = st) (hc : u.moveCheck t a st m w reads = .ok () v) :
    exec i s = .next (body (a, st) (v.issued t 2 (swS (s.tile t).sw))) := by
  subst ha hst
  refine hi.trans (congrArg _ (unitInstr_issues h ?_))
  unfold State.moveArgs
  dsimp only
  rw [hc]
  rfl

/-- A move of many rows that its checks refuse. -/
theorem move_faults (hi : exec i s = .next (s.unitInstr t 2 (fun s => let (a, st) := s.moveArgs t y d; (s.moveCheck t a st m w reads).andThen fun _ s => .ok (a, st) s) body)) {c f : Nat}
    (hf : u.moveFault t (getA (u.tile t) y).toNat (getD (u.tile t) d).toNat m w = some (c, f)) : Faults s u t i c f := by
  refine faults_unit h hi ?_
  unfold State.moveArgs
  dsimp only
  rw [moveCheck_fault hf]
  rfl

end

/-- A move of one row whose checks pass has its effect. -/
theorem move_row_issues {body : Nat → State → State} {y : An} {reads : Bool} (h : Fetches s t 2 u)
    (hi : exec i s = .next (s.unitInstr t 2 (fun s => let a := (getA (s.tile t) y).toNat; (s.moveCheck t a 0 1 32 reads).andThen fun _ s => .ok a s) body))
    (hc : u.moveCheck t (getA (u.tile t) y).toNat 0 1 32 reads = .ok () v) : exec i s = .next (body (getA (u.tile t) y).toNat (v.issued t 2 (swS (s.tile t).sw))) := by
  refine hi.trans (congrArg _ (unitInstr_issues h ?_))
  dsimp only
  rw [hc]
  rfl

/-! ### Rows and their word addresses (R208) -/

/-- Rows from `row` on, the one `q` on at word address `adr q`. -/
def rowsAt (row m : Nat) (adr : Nat → Nat) : List (Nat × Nat) := (List.range m).map fun q => (row + q, adr q)

/-- The word address of half-row `q` of a move of Zd. -/
def halfRowAt (a st q : Nat) : Nat := a + q / 2 * st + 32 * (q % 2)

theorem tPairs_eq (k a st : Nat) : tPairs k a st = rowsAt (32 * k) 32 fun q => a + q * st := rfl

theorem zPairs_eq (k a st : Nat) : zPairs k a st = rowsAt (256 + 64 * k) 64 (halfRowAt a st) := by
  have pieces := flatMap_pieces (fun q => (256 + 64 * k + q, halfRowAt a st q)) 32 2
  refine Eq.trans (List.flatMap_congr fun r _ => ?_) pieces
  have low : (2 * r + 0) / 2 = r ∧ (2 * r + 0) % 2 = 0 := by omega
  have high : (2 * r + 1) / 2 = r ∧ (2 * r + 1) % 2 = 1 := by omega
  rw [show List.range 2 = [0, 1] from rfl, List.map_cons, List.map_cons, List.map_nil, halfRowAt, halfRowAt, low.1, low.2, high.1, high.2]
  rfl

theorem halfRowAt_half (a st r : Nat) {h : Nat} (hh : h < 2) : halfRowAt a st (2 * r + h) = a + r * st + 32 * h := by
  have parts : (2 * r + h) / 2 = r ∧ (2 * r + h) % 2 = h := by omega
  rw [halfRowAt, parts.1, parts.2]

theorem rowsAt_one (row a : Nat) : rowsAt row 1 (fun _ => a) = [(row, a)] := rfl

theorem rowsAt_aligned {row m : Nat} {adr : Nat → Nat} (h : ∀ q, adr q % 32 = 0) : ∀ p ∈ rowsAt row m adr, p.2 % 32 = 0 := by
  intro p hp
  obtain ⟨q, -, rfl⟩ := List.mem_map.1 hp
  exact h q

theorem strided_aligned {a st : Nat} (h : a % 32 = 0 ∧ st % 32 = 0) (q : Nat) : (a + q * st) % 32 = 0 := by
  rw [Nat.add_mod, Nat.mul_mod, h.1, h.2, Nat.mul_zero]

theorem halfRowAt_aligned {a st : Nat} (h : a % 32 = 0 ∧ st % 32 = 0) (q : Nat) : halfRowAt a st q % 32 = 0 := by
  have row := strided_aligned h (q / 2)
  unfold halfRowAt
  omega

/-! ### Loads -/

/-- A load of consecutive rows that has passed its checks completes. -/
theorem load_completes {row m : Nat} {adr : Nat → Nat} (hi : exec i s = .next ((v.issued t 2 (swS (s.tile t).sw)).padLoad t (rowsAt row m adr))) (clean : XuClean (v.tile t).xu)
    (hs : ∀ g, v.syndAt g = 0) (aligned : ∀ q, adr q % 32 = 0) :
    ∃ n, UnitCompletes s v n t i 2 ∧ (∀ q, q < m → rowOf (n.tile t).xu (row + q) = leNat (v.bytesAt (scratchBase t + 2 * adr q) 64)) ∧ RowsKept (v.tile t).xu (n.tile t).xu row m := by
  have issued : ((v.issued t 2 (swS (s.tile t).sw)).tile t).xu = enqueueUnit (v.tile t).xu := State.xu_issued _ _ _ _
  obtain ⟨only, -, rows⟩ := State.padLoad_loads (s := v.issued t 2 (swS (s.tile t).sw)) (k := t) (by rw [issued]; exact clean) hs (rowsAt_aligned (row := row) (m := m) aligned)
  rw [issued] at rows
  generalize (v.issued t 2 (swS (s.tile t).sw)).padLoad t (rowsAt row m adr) = n at *
  have pairs : (rowsAt row m adr).map (loadPair t) = (List.range m).map fun q => (64 * (row + q), scratchBase t + 2 * adr q) := List.map_map
  rw [pairs] at rows
  refine ⟨n, unitCompletes_of hi only, fun q hq => congrArg leNat (List.map_congr_left fun j hj => ?_), fun j hj => ?_⟩
  · rw [rows, copied_range hq (List.mem_range.1 hj) fun r _ _ => by omega]
    rfl
  · rw [rows]
    refine copied_kept fun p hp => ?_
    obtain ⟨q, hq, rfl⟩ := List.mem_map.1 hp
    have := List.mem_range.1 hq
    omega

/-! ### Stores -/

/-- The store `i` completes from `v` in a state that meets `post`: no row changes, and no byte of memory but the 64 at each word address that `hit` names. -/
def StoreCompletes (s v : State) (t : TileId) (i : Instr) (hit : Nat → Prop) (post : State → Prop) : Prop := ∃ m, exec i s = .next m ∧ post m ∧ RowsKept (v.tile t).xu (m.tile t).xu 0 0 ∧
  (∀ b, (∀ w, hit w → b < scratchBase t + 2 * w ∨ scratchBase t + 2 * w + 64 ≤ b) → m.byteAt b = v.byteAt b) ∧ (∀ g, m.syndAt g = 0) ∧
  { m.tile t with xu := {} } = { retireAt (v.tile t) (swS (s.tile t).sw) ((v.tile t).pc + 2) with xu := {} } ∧ (∀ k, k ≠ t.val → m.tile k = v.tile k)

/-- The 64 bytes at word address `w` are those of row `row`. -/
def RowStored (v : State) (t : TileId) (m : State) (w row : Nat) : Prop := ∀ i, i < 64 → m.byteAt (scratchBase t + 2 * w + i) = Tbl.get 0 (v.tile t).xu.rows (64 * row + i)

/-- A store of consecutive rows that has passed its checks completes: a row stands at its address unless a later one has the same. -/
theorem store_completes {row m : Nat} {adr : Nat → Nat} {hit : Nat → Prop} {post : State → Prop} (hi : exec i s = .next ((v.issued t 2 (swS (s.tile t).sw)).padStore t (rowsAt row m adr)))
    (clean : XuClean (v.tile t).xu) (hs : ∀ g, v.syndAt g = 0) (aligned : ∀ q, adr q % 32 = 0) (hits : ∀ q, q < m → hit (adr q))
    (posts : ∀ n, (∀ q, q < m → (∀ r, q < r → r < m → adr r ≠ adr q) → RowStored v t n (adr q) (row + q)) → post n) : StoreCompletes s v t i hit post := by
  have issued : ((v.issued t 2 (swS (s.tile t).sw)).tile t).xu = enqueueUnit (v.tile t).xu := State.xu_issued _ _ _ _
  obtain ⟨w, ⟨tiles, synd, bytes⟩, reads⟩ := State.padStore_stores (s := v.issued t 2 (swS (s.tile t).sw)) (k := t) (by rw [issued]; exact clean) hs (rowsAt_aligned (row := row) (m := m) aligned)
  rw [issued] at bytes
  generalize (v.issued t 2 (swS (s.tile t).sw)).padStore t (rowsAt row m adr) = n at *
  have pairs : (rowsAt row m adr).map (storePair t) = (List.range m).map fun q => (scratchBase t + 2 * adr q, 64 * (row + q)) := List.map_map
  rw [pairs] at bytes
  have tile (k : Nat) : w.tile k = (v.issued t 2 (swS (s.tile t).sw)).tile k := congrArg (Tbl.get _ · k) tiles
  have memory (b : Nat) : n.byteAt b = w.byteAt b := congrArg (Tbl.get 0 · b) reads.only.mem
  have rows : (n.tile t).xu.rows = (v.tile t).xu.rows := by
    rw [show (n.tile t).xu.rows = (w.tile t).xu.rows from (congrArg UnitView.rows reads.view :), tile, issued]
    rfl
  refine ⟨n, hi, posts n fun q hq later j hj => ?_, fun j _ => congrArg (Tbl.get 0 · j) rows, fun b hb => ?_, fun g => ?_, ?_, fun k hk => ?_⟩
  · rw [memory, bytes, copied_range hq hj fun r hr hr' => ?_]
    · rfl
    · have apart := later r hr hr'
      have := aligned q
      have := aligned r
      omega
  · rw [memory, bytes]
    refine copied_kept fun p hp => ?_
    obtain ⟨q, hq, rfl⟩ := List.mem_map.1 hp
    exact hb _ (hits q (List.mem_range.1 hq))
  · exact (congrArg (Tbl.get 0 · g) reads.only.synd).trans (synd g)
  · rw [reads.only.core, tile, State.issued, State.tile_modTile, retireAt_xu]
    rfl
  · rw [reads.only.others k hk, tile, State.issued, State.tile_modTile_ne _ _ hk]

/-- At a stride, a row keeps its bytes: no later row has its address. -/
theorem strided_later {a st q r : Nat} (hst : st ≠ 0) (h : q < r) : a + r * st ≠ a + q * st := by
  have less := Nat.mul_lt_mul_of_pos_right h (Nat.pos_of_ne_zero hst)
  omega

/-- At a stride of 64 words or more, a half-row keeps its bytes. -/
theorem halfRowAt_later {a st q r : Nat} (hst : 64 ≤ st) (h : q < r) : halfRowAt a st r ≠ halfRowAt a st q := by
  unfold halfRowAt
  obtain same | less := (Nat.div_le_div_right (c := 2) h.le).eq_or_lt
  · rw [same]
    omega
  · have far := Nat.mul_le_mul_right st (Nat.succ_le_of_lt less)
    rw [Nat.succ_mul] at far
    omega

/-! ### Copies and clears within the tile registers -/

/-- A copy of one row completes. -/
theorem rowCopy_completes {src dst : Xu → Nat} (h : Fetches s t 2 u) (hi : exec i s = .next (s.unitInstr t 2 (fun s => .ok () s) fun _ s => s.rowCopy t (src (s.tile t).xu) (dst (s.tile t).xu)))
    (clean : XuClean (u.tile t).xu) : let x := enqueueUnit (u.tile t).xu
    ∃ n, UnitCompletes s u n t i 2 ∧ rowOf (n.tile t).xu (dst x) = rowOf (u.tile t).xu (src x) ∧ RowsKept (u.tile t).xu (n.tile t).xu (dst x) 1 := by
  intro x
  have issued : ((u.issued t 2 (swS (s.tile t).sw)).tile t).xu = x := State.xu_issued _ _ _ _
  have run := hi.trans (congrArg _ (unitInstr_issues h rfl))
  rw [issued] at run
  obtain ⟨only, rows, -, -⟩ := State.rowCopy_writes (s := u.issued t 2 (swS (s.tile t).sw)) (k := t) (by rw [issued]; exact clean) (src x) (dst x)
  rw [issued] at rows
  generalize (u.issued t 2 (swS (s.tile t).sw)).rowCopy t (src x) (dst x) = n at *
  simp only [rowBytes, List.length_map, List.length_range] at rows
  refine ⟨n, unitCompletes_of run only, rowOf_congr fun j hj => ?_, fun j hj => (rows j).trans (if_neg (by omega))⟩
  rw [rows, if_pos (by omega), Nat.add_sub_cancel_left, List.getD_eq_getElem _ _ (by simpa using hj)]
  simp [x, enqueueUnit]

theorem zeros_getD (m j : Nat) : (zeros m).getD j 0 = 0 := by
  unfold zeros
  rw [List.getD_eq_getElem?_getD, List.getElem?_replicate]
  split <;> rfl

/-- Rows cleared one after the other. -/
theorem clearRows (s : State) (k row m : Nat) : UnitOnly k s (forN m (fun q s => s.putRow k (row + q) (zeros 64)) s) ∧
    ∀ j, Tbl.get 0 ((forN m (fun q s => s.putRow k (row + q) (zeros 64)) s).tile k).xu.rows j = if 64 * row ≤ j ∧ j < 64 * (row + m) then 0 else Tbl.get 0 (s.tile k).xu.rows j := by
  refine forN_carries (P := fun q n => UnitOnly k s n ∧ ∀ j, Tbl.get 0 (n.tile k).xu.rows j = if 64 * row ≤ j ∧ j < 64 * (row + q) then 0 else Tbl.get 0 (s.tile k).xu.rows j)
    (fun q n ⟨only, rows⟩ => ?_) ⟨.refl k s, fun j => (if_neg (by omega)).symm⟩ m
  obtain ⟨only', rows', -, -⟩ := n.putRow_writes k (row + q) (zeros 64)
  refine ⟨only.trans only', fun j => ?_⟩
  rw [rows', rows, zeros_getD, show (zeros 64).length = 64 from List.length_replicate]
  by_cases here : 64 * (row + q) ≤ j ∧ j < 64 * (row + q) + 64
  · rw [if_pos here, if_pos (by omega)]
  · rw [if_neg here]
    exact if_congr (by omega) rfl rfl

theorem rowOf_zero {x : Xu} {row : Nat} (h : ∀ i, i < 64 → Tbl.get 0 x.rows (64 * row + i) = 0) : rowOf x row = 0 := by
  refine Nat.eq_of_testBit_eq fun i => ?_
  rw [testBit_rowOf, Nat.zero_testBit]
  by_cases hi : i < 512
  · rw [h _ (by omega)]
    exact (congrArg _ BitVec.getLsbD_zero).trans (Bool.and_false _)
  · rw [decide_eq_false hi, Bool.false_and]

/-- The effect of a clear of `m` rows. -/
def State.clears (s : State) (t row m : Nat) : State := (forN m (fun q s => s.putRow t (row + q) (zeros 64)) s).unitCycles t 0

theorem zclr_completes (h : Fetches s t 1 u) (d : Fin 4) : ∃ n, UnitCompletes s u n t (.zclr t d) 1 ∧ (∀ r, r < 64 → rowOf (n.tile t).xu (256 + 64 * d.val + r) = 0) ∧
    RowsKept (u.tile t).xu (n.tile t).xu (256 + 64 * d.val) 64 := by
  have effect : exec (.zclr t d) s = .next (s.unitInstr t 1 (fun s => .ok () s) fun _ s => s.clears t (256 + 64 * d.val) 64) := rfl
  have run := effect.trans (congrArg _ (unitInstr_issues h rfl))
  obtain ⟨only, rows⟩ := clearRows (u.issued t 1 (swS (s.tile t).sw)) t (256 + 64 * d.val) 64
  rw [State.clears] at run
  rw [State.xu_issued] at rows
  generalize forN 64 (fun q s => s.putRow t (256 + 64 * d.val + q) (zeros 64)) (u.issued t 1 (swS (s.tile t).sw)) = w at *
  have reads : Reads t w (w.unitCycles t 0) := .unitCycles w t 0
  have same : ((w.unitCycles t 0).tile t).xu.rows = (w.tile t).xu.rows := (congrArg UnitView.rows reads.view :)
  generalize w.unitCycles t 0 = n at *
  rw [← same] at rows
  exact ⟨n, unitCompletes_of run (only.trans reads.only), fun r hr => rowOf_zero fun j hj => (rows _).trans (if_pos (by omega)), fun j hj => (rows j).trans (if_neg (by omega))⟩

/-! ### Moves of whole registers -/

section
variable (h : Fetches s t 2 u) {y : An} {d : Dn} {a st : Nat} (ha : (getA (u.tile t) y).toNat = a) (hst : (getD (u.tile t) d).toNat = st) (clean : XuClean (v.tile t).xu) (hs : ∀ g, v.syndAt g = 0)
include h ha hst clean hs

theorem tld_completes (hc : u.moveCheck t a st 32 32 true = .ok () v) (k : Fin 8) : ∃ n, UnitCompletes s v n t (.tld t k y d) 2 ∧
    (∀ r, r < 32 → rowOf (n.tile t).xu (32 * k.val + r) = leNat (v.bytesAt (scratchBase t + 2 * (a + r * st)) 64)) ∧ RowsKept (v.tile t).xu (n.tile t).xu (32 * k.val) 32 := by
  have run := move_issues (i := .tld t k y d) h rfl ha hst hc
  rw [tPairs_eq] at run
  exact load_completes run clean hs (strided_aligned (moveCheck_aligned hc))

theorem zld_completes (hc : u.moveCheck t a st 32 64 true = .ok () v) (k : Fin 4) : ∃ n, UnitCompletes s v n t (.zld t k y d) 2 ∧
    (∀ r h, r < 32 → h < 2 → rowOf (n.tile t).xu (256 + 64 * k.val + 2 * r + h) = leNat (v.bytesAt (scratchBase t + 2 * (a + r * st + 32 * h)) 64)) ∧
    RowsKept (v.tile t).xu (n.tile t).xu (256 + 64 * k.val) 64 := by
  have run := move_issues (i := .zld t k y d) h rfl ha hst hc
  rw [zPairs_eq] at run
  obtain ⟨n, completes, rows, kept⟩ := load_completes run clean hs (halfRowAt_aligned (moveCheck_aligned hc))
  refine ⟨n, completes, fun r half hr hh => ?_, kept⟩
  rw [Nat.add_assoc (256 + 64 * k.val), rows _ (by omega), halfRowAt_half _ _ _ hh]

theorem tst_completes (hc : u.moveCheck t a st 32 32 false = .ok () v) (k : Fin 8) : StoreCompletes s v t (.tst t k y d) (fun w => ∃ r, r < 32 ∧ w = a + r * st) fun m =>
    (st ≠ 0 → ∀ r, r < 32 → RowStored v t m (a + r * st) (32 * k.val + r)) ∧ (st = 0 → RowStored v t m a (32 * k.val + 31)) := by
  have run := move_issues (i := .tst t k y d) h rfl ha hst hc
  rw [tPairs_eq] at run
  refine store_completes run clean hs (strided_aligned (moveCheck_aligned hc)) (fun q hq => ⟨q, hq, rfl⟩) fun n stored => ⟨fun hne r hr => ?_, fun hz => ?_⟩
  · exact stored r hr fun _ later _ => strided_later hne later
  · have last := stored 31 (by omega) fun _ _ _ => by omega
    rwa [hz, Nat.mul_zero, Nat.add_zero] at last

theorem zst_completes (hc : u.moveCheck t a st 32 64 false = .ok () v) (k : Fin 4) : StoreCompletes s v t (.zst t k y d) (fun w => ∃ r h, r < 32 ∧ h < 2 ∧ w = a + r * st + 32 * h) fun m =>
    (64 ≤ st → ∀ r h, r < 32 → h < 2 → RowStored v t m (a + r * st + 32 * h) (256 + 64 * k.val + 2 * r + h)) ∧
    (st = 32 → (∀ r, r < 32 → RowStored v t m (a + 32 * r) (256 + 64 * k.val + 2 * r)) ∧ RowStored v t m (a + 1024) (256 + 64 * k.val + 63)) ∧
    (st = 0 → RowStored v t m a (256 + 64 * k.val + 62) ∧ RowStored v t m (a + 32) (256 + 64 * k.val + 63)) := by
  have run := move_issues (i := .zst t k y d) h rfl ha hst hc
  rw [zPairs_eq] at run
  refine store_completes run clean hs (halfRowAt_aligned (moveCheck_aligned hc)) (fun q hq => ⟨q / 2, q % 2, by omega, by omega, rfl⟩) fun n stored => ⟨fun wide r half hr hh => ?_, fun close => ?_, fun still => ?_⟩
  · have row := stored (2 * r + half) (by omega) fun _ later _ => halfRowAt_later wide later
    rwa [halfRowAt_half _ _ _ hh, ← Nat.add_assoc (256 + 64 * k.val)] at row
  · rw [close] at stored
    refine ⟨fun r hr => ?_, stored 63 (by omega) fun _ _ _ => by omega⟩
    have row := stored (2 * r) (by omega) fun q later _ => by unfold halfRowAt; omega
    rwa [show halfRowAt a 32 (2 * r) = a + 32 * r by unfold halfRowAt; omega] at row
  · rw [still] at stored
    exact ⟨stored 62 (by omega) fun q later _ => by unfold halfRowAt; omega, stored 63 (by omega) fun _ _ _ => by omega⟩

end

/-! ### Moves of one row -/

theorem moveRow_issued (v : State) (t w : Nat) (sup ix : Bool) (row : Nat) : moveRow ((v.issued t w sup).tile t).xu ix row = moveRow (v.tile t).xu ix row := by
  rw [State.xu_issued]
  rfl

section
variable (h : Fetches s t 2 u) {y : An} {a : Nat} (ha : (getA (u.tile t) y).toNat = a) (clean : XuClean (v.tile t).xu) (hs : ∀ g, v.syndAt g = 0) (row : Fin 512) (ix : Bool)
include h ha clean hs

theorem rld_completes (hc : u.moveCheck t a 0 1 32 true = .ok () v) : let r := moveRow (v.tile t).xu ix row
    ∃ n, UnitCompletes s v n t (.rld t row ix y) 2 ∧ rowOf (n.tile t).xu r = leNat (v.bytesAt (scratchBase t + 2 * a) 64) ∧ RowsKept (v.tile t).xu (n.tile t).xu r 1 := by
  intro r
  subst ha
  have run := move_row_issues (i := .rld t row ix y) h rfl hc
  rw [moveRow_issued, ← rowsAt_one] at run
  obtain ⟨n, completes, rows, kept⟩ := load_completes run clean hs fun _ => (moveCheck_aligned hc).1
  exact ⟨n, completes, rows 0 Nat.one_pos, kept⟩

theorem rst_completes (hc : u.moveCheck t a 0 1 32 false = .ok () v) : StoreCompletes s v t (.rst t row ix y) (fun w => w = a) fun m => RowStored v t m a (moveRow (v.tile t).xu ix row) := by
  subst ha
  have run := move_row_issues (i := .rst t row ix y) h rfl hc
  rw [moveRow_issued, ← rowsAt_one] at run
  exact store_completes run clean hs (fun _ => (moveCheck_aligned hc).1) (fun _ _ => rfl) fun n stored => stored 0 Nat.one_pos fun _ _ _ => by omega

end

/-- Settles O20, from the rules for copies, loads and stores of rows. -/
theorem tileRegisterMovesCopyRows : Obligations.TileRegisterMovesCopyRows := by
  intro s u v t
  refine ⟨fun clean => ⟨fun h z => ⟨?_, ?_⟩, fun h => ⟨retires_reg_eq h rfl rfl, zclr_completes h⟩⟩, fun h y d => ⟨fun clean hs => ?_, fun c w hf k => ?_⟩⟩
  · exact rowCopy_completes (src := fun _ => zRow z.d z.zrow z.half) (dst := fun x => zmoveT x z) h rfl clean
  · exact rowCopy_completes (src := fun x => zmoveT x z) (dst := fun _ => zRow z.d z.zrow z.half) h rfl clean
  · exact ⟨tld_completes h rfl rfl clean hs, zld_completes h rfl rfl clean hs, fun hc row ix => rld_completes h rfl clean hs row ix hc,
      tst_completes h rfl rfl clean hs, zst_completes h rfl rfl clean hs, fun hc row ix => rst_completes h rfl clean hs row ix hc⟩
  · exact ⟨move_faults (i := .tld t k y d) h rfl hf, move_faults (i := .tst t k y d) h rfl hf⟩

end Sys2Proof.Machine
end

section
/-! O59, O60. One relation between the states before and after: memory stays canonical, and each log within its bound. Every function of the model that answers a state keeps it, and the lemmas that say so follow the model's files in their order. -/

namespace Sys2Proof.Machine

/-- From `s` to `n` memory stays canonical, and the logs stay within their bounds: each where it was so in `s`. -/
structure Keeps (s n : State) : Prop where
  memory : CanonicalMemory s → CanonicalMemory n
  logs : LogsBounded s → LogsBounded n

/-- `Keeps` for every state in which an access may leave the machine. -/
def KeepsMem {α : Type} (s : State) : Mem α → Prop
  | .ok _ u | .fault _ _ u => Keeps s u
  | .stall => True

/-- `Keeps` for the state that a command's effect leaves. -/
def KeepsEff (s : State) : Eff → Prop
  | .done _ _ u | .wait u => Keeps s u

/-- `Keeps` for the next state of a command. -/
def KeepsNext (s : State) (o : Host.Outcome State Fault Refusal) : Prop := ∀ n, o = .next n → Keeps s n

/-- A log that keeps its last `n` entries holds no more. -/
theorem length_lastN_le {α : Type} (n : Nat) (l : List α) : (lastN n l).length ≤ n := by
  unfold lastN; rw [List.length_drop]; omega

section
variable {s t u : State} {α : Type}

theorem Keeps.refl (s : State) : Keeps s s := ⟨id, id⟩

/-- Whatever is changed beside memory and its syndromes, where each log and list that has a bound stays within it. -/
theorem Keeps.upd {pending out free clk dev cue tal tiles quires reb sdma wins ports fab integ rooms plans irq fns pcie ent bil led vault glz pow} (h : Keeps s t)
    (errors : t.reb.errLog.length ≤ 256 → reb.errLog.length ≤ 256 := by exact fun b => b) (marks : t.reb.markLog.length ≤ 1024 → reb.markLog.length ≤ 1024 := by exact fun b => b)
    (integrity : t.integ.log.length ≤ 256 → integ.log.length ≤ 256 := by exact fun b => b) (refusals : t.pow.refusals.length ≤ 64 → pow.refusals.length ≤ 64 := by exact fun b => b)
    (boots : t.pow.bootLog.length ≤ 16 → pow.bootLog.length ≤ 16 := by exact fun b => b) (deferred : t.led.deferred.length ≤ 1024 → led.deferred.length ≤ 1024 := by exact fun b => b)
    (sessions : t.bil.sessions.length ≤ 64 → bil.sessions.length ≤ 64 := by exact fun b => b) :
    Keeps s ⟨pending, out, free, clk, dev, cue, tal, tiles, quires, t.mem, t.synd, reb, sdma, wins, ports, fab, integ, rooms, plans, irq, fns, pcie, ent, bil, led, vault, glz, pow⟩ where
  memory a := h.memory a
  logs a := by
    obtain ⟨h1, h2, h3, h4, h5, h6, h7⟩ := h.logs a
    exact ⟨errors h1, marks h2, integrity h3, refusals h4, boots h5, deferred h6, sessions h7⟩

/-- Memory and its syndromes change and stay canonical. -/
theorem Keeps.updMem {mem synd} (h : Keeps s t) (hm : CanonicalMemory t → CanonicalMemory { t with mem := mem, synd := synd }) : Keeps s { t with mem := mem, synd := synd } where
  memory a := hm (h.memory a)
  logs a := by
    obtain ⟨h1, h2, h3, h4, h5, h6, h7⟩ := h.logs a
    exact ⟨h1, h2, h3, h4, h5, h6, h7⟩

theorem Keeps.ite {c : Prop} {_ : Decidable c} (h : Keeps s t) (k : Keeps s u) : Keeps s (if c then t else u) := by split <;> assumption

theorem Keeps.iteSnd {c : Prop} {_ : Decidable c} {p q : α × State} (h : Keeps s p.2) (k : Keeps s q.2) : Keeps s (if c then p else q).2 := by split <;> assumption

/-- The state of a pair. -/
theorem Keeps.pair {a : α} (h : Keeps s u) : Keeps s (a, u).2 := h

/-- The state of a unit instruction in progress. -/
theorem Keeps.run {bad} (h : Keeps s t) : Keeps s (Run1.s ⟨t, bad⟩) := h

theorem Keeps.snd {p : α × State} {a : α} (h : Keeps s p.2) (e : p = (a, u)) : Keeps s u := by subst e; exact h

theorem Keeps.snd₂ {β : Type} {p : α × β × State} {a : α} {b : β} (h : Keeps s p.2.2) (e : p = (a, b, u)) : Keeps s u := by subst e; exact h

theorem Keeps.foldl {β : Type} {f : β → α → β} {l : List α} {b : β} (g : β → State) (h : Keeps s (g b)) (hf : ∀ b a, Keeps s (g b) → Keeps s (g (f b a))) :
    Keeps s (g (l.foldl f b)) := foldl_keeps (fun b => Keeps s (g b)) hf l b h

theorem Keeps.forL {f : α → State → State} {l : List α} (h : Keeps s t) (hf : ∀ a u, Keeps s u → Keeps s (f a u)) : Keeps s (forL l f t) :=
  h.foldl id fun b a => hf a b

theorem Keeps.forN {f : Nat → State → State} {n : Nat} (h : Keeps s t) (hf : ∀ i u, Keeps s u → Keeps s (f i u)) : Keeps s (forN n f t) :=
  h.foldl id fun b a => hf a b

theorem KeepsMem.ite {c : Prop} {_ : Decidable c} {p q : Mem α} (h : KeepsMem s p) (k : KeepsMem s q) : KeepsMem s (if c then p else q) := by split <;> assumption

theorem KeepsMem.ok {p : Mem α} {a : α} (h : KeepsMem s p) (e : p = .ok a u) : Keeps s u := by subst e; exact h

theorem KeepsMem.fault {p : Mem α} {c a : Nat} (h : KeepsMem s p) (e : p = .fault c a u) : Keeps s u := by subst e; exact h

theorem KeepsMem.andThen {β : Type} {m : Mem α} {f : α → State → Mem β} (h : KeepsMem s m) (hf : ∀ a u, Keeps s u → KeepsMem s (f a u)) : KeepsMem s (m.andThen f) := by
  cases m with
  | ok a u => exact hf a u h
  | fault c a u => exact h
  | stall => trivial

theorem KeepsEff.ite {c : Prop} {_ : Decidable c} {p q : Eff} (h : KeepsEff s p) (k : KeepsEff s q) : KeepsEff s (if c then p else q) := by split <;> assumption

theorem KeepsEff.done {p : Eff} {c : Nat} {l : List Byte} (h : KeepsEff s p) (e : p = .done c l u) : Keeps s u := by subst e; exact h

theorem KeepsEff.wait {p : Eff} (h : KeepsEff s p) (e : p = .wait u) : Keeps s u := by subst e; exact h

theorem KeepsNext.next (h : Keeps s u) : KeepsNext s (.next u) := by rintro n ⟨⟩; exact h

end

end Sys2Proof.Machine
end

section
/-! What the operations on the state, the interrupt router, the Ledger, memory and the quire caches keep (R245 to R283, R353 to R372, R392 to R397, R466 to R479). -/

namespace Sys2Proof.Machine

set_option Elab.async false

section
variable {s t u : State} {α : Type}

/-! ### The parts of the state -/

theorem Keeps.setTile {t' x} (h : Keeps s t) : Keeps s (t.setTile t' x) := h.upd

theorem Keeps.modTile {t' f} (h : Keeps s t) : Keeps s (t.modTile t' f) := h.setTile

theorem Keeps.setQuire {q x} (h : Keeps s t) : Keeps s (t.setQuire q x) := h.upd

theorem Keeps.modQuire {q f} (h : Keeps s t) : Keeps s (t.modQuire q f) := h.setQuire

theorem Keeps.setRoom {r x} (h : Keeps s t) : Keeps s (t.setRoom r x) := h.upd

theorem Keeps.modRoom {r f} (h : Keeps s t) : Keeps s (t.modRoom r f) := h.setRoom

theorem Keeps.setFn {f x} (h : Keeps s t) : Keeps s (t.setFn f x) := h.upd

theorem Keeps.modFn {f g} (h : Keeps s t) : Keeps s (t.modFn f g) := h.setFn

theorem Keeps.setPort {p x} (h : Keeps s t) : Keeps s (t.setPort p x) := h.upd

theorem Keeps.modPort {p f} (h : Keeps s t) : Keeps s (t.modPort p f) := h.setPort

theorem Keeps.setChan {c x} (h : Keeps s t) : Keeps s (t.setChan c x) := by
  unfold State.setChan
  split
  · exact h.upd
  · exact h.modQuire

theorem Keeps.modChan {c f} (h : Keeps s t) : Keeps s (t.modChan c f) := h.setChan

theorem Keeps.setCue {c x} (h : Keeps s t) : Keeps s (t.setCue c x) := by
  unfold State.setCue
  split
  · exact h.upd
  · exact h.modQuire

theorem Keeps.emit {o} (h : Keeps s t) : Keeps s (t.emit o) := h.upd

theorem Keeps.spend (h : Keeps s t) : Keeps s t.spend := h.upd

theorem Keeps.leaveIdle (h : Keeps s t) : Keeps s t.leaveIdle := .ite h.upd h

theorem Keeps.activity {b quire} (h : Keeps s t) : Keeps s (t.activity b quire) := by
  unfold State.activity
  split
  · exact .ite h.upd h
  · exact h

/-! ### Settings -/

theorem Keeps.setCfg {idx sub v} (h : Keeps s t) : Keeps s (t.setCfg idx sub v) := h.upd

/-! ### Interrupts -/

theorem Keeps.setIrVec {owner v x} (h : Keeps s t) : Keeps s (t.setIrVec owner v x) := h.upd

theorem Keeps.vecEvent {owner v} (h : Keeps s t) : Keeps s (t.vecEvent owner v) := .ite h.setIrVec h

theorem Keeps.srcEvent {n} (h : Keeps s t) : Keeps s (t.srcEvent n) := .ite h h.vecEvent

theorem Keeps.srcRose {v n} (h : Keeps s t) : Keeps s (State.srcRose v t n) := .ite h.srcEvent h

theorem Keeps.srcWritten {n} (h : Keeps s t) : Keeps s (t.srcWritten n) := .ite h.srcEvent h

theorem Keeps.settle {v} (h : Keeps s t) : Keeps s (Machine.settle v t) := h.forL fun _ _ k => .ite k.srcEvent k

theorem Keeps.raiseRoom {r m} (h : Keeps s t) : Keeps s (t.raiseRoom r m) := h.modRoom.srcRose

theorem Keeps.raisePos {m} (h : Keeps s t) : Keeps s (t.raisePos m) := h.upd.srcRose

theorem Keeps.raisePort {p m} (h : Keeps s t) : Keeps s (t.raisePort p m) := h.modPort.srcRose

theorem Keeps.raiseMem {q m} (h : Keeps s t) : Keeps s (t.raiseMem q m) := h.modQuire.srcRose

theorem Keeps.raiseHost {f m} (h : Keeps s t) : Keeps s (t.raiseHost f m) := h.modFn.srcRose

theorem Keeps.hostErrRec {f bar off code} (h : Keeps s t) : Keeps s (t.hostErrRec f bar off code) := h.modFn.raiseHost

theorem Keeps.raiseTally {r m} (h : Keeps s t) : Keeps s (t.raiseTally r m) := h.modRoom.srcRose

theorem Keeps.modChanEvt {c f} (h : Keeps s t) : Keeps s (t.modChanEvt c f) := h.modChan.srcRose

theorem Keeps.raiseCue {c m} (h : Keeps s t) : Keeps s (t.raiseCue c m) := by
  unfold State.raiseCue
  split
  · exact h.modQuire.srcRose
  · split
    · exact h.modRoom.srcRose
    · exact h.upd.srcRose

theorem Keeps.sendMsix {f entry} (h : Keeps s t) : Keeps s (t.sendMsix f entry) := .ite h.setFn h.emit

theorem Keeps.deliver {owner v k'} (h : Keeps s t) : Keeps s (t.deliver owner v k') := by
  unfold State.deliver
  dsimp only
  split
  · exact h.setIrVec.modFn.sendMsix
  · exact h.setIrVec.modTile
  · exact h.setIrVec.emit
  · exact h.setIrVec

theorem KeepsNext.vectorDelivery {owner v} (h : Keeps s t) : KeepsNext s (execVectorDelivery owner v t) := by
  unfold execVectorDelivery
  refine .next (.ite ?_ h)
  split
  · exact h.deliver
  · exact h

/-! ### The Ledger -/

theorem Keeps.modLed {f} (h : Keeps s t) (hf : t.led.deferred.length ≤ 1024 → (f t.led).deferred.length ≤ 1024 := by exact fun b => b) : Keeps s (t.modLed f) :=
  (h.upd (deferred := hf)).srcRose

/-- An event waits only where fewer than 1,024 wait (R479). -/
theorem Keeps.event {code v} (h : Keeps s t) : Keeps s (t.event code v) := h.modLed fun b => by
  split
  · exact b
  · split
    · rw [List.length_append]; simp only [List.length_cons, List.length_nil]; omega
    · exact b

theorem KeepsNext.eventDeferredRecord (h : Keeps s t) : KeepsNext s (execEventDeferredRecord t) := .next <| h.modLed fun b => by
  cases hd : t.led.deferred with
  | nil => exact b
  | cons e rest =>
    rw [hd, List.length_cons] at b
    dsimp only
    split
    · exact Nat.le_of_succ_le b
    · rw [hd]; exact b

/-! ### Device memory -/

theorem Keeps.errLogAdd {q v} (h : Keeps s t) : Keeps s (t.errLogAdd q v) := h.upd (errors := fun _ => by apply length_lastN_le)

theorem Keeps.memLog {q v evt} (h : Keeps s t) : Keeps s (t.memLog q v evt) := h.modQuire.errLogAdd.raiseMem

/-- Dropping a stripe leaves the logs alone. -/
theorem dropStripe_logs (r : Rebind) (t' b : Nat) : (dropStripe r t' b).errLog = r.errLog ∧ (dropStripe r t' b).markLog = r.markLog :=
  foldl_keeps (fun x : Rebind => x.errLog = r.errLog ∧ x.markLog = r.markLog) (fun x c hx => by dsimp only; split <;> exact hx) _ r ⟨rfl, rfl⟩

/-- A mark that takes effect leaves the logs alone. -/
theorem applyMark_logs (r : Rebind) (m : Mark) : (applyMark r m).errLog = r.errLog ∧ (applyMark r m).markLog = r.markLog := by
  unfold applyMark
  dsimp only
  split
  · exact ⟨rfl, rfl⟩
  · split
    · exact ⟨rfl, rfl⟩
    · split
      · exact ⟨rfl, rfl⟩
      · split <;> exact dropStripe_logs ..

theorem Keeps.applyMarks {q} (h : Keeps s t) : Keeps s (t.applyMarks q) := by
  have e : ∀ l : List Mark, (l.foldl applyMark t.reb).errLog = t.reb.errLog ∧ (l.foldl applyMark t.reb).markLog = t.reb.markLog := fun l =>
    foldl_keeps (fun x : Rebind => x.errLog = t.reb.errLog ∧ x.markLog = t.reb.markLog) (fun x m hx => ⟨(applyMark_logs x m).1.trans hx.1, (applyMark_logs x m).2.trans hx.2⟩) l _ ⟨rfl, rfl⟩
  exact h.upd (errors := fun b => (e _).1 ▸ b) (marks := fun b => (e _).2 ▸ b)

theorem Keeps.markRow {t' b row cause gran y} (h : Keeps s t) : Keeps s (t.markRow t' b row cause gran y) :=
  .ite h (h.upd (marks := fun _ => by apply length_lastN_le)).memLog.event

theorem Keeps.scratchError {t' off y ue} (h : Keeps s t) : Keeps s (t.scratchError t' off y ue) :=
  .ite h.memLog.upd.markRow (.ite h.memLog.upd.markRow h.memLog.upd)

theorem Keeps.qscratchError {q off y ue} (h : Keeps s t) : Keeps s (t.qscratchError q off y ue) := .ite h.memLog.upd h.memLog.upd

theorem Keeps.memError {a y ue} (h : Keeps s t) : Keeps s (t.memError a y ue) := by
  unfold State.memError
  split
  · exact h.scratchError
  · exact h.qscratchError
  · exact .ite h.upd h.upd

theorem Keeps.putByte {a v} (h : Keeps s t) : Keeps s (t.putByte a v) := h.updMem fun c => c.putByte a v

theorem Keeps.putBytes {a l} (h : Keeps s t) : Keeps s (t.putBytes a l) := by
  induction l generalizing t a with
  | nil => exact h
  | cons b l ih => exact ih h.putByte

theorem Keeps.setSynd {g y} (h : Keeps s t) : Keeps s (t.setSynd g y) := h.updMem fun c => c.setSynd g y

theorem Keeps.readGran {g} (h : Keeps s t) : Keeps s (t.readGran g).2 := by
  unfold State.readGran
  dsimp only
  split
  · exact .pair h
  · exact .pair h.setSynd.memError
  · exact .pair h.putBytes.setSynd.memError
  · exact .pair h.memError

theorem Keeps.writeGran {g o bs} (h : Keeps s t) : Keeps s (t.writeGran g o bs).2 := by
  unfold State.writeGran
  refine .iteSnd (.pair h.putBytes.setSynd) ?_
  split
  · rename_i e
    exact .pair (h.readGran.snd e)
  · rename_i e
    exact .pair (h.readGran.snd e).putBytes.setSynd

theorem Keeps.writeMem {a bs} (h : Keeps s t) : Keeps s (t.writeMem a bs).2 := h.foldl Prod.snd fun _ _ k => k.writeGran

theorem Keeps.sweep {l} (h : Keeps s t) : Keeps s (t.sweep l) := h.foldl id fun _ _ k => k.readGran

theorem Keeps.readMem {a n} (h : Keeps s t) : Keeps s (t.readMem a n).2 := h.foldl Prod.snd fun _ _ k => k.readGran

theorem Keeps.clearMem {lo hi} (h : Keeps s t) : Keeps s (t.clearMem lo hi) := h.updMem fun c => c.clearMem lo hi

theorem Keeps.xrGran {t' g} (h : Keeps s t) : Keeps s (t.xrGran t' g).2 := by
  unfold State.xrGran
  dsimp only
  split
  · exact .pair h
  · exact .pair (.ite h.modTile.memLog.upd h.modTile.memLog.upd)
  · exact .pair (.ite h.modTile.memLog.upd h.modTile.memLog.upd)
  · exact .pair (.ite h.memLog.upd h.memLog.upd)

theorem Keeps.putXr {t' off bs} (h : Keeps s t) : Keeps s (t.putXr t' off bs) := h.modTile

/-! ### The data mesh -/

theorem Keeps.carry {r : Run1} {t' g} (h : Keeps s r.s) : Keeps s (Machine.Run1.carry r t' g).2.s := by
  unfold Machine.Run1.carry
  split
  · rename_i e
    exact h.xrGran.snd e
  · rename_i e
    exact h.xrGran.snd e

theorem Keeps.meshRun (h : Keeps s t) : Keeps s t.meshRun := h.spend.forL fun _ _ k => k.modChan

theorem Keeps.meshDrop {a} (h : Keeps s t) : Keeps s (t.meshDrop a) := by
  unfold State.meshDrop
  split
  · exact h.upd
  · exact h.modChan

theorem Keeps.meshDropFree (h : Keeps s t) : Keeps s t.meshDropFree := by
  unfold State.meshDropFree
  dsimp only
  split
  · exact h.spend.meshDrop
  · exact h.spend

/-! ### Quire caches -/

theorem Keeps.wbForget {q line} (h : Keeps s t) : Keeps s (t.wbForget q line) := h.forL fun _ _ k => .ite k.modTile k

theorem Keeps.writeBack {q line} (h : Keeps s t) : Keeps s (t.writeBack q line) := by
  unfold State.writeBack
  split
  · exact h
  · exact .ite ((h.forN (fun _ _ k => k.putByte)).forN (fun _ _ k => k.setSynd)).modQuire.wbForget h

theorem Keeps.evict {q line} (h : Keeps s t) : Keeps s (t.evict q line) := h.writeBack.modQuire

theorem Keeps.makeRoom {q line} (h : Keeps s t) : Keeps s (t.makeRoom q line).2 := by
  unfold State.makeRoom
  dsimp only
  split
  · exact .pair h
  · split
    · exact .pair h.evict
    · exact .pair h

theorem Keeps.installLine {q line data dirty prefetch} (h : Keeps s t) : Keeps s (t.installLine q line data dirty prefetch) := by
  unfold State.installLine
  refine .modQuire ?_
  split
  · exact .pair h
  · split
    · exact .pair h.evict
    · exact .pair h

theorem Keeps.fillLine {q line prefetch} (h : Keeps s t) : Keeps s (t.fillLine q line prefetch).2 := by
  unfold State.fillLine
  split
  · rename_i e
    exact .pair (h.readMem.snd e).installLine
  · rename_i e
    exact .pair (h.readMem.snd e).modQuire

theorem Keeps.cacheError {q l g y ue} (h : Keeps s t) : Keeps s (t.cacheError q l g y ue) := .ite h.memLog.upd h.memLog.upd

theorem Keeps.lineGranBy {upd q line g} (h : Keeps s t) : Keeps s (t.lineGranBy upd q line g).2 := by
  unfold State.lineGranBy
  split
  · exact .pair h
  · dsimp only
    split
    · exact .pair h.modQuire
    · exact .pair h.modQuire.cacheError
    · exact .pair h.modQuire.cacheError
    · exact .iteSnd (.pair h.cacheError) (.pair h.cacheError.modQuire)

theorem Keeps.lineGran {q line g} (h : Keeps s t) : Keeps s (t.lineGran q line g).2 := h.lineGranBy

theorem Keeps.prefetchNext {q r line lo hi} (h : Keeps s t) : Keeps s (t.prefetchNext q r line lo hi) := .ite h.modQuire h

theorem Keeps.cacheGran {q r line g lo hi} (h : Keeps s t) : Keeps s (t.cacheGran q r line g lo hi).2 := by
  unfold State.cacheGran
  split
  · rename_i e
    exact .pair (h.lineGran.snd e)
  · rename_i e
    exact .pair (h.lineGran.snd e)
  · rename_i e
    split
    · rename_i e1
      exact .pair ((h.lineGran.snd e).fillLine.snd e1)
    · rename_i e1
      split
      · rename_i e2
        exact .pair (((h.lineGran.snd e).fillLine.snd e1).prefetchNext.lineGran.snd e2)
      · rename_i e2
        exact .pair (((h.lineGran.snd e).fillLine.snd e1).prefetchNext.lineGran.snd e2)

theorem Keeps.noteDirty {q t' line} (h : Keeps s t) : Keeps s (t.noteDirty q t' line) := by
  unfold State.noteDirty
  refine .ite h ?_
  dsimp only
  split
  · exact .ite h.modTile.writeBack h.modTile
  · exact h.modTile

theorem Keeps.cacheStore {q t' line g o bs} (h : Keeps s t) : Keeps s (t.cacheStore q t' line g o bs).2 := by
  unfold State.cacheStore
  split
  rename_i ok t₁ e₁
  have h₁ : Keeps s t₁ := (Keeps.iteSnd h h.fillLine).snd e₁
  refine .iteSnd (.pair h₁) ?_
  split
  rename_i old t₂ e₂
  have h₂ : Keeps s t₂ := (Keeps.iteSnd (.pair h₁) h₁.lineGran).snd e₂
  split
  rename_i again t₃ e₃
  have h₃ : Keeps s t₃ := by
    split at e₃
    · split at e₃
      · rename_i e
        exact (h₂.fillLine.snd e).lineGran.snd e₃
      · rename_i e
        exact Keeps.snd (.pair (h₂.fillLine.snd e)) e₃
    · exact Keeps.snd (.pair h₂) e₃
  split
  · exact .pair h₃.modQuire.noteDirty
  · exact .pair h₃

theorem Keeps.drainWb {t'} (h : Keeps s t) : Keeps s (t.drainWb t') := h.forL fun _ _ k => k.writeBack

theorem Keeps.lineOp {q op line} (h : Keeps s t) : Keeps s (t.lineOp q op line) := by
  unfold State.lineOp
  split
  · split
    · exact h.modQuire
    · exact h.installLine
  · exact h.writeBack
  · exact h.modQuire.wbForget
  · exact h.evict

theorem Keeps.cacheOp {q op all first n} (h : Keeps s t) : Keeps s (t.cacheOp q op all first n) := h.forL fun _ _ k => k.lineOp

theorem Keeps.qcCmdWrite {r q op all lines line} (h : Keeps s t) : Keeps s (t.qcCmdWrite r q op all lines line) :=
  .ite h (.ite h.modQuire (.ite h.modQuire.cacheOp h.modQuire.raiseMem))

theorem KeepsNext.cmdDone {q} (h : Keeps s t) : KeepsNext s (execCmdDone q t) := .next (.ite h.modQuire.raiseMem h)

theorem Keeps.waymapWrite {q g} (h : Keeps s t) : Keeps s (t.waymapWrite q g) := .ite h (.ite h.raiseMem h.modQuire)

theorem Keeps.setGroups {q g} (h : Keeps s t) : Keeps s (t.setGroups q g) := by
  unfold State.setGroups
  exact (h.forL (fun _ _ k => k.evict)).clearMem.modQuire

theorem KeepsNext.waymapDone {q} (h : Keeps s t) : KeepsNext s (execWaymapDone q t) := .next (.ite h.setGroups.modQuire.raiseMem h)

theorem Keeps.hbmwinWrite {r q k' v} (h : Keeps s t) : Keeps s (t.hbmwinWrite r q k' v) := .ite h.modQuire h.raiseMem

theorem KeepsNext.hbmwinApply {q k'} (h : Keeps s t) : KeepsNext s (execHbmwinApply q k' t) := by
  unfold execHbmwinApply
  refine .next ?_
  split
  · exact .ite h.modQuire h
  · exact h

theorem KeepsNext.cacheFill {q k' line} (h : Keeps s t) : KeepsNext s (execCacheFill q k' line t) :=
  .next (.ite h (.ite h.fillLine (.ite h.fillLine h)))

theorem KeepsNext.hbmWriteAccepted {t' line} (h : Keeps s t) : KeepsNext s (execHbmWriteAccepted t' line t) := .next (.ite h.writeBack h)

theorem Keeps.flushCache {q wb} (h : Keeps s t) : Keeps s (t.flushCache q wb) := by
  unfold State.flushCache
  exact ((Keeps.ite (h.forL (fun _ _ k => k.writeBack)) h).forL (fun _ _ k => k.wbForget)).modQuire

theorem Keeps.clearQscratch {q} (h : Keeps s t) : Keeps s (t.clearQscratch q) := h.clearMem

theorem Keeps.clearScratch {t'} (h : Keeps s t) : Keeps s (t.clearScratch t') := h.clearMem

theorem KeepsNext.scrub {granule} (h : Keeps s t) : KeepsNext s (execScrub granule t) := by
  unfold execScrub
  refine .next (.ite h ?_)
  split
  · exact .ite h h.setSynd.upd.errLogAdd
  · exact h.readGran

/-! ### Handover points -/

theorem Keeps.integRecord {pt room code injected addr} (h : Keeps s t) : Keeps s (t.integRecord pt room code injected addr) :=
  (h.upd (integrity := fun _ => by apply length_lastN_le)).event

theorem Keeps.handover {pt room code addr} (h : Keeps s t) : Keeps s (t.handover pt room code addr).2 := by
  unfold State.handover
  split
  · exact .pair h.upd
  · exact .iteSnd (.pair h.upd.integRecord) (.pair h.upd)

theorem Keeps.handList {pt room code l} (h : Keeps s t) : Keeps s (t.handList pt room code l).2 := by
  induction l generalizing t with
  | nil => exact h
  | cons a l ih =>
    unfold State.handList
    split
    · rename_i e
      exact .pair (h.handover.snd e)
    · rename_i e
      have k := ih (h.handover.snd e)
      split
      · rename_i e'
        exact .pair (k.snd e')
      · rename_i e'
        exact .pair (k.snd e')

theorem Keeps.handBad {pt room code addr injected} (h : Keeps s t) : Keeps s (t.handBad pt room code addr injected) := h.upd.integRecord

theorem Keeps.handFail {pt room code addr} (h : Keeps s t) : Keeps s (t.handFail pt room code addr) := h.handBad

theorem Keeps.addCorrected {pt k'} (h : Keeps s t) : Keeps s (t.addCorrected pt k') := .ite h h.upd

theorem Keeps.flipStored {g i} (h : Keeps s t) : Keeps s (t.flipStored g i) := h.putBytes.setSynd

theorem Keeps.injectStored {h' gs} (h : Keeps s t) : Keeps s (t.injectStored h' gs) := by
  unfold State.injectStored
  split
  · exact h.flipStored.spend.spend
  · exact h.flipStored.flipStored.spend.spend.spend
  · exact h

theorem Keeps.countCorrected {pt a n} (h : Keeps s t) : Keeps s (t.countCorrected pt a n) := h.addCorrected

theorem Keeps.writeUnit {h' a bs} (h : Keeps s t) : Keeps s (t.writeUnit h' a bs).2 := by
  unfold State.writeUnit
  exact .ite h.writeMem.injectStored h.writeMem

end

end Sys2Proof.Machine
end

section
/-! What fabric packets, room faults, tallies and DMA channels keep (R87 to R126, R284 to R309, R327 to R346, R387 to R390). -/

namespace Sys2Proof.Machine

set_option Elab.async false

section
variable {s t u : State} {α : Type}

/-! ### Fabric packets -/

theorem Keeps.wireFlit {p f} (h : Keeps s t) : Keeps s (t.wireFlit p f) := by
  unfold State.wireFlit
  dsimp only
  split
  · exact h.upd.emit
  · exact h.upd.emit

theorem Keeps.sendFlits {p ks} (h : Keeps s t) : Keeps s (t.sendFlits p ks) := h.setPort.forL fun _ _ k => k.wireFlit

theorem Keeps.pump {p n} (h : Keeps s t) : Keeps s (t.pump p n) := by
  unfold State.pump
  split
  · exact h
  · exact h.setPort.sendFlits

theorem Keeps.enqueue {p k'} (h : Keeps s t) : Keeps s (t.enqueue p k') := h.modPort.pump

theorem Keeps.launch {k' inPort tree} (h : Keeps s t) : Keeps s (t.launch k' inPort tree).2 := by
  unfold State.launch
  refine .iteSnd (.pair h.upd) ?_
  split
  · exact .pair h
  · exact .pair h.enqueue

theorem Keeps.originateAt {room code addr k'} (h : Keeps s t) : Keeps s (t.originateAt room code addr k').2 := by
  unfold State.originateAt
  split
  · rename_i e
    exact .pair (h.handover.snd e)
  · rename_i e
    exact .pair (h.handover.snd e).launch

theorem Keeps.originate {room code k'} (h : Keeps s t) : Keeps s (t.originate room code k').2 := h.originateAt

theorem Keeps.postCtrl {room dst ty body} (h : Keeps s t) : Keeps s (t.postCtrl room dst ty body).2 := by
  unfold State.postCtrl
  split
  · rename_i e
    exact .pair (h.originate.snd e)
  · rename_i e
    exact .pair (h.originate.snd e)

theorem Keeps.giveCredits {p vc n} (h : Keeps s t) : Keeps s (t.giveCredits p vc n) := .ite h.emit h.modPort

theorem Keeps.takeArrived {e} (h : Keeps s t) : Keeps s (t.takeArrived e) :=
  .ite (Keeps.ite h.upd.activity h.upd).giveCredits (.ite h.upd.activity h.upd)

theorem Keeps.point7 {k' room code} (h : Keeps s t) : Keeps s (t.point7 k' room code).2 := by
  unfold State.point7
  refine .iteSnd (.pair h.handFail) ?_
  split
  · rename_i e
    exact .pair (h.handover.snd e)
  · rename_i e
    exact .pair (h.handover.snd e)

theorem Keeps.takeCtrl {ty src body} (h : Keeps s t) : Keeps s (t.takeCtrl ty src body).2 := by
  unfold State.takeCtrl
  split
  · exact .pair h
  · split
    · rename_i e
      exact .pair (h.takeArrived.point7.snd e)
    · rename_i e
      exact .pair (h.takeArrived.point7.snd e)

theorem Keeps.modCnt {p f} (h : Keeps s t) : Keeps s (t.modCnt p f) := h.modPort

theorem Keeps.codewords {p h'} (h : Keeps s t) : Keeps s (t.codewords p h') := .ite (.ite h h.modCnt) (Keeps.ite h h.modCnt).raisePort

theorem Keeps.resend {p} (h : Keeps s t) : Keeps s (t.resend p) := .ite h (h.modCnt.forL (fun _ _ k => k.wireFlit))

theorem Keeps.replayPort {p} (h : Keeps s t) : Keeps s (t.replayPort p) := .ite h h.raisePort.resend

theorem Keeps.takeReturns {p h'} (h : Keeps s t) : Keeps s (t.takeReturns p h') := (Keeps.ite h.modPort.replayPort h.modPort).pump

theorem Keeps.holdPort {p} (h : Keeps s t) : Keeps s (t.holdPort p) := h.modPort.raisePort

theorem Keeps.badFlit {p} (h : Keeps s t) : Keeps s (t.badFlit p) := h.modCnt.modPort

theorem Keeps.startTraining {p} (h : Keeps s t) : Keeps s (t.startTraining p) := .ite h.modPort h

/-! ### Unit registers -/

theorem Keeps.saveImage {t' area} (h : Keeps s t) : Keeps s (t.saveImage t' area) :=
  ((h.forN (fun _ _ k => k.putByte)).forN (fun _ _ k => k.setSynd)).putBytes.forN fun _ _ k => k.setSynd

theorem Keeps.saveUnits {t'} (h : Keeps s t) : Keeps s (t.saveUnits t') := .ite h.saveImage h

theorem Keeps.discardQueue {t'} (h : Keeps s t) : Keeps s (t.discardQueue t') := by
  unfold State.discardQueue
  split
  · exact h
  · exact h.spend.modTile

/-! ### Faults of rooms -/

theorem Keeps.disarmCues {r} (h : Keeps s t) : Keeps s (t.disarmCues r) := h.forL fun _ _ k => .ite k.setCue k

theorem Keeps.dropTileWaits {t'} (h : Keeps s t) : Keeps s (t.dropTileWaits t') := h.upd

theorem Keeps.haltTiles {r} (h : Keeps s t) : Keeps s (t.haltTiles r) := h.forL fun _ _ k => .ite k k.modTile.dropTileWaits.discardQueue.saveUnits

theorem Keeps.laterFault {r} (h : Keeps s t) : Keeps s (t.laterFault r) := .ite h.modRoom h

theorem Keeps.tellFault {r dst ty body} (h : Keeps s t) : Keeps s (t.tellFault r dst ty body) := by
  unfold State.tellFault
  split
  · rename_i e
    exact h.postCtrl.snd e
  · rename_i e
    exact (h.postCtrl.snd e).laterFault

theorem Keeps.homeNotice {job origin cause} (h : Keeps s t) : Keeps s (t.homeNotice job origin cause) :=
  (Keeps.ite h h.upd).forL fun _ _ k => k.tellFault

theorem Keeps.roomFault {r i} (h : Keeps s t) : Keeps s (t.roomFault r i) := by
  unfold State.roomFault
  dsimp only
  have k {x v f} : Keeps s ((((t.setRoom r x).event 3 v).modRoom r f).raiseTally r 2) := h.setRoom.event.modRoom.raiseTally
  split
  iterate 2
    refine .raiseRoom (.ite (.modRoom ?_) (.haltTiles (.disarmCues ?_)))
    iterate 2 exact .ite k (.ite k.homeNotice k.tellFault)
  · exact h.laterFault
  · exact h

theorem Keeps.policyFault {r cause detail} (h : Keeps s t) : Keeps s (t.policyFault r cause detail) := by
  unfold State.policyFault
  split
  · exact h
  · exact .ite h.roomFault h.modRoom.raiseRoom

theorem Keeps.sendCtrl {r dst ty body} (h : Keeps s t) : Keeps s (t.sendCtrl r dst ty body) := by
  unfold State.sendCtrl
  split
  · rename_i e
    exact h.postCtrl.snd e
  · rename_i e
    exact .ite (h.postCtrl.snd e).policyFault (h.postCtrl.snd e)

theorem Keeps.tileFaultRoom {t' i} (h : Keeps s t) : Keeps s (t.tileFaultRoom t' i) := by
  unfold State.tileFaultRoom
  split
  · exact h.roomFault
  · exact h

/-! ### Tallies -/

theorem Keeps.tallyErrRec {r code source t'} (h : Keeps s t) : Keeps s (t.tallyErrRec r code source t') := h.modRoom.raiseTally

theorem Keeps.refuseAdvance {r code source t'} (h : Keeps s t) : Keeps s (t.refuseAdvance r code source t') := by
  unfold State.refuseAdvance
  dsimp only
  split
  · exact .ite h.upd.tallyErrRec h.upd.tallyErrRec.tallyErrRec
  · exact h.upd.tallyErrRec

theorem Keeps.issueAdvance {r t' amount source} (h : Keeps s t) : Keeps s (t.issueAdvance r t' amount source) := h.upd

theorem Keeps.tryAdvance {r t' amount source} (h : Keeps s t) : Keeps s (t.tryAdvance r t' amount source) := by
  unfold State.tryAdvance
  split
  · exact h.issueAdvance
  · exact h.refuseAdvance

theorem Keeps.wakeWaiter {w} (h : Keeps s t) : Keeps s (t.wakeWaiter w) := by
  unfold State.wakeWaiter
  split
  · exact h.modTile
  · exact h.modChan
  · exact h

theorem Keeps.completeWaits {t'} (h : Keeps s t) : Keeps s (t.completeWaits t') := .ite h (h.upd.forL (fun _ _ k => k.wakeWaiter))

theorem Keeps.registerWait {who t' expected} (h : Keeps s t) : Keeps s (t.registerWait who t' expected).2 := .iteSnd (.pair h) (.pair h.upd)

theorem Keeps.dropWait {who} (h : Keeps s t) : Keeps s (t.dropWait who) := h.upd

theorem Keeps.setWatch {n x} (h : Keeps s t) : Keeps s (t.setWatch n x) := h.upd

theorem Keeps.fireWatch {n} (h : Keeps s t) : Keeps s (t.fireWatch n) := by
  unfold State.fireWatch
  refine .ite ?_ h
  dsimp only
  split
  · exact h.setWatch.vecEvent
  · exact h.setWatch

theorem Keeps.fireWatches {t'} (h : Keeps s t) : Keeps s (t.fireWatches t') := h.forL fun _ _ k => k.fireWatch

theorem Keeps.setTally {t' v} (h : Keeps s t) : Keeps s (t.setTally t' v) := h.upd.completeWaits.fireWatches

theorem Keeps.tallyLimit {r t'} (h : Keeps s t) : Keeps s (t.tallyLimit r t') := h.upd.roomFault.raiseTally

theorem Keeps.sendUpdate {r t' job} (h : Keeps s t) : Keeps s (t.sendUpdate r t' job) := h.forL fun _ _ k => k.sendCtrl

theorem Keeps.addTally {r t' amount} (h : Keeps s t) : Keeps s (t.addTally r t' amount) := by
  unfold State.addTally
  refine .ite h.tallyLimit ?_
  dsimp only
  split
  · exact .ite h.setTally.sendUpdate h.setTally
  · exact h.setTally

theorem Keeps.discardFrozen {r source t'} (h : Keeps s t) : Keeps s (t.discardFrozen r source t') := h.upd.tallyErrRec

theorem Keeps.applyAdvance {a} (h : Keeps s t) : Keeps s (t.applyAdvance a) := by
  unfold State.applyAdvance
  refine .ite h.upd (.ite h.discardFrozen ?_)
  split
  · exact h
  · exact .ite h.upd.sendCtrl h.addTally

theorem KeepsNext.localAdvanceApply {tally} (h : Keeps s t) : KeepsNext s (execLocalAdvanceApply tally t) := by
  unfold execLocalAdvanceApply
  refine .next ?_
  split
  · exact h
  · exact h.upd.applyAdvance

theorem Keeps.watchCtlWrite {r n v} (h : Keeps s t) : Keeps s (t.watchCtlWrite r n v) := by
  unfold State.watchCtlWrite
  refine .ite h.setWatch (.ite ?_ h.setWatch)
  split
  · exact .ite h.setWatch.fireWatch h.setWatch.tallyErrRec
  · exact h

theorem Keeps.watchValueWrite {n v} (h : Keeps s t) : Keeps s (t.watchValueWrite n v) := .ite h h.setWatch

theorem Keeps.tallyAdvWrite {r t' amount} (h : Keeps s t) : Keeps s (t.tallyAdvWrite r t' amount) := h.tryAdvance

theorem Keeps.tallyValRead {r t'} (h : Keeps s t) : Keeps s (t.tallyValRead r t').2 := by
  unfold State.tallyValRead
  split
  · exact .iteSnd (.pair h) (.pair h.tallyErrRec)
  · exact .pair h

theorem Keeps.sendNack {dst t' code job} (h : Keeps s t) : Keeps s (t.sendNack dst t' code job) := h.sendCtrl

theorem KeepsNext.advance {src tally amount jobId} (h : Keeps s t) : KeepsNext s (execAdvance src tally amount jobId t) := by
  unfold execAdvance
  refine .next ?_
  split
  · rename_i e
    exact h.takeCtrl.snd e
  · rename_i e
    extract_lets t' b tal u u₁ u₂
    have k : Keeps s u := .ite (h.takeCtrl.snd e).upd (h.takeCtrl.snd e)
    have k₁ : Keeps s u₁ := by
      dsimp only [u₁]
      split
      · exact k.tallyErrRec
      · exact k
    have k₂ : Keeps s u₂ := by
      dsimp only [u₂]
      split
      · exact k.discardFrozen
      · exact k
    refine .ite k.sendNack (.ite k₁.sendNack (.ite k₂.sendNack ?_))
    split
    · exact k.upd
    · exact .ite k.discardFrozen.sendNack (.ite k.refuseAdvance k.addTally)

theorem Keeps.raiseMirror {t' v} (h : Keeps s t) : Keeps s (t.raiseMirror t' v) := .ite h h.setTally

theorem KeepsNext.update {tally value jobId} (h : Keeps s t) : KeepsNext s (execUpdate tally value jobId t) := by
  unfold execUpdate
  refine .next ?_
  split
  · rename_i e
    exact h.takeCtrl.snd e
  · rename_i e
    dsimp only
    split
    · split
      · exact .ite (h.takeCtrl.snd e).upd.raiseMirror (h.takeCtrl.snd e)
      · exact h.takeCtrl.snd e
    · exact h.takeCtrl.snd e

theorem KeepsNext.join {src group jobId} (h : Keeps s t) : KeepsNext s (execJoin src group jobId t) := by
  unfold execJoin
  refine .next ?_
  split
  · rename_i e
    exact h.takeCtrl.snd e
  · rename_i e
    exact .ite (h.takeCtrl.snd e).sendNack (.ite (h.takeCtrl.snd e).sendNack (Keeps.ite (h.takeCtrl.snd e) (h.takeCtrl.snd e).upd).sendCtrl.sendCtrl)

theorem KeepsNext.joinReply {group h' jobId values} (h : Keeps s t) : KeepsNext s (execJoinReply group h' jobId values t) := by
  unfold execJoinReply
  refine .next ?_
  split
  · rename_i e
    exact h.takeCtrl.snd e
  · rename_i e
    dsimp only
    split
    · split
      · refine .ite (.forN (h.takeCtrl.snd e).upd fun a u k => ?_) (h.takeCtrl.snd e)
        split
        · exact k.raiseMirror
        · exact k
      · exact h.takeCtrl.snd e
    · exact h.takeCtrl.snd e

theorem KeepsNext.nack {tally code jobId} (h : Keeps s t) : KeepsNext s (execNack tally code jobId t) := by
  unfold execNack
  refine .next ?_
  split
  · rename_i e
    exact h.takeCtrl.snd e
  · rename_i e
    extract_lets tal u tal'
    have k : Keeps s u := (h.takeCtrl.snd e).upd
    split
    · exact k
    · extract_lets put
      have kp n : Keeps s (put n) := k.upd
      clear_value put
      exact .ite (.ite (kp _) (kp _).tallyErrRec) (.ite (Keeps.ite (kp _) (kp _).tallyErrRec).roomFault (.ite (kp _) (kp _).discardFrozen))

theorem KeepsNext.fabricRetry {tally} (h : Keeps s t) : KeepsNext s (execFabricRetry tally t) := by
  unfold execFabricRetry
  refine .next ?_
  split
  · exact h
  · dsimp only
    split
    · exact h.upd
    · exact .ite h.upd.sendCtrl h.upd.sendCtrl

theorem KeepsNext.fabricNackTimeout {tally} (h : Keeps s t) : KeepsNext s (execFabricNackTimeout tally t) := by
  unfold execFabricNackTimeout
  refine .next ?_
  split
  · exact h
  · exact h.upd.roomFault

theorem KeepsNext.faultToHome {src jobId cause} (h : Keeps s t) : KeepsNext s (execFaultToHome src jobId cause t) := by
  unfold execFaultToHome
  refine .next ?_
  split
  · rename_i e
    exact h.takeCtrl.snd e
  · rename_i e
    dsimp only
    split
    · exact (h.takeCtrl.snd e).homeNotice.roomFault
    · exact (h.takeCtrl.snd e).homeNotice

theorem KeepsNext.faultNotice {jobId origin cause} (h : Keeps s t) : KeepsNext s (execFaultNotice jobId origin cause t) := by
  unfold execFaultNotice
  refine .next ?_
  split
  · rename_i e
    exact h.takeCtrl.snd e
  · rename_i e
    split
    · exact (h.takeCtrl.snd e).roomFault
    · exact h.takeCtrl.snd e

/-! ### DMA channels -/

theorem Keeps.askWake {q} (h : Keeps s t) : Keeps s (t.askWake q) := by
  unfold State.askWake
  split
  · exact h.modQuire
  · exact h.modQuire
  · exact h.activity
  · exact h

theorem Keeps.chanError {c code} (h : Keeps s t) : Keeps s (t.chanError c code) := by
  unfold State.chanError
  dsimp only
  split
  · exact .ite h.modChanEvt.policyFault h.modChanEvt
  · exact h.modChanEvt

theorem Keeps.putStatus {c st code off} (h : Keeps s t) : Keeps s (t.putStatus c st code off).2 := h.writeMem

theorem Keeps.dmaStart {c a task} (h : Keeps s t) : Keeps s (t.dmaStart c a task).2 :=
  .iteSnd (.pair (Keeps.ite h.leaveIdle.activity h).modChan) (.pair h)

theorem Keeps.chanAbort {c} (h : Keeps s t) : Keeps s (t.chanAbort c) := .ite h h.dropWait.modChan

theorem Keeps.chanResume {c} (h : Keeps s t) : Keeps s (t.chanResume c) := by
  unfold State.chanResume
  dsimp only
  split
  · exact h.modChan
  · split
    · split
      · rename_i e
        exact (h.registerWait.snd e).modChan
      · rename_i e
        exact (h.registerWait.snd e).modChan
    · exact h.modChan
    · exact h.modChan
  · exact h

theorem Keeps.dmaCtrlWrite {c v} (h : Keeps s t) : Keeps s (t.dmaCtrlWrite c v) := by
  unfold State.dmaCtrlWrite
  extract_lets was now u₁ u₂
  have h₁ : Keeps s u₁ := h.modChan
  have h₂ : Keeps s u₂ := .ite h₁.chanResume (.ite h₁.modChan h₁)
  exact .ite h₁.chanAbort (.ite (.ite h₂.leaveIdle.activity.modChan h₂.modChanEvt) h₂)

theorem Keeps.descAccepted {c d} (h : Keeps s t) : Keeps s (t.descAccepted c d) := by
  unfold State.descAccepted
  refine .ite h.modChan.modChan (.ite ?_ h.modChan.modChan)
  split
  · rename_i e
    exact (h.modChan.registerWait.snd e).modChan
  · rename_i e
    exact (h.modChan.registerWait.snd e).modChan

theorem Keeps.refuseDescAdvance {c r d} (h : Keeps s t) : Keeps s (t.refuseDescAdvance c r d) := by
  unfold State.refuseDescAdvance
  split
  · exact h
  · exact h.refuseAdvance

theorem Keeps.descFetch {c r} (h : Keeps s t) : Keeps s (t.descFetch c r) := by
  unfold State.descFetch
  refine .ite h.chanError (.ite (h.forL (fun _ _ k => k.askWake)) ?_)
  split
  · rename_i e
    exact (h.readMem.snd e).chanError
  · rename_i e
    dsimp only
    split
    · exact (h.readMem.snd e).descAccepted
    · split
      · rename_i e1
        exact ((Keeps.ite (h.readMem.snd e).refuseDescAdvance (h.readMem.snd e)).putStatus.snd e1).modChanEvt
      · rename_i e1
        exact ((Keeps.ite (h.readMem.snd e).refuseDescAdvance (h.readMem.snd e)).putStatus.snd e1).chanError

theorem KeepsNext.descriptorFetch {c} (h : Keeps s t) : KeepsNext s (execDescriptorFetch c t) := by
  unfold execDescriptorFetch
  refine .next ?_
  split
  · exact h.descFetch
  · exact h

theorem Keeps.sendReq {r k'} (h : Keeps s t) : Keeps s (t.sendReq r k').2 := by
  unfold State.sendReq
  split
  · rename_i e
    exact .pair (h.originate.snd e)
  · rename_i e
    exact .pair (h.originate.snd e)
  · rename_i e
    exact .pair (h.originate.snd e)

theorem Keeps.writePiece {c r d h' off bs} (h : Keeps s t) : Keeps s (t.writePiece c r d h' off bs) := by
  unfold State.writePiece
  dsimp only
  split
  · exact .ite h.writeMem.injectStored h.writeMem.modChan
  · split
    · exact h
    · refine .ite h.handBad.modChan ?_
      split
      · rename_i e
        exact (h.addCorrected.sendReq.snd e).modChan
      · rename_i e
        exact (h.addCorrected.sendReq.snd e).modChan
  · refine .ite h.modChan (.ite h.handBad.modChan ?_)
    split
    · rename_i e
      exact (h.addCorrected.handList.snd e).modChan
    · rename_i e
      exact (h.addCorrected.handList.snd e).emit

theorem Keeps.writePieces {c r d g l bs} (h : Keeps s t) : Keeps s (t.writePieces c r d g l bs) := by
  induction l generalizing t g bs with
  | nil => exact h
  | cons p l ih => exact .ite h.writePiece (ih h.writePiece)

theorem Keeps.flushBlock {c r d lo hi} (h : Keeps s t) : Keeps s (t.flushBlock c r d lo hi) := by
  unfold State.flushBlock
  split
  · exact h
  · refine .ite h ?_
    dsimp only
    split
    · rename_i e
      exact (h.modChan.handover.snd e).modChan
    · rename_i e
      exact (h.modChan.handover.snd e).writePieces

theorem Keeps.flushReady {c r d} (h : Keeps s t) : Keeps s (t.flushReady c r d) := h.forL fun _ _ k => .ite k.flushBlock k

theorem Keeps.funnel {c r d off bs} (h : Keeps s t) : Keeps s (t.funnel c r d off bs) := h.modChan.flushReady

theorem Keeps.pieceRead {c r d off bs} (h : Keeps s t) : Keeps s (t.pieceRead c r d off bs) := by
  unfold State.pieceRead
  split
  · rename_i e
    exact (h.handList.snd e).modChan
  · rename_i e
    exact (h.handList.snd e).funnel

theorem Keeps.localRead {c r d q} (h : Keeps s t) : Keeps s (t.localRead c r d q) := by
  unfold State.localRead
  extract_lets a u
  have k : Keeps s u := .ite h.countCorrected h
  clear_value u
  split
  · rename_i e
    exact (k.readMem.snd e).modChan
  · rename_i e
    have k := k.readMem.snd e
    exact .ite k.pieceRead (.ite k.modChan (k.forL fun _ _ k => k.writeMem))

theorem Keeps.pieceArrived {c r d q hs bs} (h : Keeps s t) : Keeps s (t.pieceArrived c r d q hs bs) := .ite h.handBad.modChan h.addCorrected.pieceRead

theorem Keeps.hostReadDone {c r d q bs} (h : Keeps s t) : Keeps s (t.hostReadDone c r d q bs) := by
  unfold State.hostReadDone
  split
  · rename_i e
    exact (h.handList.snd e).modChan
  · rename_i e
    exact (h.handList.snd e).pieceArrived

theorem Keeps.reqComplete {c r d q e} (h : Keeps s t) : Keeps s (t.reqComplete c r d q e) := by
  unfold State.reqComplete
  refine .ite h (.ite h.modChan.localRead.modChan ?_)
  split
  · exact h.modChan.hostReadDone.modChan
  · exact .ite h.modChan.handFail.modChan.modChan (.ite h.modChan.modChan.modChan h)

theorem Keeps.lateCompletion {c tag} (h : Keeps s t) : Keeps s (t.lateCompletion c tag) := by
  unfold State.lateCompletion
  refine .ite ?_ h
  dsimp only
  split
  · exact h.modChan.modRoom.raiseRoom
  · exact h.modChan

theorem KeepsNext.requestComplete {c tag e} (h : Keeps s t) : KeepsNext s (execRequestComplete c tag e t) := by
  unfold execRequestComplete
  refine .next ?_
  dsimp only
  split
  · exact .ite h h.reqComplete
  · exact h.lateCompletion
  · exact h

theorem KeepsNext.timeout {c tag} (h : Keeps s t) : KeepsNext s (execTimeout c tag t) := by
  unfold execTimeout
  refine .next ?_
  split
  · exact h.modChan
  · exact h

theorem Keeps.takeCredit {c r n} (h : Keeps s t) : Keeps s (t.takeCredit c r n).2 := by
  unfold State.takeCredit
  split
  · exact .pair h
  · exact .pair h.spend.modChan.modRoom

theorem Keeps.issueRead {c r d off n} (h : Keeps s t) : Keeps s (t.issueRead c r d off n) := by
  unfold State.issueRead
  split
  · exact h
  · dsimp only
    split
    · exact h.modChan.modChan
    · split
      · rename_i e
        exact (h.modChan.sendReq.snd e).modChan
      · rename_i e
        exact (h.modChan.sendReq.snd e).modChan
    · exact .ite h.modChan.modChan.emit h.modChan.modChan

theorem Keeps.issueFill {c r d off} (h : Keeps s t) : Keeps s (t.issueFill c r d off) :=
  .ite h.modChan.modChan.flushBlock (h.modChan.forL (fun _ _ k => k.writeMem))

theorem Keeps.issueCache {c d} (h : Keeps s t) : Keeps s (t.issueCache c d) := by
  unfold State.issueCache
  exact h.cacheOp.modChan

theorem Keeps.issuePiece {c r d} (h : Keeps s t) : Keeps s (t.issuePiece c r d) := by
  unfold State.issuePiece
  refine .ite (h.forL (fun _ _ k => k.askWake)) ?_
  split
  · refine .ite h.meshRun ?_
    split
    · rename_i e
      exact (h.meshRun.takeCredit.snd e).issueRead.modChan
    · rename_i e
      exact h.meshRun.takeCredit.snd e
  · exact h.issueFill.modChan
  · exact h.issueCache
  · exact h

theorem KeepsNext.pieceIssue {c} (h : Keeps s t) : KeepsNext s (execPieceIssue c t) := by
  unfold execPieceIssue
  refine .next ?_
  dsimp only
  split
  · exact .ite h.issuePiece h
  · exact h

theorem Keeps.badDesc {c r code point} (h : Keeps s t) : Keeps s (t.badDesc c r code point) :=
  .ite h.upd.modChanEvt.policyFault h.upd.modChanEvt.policyFault

theorem Keeps.descEnd {c r d done} (h : Keeps s t) : Keeps s (t.descEnd c r d done) :=
  .ite (Keeps.ite h.issueAdvance h).modChanEvt (.ite h.issueAdvance h)

theorem Keeps.finishDesc {c r d} (h : Keeps s t) : Keeps s (t.finishDesc c r d).2 := by
  unfold State.finishDesc
  dsimp only
  split
  · split
    · rename_i e
      exact .pair (h.putStatus.snd e).badDesc.descEnd
    · rename_i e
      exact .pair (h.putStatus.snd e)
  · split
    · rename_i e
      exact .pair (h.putStatus.snd e).descEnd
    · rename_i e
      exact .pair (h.putStatus.snd e)

theorem Keeps.wakeForStatus {c} (h : Keeps s t) : Keeps s (t.wakeForStatus c) := h.forL fun _ _ k => k.askWake

theorem KeepsNext.descriptorComplete {c} (h : Keeps s t) : KeepsNext s (execDescriptorComplete c t) := by
  unfold execDescriptorComplete
  refine .next ?_
  split
  · refine .ite h.wakeForStatus ?_
    split
    · rename_i e
      exact (h.finishDesc.snd e).chanError
    · rename_i e
      exact .ite (h.finishDesc.snd e).modChan (h.finishDesc.snd e).modChan
  · exact h

theorem KeepsNext.drainDone {c} (h : Keeps s t) : KeepsNext s (execDrainDone c t) := by
  unfold execDrainDone
  refine .next ?_
  dsimp only
  split
  · refine .ite (.ite ?_ ?_) h
    · refine .setChan ?_
      split
      · exact h
      · exact h.flushBlock
    · refine .setChan ?_
      split
      · exact h
      · exact h.flushBlock
  · exact h

theorem Keeps.abortDesc {c r d} (h : Keeps s t) : Keeps s (t.abortDesc c r d).2 := by
  unfold State.abortDesc
  refine .iteSnd h.finishDesc ?_
  split
  · exact h.modChan.finishDesc
  · exact .pair h.putStatus.modChan

theorem Keeps.abortEnd {c r} (h : Keeps s t) : Keeps s (t.abortEnd c r) := by
  unfold State.abortEnd
  refine .modChanEvt ?_
  split
  · exact h.abortDesc
  · exact h.modChan

theorem Keeps.chanStatWrite {c v} (h : Keeps s t) : Keeps s (t.chanStatWrite c v) := h.modChan.srcWritten

end

end Sys2Proof.Machine
end

section
/-! What frames, cue entries, the quire registers, a tile's accesses, rooms and the registers of BAR0 keep (R63 to R82, R130 to R191, R278 to R282, R374 to R391, R410 to R422). -/

namespace Sys2Proof.Machine

set_option Elab.async false

section
variable {s t u : State} {α : Type}

/-! ### Frames -/

theorem Keeps.endSessions {p} (h : Keeps s t) : Keeps s (t.endSessions p) := h.upd (sessions := fun b => (List.length_filter_le ..).trans b)

theorem Keeps.modMbx {f g} (h : Keeps s t) : Keeps s (t.modMbx f g) := h.modFn

theorem Keeps.mbxStop {f} (h : Keeps s t) : Keeps s (t.mbxStop f) := h.modMbx.endSessions

theorem Keeps.mbxError {f code} (h : Keeps s t) : Keeps s (t.mbxError f code) := .ite h.modMbx.raiseHost.mbxStop h.modMbx.raiseHost

theorem Keeps.mbxPump {f n} (h : Keeps s t) : Keeps s (t.mbxPump f n) := by
  induction n generalizing t with
  | zero => exact h
  | succ n ih =>
    unfold State.mbxPump
    dsimp only
    split
    · exact h
    · exact .ite h (.ite h.mbxError (ih (.ite h.emit.modMbx.raiseHost.sendMsix h.emit.modMbx.raiseHost)))

theorem Keeps.mbxSend {f fr} (h : Keeps s t) : Keeps s (t.mbxSend f fr) := .ite h.modMbx.mbxPump h

theorem Keeps.putFrame {transport f} (h : Keeps s t) : Keeps s (t.putFrame transport f) := .ite h.emit (.ite h.mbxSend h.upd)

theorem Keeps.sendTries {w f n} (h : Keeps s t) : Keeps s (t.sendTries w f n) := by
  induction n generalizing t with
  | zero => exact h.endSessions
  | succ n ih =>
    unfold State.sendTries
    split
    · rename_i e
      exact ih (h.handover.snd e)
    · rename_i e
      exact (h.handover.snd e).putFrame

theorem Keeps.sendFrame {transport f ks} (h : Keeps s t) : Keeps s (t.sendFrame transport f ks) := h.sendTries

/-! ### Cue entries -/

theorem Keeps.cueErrRec {c w code} (h : Keeps s t) : Keeps s (t.cueErrRec c w code) := by
  unfold State.cueErrRec
  dsimp only
  split
  · exact h.modQuire.srcRose
  · exact h.modRoom.srcRose
  · exact h.upd.srcRose

theorem Keeps.countLate {c n} (h : Keeps s t) : Keeps s (t.countLate c n) := h.upd.raiseCue

theorem Keeps.cueBulk {c e} (h : Keeps s t) : Keeps s (t.cueBulk c e) := h.setCue.countLate

theorem Keeps.cueSettle {c late key n} (h : Keeps s t) : Keeps s (t.cueSettle c late key n) := by
  induction n generalizing t late key with
  | zero => exact h
  | succ n ih =>
    unfold State.cueSettle
    exact .ite h (.ite (.ite h.setCue.cueBulk (ih h.setCue)) (.ite (.ite h.setCue.countLate.cueBulk h.setCue.countLate) (.ite h.setCue.countLate h.setCue)))

theorem Keeps.cueDue {c late key} (h : Keeps s t) : Keeps s (t.cueDue c late key) := h.cueSettle

theorem Keeps.cueRestored {c} (h : Keeps s t) : Keeps s (t.cueRestored c) := .ite h (.ite h.setCue h.setCue.upd)

theorem Keeps.cuesReached (h : Keeps s t) : Keeps s t.cuesReached := .ite (h.forL (fun _ _ k => k.cueDue)) h

theorem Keeps.cuesPassed (h : Keeps s t) : Keeps s t.cuesPassed := .ite (h.forL (fun _ _ k => k.cueDue)) h

theorem Keeps.cuesValid (h : Keeps s t) : Keeps s t.cuesValid := h.forL fun _ _ k => k.setCue.cueRestored.cueDue

theorem Keeps.cueArmNow {c e} (h : Keeps s t) : Keeps s (t.cueArmNow c e) := .ite h.setCue.cueDue h.setCue

theorem Keeps.cueDisarmNow {c} (h : Keeps s t) : Keeps s (t.cueDisarmNow c) := h.setCue

theorem Keeps.cueCtlWrite {c w v} (h : Keeps s t) : Keeps s (t.cueCtlWrite c w v) := by
  unfold State.cueCtlWrite
  refine .ite (.ite (.ite h h.cueErrRec) (Keeps.ite h h.cueErrRec).cueDisarmNow) (.ite ?_ h.setCue)
  split
  · exact h.setCue.cueArmNow
  · exact h.setCue.cueErrRec

theorem Keeps.cueRegWrite {c w reg v} (h : Keeps s t) : Keeps s (t.cueRegWrite c w reg v) := by
  unfold State.cueRegWrite
  refine .ite h.cueCtlWrite (.ite h.cueErrRec ?_)
  split
  · exact h.setCue
  · exact h.setCue
  · exact h.setCue

/-! ### Quire registers -/

theorem Keeps.qcCmdValue {r q v} (h : Keeps s t) : Keeps s (t.qcCmdValue r q v) := h.qcCmdWrite

theorem Keeps.qregWrite {r q base v} (h : Keeps s t) : Keeps s (t.qregWrite r q base v) := by
  unfold State.qregWrite
  refine .ite h.cueRegWrite ?_
  split
  · exact h.modQuire.srcWritten
  · exact h.waymapWrite
  · exact h.qcCmdValue
  · exact h.modQuire.srcWritten
  · exact .ite h.hbmwinWrite (.ite h.chanStatWrite h)

theorem Keeps.qregStoreWord {t' off w} (h : Keeps s t) : Keeps s (t.qregStoreWord t' off w) := by
  unfold State.qregStoreWord
  split
  · exact h
  · refine .ite h.setTile (.ite ?_ h.setTile)
    split
    · exact h.setTile.qregWrite
    · exact h.setTile

theorem Keeps.qregStore {t' off l} (h : Keeps s t) : Keeps s (t.qregStore t' off l) := by
  induction l generalizing t off with
  | nil => exact h
  | cons w l ih => exact ih h.qregStoreWord

theorem Keeps.qregLoadWord {t' off} (h : Keeps s t) : Keeps s (t.qregLoadWord t' off).2 := by
  unfold State.qregLoadWord
  split
  · exact .pair h
  · exact .iteSnd (.pair h.modTile) (.pair h)

/-! ### Accesses of a tile core -/

theorem Keeps.storeErr {t' a} (h : Keeps s t) : Keeps s (t.storeErr t' a) := h.modTile.tileFaultRoom

theorem Keeps.xuEcc {t' a} (h : Keeps s t) : Keeps s (t.xuEcc t' a) := h.modTile.tileFaultRoom

theorem Keeps.xrStore {t' off bs} (h : Keeps s t) : Keeps s (t.xrStore t' off bs).2 := by
  unfold State.xrStore
  split
  rename_i e
  refine .pair (Keeps.snd (Keeps.foldl Prod.snd (by exact h) ?_) e).modTile
  intro b c k
  dsimp only
  split
  · rename_i e
    exact .pair (k.xrGran.snd e)
  · rename_i e
    exact .pair (k.xrGran.snd e).putXr

theorem Keeps.hbmStore {t' off bs} (h : Keeps s t) : Keeps s (t.hbmStore t' off bs).2 :=
  h.foldl Prod.snd fun _ _ k => .pair (.iteSnd k.cacheStore k.evict.writeGran)

theorem Keeps.drainEntry {t' e} (h : Keeps s t) : Keeps s (t.drainEntry t' e) := by
  unfold State.drainEntry
  dsimp only
  split
  · exact .ite h.writeMem h.writeMem.storeErr
  · exact .ite h.writeMem h.writeMem.storeErr
  · exact h.qregStore
  · split
    · rename_i e
      exact h.xrStore.snd e
    · rename_i e
      exact (h.xrStore.snd e).xuEcc
  · exact .ite h.hbmStore h.hbmStore.storeErr
  · exact h.storeErr

theorem Keeps.drainOne {t'} (h : Keeps s t) : Keeps s (t.drainOne t').2 := by
  unfold State.drainOne
  split
  · exact .pair h
  · exact .iteSnd (.pair h) (.pair h.modTile.drainEntry)

theorem Keeps.drainN {t' n} (h : Keeps s t) : Keeps s (t.drainN t' n).2 := by
  induction n generalizing t with
  | zero => exact h
  | succ n ih =>
    unfold State.drainN
    split
    · rename_i e
      exact ih (h.drainOne.snd e)
    · rename_i e
      exact .pair (h.drainOne.snd e)

theorem Keeps.drainAll {t'} (h : Keeps s t) : Keeps s (t.drainAll t').2 := h.drainN

theorem Keeps.drainFull {t'} (h : Keeps s t) : Keeps s (t.drainFull t').2 := by
  unfold State.drainFull
  split
  · rename_i e
    exact .pair (h.drainAll.snd e)
  · rename_i e
    exact .iteSnd (.pair (h.drainAll.snd e)) (.pair (h.drainAll.snd e).drainWb)

theorem KeepsNext.storeDrain {t'} (h : Keeps s t) : KeepsNext s (execStoreDrain t' t) := .next h.drainOne

theorem Keeps.hbmGran {t' g} (h : Keeps s t) : Keeps s (t.hbmGran t' g).2 := .iteSnd h.cacheGran h.evict.readGran

/-- A read keeps what its granule reader keeps. -/
theorem Keeps.readVia {rd off n} (h : Keeps s t) (hr : ∀ u g, Keeps s u → Keeps s (rd u g).2) : Keeps s (Machine.readVia rd t off n).2 := by
  unfold Machine.readVia
  split
  rename_i r u e
  have k : Keeps s u := by
    refine Keeps.snd (h.foldl Prod.snd fun b g k => ?_) e
    dsimp only
    split
    · exact k
    · split
      · rename_i e
        exact .pair ((hr _ _ k).snd e)
      · rename_i e
        exact .pair ((hr _ _ k).snd e)
  split
  · exact k
  · exact k

theorem Keeps.loadVia {rd base off n} (h : Keeps s t) (hr : ∀ u g, Keeps s u → Keeps s (rd u g).2) : KeepsMem s (Machine.loadVia rd t base off n) := by
  unfold Machine.loadVia
  split
  · rename_i e
    exact (h.readVia hr).snd e
  · rename_i e
    exact (h.readVia hr).snd e

theorem Keeps.xrLoad {t' off n} (h : Keeps s t) : Keeps s (t.xrLoad t' off n).2 := by
  unfold State.xrLoad
  split
  rename_i e
  refine .pair (Keeps.snd (Keeps.foldl Prod.snd (by exact h) ?_) e).modTile
  intro b g k
  dsimp only
  split
  · rename_i e
    exact .pair (k.xrGran.snd e)
  · rename_i e
    exact .pair (k.xrGran.snd e).spend.xuEcc

theorem Keeps.readWords {t' a n} (h : Keeps s t) : KeepsMem s (t.readWords t' a n) := by
  unfold State.readWords
  dsimp only
  split
  · exact h.loadVia fun _ _ k => k.readGran
  · exact .ite trivial (h.loadVia fun _ _ k => k.readGran)
  · exact h.xrLoad
  · exact .ite trivial (h.loadVia fun _ _ k => k.hbmGran)
  · exact h.foldl Prod.snd fun _ _ k => .pair k.qregLoadWord
  · exact h

theorem Keeps.loadWords {t' a n} (h : Keeps s t) : KeepsMem s (t.loadWords t' a n) := by
  unfold State.loadWords
  refine .ite ?_ ?_
  · split
    · rename_i e
      exact (h.drainN.snd e).readWords
    · rename_i e
      exact trivial
  · dsimp only
    split
    · exact h.readWords
    · refine .ite h.modTile ?_
      split
      · rename_i e
        exact (h.drainN.snd e).readWords
      · rename_i e
        exact trivial

theorem Keeps.load {t' k' a n} (h : Keeps s t) : KeepsMem s (t.load t' k' a n) := by
  unfold State.load
  split
  · exact h
  · exact h.loadWords

theorem Keeps.load16 {t' k' a} (h : Keeps s t) : KeepsMem s (t.load16 t' k' a) := h.load.andThen fun _ _ k => k

theorem Keeps.load32 {t' k' a} (h : Keeps s t) : KeepsMem s (t.load32 t' k' a) := h.load.andThen fun _ _ k => k

theorem Keeps.store {t' k' a ws} (h : Keeps s t) : KeepsMem s (t.store t' k' a ws) := by
  unfold State.store
  split
  · exact h
  · split
    · rename_i e
      exact trivial
    · rename_i e
      exact ((Keeps.iteSnd h.drainOne (.pair h)).snd e).modTile

theorem Keeps.fetchGran {t' g} (h : Keeps s t) : Keeps s (t.fetchGran t' g).2 := by
  unfold State.fetchGran
  refine .iteSnd ?_ h.evict.readGran
  split
  · rename_i e
    exact .pair (h.lineGranBy.snd e)
  · rename_i e
    exact .pair (h.lineGranBy.snd e)
  · rename_i e
    exact (h.lineGranBy.snd e).readGran

theorem Keeps.readLine {t' line} (h : Keeps s t) : Keeps s (t.readLine t' line).2 := by
  have direct (off : Nat) : Keeps s (Machine.readVia (fun s g => s.readGran g) t off 64).2 := h.readVia fun _ _ k => k.readGran
  have cached (off : Nat) : Keeps s (Machine.readVia (fun s g => s.fetchGran t' g) t off 64).2 := h.readVia fun _ _ k => k.fetchGran
  -- Named before the definition opens: the kernel would count the bases of the address map in unary where it compares two reads.
  obtain ⟨base, hb⟩ : ∃ b, scratchBase t' = b := ⟨_, rfl⟩
  obtain ⟨qbase, hq⟩ : ∃ b, qscratchBase (tileQuire t') = b := ⟨_, rfl⟩
  unfold State.readLine
  rw [hb, hq]
  dsimp only
  split
  · split <;> rename_i e
    · exact .pair ((direct _).snd e)
    · exact .pair ((direct _).snd e)
  · split <;> rename_i e
    · exact .pair ((direct _).snd e)
    · exact .pair ((direct _).snd e)
  · split <;> rename_i e
    · exact .pair ((cached _).snd e)
    · exact .pair ((cached _).snd e)
  · exact .pair h

theorem Keeps.icFill {t' line} (h : Keeps s t) : Keeps s (t.icFill t' line).2 := by
  unfold State.icFill
  split
  · rename_i e
    exact .pair (h.readLine.snd e)
  · rename_i e
    refine .iteSnd (.pair (h.readLine.snd e).modTile) ?_
    split
    · rename_i e1
      exact .pair ((h.readLine.snd e).modTile.readLine.snd e1)
    · rename_i e1
      exact .pair ((h.readLine.snd e).modTile.readLine.snd e1).modTile

theorem Keeps.fetchWord {t' a} (h : Keeps s t) : KeepsMem s (t.fetchWord t' a) := by
  unfold State.fetchWord
  split
  · exact h
  · refine .ite h (.ite trivial ?_)
    split
    · rename_i e
      exact h.icFill.snd e
    · rename_i e
      exact h.icFill.snd e

theorem Keeps.fetch {t' a n} (h : Keeps s t) : KeepsMem s (t.fetch t' a n) := by
  induction n generalizing t a with
  | zero => exact h
  | succ n ih => exact h.fetchWord.andThen fun _ _ k => ih k

theorem Keeps.wrongWord {t' a} (h : Keeps s t) : Keeps s (t.wrongWord t' a) := .ite h (.ite h.modTile h.modTile.modTile)

theorem Keeps.wrongPath {t' a} (h : Keeps s t) : Keeps s (t.wrongPath t' a) := h.spend.spend.modTile.forN fun _ _ k => k.wrongWord

/-! ### Instructions of a tile core -/

theorem Keeps.haltTile {t' cause} (h : Keeps s t) : Keeps s (t.haltTile t' cause) := by
  unfold State.haltTile
  dsimp only
  split
  · exact h.dropTileWaits.discardQueue.modTile.raiseRoom
  · exact h.dropTileWaits.discardQueue.modTile

theorem Keeps.takeSync {t' code addr} (h : Keeps s t) : Keeps s (t.takeSync t' code addr) :=
  .ite (Keeps.ite h.tileFaultRoom h).haltTile.tileFaultRoom (Keeps.ite h.tileFaultRoom h).setTile

theorem Keeps.cyclePerf {t'} (h : Keeps s t) : Keeps s (t.cyclePerf t') := h.forN fun _ _ k => .ite k.modTile.spend k

/-- An instruction keeps what its body keeps. -/
theorem Keeps.runInstr {t' n body} (h : Keeps s t) (hb : ∀ u, Keeps s u → KeepsMem s (body u)) : Keeps s (t.runInstr t' n body) := by
  unfold State.runInstr
  refine .ite ?_ h
  dsimp only
  have k : KeepsMem s (((t.cyclePerf t').fetch t' (t.tile t').pc.toNat n).andThen fun _ s => body s) := h.cyclePerf.fetch.andThen fun _ u => hb u
  split
  · rename_i e
    exact (k.ok e).modTile
  · rename_i e
    exact k.ok e
  · rename_i e
    exact (k.fault e).takeSync
  · exact h

theorem Keeps.regInstr {t' words f} (h : Keeps s t) : Keeps s (t.regInstr t' words f) := h.runInstr fun _ k => k.modTile

theorem Keeps.faultInstr {t' words code addr} (h : Keeps s t) : Keeps s (t.faultInstr t' words code addr) := h.runInstr fun _ k => k

theorem Keeps.finish {t' words f} (h : Keeps s t) : KeepsMem s (t.finish t' words f) := h.modTile

theorem KeepsNext.interruptAccept {t'} (h : Keeps s t) : KeepsNext s (execInterruptAccept t' t) := by
  unfold execInterruptAccept
  refine .next (.ite ?_ h)
  split
  · exact h
  · exact h.dropTileWaits.cyclePerf.modTile

theorem KeepsNext.asyncFault {t'} (h : Keeps s t) : KeepsNext s (execAsyncFault t' t) := by
  unfold execAsyncFault
  refine .next (.ite ?_ h)
  split
  · exact h
  · exact h.dropTileWaits.cyclePerf.modTile

/-! ### Rooms -/

theorem Keeps.recordRefusal {v bs row plan form} (h : Keeps s t) : Keeps s (t.recordRefusal v bs row plan form) := .ite h.upd.upd h.upd

theorem Keeps.beginForm {f acc} (h : Keeps s t) : Keeps s (t.beginForm f acc) := h.leaveIdle.activity.setRoom.forL fun _ _ k => k.askWake

theorem Keeps.enterRoom {q groups} (h : Keeps s t) : Keeps s (t.enterRoom q groups) :=
  (h.applyMarks.forL (fun _ _ k => k.clearScratch.setTile)).clearQscratch.setQuire

theorem Keeps.zeroTallies {base n} (h : Keeps s t) : Keeps s (t.zeroTallies base n) := h.upd

theorem Keeps.bindFabric {r f} (h : Keeps s t) : Keeps s (t.bindFabric r f) :=
  .ite (h.zeroTallies.upd.forL (fun _ _ k => k.upd)) (h.zeroTallies.forL (fun _ _ k => k.upd.sendCtrl))

theorem Keeps.clearRoomParts {r f} (h : Keeps s t) : Keeps s (t.clearRoomParts r f) := h.upd

theorem Keeps.endForm {r f} (h : Keeps s t) : Keeps s (t.endForm r f) := by
  unfold State.endForm
  refine .raiseRoom (.modRoom (.clearRoomParts ?_))
  have k : Keeps s (((formQuires f).zip f.perQuire).foldl (fun s (q, p) => s.enterRoom q p.groups.toNat) t) := h.foldl id fun _ _ k => k.enterRoom
  exact .ite k.zeroTallies k.zeroTallies.bindFabric

theorem Keeps.jobEnds {j code} (h : Keeps s t) : Keeps s (t.jobEnds j code) := h.upd.event

theorem Keeps.endQueuedJobs {r code} (h : Keeps s t) : Keeps s (t.endQueuedJobs r code) := h.upd.forL fun _ _ k => k.jobEnds

theorem Keeps.stopRunningJob {r code} (h : Keeps s t) : Keeps s (t.stopRunningJob r code) := h.upd

theorem Keeps.beginDissolve {r} (h : Keeps s t) : Keeps s (t.beginDissolve r) :=
  (h.modRoom.disarmCues.upd.forL (fun _ _ k => .ite k k.modTile.dropTileWaits.discardQueue)).forL fun _ _ k => k.chanAbort

theorem Keeps.stopJobs {r} (h : Keeps s t) : Keeps s (t.stopJobs r) := h.endQueuedJobs.stopRunningJob

theorem Keeps.leaveRoom {q} (h : Keeps s t) : Keeps s (t.leaveRoom q) :=
  .ite h.setQuire (h.forL (fun _ _ k => .ite k k.drainAll.discardQueue.saveUnits.setTile)).flushCache.clearQscratch.setQuire

theorem Keeps.releaseTallies {r f} (h : Keeps s t) : Keeps s (t.releaseTallies r f) := h.upd

theorem Keeps.releasePipes {r} (h : Keeps s t) : Keeps s (t.releasePipes r) := h.upd

theorem Keeps.endDissolve {r f} (h : Keeps s t) : Keeps s (t.endDissolve r f) :=
  ((h.forL (fun _ _ k => k.leaveRoom)).releaseTallies.clearRoomParts.releasePipes.forL (fun _ _ k => k.setChan)).upd.setRoom

theorem KeepsNext.hbmUnitCleared (h : Keeps s t) : KeepsNext s (execHbmUnitCleared t) := by
  unfold execHbmUnitCleared
  refine .next ?_
  split
  · exact h
  · exact h.upd.clearMem

theorem Keeps.beginReset {r flr} (h : Keeps s t) : Keeps s (t.beginReset r flr) := by
  unfold State.beginReset
  exact (((Keeps.ite h.roomFault h).disarmCues.forL (fun _ _ k => .ite k k.modTile.dropTileWaits)).forL (fun _ _ k => k.chanAbort)).modRoom

theorem Keeps.endReset {r} (h : Keeps s t) : Keeps s (t.endReset r) := by
  unfold State.endReset
  refine .raiseRoom (.modRoom (.upd ?_))
  split
  · exact ((h.forL (fun _ _ k => .ite k k.modTile)).forL (fun _ _ k => .ite k k.modQuire)).forL fun _ _ k => k.setWatch
  · exact (h.forL (fun _ _ k => .ite k k.modTile)).forL fun _ _ k => .ite k k.modQuire

theorem Keeps.settleReset {r} (h : Keeps s t) : Keeps s (t.settleReset r) := .ite h.endReset h

theorem Keeps.giveUp {r c} (h : Keeps s t) : Keeps s (t.giveUp r c) := .ite (.ite h.modChan.abortEnd h.modChan.wakeForStatus) h

theorem Keeps.qosEffect {bs} (h : Keeps s t) : KeepsEff s (t.qosEffect bs) := by
  unfold State.qosEffect
  dsimp only
  split
  · exact h
  · exact .ite h (.ite h h.modRoom)

theorem Keeps.formEffect {acc bs} (h : Keeps s t) : KeepsEff s (t.formEffect acc bs) := by
  unfold State.formEffect
  split
  · exact h.beginForm
  · exact h.recordRefusal

theorem Keeps.dissolveEffect {r} (h : Keeps s t) : KeepsEff s (t.dissolveEffect r) := .ite h.beginDissolve h

theorem Keeps.resetEffect {r} (h : Keeps s t) : KeepsEff s (t.resetEffect r) := by
  unfold State.resetEffect
  refine .ite ?_ h
  extract_lets u
  have k : Keeps s u := h.beginReset
  clear_value u
  exact .ite k.endReset k

theorem Keeps.declareEffect {bs} (h : Keeps s t) : KeepsEff s (t.declareEffect bs) := .ite h.roomFault h

theorem Keeps.planEffect {bs} (h : Keeps s t) : KeepsEff s (t.planEffect bs) := by
  unfold State.planEffect
  split
  · exact .ite h.upd h
  · exact h

theorem Keeps.withoutRoom {r} (h : Keeps s t) : Keeps s (t.withoutRoom r) := h.upd.setRoom

theorem Keeps.withRoom {f} (h : Keeps s t) : Keeps s (t.withRoom f) := h.setRoom

/-- A plan that fails keeps what the state it is checked against kept. -/
theorem Keeps.planFails {k l x} (h : Keeps s t) (hx : Machine.planFails k t l = some x) : Keeps s x.2.2.2 := by
  induction l generalizing t k with
  | nil => cases hx
  | cons bs l ih =>
    unfold Machine.planFails at hx
    split at hx
    · exact ih h.setRoom hx
    · cases hx
      exact h

/-! ### BAR0 -/

theorem Keeps.cfgRefused {owner} (h : Keeps s t) : Keeps s (t.cfgRefused owner) := .ite h h.raiseRoom

theorem Keeps.irSrcWrite {owner n v} (h : Keeps s t) : Keeps s (t.irSrcWrite owner n v) := .ite h.cfgRefused h.upd.srcRose

theorem Keeps.irVecWrite {owner k' v} (h : Keeps s t) : Keeps s (t.irVecWrite owner k' v) := h.setIrVec

theorem Keeps.irSlotWrite {owner n v} (h : Keeps s t) : Keeps s (t.irSlotWrite owner n v) := .ite h.upd h.cfgRefused

theorem Keeps.msixFlush {f k'} (h : Keeps s t) : Keeps s (t.msixFlush f k') := .ite h.setFn.sendMsix h

theorem Keeps.msixWrite {f o size v} (h : Keeps s t) : Keeps s (t.msixWrite f o size v) := h.modFn.msixFlush

theorem Keeps.mbxCtlWrite {f v} (h : Keeps s t) : Keeps s (t.mbxCtlWrite f v) :=
  .ite (.ite h h.mbxStop) (.ite h.modMbx (.ite h.modMbx.mbxError h.modMbx.modMbx))

theorem Keeps.mbxTailWrite {f v} (h : Keeps s t) : Keeps s (t.mbxTailWrite f v) := .ite h.modMbx.mbxError h.modMbx

theorem Keeps.mbxHeadWrite {f v} (h : Keeps s t) : Keeps s (t.mbxHeadWrite f v) := h.modMbx.mbxPump

theorem Keeps.hostSideWrite {f base v} (h : Keeps s t) : Keeps s (t.hostSideWrite f base v) := by
  unfold State.hostSideWrite
  split
  · exact h.modFn.srcWritten
  · exact h.mbxCtlWrite
  · exact .ite h h.modMbx
  · exact .ite h h.modMbx
  · exact h.mbxTailWrite
  · exact h.mbxHeadWrite
  · exact h

theorem Keeps.irWrite {owner base v} (h : Keeps s t) : Keeps s (t.irWrite owner base v) := .ite h.irSrcWrite (.ite h.irVecWrite h.irSlotWrite)

theorem Keeps.quireBlockWrite {r q base v} (h : Keeps s t) : Keeps s (t.quireBlockWrite r q base v) :=
  .ite h.askWake.modQuire (Keeps.ite h.askWake h).qregWrite

theorem Keeps.dmaRegWrite {n reg v} (h : Keeps s t) : Keeps s (t.dmaRegWrite n reg v) := by
  unfold State.dmaRegWrite
  dsimp only
  split
  · exact h.dmaCtrlWrite
  · exact h.chanStatWrite
  · exact h.modChan
  · exact h

theorem Keeps.roomCtlWrite {r v} (h : Keeps s t) : Keeps s (t.roomCtlWrite r v) :=
  .ite (Keeps.ite h.roomFault h).beginReset.settleReset (.ite h.roomFault h)

theorem Keeps.roomRegWrite {r base v} (h : Keeps s t) : Keeps s (t.roomRegWrite r base v) := by
  unfold State.roomRegWrite
  refine .ite ?_ (.ite h.tallyAdvWrite (.ite (.ite h.cueRegWrite h.cueErrRec) (.ite (.ite h.watchValueWrite h.watchCtlWrite) (.ite h.dmaRegWrite (.ite h.irWrite (.ite h.quireBlockWrite h))))))
  split
  · exact h.roomCtlWrite
  · exact h.modRoom.srcWritten
  · exact h.modFn
  · exact h.modRoom.srcWritten
  · exact h.modRoom.srcWritten
  · exact h

theorem Keeps.devRegWrite {base v} (h : Keeps s t) : Keeps s (t.devRegWrite base v) :=
  .ite h.upd.srcWritten (.ite h.upd.srcWritten (.ite h.cueErrRec (.ite h.irWrite (.ite h.modPort.srcWritten h))))

theorem Keeps.regPut {f base v} (h : Keeps s t) : Keeps s (t.regPut f base v) :=
  .ite h.hostSideWrite (.ite h.devRegWrite (.ite h.modFn (.ite h.roomRegWrite h)))

theorem Keeps.roomRegRead {r base} (h : Keeps s t) : Keeps s (t.roomRegRead r base).2 :=
  .iteSnd (.pair h) (.iteSnd (.pair h.tallyValRead) (.iteSnd (.pair h) (.iteSnd (.pair h) (.iteSnd (.pair h) (.iteSnd (.pair h) (.iteSnd (.pair h) (.pair h)))))))

theorem Keeps.regGet {f base} (h : Keeps s t) : Keeps s (t.regGet f base).2 :=
  .iteSnd (.pair h) (.iteSnd (.pair h) (.iteSnd (.pair h) (.iteSnd (.pair h) (.iteSnd h.roomRegRead (.pair h)))))

theorem Keeps.bar0Write {f off size v} (h : Keeps s t) : Keeps s (t.bar0Write f off size v) := by
  unfold State.bar0Write
  refine .ite h.hostErrRec (.ite (.ite h.msixWrite h) ?_)
  split
  · exact h
  · refine .ite h.hostErrRec (.ite h.hostErrRec (.ite h (.ite (.ite (.ite h.regPut h) (.ite h.modFn ?_)) h.modFn.regPut)))
    split
    · exact .ite h.modFn.regPut h.hostErrRec
    · exact h.hostErrRec

theorem Keeps.bar0Read {f off size} (h : Keeps s t) : Keeps s (t.bar0Read f off size).2 := by
  unfold State.bar0Read
  refine .iteSnd (.pair h.hostErrRec) (.iteSnd (.pair h) ?_)
  split
  · exact .pair h
  · refine .iteSnd (.pair h.hostErrRec) (.iteSnd (.pair h.hostErrRec) (.iteSnd ?_ (.iteSnd (.pair h.regGet.modFn) (.pair h.regGet))))
    split
    · exact .pair h.modFn
    · exact .pair h.regGet

end

end Sys2Proof.Machine
end

section
/-! What the compositor, the Position Clock, cues, fabric ports and the host attachment keep (R29 to R91, R323 to R350, R392 to R434, R493 to R517). -/

namespace Sys2Proof.Machine

set_option Elab.async false

section
variable {s t u : State} {α : Type}

/-! ### Glaze -/

theorem Keeps.setPipe {p x} (h : Keeps s t) : Keeps s (t.setPipe p x) := h.upd

theorem Keeps.modPipe {p f} (h : Keeps s t) : Keeps s (t.modPipe p f) := h.setPipe

theorem Keeps.requestCommit {p} (h : Keeps s t) : Keeps s (t.requestCommit p) := h.modPipe

theorem Keeps.readEnds {p} (h : Keeps s t) : Keeps s (t.readEnds p) := .ite h.modPipe.modPipe.requestCommit h.modPipe

theorem Keeps.refuseCommit {p code layer} (h : Keeps s t) : Keeps s (t.refuseCommit p code layer) := h.modPipe

theorem Keeps.dropLayerWaits {p} (h : Keeps s t) : Keeps s (t.dropLayerWaits p) := h.upd

theorem Keeps.acceptCommit {p i} (h : Keeps s t) : Keeps s (t.acceptCommit p i) := h.dropLayerWaits.modPipe.forN fun _ _ k => .ite k.registerWait k

theorem KeepsNext.shadowCheck {p} (h : Keeps s t) : KeepsNext s (execShadowCheck p t) := by
  unfold execShadowCheck
  refine .next (.settle ?_)
  dsimp only
  split
  · refine .ite h.refuseCommit.readEnds ?_
    split
    · rename_i e
      exact (h.readMem.snd e).refuseCommit.readEnds
    · rename_i e
      split
      · rename_i e1
        exact ((h.readMem.snd e).readMem.snd e1).refuseCommit.readEnds
      · rename_i e1
        split
        · exact ((h.readMem.snd e).readMem.snd e1).acceptCommit.readEnds
        · exact ((h.readMem.snd e).readMem.snd e1).refuseCommit.readEnds
  · exact h

theorem KeepsNext.decisionPoint {p} (h : Keeps s t) : KeepsNext s (execDecisionPoint p t) := .next h.modPipe

theorem KeepsNext.frameBoundary {p underrun} (h : Keeps s t) : KeepsNext s (execFrameBoundary p underrun t) :=
  .next (Keeps.ite h.sweep.spend.setPipe h.sweep.spend.setPipe).settle

theorem Keeps.pipesLock {v} (h : Keeps s t) : Keeps s (State.pipesLock v t) :=
  h.forN fun _ _ k => .ite (k.spend.forN fun _ _ k => .ite k.upd k) k.spend

theorem Keeps.assignEffect {r p} (h : Keeps s t) : KeepsEff s (t.assignEffect r p) := .ite h (.ite h (.ite h h.modPipe))

theorem Keeps.shadowEffect {r p shadow coef} (h : Keeps s t) : KeepsEff s (t.shadowEffect r p shadow coef) := .ite h (.ite h h.modPipe)

theorem Keeps.commitEffect {r mask} (h : Keeps s t) : KeepsEff s (t.commitEffect r mask) := .ite h (h.forL (fun _ _ k => k.requestCommit))

theorem Keeps.setVid {o x} (h : Keeps s t) : Keeps s (t.setVid o x) := by
  unfold State.setVid
  split
  · exact h.upd
  · exact h.upd

theorem KeepsNext.hotPlugDetect {high} (h : Keeps s t) : KeepsNext s (execHotPlugDetect high t) := .next h.upd.settle

theorem KeepsNext.dpLinkTraining {d} (h : Keeps s t) : KeepsNext s (execDpLinkTraining d t) := by
  unfold execDpLinkTraining
  refine .next (.settle (.ite h ?_))
  dsimp only
  split
  · exact h.upd
  · exact .ite h.upd h

theorem KeepsNext.currentLimit {o} (h : Keeps s t) : KeepsNext s (execCurrentLimit o t) := .next (.ite h.setVid (.ite h.setVid h))

theorem KeepsNext.outputFault {o} (h : Keeps s t) : KeepsNext s (execOutputFault o t) := .next (Keeps.ite h.setVid h).settle

theorem KeepsNext.faultRetry {o} (h : Keeps s t) : KeepsNext s (execFaultRetry o t) := .next (.ite h.setVid h)

theorem KeepsNext.retryEnd {o} (h : Keeps s t) : KeepsNext s (execRetryEnd o t) := .next (Keeps.ite h.setVid h).settle

theorem KeepsNext.shortRemoved {o} (h : Keeps s t) : KeepsNext s (execShortRemoved o t) := .next (.ite h.setVid h)

/-! ### The Position Clock -/

theorem Keeps.modClk {f} (h : Keeps s t) : Keeps s (t.modClk f) := h.upd

theorem Keeps.lock {p} (h : Keeps s t) : Keeps s (t.lock p) := (Keeps.ite h.modClk.raisePos h.modClk.raisePos.cuesValid).pipesLock

theorem Keeps.holdover (h : Keeps s t) : Keeps s t.holdover := .ite h.modClk.raisePos h.modClk

theorem Keeps.acquire (h : Keeps s t) : Keeps s t.acquire := by
  unfold State.acquire
  refine .ite h ?_
  split
  · exact h.modClk
  · exact h.modClk.lock
  · exact h.modClk

theorem Keeps.moveTo {x offset} (h : Keeps s t) : Keeps s (t.moveTo x offset) := .ite h.modClk.lock h.modClk

theorem Keeps.ownKeeper (h : Keeps s t) : Keeps s t.ownKeeper := .ite h.modClk h

theorem Keeps.clockFree (h : Keeps s t) : Keeps s t.clockFree :=
  (Keeps.ite (Keeps.ite h.modClk.raisePos h.modClk).raisePos (.ite h.modClk.raisePos h.modClk)).ownKeeper.acquire

theorem KeepsNext.positionTick (h : Keeps s t) : KeepsNext s (execPositionTick t) := .next (.ite h.modClk.cuesReached h)

theorem Keeps.nowPresent {x} (h : Keeps s t) : Keeps s (t.nowPresent x) := by
  unfold State.nowPresent
  extract_lets u
  have k : Keeps s u := h.modClk.ownKeeper
  exact .ite (.ite k.acquire k) (.ite (.ite (.ite k.moveTo k) (.ite k.moveTo k)) k)

theorem Keeps.endMeasure {x} (h : Keeps s t) : Keeps s (t.endMeasure x) := by
  unfold State.endMeasure
  exact h.modClk

theorem Keeps.leaveSource {x} (h : Keeps s t) : Keeps s (t.leaveSource x) := by
  unfold State.leaveSource
  refine .ite ?_ h
  split
  · dsimp only
    split
    · exact .ite (Keeps.ite h.holdover h.modClk).moveTo (.ite h.holdover h.modClk)
    · exact .ite h.holdover h.modClk
  · dsimp only
    split
    · exact .ite (Keeps.ite h.holdover h.modClk).moveTo (.ite h.holdover h.modClk)
    · exact .ite h.holdover h.modClk
  · exact h.acquire

theorem Keeps.nowLost {x} (h : Keeps s t) : Keeps s (t.nowLost x) := h.endMeasure.modClk.leaveSource

theorem KeepsNext.sourceLost {src} (h : Keeps s t) : KeepsNext s (execSourceLost src t) := by
  unfold execSourceLost
  refine .next (.settle ?_)
  split
  · exact h
  · exact h.nowLost.modClk
  · exact h.nowLost.modClk
  · exact h.nowLost

theorem Keeps.newFormat {fmt} (h : Keeps s t) : Keeps s (t.newFormat fmt) :=
  .ite h (.ite h.modClk.raisePos.nowLost (.ite h.modClk (Keeps.ite h.modClk h.modClk.raisePos).nowLost))

theorem KeepsNext.sourcePresent {src fmt} (h : Keeps s t) : KeepsNext s (execSourcePresent src fmt t) := by
  unfold execSourcePresent
  refine .next (.settle ?_)
  split
  · exact .ite h.newFormat.nowPresent (.ite h.raisePos.nowLost h.newFormat)
  · exact .ite h.nowPresent h
  · exact h.nowPresent

theorem KeepsNext.formatChange {fmt} (h : Keeps s t) : KeepsNext s (execFormatChange fmt t) := .next h.newFormat.settle

theorem Keeps.reportOffset {x offsetNs} (h : Keeps s t) : Keeps s (t.reportOffset x offsetNs) := by
  unfold State.reportOffset
  refine .ite h.modClk ?_
  split
  · exact .ite (.ite h.modClk h) (.ite h.modClk h)
  · exact .ite h.modClk h

theorem KeepsNext.analogReferencePoint {fmt offsetNs} (h : Keeps s t) : KeepsNext s (execAnalogReferencePoint fmt offsetNs t) :=
  .next (Keeps.ite h.newFormat h.newFormat.reportOffset).settle

theorem KeepsNext.ptpSync {port m offsetNs} (h : Keeps s t) : KeepsNext s (execPtpSync port m offsetNs t) :=
  .next (.ite h (.ite h.modClk (.ite h.modClk.modClk.emit.reportOffset h.modClk.modClk.emit)))

theorem KeepsNext.lockGained {frame line tick sincePtp} (h : Keeps s t) : KeepsNext s (execLockGained frame line tick sincePtp t) := by
  unfold execLockGained
  refine .next (.settle ?_)
  split
  · exact h
  · refine .ite h (.ite (.ite h.modClk.cuesValid.pipesLock h) ?_)
    split
    · exact .ite h.lock h
    · exact h.lock
    · exact h

theorem KeepsNext.step {p offsetNs} (h : Keeps s t) : KeepsNext s (execStep p offsetNs t) := .next (.ite h.modClk.raisePos.cuesPassed h)

theorem Keeps.stepToEffect {p} (h : Keeps s t) : KeepsEff s (t.stepToEffect p) := .ite h (.ite h h.modClk.raisePos.cuesPassed)

theorem Keeps.judged {x bad offsetNs} (h : Keeps s t) : Keeps s (t.judged x bad offsetNs) := by
  unfold State.judged
  exact h.modClk

theorem KeepsNext.disagree {x offsetNs} (h : Keeps s t) : KeepsNext s (execDisagree x offsetNs t) := .next (.ite (.ite h.judged h.judged.raisePos) h)

theorem KeepsNext.disagreeClear {x offsetNs} (h : Keeps s t) : KeepsNext s (execDisagreeClear x offsetNs t) := .next (.ite h.judged h)

theorem KeepsNext.switchToSecondary {offsetNs} (h : Keeps s t) : KeepsNext s (execSwitchToSecondary offsetNs t) := by
  unfold execSwitchToSecondary
  refine .next (.settle ?_)
  split
  · exact .ite h.moveTo h
  · exact h

theorem KeepsNext.revertToPrimary {offsetNs} (h : Keeps s t) : KeepsNext s (execRevertToPrimary offsetNs t) := by
  unfold execRevertToPrimary
  refine .next (.settle ?_)
  split
  · exact .ite h.moveTo h
  · exact h

theorem KeepsNext.aged (h : Keeps s t) : KeepsNext s (execAged t) := .next (.ite h.modClk.raisePos h)

theorem KeepsNext.syncWordSend {p txTs} (h : Keeps s t) : KeepsNext s (execSyncWordSend p txTs t) := .next (.ite h (Keeps.ite h.modClk h).emit)

theorem Keeps.takeParent {p h' w} (h : Keeps s t) : Keeps s (t.takeParent p h' w) := .ite h.modClk.leaveSource h.modClk

theorem Keeps.followKeeper (h : Keeps s t) : Keeps s t.followKeeper := .ite h.modClk.raisePos h

theorem Keeps.followStep {p w} (h : Keeps s t) : Keeps s (t.followStep p w) := .ite h.modClk.raisePos.cuesPassed h

theorem Keeps.sameKeeper {p w stepTo} (h : Keeps s t) : Keeps s (t.sameKeeper p w stepTo) :=
  .ite (.ite h.takeParent.nowPresent.followKeeper.followStep h.takeParent.nowPresent.followKeeper) h

theorem Keeps.otherKeeper {p w} (h : Keeps s t) : Keeps s (t.otherKeeper p w) :=
  .ite (.ite h.holdover.modClk.takeParent.raisePos.nowPresent h) (.ite (.ite h.takeParent.nowPresent h.takeParent.nowPresent.raisePos) h)

theorem Keeps.parentLost {p} (h : Keeps s t) : Keeps s (t.parentLost p) := .ite h.nowLost.modClk h

theorem Keeps.takeSyncWord {p w tRx stepTo} (h : Keeps s t) : Keeps s (t.takeSyncWord p w tRx stepTo) :=
  .ite h.modPort (.ite h.modPort.parentLost (.ite h.modPort.sameKeeper (.ite h.modPort h.modPort.otherKeeper)))

theorem Keeps.loseUp {p} (h : Keeps s t) : Keeps s (t.loseUp p) := .ite h.holdPort.parentLost.settle h.holdPort

theorem Keeps.lcrcBad {p} (h : Keeps s t) : Keeps s (t.lcrcBad p) := .ite h.badFlit.loseUp h.badFlit

theorem KeepsNext.syncWord {p h' payload tRx stepTo} (h : Keeps s t) : KeepsNext s (execSyncWord p h' payload tRx stepTo t) :=
  .next (Keeps.ite h (.ite h.codewords.lcrcBad h.codewords.takeReturns.takeSyncWord)).settle

theorem Keeps.flood {ty body inPort} (h : Keeps s t) : Keeps s (t.flood ty body inPort) := by
  unfold State.flood
  refine .forL h fun a u k => ?_
  dsimp only
  split
  · rename_i e
    exact k.handover.snd e
  · rename_i e
    exact (k.handover.snd e).enqueue

theorem Keeps.startElection (h : Keeps s t) : Keeps s t.startElection := .ite h.nowLost.modClk.modClk.flood h.nowLost.modClk.modClk

theorem KeepsNext.keeperLost (h : Keeps s t) : KeepsNext s (execKeeperLost t) := .next (Keeps.ite h h.startElection).settle

theorem Keeps.dropKeeper (h : Keeps s t) : Keeps s t.dropKeeper := .ite h (Keeps.ite h.holdover.modClk h.modClk).modClk.startElection

theorem Keeps.domainFollows {was} (h : Keeps s t) : Keeps s (t.domainFollows was) := by
  unfold State.domainFollows
  refine .ite (.ite ?_ h.nowLost.modClk.ownKeeper.acquire) (.ite h.modClk.dropKeeper h.ownKeeper)
  split
  · exact .ite h.nowLost.modClk.ownKeeper.moveTo h.nowLost.modClk.ownKeeper
  · exact h.nowLost.modClk.ownKeeper

theorem KeepsNext.candidacy {p dev epoch} (h : Keeps s t) : KeepsNext s (execCandidacy p dev epoch t) := by
  unfold execCandidacy
  refine .next ?_
  dsimp only
  split
  · exact h
  · refine .ite h ?_
    split
    · rename_i e
      exact h.takeArrived.point7.snd e
    · rename_i e
      exact .ite (h.takeArrived.point7.snd e) (.ite (h.takeArrived.point7.snd e).modClk.flood (h.takeArrived.point7.snd e).modClk)

theorem KeepsNext.electionClose (h : Keeps s t) : KeepsNext s (execElectionClose t) := by
  unfold execElectionClose
  refine .next (.settle ?_)
  split
  · exact h
  · refine .ite (.ite h.modClk.modClk.raisePos.acquire ?_) h.modClk
    split
    · exact .ite h.modClk.modClk.raisePos.moveTo h.modClk.modClk.raisePos
    · exact h.modClk.modClk.raisePos

/-! ### Cues -/

theorem Keeps.cueMissed {c code} (h : Keeps s t) : Keeps s (t.cueMissed c code) := h.setCue.upd.raiseCue

theorem Keeps.countDelayed {c} (h : Keeps s t) : Keeps s (t.countDelayed c) := h.upd.raiseCue

theorem Keeps.cueIssued {c delayed} (h : Keeps s t) : Keeps s (t.cueIssued c delayed) := (Keeps.ite h.activity.countDelayed h.activity).setCue.cueDue

theorem Keeps.fireEnds {c miss delayed} (h : Keeps s t) : Keeps s (t.fireEnds c miss delayed) := (Keeps.ite h h.cueMissed).cueIssued

theorem Keeps.launchAt {t' a} (h : Keeps s t) : Keeps s (t.launchAt t' a).2 := .iteSnd (.pair h.modTile) (.pair h.setTile)

theorem Keeps.launchMask {q m a} (h : Keeps s t) : Keeps s (t.launchMask q m a).2 := Keeps.foldl Prod.snd (by exact h) fun _ _ k => .pair k.launchAt

theorem Keeps.launch3 {c e} (h : Keeps s t) : Keeps s (t.launch3 c e) := .ite h.askWake.launchMask.fireEnds h.askWake.modQuire.fireEnds

theorem Keeps.deliverLaunches {q} (h : Keeps s t) : Keeps s (t.deliverLaunches q) :=
  Keeps.foldl id h.modQuire fun _ _ k => .ite k.launchMask k.launchMask.cueMissed

theorem KeepsNext.advanceTally {c} (h : Keeps s t) : KeepsNext s (execAdvanceTally c t) := by
  unfold execAdvanceTally
  refine .next (.ite (.fireEnds ?_) h)
  split
  · exact h.tryAdvance
  · exact h.upd

theorem KeepsNext.startDma {c} (h : Keeps s t) : KeepsNext s (execStartDma c t) := .next (.ite (.ite h.fireEnds h.dmaStart.fireEnds) h)

theorem KeepsNext.launchTask {c} (h : Keeps s t) : KeepsNext s (execLaunchTask c t) := .next (.ite (.ite h.fireEnds h.launch3) h)

theorem KeepsNext.glazeCommit {c} (h : Keeps s t) : KeepsNext s (execGlazeCommit c t) :=
  .next (.ite (h.forL (fun _ _ k => k.requestCommit)).fireEnds h)

theorem KeepsNext.haltAtCueBoundary {room} (h : Keeps s t) : KeepsNext s (execHaltAtCueBoundary room t) :=
  .next (.ite h.modRoom.disarmCues.haltTiles h)

/-! ### Fabric ports -/

theorem Keeps.deviceLost {n} (h : Keeps s t) : Keeps s (t.deviceLost n) := by
  unfold State.deviceLost
  refine .forN (.ite h.startElection h) fun a u k => ?_
  split
  · exact .ite k (.ite (.ite k.roomFault k) (.ite k.roomFault k))
  · exact k

theorem Keeps.routesChanged {before} (h : Keeps s t) : Keeps s (t.routesChanged before) := h.upd.forL fun _ _ k => k.deviceLost

theorem Keeps.floodRoutes (h : Keeps s t) : Keeps s t.floodRoutes := h.upd.flood

theorem Keeps.installRoute {u'} (h : Keeps s t) : Keeps s (t.installRoute u') := (Keeps.ite h.upd.deviceLost h.upd).routesChanged

theorem KeepsNext.routeUpdate {p u'} (h : Keeps s t) : KeepsNext s (execRouteUpdate p u' t) := by
  unfold execRouteUpdate
  refine .next ?_
  split
  · exact h
  · refine .ite h ?_
    split
    · rename_i e
      exact h.takeArrived.point7.snd e
    · rename_i e
      exact .ite (h.takeArrived.point7.snd e) (h.takeArrived.point7.snd e).installRoute.flood.settle

theorem Keeps.sendErr {k' err} (h : Keeps s t) : Keeps s (t.sendErr k' err) := h.originate

theorem Keeps.failReq {c q code point} (h : Keeps s t) : Keeps s (t.failReq c q code point) := h.modChan

theorem Keeps.discardPacket {peer k'} (h : Keeps s t) : Keeps s (t.discardPacket peer k') := by
  unfold State.discardPacket
  refine .ite (.ite h h.launch) (.ite (.ite ?_ h.sendErr) h)
  split
  · exact h.failReq
  · exact h

theorem Keeps.discardAll {peer l} (h : Keeps s t) : Keeps s (t.discardAll peer l) := h.forL fun _ _ k => k.discardPacket

theorem Keeps.refusePeer {p cause} (h : Keeps s t) : Keeps s (t.refusePeer p cause) := h.modPort.raisePort

theorem KeepsNext.trainComplete {p lanes} (h : Keeps s t) : KeepsNext s (execTrainComplete p lanes t) :=
  .next (.ite h (.ite h.refusePeer h.modPort.emit))

theorem KeepsNext.exchSend {p} (h : Keeps s t) : KeepsNext s (execExchSend p t) := .next (.ite h.emit h)

theorem Keeps.portUp {p} (h : Keeps s t) : Keeps s (t.portUp p) := h.modPort.raisePort

theorem Keeps.payCredits {p} (h : Keeps s t) : Keeps s (t.payCredits p) := h.modPort.forL fun _ _ k => k.emit

theorem Keeps.resumeSession {p e} (h : Keeps s t) : Keeps s (t.resumeSession p e) := by
  unfold State.resumeSession
  exact h.modPort.portUp.raisePort.resend.payCredits.floodRoutes.pump

theorem Keeps.freshSession {p e} (h : Keeps s t) : Keeps s (t.freshSession p e) := by
  unfold State.freshSession
  extract_lets before old again u₁ u₂ u₃ u₄ u₅ up upd u₆
  have h₅ : Keeps s u₅ := h.setPort.upd.portUp.discardAll.floodRoutes
  have h₆ : Keeps s u₆ := h₅.modCnt.raisePort.flood
  exact (Keeps.ite (.ite h₆.upd.deviceLost h₆.deviceLost) h₅).routesChanged.pump

theorem KeepsNext.exchFlit {p lcrcOk payload} (h : Keeps s t) : KeepsNext s (execExchFlit p lcrcOk payload t) := by
  unfold execExchFlit
  refine .next (.ite h (.ite h.badFlit ?_))
  split
  · exact .ite h.resumeSession h.freshSession.settle
  · exact h.refusePeer

theorem KeepsNext.linkLost {p} (h : Keeps s t) : KeepsNext s (execLinkLost p t) := by
  unfold execLinkLost
  refine .next ?_
  dsimp only
  split
  · exact h.loseUp
  · exact .ite h.holdPort h.modPort
  · exact .ite h.holdPort h.modPort
  · exact h

theorem KeepsNext.holdExpired {p} (h : Keeps s t) : KeepsNext s (execHoldExpired p t) :=
  .next (.ite h h.setPort.upd.modCnt.raisePort.discardAll.floodRoutes.routesChanged.settle)

theorem KeepsNext.refusedRetrain {p} (h : Keeps s t) : KeepsNext s (execRefusedRetrain p t) := .next h.modPort

theorem Keeps.flitGap {p} (h : Keeps s t) : Keeps s (t.flitGap p) := .ite h h.modPort.emit

theorem KeepsNext.dataFlit {p h' packets} (h : Keeps s t) : KeepsNext s (execDataFlit p h' packets t) :=
  .next (.ite h (.ite h.codewords.handFail.lcrcBad.flitGap (.ite h.codewords.takeReturns.modPort.upd.emit (.ite h.codewords.takeReturns h.codewords.takeReturns.flitGap))))

theorem KeepsNext.idleFlit {p h'} (h : Keeps s t) : KeepsNext s (execIdleFlit p h' t) :=
  .next (.ite h (.ite h.codewords.lcrcBad h.codewords.takeReturns))

theorem KeepsNext.replay {p} (h : Keeps s t) : KeepsNext s (execReplay p t) := .next (.ite h.replayPort h)

theorem KeepsNext.packetForward {p k'} (h : Keeps s t) : KeepsNext s (execPacketForward p k' t) := by
  unfold execPacketForward
  refine .next ?_
  split
  · exact h
  · dsimp only
    split
    · rename_i e
      exact h.takeArrived.launch.snd e
    · rename_i e
      exact .ite (h.takeArrived.launch.snd e).sendErr (h.takeArrived.launch.snd e)

theorem Keeps.winRefuse {k' cause} (h : Keeps s t) : Keeps s (t.winRefuse k' cause) := h.upd.sendErr

theorem Keeps.takeIn {k' write n} (h : Keeps s t) : Keeps s (t.takeIn k' write n).2 := by
  unfold State.takeIn
  refine .iteSnd (.pair h.handFail.sendErr) ?_
  split
  · exact .pair h.upd.winRefuse
  · dsimp only
    split
    · rename_i e
      exact .pair (h.point7.snd e).sendErr
    · rename_i e
      exact .pair (h.point7.snd e)

theorem KeepsNext.fabricRead {p} (h : Keeps s t) : KeepsNext s (execFabricRead p t) := by
  unfold execFabricRead
  refine .next ?_
  split
  · exact h
  · split
    · rename_i e
      exact h.takeArrived.takeIn.snd e
    · rename_i e
      dsimp only
      split
      · rename_i e1
        exact ((h.takeArrived.takeIn.snd e).countCorrected.readMem.snd e1).sendErr
      · rename_i e1
        split
        · rename_i e2
          exact (((h.takeArrived.takeIn.snd e).countCorrected.readMem.snd e1).originateAt.snd e2).policyFault.sendErr
        · rename_i e2
          exact ((h.takeArrived.takeIn.snd e).countCorrected.readMem.snd e1).originateAt.snd e2

theorem KeepsNext.fabricWrite {p} (h : Keeps s t) : KeepsNext s (execFabricWrite p t) := by
  unfold execFabricWrite
  refine .next ?_
  split
  · exact h
  · split
    · rename_i e
      exact h.takeArrived.takeIn.snd e
    · rename_i e
      split
      · rename_i e1
        exact ((h.takeArrived.takeIn.snd e).writeUnit.snd e1).sendErr
      · rename_i e1
        exact ((h.takeArrived.takeIn.snd e).writeUnit.snd e1).originate

theorem Keeps.takeCpl {p op writing} (h : Keeps s t) : Keeps s (t.takeCpl p op writing).2 := by
  unfold State.takeCpl
  split
  · exact .pair h
  · dsimp only
    split
    · split
      · rename_i e
        exact .pair (h.takeArrived.point7.snd e).failReq
      · rename_i e
        exact .pair (h.takeArrived.point7.snd e)
    · exact .pair h.takeArrived.point7.lateCompletion

theorem KeepsNext.wack {p} (h : Keeps s t) : KeepsNext s (execWack p t) := by
  unfold execWack
  refine .next ?_
  split
  · rename_i e
    exact (h.takeCpl.snd e).modChan.flushReady.modChan
  · rename_i e
    exact h.takeCpl.snd e

theorem KeepsNext.rdata {p} (h : Keeps s t) : KeepsNext s (execRdata p t) := by
  unfold execRdata
  refine .next ?_
  split
  · rename_i e
    exact (h.takeCpl.snd e).modChan.pieceArrived.modChan
  · rename_i e
    exact h.takeCpl.snd e

theorem KeepsNext.err {p} (h : Keeps s t) : KeepsNext s (execErr p t) := by
  unfold execErr
  refine .next ?_
  split
  · rename_i e
    exact (h.takeCpl.snd e).failReq
  · rename_i e
    exact h.takeCpl.snd e

theorem KeepsNext.meshHeader (h : Keeps s t) : KeepsNext s (execMeshHeader t) :=
  .next (h.meshDropFree.upd.integRecord.forN (fun _ _ k => .ite k.roomFault k))

theorem Keeps.windowOpenEffect {bs} (h : Keeps s t) : KeepsEff s (t.windowOpenEffect bs) := .ite h (.ite h (.ite h h.upd))

theorem Keeps.windowCloseEffect {bs} (h : Keeps s t) : KeepsEff s (t.windowCloseEffect bs) := h.upd

theorem Keeps.injectEffect {bs} (h : Keeps s t) : KeepsEff s (t.injectEffect bs) := .ite h (.ite h h.upd)

/-! ### The host attachment -/

theorem Keeps.bar2Write {f ps bs} (h : Keeps s t) : Keeps s (t.bar2Write f ps bs) := by
  unfold State.bar2Write
  dsimp only
  split
  · rename_i e
    exact (h.handList.snd e).emit.roomFault
  · rename_i e
    exact Keeps.foldl id (Keeps.foldl Prod.fst (h.handList.snd e) fun _ _ k => k.writeMem) fun _ _ k => k.injectStored

theorem Keeps.bar2Read {f ps} (h : Keeps s t) : Keeps s (t.bar2Read f ps) := by
  unfold State.bar2Read
  extract_lets r gs bad t₁ abort
  have h₁ : Keeps s t₁ := h.foldl id fun _ _ k => k.countCorrected
  have aborts : ∀ u, Keeps s u → Keeps s (abort u) := fun _ k => k.emit.policyFault
  clear_value bad abort
  split
  rename_i d t₂ e₂
  have h₂ : Keeps s t₂ := by
    exact Keeps.snd (Keeps.foldl Prod.snd (by exact h₁) (fun _ _ k => .pair k.readMem)) e₂
  split
  · split
    · rename_i e
      exact (h₂.handList.snd e).emit
    · rename_i e
      exact aborts _ (h₂.handList.snd e)
  · exact aborts _ h₂.handFail

theorem Keeps.doTlp {f t'} (h : Keeps s t) : Keeps s (t.doTlp f t') := by
  unfold State.doTlp
  split
  · exact h.bar2Write
  · exact h.bar2Read
  · exact h.bar0Write
  · exact h.bar0Read.emit

theorem Keeps.refuseTlp {f t'} (h : Keeps s t) : Keeps s (t.refuseTlp f t') := by
  unfold State.refuseTlp
  split
  · exact h.hostErrRec
  · exact h.emit.hostErrRec
  · exact h

theorem Keeps.tlp {f t'} (h : Keeps s t) : Keeps s (t.tlp f t') :=
  .ite h.activity.refuseTlp (.ite h.activity.doTlp (h.activity.forL (fun _ _ k => k.askWake)).modFn)

theorem Keeps.drainTlps {f n} (h : Keeps s t) : Keeps s (t.drainTlps f n) := by
  induction n generalizing t with
  | zero => exact h
  | succ n ih =>
    unfold State.drainTlps
    split
    · exact h
    · exact .ite (ih h.modFn.doTlp) (h.forL fun _ _ k => k.askWake)

theorem Keeps.tilePut {t' off size v} (h : Keeps s t) : Keeps s (t.tilePut t' off size v) := .ite h.takeSync (.ite h.takeSync h.qregStore)

theorem Keeps.writerPut {w off size v} (h : Keeps s t) : Keeps s (t.writerPut w off size v) := by
  unfold State.writerPut
  split
  · exact h.tlp
  · exact .ite h.tilePut h

theorem KeepsNext.registerWrite {w off size v} (h : Keeps s t) : KeepsNext s (execRegisterWrite w off size v t) := by
  unfold execRegisterWrite
  refine .next ?_
  split
  · exact h.tlp
  · exact h.tilePut

theorem KeepsNext.lowHalfRead {f off size} (h : Keeps s t) : KeepsNext s (execLowHalfRead f off size t) := .next h.tlp

theorem KeepsNext.bar0LowHalfWrite {f off v} (h : Keeps s t) : KeepsNext s (execBar0LowHalfWrite f off v t) := .next h.tlp

theorem KeepsNext.bar0HighHalfWrite {f off v} (h : Keeps s t) : KeepsNext s (execBar0HighHalfWrite f off v t) := .next h.tlp

theorem KeepsNext.cueArm {w c ctl} (h : Keeps s t) : KeepsNext s (execCueArm w c ctl t) := .next h.writerPut

theorem KeepsNext.cueDisarm {w c ctl} (h : Keeps s t) : KeepsNext s (execCueDisarm w c ctl t) := .next h.writerPut

theorem KeepsNext.tallyAdv {f tally v} (h : Keeps s t) : KeepsNext s (execTallyAdv f tally v t) := .next h.tlp

theorem KeepsNext.watchArm {f n ctl} (h : Keeps s t) : KeepsNext s (execWatchArm f n ctl t) := .next h.tlp

theorem KeepsNext.zero {w q all lines line} (h : Keeps s t) : KeepsNext s (execZero w q all lines line t) := .next h.writerPut

theorem KeepsNext.writeback {w q all lines line} (h : Keeps s t) : KeepsNext s (execWriteback w q all lines line t) := .next h.writerPut

theorem KeepsNext.invalidate {w q all lines line} (h : Keeps s t) : KeepsNext s (execInvalidate w q all lines line t) := .next h.writerPut

theorem KeepsNext.wbInv {w q all lines line} (h : Keeps s t) : KeepsNext s (execWbInv w q all lines line t) := .next h.writerPut

theorem KeepsNext.waymapChange {w q groups} (h : Keeps s t) : KeepsNext s (execWaymapChange w q groups t) := .next h.writerPut

theorem KeepsNext.qcHbmwin {w q k' v} (h : Keeps s t) : KeepsNext s (execQcHbmwin w q k' v t) := .next h.writerPut

theorem Keeps.dmaCtrlTlp {f n v} (h : Keeps s t) : Keeps s (t.dmaCtrlTlp f n v) := h.tlp

theorem KeepsNext.go {f n ctrl} (h : Keeps s t) : KeepsNext s (execGo f n ctrl t) := .next h.dmaCtrlTlp

theorem KeepsNext.pause {f n ctrl} (h : Keeps s t) : KeepsNext s (execPause f n ctrl t) := .next h.dmaCtrlTlp

theorem KeepsNext.resume {f n ctrl} (h : Keeps s t) : KeepsNext s (execResume f n ctrl t) := .next h.dmaCtrlTlp

theorem KeepsNext.abort {f n ctrl} (h : Keeps s t) : KeepsNext s (execAbort f n ctrl t) := .next h.dmaCtrlTlp

theorem KeepsNext.mbxEnable {f ctl} (h : Keeps s t) : KeepsNext s (execMbxEnable f ctl t) := .next h.tlp

theorem KeepsNext.mbxDisable {f} (h : Keeps s t) : KeepsNext s (execMbxDisable f t) := .next h.tlp

theorem KeepsNext.mbxReqTail {f v} (h : Keeps s t) : KeepsNext s (execMbxReqTail f v t) := .next h.tlp

theorem KeepsNext.mbxRspHead {f v} (h : Keeps s t) : KeepsNext s (execMbxRspHead f v t) := .next h.tlp

theorem Keeps.badTlp {f off} (h : Keeps s t) : Keeps s (t.badTlp f off) := .ite h.handFail.emit h.handFail.emit.roomFault

theorem KeepsNext.apertureWrite {f off bytes checkOk} (h : Keeps s t) : KeepsNext s (execApertureWrite f off bytes checkOk t) :=
  .next (.ite h.tlp h.badTlp)

theorem KeepsNext.apertureRead {f off len} (h : Keeps s t) : KeepsNext s (execApertureRead f off len t) := .next h.tlp

theorem KeepsNext.msixUnmask {f entry} (h : Keeps s t) : KeepsNext s (execMsixUnmask f entry t) := by
  unfold execMsixUnmask
  refine .next ?_
  split
  · exact h.tlp
  · exact h.modFn.forN fun _ _ k => k.msixFlush

theorem Keeps.resetHostSide {f flr} (h : Keeps s t) : Keeps s (t.resetHostSide f flr) := by
  unfold State.resetHostSide
  exact h.mbxStop.modFn

theorem Keeps.disableVfs {lo hi} (h : Keeps s t) : Keeps s (t.disableVfs lo hi) := h.forL fun _ _ k => k.resetHostSide

theorem KeepsNext.vfEnableClear {enable numVfs} (h : Keeps s t) : KeepsNext s (execVfEnableClear enable numVfs t) := .next h.upd.disableVfs

theorem KeepsNext.functionLevelReset {f} (h : Keeps s t) : KeepsNext s (execFunctionLevelReset f t) :=
  .next (.ite h.upd.disableVfs.resetHostSide (.ite h.resetHostSide.beginReset.settleReset h.resetHostSide))

theorem Keeps.hostReadsFail (h : Keeps s t) : Keeps s t.hostReadsFail := by
  unfold State.hostReadsFail
  refine .forL h fun a u k => ?_
  dsimp only
  split
  · exact k.forL fun _ _ k => k.reqComplete
  · exact k

theorem KeepsNext.linkLoss (h : Keeps s t) : KeepsNext s (execLinkLoss t) := .next (h.upd.forN (fun _ _ k => k.resetHostSide)).hostReadsFail

theorem Keeps.linkTrained (h : Keeps s t) : Keeps s t.linkTrained := h.upd.spend.spend

theorem KeepsNext.perstDeassert (h : Keeps s t) : KeepsNext s (execPerstDeassert t) := .next (.ite h.upd h.upd.linkTrained)

theorem KeepsNext.linkReturn (h : Keeps s t) : KeepsNext s (execLinkReturn t) := .next (.ite h.upd.linkTrained.raiseHost h)

end

end Sys2Proof.Machine
end

section
/-! What power states, firmware, the Vault, settings and the journal keep (R435 to R490, R519 to R580). -/

namespace Sys2Proof.Machine

set_option Elab.async false

section
variable {s t u : State} {α : Type}

/-! ### Power -/

theorem Keeps.modPow {f} (h : Keeps s t) (hr : t.pow.refusals.length ≤ 64 → (f t.pow).refusals.length ≤ 64 := by exact fun b => b)
    (hb : t.pow.bootLog.length ≤ 16 → (f t.pow).bootLog.length ≤ 16 := by exact fun b => b) : Keeps s (t.modPow f) := h.upd (refusals := hr) (boots := hb)

theorem Keeps.gateQuire {q} (h : Keeps s t) : Keeps s (t.gateQuire q) := by
  unfold State.gateQuire
  exact (h.flushCache.forL (fun _ _ k => k.clearScratch.setTile)).clearQscratch.modQuire

theorem Keeps.negotiate {target todo record room} (h : Keeps s t) : Keeps s (t.negotiate target todo record room) := h.modPow

theorem Keeps.negRefused {n block reason} (h : Keeps s t) : Keeps s (t.negRefused n block reason).2 := by
  unfold State.negRefused
  exact .pair (.ite ((h.modPow fun _ => by apply length_lastN_le).forL fun _ _ k => .ite k.modQuire k) (h.modPow fun _ => by apply length_lastN_le))

theorem Keeps.negDone {n} (h : Keeps s t) : Keeps s (t.negDone n).2 :=
  .iteSnd (.pair (h.modPow.forN (fun _ _ k => .ite k k.gateQuire))) (.iteSnd (.pair h.modPow) (.pair (h.modPow.forL (fun _ _ k => k.modQuire))))

theorem Keeps.blockAnswers {own} (h : Keeps s t) : Keeps s (t.blockAnswers own).2 := by
  unfold State.blockAnswers
  split
  · exact .pair h
  · split
    · exact h.negRefused
    · exact .pair h
    · exact .iteSnd h.negRefused (.iteSnd h.negDone (.pair h.modPow))

theorem Keeps.abortTileChans {q} (h : Keeps s t) : Keeps s (t.abortTileChans q) := h.forL fun _ _ k => k.chanAbort

theorem Keeps.endTileAborts {q} (h : Keeps s t) : Keeps s (t.endTileAborts q) := by
  unfold State.endTileAborts
  refine .forL h fun a u k => (.ite ?_ k)
  split
  · exact k.abortEnd
  · exact k.setChan

theorem Keeps.gatingEnds (h : Keeps s t) : Keeps s t.gatingEnds.2 := by
  unfold State.gatingEnds
  split
  · exact .pair h
  · refine .iteSnd (.pair h) ?_
    split
    · exact h.negRefused
    · exact h.negRefused
    · split
      · exact h.negRefused
      · extract_lets u
        have k : Keeps s u := h.forL fun _ _ k => k.abortTileChans.endTileAborts
        exact .iteSnd (.pair k) (.pair (k.modPow.forL fun _ _ k => k.gateQuire))

theorem Keeps.wakeDone {q} (h : Keeps s t) : Keeps s (t.wakeDone q) := by
  unfold State.wakeDone
  exact (h.forL (fun _ _ k => k.clearScratch)).clearQscratch.modQuire

theorem Keeps.applyHeldWrites {q} (h : Keeps s t) : Keeps s (t.applyHeldWrites q) := by
  unfold State.applyHeldWrites
  dsimp only
  split
  · exact h.modQuire.forL fun _ _ k => k.qregWrite
  · exact h.modQuire

theorem Keeps.resumeQuire {q} (h : Keeps s t) : Keeps s (t.resumeQuire q) := h.applyHeldWrites.deliverLaunches.forN fun _ _ k => .ite k k.drainTlps

theorem Keeps.powerRequestEffect {acc v} (h : Keeps s t) : KeepsEff s (t.powerRequestEffect acc v) := by
  unfold State.powerRequestEffect
  refine .ite h (.ite h ?_)
  dsimp only
  split
  · exact h.modPow.leaveIdle
  · exact .ite h.modPow h.modPow.negotiate
  · exact .ite h.modPow h.modPow.negotiate

theorem Keeps.quireGateEffect {acc bs} (h : Keeps s t) : KeepsEff s (t.quireGateEffect acc bs) := .ite h (.ite h (.ite h (.ite h h.negotiate)))

theorem Keeps.quireWakeEffect {bs} (h : Keeps s t) : KeepsEff s (t.quireWakeEffect bs) :=
  .ite h (.ite h (.ite (h.forL (fun _ _ k => k.askWake)) (h.forL (fun _ _ k => k.askWake))))

/-- The lists that outlive the hub are those it had; memory and the other lists are empty (R541). -/
theorem Keeps.hubOff {st cause} (h : Keeps s t) : Keeps s (t.hubOff st cause) where
  memory _ := ⟨rfl, rfl⟩
  logs a := by
    obtain ⟨_, marks, integrity, refusals, boots, _, _⟩ := h.logs a
    exact ⟨Nat.zero_le _, marks, integrity, refusals, boots, Nat.zero_le _, Nat.zero_le _⟩

theorem Keeps.deviceReset {cause} (h : Keeps s t) : Keeps s (t.deviceReset cause) := h.hubOff

theorem Keeps.startHub {wake} (h : Keeps s t) : Keeps s (t.startHub wake) := h.modPow

theorem Keeps.islandWake {wake} (h : Keeps s t) : Keeps s (t.islandWake wake) := by
  unfold State.islandWake
  refine .ite (.ite h.startHub h.modPow) (.ite ?_ h)
  split
  · exact .ite h.modPow h
  · exact h

theorem Keeps.autoStart (h : Keeps s t) : Keeps s t.autoStart := .ite h.startHub h

theorem KeepsNext.idleTimer (h : Keeps s t) : KeepsNext s (execIdleTimer t) := .next (.ite h.negotiate.settle h)

theorem KeepsNext.standbyAfterIdle (h : Keeps s t) : KeepsNext s (execStandbyAfterIdle t) := .next (.ite h.negotiate.settle h)

theorem KeepsNext.standbyEntry (h : Keeps s t) : KeepsNext s (execStandbyEntry t) := .next (.ite h.hubOff.modPow h)

theorem KeepsNext.freeQuireGate {q} (h : Keeps s t) : KeepsNext s (execFreeQuireGate q t) := .next (.ite h.negotiate.settle h)

theorem KeepsNext.brownOut (h : Keeps s t) : KeepsNext s (execBrownOut t) := .next (.ite h.upd h)

theorem KeepsNext.wakePin {pin level} (h : Keeps s t) : KeepsNext s (execWakePin pin level t) := .next (.ite h.islandWake h)

theorem KeepsNext.smbusWake (h : Keeps s t) : KeepsNext s (execSmbusWake t) := .next (.ite h.islandWake h)

theorem KeepsNext.powerOn (h : Keeps s t) : KeepsNext s (execPowerOn t) := .next (.ite h.modPow h)

theorem KeepsNext.inputLost (h : Keeps s t) : KeepsNext s (execInputLost t) := .next (Keeps.ite h (.ite h.upd h.modPow)).settle

theorem KeepsNext.holdupExhausted (h : Keeps s t) : KeepsNext s (execHoldupExhausted t) := .next (.ite h.hubOff.modPow h)

theorem KeepsNext.inputReturn (h : Keeps s t) : KeepsNext s (execInputReturn t) :=
  .next (.ite h (.ite (.ite (Keeps.ite h.hubOff.modPow h).modPow.startHub (Keeps.ite h.hubOff.modPow h).modPow) (Keeps.ite h.hubOff.modPow h).modPow.autoStart))

theorem KeepsNext.auxGood {asel} (h : Keeps s t) : KeepsNext s (execAuxGood asel t) := .next (.ite h.upd.modPow.autoStart h)

theorem KeepsNext.auxLost (h : Keeps s t) : KeepsNext s (execAuxLost t) := .next (.ite h h.hubOff.upd)

theorem Keeps.readings {tenths watts} (h : Keeps s t) : Keeps s (t.readings tenths watts) := h.modPow

theorem KeepsNext.throttle {tenths watts} (h : Keeps s t) : KeepsNext s (execThrottle tenths watts t) :=
  .next (Keeps.ite (.ite h.readings.modPow h.readings) h).settle

theorem KeepsNext.throttleRaise {tenths watts} (h : Keeps s t) : KeepsNext s (execThrottleRaise tenths watts t) :=
  .next (Keeps.ite (.ite h.readings.modPow h.readings) h).settle

theorem KeepsNext.thermalShutdown {tenths} (h : Keeps s t) : KeepsNext s (execThermalShutdown tenths t) :=
  .next (.ite (.ite h.readings.hubOff.modPow h.readings.settle) h)

theorem KeepsNext.thermalRecovery {tenths} (h : Keeps s t) : KeepsNext s (execThermalRecovery tenths t) := .next (.ite h.modPow.autoStart h)

theorem KeepsNext.sysRstN (h : Keeps s t) : KeepsNext s (execSysRstN t) := .next (Keeps.ite h.deviceReset h).modPow

theorem KeepsNext.sysRstNRelease (h : Keeps s t) : KeepsNext s (execSysRstNRelease t) := .next h.modPow

theorem KeepsNext.watchdog (h : Keeps s t) : KeepsNext s (execWatchdog t) := .next (.ite h.modPow.deviceReset h)

/-! ### Firmware -/

theorem Keeps.putChunk {k' off bs} (h : Keeps s t) : Keeps s (t.putChunk k' off bs) := by
  unfold State.putChunk
  exact h.modPow

theorem Keeps.chunkEffect {bs} (h : Keeps s t) : KeepsEff s (t.chunkEffect bs) := .ite h h.putChunk

theorem Keeps.fwCommitEffect {bs} (h : Keeps s t) : KeepsEff s (t.fwCommitEffect bs) := .ite h (.ite h h.modPow)

theorem Keeps.fwSelectEffect {k'} (h : Keeps s t) : KeepsEff s (t.fwSelectEffect k') := .ite h (.ite h.modPow h)

theorem Keeps.raiseEffect {bs} (h : Keeps s t) : KeepsEff s (t.raiseEffect bs) := .ite h h.modPow

theorem KeepsNext.rom (h : Keeps s t) : KeepsNext s (execRom t) := .next (.ite h.modPow h)

theorem Keeps.logBoot {st} (h : Keeps s t) : Keeps s (t.logBoot st) := h.modPow (hb := fun _ => by apply length_lastN_le)

theorem Keeps.verifyStage (h : Keeps s t) : Keeps s t.verifyStage := by
  unfold State.verifyStage
  split
  · exact h.modPow
  · exact h.modPow.logBoot

theorem KeepsNext.steward (h : Keeps s t) : KeepsNext s (execSteward t) := .next (.ite h.modPow.logBoot.settle h)

/-! ### The Vault -/

theorem Keeps.holdCheck {bytes} (h : Keeps s t) : Keeps s (t.holdCheck bytes).2 := .pair h.spend.spend.upd

theorem Keeps.queueJob {j} (h : Keeps s t) : Keeps s (t.queueJob j) := h.upd

theorem Keeps.vaultWriteEffect {acc bs} (h : Keeps s t) : KeepsEff s (t.vaultWriteEffect acc bs) :=
  .ite h.leaveIdle (.ite h.leaveIdle (.ite h.leaveIdle (.ite h.leaveIdle (.ite h.leaveIdle.holdCheck (.ite h.leaveIdle.holdCheck h.leaveIdle.holdCheck.queueJob)))))

theorem Keeps.vaultReadEffect {acc bs} (h : Keeps s t) : KeepsEff s (t.vaultReadEffect acc bs) := by
  unfold State.vaultReadEffect
  refine .ite h.leaveIdle (.ite h.leaveIdle ?_)
  split
  · exact h.leaveIdle
  · exact .ite h.leaveIdle (.ite h.leaveIdle (.ite h.leaveIdle h.leaveIdle.queueJob))

theorem Keeps.vaultDeleteEffect {bs} (h : Keeps s t) : KeepsEff s (t.vaultDeleteEffect bs) := by
  unfold State.vaultDeleteEffect
  dsimp only
  split
  · exact h.leaveIdle
  · exact .ite h.leaveIdle h.leaveIdle.upd

theorem Keeps.vaultStopEffect {r} (h : Keeps s t) : KeepsEff s (t.vaultStopEffect r) := h.leaveIdle.endQueuedJobs.stopRunningJob

theorem Keeps.countPages {k' done corrected failed} (h : Keeps s t) : Keeps s (t.countPages k' done corrected failed) := h.upd

theorem Keeps.copyIn {a n l} (h : Keeps s t) : Keeps s (t.copyIn a n l) :=
  Keeps.foldl id (h.updMem fun c => ⟨Tbl.wf_clear _ _ c.1, Tbl.wf_clear _ _ c.2⟩) fun _ _ k => k.putByte

theorem Keeps.modJob {f} (h : Keeps s t) : Keeps s (t.modJob f) := h.upd

theorem Keeps.popJob (h : Keeps s t) : Keeps s t.popJob := h.upd

theorem Keeps.startExtent {j} (h : Keeps s t) : Keeps s (t.startExtent j) := .ite (.ite h.holdCheck.modJob h.holdCheck.popJob.jobEnds) h.modJob

theorem KeepsNext.vaultJobStart (h : Keeps s t) : KeepsNext s (execVaultJobStart t) := by
  unfold execVaultJobStart
  refine .next (.settle ?_)
  split
  · exact h
  · exact .ite h (.ite h.popJob.jobEnds h.startExtent)

theorem Keeps.jobAdvance {j} (h : Keeps s t) : Keeps s (t.jobAdvance j) := .ite h h.tryAdvance

theorem Keeps.commitJob {j} (h : Keeps s t) : Keeps s (t.commitJob j) := h.event.upd.jobAdvance

theorem Keeps.readSource {j n} (h : Keeps s t) : Keeps s (t.readSource j n) := h.sweep.countPages

theorem Keeps.writeDest {j n} (h : Keeps s t) : Keeps s (t.writeDest j n) := by
  unfold State.writeDest
  split
  · exact h
  · exact h.copyIn

theorem Keeps.moveExtent {j} (h : Keeps s t) : Keeps s (t.moveExtent j) := .ite h.readSource.modJob.countPages h.writeDest.countPages

theorem Keeps.failExtent {j k'} (h : Keeps s t) : Keeps s (t.failExtent j k') :=
  (Keeps.ite h.countPages.readSource h.countPages.writeDest).popJob.jobEnds

theorem Keeps.extentEnds (h : Keeps s t) : Keeps s t.extentEnds := by
  unfold State.extentEnds
  split
  · exact h
  · dsimp only
    split
    · exact h.modJob
    · split
      · exact .ite h.modJob h.modJob.popJob.jobEnds
      · exact .ite h.modJob.startExtent (.ite h.modJob.popJob.commitJob h.modJob.popJob.upd.jobAdvance)

theorem Keeps.extentComplete {ok} (h : Keeps s t) : Keeps s (t.extentComplete ok) := by
  unfold State.extentComplete
  split
  · exact h
  · refine .ite h (.ite h.spend.failExtent ?_)
    split
    · exact h.failExtent
    · exact h.moveExtent.extentEnds

/-! ### The Catalogue -/

theorem Keeps.readEntry {idx sub} (h : Keeps s t) : Keeps s (t.readEntry idx sub).2 :=
  .iteSnd (.pair h.spend.spend) (.iteSnd (.pair h.upd) (.iteSnd (.pair h.spend) (.pair h)))

/-! ### Settings and device cues -/

theorem Keeps.portFollows {p} (h : Keeps s t) : Keeps s (t.portFollows p) :=
  .ite (.ite h.setPort.startTraining h) (.ite h h.setPort.upd.discardAll.floodRoutes.routesChanged)

theorem Keeps.dpRetrain (h : Keeps s t) : Keeps s t.dpRetrain := h.upd

theorem Keeps.sdiFollows {o} (h : Keeps s t) : Keeps s (t.sdiFollows o) := .ite h h.upd

theorem Keeps.islandCopies (h : Keeps s t) : Keeps s t.islandCopies := h.modPow

theorem Keeps.interleaveFollows {old} (h : Keeps s t) : Keeps s (t.interleaveFollows old) := .ite h h.upd

theorem Keeps.entryFollows {was idx sub} (h : Keeps s t) : Keeps s (t.entryFollows was idx sub) := by
  unfold State.entryFollows
  split
  · exact h.clockFree
  · exact .ite h.clockFree h
  · exact h.modClk.clockFree
  · exact h.clockFree
  · exact h.dropKeeper
  · exact h.ownKeeper
  · exact h.portFollows.domainFollows
  · exact h.endSessions
  · exact h.endSessions
  · exact h.dpRetrain
  · exact h.dpRetrain
  · exact h.sdiFollows
  · exact h.islandCopies
  · exact h.modPow
  · exact h

theorem Keeps.writeEntry {idle idx sub v} (h : Keeps s t) : KeepsEff s (t.writeEntry idle idx sub v) :=
  .ite h (.ite h h.setCfg.interleaveFollows.entryFollows)

theorem Keeps.keyEffect {k' v} (h : Keeps s t) : KeepsEff s (t.keyEffect k' v) := .ite h h.upd

theorem Keeps.armEffect {v} (h : Keeps s t) : KeepsEff s (t.armEffect v) := by
  unfold State.armEffect
  refine .ite h (.ite h.cueErrRec ?_)
  dsimp only
  split
  · exact h.cueArmNow
  · exact h.cueErrRec

theorem Keeps.disarmEffect {n} (h : Keeps s t) : KeepsEff s (t.disarmEffect n) := .ite h.cueDisarmNow h

theorem Keeps.advanceEffect {v} (h : Keeps s t) : KeepsEff s (t.advanceEffect v) := .ite h (.ite h.tryAdvance (.ite h.discardFrozen h.issueAdvance))

/-! ### The journal -/

theorem Keeps.replyWrite {w status acc res} (h : Keeps s t) : Keeps s (t.replyWrite w status acc res) := .ite h h.sendFrame

theorem Keeps.countFrame {k'} (h : Keeps s t) : Keeps s (t.countFrame k') := h.upd

theorem Keeps.resetDeviceEffect {v} (h : Keeps s t) : KeepsEff s (t.resetDeviceEffect v) := .ite (.ite h h) (.ite h h)

theorem Keeps.planGoes {acc p} (h : Keeps s t) : KeepsEff s (t.planGoes acc p) := by
  unfold State.planGoes
  split
  · exact h
  · exact .ite h.beginDissolve h.beginForm

theorem Keeps.repartitionEffect {r} (h : Keeps s t) : KeepsEff s (t.repartitionEffect r) := by
  unfold State.repartitionEffect
  refine .ite h.cueMissed ?_
  split
  · exact h.recordRefusal.cueMissed
  · exact h.upd.planGoes

theorem Keeps.commandEffect {r} (h : Keeps s t) : KeepsEff s (t.commandEffect r) := by
  unfold State.commandEffect
  dsimp only
  split
  · exact h.stepToEffect
  · exact h.armEffect
  · exact h.disarmEffect
  · exact h.formEffect
  · exact h.dissolveEffect
  · exact h.resetEffect
  · exact h.declareEffect
  · exact h.qosEffect
  · exact h.planEffect
  · exact h.advanceEffect
  · exact h.windowOpenEffect
  · exact h.windowCloseEffect
  · exact h.keyEffect
  · exact h.activity.vaultWriteEffect
  · exact h.activity.vaultReadEffect
  · exact h.activity.vaultDeleteEffect
  · exact h.activity.vaultStopEffect
  · exact h.assignEffect
  · exact h.shadowEffect
  · exact h.commitEffect
  · exact h.powerRequestEffect
  · exact h.resetDeviceEffect
  · exact h.quireGateEffect
  · exact h.quireWakeEffect
  · exact h.chunkEffect
  · exact h.fwCommitEffect
  · exact h.fwSelectEffect
  · exact h.raiseEffect
  · exact h.injectEffect
  · split
    · exact h.writeEntry
    · exact h

theorem Keeps.beginEffect {r} (h : Keeps s t) : KeepsEff s (t.beginEffect r) := .ite h.repartitionEffect (.ite h.commandEffect (.ite h.formEffect h))

theorem Keeps.finishRec {a status res} (h : Keeps s t) : Keeps s (t.finishRec a status res) := by
  unfold State.finishRec
  split
  · exact h
  · exact .ite (h.modLed.forL (fun _ _ k => k.replyWrite)).deviceReset (h.modLed.forL (fun _ _ k => k.replyWrite))

theorem Keeps.runQueue {n} (h : Keeps s t) : Keeps s (t.runQueue n) := by
  induction n generalizing t with
  | zero => exact h
  | succ n ih =>
    unfold State.runQueue
    split
    · dsimp only
      split
      · exact ih h.upd
      · split
        · rename_i e
          exact ih (h.upd.beginEffect.done e).finishRec
        · rename_i e
          exact h.upd.beginEffect.wait e
    · exact h

theorem Keeps.runLedger (h : Keeps s t) : Keeps s t.runLedger := h.runQueue

theorem Keeps.completeCmd {a status res} (h : Keeps s t) : Keeps s (t.completeCmd a status res) := h.finishRec.runLedger

theorem Keeps.repeatWrite {w r} (h : Keeps s t) : Keeps s (t.repeatWrite w r) := .ite h.replyWrite h.modLed

theorem Keeps.recordWrite {w} (h : Keeps s t) : Keeps s (t.recordWrite w) := h.modLed.runLedger

theorem Keeps.refuseWrite {w status} (h : Keeps s t) : Keeps s (t.refuseWrite w status) := h.replyWrite

theorem Keeps.journalWrite {e w} (h : Keeps s t) : Keeps s (t.journalWrite e w) := by
  unfold State.journalWrite
  refine .ite h.refuseWrite (.ite h.refuseWrite ?_)
  split
  · exact h.repeatWrite
  · exact .ite h.countFrame.refuseWrite (.ite (Keeps.ite h.countFrame h.countFrame.upd).refuseWrite h.recordWrite)

theorem Keeps.smbusTakes {o} (h : Keeps s t) : Keeps s (t.smbusTakes o) := h.upd

theorem Keeps.command {r idx sub v} (h : Keeps s t) : Keeps s (t.command r idx sub v) := by
  unfold State.command
  split
  · exact h
  · exact .ite (Keeps.ite h.smbusTakes h).activity.journalWrite.settle h

theorem Keeps.commandRow {r idx sub v} (h : Keeps s t) : KeepsNext s (t.commandRow r idx sub v) := .next h.command

theorem Keeps.fireRepartition {c} (h : Keeps s t) : Keeps s (t.fireRepartition c) := .ite h.fireEnds h.fireEnds.modLed.runLedger

theorem KeepsNext.repartition {c} (h : Keeps s t) : KeepsNext s (execRepartition c t) := .next (.ite h.fireRepartition.settle h)

/-! ### Requests -/

theorem Keeps.answerFrame {tr q ks status payload} (h : Keeps s t) : Keeps s (t.answerFrame tr q ks status payload) := h.sendFrame

theorem Keeps.refuseFrame {tr q ks status k'} (h : Keeps s t) : Keeps s (t.refuseFrame tr q ks status k') := h.countFrame.answerFrame

theorem Keeps.valueOf {idx sub} (h : Keeps s t) : Keeps s (t.valueOf idx sub).2 := .iteSnd (.pair h.spend) h.readEntry

theorem Keeps.keepSnapshots {q} (h : Keeps s t) : Keeps s (t.keepSnapshots q) := h.upd

theorem Keeps.firstSegment {tr q ks v} (h : Keeps s t) : Keeps s (t.firstSegment tr q ks v) := h.upd.sendFrame

theorem Keeps.laterSegment {tr q ks} (h : Keeps s t) : Keeps s (t.laterSegment tr q ks) := by
  unfold State.laterSegment
  split
  · exact h.refuseFrame
  · exact .ite h.refuseFrame (Keeps.ite h.upd h).sendFrame

theorem Keeps.readFrame {tr q ks} (h : Keeps s t) : Keeps s (t.readFrame tr q ks) :=
  .ite h.answerFrame (.ite h.answerFrame (.ite h.answerFrame (.ite h.keepSnapshots.valueOf.firstSegment h.keepSnapshots.laterSegment)))

theorem Keeps.dropAssembly {client cseq} (h : Keeps s t) : Keeps s (t.dropAssembly client cseq) := h.upd

theorem Keeps.writeFrame {tr q k' ks} (h : Keeps s t) : Keeps s (t.writeFrame tr q k' ks) := by
  unfold State.writeFrame
  refine .ite h.refuseFrame ?_
  split
  · exact h.answerFrame
  · refine .ite h.answerFrame ?_
    split
    · exact h.answerFrame
    · exact h.dropAssembly.refuseFrame
    · exact h.dropAssembly.upd.answerFrame
    · exact h.dropAssembly.journalWrite

theorem Keeps.ackFrame {tr q ks} (h : Keeps s t) : Keeps s (t.ackFrame tr q ks) := .ite h.answerFrame (.ite h.answerFrame h.modLed.answerFrame)

theorem Keeps.ledgerFrame {tr q k' ks} (h : Keeps s t) : Keeps s (t.ledgerFrame tr q k' ks) :=
  .ite h.keepSnapshots.laterSegment (.ite h.keepSnapshots.answerFrame (.ite h.keepSnapshots.answerFrame h.keepSnapshots.firstSegment))

theorem Keeps.subscribeFrame {tr q ks} (h : Keeps s t) : Keeps s (t.subscribeFrame tr q ks) :=
  .ite h.answerFrame (.ite h.answerFrame (.ite h.answerFrame (.ite h.valueOf.refuseFrame (.ite h.valueOf.answerFrame (.ite h.valueOf.answerFrame h.valueOf.upd.sendFrame)))))

theorem Keeps.unsubscribeFrame {tr q ks} (h : Keeps s t) : Keeps s (t.unsubscribeFrame tr q ks) := .ite h.upd.sendFrame h.sendFrame

theorem Keeps.putSub {id o} (h : Keeps s t) : Keeps s (t.putSub id o) := h.upd

theorem KeepsNext.notify {i} (h : Keeps s t) : KeepsNext s (execNotify i t) := by
  unfold execNotify
  refine .next ?_
  split
  · exact h
  · refine .ite h (.ite ?_ h.putSub)
    split
    rename_i e
    exact (h.valueOf.snd e).putSub.sendFrame

end

end Sys2Proof.Machine
end

section
/-! What Bilbin frames, commands and recovery keep (R443 to R465, R471 to R476). -/

namespace Sys2Proof.Machine

set_option Elab.async false

section
variable {s t u : State} {α : Type}

/-! ### Bilbin sessions -/

/-- A session is added only where fewer than 64 are held (R449). -/
theorem Keeps.helloFrame {tr q} (h : Keeps s t) : Keeps s (t.helloFrame tr q) := by
  unfold State.helloFrame
  dsimp only
  refine .ite h.answerFrame (.ite h.refuseFrame ?_)
  split
  · exact h.refuseFrame
  · rename_i free
    refine (h.spend.spend.upd (sessions := fun _ => ?_)).sendFrame
    simp only [Bool.or_eq_true, decide_eq_true_eq, not_or, Nat.not_le] at free
    rw [List.length_append]
    exact free.2

theorem Keeps.failProof {k'} (h : Keeps s t) : Keeps s (t.failProof k') := .ite h.upd h.upd

theorem Keeps.authFrame {tr q} (h : Keeps s t) : Keeps s (t.authFrame tr q) := by
  unfold State.authFrame
  split
  · exact h.refuseFrame
  · exact .ite h.answerFrame (.ite (h.upd (sessions := fun b => (List.length_map _).trans_le b)).answerFrame h.endSessions.failProof.refuseFrame)

theorem Keeps.sessionFrame {tr q x} (h : Keeps s t) : Keeps s (t.sessionFrame tr q x) := by
  unfold State.sessionFrame
  refine .ite h.refuseFrame ?_
  split
  · exact .ite h.readFrame h.refuseFrame
  · exact h.writeFrame
  · exact h.ackFrame
  · exact .ite h.ledgerFrame h.refuseFrame
  · exact .ite h.subscribeFrame h.refuseFrame
  · exact h.unsubscribeFrame
  · exact h.answerFrame.endSessions

theorem Keeps.goodFrame {tr q} (h : Keeps s t) : Keeps s (t.goodFrame tr q) := by
  unfold State.goodFrame
  refine .ite h.refuseFrame (.ite h.helloFrame (.ite h.authFrame ?_))
  split
  · exact h.refuseFrame
  · exact .ite h.refuseFrame h.sessionFrame

theorem Keeps.badFrame {tr q} (h : Keeps s t) : Keeps s (t.badFrame tr q) := .ite h.countFrame h.refuseFrame

theorem Keeps.frameIn {tr q} (h : Keeps s t) : Keeps s (t.frameIn tr q) := by
  unfold State.frameIn
  refine .ite h (.ite h.activity.handFail.badFrame ?_)
  split
  · rename_i e
    exact (h.activity.handover.snd e).goodFrame
  · rename_i e
    exact (h.activity.handover.snd e).goodFrame
  · rename_i e
    exact (h.activity.handover.snd e).badFrame

theorem Keeps.frameRow {tr q} (h : Keeps s t) : KeepsNext s (t.frameRow tr q) := .next (.ite h.frameIn.settle h)

theorem KeepsNext.hello {transport fr} (h : Keeps s t) : KeepsNext s (execHello transport fr t) := h.frameRow

theorem KeepsNext.auth {transport fr} (h : Keeps s t) : KeepsNext s (execAuth transport fr t) := h.frameRow

theorem KeepsNext.authHoldoffEnd {slot} (h : Keeps s t) : KeepsNext s (execAuthHoldoffEnd slot t) := .next (.ite h.upd h.upd)

theorem KeepsNext.read {transport fr} (h : Keeps s t) : KeepsNext s (execRead transport fr t) := h.frameRow

theorem KeepsNext.snapshotExpiry {session} (h : Keeps s t) : KeepsNext s (execSnapshotExpiry session t) := .next h.upd

theorem KeepsNext.write {transport fr} (h : Keeps s t) : KeepsNext s (execWrite transport fr t) := h.frameRow

theorem KeepsNext.assemblyTimeout {client cseq} (h : Keeps s t) : KeepsNext s (execAssemblyTimeout client cseq t) := .next h.dropAssembly

theorem KeepsNext.ack {transport fr} (h : Keeps s t) : KeepsNext s (execAck transport fr t) := h.frameRow

theorem KeepsNext.ledgerRead {transport fr} (h : Keeps s t) : KeepsNext s (execLedgerRead transport fr t) := h.frameRow

theorem KeepsNext.subscribe {transport fr} (h : Keeps s t) : KeepsNext s (execSubscribe transport fr t) := h.frameRow

theorem KeepsNext.unsubscribe {transport fr} (h : Keeps s t) : KeepsNext s (execUnsubscribe transport fr t) := h.frameRow

theorem KeepsNext.bye {transport fr} (h : Keeps s t) : KeepsNext s (execBye transport fr t) := h.frameRow

theorem KeepsNext.sessionIdleTimeout {session} (h : Keeps s t) : KeepsNext s (execSessionIdleTimeout session t) := .next h.endSessions.settle

theorem KeepsNext.mbxSlotRead {f r} (h : Keeps s t) : KeepsNext s (execMbxSlotRead f r t) := by
  unfold execMbxSlotRead
  refine .next (.settle (.ite h ?_))
  dsimp only
  split
  · exact h.emit.mbxError
  · refine .ite h.emit.mbxError (.ite h.emit.modMbx.upd.mbxError ?_)
    split
    · exact h.emit.modMbx.frameIn
    · exact h.emit.modMbx.handFail.countFrame

theorem Keeps.smbusRead {q} (h : Keeps s t) : Keeps s (t.smbusRead q) :=
  .ite h.answerFrame (.ite h.answerFrame (.ite h.answerFrame (.ite h.valueOf.refuseFrame h.valueOf.answerFrame)))

theorem Keeps.smbusRequest {q} (h : Keeps s t) : Keeps s (t.smbusRequest q) := by
  unfold State.smbusRequest
  dsimp only
  split
  · exact h.smbusTakes.activity.refuseFrame
  · refine .ite h.smbusTakes.activity.smbusRead ?_
    split
    · exact h.smbusTakes.activity.journalWrite
    · exact h.smbusTakes.activity

theorem Keeps.blockFails {q} (h : Keeps s t) : Keeps s (t.blockFails q) := h.smbusTakes.refuseFrame

theorem Keeps.smbusBlockIn {block} (h : Keeps s t) : Keeps s (t.smbusBlockIn block) := by
  unfold State.smbusBlockIn
  split
  · exact h.smbusTakes.handFail.countFrame
  · refine .ite h.handFail.blockFails ?_
    split
    · rename_i e
      exact (h.handover.snd e).smbusRequest
    · rename_i e
      exact (h.handover.snd e).smbusRequest
    · rename_i e
      exact (h.handover.snd e).blockFails

theorem Keeps.islandValue {idx sub x} (h : Keeps s t) (hx : t.islandValue idx sub = some x) : Keeps s x.2 := by
  unfold State.islandValue at hx
  have entry {c : Prop} [Decidable c] {k : Nat} (hx : (if c then some (t.readEntry idx k) else none) = some x) : Keeps s x.2 := by
    split at hx <;> cases hx
    exact h.readEntry
  split at hx
  iterate 5 cases hx; exact h
  iterate 4 exact entry hx
  cases hx

theorem Keeps.islandReply {q status v} (h : Keeps s t) : Keeps s (t.islandReply q status v) := h.upd

theorem Keeps.smbusStandby {block} (h : Keeps s t) : Keeps s (t.smbusStandby block) := by
  unfold State.smbusStandby
  extract_lets t₁
  have h₁ : Keeps s t₁ := h.smbusTakes
  clear_value t₁
  split
  · exact h₁
  · refine .ite h₁.islandReply ?_
    split
    · exact h₁.islandReply
    · refine .ite (Keeps.islandWake h₁.upd) ?_
      split
      · rename_i e
        exact (h₁.islandValue e).islandReply
      · exact h₁.islandReply

theorem KeepsNext.smbusBlockWrite {block pecOk} (h : Keeps s t) : KeepsNext s (execSmbusBlockWrite block pecOk t) :=
  .next (Keeps.ite h (.ite (.ite h.smbusStandby h) (.ite h.smbusTakes (.ite h.smbusTakes.countFrame h.smbusBlockIn)))).settle

theorem KeepsNext.smbusBlockRead (h : Keeps s t) : KeepsNext s (execSmbusBlockRead t) := by
  unfold execSmbusBlockRead
  refine .next (.ite h ?_)
  split
  · exact h.upd.emit
  · exact h.emit

theorem KeepsNext.smbusSclTimeout (h : Keeps s t) : KeepsNext s (execSmbusSclTimeout t) := .next (.ite h h.smbusTakes)

/-! ### Commands -/

theorem KeepsNext.stepTo {r p} (h : Keeps s t) : KeepsNext s (execStepTo r p t) := h.commandRow

theorem KeepsNext.armDeviceCue {r index pos addr ctl tgt} (h : Keeps s t) : KeepsNext s (execArmDeviceCue r index pos addr ctl tgt t) := h.commandRow

theorem KeepsNext.disarmDeviceCue {r index} (h : Keeps s t) : KeepsNext s (execDisarmDeviceCue r index t) := h.commandRow

theorem KeepsNext.tallyAdvance {r room tally amount} (h : Keeps s t) : KeepsNext s (execTallyAdvance r room tally amount t) := h.commandRow

theorem KeepsNext.windowOpen {r window room perm jobId base size} (h : Keeps s t) : KeepsNext s (execWindowOpen r window room perm jobId base size t) :=
  h.commandRow

theorem KeepsNext.windowClose {r window} (h : Keeps s t) : KeepsNext s (execWindowClose r window t) := h.commandRow

theorem KeepsNext.inject {r room point kind count} (h : Keeps s t) : KeepsNext s (execInject r room point kind count t) := h.commandRow

theorem KeepsNext.roomForm {r f} (h : Keeps s t) : KeepsNext s (execRoomForm r f t) := h.commandRow

theorem KeepsNext.roomDissolve {r room} (h : Keeps s t) : KeepsNext s (execRoomDissolve r room t) := h.commandRow

theorem KeepsNext.roomReset {b room} (h : Keeps s t) : KeepsNext s (execRoomReset b room t) := by
  unfold execRoomReset
  split
  · exact .next h.roomCtlWrite.settle
  · exact h.commandRow

theorem KeepsNext.roomDeclareFault {b room detail} (h : Keeps s t) : KeepsNext s (execRoomDeclareFault b room detail t) := by
  unfold execRoomDeclareFault
  split
  · exact .next h.roomCtlWrite.settle
  · exact h.commandRow

theorem KeepsNext.roomQos {r room hbmShare meshWeight fabricWeight dmaRate} (h : Keeps s t) : KeepsNext s (execRoomQos r room hbmShare meshWeight fabricWeight dmaRate t) :=
  h.commandRow

theorem KeepsNext.planWrite {r plan dissolve formations} (h : Keeps s t) : KeepsNext s (execPlanWrite r plan dissolve formations t) := h.commandRow

theorem KeepsNext.keySlot {r slot len key perm rooms base count} (h : Keeps s t) : KeepsNext s (execKeySlot r slot len key perm rooms base count t) :=
  h.commandRow

theorem KeepsNext.vaultWrite {r room object tag source length tally amount} (h : Keeps s t) : KeepsNext s (execVaultWrite r room object tag source length tally amount t) :=
  h.commandRow

theorem KeepsNext.vaultRead {r room object tag offset dest length tally amount} (h : Keeps s t) : KeepsNext s (execVaultRead r room object tag offset dest length tally amount t) :=
  h.commandRow

theorem KeepsNext.vaultDelete {r room object tag} (h : Keeps s t) : KeepsNext s (execVaultDelete r room object tag t) := h.commandRow

theorem KeepsNext.vaultStop {r room} (h : Keeps s t) : KeepsNext s (execVaultStop r room t) := h.commandRow

theorem KeepsNext.extentComplete {ok} (h : Keeps s t) : KeepsNext s (execExtentComplete ok t) := .next h.extentComplete.settle

theorem KeepsNext.pipeAssign {r room pipe} (h : Keeps s t) : KeepsNext s (execPipeAssign r room pipe t) := h.commandRow

theorem KeepsNext.pipeShadow {r room pipe shadow coef} (h : Keeps s t) : KeepsNext s (execPipeShadow r room pipe shadow coef t) := h.commandRow

theorem KeepsNext.commit {r room mask} (h : Keeps s t) : KeepsNext s (execCommit r room mask t) := h.commandRow

theorem KeepsNext.powerRequestLeaveIdle {r} (h : Keeps s t) : KeepsNext s (execPowerRequestLeaveIdle r t) := h.commandRow

theorem KeepsNext.powerRequestIdle {r} (h : Keeps s t) : KeepsNext s (execPowerRequestIdle r t) := h.commandRow

theorem KeepsNext.powerRequestStandby {r} (h : Keeps s t) : KeepsNext s (execPowerRequestStandby r t) := h.commandRow

theorem KeepsNext.quireGate {r room mask} (h : Keeps s t) : KeepsNext s (execQuireGate r room mask t) := h.commandRow

theorem KeepsNext.quireWake {r room mask} (h : Keeps s t) : KeepsNext s (execQuireWake r room mask t) := h.commandRow

theorem KeepsNext.deviceReset {r v} (h : Keeps s t) : KeepsNext s (execDeviceReset r v t) := h.commandRow

theorem KeepsNext.fwChunk {r kind offset data} (h : Keeps s t) : KeepsNext s (execFwChunk r kind offset data t) := h.commandRow

theorem KeepsNext.fwCommit {r kind len} (h : Keeps s t) : KeepsNext s (execFwCommit r kind len t) := h.commandRow

theorem KeepsNext.fwSelect {r kind} (h : Keeps s t) : KeepsNext s (execFwSelect r kind t) := h.commandRow

theorem KeepsNext.securityRaise {r kind value} (h : Keeps s t) : KeepsNext s (execSecurityRaise r kind value t) := h.commandRow

theorem Keeps.planNext {x} (h : Keeps s t) : Keeps s (t.planNext x) := by
  unfold State.planNext
  dsimp only
  split
  · rename_i e
    exact (h.upd.planGoes.done e).completeCmd
  · rename_i e
    exact h.upd.planGoes.wait e

theorem Keeps.roomPartDone {sub r} (h : Keeps s t) : Keeps s (t.roomPartDone sub r) := by
  unfold State.roomPartDone
  split
  · exact h
  · exact .ite (.ite h.planNext h) (.ite h.completeCmd h)

theorem KeepsNext.formed {room} (h : Keeps s t) : KeepsNext s (execFormed room t) := by
  unfold execFormed
  refine .next ?_
  split
  · exact h
  · exact .ite h (Keeps.ite h.endForm.modRoom h.endForm).roomPartDone.settle

theorem KeepsNext.dissolutionDone {room} (h : Keeps s t) : KeepsNext s (execDissolutionDone room t) := by
  unfold execDissolutionDone
  refine .next ?_
  split
  · exact h
  · exact .ite (Keeps.ite h.stopJobs.endDissolve.roomPartDone h.stopJobs).settle h

theorem Keeps.resetPoll {r} (h : Keeps s t) : Keeps s (t.resetPoll r) := by
  unfold State.resetPoll
  split
  · exact h
  · exact .ite h.completeCmd h

theorem KeepsNext.abortDone {c} (h : Keeps s t) : KeepsNext s (execAbortDone c t) := by
  unfold execAbortDone
  refine .next (.ite (.ite h.wakeForStatus ?_) h)
  split
  · exact h.abortEnd.settleReset.resetPoll.settle
  · exact h

theorem KeepsNext.flrWaitExpiry {room} (h : Keeps s t) : KeepsNext s (execFlrWaitExpiry room t) :=
  .next (.ite (h.forL (fun _ _ k => k.giveUp)).settleReset.resetPoll.settle h)

theorem Keeps.negFinish {e : NegEnd × State} (h : Keeps s e.2) : Keeps s (Machine.negFinish e) := by
  unfold Machine.negFinish
  split
  · exact h
  · exact h.completeCmd

theorem KeepsNext.blockAnswer {activity} (h : Keeps s t) : KeepsNext s (execBlockAnswer activity t) := .next h.blockAnswers.negFinish.settle

theorem KeepsNext.blockTimeout (h : Keeps s t) : KeepsNext s (execBlockTimeout t) := .next h.blockAnswers.negFinish.settle

theorem KeepsNext.quireGatingDone (h : Keeps s t) : KeepsNext s (execQuireGatingDone t) := .next h.gatingEnds.negFinish.settle

theorem Keeps.wakePoll (h : Keeps s t) : Keeps s t.wakePoll := by
  unfold State.wakePoll
  split
  · exact h
  · exact .ite h.completeCmd h

theorem KeepsNext.quireWakeDone {q} (h : Keeps s t) : KeepsNext s (execQuireWakeDone q t) := .next (.ite h.wakeDone.resumeQuire.wakePoll.settle h)

/-! ### Boot and recovery -/

theorem Keeps.beginCheckpoint (h : Keeps s t) : Keeps s t.beginCheckpoint := .ite h.modLed h

theorem KeepsNext.checkpointBegin (h : Keeps s t) : KeepsNext s (execCheckpointBegin t) := .next (.ite h.beginCheckpoint h)

theorem KeepsNext.checkpointComplete (h : Keeps s t) : KeepsNext s (execCheckpointComplete t) := .next (.ite h.modLed h)

theorem Keeps.recoverRec {r} (h : Keeps s t) : Keeps s (t.recoverRec r).2.2 := by
  unfold State.recoverRec
  dsimp only
  split
  · exact .pair h
  · split
    · split
      · exact .pair h.setCfg
      · exact .pair h
    · split
      · split
        · rename_i e
          exact .pair (h.planEffect.done e)
        · rename_i e
          exact .pair (h.planEffect.wait e)
      · split
        · split
          · rename_i e
            exact .pair (h.raiseEffect.done e)
          · rename_i e
            exact .pair (h.raiseEffect.wait e)
        · exact .pair h

theorem Keeps.completeOne {r} (h : Keeps s t) : Keeps s (t.completeOne r) := h.recoverRec.upd

theorem Keeps.settingsFollow (h : Keeps s t) : Keeps s t.settingsFollow := by
  unfold State.settingsFollow
  extract_lets u
  have k : Keeps s u.ownKeeper.acquire.islandCopies := .islandCopies <| .acquire <| .ownKeeper <| h.forN fun _ _ k => .ite k.startTraining k.modPort
  generalize u.ownKeeper.acquire.islandCopies = v at k ⊢
  exact k.modPow

theorem Keeps.recover {torn} (h : Keeps s t) : Keeps s (t.recover torn) := by
  unfold State.recover
  extract_lets nTorn inc l c u₁ opened u₂ nInt jobs vault pow
  have k : Keeps s u₂ := h.upd.forL fun _ _ k => k.completeOne
  clear_value u₂
  exact (k.upd.event.forL fun _ _ k => k.jobEnds).settingsFollow

theorem KeepsNext.ledgerRecovery {torn} (h : Keeps s t) : KeepsNext s (execLedgerRecovery torn t) := .next (.ite h.recover.settle h)

theorem KeepsNext.verify (h : Keeps s t) : KeepsNext s (execVerify t) := by
  unfold execVerify
  refine .next (.ite (.settle ?_) h)
  split
  · exact h.verifyStage.upd.smbusBlockIn
  · exact h.verifyStage

end

end Sys2Proof.Machine
end

section
/-! What the instructions of the tile core and its units keep (R127 to R244). -/

namespace Sys2Proof.Machine

set_option Elab.async false

section
variable {s t u : State} {α : Type}

/-! ### Rows through the collectors -/

/-- A unit instruction keeps what its checks and its body keep. -/
theorem Keeps.unitInstr {t' n} {check : State → Mem α} {body : α → State → State} (h : Keeps s t) (hc : ∀ u, Keeps s u → KeepsMem s (check u))
    (hb : ∀ a u, Keeps s u → Keeps s (body a u)) : Keeps s (t.unitInstr t' n check body) := by
  unfold State.unitInstr
  refine .ite ?_ h
  dsimp only
  have k : KeepsMem s (((t.cyclePerf t').fetch t' (t.tile t').pc.toNat n).andThen fun _ s => check s) := h.cyclePerf.fetch.andThen fun _ u => hc u
  split
  · rename_i e
    exact hb _ _ (k.ok e).modTile
  · rename_i e
    exact (k.fault e).takeSync
  · exact h

theorem Keeps.modXu {t' f} (h : Keeps s t) : Keeps s (t.modXu t' f) := h.modTile

theorem Keeps.close {r : Run1} {t'} (h : Keeps s r.s) : Keeps s (Machine.Run1.close r t') := h.forL fun _ _ k => k.xuEcc

theorem Keeps.gran {r : Run1} {t' g} (h : Keeps s r.s) : Keeps s (Machine.Run1.gran r t' g).2.s := by
  unfold Machine.Run1.gran
  split
  · rename_i e
    exact h.xrGran.snd e
  · rename_i e
    exact (h.xrGran.snd e).spend

theorem Keeps.row {r : Run1} {t' row} (h : Keeps s r.s) : Keeps s (Run1.row r t' row).2.s := by
  unfold Run1.row
  refine Keeps.foldl (fun b : List Byte × Run1 => b.2.s) (by exact h) ?_
  rintro ⟨bs, r⟩ i k
  exact k.gran

theorem Keeps.carryRow {r : Run1} {t' row} (h : Keeps s r.s) : Keeps s (Run1.carryRow r t' row).2.s := by
  unfold Run1.carryRow
  refine Keeps.foldl (fun b : List Gran × Run1 => b.2.s) (by exact h) ?_
  rintro ⟨bs, r⟩ i k
  exact k.carry

theorem Keeps.operand {r : Run1} {t' co row} (h : Keeps s r.s) : Keeps s (Run1.operand r t' co row).2.s := by
  unfold Run1.operand
  have k : Keeps s (Run1.row { r with s := r.s.modXu t' fun x => collect x co row } t' row).2.s := .row (.run h.modXu)
  generalize Run1.row { r with s := r.s.modXu t' fun x => collect x co row } t' row = p at k ⊢
  exact k

theorem Keeps.putRow {t' row bs} (h : Keeps s t) : Keeps s (t.putRow t' row bs) := h.putXr.modXu

theorem Keeps.putGrans {t' row l} (h : Keeps s t) : Keeps s (t.putGrans t' row l) := h.putXr.modXu

theorem Keeps.unitFlags {t' f} (h : Keeps s t) : Keeps s (t.unitFlags t' f) := h.modXu

theorem Keeps.unitCycles {t' extra} (h : Keeps s t) : Keeps s (t.unitCycles t' extra) := by
  unfold State.unitCycles
  exact h.spend.spend.modXu

/-! ### Matrix instructions and moves -/

theorem Keeps.rowCopy {t' src dst} (h : Keeps s t) : Keeps s (t.rowCopy t' src dst) := by
  unfold State.rowCopy
  have k : Keeps s (Run1.carryRow { s := t.modXu t' fun x => collect x .a src, bad := [] } t' src).2.s := .carryRow (.run h.modXu)
  generalize Run1.carryRow { s := t.modXu t' fun x => collect x .a src, bad := [] } t' src = p at k ⊢
  exact .close (.run k.putGrans.unitCycles)

theorem KeepsNext.zrd {t' z} (h : Keeps s t) : KeepsNext s (execZrd t' z t) := .next (h.unitInstr (fun _ k => k) (fun _ _ k => k.rowCopy))

theorem KeepsNext.zwr {t' z} (h : Keeps s t) : KeepsNext s (execZwr t' z t) := .next (h.unitInstr (fun _ k => k) (fun _ _ k => k.rowCopy))

theorem Keeps.moveCheck {t' a st n w reads} (h : Keeps s t) : KeepsMem s (t.moveCheck t' a st n w reads) := by
  unfold State.moveCheck
  split
  · exact h
  · refine .ite ?_ h
    dsimp only
    split
    · rename_i e
      exact h.drainN.snd e
    · rename_i e
      exact trivial

theorem Keeps.padGran {r : Run1} {t' a} (h : Keeps s r.s) : Keeps s (Machine.Run1.padGran r t' a).2.s := by
  unfold Machine.Run1.padGran
  dsimp only
  split
  · rename_i e
    exact h.readGran.snd e
  · rename_i e
    exact h.readGran.snd e

theorem Keeps.fromPad {r : Run1} {t' a} (h : Keeps s r.s) : Keeps s (Run1.fromPad r t' a).2.s := by
  unfold Run1.fromPad
  refine Keeps.foldl (fun b : List Gran × Run1 => b.2.s) (by exact h) ?_
  rintro ⟨bs, r⟩ i k
  exact k.padGran

theorem Keeps.padLoad {t' l} (h : Keeps s t) : Keeps s (t.padLoad t' l) := by
  unfold State.padLoad
  refine Keeps.close (Keeps.unitCycles (Keeps.foldl (fun r : Run1 => r.s) (by exact h) ?_))
  rintro r ⟨row, a⟩ k
  have k := k.fromPad (t' := t') (a := a)
  dsimp only
  generalize Run1.fromPad r t' a = p at k ⊢
  exact k.putGrans

theorem Keeps.putCarried {l : List Gran} {g t} (h : Keeps s t) : Keeps s (t.putCarried g l) := by
  induction l generalizing g t with
  | nil => exact h
  | cons e l ih => exact ih h.putBytes.setSynd

theorem Keeps.padStore {t' l} (h : Keeps s t) : Keeps s (t.padStore t' l) := by
  unfold State.padStore
  refine Keeps.modXu (Keeps.close (Keeps.unitCycles (Keeps.foldl (fun r : Run1 => r.s) (by exact h) ?_)))
  rintro r ⟨row, a⟩ k
  have k := k.carryRow (t' := t') (row := row)
  dsimp only
  generalize Run1.carryRow r t' row = p at k ⊢
  exact k.putCarried

theorem KeepsNext.tld {t' n y x} (h : Keeps s t) : KeepsNext s (execTld t' n y x t) :=
  .next (h.unitInstr (fun _ k => k.moveCheck.andThen (fun _ _ k1 => k1)) (fun _ _ k => k.padLoad))

theorem KeepsNext.tst {t' n y x} (h : Keeps s t) : KeepsNext s (execTst t' n y x t) :=
  .next (h.unitInstr (fun _ k => k.moveCheck.andThen (fun _ _ k1 => k1)) (fun _ _ k => k.padStore))

theorem KeepsNext.zld {t' d y x} (h : Keeps s t) : KeepsNext s (execZld t' d y x t) :=
  .next (h.unitInstr (fun _ k => k.moveCheck.andThen (fun _ _ k1 => k1)) (fun _ _ k => k.padLoad))

theorem KeepsNext.zst {t' d y x} (h : Keeps s t) : KeepsNext s (execZst t' d y x t) :=
  .next (h.unitInstr (fun _ k => k.moveCheck.andThen (fun _ _ k1 => k1)) (fun _ _ k => k.padStore))

theorem KeepsNext.rld {t' row ix y} (h : Keeps s t) : KeepsNext s (execRld t' row ix y t) :=
  .next (h.unitInstr (fun _ k => k.moveCheck.andThen (fun _ _ k1 => k1)) (fun _ _ k => k.padLoad))

theorem KeepsNext.rst {t' row ix y} (h : Keeps s t) : KeepsNext s (execRst t' row ix y t) :=
  .next (h.unitInstr (fun _ k => k.moveCheck.andThen (fun _ _ k1 => k1)) (fun _ _ k => k.padStore))

theorem Keeps.mmaRow {r : Run1} {t' a d p b i} (h : Keeps s r.s) : Keeps s (Run1.mmaRow r t' a d p b i).s := by
  unfold Run1.mmaRow
  have k₁ := h.operand (t' := t') (co := .a) (row := 32 * a + i)
  generalize Run1.operand r t' .a (32 * a + i) = r₁ at k₁ ⊢
  have k₂ := k₁.operand (t' := t') (co := .c) (row := zRow d i 0)
  obtain ⟨av, r₁⟩ := r₁
  dsimp only at k₂ ⊢
  generalize Run1.operand r₁ t' .c (zRow d i 0) = r₂ at k₂ ⊢
  have k₃ := k₂.operand (t' := t') (co := .c) (row := zRow d i 1)
  obtain ⟨lo, r₂⟩ := r₂
  dsimp only at k₃ ⊢
  generalize Run1.operand r₂ t' .c (zRow d i 1) = r₃ at k₃ ⊢
  exact k₃.unitFlags.putRow.putRow

theorem Keeps.loadB {r : Run1} {t' b} (h : Keeps s r.s) : Keeps s (Run1.loadB r t' b).2.s := by
  unfold Run1.loadB
  extract_lets x held rows
  have hr {via r} (h : Keeps s r.s) : Keeps s (rows via r).2.s := by
    refine .foldl (fun b : List Nat × Run1 => b.2.s) (by exact h) ?_
    rintro ⟨l, r⟩ i k
    have kr := k.row (t' := t') (row := 32 * b + i)
    have ko := k.operand (t' := t') (co := .b) (row := 32 * b + i)
    dsimp only at kr ko ⊢
    generalize Run1.row r t' (32 * b + i) = p at kr ⊢
    generalize Run1.operand r t' .b (32 * b + i) = q at ko ⊢
    cases via with
    | false => exact kr
    | true => exact ko
  clear_value rows
  split
  · exact hr (.run h.modXu)
  · have k := hr (via := true) h
    generalize rows true r = p at k ⊢
    exact k.modXu.run

theorem Keeps.loadScales {r : Run1} {t' sn nb} (h : Keeps s r.s) : Keeps s (Run1.loadScales r t' sn nb).2.s := by
  unfold Run1.loadScales
  extract_lets need
  refine .foldl (fun b : List Byte × Run1 => b.2.s) (by exact h) ?_
  rintro ⟨bs, r⟩ i k
  dsimp only at k ⊢
  split
  · have k := k.operand (t' := t') (co := .b) (row := 32 * sn + i)
    generalize Run1.operand r t' .b (32 * sn + i) = p at k ⊢
    exact k
  · exact k

theorem Keeps.mmaRun {t' m sc} (h : Keeps s t) : Keeps s (t.mmaRun t' m sc) := by
  unfold State.mmaRun
  have k : Keeps s (Run1.loadB { s := t, bad := [] } t' m.b).2.s := .loadB (.run h)
  generalize Run1.loadB { s := t, bad := [] } t' m.b = p at k ⊢
  obtain ⟨b, r⟩ := p
  dsimp only at k ⊢
  refine .close (.run (.unitCycles (.foldl (fun r : Run1 => r.s) ?_ fun _ _ k => by exact k.mmaRow)))
  split
  · exact k.loadScales
  · exact k

theorem KeepsNext.mma {t' m} (h : Keeps s t) : KeepsNext s (execMma t' m t) :=
  .next (h.unitInstr (fun _ k => .ite k (.ite k k)) (fun _ _ k => k.mmaRun))

theorem KeepsNext.mmaMx {t' m sn} (h : Keeps s t) : KeepsNext s (execMmaMx t' m sn t) :=
  .next (h.unitInstr (fun _ k => .ite k k) (fun _ _ k => k.mmaRun))

theorem KeepsNext.zclr {t' d} (h : Keeps s t) : KeepsNext s (execZclr t' d t) :=
  .next (h.unitInstr (fun _ k => k) (fun _ _ k => (k.forN (fun _ _ k1 => k1.putRow)).unitCycles))

theorem KeepsNext.xmf {t' x u'} (h : Keeps s t) : KeepsNext s (execXmf t' x u' t) := .next h.regInstr

theorem Keeps.loadImage {t' area} (h : Keeps s t) : Keeps s (t.loadImage t' area) := by
  rw [State.loadImage]
  generalize hr : List.foldl _ ({ s := t, bad := [] } : Run1) _ = r
  have kr : Keeps s r.s := by
    rw [← hr]
    refine .foldl (fun r : Run1 => r.s) (by exact h) ?_
    intro r i k
    have k := k.fromPad (t' := t') (a := area + 32 * i)
    dsimp only
    generalize Run1.fromPad r t' (area + 32 * i) = p at k ⊢
    exact k.putGrans
  generalize hp : List.foldl _ _ (List.range 32) = p
  have kp : Keeps s p.2.s := by
    rw [← hp]
    refine .foldl (fun b : List W16 × Run1 => b.2.s) (by exact kr) ?_
    rintro ⟨ws, r⟩ i k
    have k := k.padGran (t' := t') (a := area + 16384 + 4 * i)
    dsimp only at k ⊢
    generalize Run1.padGran r t' (area + 16384 + 4 * i) = p at k ⊢
    obtain ⟨⟨bs, y⟩, r⟩ := p
    dsimp only at k ⊢
    split
    · exact k
    · exact k.spend
  obtain ⟨ws, r⟩ := p
  exact .close (.run kp.modXu)

theorem Keeps.switchCtx {t' c} (h : Keeps s t) : Keeps s (t.switchCtx t' c) := by
  unfold State.switchCtx
  exact (Keeps.ite h.saveUnits.loadImage h.saveUnits.modXu).modXu

theorem Keeps.ctxCheck {t' v} (h : Keeps s t) : KeepsMem s (t.ctxCheck t' v) := by
  unfold State.ctxCheck
  refine .ite h ?_
  split
  · rename_i e
    exact h.drainAll.snd e
  · rename_i e
    exact trivial

theorem Keeps.xmtInstr {t' u' y} (h : Keeps s t) : Keeps s (t.xmtInstr t' u' y) :=
  .ite h.faultInstr (.ite (h.unitInstr (fun _ k => .ite k k.ctxCheck) (fun _ _ k => k.switchCtx)) (h.unitInstr (fun _ k => .ite k k) (fun _ _ k => k.modXu)))

theorem KeepsNext.xmt {t' u' y} (h : Keeps s t) : KeepsNext s (execXmt t' u' y t) := .next h.xmtInstr

theorem KeepsNext.xuCtx {t' y} (h : Keeps s t) : KeepsNext s (execXuCtx t' y t) := .next h.xmtInstr

theorem KeepsNext.xwait {t'} (h : Keeps s t) : KeepsNext s (execXwait t' t) := .next h.regInstr

/-! ### Accumulators -/

theorem Keeps.macInstr {t' i j f} (h : Keeps s t) : Keeps s (t.macInstr t' i j f) := by
  unfold State.macInstr
  refine .ite h.faultInstr (.runInstr h fun u k => ?_)
  dsimp only
  split
  · exact k
  · exact k.loadWords.andThen fun _ _ k => k.loadWords.andThen fun _ _ k1 => (Keeps.ite k1.modTile k1).finish

theorem KeepsNext.mac {t' n i j} (h : Keeps s t) : KeepsNext s (execMac t' n i j t) := .next h.macInstr

theorem KeepsNext.macs {t' n i j} (h : Keeps s t) : KeepsNext s (execMacs t' n i j t) := .next h.macInstr

theorem KeepsNext.msu {t' n i j} (h : Keeps s t) : KeepsNext s (execMsu t' n i j t) := .next h.macInstr

theorem KeepsNext.macu {t' n i j} (h : Keeps s t) : KeepsNext s (execMacu t' n i j t) := .next h.macInstr

theorem KeepsNext.macr {t' n x y} (h : Keeps s t) : KeepsNext s (execMacr t' n x y t) := .next h.regInstr

theorem KeepsNext.clra {t' n} (h : Keeps s t) : KeepsNext s (execClra t' n t) := .next h.regInstr

theorem KeepsNext.rdacc {t' x n spec} (h : Keeps s t) : KeepsNext s (execRdacc t' x n spec t) := .next (.ite h.faultInstr h.regInstr)

theorem KeepsNext.wracc {t' n y} (h : Keeps s t) : KeepsNext s (execWracc t' n y t) := .next h.regInstr

theorem KeepsNext.addacc {t' n m} (h : Keeps s t) : KeepsNext s (execAddacc t' n m t) := .next h.regInstr

theorem KeepsNext.stacc {t' n y} (h : Keeps s t) : KeepsNext s (execStacc t' n y t) :=
  .next (h.runInstr (fun _ k => k.store.andThen (fun _ _ k1 => k1.finish)))

theorem KeepsNext.ldacc {t' n y} (h : Keeps s t) : KeepsNext s (execLdacc t' n y t) :=
  .next (h.runInstr (fun _ k => k.load.andThen (fun _ _ k1 => k1.finish)))

/-! ### Arithmetic -/

theorem Keeps.aluInstr {t' x b f} (h : Keeps s t) : Keeps s (t.aluInstr t' x b f) := h.regInstr

theorem KeepsNext.add {t' x b} (h : Keeps s t) : KeepsNext s (execAdd t' x b t) := .next h.aluInstr

theorem KeepsNext.addc {t' x b} (h : Keeps s t) : KeepsNext s (execAddc t' x b t) := .next h.aluInstr

theorem KeepsNext.sub {t' x b} (h : Keeps s t) : KeepsNext s (execSub t' x b t) := .next h.aluInstr

theorem KeepsNext.subc {t' x b} (h : Keeps s t) : KeepsNext s (execSubc t' x b t) := .next h.aluInstr

theorem KeepsNext.cmp {t' x b} (h : Keeps s t) : KeepsNext s (execCmp t' x b t) := .next h.regInstr

theorem KeepsNext.and {t' x b} (h : Keeps s t) : KeepsNext s (execAnd t' x b t) := .next h.aluInstr

theorem KeepsNext.or {t' x b} (h : Keeps s t) : KeepsNext s (execOr t' x b t) := .next h.aluInstr

theorem KeepsNext.xor {t' x b} (h : Keeps s t) : KeepsNext s (execXor t' x b t) := .next h.aluInstr

theorem Keeps.oneInstr {t' x y f} (h : Keeps s t) : Keeps s (t.oneInstr t' x y f) := h.regInstr

theorem KeepsNext.not {t' x} (h : Keeps s t) : KeepsNext s (execNot t' x t) := .next h.oneInstr

theorem KeepsNext.neg {t' x} (h : Keeps s t) : KeepsNext s (execNeg t' x t) := .next h.oneInstr

theorem KeepsNext.abs {t' x} (h : Keeps s t) : KeepsNext s (execAbs t' x t) := .next h.oneInstr

theorem Keeps.shiftInstr {t' x k' op} (h : Keeps s t) : Keeps s (t.shiftInstr t' x k' op) := h.regInstr

theorem KeepsNext.shl {t' x k'} (h : Keeps s t) : KeepsNext s (execShl t' x k' t) := .next h.shiftInstr

theorem KeepsNext.shr {t' x k'} (h : Keeps s t) : KeepsNext s (execShr t' x k' t) := .next h.shiftInstr

theorem KeepsNext.sar {t' x k'} (h : Keeps s t) : KeepsNext s (execSar t' x k' t) := .next h.shiftInstr

theorem KeepsNext.rol {t' x k'} (h : Keeps s t) : KeepsNext s (execRol t' x k' t) := .next h.shiftInstr

theorem Keeps.mulInstr {t' x y f} (h : Keeps s t) : Keeps s (t.mulInstr t' x y f) := h.regInstr

theorem KeepsNext.mul {t' x y} (h : Keeps s t) : KeepsNext s (execMul t' x y t) := .next h.mulInstr

theorem KeepsNext.mulu {t' x y} (h : Keeps s t) : KeepsNext s (execMulu t' x y t) := .next h.mulInstr

theorem KeepsNext.mulh {t' x y} (h : Keeps s t) : KeepsNext s (execMulh t' x y t) := .next h.mulInstr

theorem KeepsNext.mulhu {t' x y} (h : Keeps s t) : KeepsNext s (execMulhu t' x y t) := .next h.mulInstr

theorem KeepsNext.adda {t' x b} (h : Keeps s t) : KeepsNext s (execAdda t' x b t) := by
  unfold execAdda
  refine .next ?_
  split
  · exact h.regInstr
  · exact h.regInstr
  · exact h.regInstr

theorem KeepsNext.cmpa {t' x y} (h : Keeps s t) : KeepsNext s (execCmpa t' x y t) := .next h.regInstr

theorem KeepsNext.ext {t' x y spec} (h : Keeps s t) : KeepsNext s (execExt t' x y spec t) := .next (.ite h.faultInstr h.regInstr)

theorem KeepsNext.ins {t' x y spec} (h : Keeps s t) : KeepsNext s (execIns t' x y spec t) := .next (.ite h.faultInstr h.regInstr)

theorem KeepsNext.bswap {t' x y} (h : Keeps s t) : KeepsNext s (execBswap t' x y t) := .next h.oneInstr

theorem KeepsNext.clz {t' x y} (h : Keeps s t) : KeepsNext s (execClz t' x y t) := .next h.oneInstr

theorem KeepsNext.popc {t' x y} (h : Keeps s t) : KeepsNext s (execPopc t' x y t) := .next h.oneInstr

/-! ### Moves and memory instructions -/

theorem KeepsNext.nop {t'} (h : Keeps s t) : KeepsNext s (execNop t' t) := .next h.regInstr

theorem KeepsNext.mov {t' x y} (h : Keeps s t) : KeepsNext s (execMov t' x y t) := .next h.regInstr

theorem KeepsNext.movi {t' x i} (h : Keeps s t) : KeepsNext s (execMovi t' x i t) := .next h.regInstr

theorem KeepsNext.mova {t' x y} (h : Keeps s t) : KeepsNext s (execMova t' x y t) := by
  unfold execMova
  refine .next ?_
  split
  · exact h.regInstr
  · exact h.regInstr

theorem KeepsNext.getl {t' x y} (h : Keeps s t) : KeepsNext s (execGetl t' x y t) := .next h.regInstr

theorem KeepsNext.geth {t' x y} (h : Keeps s t) : KeepsNext s (execGeth t' x y t) := .next h.regInstr

theorem KeepsNext.putl {t' x y} (h : Keeps s t) : KeepsNext s (execPutl t' x y t) := .next h.regInstr

theorem KeepsNext.puth {t' x y} (h : Keeps s t) : KeepsNext s (execPuth t' x y t) := .next h.regInstr

theorem KeepsNext.ld {t' x y m} (h : Keeps s t) : KeepsNext s (execLd t' x y m t) :=
  .next (h.runInstr (fun _ k => k.load16.andThen (fun _ _ k1 => k1.finish)))

theorem KeepsNext.st {t' x y m} (h : Keeps s t) : KeepsNext s (execSt t' x y m t) :=
  .next (h.runInstr (fun _ k => k.store.andThen (fun _ _ k1 => k1.finish)))

theorem KeepsNext.lda {t' x y m} (h : Keeps s t) : KeepsNext s (execLda t' x y m t) :=
  .next (h.runInstr (fun _ k => k.load32.andThen (fun _ _ k1 => k1.finish)))

theorem KeepsNext.sta {t' x y m} (h : Keeps s t) : KeepsNext s (execSta t' x y m t) :=
  .next (h.runInstr (fun _ k => k.store.andThen (fun _ _ k1 => k1.finish)))

theorem KeepsNext.lea {t' x y d} (h : Keeps s t) : KeepsNext s (execLea t' x y d t) := by
  unfold execLea
  refine .next ?_
  split
  · exact h.regInstr
  · exact h.regInstr

theorem Keeps.pushWords {t' ws} (h : Keeps s t) : KeepsMem s (t.pushWords t' ws) := h.store.andThen fun _ _ k => k.modTile

theorem KeepsNext.push {t' x} (h : Keeps s t) : KeepsNext s (execPush t' x t) :=
  .next (h.runInstr (fun _ k => k.pushWords.andThen (fun _ _ k1 => k1.finish)))

theorem KeepsNext.pop {t' x} (h : Keeps s t) : KeepsNext s (execPop t' x t) :=
  .next (h.runInstr (fun _ k => k.load16.andThen (fun _ _ k1 => k1.finish)))

theorem KeepsNext.pusha {t' x} (h : Keeps s t) : KeepsNext s (execPusha t' x t) :=
  .next (h.runInstr (fun _ k => k.pushWords.andThen (fun _ _ k1 => k1.finish)))

theorem KeepsNext.popa {t' x} (h : Keeps s t) : KeepsNext s (execPopa t' x t) :=
  .next (h.runInstr (fun _ k => k.load32.andThen (fun _ _ k1 => k1.finish)))

/-! ### Control flow -/

theorem Keeps.branch {t' words taken neg d} (h : Keeps s t) : KeepsMem s (t.branch t' words taken neg d) :=
  Keeps.ite h.modTile h.modTile.modTile.wrongPath

theorem KeepsNext.br {t' cc d} (h : Keeps s t) : KeepsNext s (execBr t' cc d t) := by
  unfold execBr
  refine .next (.runInstr h fun u k => ?_)
  split
  · exact k
  · exact k.branch

theorem KeepsNext.brl {t' cc d} (h : Keeps s t) : KeepsNext s (execBrl t' cc d t) := by
  unfold execBrl
  refine .next (.runInstr h fun u k => ?_)
  split
  · exact k
  · exact k.branch

theorem KeepsNext.jmp {t' a} (h : Keeps s t) : KeepsNext s (execJmp t' a t) := by
  unfold execJmp
  refine .next ?_
  split
  · exact h.runInstr fun _ k => k
  · exact h.runInstr fun _ k => k

theorem KeepsNext.call {t' a} (h : Keeps s t) : KeepsNext s (execCall t' a t) := by
  unfold execCall
  refine .next ?_
  split
  · exact h.runInstr fun _ k => k.pushWords.andThen fun _ _ k1 => k1
  · exact h.runInstr fun _ k => k.pushWords.andThen fun _ _ k1 => k1

theorem KeepsNext.ret {t'} (h : Keeps s t) : KeepsNext s (execRet t' t) := .next (h.runInstr (fun _ k => k.load32.andThen (fun _ _ k1 => k1.modTile)))

theorem KeepsNext.loop {t' x d} (h : Keeps s t) : KeepsNext s (execLoop t' x d t) := .next (h.runInstr (fun _ k => k.modTile.branch))

/-! ### Gates and returns -/

theorem Keeps.storeAll {l t t'} (h : Keeps s t) : Keeps s (t.storeAll t' l).2 := by
  induction l generalizing t with
  | nil => exact h
  | cons e l ih =>
    unfold State.storeAll
    split
    · rename_i e
      exact ih (h.store.ok e)
    · rename_i e
      exact h.store.fault e
    · exact h

theorem Keeps.gateEnter {t' l} (h : Keeps s t) : KeepsMem s (t.gateEnter t' l) := by
  unfold State.gateEnter
  dsimp only
  split
  · exact h
  · split
    · rename_i e
      exact trivial
    · rename_i e
      exact (h.modTile.storeAll.snd e).modTile

theorem KeepsNext.gate {t' g} (h : Keeps s t) : KeepsNext s (execGate t' g t) := by
  unfold execGate
  refine .next (.runInstr h fun u k => (.ite k (.ite k (.andThen k.loadWords fun a u k => ?_))))
  split
  · exact k
  · exact k.gateEnter

theorem Keeps.retGate {t'} (h : Keeps s t) : KeepsMem s (t.retGate t') :=
  h.load.andThen fun _ _ k => k.load32.andThen fun _ _ k1 => k1.load32.andThen fun _ _ k2 => k2.modTile

theorem Keeps.retInterruption {t'} (h : Keeps s t) : KeepsMem s (t.retInterruption t') := h.modTile

theorem Keeps.retiAny {t'} (h : Keeps s t) : Keeps s (t.retiAny t') := h.runInstr fun _ k => .ite k (.ite k.retInterruption k.retGate)

theorem KeepsNext.reti {t'} (h : Keeps s t) : KeepsNext s (execReti t' t) := .next h.retiAny

theorem KeepsNext.retiInterruption {t'} (h : Keeps s t) : KeepsNext s (execRetiInterruption t' t) := .next h.retiAny

theorem KeepsNext.noint {t' n} (h : Keeps s t) : KeepsNext s (execNoint t' n t) := .next (h.runInstr (fun _ k => .ite k (.ite k k.finish)))

theorem KeepsNext.nointExpire {t'} (h : Keeps s t) : KeepsNext s (execNointExpire t' t) := .next (.ite h.modTile h)

theorem KeepsNext.halt {t'} (h : Keeps s t) : KeepsNext s (execHalt t' t) := by
  unfold execHalt
  refine .next (.runInstr h fun u k => (.ite k ?_))
  split
  · rename_i e
    exact trivial
  · rename_i e
    exact (k.drainAll.snd e).haltTile

/-! ### Events, tallies and core registers -/

theorem Keeps.holdIn {t' r} (h : Keeps s t) : KeepsMem s (t.holdIn t' r) := h.modTile

theorem KeepsNext.waits {t' x} (h : Keeps s t) : KeepsNext s (execWaits t' x t) := .next (h.runInstr (fun _ k => .ite k.holdIn k.finish))

theorem KeepsNext.sig {t' x} (h : Keeps s t) : KeepsNext s (execSig t' x t) := by
  unfold execSig
  refine .next (.runInstr h fun u k => (.ite k ?_))
  split
  · rename_i e
    exact trivial
  · rename_i e
    exact (k.drainFull.snd e).modTile.finish

theorem KeepsNext.waitp {t' y} (h : Keeps s t) : KeepsNext s (execWaitp t' y t) :=
  .next (h.runInstr (fun _ k => k.load.andThen (fun _ _ k1 => .ite k1.finish k1.holdIn)))

theorem KeepsNext.waitpWake {t'} (h : Keeps s t) : KeepsNext s (execWaitpWake t' t) := by
  unfold execWaitpWake
  refine .next ?_
  split
  · exact .ite h.modTile h
  · exact h

theorem KeepsNext.waitt {t' x y} (h : Keeps s t) : KeepsNext s (execWaitt t' x y t) := by
  unfold execWaitt
  refine .next (.runInstr h fun u k => (.andThen k.load fun a u k => (.ite k ?_)))
  split
  · rename_i e
    exact (k.registerWait.snd e).finish
  · rename_i e
    exact .ite (k.registerWait.snd e).dropTileWaits.finish (.ite (k.registerWait.snd e).holdIn (k.registerWait.snd e).dropTileWaits.holdIn)

theorem KeepsNext.waittDeadline {t'} (h : Keeps s t) : KeepsNext s (execWaittDeadline t' t) := by
  unfold execWaittDeadline
  refine .next ?_
  split
  · exact .ite h.dropTileWaits.modTile h
  · exact h

theorem KeepsNext.tadv {t' x b} (h : Keeps s t) : KeepsNext s (execTadv t' x b t) := by
  unfold execTadv
  refine .next (.runInstr h fun u k => ?_)
  dsimp only
  split
  · exact k
  · split
    · split
      · rename_i e
        exact trivial
      · rename_i e
        exact (k.drainFull.snd e).issueAdvance.finish
    · exact k.refuseAdvance

theorem KeepsNext.trd {t' x y} (h : Keeps s t) : KeepsNext s (execTrd t' x y t) := by
  unfold execTrd
  refine .next (h.runInstr fun u k => ?_)
  dsimp only
  split
  · exact k
  · refine .ite ?_ (k.store.andThen fun _ _ k' => k'.finish)
    cases u.tileRoom t' with
    | some r => exact k.tallyErrRec
    | none => exact k

theorem KeepsNext.rdpos {t' y} (h : Keeps s t) : KeepsNext s (execRdpos t' y t) :=
  .next (h.runInstr (fun _ k => k.store.andThen (fun _ _ k1 => k1.finish)))

theorem KeepsNext.dmago {t' x y} (h : Keeps s t) : KeepsNext s (execDmago t' x y t) := by
  unfold execDmago
  refine .next (.runInstr h fun u k => (.ite k ?_))
  split
  · rename_i e
    exact trivial
  · rename_i e
    exact (k.drainFull.snd e).dmaStart.finish

theorem KeepsNext.fence {t'} (h : Keeps s t) : KeepsNext s (execFence t' t) := by
  unfold execFence
  refine .next (.runInstr h fun u k => ?_)
  split
  · rename_i e
    exact trivial
  · rename_i e
    exact (k.drainFull.snd e).finish

theorem KeepsNext.icinv {t' y} (h : Keeps s t) : KeepsNext s (execIcinv t' y t) := .next h.regInstr

theorem KeepsNext.icinvAll {t'} (h : Keeps s t) : KeepsNext s (execIcinvAll t' t) := .next h.regInstr

theorem KeepsNext.mfsw {t' x} (h : Keeps s t) : KeepsNext s (execMfsw t' x t) := .next h.regInstr

theorem KeepsNext.mtsw {t' y} (h : Keeps s t) : KeepsNext s (execMtsw t' y t) := .next h.regInstr

theorem Keeps.crRead {t' cr} (h : Keeps s t) : Keeps s (t.crRead t' cr).2 :=
  .iteSnd (.pair h) (.iteSnd (.pair h) (.iteSnd (.iteSnd (.pair h) (.pair h.spend)) (.iteSnd (.iteSnd (.pair h.modTile) (.pair h)) (.iteSnd (.pair h.modTile.spend) (.iteSnd (.pair h) (.pair h))))))

theorem Keeps.crWrite {t' cr v} (h : Keeps s t) : Keeps s (t.crWrite t' cr v) := .ite h.modTile (.ite h.modTile (.ite h.modTile h.modTile))

theorem KeepsNext.mfcr {t' x cr} (h : Keeps s t) : KeepsNext s (execMfcr t' x cr t) := .next (h.runInstr (fun _ k => .ite k (.ite k k.crRead.finish)))

theorem Keeps.mtcr {t' cr y} (h : Keeps s t) : Keeps s (t.mtcr t' cr y) := h.runInstr fun _ k => .ite k (.ite k k.crWrite.finish)

theorem KeepsNext.mtcr {t' cr y} (h : Keeps s t) : KeepsNext s (execMtcr t' cr y t) := .next h.mtcr

theorem KeepsNext.take {t' y} (h : Keeps s t) : KeepsNext s (execTake t' y t) := .next h.mtcr

theorem KeepsNext.perf {t' n} (h : Keeps s t) : KeepsNext s (execPerf t' n t) := .next (.ite h.setTile h)

/-! ### Vector instructions -/

/-- The row of an operand that a vector instruction may leave out. -/
theorem Keeps.operandIf {r : Run1} {c : Prop} {_ : Decidable c} {t' co row} (h : Keeps s r.s) : Keeps s (if c then Run1.operand r t' co row else (0, r)).2.s := by
  split
  · exact h.operand
  · exact h

theorem Keeps.vecRunPart {t' sh v o n f} (h : Keeps s t) : Keeps s (t.vecRunPart t' sh v o n f) := by
  unfold State.vecRunPart
  extract_lets x ra rb rc rd reads extra r
  have k : Keeps s (Run1.operand r t' .a ra).2.s := .operand h
  generalize Run1.operand r t' .a ra = p at k ⊢
  obtain ⟨a, r⟩ := p
  have k : Keeps s (if sh.useB then Run1.operand r t' .b rb else (0, r)).2.s := k.operandIf
  dsimp only
  generalize (if sh.useB then Run1.operand r t' .b rb else (0, r)) = p at k ⊢
  obtain ⟨b, r⟩ := p
  have k : Keeps s (if sh.useC then Run1.operand r t' .c rc else (0, r)).2.s := k.operandIf
  dsimp only
  generalize (if sh.useC then Run1.operand r t' .c rc else (0, r)) = p at k ⊢
  obtain ⟨c, r⟩ := p
  exact .close (.run (.unitCycles (.modXu (.ite k.unitFlags.putXr.modXu k.unitFlags.modXu))))

theorem Keeps.vecRun {t' sh v f} (h : Keeps s t) : Keeps s (t.vecRun t' sh v f) := h.vecRunPart

theorem Keeps.vecCheck {fn sh v bad fmt} (h : Keeps s t) : KeepsMem s (Machine.vecCheck fn sh v bad fmt t) := .ite h (.ite h h)

theorem Keeps.vecLanes {t' fn sh v g} (h : Keeps s t) : Keeps s (t.vecLanes t' fn sh v g) :=
  h.unitInstr (fun _ k => k.vecCheck) (fun _ _ k => k.vecRun)

theorem KeepsNext.vadd {t' v} (h : Keeps s t) : KeepsNext s (execVadd t' v t) := .next h.vecLanes

theorem KeepsNext.vsub {t' v} (h : Keeps s t) : KeepsNext s (execVsub t' v t) := .next h.vecLanes

theorem KeepsNext.vmul {t' v} (h : Keeps s t) : KeepsNext s (execVmul t' v t) := .next h.vecLanes

theorem KeepsNext.vfma {t' v} (h : Keeps s t) : KeepsNext s (execVfma t' v t) := .next h.vecLanes

theorem KeepsNext.vmin {t' v} (h : Keeps s t) : KeepsNext s (execVmin t' v t) := .next h.vecLanes

theorem KeepsNext.vmax {t' v} (h : Keeps s t) : KeepsNext s (execVmax t' v t) := .next h.vecLanes

theorem KeepsNext.vabs {t' v} (h : Keeps s t) : KeepsNext s (execVabs t' v t) := .next h.vecLanes

theorem KeepsNext.vneg {t' v} (h : Keeps s t) : KeepsNext s (execVneg t' v t) := .next h.vecLanes

theorem KeepsNext.vand {t' v} (h : Keeps s t) : KeepsNext s (execVand t' v t) := .next h.vecLanes

theorem KeepsNext.vor {t' v} (h : Keeps s t) : KeepsNext s (execVor t' v t) := .next h.vecLanes

theorem KeepsNext.vxor {t' v} (h : Keeps s t) : KeepsNext s (execVxor t' v t) := .next h.vecLanes

theorem KeepsNext.vshl {t' v} (h : Keeps s t) : KeepsNext s (execVshl t' v t) := .next h.vecLanes

theorem KeepsNext.vshr {t' v} (h : Keeps s t) : KeepsNext s (execVshr t' v t) := .next h.vecLanes

theorem KeepsNext.vsar {t' v} (h : Keeps s t) : KeepsNext s (execVsar t' v t) := .next h.vecLanes

theorem Keeps.vecCmp {t' fn v below eq} (h : Keeps s t) : Keeps s (t.vecCmp t' fn v below eq) :=
  h.unitInstr (fun _ k => k.vecCheck) (fun _ _ k => k.vecRun)

theorem KeepsNext.vcmpeq {t' v} (h : Keeps s t) : KeepsNext s (execVcmpeq t' v t) := .next h.vecCmp

theorem KeepsNext.vcmplt {t' v} (h : Keeps s t) : KeepsNext s (execVcmplt t' v t) := .next h.vecCmp

theorem KeepsNext.vcmple {t' v} (h : Keeps s t) : KeepsNext s (execVcmple t' v t) := .next h.vecCmp

theorem KeepsNext.vsel {t' v} (h : Keeps s t) : KeepsNext s (execVsel t' v t) := .next h.vecLanes

theorem KeepsNext.vmov {t' v} (h : Keeps s t) : KeepsNext s (execVmov t' v t) := .next h.vecLanes

theorem KeepsNext.vbcast {t' v} (h : Keeps s t) : KeepsNext s (execVbcast t' v t) :=
  .next (h.unitInstr (fun _ k => k.vecCheck) (fun _ _ k => k.vecRun))

theorem KeepsNext.vsum {t' v} (h : Keeps s t) : KeepsNext s (execVsum t' v t) := .next (h.unitInstr (fun _ k => k.vecCheck) (fun _ _ k => k.vecRun))

theorem KeepsNext.vcvt {t' v} (h : Keeps s t) : KeepsNext s (execVcvt t' v t) :=
  .next (h.unitInstr (fun _ k => k.vecCheck) (fun _ _ k => (Keeps.ite k.spend k).vecRun))

theorem Keeps.packCheck {fn v} (h : Keeps s t) : KeepsMem s (Machine.packCheck fn v t) := h.vecCheck

theorem KeepsNext.vpack {t' v} (h : Keeps s t) : KeepsNext s (execVpack t' v t) :=
  .next (h.unitInstr (fun _ k => k.packCheck) (fun _ _ k => k.vecRunPart))

theorem KeepsNext.vunpk {t' v} (h : Keeps s t) : KeepsNext s (execVunpk t' v t) :=
  .next (h.unitInstr (fun _ k => k.packCheck) (fun _ _ k => k.vecRun))

end

end Sys2Proof.Machine
end

section
/-! Every command keeps memory canonical and the logs within their bounds. -/

namespace Sys2Proof.Machine

/-- Every command keeps memory canonical and the logs within their bounds: one rule per row. -/
theorem keepsNext_exec {s t : State} {i : Instr} (h : Keeps s t) : KeepsNext s (exec i t) := by
  cases i with
  | registerWrite _ _ _ _ => exact .registerWrite h
  | lowHalfRead _ _ _ => exact .lowHalfRead h
  | bar0LowHalfWrite _ _ _ => exact .bar0LowHalfWrite h
  | bar0HighHalfWrite _ _ _ => exact .bar0HighHalfWrite h
  | positionTick => exact .positionTick h
  | sourcePresent _ _ => exact .sourcePresent h
  | sourceLost _ => exact .sourceLost h
  | formatChange _ => exact .formatChange h
  | lockGained _ _ _ _ => exact .lockGained h
  | step _ _ => exact .step h
  | stepTo _ _ => exact .stepTo h
  | disagree _ _ => exact .disagree h
  | disagreeClear _ _ => exact .disagreeClear h
  | switchToSecondary _ => exact .switchToSecondary h
  | revertToPrimary _ => exact .revertToPrimary h
  | aged => exact .aged h
  | ptpSync _ _ _ => exact .ptpSync h
  | syncWordSend _ _ => exact .syncWordSend h
  | syncWord _ _ _ _ _ => exact .syncWord h
  | keeperLost => exact .keeperLost h
  | candidacy _ _ _ => exact .candidacy h
  | electionClose => exact .electionClose h
  | cueArm _ _ _ => exact .cueArm h
  | cueDisarm _ _ _ => exact .cueDisarm h
  | armDeviceCue _ _ _ _ _ _ => exact .armDeviceCue h
  | disarmDeviceCue _ _ => exact .disarmDeviceCue h
  | advanceTally _ => exact .advanceTally h
  | startDma _ => exact .startDma h
  | launchTask _ => exact .launchTask h
  | glazeCommit _ => exact .glazeCommit h
  | repartition _ => exact .repartition h
  | haltAtCueBoundary _ => exact .haltAtCueBoundary h
  | tallyAdv _ _ _ => exact .tallyAdv h
  | tallyAdvance _ _ _ _ => exact .tallyAdvance h
  | localAdvanceApply _ => exact .localAdvanceApply h
  | watchArm _ _ _ => exact .watchArm h
  | advance _ _ _ _ => exact .advance h
  | update _ _ _ => exact .update h
  | join _ _ _ => exact .join h
  | joinReply _ _ _ _ => exact .joinReply h
  | nack _ _ _ => exact .nack h
  | fabricRetry _ => exact .fabricRetry h
  | fabricNackTimeout _ => exact .fabricNackTimeout h
  | faultToHome _ _ _ => exact .faultToHome h
  | faultNotice _ _ _ => exact .faultNotice h
  | nop _ => exact .nop h
  | mov _ _ _ => exact .mov h
  | movi _ _ _ => exact .movi h
  | mova _ _ _ => exact .mova h
  | getl _ _ _ => exact .getl h
  | geth _ _ _ => exact .geth h
  | putl _ _ _ => exact .putl h
  | puth _ _ _ => exact .puth h
  | ld _ _ _ _ => exact .ld h
  | st _ _ _ _ => exact .st h
  | lda _ _ _ _ => exact .lda h
  | sta _ _ _ _ => exact .sta h
  | lea _ _ _ _ => exact .lea h
  | push _ _ => exact .push h
  | pop _ _ => exact .pop h
  | pusha _ _ => exact .pusha h
  | popa _ _ => exact .popa h
  | add _ _ _ => exact .add h
  | addc _ _ _ => exact .addc h
  | sub _ _ _ => exact .sub h
  | subc _ _ _ => exact .subc h
  | cmp _ _ _ => exact .cmp h
  | and _ _ _ => exact .and h
  | or _ _ _ => exact .or h
  | xor _ _ _ => exact .xor h
  | not _ _ => exact .not h
  | neg _ _ => exact .neg h
  | abs _ _ => exact .abs h
  | shl _ _ _ => exact .shl h
  | shr _ _ _ => exact .shr h
  | sar _ _ _ => exact .sar h
  | rol _ _ _ => exact .rol h
  | mul _ _ _ => exact .mul h
  | mulu _ _ _ => exact .mulu h
  | mulh _ _ _ => exact .mulh h
  | mulhu _ _ _ => exact .mulhu h
  | adda _ _ _ => exact .adda h
  | cmpa _ _ _ => exact .cmpa h
  | ext _ _ _ _ => exact .ext h
  | ins _ _ _ _ => exact .ins h
  | bswap _ _ _ => exact .bswap h
  | clz _ _ _ => exact .clz h
  | popc _ _ _ => exact .popc h
  | mac _ _ _ _ => exact .mac h
  | macs _ _ _ _ => exact .macs h
  | msu _ _ _ _ => exact .msu h
  | macu _ _ _ _ => exact .macu h
  | macr _ _ _ _ => exact .macr h
  | clra _ _ => exact .clra h
  | rdacc _ _ _ _ => exact .rdacc h
  | wracc _ _ _ => exact .wracc h
  | addacc _ _ _ => exact .addacc h
  | stacc _ _ _ => exact .stacc h
  | ldacc _ _ _ => exact .ldacc h
  | br _ _ _ => exact .br h
  | brl _ _ _ => exact .brl h
  | jmp _ _ => exact .jmp h
  | call _ _ => exact .call h
  | ret _ => exact .ret h
  | loop _ _ _ => exact .loop h
  | waits _ _ => exact .waits h
  | sig _ _ => exact .sig h
  | waitp _ _ => exact .waitp h
  | waitpWake _ => exact .waitpWake h
  | waitt _ _ _ => exact .waitt h
  | waittDeadline _ => exact .waittDeadline h
  | tadv _ _ _ => exact .tadv h
  | trd _ _ _ => exact .trd h
  | rdpos _ _ => exact .rdpos h
  | dmago _ _ _ => exact .dmago h
  | fence _ => exact .fence h
  | icinv _ _ => exact .icinv h
  | icinvAll _ => exact .icinvAll h
  | mfsw _ _ => exact .mfsw h
  | mtsw _ _ => exact .mtsw h
  | mfcr _ _ _ => exact .mfcr h
  | mtcr _ _ _ => exact .mtcr h
  | take _ _ => exact .take h
  | gate _ _ => exact .gate h
  | reti _ => exact .reti h
  | retiInterruption _ => exact .retiInterruption h
  | noint _ _ => exact .noint h
  | nointExpire _ => exact .nointExpire h
  | halt _ => exact .halt h
  | storeDrain _ => exact .storeDrain h
  | interruptAccept _ => exact .interruptAccept h
  | asyncFault _ => exact .asyncFault h
  | perf _ _ => exact .perf h
  | vadd _ _ => exact .vadd h
  | vsub _ _ => exact .vsub h
  | vmul _ _ => exact .vmul h
  | vfma _ _ => exact .vfma h
  | vmin _ _ => exact .vmin h
  | vmax _ _ => exact .vmax h
  | vabs _ _ => exact .vabs h
  | vneg _ _ => exact .vneg h
  | vand _ _ => exact .vand h
  | vor _ _ => exact .vor h
  | vxor _ _ => exact .vxor h
  | vshl _ _ => exact .vshl h
  | vshr _ _ => exact .vshr h
  | vsar _ _ => exact .vsar h
  | vcmpeq _ _ => exact .vcmpeq h
  | vcmplt _ _ => exact .vcmplt h
  | vcmple _ _ => exact .vcmple h
  | vsel _ _ => exact .vsel h
  | vmov _ _ => exact .vmov h
  | vbcast _ _ => exact .vbcast h
  | vsum _ _ => exact .vsum h
  | vcvt _ _ => exact .vcvt h
  | vpack _ _ => exact .vpack h
  | vunpk _ _ => exact .vunpk h
  | zrd _ _ => exact .zrd h
  | zwr _ _ => exact .zwr h
  | tld _ _ _ _ => exact .tld h
  | tst _ _ _ _ => exact .tst h
  | zld _ _ _ _ => exact .zld h
  | zst _ _ _ _ => exact .zst h
  | rld _ _ _ _ => exact .rld h
  | rst _ _ _ _ => exact .rst h
  | mma _ _ => exact .mma h
  | mmaMx _ _ _ => exact .mmaMx h
  | zclr _ _ => exact .zclr h
  | xmf _ _ _ => exact .xmf h
  | xmt _ _ _ => exact .xmt h
  | xuCtx _ _ => exact .xuCtx h
  | xwait _ => exact .xwait h
  | cacheFill _ _ _ => exact .cacheFill h
  | zero _ _ _ _ _ => exact .zero h
  | writeback _ _ _ _ _ => exact .writeback h
  | invalidate _ _ _ _ _ => exact .invalidate h
  | wbInv _ _ _ _ _ => exact .wbInv h
  | cmdDone _ => exact .cmdDone h
  | waymapChange _ _ _ => exact .waymapChange h
  | waymapDone _ => exact .waymapDone h
  | qcHbmwin _ _ _ _ => exact .qcHbmwin h
  | hbmwinApply _ _ => exact .hbmwinApply h
  | scrub _ => exact .scrub h
  | go _ _ _ => exact .go h
  | pause _ _ _ => exact .pause h
  | resume _ _ _ => exact .resume h
  | abort _ _ _ => exact .abort h
  | descriptorFetch _ => exact .descriptorFetch h
  | pieceIssue _ => exact .pieceIssue h
  | requestComplete _ _ _ => exact .requestComplete h
  | timeout _ _ => exact .timeout h
  | descriptorComplete _ => exact .descriptorComplete h
  | drainDone _ => exact .drainDone h
  | abortDone _ => exact .abortDone h
  | fabricRead _ => exact .fabricRead h
  | fabricWrite _ => exact .fabricWrite h
  | wack _ => exact .wack h
  | rdata _ => exact .rdata h
  | err _ => exact .err h
  | packetForward _ _ => exact .packetForward h
  | routeUpdate _ _ => exact .routeUpdate h
  | windowOpen _ _ _ _ _ _ _ => exact .windowOpen h
  | windowClose _ _ => exact .windowClose h
  | trainComplete _ _ => exact .trainComplete h
  | exchSend _ => exact .exchSend h
  | exchFlit _ _ _ => exact .exchFlit h
  | dataFlit _ _ _ => exact .dataFlit h
  | idleFlit _ _ => exact .idleFlit h
  | replay _ => exact .replay h
  | linkLost _ => exact .linkLost h
  | holdExpired _ => exact .holdExpired h
  | refusedRetrain _ => exact .refusedRetrain h
  | meshHeader => exact .meshHeader h
  | inject _ _ _ _ _ => exact .inject h
  | roomForm _ _ => exact .roomForm h
  | formed _ => exact .formed h
  | roomDissolve _ _ => exact .roomDissolve h
  | dissolutionDone _ => exact .dissolutionDone h
  | hbmUnitCleared => exact .hbmUnitCleared h
  | roomReset _ _ => exact .roomReset h
  | flrWaitExpiry _ => exact .flrWaitExpiry h
  | roomDeclareFault _ _ _ => exact .roomDeclareFault h
  | roomQos _ _ _ _ _ _ => exact .roomQos h
  | planWrite _ _ _ _ => exact .planWrite h
  | vectorDelivery _ _ => exact .vectorDelivery h
  | functionLevelReset _ => exact .functionLevelReset h
  | vfEnableClear _ _ => exact .vfEnableClear h
  | linkLoss => exact .linkLoss h
  | perstDeassert => exact .perstDeassert h
  | linkReturn => exact .linkReturn h
  | apertureWrite _ _ _ _ => exact .apertureWrite h
  | apertureRead _ _ _ => exact .apertureRead h
  | msixUnmask _ _ => exact .msixUnmask h
  | mbxEnable _ _ => exact .mbxEnable h
  | mbxDisable _ => exact .mbxDisable h
  | mbxReqTail _ _ => exact .mbxReqTail h
  | mbxSlotRead _ _ => exact .mbxSlotRead h
  | mbxRspHead _ _ => exact .mbxRspHead h
  | hello _ _ => exact .hello h
  | auth _ _ => exact .auth h
  | authHoldoffEnd _ => exact .authHoldoffEnd h
  | read _ _ => exact .read h
  | snapshotExpiry _ => exact .snapshotExpiry h
  | write _ _ => exact .write h
  | assemblyTimeout _ _ => exact .assemblyTimeout h
  | keySlot _ _ _ _ _ _ _ _ => exact .keySlot h
  | ack _ _ => exact .ack h
  | ledgerRead _ _ => exact .ledgerRead h
  | subscribe _ _ => exact .subscribe h
  | unsubscribe _ _ => exact .unsubscribe h
  | notify _ => exact .notify h
  | bye _ _ => exact .bye h
  | sessionIdleTimeout _ => exact .sessionIdleTimeout h
  | smbusBlockWrite _ _ => exact .smbusBlockWrite h
  | smbusBlockRead => exact .smbusBlockRead h
  | smbusSclTimeout => exact .smbusSclTimeout h
  | checkpointBegin => exact .checkpointBegin h
  | checkpointComplete => exact .checkpointComplete h
  | eventDeferredRecord => exact .eventDeferredRecord h
  | vaultWrite _ _ _ _ _ _ _ _ => exact .vaultWrite h
  | vaultRead _ _ _ _ _ _ _ _ _ => exact .vaultRead h
  | vaultDelete _ _ _ _ => exact .vaultDelete h
  | vaultStop _ _ => exact .vaultStop h
  | vaultJobStart => exact .vaultJobStart h
  | extentComplete _ => exact .extentComplete h
  | pipeAssign _ _ _ => exact .pipeAssign h
  | pipeShadow _ _ _ _ _ => exact .pipeShadow h
  | commit _ _ _ => exact .commit h
  | shadowCheck _ => exact .shadowCheck h
  | decisionPoint _ => exact .decisionPoint h
  | frameBoundary _ _ => exact .frameBoundary h
  | hotPlugDetect _ => exact .hotPlugDetect h
  | dpLinkTraining _ => exact .dpLinkTraining h
  | currentLimit _ => exact .currentLimit h
  | outputFault _ => exact .outputFault h
  | faultRetry _ => exact .faultRetry h
  | retryEnd _ => exact .retryEnd h
  | idleTimer => exact .idleTimer h
  | standbyAfterIdle => exact .standbyAfterIdle h
  | blockAnswer _ => exact .blockAnswer h
  | blockTimeout => exact .blockTimeout h
  | powerRequestLeaveIdle _ => exact .powerRequestLeaveIdle h
  | powerRequestIdle _ => exact .powerRequestIdle h
  | powerRequestStandby _ => exact .powerRequestStandby h
  | standbyEntry => exact .standbyEntry h
  | freeQuireGate _ => exact .freeQuireGate h
  | quireGate _ _ _ => exact .quireGate h
  | quireGatingDone => exact .quireGatingDone h
  | quireWake _ _ _ => exact .quireWake h
  | quireWakeDone _ => exact .quireWakeDone h
  | brownOut => exact .brownOut h
  | wakePin _ _ => exact .wakePin h
  | smbusWake => exact .smbusWake h
  | powerOn => exact .powerOn h
  | inputLost => exact .inputLost h
  | inputReturn => exact .inputReturn h
  | auxGood _ => exact .auxGood h
  | auxLost => exact .auxLost h
  | throttle _ _ => exact .throttle h
  | throttleRaise _ _ => exact .throttleRaise h
  | thermalShutdown _ => exact .thermalShutdown h
  | thermalRecovery _ => exact .thermalRecovery h
  | sysRstN => exact .sysRstN h
  | sysRstNRelease => exact .sysRstNRelease h
  | watchdog => exact .watchdog h
  | deviceReset _ _ => exact .deviceReset h
  | rom => exact .rom h
  | ledgerRecovery _ => exact .ledgerRecovery h
  | verify => exact .verify h
  | steward => exact .steward h
  | fwChunk _ _ _ _ => exact .fwChunk h
  | fwCommit _ _ _ => exact .fwCommit h
  | fwSelect _ _ => exact .fwSelect h
  | securityRaise _ _ _ => exact .securityRaise h
  | analogReferencePoint _ _ => exact .analogReferencePoint h
  | hbmWriteAccepted _ _ => exact .hbmWriteAccepted h
  | shortRemoved _ => exact .shortRemoved h
  | holdupExhausted => exact .holdupExhausted h

/-- A step starts from its state with a shorter queue, which changes no memory and no log. -/
theorem Keeps.step {s n : State} (h : step s = .next n) : Keeps s n := by
  cases hp : s.pending with
  | nil =>
    rw [step_of_pending_nil hp] at h
    cases h
    exact .refl s
  | cons c rest =>
    rw [step_of_pending_cons hp] at h
    exact keepsNext_exec (Keeps.refl s).upd n h

/-- Settles O59: each function of the model keeps memory canonical, because it stores through `Tbl.put` and erases whole tables. -/
theorem memoryStaysCanonical : Obligations.MemoryStaysCanonical := by
  intro s n canonical next
  exact (Keeps.step next).memory canonical

/-- Settles O60: what adds to a log keeps its last entries or checks its length, and nothing else touches it. -/
theorem logsStayBounded : Obligations.LogsStayBounded := by
  intro s n bounded next
  exact (Keeps.step next).logs bounded

end Sys2Proof.Machine
end

section
/-! SUPPORT. Lines of a quire cache: what writing back, evicting and installing one does to the lines and to memory (R260, R262, R265). -/

namespace Sys2Proof.Machine

/-- The line once it has been written back. -/
def cleaned (l : CLine) : CLine := { l with dirty := false }

theorem cleaned_of_clean {l : CLine} (h : l.dirty = false) : cleaned l = l := by
  unfold cleaned
  rw [← h]

/-! ### Finding lines -/

section
variable (x : Quire) (y line : BitVec 31)

theorem findLine_eq_none : findLine x y = none ↔ y ∉ x.lines.map fun l => l.line := by
  simp [findLine, List.find?_eq_none]

theorem findLine_isSome : (findLine x y).isSome ↔ y ∈ x.lines.map fun l => l.line := by
  rw [Option.isSome_iff_ne_none, ne_eq, findLine_eq_none, not_not]

theorem line_of_findLine {x : Quire} {y : BitVec 31} {l : CLine} (h : findLine x y = some l) : l.line = y := by
  simpa using List.find?_some h

/-- Of the lines other than `line` another line is found as before. -/
theorem find_others (ls : List CLine) (h : y ≠ line) : (ls.filter fun l => l.line ≠ line).find? (fun l => l.line = y) = ls.find? fun l => l.line = y := by
  rw [List.find?_filter]
  congr 1
  funext l
  by_cases hl : l.line = y
  · simp [hl, h]
  · simp [hl]

theorem find_others_none (ls : List CLine) : (ls.filter fun l => l.line ≠ line).find? (fun l => l.line = line) = none := by
  simp [List.find?_eq_none]

theorem findLine_dropLine : findLine (dropLine x line) y = if y = line then none else findLine x y := by
  unfold findLine dropLine
  split
  · subst y; exact find_others_none line _
  · rename_i h; exact find_others y line _ h

theorem findLine_useLine (l : CLine) : findLine (useLine x l) y = if y = l.line then some l else findLine x y := by
  unfold findLine useLine
  rw [List.find?_append]
  split
  · subst y; rw [find_others_none]; simp
  · rename_i h
    rw [find_others y _ _ h]
    cases x.lines.find? fun l => l.line = y <;> simp [Ne.symm h]

/-- A line that enters is found, and the others are found as before. -/
theorem find_entered {ls : List CLine} {l : CLine} {line : BitVec 31} (hl : l.line = line) (h : ls.find? (fun m => m.line = line) = none) (pf : Bool) (y : BitVec 31) :
    (if pf then l :: ls else ls ++ [l]).find? (fun m => m.line = y) = if y = line then some l else ls.find? fun m => m.line = y := by
  by_cases hy : y = line
  · subst y
    rw [if_pos rfl]
    cases pf
    · simp [List.find?_append, h, hl]
    · simp [hl]
  · have other : ¬l.line = y := fun e => hy (e.symm.trans hl)
    rw [if_neg hy]
    cases pf
    · rw [if_neg (by decide), List.find?_append]
      cases ls.find? fun m => m.line = y <;> simp [other]
    · rw [if_pos rfl, List.find?_cons_of_neg (by simpa using other)]

/-- The lines with `line` clean. -/
def markClean (x : Quire) (line : BitVec 31) : Quire := { x with lines := x.lines.map fun m => if m.line = line then { m with dirty := false } else m }

theorem findLine_markClean : findLine (markClean x line) y = if y = line then (findLine x y).map cleaned else findLine x y := by
  unfold findLine markClean
  induction x.lines with
  | nil => simp
  | cons m ls ih =>
    rw [List.map_cons, List.find?_cons, List.find?_cons]
    by_cases hm : m.line = line <;> by_cases hy : m.line = y
    · subst hm hy; simp [cleaned]
    · rw [if_pos hm]; simp only [hy, decide_false]; exact ih
    · rw [if_neg hm]; simp [hy, show y ≠ line from hy ▸ hm]
    · rw [if_neg hm]; simp only [hy, decide_false]; exact ih

end

/-! ### Work on the lines of one cache -/

variable {s t n : State} {q a : Nat} {y line : BitVec 31}

/-- Nothing changes but the lines of quire `q` and what it was to fetch ahead, memory, and the write-back lists. -/
structure CacheWork (s n : State) (q : Nat) : Prop where
  quire : { n.quire q with lines := (s.quire q).lines, prefetch := (s.quire q).prefetch } = s.quire q
  others : ∀ k, k ≠ q → n.quire k = s.quire k
  tile : ∀ t, { n.tile t with wb := (s.tile t).wb } = s.tile t
  lists : ∀ t, List.Sublist (n.tile t).wb (s.tile t).wb
  rest : { n with quires := s.quires, tiles := s.tiles, mem := s.mem, synd := s.synd } = s

theorem CacheWork.refl (s : State) (q : Nat) : CacheWork s s q := ⟨rfl, fun _ _ => rfl, fun _ => rfl, fun _ => .refl _, rfl⟩

theorem CacheWork.trans (h : CacheWork s t q) (k : CacheWork t n q) : CacheWork s n q where
  quire := (congrArg (fun x : Quire => { x with lines := (s.quire q).lines, prefetch := (s.quire q).prefetch }) k.quire :).trans h.quire
  others j hj := (k.others j hj).trans (h.others j hj)
  tile j := (congrArg (fun x : Tile => { x with wb := (s.tile j).wb }) (k.tile j) :).trans (h.tile j)
  lists j := (k.lists j).trans (h.lists j)
  rest := (congrArg (fun x : State => { x with quires := s.quires, tiles := s.tiles, mem := s.mem, synd := s.synd }) k.rest :).trans h.rest

/-- A change of memory alone. -/
theorem CacheWork.memory (h : { n with mem := s.mem, synd := s.synd } = s) : CacheWork s n q where
  quire := by rw [show n.quire q = s.quire q from (congrArg (fun x : State => x.quire q) h :)]
  others k _ := (congrArg (fun x : State => x.quire k) h :)
  tile t := by rw [show n.tile t = s.tile t from (congrArg (fun x : State => x.tile t) h :)]
  lists t := by rw [show n.tile t = s.tile t from (congrArg (fun x : State => x.tile t) h :)]
  rest := (congrArg (fun x : State => ({ x with quires := s.quires, tiles := s.tiles } : State)) h :)

/-- A change of the lines and of what is fetched ahead. -/
theorem CacheWork.modQuire (s : State) (q : Nat) (f : Quire → Quire) (h : ∀ x, { f x with lines := x.lines, prefetch := x.prefetch } = x) : CacheWork s (s.modQuire q f) q where
  quire := by rw [State.quire_modQuire]; exact h _
  others k hk := State.quire_modQuire_ne s f hk
  tile _ := rfl
  lists _ := .refl _
  rest := rfl

/-- Work done once for each element of a list. -/
theorem CacheWork.forL {α : Type} {f : α → State → State} (hf : ∀ a u, CacheWork u (f a u) q) (l : List α) (s : State) : CacheWork s (forL l f s) q :=
  foldl_keeps (fun u => CacheWork s u q) (fun u a h => h.trans (hf a u)) l s (.refl s q)

/-! ### Write-back lists -/

/-- A line leaves the write-back lists of the tiles `l`, and nothing else changes. -/
theorem forgetIn_eq (l : List Nat) (line : BitVec 31) (s : State) :
    let n := forL l (fun t s => if (s.tile t).wb.contains line then s.modTile t fun x => { x with wb := x.wb.filter (· ≠ line) } else s) s
    (∀ t, n.tile t = if t ∈ l then { s.tile t with wb := (s.tile t).wb.filter (· ≠ line) } else s.tile t) ∧ { n with tiles := s.tiles } = s := by
  induction l generalizing s with
  | nil => exact ⟨fun _ => rfl, rfl⟩
  | cons b l ih =>
    intro n
    obtain ⟨tile, rest⟩ := ih (if (s.tile b).wb.contains line then s.modTile b fun x => { x with wb := x.wb.filter (· ≠ line) } else s)
    have first : ∀ t, (if (s.tile b).wb.contains line then s.modTile b fun x => { x with wb := x.wb.filter (· ≠ line) } else s).tile t =
        if t = b then { s.tile t with wb := (s.tile t).wb.filter (· ≠ line) } else s.tile t := by
      intro t
      by_cases hb : t = b
      · subst hb
        rw [if_pos rfl]
        split
        · exact State.tile_modTile ..
        · rename_i hc
          have keep : (s.tile t).wb.filter (fun m => decide (m ≠ line)) = (s.tile t).wb := List.filter_eq_self.2 fun m hm => by
            simp only [List.contains_iff_mem] at hc
            exact decide_eq_true fun e => hc (e ▸ hm)
          rw [keep]
      · rw [if_neg hb]
        split
        · exact State.tile_modTile_ne _ _ hb
        · rfl
    constructor
    · intro t
      refine (tile t).trans ?_
      rw [first t]
      by_cases hb : t = b <;> by_cases hl : t ∈ l <;> simp [hb, hl, List.filter_filter]
    · refine (congrArg (fun x : State => { x with tiles := s.tiles }) rest :).trans ?_
      split <;> rfl

theorem eq_of_tiles (h : { n with tiles := s.tiles } = s) : n = { s with tiles := n.tiles } := (congrArg (fun x : State => { x with tiles := n.tiles }) h :)

theorem quire_of_tiles (h : { n with tiles := s.tiles } = s) (k : Nat) : n.quire k = s.quire k := (congrArg (fun x : State => x.quire k) h :)

theorem State.wbForget_tiles (s : State) (q : Nat) (line : BitVec 31) : { s.wbForget q line with tiles := s.tiles } = s := (forgetIn_eq (quireTiles q) line s).2

theorem State.wbForget_eq (s : State) (q : Nat) (line : BitVec 31) : s.wbForget q line = { s with tiles := (s.wbForget q line).tiles } := eq_of_tiles (s.wbForget_tiles q line)

theorem State.tile_wbForget (s : State) (q : Nat) (line : BitVec 31) (t : Nat) :
    (s.wbForget q line).tile t = if t ∈ quireTiles q then { s.tile t with wb := (s.tile t).wb.filter (· ≠ line) } else s.tile t := (forgetIn_eq (quireTiles q) line s).1 t

@[simp] theorem State.wbForget_quire (s : State) (q : Nat) (line : BitVec 31) (k : Nat) : (s.wbForget q line).quire k = s.quire k :=
  quire_of_tiles (State.wbForget_tiles s q line) k
@[simp] theorem State.wbForget_mem (s : State) (q : Nat) (line : BitVec 31) : (s.wbForget q line).mem = s.mem := by rw [State.wbForget_eq]
@[simp] theorem State.wbForget_synd (s : State) (q : Nat) (line : BitVec 31) : (s.wbForget q line).synd = s.synd := by rw [State.wbForget_eq]

@[simp] theorem State.byteAt_wbForget (s : State) (q : Nat) (line : BitVec 31) (a : Nat) : (s.wbForget q line).byteAt a = s.byteAt a := congrArg (fun m => Tbl.get 0 m a) (s.wbForget_mem q line)
@[simp] theorem State.byteAt_modQuire (s : State) (q : Nat) (f : Quire → Quire) (a : Nat) : (s.modQuire q f).byteAt a = s.byteAt a := rfl

theorem State.wbForget_work (s : State) (q : Nat) (line : BitVec 31) : CacheWork s (s.wbForget q line) q where
  quire := by rw [State.wbForget_quire]
  others k _ := State.wbForget_quire ..
  tile t := by rw [State.tile_wbForget]; split <;> rfl
  lists t := by
    rw [State.tile_wbForget]
    split
    · exact List.filter_sublist
    · exact .refl _
  rest := by rw [State.wbForget_eq]

/-! ### A line is written back -/

/-- Bytes and syndromes stored one after the other are stored in the tables of memory. -/
theorem forN_putByte (s : State) (b m : Nat) (g : Nat → Byte) : forN m (fun i s => s.putByte (b + i) (g i)) s = { s with mem := forN m (fun i r => Tbl.put 0 r (b + i) (g i)) s.mem } := by
  induction m with
  | zero => rfl
  | succ m ih =>
    unfold forN at ih ⊢
    rw [List.range_succ, List.foldl_append, List.foldl_append, ih]
    rfl

theorem forN_setSynd (s : State) (b m : Nat) (g : Nat → Byte) : forN m (fun i s => s.setSynd (b + i) (g i)) s = { s with synd := forN m (fun i r => Tbl.put 0 r (b + i) (g i)) s.synd } := by
  induction m with
  | zero => rfl
  | succ m ih =>
    unfold forN at ih ⊢
    rw [List.range_succ, List.foldl_append, List.foldl_append, ih]
    rfl

/-- The bytes and the check bits of the line `l` stored in memory (R265, R360). -/
def stored (s : State) (l : CLine) : State :=
  forN 16 (fun i s => s.setSynd (l.line.toNat * 16 + i) (Tbl.get 0 l.synd i)) (forN 128 (fun i s => s.putByte (l.line.toNat * 128 + i) (Tbl.get 0 l.data i)) s)

theorem stored_rest (s : State) (l : CLine) : { stored s l with mem := s.mem, synd := s.synd } = s := by
  unfold stored
  rw [forN_putByte, forN_setSynd]

theorem stored_quire (s : State) (l : CLine) (k : Nat) : (stored s l).quire k = s.quire k := by
  have e := stored_rest s l
  generalize stored s l = n at e ⊢
  exact (congrArg (fun x : State => x.quire k) e :)

theorem byteAt_stored (s : State) (l : CLine) (a : Nat) : (stored s l).byteAt a = if a / 128 = l.line.toNat then Tbl.get 0 l.data (a % 128) else s.byteAt a := by
  unfold stored State.byteAt
  rw [forN_putByte, forN_setSynd]
  dsimp only
  rw [get_forN_put 0 (l.line.toNat * 128) fun i => Tbl.get 0 l.data i]
  by_cases h : a / 128 = l.line.toNat
  · rw [if_pos h, if_pos (by omega), show a - l.line.toNat * 128 = a % 128 by omega]
  · rw [if_neg h, if_neg (by omega)]

theorem State.writeBack_of_dirty {l : CLine} (h : findLine (s.quire q) line = some l) (hd : l.dirty = true) :
    s.writeBack q line = ((stored s l).modQuire q fun x => markClean x line).wbForget q line := by
  unfold State.writeBack
  rw [h]
  dsimp only
  rw [if_pos hd]
  unfold stored markClean
  rw [line_of_findLine h]

theorem State.writeBack_of_clean (h : ∀ l, findLine (s.quire q) line = some l → l.dirty = false) : s.writeBack q line = s := by
  unfold State.writeBack
  split
  · rfl
  · rename_i l e
    rw [h l e]
    exact if_neg (by decide)

/-- A line is found dirty, or it is not. -/
theorem dirty_or_clean (x : Quire) (line : BitVec 31) : (∃ l, findLine x line = some l ∧ l.dirty = true) ∨ ∀ l, findLine x line = some l → l.dirty = false := by
  cases h : findLine x line with
  | none => exact .inr fun l e => by cases e
  | some l =>
    cases hd : l.dirty with
    | true => exact .inl ⟨l, rfl, hd⟩
    | false => exact .inr fun m e => by cases e; exact hd

theorem State.writeBack_work (s : State) (q : Nat) (line : BitVec 31) : CacheWork s (s.writeBack q line) q := by
  obtain ⟨l, h, hd⟩ | h := dirty_or_clean (s.quire q) line
  · rw [State.writeBack_of_dirty h hd]
    exact .trans (.trans (.memory (stored_rest s l)) (.modQuire _ _ (fun x => markClean x line) fun _ => rfl)) (State.wbForget_work ..)
  · rw [State.writeBack_of_clean h]
    exact .refl s q

theorem State.findLine_writeBack (s : State) (q : Nat) (line y : BitVec 31) :
    findLine ((s.writeBack q line).quire q) y = if y = line then (findLine (s.quire q) y).map cleaned else findLine (s.quire q) y := by
  obtain ⟨l, h, hd⟩ | h := dirty_or_clean (s.quire q) line
  · rw [State.writeBack_of_dirty h hd, State.wbForget_quire, State.quire_modQuire, findLine_markClean, stored_quire]
  · rw [State.writeBack_of_clean h]
    split
    · subst y
      cases e : findLine (s.quire q) line with
      | none => rfl
      | some l => exact congrArg some (cleaned_of_clean (h l e)).symm
    · rfl

/-- The byte at `a` of line `line` is that of the dirty line; every other byte of memory is as before. -/
theorem State.byteAt_writeBack (s : State) (q : Nat) (line : BitVec 31) (a : Nat) : (s.writeBack q line).byteAt a = if a / 128 = line.toNat then writtenBack s q a else s.byteAt a := by
  have here : a / 128 = line.toNat → BitVec.ofNat 31 (a / 128) = line := fun e => by rw [e, BitVec.ofNat_toNat, BitVec.setWidth_eq]
  obtain ⟨l, h, hd⟩ | h := dirty_or_clean (s.quire q) line
  · rw [State.writeBack_of_dirty h hd]
    rw [State.byteAt_wbForget, State.byteAt_modQuire, byteAt_stored, line_of_findLine h]
    by_cases e : a / 128 = line.toNat
    · rw [if_pos e, if_pos e]
      unfold writtenBack
      rw [here e, h]
      exact (if_pos hd).symm
    · rw [if_neg e, if_neg e]
  · rw [State.writeBack_of_clean h]
    split
    · rename_i e
      unfold writtenBack
      rw [here e]
      split
      · rename_i l el
        rw [h l el]
        rfl
      · rfl
    · rfl

/-! ### A line is evicted -/

theorem State.evict_work (s : State) (q : Nat) (line : BitVec 31) : CacheWork s (s.evict q line) q := (s.writeBack_work q line).trans (.modQuire _ _ _ fun _ => rfl)

theorem State.findLine_evict (s : State) (q : Nat) (line y : BitVec 31) : findLine ((s.evict q line).quire q) y = if y = line then none else findLine (s.quire q) y := by
  unfold State.evict
  rw [State.quire_modQuire, findLine_dropLine, State.findLine_writeBack]
  split <;> rfl

theorem State.byteAt_evict (s : State) (q : Nat) (line : BitVec 31) (a : Nat) : (s.evict q line).byteAt a = if a / 128 = line.toNat then writtenBack s q a else s.byteAt a :=
  s.byteAt_writeBack q line a

/-! ### A line is installed -/

theorem State.makeRoom_cases (s : State) (q : Nat) (line : BitVec 31) :
    (s.makeRoom q line).2 = s ∨ ∃ m, (findLine (s.quire q) m).isSome ∧ (s.makeRoom q line).2 = s.evict q m := by
  unfold State.makeRoom
  dsimp only
  split
  · exact .inl rfl
  · split
    · rename_i l ls e
      refine .inr ⟨l.line, (findLine_isSome _ _).2 ?_, rfl⟩
      have mem : l ∈ (s.quire q).lines.filter fun l => l.line.toNat % 2048 = line.toNat % 2048 := e ▸ List.mem_cons_self
      exact List.mem_map_of_mem (List.mem_of_mem_filter mem)
    · exact .inl rfl

/-- The line that `installLine` adds, at the place that its set has for it. -/
def entering (s : State) (q : Nat) (line : BitVec 31) (data : Tbl Byte) (dirty : Bool) : CLine :=
  { line := line, way := (s.makeRoom q line).1, dirty := dirty, data := data, synd := [] }

theorem State.installLine_eq (s : State) (q : Nat) (line : BitVec 31) (data : Tbl Byte) (dirty pf : Bool) : s.installLine q line data dirty pf =
    (s.makeRoom q line).2.modQuire q fun x => { x with lines := if pf then entering s q line data dirty :: x.lines else x.lines ++ [entering s q line data dirty], prefetch := x.prefetch.filter (· ≠ line) } := rfl

/-- Where a line enters that the cache does not hold: after another line has been evicted, or none. -/
theorem State.installLine_enters {data : Tbl Byte} {dirty pf : Bool} (h : findLine (s.quire q) line = none) :
    ∃ u, (u = s ∨ ∃ m, m ≠ line ∧ (findLine (s.quire q) m).isSome ∧ u = s.evict q m) ∧ CacheWork s (s.installLine q line data dirty pf) q ∧
      (∀ y, findLine ((s.installLine q line data dirty pf).quire q) y = if y = line then some (entering s q line data dirty) else findLine (u.quire q) y) ∧
      ∀ a, (s.installLine q line data dirty pf).byteAt a = u.byteAt a := by
  have room : (s.makeRoom q line).2 = s ∨ ∃ m, m ≠ line ∧ (findLine (s.quire q) m).isSome ∧ (s.makeRoom q line).2 = s.evict q m := by
    refine (s.makeRoom_cases q line).imp id ?_
    rintro ⟨m, hm, e⟩
    refine ⟨m, ?_, hm, e⟩
    rintro rfl
    rw [h] at hm
    cases hm
  have absent : findLine ((s.makeRoom q line).2.quire q) line = none := by
    obtain e | ⟨m, hm, -, e⟩ := room
    · rw [e, h]
    · rw [e, State.findLine_evict, if_neg (Ne.symm hm), h]
  have work : CacheWork s (s.makeRoom q line).2 q := by
    obtain e | ⟨m, -, -, e⟩ := room
    · rw [e]; exact .refl s q
    · rw [e]; exact s.evict_work q m
  rw [State.installLine_eq]
  have entry : (entering s q line data dirty).line = line := rfl
  generalize entering s q line data dirty = l at entry ⊢
  refine ⟨(s.makeRoom q line).2, room, work.trans (.modQuire _ _ (fun x => { x with lines := if pf then l :: x.lines else x.lines ++ [l], prefetch := x.prefetch.filter (· ≠ line) }) fun _ => rfl), fun y => ?_, fun _ => rfl⟩
  rw [State.quire_modQuire]
  exact find_entered entry absent pf y

end Sys2Proof.Machine
end

section
/-! SUPPORT. Cache operations: which lines one visits, and what it has done to them and to memory (R265, R266). -/

namespace Sys2Proof.Machine

variable {s t n : State} {q a : Nat} {y line : BitVec 31}

/-! ### The lines visited -/

theorem mem_insertLine {b : BitVec 31} {l : List (BitVec 31)} : y ∈ insertLine b l ↔ y = b ∨ y ∈ l := by
  induction l with
  | nil => simp [insertLine]
  | cons c l ih =>
    unfold insertLine
    split
    · simp
    · simp only [List.mem_cons, ih]
      tauto

theorem mem_sorted {l : List (BitVec 31)} : y ∈ l.foldr insertLine [] ↔ y ∈ l := by
  induction l with
  | nil => rfl
  | cons b l ih => rw [List.foldr_cons, mem_insertLine, ih, List.mem_cons]

/-- An operation other than a ZERO of a range visits the lines that the cache holds. -/
theorem mem_opLines_cached {x : Quire} {op first m : Nat} {all : Bool} (h : (op = 1 && !all) = false) :
    y ∈ opLines x op all first m ↔ (findLine x y).isSome ∧ (all = true ∨ first ≤ y.toNat ∧ y.toNat < first + m) := by
  unfold opLines
  rw [h, if_neg (by decide), mem_sorted, List.mem_filter, ← findLine_isSome]
  simp

/-- ZERO of a range visits every line of it. -/
theorem mem_opLines_zero {x : Quire} {first m : Nat} (h : first + m ≤ 2 ^ 31) : y ∈ opLines x 1 false first m ↔ first ≤ y.toNat ∧ y.toNat < first + m := by
  show y ∈ (List.range m).map (fun i => BitVec.ofNat 31 (first + i)) ↔ _
  rw [List.mem_map]
  constructor
  · rintro ⟨i, hi, rfl⟩
    have := List.mem_range.1 hi
    rw [BitVec.toNat_ofNat, Nat.mod_eq_of_lt (by omega)]
    omega
  · intro hy
    refine ⟨y.toNat - first, List.mem_range.2 (by omega), ?_⟩
    rw [show first + (y.toNat - first) = y.toNat by omega, BitVec.ofNat_toNat, BitVec.setWidth_eq]

/-- An address below 2^38 lies in line `line` where its line number is `line`. -/
theorem line_of_address (h : a < 0x4000000000) : a / 128 = line.toNat ↔ BitVec.ofNat 31 (a / 128) = line := by
  rw [← BitVec.toNat_inj, BitVec.toNat_ofNat, Nat.mod_eq_of_lt (by omega)]

theorem State.byteAt_writeBack_of_lt (s : State) (q : Nat) (line : BitVec 31) (h : a < 0x4000000000) :
    (s.writeBack q line).byteAt a = if BitVec.ofNat 31 (a / 128) = line then writtenBack s q a else s.byteAt a := by
  rw [State.byteAt_writeBack]
  simp only [line_of_address h]

/-- What a write-back of the line at `a` leaves is left by a further one. -/
theorem writtenBack_writeBack (s : State) (q : Nat) (line : BitVec 31) (h : a < 0x4000000000) : writtenBack (s.writeBack q line) q a = writtenBack s q a := by
  have byte := s.byteAt_writeBack_of_lt q line h
  have found := s.findLine_writeBack q line (BitVec.ofNat 31 (a / 128))
  by_cases e : BitVec.ofNat 31 (a / 128) = line
  · rw [if_pos e] at byte found
    refine Eq.trans ?_ byte
    unfold writtenBack
    rw [found]
    cases findLine (s.quire q) (BitVec.ofNat 31 (a / 128)) <;> rfl
  · rw [if_neg e] at byte found
    unfold writtenBack
    rw [found, byte]

theorem State.byteAt_evict_of_lt (s : State) (q : Nat) (line : BitVec 31) (h : a < 0x4000000000) :
    (s.evict q line).byteAt a = if BitVec.ofNat 31 (a / 128) = line then writtenBack s q a else s.byteAt a := s.byteAt_writeBack_of_lt q line h

theorem writtenBack_evict (s : State) (q : Nat) (line : BitVec 31) (h : a < 0x4000000000) : writtenBack (s.evict q line) q a = writtenBack s q a := by
  have byte := s.byteAt_evict_of_lt q line h
  have found := s.findLine_evict q line (BitVec.ofNat 31 (a / 128))
  by_cases e : BitVec.ofNat 31 (a / 128) = line
  · rw [if_pos e] at byte found
    refine Eq.trans ?_ byte
    unfold writtenBack
    rw [found]
  · rw [if_neg e] at byte found
    unfold writtenBack
    rw [found, byte]

/-! ### WRITEBACK, INVALIDATE and WB_INV -/

theorem State.lineOp_work (s : State) (q op : Nat) (line : BitVec 31) (h : op ≠ 1) : CacheWork s (s.lineOp q op line) q := by
  unfold State.lineOp
  split
  · exact absurd rfl h
  · exact s.writeBack_work q line
  · exact .trans (.modQuire s q (fun x => dropLine x line) fun _ => rfl) (State.wbForget_work ..)
  · exact s.evict_work q line

theorem CacheWork.entered {data : Tbl Byte} {dirty pf : Bool} (h : findLine (s.quire q) line = none) : CacheWork s (s.installLine q line data dirty pf) q := by
  obtain ⟨-, -, work, -⟩ := State.installLine_enters (data := data) (dirty := dirty) (pf := pf) h
  exact work

theorem State.lineOp_zero_of_some {l : CLine} (h : findLine (s.quire q) line = some l) :
    s.lineOp q 1 line = s.modQuire q fun x => useLine x { l with dirty := true, data := [], synd := [] } := by
  show (match findLine (s.quire q) line with | some l => s.modQuire q fun x => useLine x { l with dirty := true, data := [], synd := [] } | none => s.installLine q line [] true false) = _
  rw [h]

theorem State.lineOp_zero_of_none (h : findLine (s.quire q) line = none) : s.lineOp q 1 line = s.installLine q line [] true false := by
  show (match findLine (s.quire q) line with | some l => s.modQuire q fun x => useLine x { l with dirty := true, data := [], synd := [] } | none => s.installLine q line [] true false) = _
  rw [h]

theorem State.lineOp_zero_work (s : State) (q : Nat) (line : BitVec 31) : CacheWork s (s.lineOp q 1 line) q := by
  cases h : findLine (s.quire q) line with
  | some l =>
    rw [State.lineOp_zero_of_some h]
    exact .modQuire s q (fun x => useLine x { l with dirty := true, data := [], synd := [] }) fun _ => rfl
  | none =>
    rw [State.lineOp_zero_of_none h]
    exact .entered h

theorem State.cacheOp_work (s : State) (q op : Nat) (all : Bool) (first m : Nat) : CacheWork s (s.cacheOp q op all first m) q := by
  refine .forL (fun l u => ?_) _ s
  by_cases h : op = 1
  · subst h; exact u.lineOp_zero_work q l
  · exact u.lineOp_work q op l h

/-- From `s` to `n` the lines `l` have left quire `q` as `f` says, and the bytes of memory below 2^38 in them are those of `m`. -/
structure LinesDone (s n : State) (q : Nat) (l : List (BitVec 31)) (f : Option CLine → Option CLine) (m : State → Nat → Byte) : Prop where
  lines : ∀ y, findLine (n.quire q) y = if y ∈ l then f (findLine (s.quire q) y) else findLine (s.quire q) y
  bytes : ∀ a, a < 0x4000000000 → n.byteAt a = if BitVec.ofNat 31 (a / 128) ∈ l then m s a else s.byteAt a

/-- Work on one line after the other, each line as it would be alone. -/
theorem LinesDone.forL {g : BitVec 31 → State → State} {f : Option CLine → Option CLine} {m : State → Nat → Byte} (hf : ∀ o, f (f o) = f o) (hm : ∀ b s a, a < 0x4000000000 → m (g b s) a = m s a)
    (one : ∀ b s, LinesDone s (g b s) q [b] f m) (l : List (BitVec 31)) (s : State) : LinesDone s (forL l g s) q l f m := by
  induction l generalizing s with
  | nil => exact ⟨fun _ => (if_neg List.not_mem_nil).symm, fun _ _ => (if_neg List.not_mem_nil).symm⟩
  | cons b l ih =>
    obtain ⟨lines, bytes⟩ := ih (g b s)
    obtain ⟨line, byte⟩ := one b s
    refine ⟨fun y => (lines y).trans ?_, fun a ha => (bytes a ha).trans ?_⟩
    · rw [line]
      by_cases hb : y = b <;> by_cases hl : y ∈ l <;> simp [hb, hl, hf]
    · rw [byte a ha, hm b s a ha]
      generalize BitVec.ofNat 31 (a / 128) = y
      by_cases hb : y = b <;> by_cases hl : y ∈ l <;> simp [hb, hl]

theorem writeBacks_done (l : List (BitVec 31)) (s : State) (q : Nat) : LinesDone s (forL l (fun y s => s.writeBack q y) s) q l (Option.map cleaned) fun u a => writtenBack u q a :=
  .forL (fun o => by cases o <;> rfl) (fun b s _ ha => writtenBack_writeBack s q b ha)
    (fun b s => ⟨fun y => by simpa using s.findLine_writeBack q b y, fun _ ha => by simpa using s.byteAt_writeBack_of_lt q b ha⟩) l s

theorem evicts_done (l : List (BitVec 31)) (s : State) (q : Nat) : LinesDone s (forL l (fun y s => s.evict q y) s) q l (fun _ => none) fun u a => writtenBack u q a :=
  .forL (f := fun _ => none) (fun _ => rfl) (fun b s _ ha => writtenBack_evict s q b ha)
    (fun b s => ⟨fun y => by simpa using s.findLine_evict q b y, fun _ ha => by simpa using s.byteAt_evict_of_lt q b ha⟩) l s

theorem drops_done (l : List (BitVec 31)) (s : State) (q : Nat) :
    LinesDone s (forL l (fun y s => (s.modQuire q fun x => dropLine x y).wbForget q y) s) q l (fun _ => none) fun u a => u.byteAt a :=
  .forL (f := fun _ => none) (m := fun u a => u.byteAt a) (g := fun y s => (s.modQuire q fun x => dropLine x y).wbForget q y) (fun _ => rfl) (fun b s a _ => by rw [State.byteAt_wbForget, State.byteAt_modQuire])
    (fun b s => ⟨fun y => by simp [findLine_dropLine], fun a _ => by rw [State.byteAt_wbForget, State.byteAt_modQuire, ite_self]⟩) l s

theorem drops_memory (l : List (BitVec 31)) (s : State) (q : Nat) :
    let n := forL l (fun y s => (s.modQuire q fun x => dropLine x y).wbForget q y) s
    n.mem = s.mem ∧ n.synd = s.synd :=
  foldl_keeps (fun u : State => u.mem = s.mem ∧ u.synd = s.synd) (fun u y h => by rw [State.wbForget_mem, State.wbForget_synd]; exact h) l s ⟨rfl, rfl⟩

/-! ### ZERO -/

/-- How the byte at `a` stands in `n` once ZERO has visited the lines `v` from `s` on: a visited line reads 0, cached dirty or in memory; another is as it was, or has been replaced. -/
def ZeroedAt (s n : State) (q : Nat) (v : List (BitVec 31)) (a : Nat) : Prop :=
  let y := BitVec.ofNat 31 (a / 128)
  (y ∈ v → match findLine (n.quire q) y with | some l => l.dirty = true ∧ Tbl.get 0 l.data (a % 128) = 0 | none => n.byteAt a = 0) ∧
  (y ∉ v → (findLine (n.quire q) y = findLine (s.quire q) y ∧ n.byteAt a = s.byteAt a) ∨ (findLine (n.quire q) y = none ∧ (n.byteAt a = s.byteAt a ∨ n.byteAt a = seenByte s q a)))

theorem ZeroedAt.refl (s : State) (q a : Nat) : ZeroedAt s s q [] a := ⟨fun h => absurd h List.not_mem_nil, fun _ => .inl ⟨rfl, rfl⟩⟩

variable {v : List (BitVec 31)}

/-- A line is replaced. -/
theorem ZeroedAt.evict (h : ZeroedAt s n q v a) (ha : a < 0x4000000000) (m : BitVec 31) : ZeroedAt s (n.evict q m) q v a := by
  obtain ⟨visited, others⟩ := h
  have found := n.findLine_evict q m (BitVec.ofNat 31 (a / 128))
  have byte := n.byteAt_evict_of_lt q m ha
  have back : writtenBack n q a = match findLine (n.quire q) (BitVec.ofNat 31 (a / 128)) with | some l => if l.dirty then Tbl.get 0 l.data (a % 128) else n.byteAt a | none => n.byteAt a := rfl
  have seen : seenByte s q a = match findLine (s.quire q) (BitVec.ofNat 31 (a / 128)) with | some l => Tbl.get 0 l.data (a % 128) | none => s.byteAt a := rfl
  unfold ZeroedAt
  generalize BitVec.ofNat 31 (a / 128) = y at found byte back seen visited others ⊢
  dsimp only at visited others ⊢
  by_cases e : y = m
  · rw [if_pos e] at found byte
    rw [found, byte, back]
    refine ⟨fun hv => ?_, fun hv => .inr ⟨rfl, ?_⟩⟩
    · have := visited hv
      split at this
      · exact (if_pos this.1).trans this.2
      · exact this
    · obtain ⟨same, keep⟩ | ⟨gone, keep⟩ := others hv
      · rw [same, keep, seen]
        split
        · split
          · exact .inr rfl
          · exact .inl rfl
        · exact .inl rfl
      · rw [gone]
        exact keep
  · rw [if_neg e] at found byte
    rw [found, byte]
    exact ⟨visited, others⟩

/-- A zeroed line takes its place in the cache. -/
theorem ZeroedAt.place {u : State} {z : CLine} (h : ZeroedAt s n q v a) (hz : z.dirty = true ∧ z.data = []) (lines : ∀ y, findLine (u.quire q) y = if y = line then some z else findLine (n.quire q) y)
    (bytes : ∀ a, u.byteAt a = n.byteAt a) : ZeroedAt s u q (line :: v) a := by
  obtain ⟨visited, others⟩ := h
  unfold ZeroedAt
  generalize BitVec.ofNat 31 (a / 128) = y at visited others ⊢
  dsimp only at visited others ⊢
  rw [lines y, bytes a]
  by_cases e : y = line
  · rw [if_pos e]
    exact ⟨fun _ => ⟨hz.1, by rw [hz.2]; rfl⟩, fun hv => absurd (e ▸ List.mem_cons_self) hv⟩
  · rw [if_neg e]
    exact ⟨fun hv => visited ((List.mem_cons.1 hv).resolve_left e), fun hv => others fun k => hv (List.mem_cons_of_mem _ k)⟩

theorem ZeroedAt.lineOp (h : ZeroedAt s n q v a) (ha : a < 0x4000000000) (line : BitVec 31) : ZeroedAt s (n.lineOp q 1 line) q (line :: v) a := by
  cases e : findLine (n.quire q) line with
  | some l =>
    rw [State.lineOp_zero_of_some e]
    refine h.place (z := { l with dirty := true, data := [], synd := [] }) ⟨rfl, rfl⟩ (fun y => ?_) fun _ => rfl
    rw [State.quire_modQuire, findLine_useLine]
    rw [show ({ l with dirty := true, data := [], synd := [] } : CLine).line = line from (line_of_findLine e :)]
  | none =>
    rw [State.lineOp_zero_of_none e]
    obtain ⟨u, made, -, lines, bytes⟩ := State.installLine_enters (data := []) (dirty := true) (pf := false) e
    have k : ZeroedAt s u q v a := by
      obtain rfl | ⟨m, -, -, rfl⟩ := made
      · exact h
      · exact h.evict ha m
    exact k.place (z := entering n q line [] true) ⟨rfl, rfl⟩ lines bytes

theorem zeroes (l : List (BitVec 31)) (h : ZeroedAt s n q v a) (ha : a < 0x4000000000) :
    ∃ w, (∀ y, y ∈ w ↔ y ∈ l ∨ y ∈ v) ∧ ZeroedAt s (forL l (fun y s => s.lineOp q 1 y) n) q w a := by
  induction l generalizing n v with
  | nil => exact ⟨v, by simp, h⟩
  | cons b l ih =>
    obtain ⟨w, hw, k⟩ := ih (h.lineOp ha b)
    refine ⟨w, fun y => ?_, k⟩
    rw [hw]
    simp only [List.mem_cons]
    tauto

/-- After ZERO a visited line reads 0, and another byte of memory is as it was or as the cache held it. -/
theorem State.cacheOp_zero (s : State) (q : Nat) (all : Bool) (first m : Nat) (ha : a < 0x4000000000) :
    let n := s.cacheOp q 1 all first m
    (BitVec.ofNat 31 (a / 128) ∈ opLines (s.quire q) 1 all first m → seenByte n q a = 0) ∧
    (BitVec.ofNat 31 (a / 128) ∉ opLines (s.quire q) 1 all first m → n.byteAt a = s.byteAt a ∨ n.byteAt a = seenByte s q a) := by
  obtain ⟨w, hw, visited, others⟩ := zeroes (opLines (s.quire q) 1 all first m) (ZeroedAt.refl s q a) ha
  simp only [List.not_mem_nil, or_false] at hw
  intro n
  refine ⟨fun hv => ?_, fun hv => ?_⟩
  · have := visited ((hw _).2 hv)
    unfold seenByte
    split at this
    · rename_i l e
      rw [show findLine (n.quire q) _ = some l from e]
      exact this.2
    · rename_i e
      rw [show findLine (n.quire q) _ = none from e]
      exact this
  · obtain ⟨-, keep⟩ | ⟨-, keep⟩ := others fun k => hv ((hw _).1 k)
    · exact .inl keep
    · exact keep

end Sys2Proof.Machine
end

section
/-! SUPPORT. A write of a register of a quire's block reaches the quire, through the function of its room or from a supervisor of its tiles (R247, R410, R413). -/

namespace Sys2Proof.Machine

variable {s u : State} {w : Writer} {q : QuireId} {r b m : Nat}

/-- The block has a writable register of `m` bytes at `b`, beside its cue entries and channels (R412). -/
structure QuireReg (b m : Nat) : Prop where
  words : ∀ j, 2 * j < m → qregAt (b + 2 * j) = some (b, m)
  size : m = 4 ∨ m = 8
  aligned : b % m = 0
  high : 0x800 ≤ b
  low : b < 0x1000
  writable : b ≠ 0x800 ∧ b ≠ 0x820

theorem QuireReg.here (h : QuireReg b m) : qregAt b = some (b, m) := by
  have := h.size
  exact h.words 0 (by omega)

/-- A quire that runs, with no negotiation under way, has nothing to be woken for. -/
theorem State.askWake_running {q : Nat} (hp : (s.quire q).power = .on) (hn : s.pow.neg = none) : s.askWake q = s := by
  unfold State.askWake
  rw [hp]
  dsimp only
  unfold State.activity
  rw [hn]

theorem State.regPut_quire {f : Nat} (hf : f = r + 1) (hr : (s.room r).exists' = true) (h : QuireReg b m) (hp : (s.quire q).power = .on) (hn : s.pow.neg = none) (v : Nat) :
    s.regPut f (0x100000 + 0x10000 * q + b) v = s.qregWrite r q b v := by
  have low := h.low
  have place : (0x100000 + 0x10000 * q.val + b - 0x100000) / 0x10000 = q ∧ (0x100000 + 0x10000 * q.val + b) % 0x10000 = b := by omega
  unfold State.regPut
  rw [hostSpan_of_ge (by omega), if_neg (by decide), if_neg (by omega), if_neg (by simp only [Bool.and_eq_true, decide_eq_true_eq]; omega), hf, Nat.add_sub_cancel, hr, if_pos rfl]
  unfold State.roomRegWrite
  simp only [Bool.and_eq_true, decide_eq_true_eq]
  rw [if_neg (by omega), if_neg (by omega), if_neg (by omega), if_neg (by omega), if_neg (by omega), if_neg (by omega), if_pos (by omega), place.1, place.2]
  unfold State.quireBlockWrite
  rw [hp, State.askWake_running hp hn, ite_self]
  simp

theorem writerPut_quireReg_host {f : FnId} (hr : WriterReaches s (.host f) q r) (h : QuireReg b m) (v : W64) :
    s.writerPut (.host f) (blockOffset q b) m v = (s.modFn f fun y => y.unstage (0x100000 + 0x10000 * q + b)).qregWrite r q b (v.toNat % 2 ^ (8 * m)) := by
  obtain ⟨hn, hq, hp, hf, hh⟩ := hr
  have hs := h.size
  have ha := h.aligned
  have hb := h.low
  have hw := h.writable
  have room := State.exists_of_quireRoom hq
  have off : (BitVec.ofNat 24 (blockOffset q b)).toNat = 0x100000 + 0x10000 * q.val + b := by unfold blockOffset; rw [BitVec.toNat_ofNat]; omega
  have width : (Fin.ofNat 16 m).val = m := Nat.mod_eq_of_lt (by omega)
  have span := fnSpan_quire (f := f) (q := q) (off := b) (by omega) q.isLt (by omega) h.here
  have own : s.regForeign f (0x100000 + 0x10000 * q.val + b) = false := by rw [State.regForeign_quire hf room q.isLt (by omega), hq]; simp
  have access : accessOk (0x100000 + 0x10000 * q.val + b) m = true := by
    obtain rfl | rfl := hs
    · exact accessOk_four (by omega)
    · exact accessOk_eight (by omega)
  show s.tlp f (.reg (BitVec.ofNat 24 (blockOffset q b)) (Fin.ofNat 16 m) v) = _
  rw [State.tlp_of_direct ⟨hn, hh⟩, off, width, State.bar0Write_span access (msixArea_below (by omega)) span (Nat.le_refl _), own, if_neg (by decide)]
  have writable : (decide (b = 0x800) || decide (b = 0x820) || (decide (0x1000 ≤ b) && decide (b % 64 = 16))) = false := by
    simp only [Bool.or_eq_false_iff, Bool.and_eq_false_iff, decide_eq_false_iff_not]
    omega
  dsimp only
  rw [writable, if_neg (by decide), if_neg (by simp only [Bool.and_eq_true, decide_eq_true_eq]; omega)]
  exact State.regPut_quire (s := s.modFn f fun y => y.unstage _) hf room h hp hn _

/-- Two words in order make the low half of the value. -/
theorem wordOf_sum_low (v : W64) : ([wordOf v 0].map BitVec.toNat ++ [(wordOf v 1).toNat]).foldr (fun a c => a + 65536 * c) 0 = v.toNat % 2 ^ 32 := by
  have := v.isLt
  simp only [List.map_cons, List.map_nil, List.cons_append, List.nil_append, List.foldr_cons, List.foldr_nil, wordOf, BitVec.toNat_ofNat]
  omega

theorem writerPut_quireReg_tile {t : TileId} (hr : WriterReaches s (.tile t) q r) (h : QuireReg b m) (v : W64) :
    ∃ u, TileStaging s u t ∧ s.writerPut (.tile t) (blockOffset q b) m v = u.qregWrite r q b (v.toNat % 2 ^ (8 * m)) := by
  obtain ⟨-, hq, -, ht, hs⟩ := hr
  have low := h.low
  have at' := h.words
  have room : s.tileRoom t = some r := by unfold State.tileRoom; rw [ht]; exact hq
  have span : qregSpan b (m / 2) = true := by
    unfold qregSpan
    rw [h.here]
    exact decide_eq_true (by omega)
  have store : s.writerPut (.tile t) (blockOffset q b) m v = s.qregStore t b (valueWords m v) := by
    show (if blockOffset q b / 0x10000 = 0x10 + tileQuire t then s.tilePut t (blockOffset q b % 0x10000) m v else s) = _
    unfold blockOffset
    rw [if_pos (by omega), show (0x100000 + 0x10000 * q.val + b) % 0x10000 = b by omega]
    unfold State.tilePut
    rw [span, hs]
    rfl
  have one (hm : 2 < m) := Staged.first (s := s) (t := t) (w := wordOf v 0) h.here hm
  obtain rfl | rfl := h.size
  · obtain ⟨u, hu, run⟩ := (one (by decide)).completes (off := b + 2) (w := wordOf v 1) rfl (at' 1 (by decide)) (by omega) room
    refine ⟨u, hu, store.trans ?_⟩
    rw [← ht, show 8 * 4 = 32 from rfl, ← wordOf_sum_low v]
    exact run
  · have two := (one (by decide)).next (off := b + 2) (w := wordOf v 1) rfl (at' 1 (by decide)) (by omega)
    have three := two.next (off := b + 2 + 2) (w := wordOf v 2) rfl (at' 2 (by decide)) (by omega)
    obtain ⟨u, hu, run⟩ := three.completes (off := b + 2 + 2 + 2) (w := wordOf v 3) rfl (at' 3 (by decide)) (by omega) room
    refine ⟨u, hu, store.trans ?_⟩
    rw [← ht, toNat_mod_64, ← wordOf_sum v]
    exact run

/-- A write of a register that reaches the quire takes effect there, once nothing but the writer's staging has changed. -/
theorem reaches_writes (hr : WriterReaches s w q r) (h : QuireReg b m) (v : W64) :
    ∃ u, Untouched s u w ∧ s.writerPut w (blockOffset q b) m v = u.qregWrite r q b (v.toNat % 2 ^ (8 * m)) := by
  cases w with
  | host f => exact ⟨_, untouched_of_unstage s f _, writerPut_quireReg_host hr h v⟩
  | tile t =>
    obtain ⟨u, hu, run⟩ := writerPut_quireReg_tile hr h v
    exact ⟨u, untouched_of_tileStaging hu, run⟩

theorem quireReg_waymap : QuireReg 0x810 4 where
  words j hj := by
    have : j < 2 := by omega
    interval_cases j <;> rfl
  size := .inl rfl
  aligned := rfl
  high := by decide
  low := by decide
  writable := by decide

theorem quireReg_cmd : QuireReg 0x818 8 where
  words j hj := by
    have : j < 4 := by omega
    interval_cases j <;> rfl
  size := .inr rfl
  aligned := rfl
  high := by decide
  low := by decide
  writable := by decide

/-! ### What such a write changes -/

theorem State.raiseMem_eq (s : State) (q : Nat) (m : W32) : ∃ i, s.raiseMem q m = { s.modQuire q (fun x => { x with memEvt := x.memEvt ||| m }) with irq := i } := State.srcRose_eq s _ _

theorem State.raiseMem_quire (s : State) (q : Nat) (m : W32) (k : Nat) : (s.raiseMem q m).quire k = (s.modQuire q fun x => { x with memEvt := x.memEvt ||| m }).quire k := by
  obtain ⟨i, e⟩ := s.raiseMem_eq q m
  rw [e]
  rfl

theorem StagingOnly.congr {n : State} (h : StagingOnly s u w) (hf : n.fns = u.fns) (ht : n.tiles = u.tiles) : StagingOnly s n w := by
  unfold StagingOnly State.fn State.tile at h ⊢
  rw [hf, ht]
  exact h

theorem Untouched.quire (h : Untouched s u w) (k : Nat) : u.quire k = s.quire k := (congrArg (fun z : State => z.quire k) h.2 :)

/-- From `s` to `u` quire `q` becomes `x`, and nothing else changes but the staging of `w` and the router. -/
structure QuireBecomes (s u : State) (w : Writer) (q : QuireId) (x : Quire) : Prop where
  staging : StagingOnly s u w
  quire : u.quire q = x
  others : ∀ k, k ≠ q.val → u.quire k = s.quire k
  rest : { u with quires := s.quires, tiles := s.tiles, fns := s.fns, irq := s.irq } = s

theorem QuireBecomes.of_untouched (h : Untouched s u w) (q : QuireId) : QuireBecomes s u w q (s.quire q) where
  staging := h.1
  quire := h.quire q
  others k _ := h.quire k
  rest := (congrArg (fun z : State => ({ z with quires := s.quires, irq := s.irq } : State)) h.2 :)

theorem QuireBecomes.modQuire {x : Quire} (h : QuireBecomes s u w q x) (f : Quire → Quire) : QuireBecomes s (u.modQuire q f) w q (f x) where
  staging := StagingOnly.congr h.staging rfl rfl
  quire := by rw [State.quire_modQuire, h.quire]
  others k hk := (State.quire_modQuire_ne _ _ hk).trans (h.others k hk)
  rest := h.rest

theorem QuireBecomes.raiseMem {x : Quire} (h : QuireBecomes s u w q x) (m : W32) : QuireBecomes s (u.raiseMem q m) w q { x with memEvt := x.memEvt ||| m } where
  staging := by
    obtain ⟨i, e⟩ := u.raiseMem_eq q m
    rw [e]
    exact StagingOnly.congr h.staging rfl rfl
  quire := by rw [State.raiseMem_quire, State.quire_modQuire, h.quire]
  others k hk := by rw [State.raiseMem_quire, State.quire_modQuire_ne _ _ hk, h.others k hk]
  rest := by
    obtain ⟨i, e⟩ := u.raiseMem_eq q m
    rw [e]
    exact h.rest

end Sys2Proof.Machine
end

section
/-! ZERO, WRITEBACK, INVALIDATE and WB_INV: the write that starts one, and what it has done once every line is visited (R262, R265, R266, R280; log 23). -/

namespace Sys2Proof.Machine

variable {s u n : State} {w : Writer} {q : QuireId} {r op a : Nat} {all : Bool} {lines : BitVec 16} {line : BitVec 31}

/-! ### The write of QC_CMD -/

theorem qcCmdWord_toNat (h : op < 8) : (qcCmdWord op all lines line).toNat = 2 ^ 7 * line.toNat + 2 ^ 40 * lines.toNat + 2 ^ 56 * bit all + 2 ^ 57 * op := by
  have := line.isLt
  have := lines.isLt
  have : bit all ≤ 1 := by cases all <;> decide
  unfold qcCmdWord
  rw [BitVec.toNat_ofNat]
  omega

theorem State.qcCmdValue_word (s : State) (r q : Nat) (h : op < 8) (all : Bool) (lines : BitVec 16) (line : BitVec 31) :
    s.qcCmdValue r q (qcCmdWord op all lines line).toNat = s.qcCmdWrite r q (BitVec.ofNat 3 op) all lines line := by
  have h1 := line.isLt
  have h2 := lines.isLt
  have h3 : bit all ≤ 1 := by cases all <;> decide
  unfold State.qcCmdValue
  rw [qcCmdWord_toNat h]
  congr 1
  · exact congrArg (BitVec.ofNat 3) (by omega)
  · rw [Nat.testBit_eq_decide_div_mod_eq]
    have : (2 ^ 7 * line.toNat + 2 ^ 40 * lines.toNat + 2 ^ 56 * bit all + 2 ^ 57 * op) / 2 ^ 56 % 2 = bit all := by omega
    rw [this]
    cases all <;> rfl
  · rw [← BitVec.toNat_inj, BitVec.toNat_ofNat]
    omega
  · rw [← BitVec.toNat_inj, BitVec.toNat_ofNat]
    omega

theorem reaches_writesCmd (hr : WriterReaches s w q r) (h : op < 8) (all : Bool) (lines : BitVec 16) (line : BitVec 31) :
    ∃ u, Untouched s u w ∧ s.writerPut w (blockOffset q 0x818) 8 (qcCmdWord op all lines line) = u.qcCmdWrite r q (BitVec.ofNat 3 op) all lines line := by
  obtain ⟨u, same, run⟩ := reaches_writes hr quireReg_cmd (qcCmdWord op all lines line)
  refine ⟨u, same, run.trans ?_⟩
  rw [toNat_mod_64]
  exact u.qcCmdValue_word r q h all lines line

/-- The range of an operation that `r` may start, as the statement of R266 has it. -/
def Allowed (s : State) (r : Nat) (all : Bool) (lines : BitVec 16) (line : BitVec 31) : Prop :=
  if all then lines = 0 ∧ line = 0 else s.ownsHbm r (line.toNat * 128) ((lines.toNat + 1) * 128) = true

theorem State.opRangeOk_iff : s.opRangeOk r all lines.toNat line.toNat = true ↔ Allowed s r all lines line := by
  unfold State.opRangeOk Allowed
  cases all
  · exact Iff.rfl
  · simp [← BitVec.toNat_inj]

theorem Untouched.allowed (h : Untouched s u w) : Allowed u r all lines line ↔ Allowed s r all lines line := by
  unfold Allowed
  rw [show u.ownsHbm = s.ownsHbm from (congrArg State.ownsHbm h.2 :)]

theorem Untouched.byteAt (h : Untouched s u w) (a : Nat) : u.byteAt a = s.byteAt a := (congrArg (fun z : State => z.byteAt a) h.2 :)

/-! ### An operation that starts -/

/-- `u` with the operation begun in quire `q`. -/
def cmdBegun (u : State) (q : Nat) (op : BitVec 3) (all : Bool) (lines : BitVec 16) (line : BitVec 31) : State :=
  u.modQuire q fun x => { x with cmd := { busy := true, refused := false, op := op, all := all, lines := lines, line := line } }

theorem findLine_cmdBegun (h : Untouched s u w) (c : BitVec 3) (y : BitVec 31) : findLine ((cmdBegun u q c all lines line).quire q) y = findLine (s.quire q) y := by
  unfold cmdBegun
  rw [State.quire_modQuire, h.quire]
  rfl

theorem opLines_cmdBegun (h : Untouched s u w) (c : BitVec 3) (first m : Nat) : opLines ((cmdBegun u q c all lines line).quire q) op all first m = opLines (s.quire q) op all first m := by
  unfold cmdBegun
  rw [State.quire_modQuire, h.quire]
  rfl

theorem byteAt_cmdBegun (h : Untouched s u w) (c : BitVec 3) (a : Nat) : (cmdBegun u q c all lines line).byteAt a = s.byteAt a := h.byteAt a

theorem seenByte_cmdBegun (h : Untouched s u w) (c : BitVec 3) (a : Nat) : seenByte (cmdBegun u q c all lines line) q a = seenByte s q a := by
  unfold seenByte
  rw [findLine_cmdBegun h, byteAt_cmdBegun h]

theorem writtenBack_cmdBegun (h : Untouched s u w) (c : BitVec 3) (a : Nat) : writtenBack (cmdBegun u q c all lines line) q a = writtenBack s q a := by
  unfold writtenBack
  rw [findLine_cmdBegun h, byteAt_cmdBegun h]

theorem State.qcCmdWrite_starts (hb : (u.quire q).cmd.busy = false) (h1 : 0 < op) (h4 : op ≤ 4) (ha : Allowed u r all lines line) :
    u.qcCmdWrite r q (BitVec.ofNat 3 op) all lines line = (cmdBegun u q (BitVec.ofNat 3 op) all lines line).cacheOp q op all line.toNat (lines.toNat + 1) := by
  have opNat : (BitVec.ofNat 3 op).toNat = op := by rw [BitVec.toNat_ofNat]; omega
  unfold State.qcCmdWrite
  rw [hb, if_neg (by decide), if_neg (fun e => by rw [e] at opNat; change 0 = op at opNat; omega), opNat, State.opRangeOk_iff.2 ha, if_pos (by simpa using h4)]
  rfl

/-- Where work on the lines of the cache is all that follows, the operation is done as it was begun. -/
theorem cacheOpDone (same : Untouched s u w) (work : CacheWork (cmdBegun u q (BitVec.ofNat 3 op) all lines line) n q) : CacheOpDone s n w q op all lines line := by
  obtain ⟨⟨fns, stage, tiles, tileStage⟩, rest⟩ := same
  obtain ⟨quire, others, tile, -, kept⟩ := work
  have begun : ∀ k, k ≠ q.val → (cmdBegun u q (BitVec.ofNat 3 op) all lines line).quire k = s.quire k := fun k hk =>
    (State.quire_modQuire_ne u _ hk).trans (congrArg (fun z : State => z.quire k) rest :)
  have here : (cmdBegun u q (BitVec.ofNat 3 op) all lines line).quire q = { s.quire q with cmd := { busy := true, refused := false, op := BitVec.ofNat 3 op, all := all, lines := lines, line := line } } :=
    (State.quire_modQuire u q _).trans (congrArg (fun z : State => ({ z.quire q with cmd := { busy := true, refused := false, op := BitVec.ofNat 3 op, all := all, lines := lines, line := line } } : Quire)) rest :)
  have other : ∀ k, k ≠ q.val → n.quire k = s.quire k := fun k hk => (others k hk).trans (begun k hk)
  refine ⟨?_, fun k => ?_, other, fun t => ?_, fun f => ?_, ?_⟩
  · exact (congrArg Quire.cmd quire :).trans (congrArg Quire.cmd here :)
  · by_cases hk : k = q.val
    · subst hk
      rw [here] at quire
      exact (congrArg (fun x : Quire => { x with lines := (s.quire q).lines, cmd := (s.quire q).cmd, prefetch := (s.quire q).prefetch }) quire :)
    · rw [other k hk]
  · exact (congrArg (fun x : Tile => { x with wb := (s.tile t).wb, stageReg := (s.tile t).stageReg, stage := (s.tile t).stage }) (tile t) :).trans
      (congrArg (fun x : Tile => { x with wb := (s.tile t).wb }) (tileStage t) :)
  · rw [show n.fn f = u.fn f from (congrArg (fun z : State => z.fn f) kept :)]
    exact stage f
  · exact (congrArg (fun z : State => ({ z with quires := s.quires, tiles := s.tiles, fns := s.fns, mem := s.mem, synd := s.synd } : State)) kept :).trans
      (congrArg (fun z : State => ({ z with quires := s.quires, mem := s.mem, synd := s.synd } : State)) rest :)

/-- The write starts the operation, which visits its lines. -/
theorem reaches_starts (hr : WriterReaches s w q r) (hb : (s.quire q).cmd.busy = false) (ha : Allowed s r all lines line) (h1 : 0 < op) (h4 : op ≤ 4) :
    ∃ u, Untouched s u w ∧
      s.writerPut w (blockOffset q 0x818) 8 (qcCmdWord op all lines line) = (cmdBegun u q (BitVec.ofNat 3 op) all lines line).cacheOp q op all line.toNat (lines.toNat + 1) ∧
      CacheOpDone s ((cmdBegun u q (BitVec.ofNat 3 op) all lines line).cacheOp q op all line.toNat (lines.toNat + 1)) w q op all lines line := by
  obtain ⟨u, same, run⟩ := reaches_writesCmd hr (op := op) (by omega) all lines line
  exact ⟨u, same, run.trans (State.qcCmdWrite_starts (by rw [same.quire, hb]) h1 h4 (same.allowed.2 ha)), cacheOpDone same (State.cacheOp_work ..)⟩

/-! ### The lines in the range -/

theorem inOp_iff (ha : a < 0x3000000000) : inOp all lines line a ↔
    all = true ∨ line.toNat ≤ (BitVec.ofNat 31 (a / 128)).toNat ∧ (BitVec.ofNat 31 (a / 128)).toNat < line.toNat + (lines.toNat + 1) := by
  rw [BitVec.toNat_ofNat, Nat.mod_eq_of_lt (by omega)]
  unfold inOp
  constructor
  · rintro ⟨-, h | h⟩
    · exact .inl h
    · exact .inr (by omega)
  · rintro (h | h)
    · exact ⟨ha, .inl h⟩
    · exact ⟨ha, .inr (by omega)⟩

/-- The operations 2, 3 and 4 visit the cached lines of the range. -/
theorem visited_iff (h1 : op ≠ 1) (ha : a < 0x3000000000) :
    BitVec.ofNat 31 (a / 128) ∈ opLines (s.quire q) op all line.toNat (lines.toNat + 1) ↔ (findLine (s.quire q) (BitVec.ofNat 31 (a / 128))).isSome ∧ inOp all lines line a := by
  rw [mem_opLines_cached (by simp [h1]), inOp_iff ha]

/-- ZERO of a range visits each of its lines, and with ALL the cached ones. -/
theorem zeroed_iff (h : Allowed s r all lines line) (ha : a < 0x3000000000) :
    BitVec.ofNat 31 (a / 128) ∈ opLines (s.quire q) 1 all line.toNat (lines.toNat + 1) ↔
      inOp all lines line a ∧ (all = true → (findLine (s.quire q) (BitVec.ofNat 31 (a / 128))).isSome) := by
  rw [inOp_iff ha]
  cases all with
  | true => rw [mem_opLines_cached rfl]; simp
  | false =>
    have owned : s.ownsHbm r (line.toNat * 128) ((lines.toNat + 1) * 128) = true := h
    unfold State.ownsHbm at owned
    obtain ⟨low, -⟩ := Bool.and_eq_true_iff.1 owned
    have := of_decide_eq_true low
    rw [mem_opLines_zero (by omega)]
    simp

/-! ### The four operations -/

section
variable (hr : WriterReaches s w q r) (hb : (s.quire q).cmd.busy = false) (ha : Allowed s r all lines line)
include hr hb ha

theorem zero_acts : ∃ n, exec (.zero w q all lines line) s = .next n ∧ CacheOpDone s n w q 1 all lines line ∧
    (∀ a, inOp all lines line a → (all = true → (findLine (s.quire q) (BitVec.ofNat 31 (a / 128))).isSome) → seenByte n q a = 0) ∧
    (∀ a, a < 0x3000000000 → ¬inOp all lines line a → n.byteAt a = s.byteAt a ∨ n.byteAt a = seenByte s q a) := by
  obtain ⟨u, same, run, done⟩ := reaches_starts hr hb ha (op := 1) (by decide) (by decide)
  refine ⟨_, congrArg Host.Outcome.next run, done, fun a hin found => ?_, fun a low out => ?_⟩
  · have low : a < 0x3000000000 := hin.1
    refine (State.cacheOp_zero _ _ _ _ _ (by omega)).1 ?_
    rw [opLines_cmdBegun same]
    exact (zeroed_iff ha low).2 ⟨hin, found⟩
  · have kept := (State.cacheOp_zero (cmdBegun u q (BitVec.ofNat 3 1) all lines line) q all line.toNat (lines.toNat + 1) (a := a) (by omega)).2 ?_
    · rw [byteAt_cmdBegun same, seenByte_cmdBegun same] at kept
      exact kept
    · rw [opLines_cmdBegun same]
      exact fun k => out ((zeroed_iff ha low).1 k).1

omit hr hb ha in
/-- What `f` and `m` say of the lines done, in terms of the state before the write. -/
theorem range_done {f : Option CLine → Option CLine} {m : State → Nat → Byte} (h1 : op ≠ 1) (same : Untouched s u w) (hm : ∀ a, m (cmdBegun u q (BitVec.ofNat 3 op) all lines line) a = m s a)
    (done : LinesDone (cmdBegun u q (BitVec.ofNat 3 op) all lines line) n q (opLines ((cmdBegun u q (BitVec.ofNat 3 op) all lines line).quire q) op all line.toNat (lines.toNat + 1)) f m)
    (absent : ∀ a, findLine (s.quire q) (BitVec.ofNat 31 (a / 128)) = none → f none = none ∧ m s a = s.byteAt a) (low : a < 0x3000000000) :
    (inOp all lines line a → findLine (n.quire q) (BitVec.ofNat 31 (a / 128)) = f (findLine (s.quire q) (BitVec.ofNat 31 (a / 128))) ∧ n.byteAt a = m s a) ∧
    (¬inOp all lines line a → findLine (n.quire q) (BitVec.ofNat 31 (a / 128)) = findLine (s.quire q) (BitVec.ofNat 31 (a / 128)) ∧ n.byteAt a = s.byteAt a) := by
  obtain ⟨found, bytes⟩ := done
  replace found := found (BitVec.ofNat 31 (a / 128))
  replace bytes := bytes a (by omega)
  rw [opLines_cmdBegun same] at found bytes
  rw [findLine_cmdBegun same] at found
  rw [byteAt_cmdBegun same, hm] at bytes
  have visited := visited_iff (s := s) (q := q) (all := all) (lines := lines) (line := line) h1 low
  by_cases k : BitVec.ofNat 31 (a / 128) ∈ opLines (s.quire q) op all line.toNat (lines.toNat + 1)
  · rw [if_pos k] at found bytes
    exact ⟨fun _ => ⟨found, bytes⟩, fun out => absurd (visited.1 k).2 out⟩
  · rw [if_neg k] at found bytes
    refine ⟨fun hin => ?_, fun _ => ⟨found, bytes⟩⟩
    have gone : findLine (s.quire q) (BitVec.ofNat 31 (a / 128)) = none := by
      by_contra c
      exact k (visited.2 ⟨Option.isSome_iff_ne_none.2 c, hin⟩)
    obtain ⟨hf, hm⟩ := absent a gone
    rw [found, bytes, gone, hf, hm]
    exact ⟨rfl, rfl⟩

omit hr hb ha in
theorem State.cacheOp_writeback (s : State) (q : Nat) (all : Bool) (first m : Nat) :
    LinesDone s (s.cacheOp q 2 all first m) q (opLines (s.quire q) 2 all first m) (Option.map cleaned) fun u a => writtenBack u q a := writeBacks_done ..

omit hr hb ha in
theorem State.cacheOp_invalidate (s : State) (q : Nat) (all : Bool) (first m : Nat) :
    LinesDone s (s.cacheOp q 3 all first m) q (opLines (s.quire q) 3 all first m) (fun _ => none) fun u a => u.byteAt a := drops_done ..

omit hr hb ha in
theorem State.cacheOp_wbInv (s : State) (q : Nat) (all : Bool) (first m : Nat) :
    LinesDone s (s.cacheOp q 4 all first m) q (opLines (s.quire q) 4 all first m) (fun _ => none) fun u a => writtenBack u q a := evicts_done ..

omit hr hb ha in
theorem writtenBack_of_absent (h : findLine (s.quire q) (BitVec.ofNat 31 (a / 128)) = none) : writtenBack s q a = s.byteAt a := by
  unfold writtenBack
  rw [h]

theorem writeback_acts : ∃ n, exec (.writeback w q all lines line) s = .next n ∧ CacheOpDone s n w q 2 all lines line ∧
    (∀ a, inOp all lines line a → n.byteAt a = writtenBack s q a ∧ seenByte n q a = seenByte s q a ∧
      ∀ l, findLine (n.quire q) (BitVec.ofNat 31 (a / 128)) = some l → l.dirty = false) ∧
    (∀ a, a < 0x3000000000 → ¬inOp all lines line a → n.byteAt a = s.byteAt a ∧ (findLine (n.quire q) (BitVec.ofNat 31 (a / 128)) = findLine (s.quire q) (BitVec.ofNat 31 (a / 128)))) := by
  obtain ⟨u, same, run, done⟩ := reaches_starts hr hb ha (op := 2) (by decide) (by decide)
  have range {a : Nat} (low : a < 0x3000000000) := range_done (q := q) (all := all) (lines := lines) (line := line) (m := fun u a => writtenBack u q a) (by decide) same (writtenBack_cmdBegun same _) (State.cacheOp_writeback ..) (fun _ gone => ⟨rfl, writtenBack_of_absent gone⟩) low
  refine ⟨_, congrArg Host.Outcome.next run, done, fun a hin => ?_, fun a low out => ((range low).2 out).symm⟩
  obtain ⟨found, byte⟩ := (range hin.1).1 hin
  refine ⟨byte, ?_, fun l e => ?_⟩
  · unfold seenByte
    rw [found, byte]
    cases gone : findLine (s.quire q) (BitVec.ofNat 31 (a / 128)) with
    | some l => rfl
    | none => exact writtenBack_of_absent gone
  · rw [found, Option.map_eq_some_iff] at e
    obtain ⟨-, -, rfl⟩ := e
    rfl

theorem invalidate_acts : ∃ n, exec (.invalidate w q all lines line) s = .next n ∧ CacheOpDone s n w q 3 all lines line ∧ n.mem = s.mem ∧ n.synd = s.synd ∧
    ∀ a, a < 0x3000000000 → (inOp all lines line a → findLine (n.quire q) (BitVec.ofNat 31 (a / 128)) = none) ∧
      (¬inOp all lines line a → findLine (n.quire q) (BitVec.ofNat 31 (a / 128)) = findLine (s.quire q) (BitVec.ofNat 31 (a / 128))) := by
  obtain ⟨u, same, run, done⟩ := reaches_starts hr hb ha (op := 3) (by decide) (by decide)
  obtain ⟨mem, synd⟩ := drops_memory (opLines ((cmdBegun u q 3 all lines line).quire q) 3 all line.toNat (lines.toNat + 1)) (cmdBegun u q 3 all lines line) q
  refine ⟨_, congrArg Host.Outcome.next run, done, mem.trans (congrArg State.mem same.2 :), synd.trans (congrArg State.synd same.2 :), fun a low => ?_⟩
  obtain ⟨inside, outside⟩ := range_done (q := q) (all := all) (lines := lines) (line := line) (m := fun u a => u.byteAt a) (by decide) same (byteAt_cmdBegun same _) (State.cacheOp_invalidate ..) (fun _ _ => ⟨rfl, rfl⟩) low
  exact ⟨fun hin => (inside hin).1, fun out => (outside out).1⟩

theorem wbInv_acts : ∃ n, exec (.wbInv w q all lines line) s = .next n ∧ CacheOpDone s n w q 4 all lines line ∧
    (∀ a, inOp all lines line a → n.byteAt a = writtenBack s q a ∧ findLine (n.quire q) (BitVec.ofNat 31 (a / 128)) = none) ∧
    (∀ a, a < 0x3000000000 → ¬inOp all lines line a → n.byteAt a = s.byteAt a ∧ (findLine (n.quire q) (BitVec.ofNat 31 (a / 128)) = findLine (s.quire q) (BitVec.ofNat 31 (a / 128)))) := by
  obtain ⟨u, same, run, done⟩ := reaches_starts hr hb ha (op := 4) (by decide) (by decide)
  have range {a : Nat} (low : a < 0x3000000000) := range_done (q := q) (all := all) (lines := lines) (line := line) (m := fun u a => writtenBack u q a) (by decide) same
    (writtenBack_cmdBegun same _) (State.cacheOp_wbInv ..) (fun _ gone => ⟨rfl, writtenBack_of_absent gone⟩) low
  exact ⟨_, congrArg Host.Outcome.next run, done, fun a hin => ((range hin.1).1 hin).symm, fun a low out => ((range low).2 out).symm⟩

end

/-! ### Writes that start nothing -/

/-- The commands that write an operation to QC_CMD. -/
theorem writes_op {c : Instr} (hc : c = .zero w q all lines line ∨ c = .writeback w q all lines line ∨ c = .invalidate w q all lines line ∨ c = .wbInv w q all lines line) (s : State) :
    ∃ op, 0 < op ∧ op ≤ 4 ∧ exec c s = .next (s.writerPut w (blockOffset q 0x818) 8 (qcCmdWord op all lines line)) := by
  obtain rfl | rfl | rfl | rfl := hc
  · exact ⟨1, by decide, by decide, rfl⟩
  · exact ⟨2, by decide, by decide, rfl⟩
  · exact ⟨3, by decide, by decide, rfl⟩
  · exact ⟨4, by decide, by decide, rfl⟩

theorem op_refused {c : Instr} (hr : WriterReaches s w q r) (hb : (s.quire q).cmd.busy = false) (ha : ¬Allowed s r all lines line)
    (hc : c = .zero w q all lines line ∨ c = .writeback w q all lines line ∨ c = .invalidate w q all lines line ∨ c = .wbInv w q all lines line) :
    ∃ n, exec c s = .next n ∧ StagingOnly s n w ∧
      n.quire q = { s.quire q with cmd := { busy := false, refused := true, op := 0, all := all, lines := lines, line := line }, memEvt := (s.quire q).memEvt ||| 8 } ∧
      (∀ k, k ≠ q.val → n.quire k = s.quire k) ∧ { n with quires := s.quires, tiles := s.tiles, fns := s.fns, irq := s.irq } = s := by
  obtain ⟨op, h1, h4, run⟩ := writes_op hc s
  obtain ⟨u, same, write⟩ := reaches_writesCmd hr (op := op) (by omega) all lines line
  have opNat : (BitVec.ofNat 3 op).toNat = op := by rw [BitVec.toNat_ofNat]; omega
  have range : u.opRangeOk r all lines.toNat line.toNat = false := Bool.eq_false_iff.2 fun k => ha (same.allowed.1 (State.opRangeOk_iff.1 k))
  obtain ⟨staging, quire, others, rest⟩ := ((QuireBecomes.of_untouched same q).modQuire fun x => { x with cmd := { busy := false, refused := true, op := 0, all := all, lines := lines, line := line } }).raiseMem 8
  refine ⟨_, run.trans (congrArg Host.Outcome.next (write.trans ?_)), staging, quire, others, rest⟩
  unfold State.qcCmdWrite
  rw [same.quire, hb, if_neg (by decide), if_neg (fun e => by rw [e] at opNat; change 0 = op at opNat; omega), range, Bool.and_false, if_neg (by decide)]

theorem op_ignored {c : Instr} (hr : WriterReaches s w q r) (hb : (s.quire q).cmd.busy = true)
    (hc : c = .zero w q all lines line ∨ c = .writeback w q all lines line ∨ c = .invalidate w q all lines line ∨ c = .wbInv w q all lines line) :
    ∃ n, exec c s = .next n ∧ StagingOnly s n w ∧ { n with tiles := s.tiles, fns := s.fns } = s := by
  obtain ⟨op, -, h4, run⟩ := writes_op hc s
  obtain ⟨u, same, write⟩ := reaches_writesCmd hr (op := op) (by omega) all lines line
  refine ⟨u, run.trans (congrArg Host.Outcome.next (write.trans ?_)), same⟩
  unfold State.qcCmdWrite
  rw [same.quire, hb, if_pos rfl]

/-- Settles O22: each operation is its work on one line, done for every line it visits; ZERO keeps account of the lines that it replaces on the way. -/
theorem cacheOperationsActOnEveryLineOfTheirRange : Obligations.CacheOperationsActOnEveryLineOfTheirRange := by
  intro s w q r all lines line hr
  refine ⟨fun hb ha => ⟨zero_acts hr hb ha, writeback_acts hr hb ha, invalidate_acts hr hb ha, wbInv_acts hr hb ha⟩, fun c hc => ⟨fun hb ha => ?_, fun hb => ?_⟩⟩
  · exact op_refused hr hb ha hc
  · exact op_ignored hr hb hc

end Sys2Proof.Machine
end

section
/-! Events of a quire: fills, accepted write-backs, completions, the way map, HBM windows, and the scrubber (R260 to R280, R370). -/

namespace Sys2Proof.Machine

variable {s u n : State} {w : Writer} {q : QuireId} {r a g : Nat} {line : BitVec 31}

/-! ### Fills (R260, R264) -/

theorem get_toTbl (bs : List Byte) (i : Nat) : Tbl.get 0 (toTbl bs) i = bs.getD i 0 := by
  have put := get_forN_put (0 : Byte) 0 (fun i => bs.getD i 0) bs.length [] i
  simp only [Nat.zero_add, Nat.sub_zero, Nat.zero_le, true_and] at put
  refine put.trans ?_
  split
  · rfl
  · rename_i h
    rw [List.getD_eq_default _ _ (by omega)]
    rfl

theorem State.fillLine_good (good : ∀ i, i < 16 → s.syndAt (line.toNat * 16 + i) = 0) (q : Nat) (pf : Bool) :
    s.fillLine q line pf = (true, s.installLine q line (toTbl (s.bytesAt (line.toNat * 128) 128)) false pf) := by
  have read := s.readMem_good (line.toNat * 128) 128 fun g lo hi => by
    have := good (g - line.toNat * 16) (by omega)
    rw [show line.toNat * 16 + (g - line.toNat * 16) = g by omega] at this
    rw [this]
    rfl
  unfold State.fillLine
  rw [read]

/-- An absent line with good memory enters clean, with HBM's bytes; memory changes by the write-back of a replaced line at most. -/
theorem State.fillLine_enters (absent : findLine (s.quire q) line = none) (good : ∀ i, i < 16 → s.syndAt (line.toNat * 16 + i) = 0) :
    ∃ n l, (s.fillLine q line false).2 = n ∧ findLine (n.quire q) line = some l ∧ l.dirty = false ∧ (∀ i, i < 128 → Tbl.get 0 l.data i = s.byteAt (line.toNat * 128 + i)) ∧
      (∀ a, a < 0x3000000000 → n.byteAt a = s.byteAt a ∨ n.byteAt a = seenByte s q a) ∧ CacheWork s n q := by
  have data := get_toTbl (s.bytesAt (line.toNat * 128) 128)
  rw [State.fillLine_good good]
  generalize toTbl (s.bytesAt (line.toNat * 128) 128) = d at data ⊢
  obtain ⟨u, made, work, lines, bytes⟩ := State.installLine_enters (data := d) (dirty := false) (pf := false) absent
  refine ⟨_, _, rfl, (lines line).trans (if_pos rfl), rfl, fun i hi => ?_, fun a low => ?_, work⟩
  · refine (data i).trans ?_
    simp [State.bytesAt, List.getD_eq_getElem?_getD, hi]
  · rw [bytes]
    obtain rfl | ⟨m, -, -, rfl⟩ := made
    · exact .inl rfl
    · rw [State.byteAt_evict_of_lt _ _ _ (by omega)]
      split
      · unfold writtenBack seenByte
        split
        · split
          · exact .inr rfl
          · exact .inl rfl
        · exact .inl rfl
      · exact .inl rfl

theorem cacheFill_enters {k : Fin 16} (on : (s.quire q).power = .on) (free : (s.quire q).wayBusy = false) (absent : findLine (s.quire q) line = none)
    (unasked : (s.quire q).prefetch.contains line = false) (win : s.lineInWindow q k line = true) (good : ∀ i, i < 16 → s.syndAt (line.toNat * 16 + i) = 0) :
    ∃ n l, exec (.cacheFill q k line) s = .next n ∧ findLine (n.quire q) line = some l ∧ l.dirty = false ∧ (∀ i, i < 128 → Tbl.get 0 l.data i = s.byteAt (line.toNat * 128 + i)) ∧
      (∀ a, a < 0x3000000000 → n.byteAt a = s.byteAt a ∨ n.byteAt a = seenByte s q a) ∧ (∀ j, j ≠ q.val → n.quire j = s.quire j) ∧
      { n with quires := s.quires, mem := s.mem, synd := s.synd, tiles := s.tiles } = s := by
  obtain ⟨n, l, fill, found, clean, data, bytes, work⟩ := State.fillLine_enters absent good
  refine ⟨n, l, ?_, found, clean, data, bytes, work.others, work.rest⟩
  show execCacheFill q k line s = _
  unfold execCacheFill
  rw [absent, on, free, unasked, win, fill]
  rfl

/-! ### Accepted write-backs (R262) -/

theorem mem_quireTiles (t : TileId) : t.val ∈ quireTiles (tileQuire t) := by
  refine List.mem_map.2 ⟨t.val % 64 / 16 * 4 + t.val % 4, List.mem_range.2 (by omega), ?_⟩
  have := t.isLt
  unfold quireTile tileQuire
  omega

theorem hbmWriteAccepted_writes {t : TileId} {l : CLine} (listed : (s.tile t).wb.contains line = true) (found : findLine (s.quire (tileQuire t)) line = some l) (dirty : l.dirty = true) :
    ∃ n, exec (.hbmWriteAccepted t line) s = .next n ∧ (n.tile t).wb = (s.tile t).wb.filter (· ≠ line) ∧ (∀ i, i < 128 → n.byteAt (line.toNat * 128 + i) = Tbl.get 0 l.data i) ∧
      (∀ a, (a < line.toNat * 128 ∨ (line.toNat + 1) * 128 ≤ a) → n.byteAt a = s.byteAt a) ∧ findLine (n.quire (tileQuire t)) line = some { l with dirty := false } := by
  have byte := s.byteAt_writeBack (tileQuire t) line
  refine ⟨s.writeBack (tileQuire t) line, ?_, ?_, fun i hi => ?_, fun a out => ?_, ?_⟩
  · show execHbmWriteAccepted t line s = _
    unfold execHbmWriteAccepted
    rw [if_pos listed]
  · rw [State.writeBack_of_dirty found dirty, State.tile_wbForget, if_pos (mem_quireTiles t)]
    have kept := stored_rest s l
    generalize stored s l = u at kept ⊢
    exact (congrArg (fun z : State => (z.tile t).wb.filter (· ≠ line)) kept :)
  · rw [byte, if_pos (by omega)]
    unfold writtenBack
    rw [show (line.toNat * 128 + i) / 128 = line.toNat by omega, BitVec.ofNat_toNat, BitVec.setWidth_eq, found, show (line.toNat * 128 + i) % 128 = i by omega]
    exact if_pos dirty
  · rw [byte, if_neg (by omega)]
  · rw [State.findLine_writeBack, if_pos rfl, found]
    rfl

/-! ### Completions and registers (R266, R267, R276, R277, R280) -/

theorem cmdDone_leaves (busy : (s.quire q).cmd.busy = true) :
    LeavesQuire s (.cmdDone q) q { s.quire q with cmd := { (s.quire q).cmd with busy := false, op := 0 }, memEvt := (s.quire q).memEvt ||| 16 } := by
  have run : exec (.cmdDone q) s = .next ((s.modQuire q fun x => { x with cmd := { x.cmd with busy := false, op := 0 } }).raiseMem q 16) := by
    show execCmdDone q s = _
    unfold execCmdDone
    rw [if_pos busy]
  refine ⟨_, run, ?_, fun k hk => ?_, ?_⟩
  · rw [State.raiseMem_quire, State.quire_modQuire, State.quire_modQuire]
  · rw [State.raiseMem_quire, State.quire_modQuire_ne _ _ hk, State.quire_modQuire_ne _ _ hk]
  · obtain ⟨i, e⟩ := (s.modQuire q fun x => { x with cmd := { x.cmd with busy := false, op := 0 } }).raiseMem_eq q 16
    rw [e]
    rfl

theorem ofNat_three_eq_seven (g : Fin 8) : BitVec.ofNat 3 g.val = 7 ↔ g = 7 := by revert g; decide

theorem waymapChange_sets (hr : WriterReaches s w q r) (free : (s.quire q).wayBusy = false) (g : Fin 8) :
    ∃ n, exec (.waymapChange w q g) s = .next n ∧
      QuireBecomes s n w q (if g = 7 then { s.quire q with memEvt := (s.quire q).memEvt ||| 8 } else { s.quire q with wayBusy := true, wayTo := BitVec.ofNat 3 g }) := by
  obtain ⟨u, same, run⟩ := reaches_writes hr quireReg_waymap (BitVec.ofNat 64 g)
  have value : (BitVec.ofNat 64 g.val).toNat % 2 ^ (8 * 4) = g := by rw [BitVec.toNat_ofNat]; omega
  rw [value] at run
  have write : u.qregWrite r q 0x810 g = if g = 7 then u.raiseMem q 8 else u.modQuire q fun x => { x with wayBusy := true, wayTo := BitVec.ofNat 3 g } := by
    show u.waymapWrite q (BitVec.ofNat 3 g) = _
    unfold State.waymapWrite
    rw [same.quire, free, if_neg (by decide)]
    simp only [ofNat_three_eq_seven]
  refine ⟨_, congrArg Host.Outcome.next (run.trans write), ?_⟩
  split
  · exact (QuireBecomes.of_untouched same q).raiseMem 8
  · exact (QuireBecomes.of_untouched same q).modQuire _

theorem quireReg_hbmwin (k : Fin 16) : QuireReg (0x900 + 8 * k) 8 where
  words j hj := by
    have := k.isLt
    have : (0x900 + 8 * k.val + 2 * j) / 8 * 8 = 0x900 + 8 * k.val := by omega
    unfold qregAt
    dsimp only
    rw [if_neg (by omega), this]
    split
    any_goals omega
    rw [if_pos (by simp only [Bool.and_eq_true, decide_eq_true_eq]; omega), if_pos (by omega)]
  size := .inr rfl
  aligned := by omega
  high := by omega
  low := by omega
  writable := by omega

/-- The window that a write of QC_HBMWIN asks for (R276). -/
def askedWin (v : W64) : HbmWin := { base := BitVec.ofNat 17 v.toNat, size := BitVec.ofNat 16 (v.toNat / 2 ^ 32), mode := BitVec.ofNat 2 (v.toNat / 2 ^ 56) }

/-- Room `r` may ask for the window: its mode is 0 or 1, it holds at most 512 units, and each is the room's. -/
def WinAllowed (s : State) (r : Nat) (v : W64) : Prop :=
  bitsOf v.toNat 56 2 < 2 ∧ bitsOf v.toNat 32 16 ≤ 512 ∧ ∀ i, i < bitsOf v.toNat 32 16 → (s.room r).hbm.contains (bitsOf v.toNat 0 17 + i) = true

theorem State.hbmwinWrite_eq (s : State) (r q k : Nat) (v : W64) [Decidable (WinAllowed s r v)] : s.hbmwinWrite r q k v =
    if WinAllowed s r v then s.modQuire q fun x => { x with winPend := Tbl.put none x.winPend k (some (askedWin v)) } else s.raiseMem q 8 := by
  have win : ({ base := BitVec.ofNat 17 (bitsOf v.toNat 0 17), size := BitVec.ofNat 16 (bitsOf v.toNat 32 16), mode := BitVec.ofNat 2 (bitsOf v.toNat 56 2) } : HbmWin) = askedWin v := by
    unfold askedWin bitsOf
    congr 1 <;> (rw [← BitVec.toNat_inj]; simp)
  unfold State.hbmwinWrite
  dsimp only
  rw [win]
  refine if_congr ?_ rfl rfl
  simp only [WinAllowed, Bool.and_eq_true, decide_eq_true_eq, List.all_eq_true, List.mem_range, and_assoc]

theorem qcHbmwin_sets (hr : WriterReaches s w q r) (k : Fin 16) (v : W64) [Decidable (WinAllowed s r v)] :
    ∃ n, exec (.qcHbmwin w q k v) s = .next n ∧ QuireBecomes s n w q (if WinAllowed s r v then { s.quire q with winPend := Tbl.put none (s.quire q).winPend k (some (askedWin v)) }
      else { s.quire q with memEvt := (s.quire q).memEvt ||| 8 }) := by
  obtain ⟨u, same, run⟩ := reaches_writes hr (quireReg_hbmwin k) v
  have := k.isLt
  have write : u.qregWrite r q (0x900 + 8 * k) (v.toNat % 2 ^ (8 * 8)) = u.hbmwinWrite r q k v := by
    rw [toNat_mod_64]
    unfold State.qregWrite
    rw [if_neg (by omega)]
    split
    any_goals omega
    rw [if_pos (by simp only [Bool.and_eq_true, decide_eq_true_eq]; omega), show (0x900 + 8 * k.val - 0x900) / 8 = k by omega, BitVec.ofNat_toNat, BitVec.setWidth_eq]
  have allowed : WinAllowed u r v ↔ WinAllowed s r v := by
    unfold WinAllowed
    rw [show u.room r = s.room r from (congrArg (fun z : State => z.room r) same.2 :)]
  have : Decidable (WinAllowed u r v) := decidable_of_iff _ allowed.symm
  refine ⟨_, congrArg Host.Outcome.next (run.trans (write.trans ((u.hbmwinWrite_eq r q k v).trans (if_congr allowed rfl rfl)))), ?_⟩
  split
  · exact (QuireBecomes.of_untouched same q).modQuire _
  · exact (QuireBecomes.of_untouched same q).raiseMem 8

theorem hbmwinApply_moves {k : Fin 16} {x : HbmWin} (pend : Tbl.get none (s.quire q).winPend k = some x) :
    (s.winReady (quireTile q k) = true → LeavesQuire s (.hbmwinApply q k) q { s.quire q with win := Tbl.put {} (s.quire q).win k x, winPend := Tbl.put none (s.quire q).winPend k none }) ∧
    (s.winReady (quireTile q k) = false → exec (.hbmwinApply q k) s = .next s) := by
  have run : exec (.hbmwinApply q k) s = .next (if s.winReady (quireTile q k) then s.modQuire q fun y => { y with win := Tbl.put {} y.win k x, winPend := Tbl.put none y.winPend k none } else s) := by
    show execHbmwinApply q k s = _
    unfold execHbmwinApply
    rw [pend]
  refine ⟨fun ready => ?_, fun busy => ?_⟩
  · rw [if_pos ready] at run
    exact ⟨_, run, State.quire_modQuire .., fun j hj => State.quire_modQuire_ne _ _ hj, rfl⟩
  · rw [busy, if_neg (by decide)] at run
    exact run

/-! ### The way map changes (R267) -/

theorem State.lines_writeBack (s : State) (q : Nat) (m : BitVec 31) {x : CLine} (h : x ∈ ((s.writeBack q m).quire q).lines) : ∃ l ∈ (s.quire q).lines, l.line = x.line ∧ l.way = x.way := by
  obtain ⟨l, found, dirty⟩ | clean := dirty_or_clean (s.quire q) m
  · rw [State.writeBack_of_dirty found dirty, State.wbForget_quire, State.quire_modQuire, stored_quire] at h
    obtain ⟨y, hy, rfl⟩ := List.mem_map.1 h
    refine ⟨y, hy, ?_⟩
    split <;> exact ⟨rfl, rfl⟩
  · rw [State.writeBack_of_clean clean] at h
    exact ⟨x, h, rfl, rfl⟩

theorem State.lines_evict (s : State) (q : Nat) (m : BitVec 31) {x : CLine} (h : x ∈ ((s.evict q m).quire q).lines) : x.line ≠ m ∧ ∃ l ∈ (s.quire q).lines, l.line = x.line ∧ l.way = x.way := by
  unfold State.evict at h
  rw [State.quire_modQuire] at h
  obtain ⟨kept, other⟩ := List.mem_filter.1 h
  exact ⟨of_decide_eq_true other, s.lines_writeBack q m kept⟩

/-- A line that is left once `ls` have been evicted is none of them, and stands in its old way. -/
theorem lines_evicts (ls : List (BitVec 31)) (s : State) (q : Nat) {x : CLine} (h : x ∈ ((forL ls (fun y s => s.evict q y) s).quire q).lines) :
    x.line ∉ ls ∧ ∃ l ∈ (s.quire q).lines, l.line = x.line ∧ l.way = x.way := by
  induction ls generalizing s with
  | nil => exact ⟨List.not_mem_nil, x, h, rfl, rfl⟩
  | cons m ls ih =>
    obtain ⟨others, l, hl, line, way⟩ := ih (s.evict q m) h
    obtain ⟨other, l', hl', line', way'⟩ := s.lines_evict q m hl
    rw [line] at other
    exact ⟨fun k => (List.mem_cons.1 k).elim other others, l', hl', line'.trans line, way'.trans way⟩

/-- The lines of a cache lie in HBM: bytes above it stay. -/
theorem byteAt_evicts_high (ls : List (BitVec 31)) (s : State) (q : Nat) (high : 0x4000000000 ≤ a) : (forL ls (fun y s => s.evict q y) s).byteAt a = s.byteAt a :=
  foldl_keeps (fun u : State => u.byteAt a = s.byteAt a) (fun u y h => by
    have := y.isLt
    rw [State.byteAt_evict, if_neg (by omega), h]) ls s rfl

theorem State.byteAt_clearMem (s : State) (lo hi a : Nat) : (s.clearMem lo hi).byteAt a = if lo ≤ a ∧ a < hi then 0 else s.byteAt a := Tbl.get_clear ..

/-- The lines in ways that are quire scratch with `g` groups. -/
def leavingLines (x : Quire) (g : BitVec 3) : List (BitVec 31) := (x.lines.filter fun l => 16 - 2 * g.toNat ≤ l.way).map fun l => l.line

theorem State.setGroups_eq (s : State) (q : Nat) (g : BitVec 3) : s.setGroups q g =
    ((forL (leavingLines (s.quire q) g) (fun l s => s.evict q l) s).clearMem (qscratchBase q + Nat.min (s.quire q).groups.toNat g.toNat * 524288) (qscratchBase q + 6 * 524288)).modQuire q fun x => { x with groups := g } := rfl

theorem evicts_work (ls : List (BitVec 31)) (s : State) (q : Nat) : CacheWork s (forL ls (fun l s => s.evict q l) s) q := .forL (fun l u => u.evict_work q l) ls s

theorem byteAt_raiseMem (s : State) (q : Nat) (m : W32) (a : Nat) : (s.raiseMem q m).byteAt a = s.byteAt a := by
  obtain ⟨i, e⟩ := s.raiseMem_eq q m
  rw [e]
  rfl

theorem waymapDone_changes (busy : (s.quire q).wayBusy = true) (most : (s.quire q).wayTo.toNat ≤ 6) :
    ∃ n, exec (.waymapDone q) s = .next n ∧ (n.quire q).groups = (s.quire q).wayTo ∧ (n.quire q).wayBusy = false ∧ (n.quire q).memEvt = (s.quire q).memEvt ||| 32 ∧
      (∀ l ∈ (n.quire q).lines, l.way < 16 - 2 * (s.quire q).wayTo.toNat) ∧
      (∀ a, qscratchBase q + (s.quire q).groups.toNat * 524288 ≤ a → a < qscratchBase q + (s.quire q).wayTo.toNat * 524288 → n.byteAt a = 0) ∧
      (∀ a, qscratchBase q ≤ a → a < qscratchBase q + Nat.min (s.quire q).groups.toNat (s.quire q).wayTo.toNat * 524288 → n.byteAt a = s.byteAt a) ∧
      ∀ j, j ≠ q.val → n.quire j = s.quire j := by
  have run : exec (.waymapDone q) s = .next (((s.setGroups q (s.quire q).wayTo).modQuire q fun x => { x with wayBusy := false }).raiseMem q 32) := by
    show execWaymapDone q s = _
    unfold execWaymapDone
    rw [if_pos busy]
  rw [State.setGroups_eq] at run
  generalize (s.quire q).wayTo = g at run most ⊢
  have left := fun x => lines_evicts (x := x) (leavingLines (s.quire q) g) s q
  have high := fun a => byteAt_evicts_high (a := a) (leavingLines (s.quire q) g) s q
  have work := evicts_work (leavingLines (s.quire q) g) s q
  generalize forL (leavingLines (s.quire q) g) (fun l s => s.evict q l) s = u at run left high work
  obtain ⟨here, others, -, -, -⟩ := work
  have base : 0x4000000000 ≤ qscratchBase q := by unfold qscratchBase; omega
  refine ⟨_, run, ?_⟩
  have quire : ∀ k, (((((u.clearMem (qscratchBase q + Nat.min (s.quire q).groups.toNat g.toNat * 524288) (qscratchBase q + 6 * 524288)).modQuire q fun x => { x with groups := g }).modQuire q fun x => { x with wayBusy := false }).raiseMem q 32).quire k) =
      if k = q.val then { u.quire q with groups := g, wayBusy := false, memEvt := (u.quire q).memEvt ||| 32 } else u.quire k := fun k => by
    rw [State.raiseMem_quire]
    split
    · subst k
      rw [State.quire_modQuire, State.quire_modQuire, State.quire_modQuire]
      rfl
    · rename_i hk
      rw [State.quire_modQuire_ne _ _ hk, State.quire_modQuire_ne _ _ hk, State.quire_modQuire_ne _ _ hk]
      rfl
  simp only [quire, byteAt_raiseMem, State.byteAt_modQuire, State.byteAt_clearMem, if_pos]
  refine ⟨trivial, trivial, ?_, fun x hx => ?_, fun a lo hi => if_pos ?_, fun a lo hi => (if_neg ?_).trans (high a (by omega)), fun j hj => (if_neg hj).trans (others j hj)⟩
  · rw [show (u.quire q).memEvt = (s.quire q).memEvt from (congrArg Quire.memEvt here :)]
  · obtain ⟨gone, l, hl, line, way⟩ := left x hx
    by_contra c
    exact gone (line ▸ List.mem_map.2 ⟨l, List.mem_filter.2 ⟨hl, decide_eq_true (by omega)⟩, rfl⟩)
  · have : Nat.min (s.quire q).groups.toNat g.toNat ≤ (s.quire q).groups.toNat := Nat.min_le_left ..
    omega
  · omega

/-! ### The scrubber (R370) -/

theorem memError_hbm (s : State) (y : Byte) (low : g < 25769803776) : s.memError (8 * g) y false = { s with reb := { s.reb with hbmCe := s.reb.hbmCe + 1 } } := by
  unfold State.memError regionOf
  rw [if_pos (by omega)]
  rfl

theorem length_setAt {α : Type} (l : List α) (i : Nat) (v : α) : (setAt l i v).length = l.length := by
  induction l generalizing i with
  | nil => rfl
  | cons a l ih =>
    cases i with
    | zero => rfl
    | succ i => exact congrArg (· + 1) (ih i)

theorem length_flipBit (bs : List Byte) (i : Nat) : (flipBit bs i).length = bs.length := length_setAt ..

theorem State.bytesAt_putBytes (s : State) (a : Nat) (l : List Byte) : (s.putBytes a l).bytesAt a l.length = l := by
  refine List.ext_getElem (by simp [State.bytesAt]) fun i h1 h2 => ?_
  simp only [State.bytesAt, List.getElem_map, List.getElem_range]
  rw [State.byteAt_putBytes, if_pos ⟨by omega, by omega⟩, Nat.add_sub_cancel_left, List.getD_eq_getElem _ _ h2]

/-- Granule `g` is poisoned, which is counted and recorded as `v`. -/
def poisoned (s : State) (g : Nat) (v : W64) : State :=
  ({ s.setSynd g 0xFF with reb := { s.reb with hbmUe := s.reb.hbmUe + 1 }, integ := { s.integ with poisoned := s.integ.poisoned + 1 } } : State).errLogAdd 0xFF v

theorem syndAt_poisoned (s : State) (g : Nat) (v : W64) (k : Nat) : (poisoned s g v).syndAt k = if k = g then 0xFF else s.syndAt k :=
  (Tbl.get_put (d := 0) s.synd g k 0xFF :)

theorem scrub_corrects (g : Fin 25769803776) (on : s.cfgN 0xA003 1 ≠ 0) :
    (s.syndAt g = 0 → exec (.scrub g) s = .next s) ∧
    (∀ i, readSynd (s.syndAt g) = .dataBit i → ∃ n, exec (.scrub g) s = .next n ∧ n.syndAt g = 0 ∧ n.bytesAt (8 * g) 8 = flipBit (s.bytesAt (8 * g) 8) i ∧ n.reb.hbmCe = s.reb.hbmCe + 1 ∧
      { n with mem := s.mem, synd := s.synd, reb := { n.reb with hbmCe := s.reb.hbmCe } } = s) ∧
    (readSynd (s.syndAt g) = .bad → s.syndAt g ≠ 0xFF → ∃ n, exec (.scrub g) s = .next n ∧ n.syndAt g = 0xFF ∧ n.reb.hbmUe = s.reb.hbmUe + 1 ∧ n.integ.poisoned = s.integ.poisoned + 1 ∧
      (∀ j, j ≠ g.val → n.syndAt j = s.syndAt j) ∧ n.mem = s.mem) := by
  have reads (h : readSynd (s.syndAt g) ≠ .bad) : exec (.scrub g) s = .next (s.readGran g).2 := by
    show execScrub g s = _
    unfold execScrub
    dsimp only
    rw [if_neg on]
    split
    · exact absurd ‹_› h
    · rfl
  refine ⟨fun good => ?_, fun i bit => ?_, fun bad fresh => ?_⟩
  · have h : readSynd (s.syndAt g) = .good := by rw [good]; rfl
    rw [reads (by rw [h]; exact nofun), State.readGran_good s g h]
  · have len : (flipBit (s.bytesAt (8 * g) 8) i).length = 8 := by rw [length_flipBit]; simp [State.bytesAt]
    have read : (s.readGran g).2 = ((s.putBytes (8 * g) (flipBit (s.bytesAt (8 * g) 8) i)).setSynd g 0).memError (8 * g) (s.syndAt g) false := by
      unfold State.readGran
      dsimp only
      rw [bit]
    have bytes := s.bytesAt_putBytes (8 * g) (flipBit (s.bytesAt (8 * g) 8) i)
    rw [len] at bytes
    have kept := s.putBytes_eq (flipBit (s.bytesAt (8 * g) 8) i) (8 * g)
    rw [memError_hbm _ _ g.isLt] at read
    refine ⟨_, (reads (by rw [bit]; exact nofun)).trans (congrArg Host.Outcome.next read), (State.syndAt_setSynd (s.putBytes (8 * g) (flipBit (s.bytesAt (8 * g) 8) i)) g 0 :), bytes, ?_, ?_⟩
    · rw [kept]; rfl
    · rw [kept]; rfl
  · refine ⟨poisoned s g (BitVec.ofNat 64 (2 * 2 ^ 62 + (s.syndAt g).toNat * 2 ^ 54 + 8 * g.val)), ?_, (syndAt_poisoned ..).trans (if_pos rfl), rfl, rfl, fun j hj => (syndAt_poisoned ..).trans (if_neg hj), rfl⟩
    show execScrub g s = _
    unfold execScrub
    dsimp only
    rw [if_neg on, bad]
    dsimp only
    rw [if_neg fresh]
    rfl

/-- Settles O23, event by event. -/
theorem quireRegistersAndLinesFollowTheirEvents : Obligations.QuireRegistersAndLinesFollowTheirEvents := by
  intro s w q r k line t v
  refine ⟨cacheFill_enters, fun listed l => hbmWriteAccepted_writes listed, cmdDone_leaves, fun hr free g => ?_, waymapDone_changes, fun hr => ?_, fun x => hbmwinApply_moves, scrub_corrects⟩
  · obtain ⟨n, run, staging, quire, others, rest⟩ := waymapChange_sets hr free g
    exact ⟨n, run, staging, others, rest, quire⟩
  · have : Decidable (WinAllowed s r v) := by
      unfold WinAllowed
      infer_instance
    obtain ⟨n, run, staging, quire, others, rest⟩ := qcHbmwin_sets hr k v
    exact ⟨n, run, staging, others, rest, quire.trans (if_congr Iff.rfl rfl rfl)⟩

end Sys2Proof.Machine
end

section
/-! SUPPORT. What is done to several quires one after the other, and what gating and waking a quire leave (R269, R523 to R526). -/

namespace Sys2Proof.Machine

variable {s t n : State} {q : Nat} {l m : List Nat} {f : Quire → Quire}

/-! ### A change of each quire of a list -/

/-- From `s` to `n` each quire of `l` has changed by `f`, and nothing else has. -/
structure EachQuire (s n : State) (l : List Nat) (f : Quire → Quire) : Prop where
  quire : ∀ i, n.quire i = if i ∈ l then f (s.quire i) else s.quire i
  rest : { n with quires := s.quires } = s

theorem EachQuire.refl (s : State) (f : Quire → Quire) : EachQuire s s [] f := ⟨fun _ => (if_neg List.not_mem_nil).symm, rfl⟩

theorem EachQuire.pow (h : EachQuire s n l f) : n.pow = s.pow := (congrArg State.pow h.rest :)

/-- A change of one quire that makes of it what `f` does. -/
theorem EachQuire.modQuire {g : Quire → Quire} (h : g (s.quire q) = f (s.quire q)) : EachQuire s (s.modQuire q g) [q] f where
  quire i := by
    simp only [List.mem_singleton]
    split
    · subst i
      rw [State.quire_modQuire, h]
    · exact State.quire_modQuire_ne _ _ ‹_›
  rest := rfl

/-- A change that leaves the quire as it is. -/
theorem EachQuire.still (h : f (s.quire q) = s.quire q) : EachQuire s s [q] f where
  quire i := by
    simp only [List.mem_singleton]
    split
    · subst i
      exact h.symm
    · rfl
  rest := rfl

/-- Each quire in turn, while the power manager stays as it is. -/
theorem EachQuire.forL {g : Nat → State → State} {p : Power} (again : ∀ x, f (f x) = f x) (one : ∀ q u, u.pow = p → EachQuire u (g q u) [q] f) (l : List Nat) (s : State) (hp : s.pow = p) :
    EachQuire s (forL l g s) l f := by
  induction l generalizing s with
  | nil => exact .refl s f
  | cons q l ih =>
    have first := one q s hp
    have others := ih (g q s) (first.pow.trans hp)
    refine ⟨fun i => (others.quire i).trans ?_, (congrArg (fun u : State => { u with quires := s.quires }) others.rest :).trans first.rest⟩
    rw [first.quire]
    by_cases hq : i = q <;> by_cases hl : i ∈ l <;> simp [hq, hl, again]

/-- What a request to wake does to the quire (R525). -/
def askedAwake (x : Quire) : Quire :=
  match x.power with
  | .gated => { x with power := .waking }
  | .gating => { x with power := .on }
  | _ => x

theorem askWakes (awake : s.pow.neg = none) (l : List Nat) : EachQuire s (forL l (fun q s => s.askWake q) s) l askedAwake := by
  refine .forL (p := s.pow) (fun x => ?_) (fun q u hu => ?_) l s rfl
  · unfold askedAwake
    cases h : x.power <;> simp [h]
  · unfold State.askWake
    cases h : (u.quire q).power with
    | gated => exact .modQuire (by unfold askedAwake; rw [h])
    | gating => exact .modQuire (by unfold askedAwake; rw [h])
    | on =>
      rw [State.activity_quiet (by rw [hu, awake])]
      exact .still (by unfold askedAwake; rw [h])
    | waking => exact .still (by unfold askedAwake; rw [h])

/-- The quires that had stopped run on (R529). -/
def runsOn (x : Quire) : Quire := if x.power = .gating then { x with power := .on } else x

theorem restarts (s : State) (l : List Nat) : EachQuire s (forL l (fun q s => if (s.quire q).power = .gating then s.modQuire q fun x => { x with power := .on } else s) s) l runsOn := by
  refine .forL (p := s.pow) (fun x => ?_) (fun q u _ => ?_) l s rfl
  · unfold runsOn
    split <;> simp_all
  · split
    · exact .modQuire (if_pos ‹_›).symm
    · exact .still (if_neg ‹_›)

theorem stops (s : State) (l : List Nat) : EachQuire s (forL l (fun q s => s.modQuire q fun x => { x with power := .gating }) s) l fun x => { x with power := .gating } :=
  .forL (f := fun x => { x with power := .gating }) (p := s.pow) (fun _ => rfl) (fun _ _ _ => .modQuire rfl) l s rfl

/-! ### Quires are gated (R269, R524, R526) -/

/-- The quire once its power is gone: its register block keeps its values. -/
def gatedQuire (x : Quire) : Quire := { x with power := .gated, cue := [], lines := [], prefetch := [] }

/-- From `s` to `n` the quires of `l` have been gated: their caches and cue tables are empty and their tiles at reset. -/
structure Gates (s n : State) (l : List Nat) : Prop where
  quire : ∀ i, n.quire i = if i ∈ l then gatedQuire (s.quire i) else s.quire i
  off : ∀ i ∈ l, ∀ t ∈ quireTiles i, n.tile t = {}
  stays : ∀ t, s.tile t = {} → n.tile t = {}
  rest : { n with quires := s.quires, tiles := s.tiles, mem := s.mem, synd := s.synd } = s

theorem State.flushCache_work (s : State) (q : Nat) (wb : Bool) : CacheWork s (s.flushCache q wb) q := by
  unfold State.flushCache
  refine .trans (.trans (t := if wb then _ else _) ?_ (.forL (fun l u => u.wbForget_work q l) _ _)) (.modQuire _ q (fun x => { x with lines := [], prefetch := [] }) fun _ => rfl)
  split
  · exact .forL (fun l u => u.writeBack_work q l) _ s
  · exact .refl s q

theorem State.quire_flushCache (s : State) (q : Nat) (wb : Bool) : (s.flushCache q wb).quire q = { s.quire q with lines := [], prefetch := [] } := by
  have kept := (s.flushCache_work q wb).quire
  have empty : ((s.flushCache q wb).quire q).lines = [] ∧ ((s.flushCache q wb).quire q).prefetch = [] := by
    unfold State.flushCache
    rw [State.quire_modQuire]
    exact ⟨rfl, rfl⟩
  rw [← kept]
  generalize (s.flushCache q wb).quire q = x at empty ⊢
  rw [← empty.1, ← empty.2]

/-- Clearing memory changes nothing else. -/
theorem State.clearMem_rest (s : State) (lo hi : Nat) : { s.clearMem lo hi with mem := s.mem, synd := s.synd } = s := rfl

theorem State.clearScratch_rest (s : State) (t : Nat) : { s.clearScratch t with mem := s.mem, synd := s.synd } = s := s.clearMem_rest ..

theorem State.clearQscratch_rest (s : State) (q : Nat) : { s.clearQscratch q with mem := s.mem, synd := s.synd } = s := s.clearMem_rest ..

theorem quire_of_memory (h : { n with mem := s.mem, synd := s.synd } = s) (k : Nat) : n.quire k = s.quire k := (congrArg (fun x : State => x.quire k) h :)

theorem tile_of_memory (h : { n with mem := s.mem, synd := s.synd } = s) (k : Nat) : n.tile k = s.tile k := (congrArg (fun x : State => x.tile k) h :)

/-- A tile loses power: its scratchpad and its registers (R269). -/
def State.tileOff (s : State) (t : Nat) : State := (s.clearScratch t).setTile t {}

theorem State.tile_tileOff (s : State) (t k : Nat) : (s.tileOff t).tile k = if k = t then {} else s.tile k := by
  unfold State.tileOff
  split
  · subst k
    exact State.tile_setTile ..
  · rw [State.tile_setTile_ne _ _ ‹_›]
    exact tile_of_memory (s.clearScratch_rest t) k

theorem State.tileOff_rest (s : State) (t : Nat) : { s.tileOff t with tiles := s.tiles, mem := s.mem, synd := s.synd } = s :=
  (congrArg (fun z : State => ({ z with tiles := s.tiles } : State)) (s.clearScratch_rest t) :)

/-- From `s` to `n` the tiles of `l` have lost power. -/
structure TilesOff (s n : State) (l : List Nat) : Prop where
  tile : ∀ k, n.tile k = if k ∈ l then {} else s.tile k
  rest : { n with tiles := s.tiles, mem := s.mem, synd := s.synd } = s

theorem TilesOff.forL (l : List Nat) (s : State) : TilesOff s (forL l (fun t s => s.tileOff t) s) l := by
  unfold Machine.forL
  induction l generalizing s with
  | nil => exact ⟨fun _ => (if_neg List.not_mem_nil).symm, rfl⟩
  | cons t l ih =>
    rw [List.foldl_cons]
    beta_reduce at ih ⊢
    have tile := s.tile_tileOff t
    have kept := s.tileOff_rest t
    obtain ⟨tiles, rest⟩ := ih (s.tileOff t)
    generalize s.tileOff t = u at tile kept tiles rest ⊢
    refine ⟨fun k => (tiles k).trans ?_, (congrArg (fun z : State => ({ z with tiles := s.tiles, mem := s.mem, synd := s.synd } : State)) rest :).trans kept⟩
    rw [tile]
    by_cases hk : k = t <;> by_cases hl : k ∈ l <;> simp [hk, hl]

theorem TilesOff.quire (h : TilesOff s n l) (k : Nat) : n.quire k = s.quire k := (congrArg (fun x : State => x.quire k) h.rest :)

theorem State.gateQuire_eq (s : State) (q : Nat) :
    s.gateQuire q = ((forL (quireTiles q) (fun t s => s.tileOff t) (s.flushCache q true)).clearQscratch q).modQuire q fun x => { x with power := .gated, cue := [] } := by
  unfold State.gateQuire
  rfl

theorem State.gateQuire_gates (s : State) (q : Nat) : Gates s (s.gateQuire q) [q] := by
  have flushed := s.quire_flushCache q true
  obtain ⟨-, others, tile, lists, rest⟩ := s.flushCache_work q true
  rw [State.gateQuire_eq]
  generalize s.flushCache q true = u at flushed others tile lists rest ⊢
  have tilesOff := TilesOff.forL (quireTiles q) u
  generalize forL (quireTiles q) (fun t s => s.tileOff t) u = v at tilesOff ⊢
  have quires := tilesOff.quire
  obtain ⟨off, kept⟩ := tilesOff
  have cleared := v.clearQscratch_rest q
  generalize v.clearQscratch q = c at cleared ⊢
  have quire : ∀ k, c.quire k = u.quire k := fun k => (quire_of_memory cleared k).trans (quires k)
  have tiles := tile_of_memory cleared
  refine ⟨fun i => ?_, fun i hi t ht => ?_, fun t ht => ?_, ?_⟩
  · simp only [List.mem_singleton]
    split
    · subst i
      rw [State.quire_modQuire, quire, flushed]
      rfl
    · rw [State.quire_modQuire_ne _ _ ‹_›, quire, others i ‹_›]
  · rw [List.mem_singleton.1 hi] at ht
    rw [State.modQuire_tile, tiles, off, if_pos ht]
  · rw [State.modQuire_tile, tiles, off]
    split
    · rfl
    · have same := tile t
      have none := lists t
      rw [ht] at same none
      have empty : (u.tile t).wb = [] := List.sublist_nil.1 none
      rw [← same]
      generalize u.tile t = x at empty ⊢
      rw [← empty]
  · exact (congrArg (fun z : State => ({ z with quires := s.quires, tiles := s.tiles, mem := s.mem, synd := s.synd } : State)) cleared :).trans
      ((congrArg (fun z : State => ({ z with quires := s.quires, tiles := s.tiles, mem := s.mem, synd := s.synd } : State)) kept :).trans rest)

theorem Gates.forL (l : List Nat) (s : State) : Gates s (forL l (fun q s => s.gateQuire q) s) l := by
  induction l generalizing s with
  | nil => exact ⟨fun _ => (if_neg List.not_mem_nil).symm, fun _ h => absurd h List.not_mem_nil, fun _ h => h, rfl⟩
  | cons q l ih =>
    obtain ⟨quire, off, stays, rest⟩ := s.gateQuire_gates q
    obtain ⟨quire', off', stays', rest'⟩ := ih (s.gateQuire q)
    refine ⟨fun i => (quire' i).trans ?_, fun i hi t ht => ?_, fun t ht => stays' t (stays t ht), ?_⟩
    · rw [quire]
      by_cases hq : i = q <;> by_cases hl : i ∈ l <;> simp [hq, hl, gatedQuire]
    · obtain rfl | hl := List.mem_cons.1 hi
      · exact stays' t (off i List.mem_cons_self t ht)
      · exact off' i hl t ht
    · exact (congrArg (fun u : State => { u with quires := s.quires, tiles := s.tiles, mem := s.mem, synd := s.synd }) rest' :).trans rest

/-! ### The channels of quires that are gated (R301) -/

theorem State.chanAbort_idle {c : ChanRef} (h : chanIdle (s.chan c) = true) : s.chanAbort c = s := by
  unfold State.chanAbort
  dsimp only
  rw [h]
  exact if_pos rfl

/-- Quires whose channels are idle have nothing to abort. -/
theorem aborts_idle (idle : ∀ i ∈ l, ∀ c ∈ quireChans i, chanIdle (s.chan c) = true) : forL l (fun q s => (s.abortTileChans q).endTileAborts q) s = s := by
  have one (q : Nat) (hq : q ∈ l) : (s.abortTileChans q).endTileAborts q = s := by
    have abort : s.abortTileChans q = s := List.foldlRecOn (motive := fun u => u = s) _ _ rfl fun u hu c hc => by
      rw [hu]
      exact State.chanAbort_idle (idle q hq c hc)
    rw [abort]
    refine List.foldlRecOn (motive := fun u => u = s) _ _ rfl fun u hu c hc => ?_
    have quiet := idle q hq c hc
    have state : decide ((s.chan c).state = .aborting) = false := by
      unfold chanIdle at quiet
      cases h : (s.chan c).state <;> simp_all
    rw [hu]
    dsimp only
    rw [state, Bool.false_and, if_neg (by decide)]
  exact List.foldlRecOn (motive := fun u => u = s) _ _ rfl fun u hu q hq => by rw [hu]; exact one q hq

/-! ### A quire is woken (R269, R525) -/

/-- From `s` to `n` only memory has been cleared: the scratchpads of the tiles `l` read 0. -/
structure Cleared (s n : State) (l : List Nat) : Prop where
  zero : ∀ a, s.byteAt a = 0 → n.byteAt a = 0
  scratch : ∀ t ∈ l, ∀ i, i < 0x200000 → n.byteAt (scratchBase t + i) = 0
  rest : { n with mem := s.mem, synd := s.synd } = s

theorem byteAt_clearMem_of_zero {lo hi a : Nat} (h : s.byteAt a = 0) : (s.clearMem lo hi).byteAt a = 0 := by
  rw [State.byteAt_clearMem, h, ite_self]

theorem clearScratches (l : List Nat) (s : State) : Cleared s (forL l (fun t s => s.clearScratch t) s) l := by
  induction l generalizing s with
  | nil => exact ⟨fun _ h => h, fun _ h => absurd h List.not_mem_nil, rfl⟩
  | cons t l ih =>
    have cleared := s.clearScratch_rest t
    have zero' : ∀ a, s.byteAt a = 0 → (s.clearScratch t).byteAt a = 0 := fun a ha => byteAt_clearMem_of_zero ha
    have scratch' : ∀ i, i < 0x200000 → (s.clearScratch t).byteAt (scratchBase t + i) = 0 := fun i hi => (State.byteAt_clearMem ..).trans (if_pos (by omega))
    obtain ⟨zero, scratch, rest⟩ := ih (s.clearScratch t)
    have step : forL (t :: l) (fun t s => s.clearScratch t) s = forL l (fun t s => s.clearScratch t) (s.clearScratch t) := rfl
    rw [step]
    generalize s.clearScratch t = u at cleared zero' scratch' zero scratch rest ⊢
    refine ⟨fun a ha => zero a (zero' a ha), fun k hk i hi => ?_, (congrArg (fun u : State => { u with mem := s.mem, synd := s.synd }) rest :).trans cleared⟩
    obtain rfl | hl := List.mem_cons.1 hk
    · exact zero _ (scratch' i hi)
    · exact scratch k hl i hi

/-- Functions that hold no TLP have nothing to go on with. -/
theorem drains_idle (k : Nat) (tlps : ∀ f, (s.fn f).held = []) : forN k (fun f s => if (s.fn f).held.isEmpty then s else s.drainTlps f (s.fn f).held.length) s = s := by
  unfold Machine.forN
  refine foldl_keeps (fun v => v = s) (fun v f hv => ?_) _ s rfl
  rw [hv]
  exact if_pos (by rw [tlps f]; rfl)

/-- Where nothing waits for the quire, its wake is all that happens (R525). -/
theorem State.resumeQuire_idle (held : (s.quire q).held = []) (launches : (s.quire q).launches = []) (tlps : ∀ f, (s.fn f).held = []) :
    s.resumeQuire q = (s.modQuire q fun x => { x with held := [] }).modQuire q fun x => { x with launches := [] } := by
  have writes : s.applyHeldWrites q = s.modQuire q fun x => { x with held := [] } := by
    unfold State.applyHeldWrites
    rw [held]
    dsimp only
    split <;> rfl
  have delivers : (s.modQuire q fun x => { x with held := [] }).deliverLaunches q = (s.modQuire q fun x => { x with held := [] }).modQuire q fun x => { x with launches := [] } := by
    unfold State.deliverLaunches
    have none : ((s.modQuire q fun x => { x with held := [] }).quire q).launches = [] := by rw [State.quire_modQuire]; exact launches
    rw [none]
    rfl
  unfold State.resumeQuire
  dsimp only
  rw [writes, delivers]
  exact drains_idle 17 tlps

/-- From `s` to `n` quire `q` has been woken: it is on, with its channels at reset and its tiles' scratchpads cleared. -/
structure Wakes (s n : State) (q : Nat) : Prop where
  quire : n.quire q = { s.quire q with power := .on, chan := [] }
  others : ∀ i, i ≠ q → n.quire i = s.quire i
  scratch : ∀ t ∈ quireTiles q, ∀ i, i < 0x200000 → n.byteAt (scratchBase t + i) = 0
  rest : { n with quires := s.quires, mem := s.mem, synd := s.synd } = s

theorem State.wakeDone_wakes (s : State) (q : Nat) : Wakes s (s.wakeDone q) q := by
  obtain ⟨-, scratch, rest⟩ := clearScratches (quireTiles q) s
  have woken : s.wakeDone q = ((forL (quireTiles q) (fun t s => s.clearScratch t) s).clearQscratch q).modQuire q fun x => { x with power := .on, chan := [] } := by
    unfold State.wakeDone
    rfl
  rw [woken]
  generalize forL (quireTiles q) (fun t s => s.clearScratch t) s = u at scratch rest ⊢
  have zero : ∀ a, u.byteAt a = 0 → (u.clearQscratch q).byteAt a = 0 := fun a ha => byteAt_clearMem_of_zero ha
  have cleared := u.clearQscratch_rest q
  generalize u.clearQscratch q = c at zero cleared ⊢
  have quire : ∀ k, c.quire k = s.quire k := fun k => (quire_of_memory cleared k).trans (quire_of_memory rest k)
  refine ⟨?_, fun i hi => ?_, fun t ht i hi => (State.byteAt_modQuire ..).trans (zero _ (scratch t ht i hi)), ?_⟩
  · rw [State.quire_modQuire, quire]
  · rw [State.quire_modQuire_ne _ _ hi, quire]
  · exact (congrArg (fun z : State => ({ z with quires := s.quires, mem := s.mem, synd := s.synd } : State)) cleared :).trans (congrArg (fun z : State => ({ z with quires := s.quires } : State)) rest :)

end Sys2Proof.Machine
end

section
/-! Quires are gated and woken: FREE_QUIRE_GATE, QUIRE_GATE, QUIRE_GATING_DONE, QUIRE_WAKE and QUIRE_WAKE_DONE (R269, R523 to R526, R529; log 76). -/

namespace Sys2Proof.Machine

variable {s t n : State} {r : Req} {room : BitVec 8} {mask : BitVec 80} {q : QuireId} {m : Negotiation} {a : W64} {x : Record}

/-! ### FREE_QUIRE_GATE (R523) -/

/-- The negotiation that has been asked of the quires `todo`, for the command `record` of a room. -/
def gatingOf (todo : List Nat) (record : Option W64) (room : Option RoomId) : Negotiation := { target := 3, stopped := [], todo := todo, record := record, room := room }

theorem State.negotiate_gating (s : State) (todo : List Nat) (record : Option W64) (room : Option RoomId) : s.negotiate 3 todo record room = { s with pow := { s.pow with neg := some (gatingOf todo record room) } } := rfl

theorem freeQuireGate_negotiates (run : s.pow.state = .run) (awake : s.pow.neg = none) (free : s.quireRoom q = none) (on : (s.quire q).power = .on) (period : s.cfgN 0x9010 2 ≠ 0) :
    Leaves s (.freeQuireGate q) { s with pow := { s.pow with neg := some (gatingOf [q.val] none none) } } := by
  obtain ⟨i, settled⟩ := settle_eq s (s.negotiate 3 [q.val] none none)
  refine ⟨settle s (s.negotiate 3 [q.val] none none), ?_, ?_⟩
  · show execFreeQuireGate q s = _
    unfold execFreeQuireGate
    rw [if_pos (by simp [run, awake, free, on, period])]
  · rw [settled]
    rfl

/-- A quire that a room owns, or a period of 0, starts nothing. -/
theorem freeQuireGate_skips (h : s.quireRoom q ≠ none ∨ s.cfgN 0x9010 2 = 0) : exec (.freeQuireGate q) s = .next s := by
  show execFreeQuireGate q s = _
  unfold execFreeQuireGate
  rw [if_neg]
  obtain h | h := h
  · cases e : s.quireRoom q with
    | none => exact absurd e h
    | some r => simp
  · simp [h]

/-! ### The value of QUIRE_GATE and QUIRE_WAKE -/

/-- The value of QUIRE_GATE and QUIRE_WAKE: a room and a mask of quires. -/
def maskValue (room : BitVec 8) (mask : BitVec 80) : List Byte := [room] ++ leBytes 10 mask.toNat

/-- The quires that the mask names. -/
def named (mask : BitVec 80) : List Nat := (List.range 80).filter fun i => mask.getLsbD i

theorem maskValue_fields (room : BitVec 8) (mask : BitVec 80) : maskValue room mask = fieldBytes [(1, room.toNat), (10, mask.toNat)] := by
  simp [maskValue, fieldBytes, leBytes_byte]

theorem maskValue_room (room : BitVec 8) (mask : BitVec 80) : fieldAt (maskValue room mask) 0 1 = room.toNat := by
  rw [maskValue_fields]
  exact fieldAt_wordOf [] [(10, mask.toNat)] 1 room rfl

theorem maskQuires_maskValue (room : BitVec 8) (mask : BitVec 80) : maskQuires (maskValue room mask) = named mask := by
  have field : fieldAt (maskValue room mask) 1 10 = mask.toNat := by
    rw [maskValue_fields]
    exact fieldAt_wordOf [(1, room.toNat)] [] 10 mask (by norm_num)
  unfold maskQuires bitList
  rw [field]
  rfl

/-- The room is formed, and owns every quire that the mask names. -/
structure Names (s : State) (room : BitVec 8) (mask : BitVec 80) : Prop where
  low : room.toNat < 16
  formed : (s.room room.toNat).isFormed = true
  owned : ∀ i ∈ named mask, i ∈ s.roomQuires room.toNat

/-- What the effect reads of the rooms and the quires is not changed by recording the command. -/
theorem Names.recorded (h : Names s room mask) (k : ReplyOnly s t) : Names t room mask where
  low := h.low
  formed := by rw [ReplyOnly.room k]; exact h.formed
  owned := by rw [show t.roomQuires room.toNat = s.roomQuires room.toNat from (congrArg (fun z : State => z.roomQuires room.toNat) k :)]; exact h.owned

theorem Names.passes (h : Names s room mask) : (!(decide (room.toNat < 16) && (s.room room.toNat).isFormed)) = false ∧ ((named mask).any fun q => !(s.roomQuires room.toNat).contains q) = false := by
  refine ⟨by rw [h.formed, decide_eq_true h.low]; rfl, ?_⟩
  rw [List.any_eq_false]
  intro i hi
  simpa using h.owned i hi

/-! ### QUIRE_GATE and QUIRE_WAKE take effect -/

/-- The quires of the mask that are powered. -/
def powered (s : State) (mask : BitVec 80) : List Nat := (named mask).filter fun i => (s.quire i).power = .on

theorem State.quireGateEffect_named (h : Names s room mask) (awake : s.pow.neg = none) (acc : W64) : s.quireGateEffect acc (maskValue room mask) =
    if (powered s mask).isEmpty then .done stOK [255, 0] s else .wait (s.negotiate 3 (powered s mask) (some acc) (some (toRoom room.toNat))) := by
  obtain ⟨formed, owned⟩ := h.passes
  unfold State.quireGateEffect
  dsimp only
  rw [maskValue_room, maskQuires_maskValue, formed, if_neg (by decide), owned, if_neg (by decide), awake, if_neg (by decide)]
  rfl

theorem State.quireGateEffect_unformed (h : 16 ≤ room.toNat ∨ (s.room room.toNat).isFormed = false) (acc : W64) : s.quireGateEffect acc (maskValue room mask) = .refuse stSTATE s := by
  unfold State.quireGateEffect
  dsimp only
  rw [maskValue_room, if_pos]
  obtain h | h := h
  · rw [decide_eq_false (by omega)]; rfl
  · rw [h, Bool.and_false]; rfl

theorem State.quireGateEffect_foreign (low : room.toNat < 16) (formed : (s.room room.toNat).isFormed = true) (h : ∃ i ∈ named mask, i ∉ s.roomQuires room.toNat) (acc : W64) :
    s.quireGateEffect acc (maskValue room mask) = .refuse stRANGE s := by
  obtain ⟨i, hi, foreign⟩ := h
  unfold State.quireGateEffect
  dsimp only
  rw [maskValue_room, maskQuires_maskValue, formed, decide_eq_true low, if_neg (by decide), if_pos]
  exact List.any_eq_true.2 ⟨i, hi, by simpa using foreign⟩

theorem State.quireWakeEffect_named (h : Names s room mask) : s.quireWakeEffect (maskValue room mask) =
    let u := forL (named mask) (fun q s => s.askWake q) s
    if (named mask).all (fun q => (u.quire q).power = .on) then .ok u else .wait u := by
  obtain ⟨formed, owned⟩ := h.passes
  unfold State.quireWakeEffect
  dsimp only
  rw [maskValue_room, maskQuires_maskValue, formed, if_neg (by decide), owned, if_neg (by decide)]
  unfold State.maskAwake
  rw [maskQuires_maskValue]

theorem Recorded.awake {sub : Nat} (admits : Admits s r 0x9002 sub (maskValue room mask)) (ht : Recorded s t r 0x9002 sub (maskValue room mask) x) : t.pow = s.pow ∧ t.pow.neg = none ∧ ∀ i, t.quire i = s.quire i := by
  obtain ⟨-, -, -, awake, -⟩ := admits
  have same : t.pow = s.pow := (congrArg State.pow ht.only :)
  exact ⟨same, same ▸ awake, fun i => (congrArg (fun z : State => z.quire i) ht.only :)⟩

theorem quireGate_begins (admits : Admits s r 0x9002 1 (maskValue room mask)) (h : Names s room mask) (some' : ∃ i ∈ named mask, (s.quire i).power = .on) :
    Begun s (.quireGate r room mask) r 0x9002 1 (maskValue room mask) fun n => n.pow = { s.pow with neg := some (gatingOf (powered s mask) (some s.led.nextAcc) (some (toRoom room.toNat))) } := by
  refine begun_of admits (by decide) (by decide) (.inl rfl) rfl fun t x ht => ?_
  obtain ⟨pow, awake, quire⟩ := Recorded.awake admits ht
  have asked : powered t mask = powered s mask := by unfold powered; simp only [quire]
  refine ⟨t.negotiate 3 (powered s mask) (some s.led.nextAcc) (some (toRoom room.toNat)), ?_, ?_, ?_, fun i => ?_⟩
  · rw [ht.quireGate, State.quireGateEffect_named (h.recorded ht.only) awake, asked, if_neg, ht.accession]
    obtain ⟨i, hi, on⟩ := some'
    rw [List.isEmpty_iff]
    exact List.ne_nil_of_mem (List.mem_filter.2 ⟨hi, decide_eq_true on⟩)
  · exact ht.record.1
  · exact ht.current
  · rw [State.negotiate_gating, pow]

theorem quireGate_none (admits : Admits s r 0x9002 1 (maskValue room mask)) (h : Names s room mask) (none' : ∀ i ∈ named mask, (s.quire i).power ≠ .on) :
    Journaled s (.quireGate r room mask) r 0x9002 1 (maskValue room mask) 0 [255, 0] (ReplyOnly s) := by
  refine journaled_of (st := 0) admits (by decide) (by decide) (.inl rfl) rfl (by decide) fun t x ht => ?_
  obtain ⟨-, awake, quire⟩ := Recorded.awake admits ht
  refine ⟨t, ?_, ht.record.1, ht.queue, fun _ k => ht.only.trans k⟩
  have asked : powered t mask = [] := by
    unfold powered
    rw [List.filter_eq_nil_iff]
    intro i hi
    simpa [quire] using none' i hi
  rw [ht.quireGate, State.quireGateEffect_named (h.recorded ht.only) awake, asked]
  rfl

theorem quireGate_refused (admits : Admits s r 0x9002 1 (maskValue room mask)) :
    (room.toNat < 16 → (s.room room.toNat).isFormed = true → (∃ i ∈ named mask, i ∉ s.roomQuires room.toNat) → Refused s (.quireGate r room mask) r 0x9002 1 (maskValue room mask) 2) ∧
    ((16 ≤ room.toNat ∨ (s.room room.toNat).isFormed = false) → Refused s (.quireGate r room mask) r 0x9002 1 (maskValue room mask) 3) := by
  refine ⟨fun low formed foreign => ?_, fun h => ?_⟩
  · refine refused_of (st := 2) admits (by decide) (by decide) (.inl rfl) rfl (by decide) fun t x ht => ?_
    have rooms : t.room room.toNat = s.room room.toNat := ReplyOnly.room ht.only _
    have owned : t.roomQuires room.toNat = s.roomQuires room.toNat := (congrArg (fun z : State => z.roomQuires room.toNat) ht.only :)
    exact ht.quireGate.trans (State.quireGateEffect_foreign low (by rw [rooms, formed]) (by rw [owned]; exact foreign) _)
  · refine refused_of (st := 3) admits (by decide) (by decide) (.inl rfl) rfl (by decide) fun t x ht => ?_
    have rooms : t.room room.toNat = s.room room.toNat := ReplyOnly.room ht.only _
    exact ht.quireGate.trans (State.quireGateEffect_unformed (by rw [rooms]; exact h) _)

theorem quireWake_done (admits : Admits s r 0x9002 2 (maskValue room mask)) (h : Names s room mask) (on : ∀ i ∈ named mask, (s.quire i).power = .on) :
    Journaled s (.quireWake r room mask) r 0x9002 2 (maskValue room mask) 0 [] (ReplyOnly s) := by
  refine journaled_of (st := 0) admits (by decide) (by decide) (.inl rfl) rfl (by decide) fun t x ht => ?_
  obtain ⟨-, awake, quire⟩ := Recorded.awake admits ht
  refine ⟨t, ?_, ht.record.1, ht.queue, fun _ k => ht.only.trans k⟩
  have asked : forL (named mask) (fun q s => s.askWake q) t = t := List.foldlRecOn (motive := fun u => u = t) _ _ rfl fun u hu i hi => by
    rw [hu]
    exact State.askWake_running ((quire i).symm ▸ on i hi) awake
  rw [ht.quireWake, State.quireWakeEffect_named (h.recorded ht.only)]
  dsimp only
  rw [asked, if_pos]
  · rfl
  · exact List.all_eq_true.2 fun i hi => decide_eq_true ((quire i).symm ▸ on i hi)

theorem quireWake_begins (admits : Admits s r 0x9002 2 (maskValue room mask)) (h : Names s room mask) (gated : ∃ i ∈ named mask, (s.quire i).power = .gated) :
    Begun s (.quireWake r room mask) r 0x9002 2 (maskValue room mask) fun n =>
      (∀ i ∈ named mask, (s.quire i).power = .gated → (n.quire i).power = .waking) ∧ (∀ i, i ∉ named mask → n.quire i = s.quire i) ∧ n.pow = s.pow := by
  refine begun_of admits (by decide) (by decide) (.inl rfl) rfl fun t x ht => ?_
  obtain ⟨pow, awake, quire⟩ := Recorded.awake admits ht
  obtain ⟨asked, rest⟩ := askWakes awake (named mask)
  have effect := State.quireWakeEffect_named (h.recorded ht.only)
  dsimp only at effect
  generalize forL (named mask) (fun q s => s.askWake q) t = u at asked rest effect
  have wakes : ∀ i ∈ named mask, (s.quire i).power = .gated → (u.quire i).power = .waking := fun i hi off => by
    rw [asked, if_pos hi, quire]
    unfold askedAwake
    rw [off]
  have led : u.led = t.led := (congrArg State.led rest :)
  refine ⟨u, ?_, ?_, ?_, fun i => ⟨wakes, fun k hk => ?_, ?_⟩⟩
  · rw [ht.quireWake, effect, if_neg]
    obtain ⟨i, hi, off⟩ := gated
    intro all
    have := of_decide_eq_true (List.all_eq_true.1 all i hi)
    rw [wakes i hi off] at this
    cases this
  · unfold State.record
    rw [led]
    exact ht.record.1
  · rw [led]
    exact ht.current
  · exact (asked k).trans ((if_neg hk).trans (quire k))
  · exact (congrArg State.pow rest :).trans pow

/-! ### The negotiation ends (R524, R529) -/

/-- The last quire asked has stopped: all are gating. -/
theorem blockAnswer_stops {b : Nat} (neg : s.pow.neg = some m) (gating : m.target = 3) (quiet : m.active = none) (last : m.todo = [b]) (stopping : s.quireReason b = 0) :
    ∃ n, exec (.blockAnswer false) s = .next n ∧ (∀ i ∈ m.stopped ++ [b], (n.quire i).power = .gating) ∧
      n.pow.neg = some { m with stopped := m.stopped ++ [b], todo := [] } ∧ ∀ i, i ∉ m.stopped ++ [b] → n.quire i = s.quire i := by
  have answers : s.blockAnswers 0 = (none, forL (m.stopped ++ [b]) (fun q s => s.modQuire q fun x => { x with power := .gating }) (s.modPow fun p => { p with neg := some { m with stopped := m.stopped ++ [b], todo := [] } })) := by
    unfold State.blockAnswers
    rw [neg]
    dsimp only
    rw [quiet, last]
    dsimp only
    have reason : (if (0 : Nat) ≠ 0 then 0 else if m.target = 3 then s.quireReason b else s.blockReason b) = 0 := by rw [if_neg (by decide), if_pos gating, stopping]
    rw [reason, if_neg (by decide), if_pos (show ([] : List Nat).isEmpty = true from rfl)]
    unfold State.negDone
    rw [if_neg (by rw [gating]; decide), if_neg (by rw [gating]; decide)]
  have each := stops (s.modPow fun p => { p with neg := some { m with stopped := m.stopped ++ [b], todo := [] } }) (m.stopped ++ [b])
  generalize forL (m.stopped ++ [b]) _ _ = u at answers each
  obtain ⟨i, settled⟩ := settle_eq s u
  refine ⟨{ u with irq := i }, ?_, fun k hk => ?_, ?_, fun k hk => (each.quire k).trans (if_neg hk)⟩
  · show execBlockAnswer false s = _
    unfold execBlockAnswer
    rw [show s.blockAnswers (bit false) = _ from answers, ← settled]
    rfl
  · exact (congrArg Quire.power ((each.quire k).trans (if_pos hk)) :)
  · exact (congrArg Power.neg each.pow :)

/-- A command that ends a negotiation is done, once what the Ledger holds has been left alone. -/
theorem TakingEffect.done {u : State} (h : TakingEffect s a x) (led : u.led = s.led) (st : Nat) (res : List Byte) :
    ∃ n, settle s (u.completeCmd a st res) = n ∧ ReplyOnly u n ∧ DoneAs n a (BitVec.ofNat 8 st) res := by
  obtain ⟨-, queue, record, kind, open', reset⟩ := h
  have found : u.record a = some x := by
    unfold State.record at record ⊢
    rw [led]
    exact record
  have f := finishRec_finishes st res found kind open' reset
  have ends : u.completeCmd a st res = u.finishRec a st res := runQueue_empty _ _ (f.queue.trans (by rw [led, queue]))
  obtain ⟨i, settled⟩ := settle_eq s (u.finishRec a st res)
  refine ⟨_, rfl, ?_, ?_⟩
  · rw [ends, settled]
    exact f.only.trans rfl
  · rw [ends, settled]
    exact ⟨recDone st res x, f.record, rfl, rfl, rfl⟩

theorem quireGatingDone_runs : exec .quireGatingDone s = .next (settle s (negFinish s.gatingEnds)) := rfl

section
variable (neg : s.pow.neg = some m) (gating : m.target = 3) (quiet : m.active = none) (all : m.todo = []) (taking : TakingEffect s a x) (record : m.record = some a)
include neg gating quiet all taking record

theorem quireGatingDone_gates (stopped : ∀ i ∈ m.stopped, i < 80 ∧ (s.quire i).power = .gating ∧ s.quireReason i = 0 ∧ ∀ c ∈ quireChans i, chanIdle (s.chan c) = true) :
    ∃ n, exec .quireGatingDone s = .next n ∧ n.pow = { s.pow with neg := none } ∧ DoneAs n a 0 [255, 0] ∧
      (∀ i ∈ m.stopped, (n.quire i).power = .gated ∧ (n.quire i).lines = [] ∧ (n.quire i).cue = [] ∧ (n.quire i).chan = (s.quire i).chan ∧ ∀ t ∈ quireTiles i, n.tile t = {}) ∧
      ∀ i, i ∉ m.stopped → n.quire i = s.quire i := by
  have ends : s.gatingEnds = (some (a, stOK, [255, 0]), forL m.stopped (fun q s => s.gateQuire q) (s.modPow fun p => { p with neg := none })) := by
    have still : m.stopped.find? (fun q => decide ((s.quire q).power ≠ .gating)) = none := List.find?_eq_none.2 fun i hi => by simp [(stopped i hi).2.1]
    have reasons : m.stopped.find? (fun q => decide (s.quireReason q ≠ 0)) = none := List.find?_eq_none.2 fun i hi => by simp [(stopped i hi).2.2.1]
    have idle : (m.stopped.any fun q => (quireChans q).any fun c => !chanIdle (s.chan c)) = false := by
      simp only [List.any_eq_false, Bool.not_eq_true, Bool.not_eq_false']
      exact fun i hi c hc => (stopped i hi).2.2.2 c hc
    unfold State.gatingEnds
    rw [neg]
    dsimp only
    rw [gating, all, quiet, still, reasons, if_neg (by decide)]
    dsimp only
    rw [aborts_idle fun i hi => (stopped i hi).2.2.2, idle, if_neg (by decide), record]
    rfl
  obtain ⟨quire, off, -, rest⟩ := Gates.forL m.stopped (s.modPow fun p => { p with neg := none })
  generalize forL m.stopped (fun q s => s.gateQuire q) (s.modPow fun p => { p with neg := none }) = u at ends quire off rest
  obtain ⟨n, settled, only, done⟩ := TakingEffect.done (u := u) taking (congrArg State.led rest :) 0 [255, 0]
  have quires : ∀ i, n.quire i = u.quire i := fun i => (congrArg (fun z : State => z.quire i) only :)
  refine ⟨n, ?_, (congrArg State.pow only :).trans (congrArg State.pow rest :), done, fun i hi => ?_, fun i hi => (quires i).trans ((quire i).trans (if_neg hi))⟩
  · rw [quireGatingDone_runs, ends]
    exact congrArg Host.Outcome.next settled
  · rw [quires, quire, if_pos hi]
    exact ⟨rfl, rfl, rfl, rfl, fun t ht => (congrArg (fun z : State => z.tile t) only :).trans (off i hi t ht)⟩

/-- A quire woken meanwhile, or with a reason not to stop again, calls the gating off (R524, R530). -/
theorem quireGatingDone_refuses {i : Nat} (h : m.stopped.find? (fun j => decide ((s.quire j).power ≠ .gating)) = some i ∨
      ((∀ j ∈ m.stopped, (s.quire j).power = .gating) ∧ m.stopped.find? (fun j => decide (s.quireReason j ≠ 0)) = some i)) :
    ∃ n, exec .quireGatingDone s = .next n ∧ n.pow.neg = none ∧ DoneAs n a 3 [BitVec.ofNat 8 i, 1] ∧
      (∀ j ∈ m.stopped, (s.quire j).power = .gating → (n.quire j).power = .on) ∧ n.pow.kIdle = s.pow.kIdle ∧ n.pow.kStandby = s.pow.kStandby := by
  have ends : s.gatingEnds = s.negRefused m i 1 := by
    unfold State.gatingEnds
    rw [neg]
    dsimp only
    rw [gating, all, quiet, if_neg (by decide)]
    obtain woken | ⟨still, reason⟩ := h
    · rw [woken]
    · rw [List.find?_eq_none.2 fun j hj => by simp [still j hj], reason]
  obtain ⟨u, refused, neg', kIdle, kStandby, led, each⟩ : ∃ u, s.negRefused m i 1 = (some (a, stSTATE, [BitVec.ofNat 8 i, 1]), u) ∧ u.pow.neg = none ∧ u.pow.kIdle = s.pow.kIdle ∧ u.pow.kStandby = s.pow.kStandby ∧ u.led = s.led ∧
      ∀ j ∈ m.stopped, (s.quire j).power = .gating → (u.quire j).power = .on := by
    unfold State.negRefused
    dsimp only
    simp only [gating, if_neg (show ¬(3 : BitVec 8) = 1 by decide), if_neg (show ¬(3 : BitVec 8) = 2 by decide), if_true, record]
    refine ⟨_, rfl, ?_⟩
    generalize made : s.modPow _ = v
    obtain ⟨quire, rest⟩ := restarts v m.stopped
    have pow : (forL m.stopped (fun q s => if (s.quire q).power = .gating then s.modQuire q fun x => { x with power := .on } else s) v).pow = v.pow := (congrArg State.pow rest :)
    have led : (forL m.stopped (fun q s => if (s.quire q).power = .gating then s.modQuire q fun x => { x with power := .on } else s) v).led = v.led := (congrArg State.led rest :)
    rw [pow, led]
    subst made
    refine ⟨rfl, rfl, rfl, rfl, fun j hj off => ?_⟩
    rw [quire, if_pos hj]
    exact congrArg Quire.power (if_pos off)
  obtain ⟨n, settled, only, done⟩ := TakingEffect.done (u := u) taking led 3 [BitVec.ofNat 8 i, 1]
  have pow : n.pow = u.pow := (congrArg State.pow only :)
  refine ⟨n, ?_, by rw [pow, neg'], done, fun j hj off => ?_, by rw [pow, kIdle], by rw [pow, kStandby]⟩
  · rw [quireGatingDone_runs, ends, refused]
    exact congrArg Host.Outcome.next settled
  · rw [show n.quire j = u.quire j from (congrArg (fun z : State => z.quire j) only :)]
    exact each j hj off

end

/-! ### QUIRE_WAKE_DONE (R525) -/

/-- With nothing that waits for the quire, and no command in progress, its wake is all that happens. -/
theorem Wakes.settles {u : State} (h : Wakes s u q) (held : (s.quire q).held = []) (launches : (s.quire q).launches = []) (tlps : ∀ f, (s.fn f).held = []) (idle : s.led.current = none) :
    ∃ n, settle s ((u.resumeQuire q).wakePoll) = n ∧ (n.quire q).power = .on ∧ (∀ i, i ≠ q.val → n.quire i = s.quire i) ∧
      (∀ t ∈ quireTiles q, ∀ i, i < 0x200000 → n.byteAt (scratchBase t + i) = 0) ∧ n.pow = s.pow ∧ n.rooms = s.rooms ∧ n.tiles = s.tiles := by
  obtain ⟨woken, others, cleared, rest⟩ := h
  have none' : u.led.current = none := (congrArg (fun z : State => z.led.current) rest :).trans idle
  have resumed := State.resumeQuire_idle (s := u) (by rw [woken]; exact held) (by rw [woken]; exact launches) fun f => (congrArg (fun z : State => (z.fn f).held) rest :).trans (tlps f)
  have poll : (u.resumeQuire q).wakePoll = u.resumeQuire q := by
    rw [resumed]
    unfold State.wakePoll State.currentRec
    rw [State.modQuire_led, State.modQuire_led, none']
  obtain ⟨i, settled⟩ := settle_eq s (u.resumeQuire q)
  refine ⟨_, rfl, ?_⟩
  rw [poll, settled, resumed]
  refine ⟨?_, fun k hk => ?_, cleared, (congrArg State.pow rest :), (congrArg State.rooms rest :), (congrArg State.tiles rest :)⟩
  · refine Eq.trans (congrArg Quire.power (State.quire_modQuire (u.modQuire q fun x => { x with held := [] }) q fun x => { x with launches := [] })) ?_
    rw [State.quire_modQuire, woken]
  · refine (State.quire_modQuire_ne (u.modQuire q fun x => { x with held := [] }) (fun x => { x with launches := [] }) hk).trans ?_
    rw [State.quire_modQuire_ne _ _ hk, others k hk]

theorem quireWakeDone_wakes (waking : (s.quire q).power = .waking) (held : (s.quire q).held = []) (launches : (s.quire q).launches = []) (tlps : ∀ f, (s.fn f).held = []) (idle : s.led.current = none) :
    ∃ n, exec (.quireWakeDone q) s = .next n ∧ (n.quire q).power = .on ∧ (∀ i, i ≠ q.val → n.quire i = s.quire i) ∧
      (∀ t ∈ quireTiles q, ∀ i, i < 0x200000 → n.byteAt (scratchBase t + i) = 0) ∧ n.pow = s.pow ∧ n.rooms = s.rooms ∧ n.tiles = s.tiles := by
  obtain ⟨n, settled, leaves⟩ := (s.wakeDone_wakes q).settles held launches tlps idle
  refine ⟨n, ?_, leaves⟩
  show execQuireWakeDone q s = _
  unfold execQuireWakeDone
  rw [if_pos waking, settled]

theorem quireWakeDone_skips (h : (s.quire q).power ≠ .waking) : exec (.quireWakeDone q) s = .next s := by
  show execQuireWakeDone q s = _
  unfold execQuireWakeDone
  rw [if_neg h]

/-- Settles O52: each event is one change of the quires it names, and the commands are recorded and completed around it. -/
theorem quiresAreGatedAndWoken : Obligations.QuiresAreGatedAndWoken := by
  intro s r room mask q m a x
  refine ⟨fun run awake free on => ⟨freeQuireGate_negotiates run awake free on, fun h => freeQuireGate_skips (.inr h)⟩, fun h => freeQuireGate_skips (.inl h), ⟨fun admits => ⟨fun low formed owned => ?_, quireGate_refused admits⟩,
    fun admits low formed owned => ⟨quireWake_done admits ⟨low, formed, owned⟩, quireWake_begins admits ⟨low, formed, owned⟩⟩⟩, fun neg gating quiet => ⟨fun b => blockAnswer_stops neg gating quiet, ?_, ?_⟩,
    quireWakeDone_wakes, quireWakeDone_skips⟩
  · exact ⟨quireGate_begins admits ⟨low, formed, owned⟩, quireGate_none admits ⟨low, formed, owned⟩⟩
  · exact fun all stopped record taking => quireGatingDone_gates neg gating quiet all taking record stopped
  · exact fun i all h record taking => quireGatingDone_refuses neg gating quiet all taking record h

end Sys2Proof.Machine
end
